-- ==== Sys2Proof/Word.lean ====
section
/-! DEFINITION. The word types of the KR7360: 32-bit register words and bytes (02, R35). -/

namespace Sys2Proof

/-- A 32-bit register or memory word. -/
abbrev Word := BitVec 32

/-- One byte of memory. -/
abbrev Byte := BitVec 8

end Sys2Proof
end

