-- ==== Sys2Proof/Syntax.lean ====
section
/-! DEFINITION. The commands of the KR7360 block: writes and reads of its registers, messages on its buses and ports, and the
events that its pins, sensors and clocks give it (95 and the table of operations and events). -/

namespace Sys2Proof

/-- Who makes an access: the core pair EC0/EC1 (`app`), EC2, EC3, the host port, the side-band port, or the ring device with
the given address (02, R51; 15). DMA acts for its owner inside the block. -/
inductive Who where
  | app | ec2 | ec3 | host | sbp
  | ring (dev : BitVec 10)
  deriving DecidableEq, Repr

/-- Size of an access in bytes: 1, 2 or 4 (02, R35). -/
inductive AccSize where
  | byte | half | word
  deriving DecidableEq, Repr

/-- A core that executes: the lockstep pair EC0/EC1, EC2 or EC3 (13 Table 1). -/
inductive EcCore where
  | app | ec2 | ec3
  deriving DecidableEq, Repr

/-- What a G-format instruction holds beside its OP: M, SH and the extension halfwords, the first one in the low half (14 Tables 3
and 4). -/
structure GForm where
  m : BitVec 4
  sh : BitVec 5
  ext : Word
  deriving DecidableEq, Repr

/-- An instruction that exists in G and in P format; W is a word index (14 Table 4). -/
inductive Form where
  | g (f : GForm)
  | p (w : BitVec 10)
  deriving DecidableEq, Repr

/-- An output with a pulse generator. -/
inductive GenOut where
  | hsc (n : Fin 72)
  | hb (n : Fin 12)
  deriving DecidableEq, Repr

/-- An output, or another circuit, with the protection of 06. -/
inductive ProtOut where
  | hsc (n : Fin 72)
  | hb (n : Fin 12)
  | sol (n : Fin 16)
  | sbk
  | lst (n : Fin 4)
  | lmx
  | lfa (a : Fin 4)
  deriving DecidableEq, Repr

/-- What the measuring sequencer MSQ gives in one 100 µs tick (07 Table 1). -/
structure TickSamples where
  /-- TBS at the tick. -/
  now : BitVec 64
  /-- Per channel that conducted, its protection codes and the PWR clocks that each stands for (R123, R124). -/
  prot : List (Fin 72 × List (BitVec 12 × Nat))
  /-- Latest on-state current code of a channel that is statically on; the Bool: R_ON enhancement was complete (R149). -/
  imeas : List (Fin 72 × BitVec 12 × Bool)
  /-- Output voltages of HSC00–HSC71 and HB00–HB11, 15 mV. -/
  vout : List (Fin 84 × BitVec 12)
  /-- Temperatures by output number (R279; 104 the matrix), HSC.TEMP coding. -/
  temp : List (Fin 105 × BitVec 12)
  /-- Bridge currents, 10 mA; the Bool: the current flows into the output. -/
  hbi : List (Fin 12 × Bool × BitVec 12)
  /-- String currents, 0.5 mA, and output voltages, 15 mV. -/
  lst : List (Fin 4 × BitVec 12 × BitVec 12)
  /-- Supplies of dies H, M, L and B, 15 mV. -/
  vdie : List (BitVec 12)
  vbat : BitVec 12
  vbst : BitVec 12
  /-- The boost converter reached its input current limit in the last 1 ms. -/
  bstLim : Bool
  deriving DecidableEq, Repr

/-- What the governor takes from the sequencer in its 1 ms tick beside what the registers hold (12 Table 11). -/
structure LossSamples where
  /-- Voltage of each matrix column while it conducts, mV. -/
  colV : List Nat
  /-- On-time of each valve's low side and its free-wheeling time in the tick, 1/4096. -/
  valve : List (Fin 16 × BitVec 13 × BitVec 13)
  /-- Output power of the boost converter, mW. -/
  boost : Nat
  /-- LF driver loss as LFA reports it, mW. -/
  lf : Nat
  deriving DecidableEq, Repr

/-- A ring frame (15 Table 3); LEN is the number of payload bytes. -/
structure RingFrame where
  dst : BitVec 10
  src : BitVec 10
  ty : BitVec 4
  bc : Bool
  nb : Bool
  wcnt : BitVec 2
  seq : BitVec 12
  hop : BitVec 11
  data : List Byte
  deriving DecidableEq, Repr

/-- A CAN frame as received (18 Table 1); the identifier in element coding. -/
structure CanFrame where
  ide : Bool
  fdf : Bool
  brs : Bool
  esi : Bool
  id : BitVec 29
  dlc : BitVec 4
  data : List Byte
  deriving DecidableEq, Repr

/-- How a transmission attempt ends: sent, lost in arbitration, or failed with the LEC code (18, R408, R409); `free`: the error is one of
the two that ISO 11898-1 does not count, a missing acknowledgement of an error-passive transmitter or a stuff error in arbitration. -/
inductive CanEnd where
  | sent
  | lost
  | failed (code : BitVec 3) (free : Bool)
  deriving DecidableEq, Repr

/-- A transceiver with a TXD dominant timeout (18, R409, Table 6). -/
inductive TxdPort where
  | can (n : Fin 2)
  | lin (n : Fin 6)
  deriving DecidableEq, Repr

/-- Traffic on a routed bus in LISTEN, free of errors (18, R420). -/
inductive ListenTraffic where
  | can (n : Fin 2) (f : CanFrame)
  | lin (n : Fin 6) (id : BitVec 6) (data : List Byte) (csum : Byte)
  | linWake (n : Fin 6)
  deriving DecidableEq, Repr

/-- Traffic heard in LISTEN, with whether it began after the entry to LISTEN (R420). -/
structure Heard where
  t : ListenTraffic
  whole : Bool
  deriving DecidableEq, Repr

/-- The levels of a cyclic-sensing burst, and whether the AON copy of the cyclic set passes its check (R274, R278). -/
structure CycSample where
  levels : BitVec 64
  copyOk : Bool
  deriving DecidableEq, Repr

/-- The current sample of a pulse, and whether MSQ could serve the request for it (R149). -/
structure PulseSample where
  code : BitVec 12
  served : Bool
  deriving DecidableEq, Repr

/-- The coil current where HOLD chops, and whether the on-time was 12 µs or more (R220). -/
structure ChopSample where
  code : BitVec 12
  long : Bool
  deriving DecidableEq, Repr

/-- A valve whose closing window ends, with the latest sample of it (R206). -/
structure WindowEnd where
  n : Fin 16
  code : BitVec 12
  deriving DecidableEq, Repr

/-- A swap trigger: 0 NEXT, 1 MSYNC, 2 TBS; for MSYNC whether its edge rises (R243). -/
structure SwapCause where
  kind : Fin 3
  rise : Bool
  deriving DecidableEq, Repr

/-- How a received frame ends and is taken: with EOF and not ABORT; the FIFO has room for it (R342, R344). -/
structure FrameEnd where
  eof : Bool
  room : Bool
  deriving DecidableEq, Repr

/-- When a frame of the device's own goes out: in a gap, and how long after the clock of its MTIME (R343, R351). -/
structure OwnSlot where
  gap : Bool
  wait : Word
  deriving DecidableEq, Repr

/-- How an enumeration frame has come: its lane, HOP, WCNT and source, and its residence in this device (R342, R348). -/
structure EnumFrom where
  laneB : Bool
  hop : BitVec 11
  wcnt : BitVec 2
  res : Word
  src : BitVec 10
  deriving DecidableEq, Repr

/-- The data and the checksum of a LIN frame (R415). -/
structure LinResp where
  data : List Byte
  csum : Byte
  deriving DecidableEq, Repr

/-- An MRAM row, with the corrected reads it has had since boot (R519). -/
structure RowReads where
  row : Fin 28672
  reads : Byte
  deriving DecidableEq, Repr

/-- A token's reply as the base station receives it: measured start in carrier cycles, whether a bit collided, its CRC-8; with the carrier frequency (10 Hz) and the peak antenna current (1 mA) measured meanwhile (19, R432, R437, Table 10). -/
structure LfReply where
  start : Byte
  coll : Bool
  crc : Byte
  freq : BitVec 16
  peak : BitVec 12
  deriving DecidableEq, Repr

/-- The reply that acknowledges a round: one byte (R436). -/
structure LfAckIn where
  r : LfReply
  b : Byte
  deriving DecidableEq, Repr

/-- What an antenna of a WATCH burst hears (R449): no reply in the window, an ID received in full, or a collision bit. -/
inductive LfPoll where
  | none
  | id (v : Word)
  | collision
  deriving DecidableEq, Repr

/-- What an antenna driver reports (19 Table 11). -/
inductive LfFault where
  | isOpen | short | noLock | thermal
  deriving DecidableEq, Repr

/-- What ends an installation at boot before its end, with the stage of 21 Table 5 that it reaches: 0 verification, 1 the copy, 2 the slot
record written, 3 the update record written (R468, R488). -/
inductive BootCut where
  | power (stage : Fin 4)
  | tamper (stage : Fin 4) (src : Fin 6)
  deriving DecidableEq, Repr

/-- What the boot ROM finds on its way: the AON count of a wake, and what cuts an installation (R34, R488). -/
structure BootRun where
  aonCnt : Option Word
  cut : Option BootCut
  deriving DecidableEq, Repr

/-- The commands of the block: one constructor per row of the table of operations and events, in the table's order. A write or
read row carries its initiator; an event row carries what the pins, the sensors or another device give it. -/
inductive Instr where
  /-- POWER_ON (R530): VBATL rises above V_POR+: every domain resets and the device leaves OFF for BOOT. -/
  | powerOn
  /-- POWER_LOSS (R530): VBATL falls below V_POR-: the device enters OFF from any mode. -/
  | powerLoss
  /-- RESET_PIN (R77): RESETN held low for at least 1 µs resets every domain except AON and enters BOOT. -/
  | resetPin
  /-- REGISTER_WRITE (R36): A write to a page register that has no row of its own takes effect live, waits in shadow,
  or is rejected under the RWL and rights rules. -/
  | registerWrite (who : Who) (addr : Word) (size : AccSize) (v : Word)
  /-- PAGE_COMMIT (R44): A write of PCTL.COMMIT queues a commit of the page to the commit checker, or is rejected
  with WERR. -/
  | pageCommit (who : Who) (page : Byte) (apply : BitVec 2) (enable : Bool)
  /-- COMMIT_CHECK_DONE (R42): The checker ends its CLASS, CRC, RANGE and CONSIST checks and rejects the commit,
  applies it, or leaves it pending. -/
  | commitCheckDone
  /-- PERIOD_BOUNDARY_APPLY (R45): A commit pending with class PERIOD applies at the block's next period boundary. -/
  | periodBoundaryApply (page : Byte)
  /-- PAGE_ABORT (R46): A write of PCTL.ABORT abandons a pending commit with CRES ABORTED and reloads the shadow from
  the applied configuration. -/
  | pageAbort (who : Who) (page : Byte) (apply : BitVec 2) (enable : Bool)
  /-- PAGE_ENABLE (R48): A write that changes PCTL.ENABLE enables or disables the block, or is rejected with WERR. -/
  | pageEnable (who : Who) (page : Byte) (apply : BitVec 2) (enable : Bool)
  /-- PAGE_LOCK (R49): A write of PCTL.LOCK locks the page until the next reset of its domain. -/
  | pageLock (who : Who) (page : Byte) (apply : BitVec 2) (enable : Bool)
  /-- PFORCE_WRITE (R55): A write of PFORCE asserts or releases fault sources by injection. -/
  | pforceWrite (who : Who) (page : Byte) (v : Word)
  /-- PFLT_CLEAR (R56): A W1C of PFLT clears fault flags whose sources are no longer asserted; clearing LOCKOUT ends
  a lockout. -/
  | pfltClear (who : Who) (page : Byte) (v : Word)
  /-- PSTAT_CLEAR (R541): A W1C of PSTAT.WERR or CMTDONE by the holder of C clears the bit and releases the page
  interrupt. -/
  | pstatClear (who : Who) (page : Byte) (v : Word)
  /-- PROT_CLR (R59): A write of PROT.CLR.REC clears the refused-access record and count. -/
  | protClr (who : Who)
  /-- PMU_WRITE_APPLY (R25): A pending write to a PMU live register takes effect in AON 2-3 AON clocks after its
  acknowledgement. -/
  | pmuWriteApply
  /-- ACCTCLR_MASK (R73): Writing PMU.ACCTCLR.MASK clears every false-wake mask bit. -/
  | acctclrMask (who : Who)
  /-- ACCTCLR_FWAKE (R72): Writing PMU.ACCTCLR.FWAKE clears FWAKE.COUNT and LAST. -/
  | acctclrFwake (who : Who)
  /-- ACCTCLR_REFUSE (R68): Writing PMU.ACCTCLR.REFUSE clears REFUSE and REFWHO. -/
  | acctclrRefuse (who : Who)
  /-- SYS_CLOCK_LOSS (R16): No SYS heartbeat toggle is seen for 160 PWR clocks and the SYS-clock-loss fault is
  raised. -/
  | sysClockLoss
  /-- CLOCK_MONITOR_WINDOW (R34): At the end of each 100 µs window BUSCNT and RCDIFF refresh and a count out of
  limits raises its FLT source. -/
  | clockMonitorWindow (busCnt rcDiff : BitVec 16) (aBad bBad : Bool)
  /-- MREQ_RUN (R94): A DEV.MREQ write of RUN takes the device from HOLD to RUN if the required pages are configured,
  or is rejected. -/
  | mreqRun (who : Who)
  /-- MREQ_PARK (R61): A DEV.MREQ write of PARK starts Park entry at once in RUN or HOLD, or is rejected. -/
  | mreqPark (who : Who)
  /-- MREQ_LIMP (R62): A DEV.MREQ write of LIMP takes the device from RUN or HOLD into LIMP, or is rejected. -/
  | mreqLimp (who : Who)
  /-- IDLE_TIMER_EXPIRY (R65): The idle count reaches zero in RUN or HOLD and Park entry starts. -/
  | idleTimerExpiry (noBeacon : Bool)
  /-- PARK_QUIESCE_END (R66): At t1 the keep-awake sources, blocks and wake sources are checked and Park entry is
  refused or continues. -/
  | parkQuiesceEnd (updBusy jrnBusy : Bool)
  /-- PARK_T2 (R128): At t2 MRAM writes end, the fuse-state record is written, gates turn off, causeways close and
  transmitters turn off. -/
  | parkT2 (sec : Word)
  /-- PARK_T3 (R67): At t3 DEV.MODE becomes PARK or WATCH, the domains power down and wake receivers are armed. -/
  | parkT3 (levels : Byte)
  /-- WAKE_BUS_ACTIVITY (R69): A qualifying dominant run on CAN0, CAN1 or a LIN wakes the device into LISTEN or BOOT.
  -/
  | wakeBusActivity (bus : Fin 8) (also : Byte) (sec : Word) (sub : BitVec 16)
  /-- WAKE_CAN_PATTERN (R69): The ISO 11898-2 wake-up pattern on CAN0 or CAN1 wakes the device. -/
  | wakeCanPattern (bus : Fin 2) (also : Byte) (sec : Word) (sub : BitVec 16)
  /-- WAKE_LIN_PULSE (R69): A LIN wake pulse wakes the device. -/
  | wakeLinPulse (n : Fin 6) (also : Byte) (sec : Word) (sub : BitVec 16)
  /-- WAKE_HORN (R355): A qualified horn on a lane wakes the device, powers the ring PHY, opens the causeways and
  regenerates the horn. -/
  | wakeHorn (laneB : Bool) (also : Byte) (sec : Word) (sub : BitVec 16)
  /-- WAKE_STRONG_INPUT (R273): A strong-wake input crosses away from its latched level for the filter time and wakes
  the device. -/
  | wakeStrongInput (n : Fin 8) (high : Bool) (also : Byte) (sec : Word) (sub : BitVec 16)
  /-- WAKE_RTC_ALARM (R69): An RTC alarm match wakes the device. -/
  | wakeRtcAlarm (also : Byte) (sec : Word) (sub : BitVec 16)
  /-- WAKE_SIDEBAND (R71): A side-band address match with SBW set wakes the device. -/
  | wakeSideband (also : Byte) (sec : Word) (sub : BitVec 16)
  /-- LISTEN_TIMEOUT (R72): No qualifying traffic within LTO returns the device to PARK or WATCH and counts a false
  wake. -/
  | listenTimeout
  /-- QUALIFYING_TRAFFIC (R420): A qualifying frame, NM message or second wake pulse on a routed bus takes the device
  from LISTEN to BOOT. -/
  | qualifyingTraffic (h : Heard) (copyOk : Bool)
  /-- SCHEDULE_END (R63): When every WATCH burst schedule has ended the device goes from WATCH to PARK. -/
  | scheduleEnd
  /-- CYCLIC_SENSE_BURST (R274): A WATCH burst wets each cyclic input, samples it against its reference and wakes on
  a difference. -/
  | cyclicSenseBurst (b : CycSample) (also : Byte) (sec : Word) (sub : BitVec 16)
  /-- CYCLIC_CONFIRM_BURST (R274): With CONF set, a burst 5 ms later confirms a difference before the wake. -/
  | cyclicConfirmBurst (levels : BitVec 64) (also : Byte) (sec : Word) (sub : BitVec 16)
  /-- POLL_BURST (R449): A WATCH burst drives each poll antenna with IDREQ and wakes on a reply from a known ID or a
  collision. -/
  | pollBurst (copyOk : Bool) (heard : List LfPoll) (also : Byte) (sec : Word) (sub : BitVec 16)
  /-- POLL_STEP_END (R448): The UNTIL time of a poll step passes and the next step, or the end of polling, applies.
  -/
  | pollStepEnd
  /-- SWRST (R77): A write of RST.SWRST with KEY 0xA5 resets the device, with cause RING when written by the manager.
  -/
  | swrst (who : Who) (v : Word)
  /-- WDKICK (R80): A write of RST.WDKICK with KEY 0x5A restarts the watchdog count. -/
  | wdkick (who : Who) (v : Word)
  /-- WATCHDOG_EXPIRY (R80): The watchdog count expires in RUN or HOLD and the device resets with cause WDOG. -/
  | watchdogExpiry
  /-- RST_CLR_COUNT (R77): A write of RST.CLR.COUNT clears RST.COUNT. -/
  | rstClrCount (who : Who)
  /-- REFLEX_LOAD_COMPLETE (R81): The reflex loader finishes reading, checking and applying the RFX record, or
  refuses it. -/
  | reflexLoadComplete (time : BitVec 16)
  /-- ROM_BOOT (R84): EC3 runs the boot ROM sequence: tokens, keys, install, slot choice, configuration and manifest
  load, core release. -/
  | romBoot (recov : Bool) (otpBad : List (Fin 512)) (run : BootRun)
  /-- END_OF_BOOT (R93): The ROM releases the cores and the device takes BOOT in recovery, LIMP, HOLD or RUN by
  precedence. -/
  | endOfBoot
  /-- RECOVERY_DOWNLOAD_MESSAGE (R489): An ISO 15765-2 message on CAN0 in recovery writes its data into the slipway
  at its offset. -/
  | recoveryDownloadMessage (data : List Byte)
  /-- RECOVERY_DOWNLOAD_END (R489): The end message makes the ROM install, reply with LAST and reset on success. -/
  | recoveryDownloadEnd
  /-- HSC_CMD_WRITE (R99): A write of HSC.CMD sets the commanded demand and stay-on of a channel. -/
  | hscCmdWrite (who : Who) (n : Fin 72) (v : Word)
  /-- HSC_CMDS (R117): A W1S write of HSC.CMDS sets CMD bits. -/
  | hscCmds (who : Who) (n : Fin 72) (v : Word)
  /-- HSC_CMDC (R117): A W1C write of HSC.CMDC clears CMD bits. -/
  | hscCmdc (who : Who) (n : Fin 72) (v : Word)
  /-- HSC_DUTY_WRITE (R105): A write of HSC.DUTY sets the duty that the generator takes at its next pulse start. -/
  | hscDutyWrite (who : Who) (n : Fin 72) (v : Word)
  /-- PULSE_START (R103): At clock s of a period the generator takes the compensated and trimmed duty and turns the
  gate on. -/
  | pulseStart (o : GenOut)
  /-- PULSE_END (R103): The on-time count expires and the gate turns off under slew; `enh`: enhancement was
  complete 2 µs before it. -/
  | pulseEnd (o : GenOut) (m : PulseSample) (enh neg : Bool)
  /-- CHARGE_COMPLETE (R110): VOUT comes within 1 V of V_f and a CAP channel turns fully on. -/
  | chargeComplete (n : Fin 72)
  /-- CHARGE_TIMEOUT (R110): The charge phase lasts CAPT and the channel turns off with CHGTO. -/
  | chargeTimeout (n : Fin 72)
  /-- FUSE_ENGINE_TICK (R124): Every 100 µs the fuse engine forms Q and updates the wire temperature of every
  channel. -/
  | fuseEngineTick (m : TickSamples)
  /-- HARD_SHORT_TRIP (R133): The switch current crosses I_HS and the gate discharges at full current with HSHORT. -/
  | hardShortTrip (o : ProtOut)
  /-- THERMAL_LATCH (R134): A junction reaches T_LATCH and the gate discharges with TLATCH. -/
  | thermalLatch (o : ProtOut)
  /-- LATCH_RELEASE (R134): The junction falls by the hysteresis and the thermal latch releases. -/
  | latchRelease (o : ProtOut)
  /-- DELTA_T_LATCH (R135): A channel exceeds the die reference by the ΔT limit and turns off with DTEMP. -/
  | deltaTLatch (o : ProtOut)
  /-- DELTA_T_RELEASE (R135): The difference falls by the hysteresis and the ΔT limit releases. -/
  | deltaTRelease (o : ProtOut)
  /-- RESTART_DELAY_EXPIRY (R137): The restart delay of a trip or latch event elapses. -/
  | restartDelayExpiry (o : ProtOut)
  /-- RESTART (R138): On the first edge at which all restart conditions hold the channel conducts again and consumes
  a retry. -/
  | restart (o : ProtOut)
  /-- RETRY_COUNT_CLEAR (R140): After 10 s of conduction without an event RUSED returns to 0. -/
  | retryCountClear (o : ProtOut)
  /-- INRUSH_WINDOW_END (R130): The inrush window closes and the overload level returns to I_OV. -/
  | inrushWindowEnd (n : Fin 72)
  /-- SEGMENT_SUBSTITUTE (R115): SPR substitutes the spare segment on a PWR edge with the channel's gate off. -/
  | segmentSubstitute (n : Fin 72)
  /-- OFF_STATE_CHECK_START (R153): The check timer starts an off-state check on an off channel. -/
  | offStateCheckStart (n : Fin 72)
  /-- OFF_STATE_PHASE_END (R152): An off-state phase reaches t_OS and compares VOUT, giving PASS, OPENLOAD or STB or
  starting phase 2. -/
  | offStatePhaseEnd (n : Fin 72) (vout : BitVec 12) (room : Bool)
  /-- DIAG_RESULT_TIMEOUT (R157): No valid result for 200 ms makes DRES.RESULT UNAVAIL. -/
  | diagResultTimeout (n : Fin 72)
  /-- SLICE_REFERENCE_CHECK (R147): Each 100 µs a slice converts its reference and a result out of tolerance marks it
  failed. -/
  | sliceReferenceCheck (k : Fin 4) (dev : Int)
  /-- SLICE_SUBSTITUTE (R147): SPR substitutes the spare slice at the next 1 µs schedule boundary. -/
  | sliceSubstitute (k : Fin 4)
  /-- BASE_TEMP_REFRESH (R125): Every 1 ms T_A is refreshed and clamped, and a disagreeing base sensor raises TBASE.
  -/
  | baseTempRefresh (base : BitVec 12) (refs : List (BitVec 12))
  /-- WEAR_MEASUREMENT (R159): MSQ measures all segments of a channel and raises SEGWEAR or marks a segment failed;
  `currents`: of segments 0 to 8, in mA. -/
  | wearMeasurement (n : Fin 72) (currents : List Nat)
  /-- STREAM_SAMPLE_WRITE (R160): MSQ writes a valid sample into its stream ring, or drops it with OVF when full. -/
  | streamSampleWrite (src : Fin 6) (idx : Byte) (code : BitVec 12)
  /-- HB_CMD_WRITE (R169): A write of HB.CMD sets the commanded action of a bridge, or is refused with WERR. -/
  | hbCmdWrite (who : Who) (n : Fin 12) (v : Word)
  /-- HB_DUTY_WRITE (R171): A write of HB.DUTY sets the duty taken at the next pulse start. -/
  | hbDutyWrite (who : Who) (n : Fin 12) (v : Word)
  /-- HB_POS_WRITE (R184): A write of HB.POS normalises the position, clears RPER.INS and sets POSVALID. -/
  | hbPosWrite (who : Who) (n : Fin 12) (v : Word)
  /-- REVERSAL_PAUSE_END (R174): TREV has elapsed with the current below 1 A and the new direction starts. -/
  | reversalPauseEnd (n : Fin 12)
  /-- CURRENT_LIMIT_ACT (R178): The current exceeds ILIM and the driven switch turns off for the rest of the period.
  -/
  | currentLimitAct (n : Fin 12)
  /-- STALL_TRIP (R179): The stall condition holds for STIME and the bridge trips with STALL. -/
  | stallTrip (n : Fin 12)
  /-- RIPPLE_ACCEPTED (R184): A ripple passes the hysteresis and period check and the position counts. -/
  | rippleAccepted (n : Fin 12) (per : BitVec 16) (mean : BitVec 12)
  /-- RIPPLE_INSERTED (R184): No ripple arrives within 7/4 of the expected period and one is inserted. -/
  | rippleInserted (n : Fin 12)
  /-- STANDSTILL (R184): 20 ms without an accepted ripple at low current sets STILL. -/
  | standstill (n : Fin 12)
  /-- PARK_TIMEOUT (R187): PARKRUN lasts PTO and the bridge applies STOP with PARKTO. -/
  | parkTimeout (n : Fin 12)
  /-- SOL_CMD_WRITE (R202): A write of SOL.CMD.ON starts a profile or ends hold, boost or deferral. -/
  | solCmdWrite (who : Who) (n : Fin 16) (v : Word)
  /-- SOL_TRIG (R202): A write of SOL.CMD.TRIG starts a timed profile. -/
  | solTrig (who : Who) (n : Fin 16) (v : Word)
  /-- BOOST_PEAK_REACHED (R201): The coil current reaches IPEAK and the valve passes from BOOST into HOLD. -/
  | boostPeakReached (n : Fin 16) (dur : BitVec 16) (ipk : BitVec 12)
  /-- BOOST_TIMEOUT (R201): BOOST lasts TBMAX and the valve passes into HOLD with BOOSTTO and VLVFAIL. -/
  | boostTimeout (n : Fin 16) (dur : BitVec 16) (ipk : BitVec 12)
  /-- HOLD_CHOP (R201): The coil current crosses a hysteresis limit and the low side chops. -/
  | holdChop (n : Fin 16) (off : Bool) (m : ChopSample)
  /-- TRIG_HOLD_EXPIRY (R202): THOLD expires on a TRIG profile and the valve passes into DECAY. -/
  | trigHoldExpiry (n : Fin 16)
  /-- DECAY_END (R201): The coil voltage rises above -0.3 V and DECAY ends, opening a closing window if permitted. -/
  | decayEnd (n : Fin 16)
  /-- DECAY_NOZERO_TIMEOUT (R207): The current does not reach zero within 50 ms and the result is NOZERO. -/
  | decayNozeroTimeout (n : Fin 16)
  /-- CLOSING_DETECTED (R206): The second difference reaches TH and the window closes with RES VALID and CLOSED. -/
  | closingDetected (n : Fin 16) (tdec : Nat) (v : List (BitVec 12))
  /-- CLOSING_WINDOW_EXPIRY (R207): The window ends without a closing: RES NONE and the miss count increments. -/
  | closingWindowExpiry (w : WindowEnd)
  /-- DEFERRAL_TIMEOUT (R211): A deferral reaches its limit and the valve raises DEFERTO and turns off into DECAY. -/
  | deferralTimeout (n : Fin 16)
  /-- COIL_MODEL_UPDATE (R215): Every 1 ms the coil temperature is updated and the coil limit is evaluated. -/
  | coilModelUpdate (pairs : List (Fin 16 × BitVec 12 × BitVec 12)) (power : List (Fin 16 × Nat))
  /-- BOOST_UNDERVOLTAGE (R198): VBST falls below VMIN, setting UV and raising BSTUV. -/
  | boostUndervoltage (vbst : BitVec 12)
  /-- BOOST_OVERVOLTAGE (R198): VBST above 1.1 VSET for 10 µs stops the converter and raises BSTOV. -/
  | boostOvervoltage (vbst : BitVec 12)
  /-- BOOST_OVERCURRENT (R219): The converter switch exceeds 12 A and raises BSTOC. -/
  | boostOvercurrent
  /-- BANK_SWITCH_FAULT (R219): A bank node stays 2 V from its rail for 20 µs and raises BKSW. -/
  | bankSwitchFault
  /-- BANK_SEL_APPLY (R219): A new SEL takes effect for a bank at the first edge with no valve of it in BOOST. -/
  | bankSelApply (b : Fin 4)
  /-- LST_CMD_WRITE (R231): A write of LST.CMD sets the commanded demand of a string. -/
  | lstCmdWrite (who : Who) (n : Fin 4) (v : Word)
  /-- STRING_FRAME_BOUNDARY (R230): At a string frame boundary the level, pulse widths and trim apply and a pending
  swap switches. -/
  | stringFrameBoundary (n : Fin 4) (now : BitVec 64)
  /-- SOFT_START_END (R231): The converter ends soft-start and the first lit frame begins at the next boundary. -/
  | softStartEnd (n : Fin 4)
  /-- LED_OPEN_DETECT (R232): A position voltage above 7.5 V sets LOPEN, raises LEDOPEN and bypasses it if AUTOBP. -/
  | ledOpenDetect (n : Fin 4) (k : Fin 16)
  /-- LED_SHORT_DETECT (R232): A position below VSHT in three frames sets LSHORT and raises LEDSHORT. -/
  | ledShortDetect (n : Fin 4) (k : Fin 16)
  /-- STRING_OVP (R233): VOUT reaches OVP and the string trips with OVP. -/
  | stringOvp (n : Fin 4) (vout : BitVec 12)
  /-- STRING_SHORT_TRIP (R233): A converter hard short or output held low for 1 ms trips the string with HSHORT. -/
  | stringShortTrip (n : Fin 4)
  /-- LMX_CMD_WRITE (R239): A write of LMX.CMD sets the commanded demand of the matrix. -/
  | lmxCmdWrite (who : Who) (v : Word)
  /-- MATRIX_FRAME_BOUNDARY (R236): At a matrix frame boundary the trimmed pulse widths apply and a pending swap
  switches. -/
  | matrixFrameBoundary (now : BitVec 64)
  /-- MATRIX_LED_OPEN (R238): A column below 0.4 V before the end of its on-time sets the LED's OPEN bit. -/
  | matrixLedOpen (r : Fin 12) (k : Fin 24)
  /-- MATRIX_ROW_SHORT (R238): A row current above 1.4 A turns the row off and sets ROWSC. -/
  | matrixRowShort (r : Fin 12)
  /-- MATRIX_COLUMN_STB (R238): A column above 2.0 V at the end of blanking sets COLSTB and disables it. -/
  | matrixColumnStb (k : Fin 24)
  /-- FRM_WRITE (R242): A write into frame memory is taken, or refused when it targets a displayed or mirrored
  consumer region. -/
  | frmWrite (who : Who) (offs : BitVec 19) (size : AccSize) (v : Word)
  /-- FRMC_ARM (R243): A write of FRMC.CTL.ARM arms a swap, or is rejected with WERR. -/
  | frmcArm (who : Who)
  /-- SWAP_TRIGGER (R243): A NEXT, MSYNC or TBS trigger makes the other buffer the target or only counts LATE. -/
  | swapTrigger (c : SwapCause) (now : BitVec 64)
  /-- MIRROR_COPY_DONE (R244): The mirror copy of the consumer region ends and MIRR clears. -/
  | mirrorCopyDone
  /-- PLAYER_START (R246): A write of FRMC.ACTL.START starts the animation player at index 0. -/
  | playerStart (who : Who)
  /-- PLAYER_STOP (R246): A write of FRMC.ACTL.STOP stops the player after the copy in progress. -/
  | playerStop (who : Who)
  /-- PLAYER_COPY_DONE (R246): The player's frame copy ends and it arms, or a failed read stops it with AERR. -/
  | playerCopyDone (ok : Bool)
  /-- FRMC_CLR_MISS (R253): A write of FRMC.CLR.MISS clears FRMC.MISS. -/
  | frmcClrMiss (who : Who)
  /-- LCH_CMD_WRITE (R261): A write of LCH.CMD starts transmission or stops it with a blanking frame. -/
  | lchCmdWrite (who : Who) (n : Fin 4) (v : Word)
  /-- CHAIN_FRAME_BOUNDARY (R259): At a chain frame boundary the port switches buffer if pending and starts the lead
  of a frame. -/
  | chainFrameBoundary (n : Fin 4) (late : Option (Fin 1024)) (now : BitVec 64)
  /-- CHAIN_FRAME_LATCH (R259): 80 µs after the last bit the pixels latch and FDONE is set. -/
  | chainFrameLatch (n : Fin 4)
  /-- CHAIN_LINE_SHORT (R267): The line differs from the driven level on three edges and the port faults with LINESC.
  -/
  | chainLineShort (n : Fin 4)
  /-- SWITCH_INPUT_RAW_CHANGE (R272): A switch input holds a new comparator level for 200 ns and RAW and its reflex
  term change. -/
  | switchInputRawChange (n : Fin 64) (level : Bool)
  /-- DEBOUNCE_EXPIRY (R272): The debounce of an input ends and STATE changes, setting CHG and raising EV16. -/
  | debounceExpiry (n : Fin 64)
  /-- CLEANING_PULSE_END (R271): The 1 ms wetting cleaning pulse of an input ends. -/
  | cleaningPulseEnd (n : Fin 64) (ok : Bool)
  /-- ANALOGUE_COMPARATOR_SAMPLE (R275): A 10 kS/s sample of an analogue input updates AVAL and its hysteresis
  comparator. -/
  | analogueComparatorSample (k : Fin 16) (code : BitVec 12)
  /-- INPUT_OVERVOLTAGE (R278): An input beyond VBAT + 1 V or -1 V for 1 ms raises INOV. -/
  | inputOvervoltage (n : Fin 64)
  /-- REFLEX_PULSE_EXPIRY (R281): A PULSE rule's timer expires and the rule ceases to be set-active. -/
  | reflexPulseExpiry (r : Fin 128)
  /-- RFX_TGL_CLEAR (R287): A W1C of RFX.TGL ends a toggle. -/
  | rfxTglClear (who : Who) (w : Fin 4) (v : Word)
  /-- RFX_INH_WRITE (R284): A write of RFX.INH inhibits or releases rules in RUN. -/
  | rfxInhWrite (who : Who) (w : Fin 4) (v : Word)
  /-- GOVERNOR_TICK (R289): Every 1 ms GOV estimates die and package losses and trims, sheds or restores one step per
  die. -/
  | governorTick (m : LossSamples)
  /-- GOV_LOG_POP (R291): A read of GOV.LOGB returns and removes the oldest log entry. -/
  | govLogPop (who : Who)
  /-- INTERRUPT_ENTRY (R301): A pending enabled vector of sufficient level is taken, pushing P and SW and setting RP.
  -/
  | interruptEntry (core : EcCore)
  /-- LD (R320): Loads A from the operand. -/
  | ld (core : EcCore) (f : Form)
  /-- ST (R320): Stores A at the effective address. -/
  | st (core : EcCore) (f : Form)
  /-- LDX (R320): Loads X from the operand. -/
  | ldx (core : EcCore) (f : Form)
  /-- LDY (R320): Loads Y from the operand. -/
  | ldy (core : EcCore) (f : Form)
  /-- STX (R320): Stores X at the effective address. -/
  | stx (core : EcCore) (f : Form)
  /-- STY (R320): Stores Y at the effective address. -/
  | sty (core : EcCore) (f : Form)
  /-- ADRX (R320): Sets X to the operand's address. -/
  | adrx (core : EcCore) (f : GForm)
  /-- ADRY (R320): Sets Y to the operand's address. -/
  | adry (core : EcCore) (f : GForm)
  /-- LD16 (R320): Loads A with a zero-extended halfword. -/
  | ld16 (core : EcCore) (f : GForm)
  /-- LD8 (R320): Loads A with a zero-extended byte. -/
  | ld8 (core : EcCore) (f : GForm)
  /-- ST16 (R320): Stores A bits 15:0. -/
  | st16 (core : EcCore) (f : GForm)
  /-- ST8 (R320): Stores A bits 7:0. -/
  | st8 (core : EcCore) (f : GForm)
  /-- SWAP (R322): Exchanges A and a memory word as one indivisible fabric operation. -/
  | swap (core : EcCore) (f : Form)
  /-- STZ (R320): Stores zero at the effective address. -/
  | stz (core : EcCore) (w : BitVec 10)
  /-- PUSH (R320): Decrements S and stores a register. -/
  | push (core : EcCore) (m : BitVec 4) (r : BitVec 5)
  /-- POP (R314): Loads a register from the stack and increments S. -/
  | pop (core : EcCore) (m : BitVec 4) (r : BitVec 5)
  /-- MVR (R314): Copies one register to another. -/
  | mvr (core : EcCore) (d : BitVec 4) (r : BitVec 5)
  /-- ADD (R320): Adds the operand to A. -/
  | add (core : EcCore) (f : Form)
  /-- ADC (R320): Adds the operand and carry to A. -/
  | adc (core : EcCore) (f : GForm)
  /-- SUB (R320): Subtracts the operand from A. -/
  | sub (core : EcCore) (f : Form)
  /-- SBC (R320): Subtracts the operand and borrow from A. -/
  | sbc (core : EcCore) (f : GForm)
  /-- CMP (R320): Compares A with the operand, setting flags only. -/
  | cmp (core : EcCore) (f : Form)
  /-- AND (R320): ANDs the operand into A. -/
  | and (core : EcCore) (f : Form)
  /-- OR (R320): ORs the operand into A. -/
  | or (core : EcCore) (f : Form)
  /-- XOR (R320): XORs the operand into A. -/
  | xor (core : EcCore) (f : Form)
  /-- TST (R320): Tests A AND operand, setting Z, N and T. -/
  | tst (core : EcCore) (f : Form)
  /-- CPX (R320): Compares X with the operand. -/
  | cpx (core : EcCore) (f : GForm)
  /-- CPY (R320): Compares Y with the operand. -/
  | cpy (core : EcCore) (f : GForm)
  /-- ADDX (R320): Adds the operand to X. -/
  | addx (core : EcCore) (f : GForm)
  /-- ADDY (R320): Adds the operand to Y. -/
  | addy (core : EcCore) (f : GForm)
  /-- ADDS (R320): Adds the operand to S, keeping word alignment. -/
  | adds (core : EcCore) (f : GForm)
  /-- LDB (R320): Loads the base page register. -/
  | ldb (core : EcCore) (f : GForm)
  /-- MUL (R320): Multiplies A by the operand, keeping the low 32 bits. -/
  | mul (core : EcCore) (f : GForm)
  /-- MAC (R320): Accumulates the product of two halfwords at X and Y into A40 and advances X and Y. -/
  | mac (core : EcCore) (m : BitVec 4) (sh : BitVec 5)
  /-- SAT (R320): Clamps A40 to 32 bits into A. -/
  | sat (core : EcCore) (m : BitVec 4) (sh : BitVec 5)
  /-- SAT12 (R323): Clamps A40 to 0-4095 into A. -/
  | sat12 (core : EcCore) (m : BitVec 4) (sh : BitVec 5)
  /-- SHL (R320): Shifts A left. -/
  | shl (core : EcCore) (f : GForm)
  /-- SHR (R320): Shifts A logically right. -/
  | shr (core : EcCore) (f : GForm)
  /-- ASR (R320): Shifts A40 arithmetically right. -/
  | asr (core : EcCore) (f : GForm)
  /-- NEG (R320): Negates A. -/
  | neg (core : EcCore) (m : BitVec 4)
  /-- NOT (R320): Inverts A. -/
  | not (core : EcCore) (m : BitVec 4)
  /-- CLR (R320): Clears A, AG and V. -/
  | clr (core : EcCore) (m : BitVec 4)
  /-- EXTH (R320): Sign-extends A bits 15:0. -/
  | exth (core : EcCore) (m : BitVec 4)
  /-- EXTB (R320): Sign-extends A bits 7:0. -/
  | extb (core : EcCore) (m : BitVec 4)
  /-- INC (R320): Increments A. -/
  | inc (core : EcCore) (m : BitVec 4)
  /-- DEC (R320): Decrements A. -/
  | dec (core : EcCore) (m : BitVec 4)
  /-- ABS (R320): Takes the absolute value of A. -/
  | abs (core : EcCore) (m : BitVec 4)
  /-- LDS12 (R323): Loads a 12-bit value from a halfword, ignoring bits 15:12. -/
  | lds12 (core : EcCore) (f : GForm)
  /-- STS12 (R323): Stores A bits 11:0 as a halfword with bits 15:12 zero. -/
  | sts12 (core : EcCore) (f : GForm)
  /-- PK12 (R324): Stores a packed pair of 12-bit values as 3 bytes. -/
  | pk12 (core : EcCore) (f : GForm)
  /-- UNPK12 (R324): Loads a packed pair of 12-bit values into A in pair layout. -/
  | unpk12 (core : EcCore) (f : GForm)
  /-- MOVB (R320): Copies a word from X to Y and advances both. -/
  | movb (core : EcCore) (m : BitVec 4) (sh : BitVec 5)
  /-- JMP (R320): Jumps to the effective address. -/
  | jmp (core : EcCore) (f : GForm)
  /-- JSR (R320): Pushes P_next and jumps. -/
  | jsr (core : EcCore) (f : GForm)
  /-- RTS (R320): Returns by popping P. -/
  | rts (core : EcCore) (m : BitVec 4) (sh : BitVec 5)
  /-- RTI (R331): Pops SW and P, restoring F, RP, E and K and resuming a REPI. -/
  | rti (core : EcCore) (m : BitVec 4) (sh : BitVec 5)
  /-- BCC_SHORT (R318): Branches by a 10-bit displacement when the condition holds. -/
  | bccShort (core : EcCore) (cc : BitVec 4) (d : BitVec 10)
  /-- BCC_LONG (R320): Branches by a 16-bit displacement when the condition holds. -/
  | bccLong (core : EcCore) (cc : BitVec 4) (sh : BitVec 5) (d : BitVec 16)
  /-- WFE_L (R325): Waits for a pending event among lines 0-31 in the mask. -/
  | wfeL (core : EcCore) (f : GForm)
  /-- WFE_H (R325): Waits for a pending event among lines 32-63 in the mask. -/
  | wfeH (core : EcCore) (f : GForm)
  /-- WAIT_COMPLETE (R325): A masked event reaches EVPEND and the waiting WFE consumes it and sets A. -/
  | waitComplete (core : EcCore)
  /-- SEV (R326): Raises a software event line in every core, or sets SEVREJ for a hardware line. -/
  | sev (core : EcCore) (f : GForm)
  /-- WTU (R327): Waits until TBS reaches the target. -/
  | wtu (core : EcCore) (f : GForm) (now : BitVec 64)
  /-- WTU_COMPLETE (R327): TBS reaches the waiting WTU's target and the instruction completes. -/
  | wtuComplete (core : EcCore) (now : BitVec 64)
  /-- WTX_L (R328): Waits for an event of lines 0-31 or for TBS to reach X. -/
  | wtxL (core : EcCore) (f : GForm) (now : BitVec 64)
  /-- WTX_H (R328): Waits for an event of lines 32-63 or for TBS to reach X. -/
  | wtxH (core : EcCore) (f : GForm) (now : BitVec 64)
  /-- WTX_COMPLETE (R328): A masked event or the TBS target completes a waiting WTX and sets T. -/
  | wtxComplete (core : EcCore) (now : BitVec 64)
  /-- REP (R330): Repeats the next instruction without taking interrupts. -/
  | rep (core : EcCore) (f : GForm)
  /-- REPI (R331): Repeats the next instruction, taking interrupts between iterations. -/
  | repi (core : EcCore) (f : GForm)
  /-- NOP (R320): Does nothing. -/
  | nop (core : EcCore) (m : BitVec 4)
  /-- EI (R320): Sets I. -/
  | ei (core : EcCore) (m : BitVec 4)
  /-- DI (R320): Clears I. -/
  | di (core : EcCore) (m : BitVec 4)
  /-- EVF_RAISE (R304): A write of EVF.RAISE raises software lines and sets SEVREJ for hardware-line bits. -/
  | evfRaise (who : Who) (v : Word)
  /-- EVF_OVR_READ (R302): A read of EVF.OVR returns the merge flags and clears them. -/
  | evfOvrRead (who : Who) (k : Fin 2)
  /-- TBS_CAPTURE (R307): A write of TBS.CAP.REQ copies TBS into CAPL and CAPH. -/
  | tbsCapture (who : Who) (now : BitVec 64)
  /-- TBS_CMP_WRITE (R308): A write of TBS.CMP arms a compare unit. -/
  | tbsCmpWrite (who : Who) (k : Fin 4) (v : Word)
  /-- TBS_COMPARE (R308): TBS reaches an armed compare target, raising its event line and stepping or disarming. -/
  | tbsCompare (k : Fin 4) (now : BitVec 64)
  /-- BEACON_TIMEOUT (R306): An addressed worker sees no beacon for 50 ms, setting EXCL and raising NOBEACON. -/
  | beaconTimeout
  /-- DMA_START (R309): A write of DMA.CTL.START starts a channel. -/
  | dmaStart (who : Who) (c : Fin 16)
  /-- DMA_STOP (R309): A write of DMA.CTL.STOP stops a channel after the word in progress. -/
  | dmaStop (who : Who) (c : Fin 16)
  /-- DMA_TRIGGER (R310): A raise of a channel's trigger line starts one block, or is held or lost with TOVR. -/
  | dmaTrigger (c : Fin 16)
  /-- DMA_BLOCK_DONE (R309): A channel finishes a block and, after NBLK blocks, sets DONE and raises its event line.
  -/
  | dmaBlockDone (c : Fin 16)
  /-- MBX_BELL (R312): A write of a box's BELL posts it, sets FULL and raises the mailbox event. -/
  | mbxBell (who : Who) (m : Fin 4) (out : Bool) (v : Word)
  /-- MBX_TAKE (R312): A read of a box's TAKE returns STAT and frees the box. -/
  | mbxTake (who : Who) (m : Fin 4) (out : Bool)
  /-- FRAME_FORWARD (R342): A device forwards a ring frame, checking its CRC and updating HOP and WCNT, or removes
  it. -/
  | frameForward (laneB : Bool) (bytes : List Byte) (e : FrameEnd) (res : Word)
  /-- FRAME_ORIGINATE (R343): A device sends a frame of its own in a gap between forwarded frames. -/
  | frameOriginate (o : OwnSlot)
  /-- WR (R341): A received WR frame writes words on the worker and is answered with RDP or ERR. -/
  | wr (src : BitVec 10) (seq : BitVec 12) (addr : BitVec 20) (ws : List Word)
  /-- RDQ (R341): A received RDQ frame reads words on the worker and answers with RDP or ERR. -/
  | rdq (src : BitVec 10) (seq : BitVec 12) (addr : BitVec 20) (n : Byte)
  /-- RDP (R345): A response reaching the manager ends its outstanding request. -/
  | rdp (src : BitVec 10) (seq : BitVec 12) (ws : List Word)
  /-- ERR (R345): A negative response reaching the manager ends its request or is resent on BUSY. -/
  | err (src : BitVec 10) (seq : BitVec 12) (code : Byte)
  /-- LOCK (R322): A received LOCK frame performs one indivisible SWAP on the worker and answers with the old word.
  -/
  | ringLock (src : BitVec 10) (seq : BitVec 12) (addr : BitVec 20) (op : Byte) (v : Word)
  /-- BULK (R341): A received BULK frame writes data into the destination's slipway. -/
  | bulk (src : BitVec 10) (seq : BitVec 12) (bc : Bool) (offs : Word) (ws : List Word)
  /-- EVT (R353): A received EVT frame applies its SET and CLR masks to the ring event flags. -/
  | evt (src : BitVec 10) (seq : BitVec 12) (set clr : BitVec 16)
  /-- BEACON (R351): A received TIME beacon gives OFFS for discipline and the SYSEP comparison. -/
  | beacon (src : BitVec 10) (seq : BitVec 12) (mtime : BitVec 64) (delay : Word) (ep : BitVec 16) (now : BitVec 64)
  /-- HOPREQ (R350): A received HOPREQ is answered on the other lane with HOPRSP. -/
  | hopreq (laneB : Bool) (res : Word)
  /-- HOPRSP (R350): A received HOPRSP gives the link delay of the hop. -/
  | hoprsp (laneB : Bool) (round res : Word)
  /-- ENUM (R348): A received ENUM pass records position and assigns pinned or free addresses. -/
  | enum (v : EnumFrom) (seq : BitVec 12) (pass : Byte) (serial mtime : BitVec 64) (delay : Word) (pos : BitVec 16) (map : BitVec 1024) (now : BitVec 64)
  /-- HEARTBEAT (R338): A received heartbeat status byte updates remote fault, wrap and enumeration state. -/
  | heartbeat (laneB : Bool) (status : Byte)
  /-- INPUT_LOCKED (R338): 64 valid idle sets lock a port's input and bring the link up. -/
  | inputLocked (laneB : Bool)
  /-- INPUT_LOST (R339): An input shows no valid symbol for 8 µs or no heartbeat for 40 µs and the device wraps. -/
  | inputLost (laneB : Bool)
  /-- UNWRAP (R340): After 100 ms of good heartbeats a wrap point unwraps as it forwards the next beacon. -/
  | unwrap
  /-- REQUEST_TIMEOUT (R346): A request without response within RTO is resent, or ends with TIMEOUT after RETRY
  resends. -/
  | requestTimeout (dst : BitVec 10) (seq : BitVec 12)
  /-- JXR_CTL_ENUM (R348): A write of JXR.CTL.ENUM starts an enumeration on the manager. -/
  | jxrCtlEnum (who : Who)
  /-- AUTO_ENUM (R348): With AUTOENUM the manager enumerates after its inputs lock or on NEEDENUM. -/
  | autoEnum
  /-- JXR_CTL_HORN (R356): A write of JXR.CTL.HORN sends a horn on both lane outputs. -/
  | jxrCtlHorn (who : Who)
  /-- JXR_CTL_MEAS (R350): A write of JXR.CTL.MEAS starts a hop measurement at once. -/
  | jxrCtlMeas (who : Who)
  /-- HOP_MEASUREMENT (R350): Every 10 ms each active device sends HOPREQ on both outgoing hops. -/
  | hopMeasurement
  /-- BEACON_SEND (R351): The manager sends a TIME beacon each time its TBS is a multiple of 80,000. -/
  | beaconSend (now : BitVec 64)
  /-- JXR_EVTX (R353): A write of JXR.EVTX broadcasts an EVT frame and applies the masks locally. -/
  | jxrEvtx (who : Who) (v : Word)
  /-- EVT_REPEAT (R353): The second copy of an EVT frame is sent 10 µs after the first. -/
  | evtRepeat
  /-- HORN_ABSORBED (R355): A horn reaching a device with a running PHY is absorbed and counted. -/
  | hornAbsorbed (laneB : Bool) (sec : Word) (sub : BitVec 16)
  /-- JXR_CLR (R357): A write of JXR.CLR.CNT clears ERRC, ERRC2 and WCNT. -/
  | jxrClr (who : Who)
  /-- WINDOW_WRITE (R362): A write into the ring window is posted into the bridge queue or discarded by poison. -/
  | windowWrite (who : Who) (offs : BitVec 30) (v : Word)
  /-- WINDOW_READ (R369): A core load from the ring window blocks until its response or final error. -/
  | windowRead (core : EcCore) (offs : BitVec 30)
  /-- SPLIT_READ_REQUEST (R370): A write of BRG.RDREQ issues a split read into a free slot, or gets no slot. -/
  | splitReadRequest (who : Who) (v : Word)
  /-- SLOT_FREE (R370): A write of BRG.FREE by the owner frees a slot or cancels its read. -/
  | slotFree (who : Who) (v : Word)
  /-- DELAYED_READ_EXPIRY (R371): An uncollected slot's timer expires, freeing it and logging RSE data as orphaned.
  -/
  | delayedReadExpiry (t : Fin 16)
  /-- LOGPOP_ELOG (R366): A write of BRG.LOGPOP.ELOG removes the oldest error log entry. -/
  | logpopElog (who : Who)
  /-- LOGPOP_OLOG (R372): A write of BRG.LOGPOP.OLOG removes the oldest orphan-read entry. -/
  | logpopOlog (who : Who)
  /-- SEMACQ (R373): A write of BRG.SEMACQ acquires a semaphore for a page if free. -/
  | semacq (who : Who) (v : Word)
  /-- SEMREL (R373): A write of BRG.SEMREL by the owner frees a semaphore. -/
  | semrel (who : Who) (v : Word)
  /-- SEMAPHORE_TIMEOUT (R373): A semaphore held for SEMTO is freed, logged and raises SEMTO. -/
  | semaphoreTimeout (n : Fin 64)
  /-- UNPOISON (R368): A write of BRG.UNPOISON with DEV and PAGE lifts one poisoned page. -/
  | unpoison (who : Who) (dev : BitVec 10) (page : Byte)
  /-- UNPOISON_ALL (R368): A write of BRG.UNPOISON.ALL lifts every poisoned page. -/
  | unpoisonAll (who : Who)
  /-- POLL_ROUND (R375): The manager reads every worker's summary, updating IPEND and DISMAP and running admission.
  -/
  | pollRound (now : BitVec 64) (sec : Word) (sub : BitVec 16)
  /-- WORKER_BEACON_LOSS (R379): A worker without a beacon for 10 s acts on its idle timer as a stand-alone device.
  -/
  | workerBeaconLoss
  /-- HOST_NOP (R385): A host NOP frame returns the status byte only. -/
  | hostNop (cmd : Byte)
  /-- HOST_WRITE (R388): A host WRITE frame with good CRC issues its words in order. -/
  | hostWrite (width : BitVec 2) (addr : Word) (len : BitVec 16) (ws : List Word) (crc : BitVec 16) (n : Nat)
  /-- HOST_READ (R390): A host READ frame issues its reads into the read buffer or a split read in the window. -/
  | hostRead (width : BitVec 2) (addr : Word) (len : BitVec 16) (crc : BitVec 16) (late : Bool)
  /-- RDBUF (R391): A host RDBUF frame resends the read buffer. -/
  | rdbuf (width : BitVec 2)
  /-- HOST_READ_COMPLETE (R390): A host read finishes filling the read buffer. -/
  | hostReadComplete
  /-- HOST_WRITE_ISSUED (R389): The last word of a host write is issued and WBUSY clears. -/
  | hostWriteIssued
  /-- HOST_FRAME_ABORT (R393): HCSN rises before the request phase ends and the frame records ABORT. -/
  | hostFrameAbort (cmd : Byte)
  /-- HPT_CLR (R395): A write of HPT.CLR.CNT clears ERRC and ERRC2. -/
  | hptClr (who : Who)
  /-- GETMODE (R398): The side-band GETMODE returns mode, cause, latches, wake record and reset count. -/
  | getmode
  /-- GETFAULT (R398): The side-band GETFAULT returns the fault summary and journal head. -/
  | getfault
  /-- ATTREQ (R401): The side-band ATTREQ passes a nonce to the vault to build an attestation report. -/
  | attreq (nonce : List Byte) (pecOk : Bool)
  /-- ATTSTAT (R401): The side-band ATTSTAT returns the report state and length. -/
  | attstat
  /-- ATTRD (R398): The side-band ATTRD returns 32 report bytes from an offset. -/
  | attrd (offs : BitVec 16)
  /-- REQLIMP (R400): The side-band REQLIMP latches a LIMP request or enters LIMP. -/
  | reqlimp (key : Byte) (pecOk : Bool)
  /-- REQRESET (R400): The side-band REQRESET resets the device with cause SIDEBAND. -/
  | reqreset (key : Byte) (pecOk : Bool)
  /-- REQRECOV (R400): The side-band REQRECOV latches a recovery request and resets the device. -/
  | reqrecov (key : Byte) (pecOk : Bool)
  /-- MEMRD (R402): The side-band MEMRD reads 1-8 words under the SBP rights. -/
  | memrd (addr : Word) (count : Byte)
  /-- MEMWR (R402): The side-band MEMWR writes 1-8 words under the SBP rights. -/
  | memwr (key : Byte) (addr : Word) (count : Byte) (ws : List Word) (pecOk : Bool) (n : Nat)
  /-- MEMST (R402): The side-band MEMST returns the result of the last MEMWR. -/
  | memst
  /-- SMBUS_TIMEOUT (R397): SCL held low for more than 25 ms abandons the transaction and raises TIMEOUT. -/
  | smbusTimeout
  /-- SBP_CLR (R403): A write of SBP.CLR.CNT clears SBP.CNT and SBP.ERRC. -/
  | sbpClr (who : Who)
  /-- CAN_FRAME_RECEIVED (R406): An error-free CAN frame is filtered and written to the receive FIFO or discarded. -/
  | canFrameReceived (n : Fin 4) (f : CanFrame) (now : BitVec 64)
  /-- CAN_TXREQ (R408): A write of CAN.TXREQ requests transmit buffers. -/
  | canTxreq (who : Who) (n : Fin 4) (v : Word)
  /-- CAN_TXCAN (R408): A write of CAN.TXCAN cancels transmit buffers. -/
  | canTxcan (who : Who) (n : Fin 4) (v : Word)
  /-- CAN_TRANSMIT_DONE (R408): A transmission attempt ends, setting TXDONE or TXABT or reselecting a buffer. -/
  | canTransmitDone (n : Fin 4) (e : CanEnd)
  /-- CAN_RXRI_WRITE (R407): A write of CAN.RXRI consumes FIFO elements, or is rejected with WERR. -/
  | canRxriWrite (who : Who) (n : Fin 4) (v : Word)
  /-- CAN_RECOV (R409): A write of CAN.CMD.RECOV starts bus-off recovery. -/
  | canRecov (who : Who) (n : Fin 4)
  /-- BUSOFF_RECOVERY_DONE (R409): 128 occurrences of 11 recessive bits end bus-off recovery. -/
  | busoffRecoveryDone (n : Fin 4)
  /-- TXD_DOMINANT_TIMEOUT (R409): TXD dominant for 2 ms is cut off by the transceiver and raises TXDTO. -/
  | txdDominantTimeout (p : TxdPort)
  /-- CAN_LEC_READ (R411): A read of CAN.LEC returns the last error code and clears it. -/
  | canLecRead (who : Who) (n : Fin 4)
  /-- LIN_FRAME (R415): A LIN frame in which the controller takes part is published, subscribed or ends in error. -/
  | linFrame (n : Fin 6) (id : BitVec 6) (res : BitVec 4) (m : LinResp)
  /-- LIN_SCHED (R416): A write of LIN.CMD.SCHED starts the commander schedule. -/
  | linSched (who : Who) (n : Fin 6)
  /-- LIN_HALT (R416): A write of LIN.CMD.HALT stops the schedule at the end of its slot. -/
  | linHalt (who : Who) (n : Fin 6)
  /-- LIN_SLEEP (R416): A write of LIN.CMD.SLEEP sends the go-to-sleep frame and halts the schedule. -/
  | linSleep (who : Who) (n : Fin 6)
  /-- LIN_WAKE (R416): A write of LIN.CMD.WAKE sends a 1 ms dominant wake pulse. -/
  | linWake (who : Who) (n : Fin 6)
  /-- LIN_SLOT_END (R416): A schedule slot's DLY expires and the next slot's header is sent. -/
  | linSlotEnd (n : Fin 6)
  /-- LIN_SILENCE_TIMEOUT (R417): A responder sees no traffic for 4 s and enters SLEEP. -/
  | linSilenceTimeout (n : Fin 6)
  /-- LIN_WAKE_PULSE (R417): A wake pulse received in RUN sets WAKEREQ and raises EV60. -/
  | linWakePulse (n : Fin 6)
  /-- LIN_BUS_SHORT (R418): The LIN bus is dominant for 100 ms and raises BUSSHORT. -/
  | linBusShort (n : Fin 6)
  /-- LIN_LERR_READ (R418): A read of LIN.LERR returns the last error and clears it. -/
  | linLerrRead (who : Who) (n : Fin 6)
  /-- NM_MESSAGE_RECEIVED (R422): A received NM message updates presence and passes the ring, sends SLEEPACK or
  ALIVE, or cancels sleep. -/
  | nmMessageReceived (src : Byte) (data : List Byte)
  /-- NM_RING_HOLD_EXPIRY (R422): TTYP after a ring message addressed to the node, it sends its own ring message. -/
  | nmRingHoldExpiry
  /-- NM_SUCCESSOR_TIMEOUT (R422): The successor sends nothing within TMAX and is removed from PRES. -/
  | nmSuccessorTimeout
  /-- NM_RING_LOSS (R422): No ring message for 2 TMAX clears PRES and restarts from STARTUP. -/
  | nmRingLoss
  /-- NM_STARTUP_TIMEOUT (R422): TTYP in STARTUP without a ring message lets the lowest node start the ring. -/
  | nmStartupTimeout
  /-- WBS_EXPIRY (R425): TWBS after entry to WBS the node enters SLEEP and the NM keep-awake source falls. -/
  | wbsExpiry
  /-- NM_READINESS_CHANGE (R426): A node's readiness changes, cancelling sleep in WBS or waking from SLEEP. -/
  | nmReadinessChange
  /-- LIMPHOME_TIMER (R428): Every TERR in LIMPHOME the node sends a limp-home message. -/
  | limphomeTimer
  /-- IMM_START (R440): A write of IMM.CMD.START starts an authentication session. -/
  | immStart (who : Who)
  /-- DEAUTH (R441): A write of IMM.CMD.DEAUTH ends authorisation and sends a final release message. -/
  | deauth (who : Who)
  /-- LF_ID (R436): A received ID reply names a slot and AUTH1 follows, or a collision starts anticollision. -/
  | lfId (r : LfReply) (id : Word)
  /-- LF_C1 (R436): A received C1 is checked by the vault and AUTH2 follows. -/
  | lfC1 (r : LfReply) (c1 : BitVec 128)
  /-- LF_ACK (R436): A received ACK authorises the round and ends the session with OK. -/
  | lfAck (a : LfAckIn)
  /-- LF_BLK (R436): A received BLK stores a token block in TMEM. -/
  | lfBlk (r : LfReply) (data : Word)
  /-- REPLY_WINDOW_EXPIRY (R437): No reply starts within TTA plus 2 cycles, ending the round with NOTOKEN or RELAY.
  -/
  | replyWindowExpiry (late : Option Byte)
  /-- SESSION_LOCK_EXPIRY (R442): The 60 s session lock expires and FAILS clears. -/
  | sessionLockExpiry
  /-- RELEASE_MESSAGE (R443): Every PER ms while authorised in RUN, IMM sends an authenticated release frame. -/
  | releaseMessage
  /-- LF_DRIVER_FAULT (R453): An antenna driver reports OPEN, SHORT, NOLOCK or TLATCH and ends its round. -/
  | lfDriverFault (a : Fin 4) (f : LfFault)
  /-- INFO (R472): The vault INFO command returns serial, lifecycle, clear count, public key and generations. -/
  | info (who : Who) (slot : Byte)
  /-- RANDOM (R472): The vault RANDOM command returns DRBG bytes. -/
  | random (who : Who) (slot : Byte)
  /-- SEAL (R472): The vault SEAL command encrypts under AES-256-GCM with a slot key. -/
  | seal (who : Who) (slot : Byte)
  /-- OPEN (R472): The vault OPEN command decrypts and verifies a GCM tag. -/
  | vltOpen (who : Who) (slot : Byte)
  /-- CMAC (R472): The vault CMAC command computes an AES-CMAC. -/
  | cmac (who : Who) (slot : Byte)
  /-- VCMAC (R472): The vault VCMAC command verifies an AES-CMAC. -/
  | vcmac (who : Who) (slot : Byte)
  /-- DERIVE (R472): The vault DERIVE command creates a derived child key in a slot. -/
  | derive (who : Who) (slot : Byte)
  /-- IMPORT (R472): The vault IMPORT command places a wrapped record into a slot. -/
  | vltImport (who : Who) (slot : Byte)
  /-- DELETE (R472): The vault DELETE command empties an application slot. -/
  | delete (who : Who) (slot : Byte)
  /-- INVAL (R461): The vault INVAL command increments a parent's generation, orphaning its children. -/
  | inval (who : Who) (slot : Byte)
  /-- LEARN (R434): The vault LEARN command applies an accepted learning package as one new token set. -/
  | learn (who : Who) (slot : Byte)
  /-- ATTEST (R471): The vault ATTEST command builds and signs an attestation report. -/
  | attest (who : Who) (slot : Byte)
  /-- VLT_ATTRD (R472): The vault ATTRD command copies 512 report bytes into BUF. -/
  | vltAttrd (who : Who) (slot : Byte)
  /-- ROLLADV (R457): The vault ROLLADV command raises a rollback counter. -/
  | rolladv (who : Who) (slot : Byte)
  /-- LCADV (R458): The vault LCADV command advances the lifecycle under a signed token. -/
  | lcadv (who : Who) (slot : Byte)
  /-- VLT_COMMAND_COMPLETE (R472): A vault command ends, clearing BUSY, setting RESULT and raising EV63. -/
  | vltCommandComplete
  /-- VLT_REL (R472): A write of VLT.REL by the owner releases the interface claim. -/
  | vltRel (who : Who)
  /-- VLT_CLAIM_TIMEOUT (R472): 100 ms without an access by the owner ends the interface claim. -/
  | vltClaimTimeout
  /-- REMASK (R463): Every REMASK ms the vault replaces the mask share of every working key. -/
  | remask
  /-- RNG_HEALTH_FAIL (R465): A failed entropy health test uninstantiates the DRBG and raises RNGFAIL. -/
  | rngHealthFail
  /-- TAMPER_EVENT (R467): A tamper source fires, setting the tamper latch and responding by phase. -/
  | tamperEvent (src : Fin 6) (also : Byte) (sec : Word) (sub : BitVec 16)
  /-- CONFIRM (R485): UPD.CMD CONFIRM confirms a trial slot and advances the rollback counters. -/
  | confirm (who : Who) (key : Byte)
  /-- SETSEL (R487): UPD.CMD SETSEL checks and selects a new settings generation. -/
  | setsel (who : Who) (key : Byte) (gen : Bool)
  /-- SETSELRST (R487): UPD.CMD SETSELRST selects a new settings generation and resets with cause VAULT. -/
  | setselrst (who : Who) (key : Byte) (gen : Bool)
  /-- PRECHK (R490): UPD.CMD PRECHK runs the installation checks without a reset. -/
  | prechk (who : Who) (key : Byte)
  /-- INSTALL (R480): UPD.CMD INSTALL installs at once in recovery or checks and resets for installation. -/
  | install (who : Who) (key : Byte)
  /-- DISTRIBUTION_START (R490): A write of UPD.DCTL.START sends a container to workers' slipways as BULK frames. -/
  | distributionStart (who : Who)
  /-- DISTRIBUTION_STOP (R490): A write of UPD.DCTL.STOP stops distribution after the frame in progress. -/
  | distributionStop (who : Who)
  /-- DISTRIBUTION_DONE (R490): The last BULK frame is sent and DSTAT.DONE is set, or a final error stops the engine.
  -/
  | distributionDone
  /-- TRIAL_RECORD_WRITE (R484): Every 10 s in RUN, EC3 writes the remaining trial time to the update record. -/
  | trialRecordWrite
  /-- TRIAL_EXPIRY (R484): TRUN reaches 0 without confirmation and EC3 marks the revert and resets. -/
  | trialExpiry
  /-- FAULT_EVENT (R493): A fault source asserts and FLT classifies, escalates, reacts, opens it and writes a record.
  -/
  | faultEvent (id : BitVec 11)
  /-- FLT_ACK (R501): A write of FLT.ACK with a source ID acknowledges one open, no longer asserted source. -/
  | fltAck (who : Who) (id : BitVec 11) (key : Byte)
  /-- FLT_ACK_ALL (R501): A write of FLT.ACK with ID 0x7FF acknowledges every acknowledgeable source. -/
  | fltAckAll (who : Who) (key : Byte)
  /-- FLT_AKICK (R505): A write of FLT.AKICK by the pair kicks ALIVE, or is a kick error. -/
  | fltAkick (who : Who) (key : Byte) (dt : BitVec 16)
  /-- KICK_TIMEOUT (R505): No kick arrives by TMAX, ALIVE stops and AKICK is raised. -/
  | kickTimeout
  /-- RESET_COUNT_CLEAR (R503): 60 s in RUN returns the consecutive C5 reset count to 0. -/
  | resetCountClear
  /-- FLT_NEWCNT_READ (R507): A read of FLT.NEWCNT returns the records written and clears it. -/
  | fltNewcntRead (who : Who)
  /-- PROG (R512): XSP.CMD PROG programs a page from an SRAM buffer. -/
  | prog (who : Who) (cs : BitVec 2)
  /-- ERASE (R512): XSP.CMD ERASE erases a block or sector. -/
  | erase (who : Who) (cs : BitVec 2)
  /-- FORMAT (R513): XSP.CMD FORMAT scans bad-block markers and maps bad blocks to spares. -/
  | format (who : Who) (cs : BitVec 2)
  /-- XSP_COMMAND_DONE (R513): An XSP command ends with OK, REMAP, NOSPARE or FAIL. -/
  | xspCommandDone (failed : Bool) (bad : List Nat)
  /-- XSP_BUSY_TIMEOUT (R521): A device busy for more than 100 ms raises TIMEOUT. -/
  | xspBusyTimeout
  /-- JOURNAL_COPY (R515): JRN copies staged records into the external units, erasing the next unit in rotation. -/
  | journalCopy (ok : Bool)
  /-- JRN_RSEQ_WRITE (R517): A write of JRN.RSEQ starts fetching a journal record. -/
  | jrnRseqWrite (who : Who) (v : Word)
  /-- JRN_FETCH_DONE (R517): The fetch ends with the record in RDAT or RRES NOTHELD. -/
  | jrnFetchDone
  /-- JRN_CLR_TOTAL (R522): A write of JRN.CLR.TOTAL clears TOTAL. -/
  | jrnClrTotal (who : Who)
  /-- JRN_LOST_READ (R522): A read of JRN.LOST returns the staging losses and clears it. -/
  | jrnLostRead (who : Who)
  /-- MRAM_ROW_SUBSTITUTE (R519): SPR copies and substitutes a failing MRAM row between two accesses. -/
  | mramRowSubstitute (m : RowReads) (lost : Bool)
  /-- KEY_SLOT_SUBSTITUTE (R462): SPR substitutes a spare key slot for a failing record while no operation uses it.
  -/
  | keySlotSubstitute (slot : Fin 112)
  /-- SYS_CLOCK_RETURN (R543): The PWR monitor sees SYS heartbeat toggles again and the level source FLT SYSCLK stops
  being asserted, so its event can be acknowledged. -/
  | sysClockReturn
  /-- BOOST_UNDERVOLTAGE_END (R198): VBST rises back above VMIN, SBK.BSTAT.UV returns to 0 and the level source BSTUV
  is released. -/
  | boostUndervoltageEnd (vbst : BitVec 12)
  /-- BOOST_OVERVOLTAGE_END (R198): After an overvoltage stop, VBST falls below VSET and the boost converter starts
  switching again. -/
  | boostOvervoltageEnd (vbst : BitVec 12)
  /-- BAND_GAP_REFERENCE_MISMATCH (R164): The two band-gap references differ by more than 1 % and MSQ raises its VREF
  fault source. -/
  | bandGapReferenceMismatch
  /-- CAN_RECEIVE_ERROR (R409): A frame received with an error sets CAN.LEC, raises the receive error counter and can
  take the controller to PASSIVE with ERRPASS. -/
  | canReceiveError (n : Fin 4) (code : BitVec 3) (eight : Bool)
  /-- UPD_COMMAND_COMPLETE (R491): A running UPD command (CONFIRM, SETSEL, PRECHK or INSTALL checks) ends, clearing
  SRES.BUSY and setting SRES.RES. -/
  | updCommandComplete
  /-- MEMWR_ISSUE_COMPLETE (R402): The last word of a side-band MEMWR is issued, MEMST leaves BUSY and a new MEMWR is
  acknowledged again. -/
  | memwrIssueComplete
  /-- ATTREQ_REPORT_READY (R401): The vault finishes the attestation report requested over the side-band and ATTSTAT
  shows READY or REFUSED. -/
  | attreqReportReady
  /-- PSTATE_REFUSED_CLEAR (R382): 100 ms after a refused Park entry, a worker's BRG.WSUM.PSTATE returns from REFUSED
  to NONE. -/
  | pstateRefusedClear
  /-- LIMITER_TURN_ON_AGAIN (R178): At DEFF = 4095, 10 µs after the current limiter turned the driven switch off, the
  switch turns on again. -/
  | limiterTurnOnAgain (n : Fin 12)
  /-- MINIMUM_HOLD_EXPIRY (R216): Under THM.ACT LIMIT on a limited coil, a HOLD ends TMINH after it began and the
  valve passes into DECAY. -/
  | minimumHoldExpiry (n : Fin 16)
  deriving DecidableEq, Repr

end Sys2Proof
end

