-- ==== Sys2Proof/Machine/Page.lean ====
section
/-! DEFINITION. The types of the register map: fields, access codes, blocks and clock domains (00, 01, 02). -/

namespace Sys2Proof.Machine

/-- Field of a register page: byte offset in the page and the bits `hi:lo` of its word (00, Conventions). -/
structure Fld where
  off : Nat
  hi : Nat
  lo : Nat
  deriving DecidableEq, Repr

/-- Register access codes (00 Table 4). -/
inductive Acc where
  | rw | ro | wo | w1c | w1s | rc | rws | rwl
  deriving DecidableEq, Repr

/-- One field, or one array of fields, of a block's register map: base offset, stride and count, bits, access, reset value
and the values the field admits at a commit. -/
structure RegSpec where
  off : Nat
  stride : Nat
  cnt : Nat
  hi : Nat
  lo : Nat
  acc : Acc
  rst : Nat
  min : Nat
  max : Nat
  deriving DecidableEq, Repr

/-- The blocks of the page map (02, R57 Table 12). -/
inductive Blk where
  | DEV | PMU | CLK | RST | FLT | PROT | VLT | UPD | HPT | SBP | BRG | JXR | NMG | TBS | EVF | DMA | CAN | LIN | IMM | LFA
  | SWI | RFX | MSQ | GOV | HSC | HB | SOL | SBK | LST | LMX | LCH | FRMC | XSP | JRN | SPR | EC | MBX
  deriving DecidableEq, Repr

/-- The clock domains that serve register pages (01, Table 5). -/
inductive Dom where
  | sys | pwr | bus | ring | lf | aon
  deriving DecidableEq, Repr

end Sys2Proof.Machine
end

