-- ==== Sys2Proof/Machine/RegMap.lean ====
section
/-! DEFINITION. The register maps of every block, one entry per field, copied from the register tables of the chapters
(01 Table 8, 02 Table 13, 03 Tables 2, 11, 12, 04 Tables 8, 9, and the live and shadow tables of chapters 05 to 23); the
names are the manual's own, PAGE.REGISTER.FIELD (00, Conventions). A range narrower than the field is the one its
description or its value table gives (R11, R42 step 3). -/

namespace Sys2Proof.Machine

def R.CLK.STAT.LFLOCK : Fld := ⟨0x100, 7, 7⟩
def R.CLK.STAT.LFREF : Fld := ⟨0x100, 6, 6⟩
def R.CLK.STAT.AONXTAL : Fld := ⟨0x100, 5, 5⟩
def R.CLK.STAT.RCSPARE : Fld := ⟨0x100, 4, 4⟩
def R.CLK.STAT.RCFAIL : Fld := ⟨0x100, 3, 3⟩
def R.CLK.STAT.BUSFAIL : Fld := ⟨0x100, 2, 2⟩
def R.CLK.STAT.BUSLOCK : Fld := ⟨0x100, 1, 1⟩
def R.CLK.STAT.SYSLOCK : Fld := ⟨0x100, 0, 0⟩
def R.CLK.BUSCNT.CNT : Fld := ⟨0x104, 15, 0⟩
def R.CLK.RCDIFF.DIFF : Fld := ⟨0x108, 15, 0⟩
def R.CLK.AONCNT.CNT : Fld := ⟨0x10C, 31, 0⟩
def R.PROT.RSTAT.VALID : Fld := ⟨0x100, 31, 31⟩
def R.PROT.RSTAT.KIND : Fld := ⟨0x100, 30, 28⟩
def R.PROT.RSTAT.WR : Fld := ⟨0x100, 27, 27⟩
def R.PROT.RSTAT.RADDR : Fld := ⟨0x100, 19, 10⟩
def R.PROT.RSTAT.PAGE : Fld := ⟨0x100, 7, 0⟩
def R.PROT.RADDR.ADDR : Fld := ⟨0x104, 31, 0⟩
def R.PROT.RCNT.CNT : Fld := ⟨0x108, 15, 0⟩
def R.PROT.CLR.REC : Fld := ⟨0x10C, 0, 0⟩
def R.PROT.MSTAT.FALLBACK : Fld := ⟨0x110, 0, 0⟩
def R.PROT.MAN.WORD (i : Nat) : Fld := ⟨0x400 + 4 * i, 31, 0⟩
def R.PROT.MSH.WORD (i : Nat) : Fld := ⟨0x800 + 4 * i, 31, 0⟩
def R.DEV.ID.PART : Fld := ⟨0x100, 31, 16⟩
def R.DEV.ID.REVL : Fld := ⟨0x100, 15, 8⟩
def R.DEV.ID.REVN : Fld := ⟨0x100, 7, 0⟩
def R.DEV.SERL.SER : Fld := ⟨0x104, 31, 0⟩
def R.DEV.SERH.SER : Fld := ⟨0x108, 31, 0⟩
def R.DEV.MODE.CAUSE : Fld := ⟨0x110, 15, 8⟩
def R.DEV.MODE.PREV : Fld := ⟨0x110, 6, 4⟩
def R.DEV.MODE.MODE : Fld := ⟨0x110, 2, 0⟩
def R.DEV.MREQ.REQ : Fld := ⟨0x114, 1, 0⟩
def R.PMU.KEEP.HOSTKA : Fld := ⟨0x100, 0, 0⟩
def R.PMU.KSTAT.SRC : Fld := ⟨0x104, 5, 0⟩
def R.PMU.IDLECNT.CNT : Fld := ⟨0x108, 15, 0⟩
def R.PMU.WAKESRC.SUBSEC : Fld := ⟨0x10C, 31, 16⟩
def R.PMU.WAKESRC.ALSO : Fld := ⟨0x10C, 15, 8⟩
def R.PMU.WAKESRC.DETAIL : Fld := ⟨0x10C, 7, 4⟩
def R.PMU.WAKESRC.SRC : Fld := ⟨0x10C, 3, 0⟩
def R.PMU.WAKETS.SEC : Fld := ⟨0x110, 31, 0⟩
def R.PMU.REFUSE.COUNT : Fld := ⟨0x114, 15, 0⟩
def R.PMU.REFWHO.DEVADDR : Fld := ⟨0x118, 25, 16⟩
def R.PMU.REFWHO.PAGE : Fld := ⟨0x118, 15, 8⟩
def R.PMU.REFWHO.REASON : Fld := ⟨0x118, 7, 0⟩
def R.PMU.FWAKE.MASK : Fld := ⟨0x11C, 31, 24⟩
def R.PMU.FWAKE.LAST : Fld := ⟨0x11C, 23, 20⟩
def R.PMU.FWAKE.COUNT : Fld := ⟨0x11C, 15, 0⟩
def R.PMU.ACCTCLR.MASK : Fld := ⟨0x120, 2, 2⟩
def R.PMU.ACCTCLR.FWAKE : Fld := ⟨0x120, 1, 1⟩
def R.PMU.ACCTCLR.REFUSE : Fld := ⟨0x120, 0, 0⟩
def R.PMU.RTCSEC.SEC : Fld := ⟨0x124, 31, 0⟩
def R.PMU.RTCALM.SEC : Fld := ⟨0x128, 31, 0⟩
def R.PMU.IDLET.TIMEOUT : Fld := ⟨0x800, 15, 0⟩
def R.PMU.WEN.CANWUP : Fld := ⟨0x804, 21, 20⟩
def R.PMU.WEN.SBW : Fld := ⟨0x804, 19, 19⟩
def R.PMU.WEN.RTCW : Fld := ⟨0x804, 18, 18⟩
def R.PMU.WEN.RINGW : Fld := ⟨0x804, 17, 16⟩
def R.PMU.WEN.LINW : Fld := ⟨0x804, 13, 8⟩
def R.PMU.WEN.CANW : Fld := ⟨0x804, 7, 6⟩
def R.PMU.SWW.EN : Fld := ⟨0x808, 7, 0⟩
def R.PMU.WROUTE.LST : Fld := ⟨0x80C, 7, 0⟩
def R.PMU.WFILT.SWF : Fld := ⟨0x810, 5, 4⟩
def R.PMU.WFILT.TWAKE : Fld := ⟨0x810, 3, 2⟩
def R.PMU.WFILT.CANF : Fld := ⟨0x810, 1, 0⟩
def R.PMU.LISTEN.FWLIM : Fld := ⟨0x814, 11, 8⟩
def R.PMU.LISTEN.LTO : Fld := ⟨0x814, 7, 0⟩
def R.PMU.AONCLK.XTAL : Fld := ⟨0x818, 0, 0⟩
def R.RST.CAUSE.FSID : Fld := ⟨0x100, 26, 16⟩
def R.RST.CAUSE.SRC : Fld := ⟨0x100, 3, 0⟩
def R.RST.COUNT.CNT : Fld := ⟨0x104, 15, 0⟩
def R.RST.BOOT.SLOTFB : Fld := ⟨0x108, 8, 8⟩
def R.RST.BOOT.SLOT : Fld := ⟨0x108, 7, 7⟩
def R.RST.BOOT.PHASE : Fld := ⟨0x108, 3, 0⟩
def R.RST.HOLDWHY.PAGE : Fld := ⟨0x10C, 15, 8⟩
def R.RST.HOLDWHY.WHY : Fld := ⟨0x10C, 3, 0⟩
def R.RST.SETEP.GEN : Fld := ⟨0x110, 16, 16⟩
def R.RST.SETEP.EP : Fld := ⟨0x110, 15, 0⟩
def R.RST.SWRST.KEY : Fld := ⟨0x114, 7, 0⟩
def R.RST.WDKICK.KEY : Fld := ⟨0x118, 7, 0⟩
def R.RST.STRAP.RECOV : Fld := ⟨0x11C, 0, 0⟩
def R.RST.CLR.COUNT : Fld := ⟨0x120, 0, 0⟩
def R.RST.WDOG.PERIOD : Fld := ⟨0x800, 15, 0⟩
def R.HSC.CMD.STAYON : Fld := ⟨0x100, 1, 1⟩
def R.HSC.CMD.ON : Fld := ⟨0x100, 0, 0⟩
def R.HSC.CMDS.SET : Fld := ⟨0x104, 1, 0⟩
def R.HSC.CMDC.CLR : Fld := ⟨0x108, 1, 0⟩
def R.HSC.DUTY.DUTY : Fld := ⟨0x10C, 11, 0⟩
def R.HSC.STAT.DEFF : Fld := ⟨0x110, 31, 20⟩
def R.HSC.STAT.COMPSAT : Fld := ⟨0x110, 19, 19⟩
def R.HSC.STAT.SAFEACT : Fld := ⟨0x110, 18, 18⟩
def R.HSC.STAT.RFXACT : Fld := ⟨0x110, 17, 17⟩
def R.HSC.STAT.GATE : Fld := ⟨0x110, 16, 16⟩
def R.HSC.STAT.RUSED : Fld := ⟨0x110, 15, 12⟩
def R.HSC.STAT.STATE : Fld := ⟨0x110, 3, 0⟩
def R.HSC.IMEAS.VALID : Fld := ⟨0x114, 15, 15⟩
def R.HSC.IMEAS.RANGE : Fld := ⟨0x114, 14, 14⟩
def R.HSC.IMEAS.CODE : Fld := ⟨0x114, 11, 0⟩
def R.HSC.VOUT.VALID : Fld := ⟨0x118, 15, 15⟩
def R.HSC.VOUT.CODE : Fld := ⟨0x118, 11, 0⟩
def R.HSC.TEMP.CODE : Fld := ⟨0x11C, 11, 0⟩
def R.HSC.SEG.FAILED : Fld := ⟨0x120, 24, 16⟩
def R.HSC.SEG.ACTIVE : Fld := ⟨0x120, 8, 0⟩
def R.HSC.DRES.METHOD : Fld := ⟨0x124, 7, 4⟩
def R.HSC.DRES.RESULT : Fld := ⟨0x124, 3, 0⟩
def R.HSC.MODE.MODE : Fld := ⟨0x800, 2, 0⟩
def R.HSC.CFG.PHASE : Fld := ⟨0x804, 27, 16⟩
def R.HSC.CFG.FGRP : Fld := ⟨0x804, 14, 12⟩
def R.HSC.CFG.PRIO : Fld := ⟨0x804, 11, 10⟩
def R.HSC.CFG.SLEW : Fld := ⟨0x804, 9, 8⟩
def R.HSC.CFG.CTAU : Fld := ⟨0x804, 5, 4⟩
def R.HSC.COMP.VFWD : Fld := ⟨0x808, 27, 16⟩
def R.HSC.COMP.VNOM : Fld := ⟨0x808, 11, 0⟩
def R.HSC.CAP.CAPT : Fld := ⟨0x80C, 27, 16⟩
def R.HSC.CAP.ILIM : Fld := ⟨0x80C, 11, 0⟩
def R.HSC.WIRE.RETRY : Fld := ⟨0x810, 23, 20⟩
def R.HSC.WIRE.RDLY : Fld := ⟨0x810, 19, 16⟩
def R.HSC.WIRE.INRA : Fld := ⟨0x810, 10, 8⟩
def R.HSC.WIRE.BUNDLE : Fld := ⟨0x810, 5, 4⟩
def R.HSC.WIRE.INS : Fld := ⟨0x810, 3, 3⟩
def R.HSC.WIRE.XSEC : Fld := ⟨0x810, 2, 0⟩
def R.HSC.DIAG.FINE : Fld := ⟨0x814, 24, 24⟩
def R.HSC.DIAG.LDM : Fld := ⟨0x814, 23, 16⟩
def R.HSC.DIAG.LDN : Fld := ⟨0x814, 15, 8⟩
def R.HSC.DIAG.LDS : Fld := ⟨0x814, 5, 4⟩
def R.HSC.DIAG.OLPU : Fld := ⟨0x814, 1, 0⟩
def R.HSC.SAFE.SAFEDUTY : Fld := ⟨0x818, 27, 16⟩
def R.HSC.SAFE.SAFE : Fld := ⟨0x818, 2, 0⟩
def R.HSC.RFXD.DUTY : Fld := ⟨0x81C, 11, 0⟩
def R.MSQ.STAT.SUBST : Fld := ⟨0x100, 11, 8⟩
def R.MSQ.STAT.SFAIL : Fld := ⟨0x100, 7, 4⟩
def R.MSQ.STAT.OVF : Fld := ⟨0x100, 0, 0⟩
def R.MSQ.TBASE.SUBD : Fld := ⟨0x104, 15, 15⟩
def R.MSQ.TBASE.CODE : Fld := ⟨0x104, 11, 0⟩
def R.MSQ.VBAT.CODE : Fld := ⟨0x108, 11, 0⟩
def R.MSQ.TREF.CODE (i : Nat) : Fld := ⟨0x110 + 4 * i, 11, 0⟩
def R.MSQ.VDIE.CODE (i : Nat) : Fld := ⟨0x120 + 4 * i, 11, 0⟩
def R.MSQ.VWIN.OPEN : Fld := ⟨0x130, 2, 0⟩
def R.MSQ.WSEL.CH : Fld := ⟨0x134, 6, 0⟩
def R.MSQ.WSTAT.NMEAS : Fld := ⟨0x138, 31, 16⟩
def R.MSQ.WSTAT.VALID : Fld := ⟨0x138, 0, 0⟩
def R.MSQ.WSEG.SHARE (i : Nat) : Fld := ⟨0x140 + 4 * i, 11, 0⟩
def R.MSQ.SWP.OFF (i : Nat) : Fld := ⟨0x170 + 4 * i, 15, 0⟩
def R.MSQ.SRP.OFF (i : Nat) : Fld := ⟨0x180 + 4 * i, 15, 0⟩
def R.MSQ.CFG.OLCNT : Fld := ⟨0x800, 15, 12⟩
def R.MSQ.CFG.OSSET : Fld := ⟨0x800, 9, 8⟩
def R.MSQ.WEAR.FAILLO : Fld := ⟨0x804, 27, 16⟩
def R.MSQ.WEAR.WARN : Fld := ⟨0x804, 11, 0⟩
def R.MSQ.SCFG.EN (i : Nat) : Fld := ⟨0x810 + 4 * i, 31, 31⟩
def R.MSQ.SCFG.SRC (i : Nat) : Fld := ⟨0x810 + 4 * i, 26, 24⟩
def R.MSQ.SCFG.LEN (i : Nat) : Fld := ⟨0x810 + 4 * i, 3, 0⟩
def R.MSQ.SBASE.BASE (i : Nat) : Fld := ⟨0x820 + 4 * i, 31, 0⟩
def R.MSQ.OLTH.THR (i : Nat) : Fld := ⟨0x900 + 4 * i, 11, 0⟩
def R.HB.CMD.STAYON : Fld := ⟨0x100, 4, 4⟩
def R.HB.CMD.ACT : Fld := ⟨0x100, 3, 0⟩
def R.HB.DUTY.DUTY : Fld := ⟨0x104, 11, 0⟩
def R.HB.STAT.DEFF : Fld := ⟨0x108, 31, 20⟩
def R.HB.STAT.CLIM : Fld := ⟨0x108, 19, 19⟩
def R.HB.STAT.SAFEACT : Fld := ⟨0x108, 18, 18⟩
def R.HB.STAT.RFXACT : Fld := ⟨0x108, 17, 17⟩
def R.HB.STAT.PINCH : Fld := ⟨0x108, 16, 16⟩
def R.HB.STAT.PARKING : Fld := ⟨0x108, 15, 15⟩
def R.HB.STAT.RUSED : Fld := ⟨0x108, 14, 11⟩
def R.HB.STAT.STILL : Fld := ⟨0x108, 10, 10⟩
def R.HB.STAT.POSVALID : Fld := ⟨0x108, 9, 9⟩
def R.HB.STAT.STATE : Fld := ⟨0x108, 3, 0⟩
def R.HB.IMEAS.VALID : Fld := ⟨0x10C, 15, 15⟩
def R.HB.IMEAS.NEG : Fld := ⟨0x10C, 14, 14⟩
def R.HB.IMEAS.CODE : Fld := ⟨0x10C, 11, 0⟩
def R.HB.POS.POS : Fld := ⟨0x118, 31, 0⟩
def R.HB.RPER.INS : Fld := ⟨0x11C, 31, 24⟩
def R.HB.RPER.PER : Fld := ⟨0x11C, 15, 0⟩
def R.HB.FIDX.FIDX : Fld := ⟨0x120, 12, 0⟩
def R.HB.EVT.PARKDONE : Fld := ⟨0x124, 1, 1⟩
def R.HB.EVT.PINCH : Fld := ⟨0x124, 0, 0⟩
def R.HB.MODE.PAIR : Fld := ⟨0x800, 1, 0⟩
def R.HB.CFG.PHASE : Fld := ⟨0x804, 27, 16⟩
def R.HB.CFG.FGRP : Fld := ⟨0x804, 14, 12⟩
def R.HB.CFG.PRIO : Fld := ⟨0x804, 11, 10⟩
def R.HB.CFG.SLEW : Fld := ⟨0x804, 9, 8⟩
def R.HB.CFG.DEAD : Fld := ⟨0x804, 7, 4⟩
def R.HB.CFG.DECAY : Fld := ⟨0x804, 3, 3⟩
def R.HB.CFG.STOP : Fld := ⟨0x804, 2, 2⟩
def R.HB.COMP.VNOM : Fld := ⟨0x808, 11, 0⟩
def R.HB.LIM.ITH : Fld := ⟨0x80C, 27, 16⟩
def R.HB.LIM.ILIM : Fld := ⟨0x80C, 11, 0⟩
def R.HB.STALL.SBLK : Fld := ⟨0x810, 23, 16⟩
def R.HB.STALL.STIME : Fld := ⟨0x810, 15, 8⟩
def R.HB.STALL.TREV : Fld := ⟨0x810, 7, 0⟩
def R.HB.PROT.RETRY : Fld := ⟨0x814, 23, 20⟩
def R.HB.PROT.RDLY : Fld := ⟨0x814, 19, 16⟩
def R.HB.SAFE.SAFEDUTY : Fld := ⟨0x818, 27, 16⟩
def R.HB.SAFE.SAFE : Fld := ⟨0x818, 2, 0⟩
def R.HB.RFXD.RACT : Fld := ⟨0x81C, 15, 12⟩
def R.HB.RFXD.DUTY : Fld := ⟨0x81C, 11, 0⟩
def R.HB.RIP.EN : Fld := ⟨0x820, 31, 31⟩
def R.HB.RIP.HYST : Fld := ⟨0x820, 27, 16⟩
def R.HB.RIP.TSEED : Fld := ⟨0x820, 15, 0⟩
def R.HB.PZONE.PZHI : Fld := ⟨0x824, 31, 16⟩
def R.HB.PZONE.PZLO : Fld := ⟨0x824, 15, 0⟩
def R.HB.PINCH.EN : Fld := ⟨0x828, 31, 31⟩
def R.HB.PINCH.PDIR : Fld := ⟨0x828, 30, 30⟩
def R.HB.PINCH.PLAG : Fld := ⟨0x828, 29, 24⟩
def R.HB.PINCH.PBLK : Fld := ⟨0x828, 23, 16⟩
def R.HB.PINCH.PTH : Fld := ⟨0x828, 11, 0⟩
def R.HB.PARK.PTO : Fld := ⟨0x82C, 7, 0⟩
def R.SBK.BSTAT.RUN : Fld := ⟨0x100, 15, 15⟩
def R.SBK.BSTAT.UV : Fld := ⟨0x100, 14, 14⟩
def R.SBK.BSTAT.ILIMACT : Fld := ⟨0x100, 13, 13⟩
def R.SBK.BSTAT.VBST : Fld := ⟨0x100, 11, 0⟩
def R.SBK.BANK.POS (i : Nat) : Fld := ⟨0x104 + 4 * i, 31, 31⟩
def R.SBK.BANK.BOOSTING (i : Nat) : Fld := ⟨0x104 + 4 * i, 27, 24⟩
def R.SBK.BANK.QUEUED (i : Nat) : Fld := ⟨0x104 + 4 * i, 23, 20⟩
def R.SBK.BANK.DEFCNT (i : Nat) : Fld := ⟨0x104 + 4 * i, 15, 0⟩
def R.SBK.BST.EN : Fld := ⟨0x800, 31, 31⟩
def R.SBK.BST.ILIM : Fld := ⟨0x800, 27, 24⟩
def R.SBK.BST.VSET : Fld := ⟨0x800, 11, 0⟩
def R.SBK.BSTUV.VMIN : Fld := ⟨0x804, 11, 0⟩
def R.SBK.SEL.SEL (i : Nat) : Fld := ⟨0x808, 1 + 2 * i, 0 + 2 * i⟩
def R.SBK.OVL.POL (i : Nat) : Fld := ⟨0x80C, 7 + 8 * i, 7 + 8 * i⟩
def R.SBK.OVL.SHX (i : Nat) : Fld := ⟨0x80C, 6 + 8 * i, 4 + 8 * i⟩
def R.SBK.OVL.DEFT (i : Nat) : Fld := ⟨0x80C, 3 + 8 * i, 0 + 8 * i⟩
def R.SOL.CMD.STAYON : Fld := ⟨0x100, 2, 2⟩
def R.SOL.CMD.TRIG : Fld := ⟨0x100, 1, 1⟩
def R.SOL.CMD.ON : Fld := ⟨0x100, 0, 0⟩
def R.SOL.STAT.FCODE : Fld := ⟨0x104, 17, 16⟩
def R.SOL.STAT.SHXT : Fld := ⟨0x104, 13, 13⟩
def R.SOL.STAT.COILLIM : Fld := ⟨0x104, 12, 12⟩
def R.SOL.STAT.BVST : Fld := ⟨0x104, 11, 11⟩
def R.SOL.STAT.BVBAT : Fld := ⟨0x104, 10, 10⟩
def R.SOL.STAT.RFXACT : Fld := ⟨0x104, 9, 9⟩
def R.SOL.STAT.SAFEACT : Fld := ⟨0x104, 8, 8⟩
def R.SOL.STAT.RUSED : Fld := ⟨0x104, 7, 4⟩
def R.SOL.STAT.STATE : Fld := ⟨0x104, 3, 0⟩
def R.SOL.IMEAS.VALID : Fld := ⟨0x108, 15, 15⟩
def R.SOL.IMEAS.CODE : Fld := ⟨0x108, 11, 0⟩
def R.SOL.VCOIL.VALID : Fld := ⟨0x10C, 15, 15⟩
def R.SOL.VCOIL.CODE : Fld := ⟨0x10C, 11, 0⟩
def R.SOL.TEMP.CODE : Fld := ⟨0x110, 11, 0⟩
def R.SOL.TCOIL.SRC : Fld := ⟨0x114, 15, 15⟩
def R.SOL.TCOIL.CODE : Fld := ⟨0x114, 11, 0⟩
def R.SOL.RCOIL.R : Fld := ⟨0x118, 15, 0⟩
def R.SOL.BOOST.TBST : Fld := ⟨0x11C, 31, 16⟩
def R.SOL.BOOST.IPKR : Fld := ⟨0x11C, 11, 0⟩
def R.SOL.CLD.TCLOSE : Fld := ⟨0x120, 31, 16⟩
def R.SOL.CLD.RES : Fld := ⟨0x120, 15, 12⟩
def R.SOL.CLD.MISS : Fld := ⟨0x120, 7, 0⟩
def R.SOL.EVT.BDONE : Fld := ⟨0x124, 1, 1⟩
def R.SOL.EVT.CLOSED : Fld := ⟨0x124, 0, 0⟩
def R.SOL.PROF.IPEAK : Fld := ⟨0x800, 27, 16⟩
def R.SOL.PROF.TBMAX : Fld := ⟨0x800, 11, 0⟩
def R.SOL.HOLD.IHOLD : Fld := ⟨0x804, 27, 16⟩
def R.SOL.HOLD.IHYS : Fld := ⟨0x804, 7, 0⟩
def R.SOL.THOLD.THOLD : Fld := ⟨0x808, 15, 0⟩
def R.SOL.CFG.PRIO : Fld := ⟨0x80C, 11, 10⟩
def R.SOL.CFG.SLEW : Fld := ⟨0x80C, 9, 8⟩
def R.SOL.CFG.BSRC : Fld := ⟨0x80C, 0, 0⟩
def R.SOL.CLDC.EN : Fld := ⟨0x810, 31, 31⟩
def R.SOL.CLDC.MISS : Fld := ⟨0x810, 27, 24⟩
def R.SOL.CLDC.TH : Fld := ⟨0x810, 23, 16⟩
def R.SOL.CLDC.STEP : Fld := ⟨0x810, 15, 8⟩
def R.SOL.CLDC.BLK : Fld := ⟨0x810, 7, 0⟩
def R.SOL.CLDW.WIN : Fld := ⟨0x814, 7, 0⟩
def R.SOL.THM.ACT : Fld := ⟨0x818, 31, 31⟩
def R.SOL.THM.EN : Fld := ⟨0x818, 30, 30⟩
def R.SOL.THM.TLIM : Fld := ⟨0x818, 27, 16⟩
def R.SOL.THM.RREF : Fld := ⟨0x818, 15, 0⟩
def R.SOL.THM2.RTH : Fld := ⟨0x81C, 31, 24⟩
def R.SOL.THM2.TAU : Fld := ⟨0x81C, 23, 16⟩
def R.SOL.THM2.TMINH : Fld := ⟨0x81C, 15, 0⟩
def R.SOL.PROT.RETRY : Fld := ⟨0x820, 23, 20⟩
def R.SOL.PROT.RDLY : Fld := ⟨0x820, 19, 16⟩
def R.SOL.SAFE.SAFE : Fld := ⟨0x824, 2, 0⟩
def R.LST.CMD.STAYON : Fld := ⟨0x100, 1, 1⟩
def R.LST.CMD.ON : Fld := ⟨0x100, 0, 0⟩
def R.LST.STAT.LEFF : Fld := ⟨0x104, 31, 20⟩
def R.LST.STAT.FLOOR : Fld := ⟨0x104, 19, 19⟩
def R.LST.STAT.SAFEACT : Fld := ⟨0x104, 18, 18⟩
def R.LST.STAT.RFXACT : Fld := ⟨0x104, 17, 17⟩
def R.LST.STAT.FRONT : Fld := ⟨0x104, 16, 16⟩
def R.LST.STAT.RUSED : Fld := ⟨0x104, 15, 12⟩
def R.LST.STAT.STATE : Fld := ⟨0x104, 3, 0⟩
def R.LST.IMEAS.VALID : Fld := ⟨0x108, 15, 15⟩
def R.LST.IMEAS.CODE : Fld := ⟨0x108, 11, 0⟩
def R.LST.VOUT.VALID : Fld := ⟨0x10C, 15, 15⟩
def R.LST.VOUT.CODE : Fld := ⟨0x10C, 11, 0⟩
def R.LST.TEMP.CODE : Fld := ⟨0x110, 11, 0⟩
def R.LST.LOPEN.OPEN : Fld := ⟨0x114, 15, 0⟩
def R.LST.LSHORT.SHORT : Fld := ⟨0x118, 15, 0⟩
def R.LST.CFG.POP : Fld := ⟨0x800, 31, 16⟩
def R.LST.CFG.FRATE : Fld := ⟨0x800, 13, 12⟩
def R.LST.CFG.PRIO : Fld := ⟨0x800, 11, 10⟩
def R.LST.CFG.STAG : Fld := ⟨0x800, 7, 4⟩
def R.LST.CFG.SPREAD : Fld := ⟨0x800, 3, 3⟩
def R.LST.IMAX.IMAX : Fld := ⟨0x804, 10, 0⟩
def R.LST.OVP.OVP : Fld := ⟨0x808, 11, 0⟩
def R.LST.DIAG.AUTOBP : Fld := ⟨0x80C, 8, 8⟩
def R.LST.DIAG.VSHT : Fld := ⟨0x80C, 7, 0⟩
def R.LST.PROT.RETRY : Fld := ⟨0x810, 23, 20⟩
def R.LST.PROT.RDLY : Fld := ⟨0x810, 19, 16⟩
def R.LST.SAFE.SAFE : Fld := ⟨0x814, 2, 0⟩
def R.LST.RFXD.LEVEL : Fld := ⟨0x818, 11, 0⟩
def R.LMX.CMD.STAYON : Fld := ⟨0x100, 1, 1⟩
def R.LMX.CMD.ON : Fld := ⟨0x100, 0, 0⟩
def R.LMX.STAT.SAFEACT : Fld := ⟨0x104, 18, 18⟩
def R.LMX.STAT.FRONT : Fld := ⟨0x104, 16, 16⟩
def R.LMX.STAT.RUSED : Fld := ⟨0x104, 15, 12⟩
def R.LMX.STAT.ROW : Fld := ⟨0x104, 11, 8⟩
def R.LMX.STAT.STATE : Fld := ⟨0x104, 3, 0⟩
def R.LMX.ROWSC.ROW : Fld := ⟨0x108, 11, 0⟩
def R.LMX.COLSTB.COL : Fld := ⟨0x10C, 23, 0⟩
def R.LMX.OPEN.OPEN (i : Nat) : Fld := ⟨0x110 + 4 * i, 31, 0⟩
def R.LMX.CFG.ROWEN : Fld := ⟨0x800, 23, 12⟩
def R.LMX.CFG.PRIO : Fld := ⟨0x800, 11, 10⟩
def R.LMX.COLEN.COL : Fld := ⟨0x804, 23, 0⟩
def R.LMX.PROT.RETRY : Fld := ⟨0x808, 23, 20⟩
def R.LMX.PROT.RDLY : Fld := ⟨0x808, 19, 16⟩
def R.LMX.SAFE.SAFE : Fld := ⟨0x80C, 0, 0⟩
def R.LMX.ICOL.ICOL (i : Nat) : Fld := ⟨0x840 + 4 * i, 11, 0⟩
def R.FRMC.CTL.ARM : Fld := ⟨0x100, 0, 0⟩
def R.FRMC.STAT.PEND : Fld := ⟨0x104, 24, 16⟩
def R.FRMC.STAT.EXCL : Fld := ⟨0x104, 15, 15⟩
def R.FRMC.STAT.PLAY : Fld := ⟨0x104, 4, 4⟩
def R.FRMC.STAT.MIRR : Fld := ⟨0x104, 3, 3⟩
def R.FRMC.STAT.SWPEND : Fld := ⟨0x104, 2, 2⟩
def R.FRMC.STAT.ARMED : Fld := ⟨0x104, 1, 1⟩
def R.FRMC.STAT.FRONT : Fld := ⟨0x104, 0, 0⟩
def R.FRMC.SWCNT.CNT : Fld := ⟨0x108, 31, 0⟩
def R.FRMC.MISS.LATE : Fld := ⟨0x10C, 31, 16⟩
def R.FRMC.MISS.WREJ : Fld := ⟨0x10C, 15, 0⟩
def R.FRMC.SWTIME.TIME : Fld := ⟨0x110, 31, 0⟩
def R.FRMC.EVT.AEND : Fld := ⟨0x114, 2, 2⟩
def R.FRMC.EVT.ALATE : Fld := ⟨0x114, 1, 1⟩
def R.FRMC.EVT.SWDONE : Fld := ⟨0x114, 0, 0⟩
def R.FRMC.AFRM.IDX : Fld := ⟨0x118, 15, 0⟩
def R.FRMC.ACTL.STOP : Fld := ⟨0x11C, 1, 1⟩
def R.FRMC.ACTL.START : Fld := ⟨0x11C, 0, 0⟩
def R.FRMC.CLR.MISS : Fld := ⟨0x120, 0, 0⟩
def R.FRMC.CFG.MIRROR : Fld := ⟨0x800, 3, 3⟩
def R.FRMC.CFG.MPOL : Fld := ⟨0x800, 2, 2⟩
def R.FRMC.CFG.TRIG : Fld := ⟨0x800, 1, 0⟩
def R.FRMC.SWPER.PER : Fld := ⟨0x804, 31, 0⟩
def R.FRMC.ASRC.ADDR : Fld := ⟨0x808, 31, 0⟩
def R.FRMC.ASTR.STRIDE : Fld := ⟨0x80C, 31, 0⟩
def R.FRMC.ALEN.NFRM : Fld := ⟨0x810, 31, 16⟩
def R.FRMC.ALEN.FLEN : Fld := ⟨0x810, 15, 0⟩
def R.FRMC.ADST.LOOP : Fld := ⟨0x814, 31, 31⟩
def R.FRMC.ADST.DOFF : Fld := ⟨0x814, 15, 0⟩
def R.LCH.CMD.STAYON : Fld := ⟨0x100, 1, 1⟩
def R.LCH.CMD.ON : Fld := ⟨0x100, 0, 0⟩
def R.LCH.STAT.POS : Fld := ⟨0x104, 26, 16⟩
def R.LCH.STAT.SAFEACT : Fld := ⟨0x104, 5, 5⟩
def R.LCH.STAT.FRONT : Fld := ⟨0x104, 4, 4⟩
def R.LCH.STAT.STATE : Fld := ⟨0x104, 3, 0⟩
def R.LCH.FCNT.CNT : Fld := ⟨0x108, 31, 0⟩
def R.LCH.EVT.FDONE : Fld := ⟨0x10C, 0, 0⟩
def R.LCH.CFG.FEED : Fld := ⟨0x800, 23, 17⟩
def R.LCH.CFG.GTRIM : Fld := ⟨0x800, 16, 16⟩
def R.LCH.CFG.REV : Fld := ⟨0x800, 15, 15⟩
def R.LCH.CFG.FRATE : Fld := ⟨0x800, 14, 13⟩
def R.LCH.CFG.NPIX : Fld := ⟨0x800, 10, 0⟩
def R.LCH.SAFE.SAFE : Fld := ⟨0x804, 0, 0⟩
def R.SWI.RAW.RAW (i : Nat) : Fld := ⟨0x100 + 4 * i, 31, 0⟩
def R.SWI.STATE.STATE (i : Nat) : Fld := ⟨0x108 + 4 * i, 31, 0⟩
def R.SWI.CHG.CHG (i : Nat) : Fld := ⟨0x110 + 4 * i, 31, 0⟩
def R.SWI.ACMP.ACMP : Fld := ⟨0x118, 15, 0⟩
def R.SWI.AVAL.VALID (i : Nat) : Fld := ⟨0x140 + 4 * i, 15, 15⟩
def R.SWI.AVAL.CODE (i : Nat) : Fld := ⟨0x140 + 4 * i, 11, 0⟩
def R.SWI.CFG.TYPE (i : Nat) : Fld := ⟨0x800 + 4 * i, 15, 14⟩
def R.SWI.CFG.THR (i : Nat) : Fld := ⟨0x800 + 4 * i, 13, 12⟩
def R.SWI.CFG.DEB (i : Nat) : Fld := ⟨0x800 + 4 * i, 11, 9⟩
def R.SWI.CFG.IWET (i : Nat) : Fld := ⟨0x800 + 4 * i, 8, 7⟩
def R.SWI.CFG.CYC (i : Nat) : Fld := ⟨0x800 + 4 * i, 6, 6⟩
def R.SWI.CFG.INV (i : Nat) : Fld := ⟨0x800 + 4 * i, 5, 5⟩
def R.SWI.CYC.CONF : Fld := ⟨0x900, 8, 8⟩
def R.SWI.CYC.PER : Fld := ⟨0x900, 7, 0⟩
def R.SWI.ATH.HI (i : Nat) : Fld := ⟨0x940 + 4 * i, 27, 16⟩
def R.SWI.ATH.LO (i : Nat) : Fld := ⟨0x940 + 4 * i, 11, 0⟩
def R.RFX.ACTV.ACTV (i : Nat) : Fld := ⟨0x100 + 4 * i, 31, 0⟩
def R.RFX.TGL.T (i : Nat) : Fld := ⟨0x110 + 4 * i, 31, 0⟩
def R.RFX.INH.INH (i : Nat) : Fld := ⟨0x120 + 4 * i, 31, 0⟩
def R.RFX.DON.ON (i : Nat) : Fld := ⟨0x130 + 4 * i, 31, 0⟩
def R.RFX.DOFF.OFF (i : Nat) : Fld := ⟨0x140 + 4 * i, 31, 0⟩
def R.RFX.LOAD.OK : Fld := ⟨0x150, 16, 16⟩
def R.RFX.LOAD.TIME : Fld := ⟨0x150, 15, 0⟩
def R.RFX.GRP.OUT (i j : Nat) : Fld := ⟨0x800 + 16 * i + 4 * j, 31, 0⟩
def R.GOV.STAT.PKG : Fld := ⟨0x100, 4, 4⟩
def R.GOV.STAT.OVER : Fld := ⟨0x100, 3, 0⟩
def R.GOV.PDIE.P (i : Nat) : Fld := ⟨0x104 + 4 * i, 11, 0⟩
def R.GOV.PPKG.P : Fld := ⟨0x114, 11, 0⟩
def R.GOV.TRIM.G (i : Nat) : Fld := ⟨0x118 + 4 * i, 12, 0⟩
def R.GOV.SHED.SHED (i : Nat) : Fld := ⟨0x130 + 4 * i, 31, 0⟩
def R.GOV.LOGA.KIND : Fld := ⟨0x140, 31, 28⟩
def R.GOV.LOGA.DIE : Fld := ⟨0x140, 27, 26⟩
def R.GOV.LOGA.OUT : Fld := ⟨0x140, 23, 16⟩
def R.GOV.LOGA.P : Fld := ⟨0x140, 11, 0⟩
def R.GOV.LOGB.TS : Fld := ⟨0x144, 31, 0⟩
def R.GOV.LOGN.N : Fld := ⟨0x148, 6, 0⟩
def R.GOV.CFG.GMIN : Fld := ⟨0x800, 27, 16⟩
def R.GOV.CFG.GSTEP : Fld := ⟨0x800, 15, 8⟩
def R.GOV.CFG.HYST : Fld := ⟨0x800, 7, 4⟩
def R.GOV.CFG.TRST : Fld := ⟨0x800, 3, 0⟩
def R.GOV.BUD0.BUDM : Fld := ⟨0x804, 27, 16⟩
def R.GOV.BUD0.BUDH : Fld := ⟨0x804, 11, 0⟩
def R.GOV.BUD1.BUDB : Fld := ⟨0x808, 27, 16⟩
def R.GOV.BUD1.BUDL : Fld := ⟨0x808, 11, 0⟩
def R.GOV.BUDP.BUDPKG : Fld := ⟨0x80C, 11, 0⟩
def R.GOV.ETA.ETA (i : Nat) : Fld := ⟨0x810 + 4 * i, 11, 0⟩
def R.EVF.RAISE.HWREQ : Fld := ⟨0x100, 31, 16⟩
def R.EVF.RAISE.RAISE : Fld := ⟨0x100, 15, 0⟩
def R.EVF.OVR.OVR (i : Nat) : Fld := ⟨0x108 + 4 * i, 31, 0⟩
def R.EVF.STAT.SEVREJ : Fld := ⟨0x110, 0, 0⟩
def R.EC.STAT.RP : Fld := ⟨0x100, 7, 4⟩
def R.EC.STAT.I : Fld := ⟨0x100, 3, 3⟩
def R.EC.STAT.STATE : Fld := ⟨0x100, 2, 0⟩
def R.EC.EVPEND.PEND (i : Nat) : Fld := ⟨0x108 + 4 * i, 31, 0⟩
def R.EC.EVOVR.OVR (i : Nat) : Fld := ⟨0x110 + 4 * i, 31, 0⟩
def R.EC.FADDR.ADDR : Fld := ⟨0x118, 31, 0⟩
def R.EC.FCODE.VEC : Fld := ⟨0x11C, 7, 0⟩
def R.EC.VBASE.BASE : Fld := ⟨0x800, 31, 10⟩
def R.EC.SLIM.LIM : Fld := ⟨0x804, 31, 2⟩
def R.EC.VPRI.EN (i j : Nat) : Fld := ⟨0x840 + 4 * i, 3 + 4 * j, 3 + 4 * j⟩
def R.EC.VPRI.LVL (i j : Nat) : Fld := ⟨0x840 + 4 * i, 2 + 4 * j, 0 + 4 * j⟩
def R.TBS.CAP.VALID : Fld := ⟨0x100, 1, 1⟩
def R.TBS.CAP.REQ : Fld := ⟨0x100, 0, 0⟩
def R.TBS.CAPL.CNT : Fld := ⟨0x104, 31, 0⟩
def R.TBS.CAPH.CNT : Fld := ⟨0x108, 31, 0⟩
def R.TBS.STAT.ECOVR : Fld := ⟨0x10C, 3, 3⟩
def R.TBS.STAT.ECVALID : Fld := ⟨0x10C, 2, 2⟩
def R.TBS.STAT.EXCL : Fld := ⟨0x10C, 1, 1⟩
def R.TBS.STAT.LOCK : Fld := ⟨0x10C, 0, 0⟩
def R.TBS.OFFS.OFFS : Fld := ⟨0x110, 31, 0⟩
def R.TBS.TRIM.TRIM : Fld := ⟨0x114, 15, 0⟩
def R.TBS.ECAPL.CNT : Fld := ⟨0x118, 31, 0⟩
def R.TBS.ECAPH.CNT : Fld := ⟨0x11C, 31, 0⟩
def R.TBS.CMP.TIME (i : Nat) : Fld := ⟨0x120 + 4 * i, 31, 0⟩
def R.TBS.CFG.DISC : Fld := ⟨0x800, 8, 8⟩
def R.TBS.CFG.ECSEL : Fld := ⟨0x800, 6, 0⟩
def R.TBS.CMPPER.PER (i : Nat) : Fld := ⟨0x810 + 4 * i, 31, 0⟩
def R.DMA.CTL.STOP (i : Nat) : Fld := ⟨0x100 + 16 * i, 1, 1⟩
def R.DMA.CTL.START (i : Nat) : Fld := ⟨0x100 + 16 * i, 0, 0⟩
def R.DMA.STAT.BLEFT (i : Nat) : Fld := ⟨0x104 + 16 * i, 31, 16⟩
def R.DMA.STAT.TOVR (i : Nat) : Fld := ⟨0x104 + 16 * i, 4, 4⟩
def R.DMA.STAT.ERR (i : Nat) : Fld := ⟨0x104 + 16 * i, 3, 3⟩
def R.DMA.STAT.DONE (i : Nat) : Fld := ⟨0x104 + 16 * i, 2, 2⟩
def R.DMA.STAT.WAIT (i : Nat) : Fld := ⟨0x104 + 16 * i, 1, 1⟩
def R.DMA.STAT.BUSY (i : Nat) : Fld := ⟨0x104 + 16 * i, 0, 0⟩
def R.DMA.EADDR.ADDR (i : Nat) : Fld := ⟨0x108 + 16 * i, 31, 0⟩
def R.DMA.SRC.ADDR (i : Nat) : Fld := ⟨0x800 + 16 * i, 31, 0⟩
def R.DMA.DST.ADDR (i : Nat) : Fld := ⟨0x804 + 16 * i, 31, 0⟩
def R.DMA.CNT.NBLK (i : Nat) : Fld := ⟨0x808 + 16 * i, 31, 16⟩
def R.DMA.CNT.BLK (i : Nat) : Fld := ⟨0x808 + 16 * i, 15, 0⟩
def R.DMA.CFG.EN (i : Nat) : Fld := ⟨0x80C + 16 * i, 31, 31⟩
def R.DMA.CFG.SINC (i : Nat) : Fld := ⟨0x80C + 16 * i, 30, 30⟩
def R.DMA.CFG.DINC (i : Nat) : Fld := ⟨0x80C + 16 * i, 29, 29⟩
def R.DMA.CFG.CIRC (i : Nat) : Fld := ⟨0x80C + 16 * i, 28, 28⟩
def R.DMA.CFG.TRIG (i : Nat) : Fld := ⟨0x80C + 16 * i, 14, 8⟩
def R.MBX.IN.D.DATA (i j : Nat) : Fld := ⟨0x100 + 256 * i + 4 * j, 31, 0⟩
def R.MBX.IN.BELL.LEN (i : Nat) : Fld := ⟨0x140 + 256 * i, 4, 0⟩
def R.MBX.IN.TAKE.STAT (i : Nat) : Fld := ⟨0x144 + 256 * i, 31, 0⟩
def R.MBX.IN.STAT.FULL (i : Nat) : Fld := ⟨0x148 + 256 * i, 31, 31⟩
def R.MBX.IN.STAT.KIND (i : Nat) : Fld := ⟨0x148 + 256 * i, 22, 20⟩
def R.MBX.IN.STAT.ADDR (i : Nat) : Fld := ⟨0x148 + 256 * i, 19, 10⟩
def R.MBX.IN.STAT.LEN (i : Nat) : Fld := ⟨0x148 + 256 * i, 4, 0⟩
def R.MBX.CFG.EN : Fld := ⟨0x800, 3, 0⟩
def R.JXR.STAT.RSTATE : Fld := ⟨0x100, 27, 25⟩
def R.JXR.STAT.RWRAP : Fld := ⟨0x100, 24, 24⟩
def R.JXR.STAT.WRAPN : Fld := ⟨0x100, 23, 23⟩
def R.JXR.STAT.LOCKA : Fld := ⟨0x100, 22, 22⟩
def R.JXR.STAT.LOCKB : Fld := ⟨0x100, 21, 21⟩
def R.JXR.STAT.CWOPEN : Fld := ⟨0x100, 20, 20⟩
def R.JXR.ADDR.VALID : Fld := ⟨0x104, 31, 31⟩
def R.JXR.ADDR.PINNED : Fld := ⟨0x104, 30, 30⟩
def R.JXR.ADDR.POS : Fld := ⟨0x104, 25, 16⟩
def R.JXR.ADDR.ADDR : Fld := ⟨0x104, 9, 0⟩
def R.JXR.HOPA.VALID : Fld := ⟨0x108, 31, 31⟩
def R.JXR.HOPA.LD : Fld := ⟨0x108, 15, 0⟩
def R.JXR.PATH.DELAY : Fld := ⟨0x110, 31, 0⟩
def R.JXR.LOOP.LOOP : Fld := ⟨0x114, 31, 0⟩
def R.JXR.EFLAG.FLAG : Fld := ⟨0x118, 15, 0⟩
def R.JXR.EVTX.CLR : Fld := ⟨0x11C, 31, 16⟩
def R.JXR.EVTX.SET : Fld := ⟨0x11C, 15, 0⟩
def R.JXR.CTL.MEAS : Fld := ⟨0x120, 2, 2⟩
def R.JXR.CTL.HORN : Fld := ⟨0x120, 1, 1⟩
def R.JXR.CTL.ENUM : Fld := ⟨0x120, 0, 0⟩
def R.JXR.ERRC.CRC : Fld := ⟨0x124, 31, 16⟩
def R.JXR.ERRC.DUP : Fld := ⟨0x124, 15, 0⟩
def R.JXR.ERRC2.RXOVF : Fld := ⟨0x128, 31, 16⟩
def R.JXR.ERRC2.TTL : Fld := ⟨0x128, 15, 0⟩
def R.JXR.WCNT.HORNRX : Fld := ⟨0x12C, 31, 16⟩
def R.JXR.WCNT.WRAPS : Fld := ⟨0x12C, 15, 0⟩
def R.JXR.NODES.N : Fld := ⟨0x130, 10, 0⟩
def R.JXR.CLR.CNT : Fld := ⟨0x134, 0, 0⟩
def R.JXR.MAP.MAP (i : Nat) : Fld := ⟨0x200 + 4 * i, 31, 0⟩
def R.JXR.ROLE.ROLE : Fld := ⟨0x800, 1, 0⟩
def R.JXR.CFG.RTO : Fld := ⟨0x804, 31, 24⟩
def R.JXR.CFG.RETRY : Fld := ⟨0x804, 23, 20⟩
def R.JXR.CFG.AUTOUNW : Fld := ⟨0x804, 6, 6⟩
def R.JXR.CFG.AUTOENUM : Fld := ⟨0x804, 5, 5⟩
def R.JXR.CFG.WHORN : Fld := ⟨0x804, 4, 4⟩
def R.JXR.PIN.EN : Fld := ⟨0x808, 31, 31⟩
def R.JXR.PIN.ADDR : Fld := ⟨0x808, 9, 0⟩
def R.JXR.EFLOSS.MASK : Fld := ⟨0x80C, 15, 0⟩
def R.BRG.WSUM.VALID : Fld := ⟨0x100, 31, 31⟩
def R.BRG.WSUM.MODE : Fld := ⟨0x100, 30, 28⟩
def R.BRG.WSUM.HOLDWHY : Fld := ⟨0x100, 27, 24⟩
def R.BRG.WSUM.READY : Fld := ⟨0x100, 23, 23⟩
def R.BRG.WSUM.PSTATE : Fld := ⟨0x100, 22, 21⟩
def R.BRG.WSUM.EXCL : Fld := ⟨0x100, 20, 20⟩
def R.BRG.WSUM.EPMIS : Fld := ⟨0x100, 19, 19⟩
def R.BRG.WSUM.IRQ : Fld := ⟨0x100, 18, 18⟩
def R.BRG.WSUM.REFREASON : Fld := ⟨0x100, 15, 8⟩
def R.BRG.WSUM.REFPAGE : Fld := ⟨0x100, 7, 0⟩
def R.BRG.WVER.VER : Fld := ⟨0x104, 31, 0⟩
def R.BRG.WID.EP : Fld := ⟨0x108, 31, 16⟩
def R.BRG.WID.REV : Fld := ⟨0x108, 15, 0⟩
def R.BRG.STAT.PDROP : Fld := ⟨0x10C, 31, 24⟩
def R.BRG.STAT.POLLRUN : Fld := ⟨0x10C, 17, 17⟩
def R.BRG.STAT.PARKRND : Fld := ⟨0x10C, 16, 16⟩
def R.BRG.STAT.SLOTBUSY : Fld := ⟨0x10C, 15, 0⟩
def R.BRG.RDCNT.COUNT : Fld := ⟨0x110, 3, 0⟩
def R.BRG.RDREQ.ADDR : Fld := ⟨0x114, 31, 0⟩
def R.BRG.RDTAG.VALID : Fld := ⟨0x118, 31, 31⟩
def R.BRG.RDTAG.TAG : Fld := ⟨0x118, 3, 0⟩
def R.BRG.FREE.FREE : Fld := ⟨0x11C, 15, 0⟩
def R.BRG.ELOGN.N : Fld := ⟨0x120, 12, 8⟩
def R.BRG.ELOGN.HEAD : Fld := ⟨0x120, 3, 0⟩
def R.BRG.OLOGN.N : Fld := ⟨0x124, 11, 8⟩
def R.BRG.OLOGN.HEAD : Fld := ⟨0x124, 2, 0⟩
def R.BRG.LOGPOP.OLOG : Fld := ⟨0x128, 1, 1⟩
def R.BRG.LOGPOP.ELOG : Fld := ⟨0x128, 0, 0⟩
def R.BRG.SEMACQ.DEV : Fld := ⟨0x12C, 31, 22⟩
def R.BRG.SEMACQ.PAGE : Fld := ⟨0x12C, 21, 14⟩
def R.BRG.SEMACQ.S : Fld := ⟨0x12C, 5, 0⟩
def R.BRG.SEMREL.S : Fld := ⟨0x130, 5, 0⟩
def R.BRG.UNPOISON.DEV : Fld := ⟨0x134, 31, 22⟩
def R.BRG.UNPOISON.PAGE : Fld := ⟨0x134, 21, 14⟩
def R.BRG.UNPOISON.ALL : Fld := ⟨0x134, 0, 0⟩
def R.BRG.COMPVLO.VER : Fld := ⟨0x140, 31, 0⟩
def R.BRG.COMPVHI.VER : Fld := ⟨0x144, 31, 0⟩
def R.BRG.COMPREV.LO : Fld := ⟨0x148, 31, 16⟩
def R.BRG.COMPREV.HI : Fld := ⟨0x148, 15, 0⟩
def R.BRG.POLLC.ROUNDS : Fld := ⟨0x14C, 31, 16⟩
def R.BRG.POLLC.LATE : Fld := ⟨0x14C, 15, 0⟩
def R.BRG.SLOT.STATE (i : Nat) : Fld := ⟨0x180 + 4 * i, 31, 30⟩
def R.BRG.SLOT.KIND (i : Nat) : Fld := ⟨0x180 + 4 * i, 29, 27⟩
def R.BRG.SLOT.CODE (i : Nat) : Fld := ⟨0x180 + 4 * i, 23, 16⟩
def R.BRG.SLOT.DRTLEFT (i : Nat) : Fld := ⟨0x180 + 4 * i, 15, 8⟩
def R.BRG.SLOT.COUNT (i : Nat) : Fld := ⟨0x180 + 4 * i, 3, 0⟩
def R.BRG.IPEND.IRQ (i : Nat) : Fld := ⟨0x200 + 4 * i, 31, 0⟩
def R.BRG.DISMAP.DIS (i : Nat) : Fld := ⟨0x280 + 4 * i, 31, 0⟩
def R.BRG.SEM.HELD (i : Nat) : Fld := ⟨0x300 + 4 * i, 31, 31⟩
def R.BRG.SEM.OWNER (i : Nat) : Fld := ⟨0x300 + 4 * i, 30, 28⟩
def R.BRG.SEM.DEV (i : Nat) : Fld := ⟨0x300 + 4 * i, 27, 18⟩
def R.BRG.SEM.PAGE (i : Nat) : Fld := ⟨0x300 + 4 * i, 17, 10⟩
def R.BRG.SEM.LEFT (i : Nat) : Fld := ⟨0x300 + 4 * i, 7, 0⟩
def R.BRG.SLOTD.D.DATA (i j : Nat) : Fld := ⟨0x600 + 32 * i + 4 * j, 31, 0⟩
def R.BRG.CFG.POLL : Fld := ⟨0x800, 23, 16⟩
def R.BRG.CFG.EPRST : Fld := ⟨0x800, 3, 3⟩
def R.BRG.CFG.LIMPFOL : Fld := ⟨0x800, 2, 2⟩
def R.BRG.CFG.AUTOADM : Fld := ⟨0x800, 1, 1⟩
def R.BRG.CFG.POISON : Fld := ⟨0x800, 0, 0⟩
def R.BRG.TIMERS.PKTO : Fld := ⟨0x804, 23, 16⟩
def R.BRG.TIMERS.SEMTO : Fld := ⟨0x804, 15, 8⟩
def R.BRG.TIMERS.DRT : Fld := ⟨0x804, 7, 0⟩
def R.BRG.SYSEP.SYSEP : Fld := ⟨0x808, 15, 0⟩
def R.HPT.STAT.LASTCMD : Fld := ⟨0x100, 15, 8⟩
def R.HPT.STAT.STATUS : Fld := ⟨0x100, 7, 0⟩
def R.HPT.ERRADDR.ADDR : Fld := ⟨0x104, 31, 0⟩
def R.HPT.ERRC.CRC : Fld := ⟨0x108, 31, 16⟩
def R.HPT.ERRC.ABORT : Fld := ⟨0x108, 15, 0⟩
def R.HPT.ERRC2.BUSY : Fld := ⟨0x10C, 31, 16⟩
def R.HPT.ERRC2.NOTRDY : Fld := ⟨0x10C, 15, 0⟩
def R.HPT.CLR.CNT : Fld := ⟨0x110, 0, 0⟩
def R.HPT.ISUM.PEND (i : Nat) : Fld := ⟨0x120 + 4 * i, 31, 0⟩
def R.HPT.CFG.IRQEN : Fld := ⟨0x800, 9, 9⟩
def R.HPT.CFG.WAIT : Fld := ⟨0x800, 7, 0⟩
def R.SBP.STAT.LIMPL : Fld := ⟨0x100, 18, 18⟩
def R.SBP.STAT.RECOVL : Fld := ⟨0x100, 17, 17⟩
def R.SBP.STAT.ADDR : Fld := ⟨0x100, 15, 9⟩
def R.SBP.STAT.LASTCMD : Fld := ⟨0x100, 7, 0⟩
def R.SBP.CNT.SERVED : Fld := ⟨0x104, 31, 16⟩
def R.SBP.CNT.NACK : Fld := ⟨0x104, 15, 0⟩
def R.SBP.ERRC.PEC : Fld := ⟨0x108, 31, 16⟩
def R.SBP.ERRC.TMO : Fld := ⟨0x108, 15, 0⟩
def R.SBP.CLR.CNT : Fld := ⟨0x10C, 0, 0⟩
def R.CAN.STAT.RXOVF : Fld := ⟨0x100, 8, 8⟩
def R.CAN.STAT.STATE : Fld := ⟨0x100, 2, 0⟩
def R.CAN.ECNT.REC : Fld := ⟨0x104, 15, 8⟩
def R.CAN.ECNT.TEC : Fld := ⟨0x104, 7, 0⟩
def R.CAN.LEC.CODE : Fld := ⟨0x108, 2, 0⟩
def R.CAN.RXWI.IDX : Fld := ⟨0x10C, 7, 0⟩
def R.CAN.RXRI.IDX : Fld := ⟨0x110, 7, 0⟩
def R.CAN.TXREQ.REQ : Fld := ⟨0x114, 31, 0⟩
def R.CAN.TXCAN.CAN : Fld := ⟨0x118, 31, 0⟩
def R.CAN.TXDONE.DONE : Fld := ⟨0x11C, 31, 0⟩
def R.CAN.TXABT.ABT : Fld := ⟨0x120, 31, 0⟩
def R.CAN.EVT.TXEV : Fld := ⟨0x124, 1, 1⟩
def R.CAN.EVT.RXEV : Fld := ⟨0x124, 0, 0⟩
def R.CAN.CMD.RECOV : Fld := ⟨0x128, 0, 0⟩
def R.CAN.MODE.SIC : Fld := ⟨0x800, 5, 5⟩
def R.CAN.MODE.BRS : Fld := ⟨0x800, 4, 4⟩
def R.CAN.MODE.FD : Fld := ⟨0x800, 3, 3⟩
def R.CAN.MODE.OPM : Fld := ⟨0x800, 2, 0⟩
def R.CAN.NBT.BRP : Fld := ⟨0x804, 31, 27⟩
def R.CAN.NBT.TSEG1 : Fld := ⟨0x804, 26, 18⟩
def R.CAN.NBT.TSEG2 : Fld := ⟨0x804, 17, 11⟩
def R.CAN.NBT.SJW : Fld := ⟨0x804, 10, 4⟩
def R.CAN.DBT.BRP : Fld := ⟨0x808, 31, 27⟩
def R.CAN.DBT.TSEG1 : Fld := ⟨0x808, 26, 22⟩
def R.CAN.DBT.TSEG2 : Fld := ⟨0x808, 21, 18⟩
def R.CAN.DBT.SJW : Fld := ⟨0x808, 17, 14⟩
def R.CAN.TDC.EN : Fld := ⟨0x80C, 31, 31⟩
def R.CAN.TDC.OFFS : Fld := ⟨0x80C, 23, 16⟩
def R.CAN.CFG.BOAUTO : Fld := ⟨0x810, 31, 31⟩
def R.CAN.CFG.NOMATCH : Fld := ⟨0x810, 30, 30⟩
def R.CAN.CFG.DAR : Fld := ⟨0x810, 29, 29⟩
def R.CAN.RXBASE.ADDR : Fld := ⟨0x814, 31, 0⟩
def R.CAN.TXBASE.ADDR : Fld := ⟨0x818, 31, 0⟩
def R.CAN.TXEV.EV : Fld := ⟨0x81C, 31, 0⟩
def R.CAN.FLTA.EN (i : Nat) : Fld := ⟨0x900 + 8 * i, 31, 31⟩
def R.CAN.FLTA.ACT (i : Nat) : Fld := ⟨0x900 + 8 * i, 30, 29⟩
def R.CAN.FLTA.ID (i : Nat) : Fld := ⟨0x900 + 8 * i, 28, 0⟩
def R.CAN.FLTB.IDEM (i : Nat) : Fld := ⟨0x904 + 8 * i, 31, 31⟩
def R.CAN.FLTB.IDE (i : Nat) : Fld := ⟨0x904 + 8 * i, 30, 30⟩
def R.CAN.FLTB.MASK (i : Nat) : Fld := ⟨0x904 + 8 * i, 28, 0⟩
def R.CAN.WKF.EN (i : Nat) : Fld := ⟨0xB00 + 16 * i, 31, 31⟩
def R.CAN.WKF.IDE (i : Nat) : Fld := ⟨0xB00 + 16 * i, 30, 30⟩
def R.CAN.WKF.ID (i : Nat) : Fld := ⟨0xB00 + 16 * i, 28, 0⟩
def R.CAN.WKM.MASK (i : Nat) : Fld := ⟨0xB04 + 16 * i, 28, 0⟩
def R.CAN.WKDL.DMASK (i : Nat) : Fld := ⟨0xB08 + 16 * i, 31, 0⟩
def R.CAN.WKDH.DMASK (i : Nat) : Fld := ⟨0xB0C + 16 * i, 31, 0⟩
def R.LIN.STAT.SLOT : Fld := ⟨0x100, 13, 8⟩
def R.LIN.STAT.WAKEREQ : Fld := ⟨0x100, 5, 5⟩
def R.LIN.STAT.SLEEPCMD : Fld := ⟨0x100, 4, 4⟩
def R.LIN.STAT.STATE : Fld := ⟨0x100, 3, 0⟩
def R.LIN.LAST.ID : Fld := ⟨0x104, 13, 8⟩
def R.LIN.LAST.RES : Fld := ⟨0x104, 3, 0⟩
def R.LIN.LERR.ID : Fld := ⟨0x108, 13, 8⟩
def R.LIN.LERR.RES : Fld := ⟨0x108, 3, 0⟩
def R.LIN.CMD.CMD : Fld := ⟨0x10C, 3, 0⟩
def R.LIN.UPD.UPD (i : Nat) : Fld := ⟨0x110 + 4 * i, 31, 0⟩
def R.LIN.FD.DATA (i : Nat) : Fld := ⟨0x400 + 8 * i, 31, 0⟩
def R.LIN.MODE.ROLE : Fld := ⟨0x800, 0, 0⟩
def R.LIN.CFG.NMSLEEP : Fld := ⟨0x804, 8, 8⟩
def R.LIN.CFG.BAUD : Fld := ⟨0x804, 2, 0⟩
def R.LIN.WKID.WK (i : Nat) : Fld := ⟨0x808 + 4 * i, 31, 0⟩
def R.LIN.FID.LEN (i : Nat) : Fld := ⟨0x900 + 4 * i, 7, 4⟩
def R.LIN.FID.CSUM (i : Nat) : Fld := ⟨0x900 + 4 * i, 2, 2⟩
def R.LIN.FID.DIR (i : Nat) : Fld := ⟨0x900 + 4 * i, 1, 0⟩
def R.LIN.SCH.EN (i : Nat) : Fld := ⟨0xA00 + 4 * i, 31, 31⟩
def R.LIN.SCH.ID (i : Nat) : Fld := ⟨0xA00 + 4 * i, 13, 8⟩
def R.LIN.SCH.DLY (i : Nat) : Fld := ⟨0xA00 + 4 * i, 7, 0⟩
def R.NMG.STAT.NPRES : Fld := ⟨0x100, 24, 16⟩
def R.NMG.STAT.SUCC : Fld := ⟨0x100, 15, 8⟩
def R.NMG.STAT.READY : Fld := ⟨0x100, 5, 5⟩
def R.NMG.STAT.CONS : Fld := ⟨0x100, 4, 4⟩
def R.NMG.STAT.STATE : Fld := ⟨0x100, 3, 0⟩
def R.NMG.CMD.AWAKE : Fld := ⟨0x104, 0, 0⟩
def R.NMG.UDL.UDATA : Fld := ⟨0x108, 31, 0⟩
def R.NMG.UDH.UDATA : Fld := ⟨0x10C, 7, 0⟩
def R.NMG.CNT.CANCEL : Fld := ⟨0x110, 31, 16⟩
def R.NMG.CNT.ROUNDS : Fld := ⟨0x110, 15, 0⟩
def R.NMG.CNT2.RECONF : Fld := ⟨0x114, 15, 0⟩
def R.NMG.PRES.PRES (i : Nat) : Fld := ⟨0x120 + 4 * i, 31, 0⟩
def R.NMG.CFG.NODE : Fld := ⟨0x800, 23, 16⟩
def R.NMG.CFG.MEDIUM : Fld := ⟨0x800, 10, 8⟩
def R.NMG.CANID.BASEID : Fld := ⟨0x804, 10, 0⟩
def R.NMG.TIM.TERR : Fld := ⟨0x808, 23, 16⟩
def R.NMG.TIM.TMAX : Fld := ⟨0x808, 15, 8⟩
def R.NMG.TIM.TTYP : Fld := ⟨0x808, 7, 0⟩
def R.NMG.TWBS.TWBS : Fld := ⟨0x80C, 15, 0⟩
def R.IMM.CMD.DEAUTH : Fld := ⟨0x100, 1, 1⟩
def R.IMM.CMD.START : Fld := ⟨0x100, 0, 0⟩
def R.IMM.STAT.FAILS : Fld := ⟨0x104, 31, 24⟩
def R.IMM.STAT.RESULT : Fld := ⟨0x104, 19, 16⟩
def R.IMM.STAT.SLOT : Fld := ⟨0x104, 14, 12⟩
def R.IMM.STAT.ALOCK : Fld := ⟨0x104, 3, 3⟩
def R.IMM.STAT.AUTH : Fld := ⟨0x104, 2, 2⟩
def R.IMM.STAT.SESS : Fld := ⟨0x104, 1, 1⟩
def R.IMM.STAT.BUSY : Fld := ⟨0x104, 0, 0⟩
def R.IMM.TID.ID : Fld := ⟨0x108, 31, 0⟩
def R.IMM.TTAM.CYC : Fld := ⟨0x10C, 7, 0⟩
def R.IMM.SLOTS.VALID : Fld := ⟨0x110, 7, 0⟩
def R.IMM.LGEN.LCNT : Fld := ⟨0x114, 31, 16⟩
def R.IMM.LGEN.GEN : Fld := ⟨0x114, 15, 0⟩
def R.IMM.RSTAT.SENT : Fld := ⟨0x118, 31, 16⟩
def R.IMM.RSTAT.LOST : Fld := ⟨0x118, 15, 0⟩
def R.IMM.CNT.RELAY : Fld := ⟨0x11C, 31, 16⟩
def R.IMM.CNT.COLL : Fld := ⟨0x11C, 15, 0⟩
def R.IMM.TKID.ID (i : Nat) : Fld := ⟨0x120 + 4 * i, 31, 0⟩
def R.IMM.RCNTL.CNT : Fld := ⟨0x140, 31, 0⟩
def R.IMM.RCNTH.CNT : Fld := ⟨0x144, 31, 0⟩
def R.IMM.PSTAT.BURSTS : Fld := ⟨0x148, 31, 16⟩
def R.IMM.PSTAT.STEP : Fld := ⟨0x148, 2, 0⟩
def R.IMM.TMEM.DATA (i : Nat) : Fld := ⟨0x160 + 4 * i, 31, 0⟩
def R.IMM.CFG.TTA : Fld := ⟨0x800, 23, 16⟩
def R.IMM.CFG.FLIM : Fld := ⟨0x800, 15, 12⟩
def R.IMM.CFG.ANT : Fld := ⟨0x800, 11, 8⟩
def R.IMM.CFG.TSET : Fld := ⟨0x800, 7, 0⟩
def R.IMM.AC.MAXR : Fld := ⟨0x804, 7, 4⟩
def R.IMM.AC.NSLOT : Fld := ⟨0x804, 1, 0⟩
def R.IMM.REL.EN : Fld := ⟨0x808, 31, 31⟩
def R.IMM.REL.CAN : Fld := ⟨0x808, 30, 29⟩
def R.IMM.REL.PER : Fld := ⟨0x808, 27, 16⟩
def R.IMM.REL.ID : Fld := ⟨0x808, 10, 0⟩
def R.IMM.SLEN.EN : Fld := ⟨0x80C, 7, 0⟩
def R.IMM.READ.NBLK : Fld := ⟨0x810, 10, 8⟩
def R.IMM.READ.ADDR : Fld := ⟨0x810, 7, 0⟩
def R.IMM.WPOLL.EN : Fld := ⟨0x814, 31, 31⟩
def R.IMM.WPOLL.ANT : Fld := ⟨0x814, 3, 0⟩
def R.IMM.POLL.UNTIL (i : Nat) : Fld := ⟨0x840 + 4 * i, 31, 16⟩
def R.IMM.POLL.PER (i : Nat) : Fld := ⟨0x840 + 4 * i, 15, 0⟩
def R.LFA.STAT.SHORT : Fld := ⟨0x100, 11, 8⟩
def R.LFA.STAT.OPEN : Fld := ⟨0x100, 7, 4⟩
def R.LFA.STAT.LOCK : Fld := ⟨0x100, 3, 3⟩
def R.LFA.STAT.ACT : Fld := ⟨0x100, 2, 0⟩
def R.LFA.FREQ.FREQ : Fld := ⟨0x104, 15, 0⟩
def R.LFA.IMEAS.CODE (i : Nat) : Fld := ⟨0x108 + 4 * i, 11, 0⟩
def R.LFA.ANT.EN (i : Nat) : Fld := ⟨0x800 + 4 * i, 31, 31⟩
def R.LFA.ANT.IPK (i : Nat) : Fld := ⟨0x800 + 4 * i, 9, 0⟩
def R.VLT.CMD.SLOT : Fld := ⟨0x100, 15, 8⟩
def R.VLT.CMD.OP : Fld := ⟨0x100, 7, 0⟩
def R.VLT.STAT.OWNER : Fld := ⟨0x104, 31, 29⟩
def R.VLT.STAT.LCS : Fld := ⟨0x104, 22, 20⟩
def R.VLT.STAT.TAMPER : Fld := ⟨0x104, 19, 19⟩
def R.VLT.STAT.RNGOK : Fld := ⟨0x104, 18, 18⟩
def R.VLT.STAT.RESULT : Fld := ⟨0x104, 11, 8⟩
def R.VLT.STAT.BUSY : Fld := ⟨0x104, 0, 0⟩
def R.VLT.LEN.LEN : Fld := ⟨0x108, 15, 0⟩
def R.VLT.ARG.ARG : Fld := ⟨0x10C, 31, 0⟩
def R.VLT.REL.REL : Fld := ⟨0x110, 0, 0⟩
def R.VLT.TCNT.CNT : Fld := ⟨0x114, 15, 0⟩
def R.VLT.TINFO.CLRRES : Fld := ⟨0x118, 19, 16⟩
def R.VLT.TINFO.MODE : Fld := ⟨0x118, 10, 8⟩
def R.VLT.TINFO.SRC : Fld := ⟨0x118, 5, 0⟩
def R.VLT.TTS.SEC : Fld := ⟨0x11C, 31, 0⟩
def R.VLT.BUF.DATA (i : Nat) : Fld := ⟨0x200 + 4 * i, 31, 0⟩
def R.VLT.CFG.REMASK : Fld := ⟨0x800, 6, 0⟩
def R.UPD.STAT.LAST : Fld := ⟨0x100, 27, 24⟩
def R.UPD.STAT.TBOOTS : Fld := ⟨0x100, 15, 12⟩
def R.UPD.STAT.PREVV : Fld := ⟨0x100, 11, 11⟩
def R.UPD.STAT.PREVGEN : Fld := ⟨0x100, 10, 10⟩
def R.UPD.STAT.REVERTED : Fld := ⟨0x100, 9, 9⟩
def R.UPD.STAT.SLOT : Fld := ⟨0x100, 8, 8⟩
def R.UPD.STAT.STATE : Fld := ⟨0x100, 2, 0⟩
def R.UPD.TRUN.SEC : Fld := ⟨0x104, 15, 0⟩
def R.UPD.VERA.VER : Fld := ⟨0x108, 31, 0⟩
def R.UPD.VERB.VER : Fld := ⟨0x10C, 31, 0⟩
def R.UPD.ROLL.SET : Fld := ⟨0x110, 15, 8⟩
def R.UPD.ROLL.FW : Fld := ⟨0x110, 7, 0⟩
def R.UPD.CMD.KEY : Fld := ⟨0x114, 31, 24⟩
def R.UPD.CMD.GEN : Fld := ⟨0x114, 16, 16⟩
def R.UPD.CMD.OP : Fld := ⟨0x114, 3, 0⟩
def R.UPD.SRES.BUSY : Fld := ⟨0x118, 31, 31⟩
def R.UPD.SRES.OP : Fld := ⟨0x118, 27, 24⟩
def R.UPD.SRES.RES : Fld := ⟨0x118, 7, 0⟩
def R.UPD.DCTL.STOP : Fld := ⟨0x140, 1, 1⟩
def R.UPD.DCTL.START : Fld := ⟨0x140, 0, 0⟩
def R.UPD.DSTAT.FRAMES : Fld := ⟨0x144, 31, 16⟩
def R.UPD.DSTAT.ERR : Fld := ⟨0x144, 2, 2⟩
def R.UPD.DSTAT.DONE : Fld := ⟨0x144, 1, 1⟩
def R.UPD.DSTAT.BUSY : Fld := ⟨0x144, 0, 0⟩
def R.UPD.DSRC.ADDR : Fld := ⟨0x800, 31, 0⟩
def R.UPD.DLEN.LEN : Fld := ⟨0x804, 21, 0⟩
def R.UPD.DDST.BC : Fld := ⟨0x808, 31, 31⟩
def R.UPD.DDST.SEL : Fld := ⟨0x808, 30, 30⟩
def R.UPD.DDST.ADDR : Fld := ⟨0x808, 9, 0⟩
def R.UPD.DOFF.OFFS : Fld := ⟨0x80C, 20, 0⟩
def R.FLT.SUM.NOPEN : Fld := ⟨0x100, 31, 24⟩
def R.FLT.SUM.ACKRES : Fld := ⟨0x100, 19, 18⟩
def R.FLT.SUM.RLIMHIT : Fld := ⟨0x100, 17, 17⟩
def R.FLT.SUM.ALIVE : Fld := ⟨0x100, 16, 16⟩
def R.FLT.SUM.HICLS : Fld := ⟨0x100, 3, 0⟩
def R.FLT.ACK.KEY : Fld := ⟨0x104, 31, 24⟩
def R.FLT.ACK.ID : Fld := ⟨0x104, 10, 0⟩
def R.FLT.AKICK.KEY : Fld := ⟨0x108, 7, 0⟩
def R.FLT.NEWCNT.CNT : Fld := ⟨0x10C, 15, 0⟩
def R.FLT.DROP.CNT : Fld := ⟨0x110, 15, 0⟩
def R.FLT.RCNT.CNT : Fld := ⟨0x114, 2, 0⟩
def R.FLT.LAST.REC (i : Nat) : Fld := ⟨0x140 + 4 * i, 31, 0⟩
def R.FLT.OPEN.OPEN (i : Nat) : Fld := ⟨0x200 + 4 * i, 31, 0⟩
def R.FLT.CFG.RLIM : Fld := ⟨0x800, 10, 8⟩
def R.FLT.CFG.ESC : Fld := ⟨0x800, 4, 4⟩
def R.FLT.CFG.AFREQ : Fld := ⟨0x800, 2, 0⟩
def R.FLT.AWIN.TMAX : Fld := ⟨0x804, 15, 8⟩
def R.FLT.AWIN.TMIN : Fld := ⟨0x804, 7, 0⟩
def R.FLT.CLS.CLS (i j : Nat) : Fld := ⟨0xC00 + 4 * i, 3 + 4 * j, 0 + 4 * j⟩
def R.XSP.BANK.BANK : Fld := ⟨0x100, 2, 0⟩
def R.XSP.STAT.BUSY : Fld := ⟨0x104, 3, 2⟩
def R.XSP.STAT.READY : Fld := ⟨0x104, 1, 0⟩
def R.XSP.CMD.CS : Fld := ⟨0x108, 9, 8⟩
def R.XSP.CMD.OP : Fld := ⟨0x108, 1, 0⟩
def R.XSP.CADDR.ADDR : Fld := ⟨0x10C, 31, 0⟩
def R.XSP.CBUF.ADDR : Fld := ⟨0x110, 31, 0⟩
def R.XSP.CRES.RES : Fld := ⟨0x114, 3, 0⟩
def R.XSP.SPLEFT.N (i : Nat) : Fld := ⟨0x118 + 4 * i, 15, 0⟩
def R.XSP.CS.EN (i : Nat) : Fld := ⟨0x800 + 8 * i, 31, 31⟩
def R.XSP.CS.TYPE (i : Nat) : Fld := ⟨0x800 + 8 * i, 30, 30⟩
def R.XSP.CS.MODE (i : Nat) : Fld := ⟨0x800 + 8 * i, 29, 29⟩
def R.XSP.CS.SIZE (i : Nat) : Fld := ⟨0x800 + 8 * i, 20, 16⟩
def R.XSP.CS.DIV (i : Nat) : Fld := ⟨0x800 + 8 * i, 15, 12⟩
def R.XSP.CS.DUMMY (i : Nat) : Fld := ⟨0x800 + 8 * i, 11, 6⟩
def R.XSP.GEO.PAGE (i : Nat) : Fld := ⟨0x804 + 8 * i, 19, 16⟩
def R.XSP.GEO.BLK (i : Nat) : Fld := ⟨0x804 + 8 * i, 7, 0⟩
def R.JRN.HEAD.SEQ : Fld := ⟨0x100, 31, 0⟩
def R.JRN.TAIL.SEQ : Fld := ⟨0x104, 31, 0⟩
def R.JRN.TOTAL.CNT : Fld := ⟨0x108, 15, 0⟩
def R.JRN.LOST.CNT : Fld := ⟨0x10C, 15, 0⟩
def R.JRN.RSEQ.SEQ : Fld := ⟨0x110, 31, 0⟩
def R.JRN.RRES.RES : Fld := ⟨0x114, 1, 0⟩
def R.JRN.CLR.TOTAL : Fld := ⟨0x118, 0, 0⟩
def R.JRN.RDAT.DATA (i : Nat) : Fld := ⟨0x140 + 4 * i, 31, 0⟩
def R.JRN.CFG.EN : Fld := ⟨0x800, 31, 31⟩
def R.JRN.CFG.UNITS : Fld := ⟨0x800, 15, 0⟩
def R.JRN.BASE.ADDR : Fld := ⟨0x804, 31, 0⟩
def R.SPR.STAT.EXH : Fld := ⟨0x100, 7, 0⟩
def R.SPR.AVAIL.MROWS : Fld := ⟨0x104, 31, 16⟩
def R.SPR.AVAIL.KEYS : Fld := ⟨0x104, 4, 0⟩
def R.SPR.SEGUSE.USE (i : Nat) : Fld := ⟨0x108 + 4 * i, 31, 0⟩
def R.SPR.LOGN.N : Fld := ⟨0x120, 4, 0⟩
def R.SPR.LOG.KIND (i : Nat) : Fld := ⟨0x140 + 4 * i, 31, 28⟩
def R.SPR.LOG.WHAT (i : Nat) : Fld := ⟨0x140 + 4 * i, 27, 0⟩
def R.SPR.CFG.SEGEN : Fld := ⟨0x800, 8, 8⟩
def R.SPR.CFG.MRTH : Fld := ⟨0x800, 7, 0⟩
def R.RFX.RULEA.EN (i : Nat) : Fld := ⟨0xA00 + 8 * i, 31, 31⟩
def R.RFX.RULEA.HSAFE (i : Nat) : Fld := ⟨0xA00 + 8 * i, 30, 30⟩
def R.RFX.RULEA.LIMP (i : Nat) : Fld := ⟨0xA00 + 8 * i, 29, 29⟩
def R.RFX.RULEA.COMB (i : Nat) : Fld := ⟨0xA00 + 8 * i, 28, 28⟩
def R.RFX.RULEA.ACT (i : Nat) : Fld := ⟨0xA00 + 8 * i, 27, 26⟩
def R.RFX.RULEA.GRP (i : Nat) : Fld := ⟨0xA00 + 8 * i, 25, 21⟩
def R.RFX.RULEA.TERM1 (i : Nat) : Fld := ⟨0xA00 + 8 * i, 19, 10⟩
def R.RFX.RULEA.TERM0 (i : Nat) : Fld := ⟨0xA00 + 8 * i, 9, 0⟩
def R.RFX.RULEB.PLEN (i : Nat) : Fld := ⟨0xA04 + 8 * i, 31, 28⟩
def R.RFX.RULEB.TERM3 (i : Nat) : Fld := ⟨0xA04 + 8 * i, 19, 10⟩
def R.RFX.RULEB.TERM2 (i : Nat) : Fld := ⟨0xA04 + 8 * i, 9, 0⟩
def R.HB.VOUT.CODE : Fld := ⟨0x110, 11, 0⟩
def R.HB.TEMP.CODE : Fld := ⟨0x114, 11, 0⟩

def regMapDEV0 : List RegSpec :=
  [ ⟨0x100, 0, 1, 31, 16, .ro, 29536, 0, 65535⟩,
    ⟨0x100, 0, 1, 15, 8, .ro, 66, 0, 255⟩,
    ⟨0x100, 0, 1, 7, 0, .ro, 1, 0, 255⟩,
    ⟨0x104, 0, 1, 31, 0, .ro, 0, 0, 4294967295⟩,
    ⟨0x108, 0, 1, 31, 0, .ro, 0, 0, 4294967295⟩,
    ⟨0x110, 0, 1, 15, 8, .ro, 0, 0, 255⟩,
    ⟨0x110, 0, 1, 6, 4, .ro, 0, 0, 7⟩,
    ⟨0x110, 0, 1, 2, 0, .ro, 4, 0, 7⟩,
    ⟨0x114, 0, 1, 1, 0, .wo, 0, 0, 3⟩ ]
def regMapDEV : List RegSpec := regMapDEV0

def regMapPMU0 : List RegSpec :=
  [ ⟨0x100, 0, 1, 0, 0, .rw, 0, 0, 1⟩,
    ⟨0x104, 0, 1, 5, 0, .ro, 0, 0, 63⟩,
    ⟨0x108, 0, 1, 15, 0, .ro, 0, 0, 65535⟩,
    ⟨0x10C, 0, 1, 31, 16, .ro, 0, 0, 65535⟩,
    ⟨0x10C, 0, 1, 15, 8, .ro, 0, 0, 255⟩,
    ⟨0x10C, 0, 1, 7, 4, .ro, 0, 0, 15⟩,
    ⟨0x10C, 0, 1, 3, 0, .ro, 0, 0, 15⟩,
    ⟨0x110, 0, 1, 31, 0, .ro, 0, 0, 4294967295⟩,
    ⟨0x114, 0, 1, 15, 0, .ro, 0, 0, 65535⟩,
    ⟨0x118, 0, 1, 25, 16, .ro, 0, 0, 1023⟩,
    ⟨0x118, 0, 1, 15, 8, .ro, 0, 0, 255⟩,
    ⟨0x118, 0, 1, 7, 0, .ro, 0, 0, 255⟩,
    ⟨0x11C, 0, 1, 31, 24, .ro, 0, 0, 255⟩,
    ⟨0x11C, 0, 1, 23, 20, .ro, 0, 0, 15⟩,
    ⟨0x11C, 0, 1, 15, 0, .ro, 0, 0, 65535⟩,
    ⟨0x120, 0, 1, 2, 2, .wo, 0, 0, 1⟩,
    ⟨0x120, 0, 1, 1, 1, .wo, 0, 0, 1⟩,
    ⟨0x120, 0, 1, 0, 0, .wo, 0, 0, 1⟩,
    ⟨0x124, 0, 1, 31, 0, .ro, 0, 0, 4294967295⟩,
    ⟨0x128, 0, 1, 31, 0, .rw, 0, 0, 4294967295⟩,
    ⟨0x800, 0, 1, 15, 0, .rws, 300, 1, 65535⟩,
    ⟨0x804, 0, 1, 21, 20, .rws, 0, 0, 3⟩,
    ⟨0x804, 0, 1, 19, 19, .rws, 1, 0, 1⟩,
    ⟨0x804, 0, 1, 18, 18, .rws, 1, 0, 1⟩,
    ⟨0x804, 0, 1, 17, 16, .rws, 3, 0, 3⟩,
    ⟨0x804, 0, 1, 13, 8, .rws, 0, 0, 63⟩,
    ⟨0x804, 0, 1, 7, 6, .rws, 3, 0, 3⟩,
    ⟨0x808, 0, 1, 7, 0, .rws, 255, 0, 255⟩,
    ⟨0x80C, 0, 1, 7, 0, .rws, 0, 0, 255⟩,
    ⟨0x810, 0, 1, 5, 4, .rws, 1, 0, 3⟩,
    ⟨0x810, 0, 1, 3, 2, .rws, 1, 0, 3⟩,
    ⟨0x810, 0, 1, 1, 0, .rws, 1, 0, 3⟩,
    ⟨0x814, 0, 1, 11, 8, .rws, 0, 0, 15⟩,
    ⟨0x814, 0, 1, 7, 0, .rws, 10, 1, 255⟩,
    ⟨0x818, 0, 1, 0, 0, .rwl, 0, 0, 1⟩ ]
def regMapPMU : List RegSpec := regMapPMU0

def regMapCLK0 : List RegSpec :=
  [ ⟨0x100, 0, 1, 7, 7, .ro, 0, 0, 1⟩,
    ⟨0x100, 0, 1, 6, 6, .ro, 1, 0, 1⟩,
    ⟨0x100, 0, 1, 5, 5, .ro, 0, 0, 1⟩,
    ⟨0x100, 0, 1, 4, 4, .ro, 0, 0, 1⟩,
    ⟨0x100, 0, 1, 3, 3, .ro, 0, 0, 1⟩,
    ⟨0x100, 0, 1, 2, 2, .ro, 0, 0, 1⟩,
    ⟨0x100, 0, 1, 1, 1, .ro, 0, 0, 1⟩,
    ⟨0x100, 0, 1, 0, 0, .ro, 0, 0, 1⟩,
    ⟨0x104, 0, 1, 15, 0, .ro, 0, 0, 65535⟩,
    ⟨0x108, 0, 1, 15, 0, .ro, 0, 0, 65535⟩,
    ⟨0x10C, 0, 1, 31, 0, .ro, 0, 0, 4294967295⟩ ]
def regMapCLK : List RegSpec := regMapCLK0

def regMapRST0 : List RegSpec :=
  [ ⟨0x100, 0, 1, 26, 16, .ro, 0, 0, 2047⟩,
    ⟨0x100, 0, 1, 3, 0, .ro, 0, 0, 15⟩,
    ⟨0x104, 0, 1, 15, 0, .ro, 0, 0, 65535⟩,
    ⟨0x108, 0, 1, 8, 8, .ro, 0, 0, 1⟩,
    ⟨0x108, 0, 1, 7, 7, .ro, 0, 0, 1⟩,
    ⟨0x108, 0, 1, 3, 0, .ro, 0, 0, 15⟩,
    ⟨0x10C, 0, 1, 15, 8, .ro, 0, 0, 255⟩,
    ⟨0x10C, 0, 1, 3, 0, .ro, 0, 0, 15⟩,
    ⟨0x110, 0, 1, 16, 16, .ro, 0, 0, 1⟩,
    ⟨0x110, 0, 1, 15, 0, .ro, 0, 0, 65535⟩,
    ⟨0x114, 0, 1, 7, 0, .wo, 0, 0, 255⟩,
    ⟨0x118, 0, 1, 7, 0, .wo, 0, 0, 255⟩,
    ⟨0x11C, 0, 1, 0, 0, .ro, 0, 0, 1⟩,
    ⟨0x120, 0, 1, 0, 0, .wo, 0, 0, 1⟩,
    ⟨0x800, 0, 1, 15, 0, .rws, 0, 0, 65535⟩ ]
def regMapRST : List RegSpec := regMapRST0

def regMapFLT0 : List RegSpec :=
  [ ⟨0x100, 0, 1, 31, 24, .ro, 0, 0, 255⟩,
    ⟨0x100, 0, 1, 19, 18, .ro, 0, 0, 3⟩,
    ⟨0x100, 0, 1, 17, 17, .ro, 0, 0, 1⟩,
    ⟨0x100, 0, 1, 16, 16, .ro, 0, 0, 1⟩,
    ⟨0x100, 0, 1, 3, 0, .ro, 15, 0, 15⟩,
    ⟨0x104, 0, 1, 31, 24, .wo, 0, 0, 255⟩,
    ⟨0x104, 0, 1, 10, 0, .wo, 0, 0, 2047⟩,
    ⟨0x108, 0, 1, 7, 0, .wo, 0, 0, 255⟩,
    ⟨0x10C, 0, 1, 15, 0, .rc, 0, 0, 65535⟩,
    ⟨0x110, 0, 1, 15, 0, .ro, 0, 0, 65535⟩,
    ⟨0x114, 0, 1, 2, 0, .ro, 0, 0, 7⟩,
    ⟨0x140, 4, 16, 31, 0, .ro, 0, 0, 4294967295⟩,
    ⟨0x200, 4, 64, 31, 0, .ro, 0, 0, 4294967295⟩,
    ⟨0x800, 0, 1, 10, 8, .rws, 3, 0, 7⟩,
    ⟨0x800, 0, 1, 4, 4, .rws, 1, 0, 1⟩,
    ⟨0x800, 0, 1, 2, 0, .rws, 2, 0, 4⟩,
    ⟨0x804, 0, 1, 15, 8, .rws, 100, 0, 255⟩,
    ⟨0x804, 0, 1, 7, 0, .rws, 10, 0, 255⟩,
    ⟨0xC00, 4, 256, 3, 0, .rws, 15, 0, 15⟩,
    ⟨0xC00, 4, 256, 7, 4, .rws, 15, 0, 15⟩,
    ⟨0xC00, 4, 256, 11, 8, .rws, 15, 0, 15⟩,
    ⟨0xC00, 4, 256, 15, 12, .rws, 15, 0, 15⟩,
    ⟨0xC00, 4, 256, 19, 16, .rws, 15, 0, 15⟩,
    ⟨0xC00, 4, 256, 23, 20, .rws, 15, 0, 15⟩,
    ⟨0xC00, 4, 256, 27, 24, .rws, 15, 0, 15⟩,
    ⟨0xC00, 4, 256, 31, 28, .rws, 15, 0, 15⟩ ]
def regMapFLT : List RegSpec := regMapFLT0

def regMapPROT0 : List RegSpec :=
  [ ⟨0x100, 0, 1, 31, 31, .ro, 0, 0, 1⟩,
    ⟨0x100, 0, 1, 30, 28, .ro, 0, 0, 7⟩,
    ⟨0x100, 0, 1, 27, 27, .ro, 0, 0, 1⟩,
    ⟨0x100, 0, 1, 19, 10, .ro, 0, 0, 1023⟩,
    ⟨0x100, 0, 1, 7, 0, .ro, 0, 0, 255⟩,
    ⟨0x104, 0, 1, 31, 0, .ro, 0, 0, 4294967295⟩,
    ⟨0x108, 0, 1, 15, 0, .ro, 0, 0, 65535⟩,
    ⟨0x10C, 0, 1, 0, 0, .wo, 0, 0, 1⟩,
    ⟨0x110, 0, 1, 0, 0, .ro, 0, 0, 1⟩,
    ⟨0x400, 4, 256, 31, 0, .ro, 1792, 0, 4294967295⟩,
    ⟨0x800, 4, 256, 31, 0, .rws, 0, 0, 4294967295⟩ ]
def regMapPROT : List RegSpec := regMapPROT0

def regMapVLT0 : List RegSpec :=
  [ ⟨0x100, 0, 1, 15, 8, .wo, 0, 0, 255⟩,
    ⟨0x100, 0, 1, 7, 0, .wo, 0, 0, 255⟩,
    ⟨0x104, 0, 1, 31, 29, .ro, 0, 0, 7⟩,
    ⟨0x104, 0, 1, 22, 20, .ro, 0, 0, 7⟩,
    ⟨0x104, 0, 1, 19, 19, .ro, 0, 0, 1⟩,
    ⟨0x104, 0, 1, 18, 18, .ro, 0, 0, 1⟩,
    ⟨0x104, 0, 1, 11, 8, .ro, 0, 0, 15⟩,
    ⟨0x104, 0, 1, 0, 0, .ro, 0, 0, 1⟩,
    ⟨0x108, 0, 1, 15, 0, .rw, 0, 0, 65535⟩,
    ⟨0x10C, 0, 1, 31, 0, .rw, 0, 0, 4294967295⟩,
    ⟨0x110, 0, 1, 0, 0, .wo, 0, 0, 1⟩,
    ⟨0x114, 0, 1, 15, 0, .ro, 0, 0, 65535⟩,
    ⟨0x118, 0, 1, 19, 16, .ro, 0, 0, 15⟩,
    ⟨0x118, 0, 1, 10, 8, .ro, 0, 0, 7⟩,
    ⟨0x118, 0, 1, 5, 0, .ro, 0, 0, 63⟩,
    ⟨0x11C, 0, 1, 31, 0, .ro, 0, 0, 4294967295⟩,
    ⟨0x200, 4, 128, 31, 0, .rw, 0, 0, 4294967295⟩,
    ⟨0x800, 0, 1, 6, 0, .rws, 10, 1, 100⟩ ]
def regMapVLT : List RegSpec := regMapVLT0

def regMapUPD0 : List RegSpec :=
  [ ⟨0x100, 0, 1, 27, 24, .ro, 0, 0, 15⟩,
    ⟨0x100, 0, 1, 15, 12, .ro, 0, 0, 15⟩,
    ⟨0x100, 0, 1, 11, 11, .ro, 0, 0, 1⟩,
    ⟨0x100, 0, 1, 10, 10, .ro, 0, 0, 1⟩,
    ⟨0x100, 0, 1, 9, 9, .ro, 0, 0, 1⟩,
    ⟨0x100, 0, 1, 8, 8, .ro, 0, 0, 1⟩,
    ⟨0x100, 0, 1, 2, 0, .ro, 0, 0, 7⟩,
    ⟨0x104, 0, 1, 15, 0, .ro, 0, 0, 65535⟩,
    ⟨0x108, 0, 1, 31, 0, .ro, 0, 0, 4294967295⟩,
    ⟨0x10C, 0, 1, 31, 0, .ro, 0, 0, 4294967295⟩,
    ⟨0x110, 0, 1, 15, 8, .ro, 0, 0, 255⟩,
    ⟨0x110, 0, 1, 7, 0, .ro, 0, 0, 255⟩,
    ⟨0x114, 0, 1, 31, 24, .wo, 0, 0, 255⟩,
    ⟨0x114, 0, 1, 16, 16, .wo, 0, 0, 1⟩,
    ⟨0x114, 0, 1, 3, 0, .wo, 0, 0, 15⟩,
    ⟨0x118, 0, 1, 31, 31, .ro, 0, 0, 1⟩,
    ⟨0x118, 0, 1, 27, 24, .ro, 0, 0, 15⟩,
    ⟨0x118, 0, 1, 7, 0, .ro, 0, 0, 255⟩,
    ⟨0x140, 0, 1, 1, 1, .w1s, 0, 0, 1⟩,
    ⟨0x140, 0, 1, 0, 0, .w1s, 0, 0, 1⟩,
    ⟨0x144, 0, 1, 31, 16, .ro, 0, 0, 65535⟩,
    ⟨0x144, 0, 1, 2, 2, .w1c, 0, 0, 1⟩,
    ⟨0x144, 0, 1, 1, 1, .w1c, 0, 0, 1⟩,
    ⟨0x144, 0, 1, 0, 0, .ro, 0, 0, 1⟩,
    ⟨0x800, 0, 1, 31, 0, .rws, 0, 0, 4294967295⟩,
    ⟨0x804, 0, 1, 21, 0, .rws, 0, 4, 2097152⟩,
    ⟨0x808, 0, 1, 31, 31, .rws, 0, 0, 1⟩,
    ⟨0x808, 0, 1, 30, 30, .rws, 0, 0, 1⟩,
    ⟨0x808, 0, 1, 9, 0, .rws, 0, 0, 1023⟩,
    ⟨0x80C, 0, 1, 20, 0, .rws, 0, 0, 2097151⟩ ]
def regMapUPD : List RegSpec := regMapUPD0

def regMapHPT0 : List RegSpec :=
  [ ⟨0x100, 0, 1, 15, 8, .ro, 0, 0, 255⟩,
    ⟨0x100, 0, 1, 7, 0, .ro, 0, 0, 255⟩,
    ⟨0x104, 0, 1, 31, 0, .ro, 0, 0, 4294967295⟩,
    ⟨0x108, 0, 1, 31, 16, .ro, 0, 0, 65535⟩,
    ⟨0x108, 0, 1, 15, 0, .ro, 0, 0, 65535⟩,
    ⟨0x10C, 0, 1, 31, 16, .ro, 0, 0, 65535⟩,
    ⟨0x10C, 0, 1, 15, 0, .ro, 0, 0, 65535⟩,
    ⟨0x110, 0, 1, 0, 0, .wo, 0, 0, 1⟩,
    ⟨0x120, 4, 8, 31, 0, .ro, 0, 0, 4294967295⟩,
    ⟨0x800, 0, 1, 9, 9, .rws, 1, 0, 1⟩,
    ⟨0x800, 0, 1, 7, 0, .rws, 32, 4, 255⟩ ]
def regMapHPT : List RegSpec := regMapHPT0

def regMapSBP0 : List RegSpec :=
  [ ⟨0x100, 0, 1, 18, 18, .ro, 0, 0, 1⟩,
    ⟨0x100, 0, 1, 17, 17, .ro, 0, 0, 1⟩,
    ⟨0x100, 0, 1, 15, 9, .ro, 88, 0, 127⟩,
    ⟨0x100, 0, 1, 7, 0, .ro, 0, 0, 255⟩,
    ⟨0x104, 0, 1, 31, 16, .ro, 0, 0, 65535⟩,
    ⟨0x104, 0, 1, 15, 0, .ro, 0, 0, 65535⟩,
    ⟨0x108, 0, 1, 31, 16, .ro, 0, 0, 65535⟩,
    ⟨0x108, 0, 1, 15, 0, .ro, 0, 0, 65535⟩,
    ⟨0x10C, 0, 1, 0, 0, .wo, 0, 0, 1⟩ ]
def regMapSBP : List RegSpec := regMapSBP0

def regMapBRG0 : List RegSpec :=
  [ ⟨0x100, 0, 1, 31, 31, .ro, 0, 0, 1⟩,
    ⟨0x100, 0, 1, 30, 28, .ro, 0, 0, 7⟩,
    ⟨0x100, 0, 1, 27, 24, .ro, 0, 0, 15⟩,
    ⟨0x100, 0, 1, 23, 23, .ro, 0, 0, 1⟩,
    ⟨0x100, 0, 1, 22, 21, .ro, 0, 0, 3⟩,
    ⟨0x100, 0, 1, 20, 20, .ro, 0, 0, 1⟩,
    ⟨0x100, 0, 1, 19, 19, .ro, 0, 0, 1⟩,
    ⟨0x100, 0, 1, 18, 18, .ro, 0, 0, 1⟩,
    ⟨0x100, 0, 1, 15, 8, .ro, 0, 0, 255⟩,
    ⟨0x100, 0, 1, 7, 0, .ro, 0, 0, 255⟩,
    ⟨0x104, 0, 1, 31, 0, .ro, 0, 0, 4294967295⟩,
    ⟨0x108, 0, 1, 31, 16, .ro, 0, 0, 65535⟩,
    ⟨0x108, 0, 1, 15, 0, .ro, 16897, 0, 65535⟩,
    ⟨0x10C, 0, 1, 31, 24, .ro, 0, 0, 255⟩,
    ⟨0x10C, 0, 1, 17, 17, .ro, 0, 0, 1⟩,
    ⟨0x10C, 0, 1, 16, 16, .ro, 0, 0, 1⟩,
    ⟨0x10C, 0, 1, 15, 0, .ro, 0, 0, 65535⟩,
    ⟨0x110, 0, 1, 3, 0, .rw, 1, 0, 15⟩,
    ⟨0x114, 0, 1, 31, 0, .wo, 0, 0, 4294967295⟩,
    ⟨0x118, 0, 1, 31, 31, .ro, 0, 0, 1⟩,
    ⟨0x118, 0, 1, 3, 0, .ro, 0, 0, 15⟩,
    ⟨0x11C, 0, 1, 15, 0, .wo, 0, 0, 65535⟩,
    ⟨0x120, 0, 1, 12, 8, .ro, 0, 0, 31⟩,
    ⟨0x120, 0, 1, 3, 0, .ro, 0, 0, 15⟩,
    ⟨0x124, 0, 1, 11, 8, .ro, 0, 0, 15⟩,
    ⟨0x124, 0, 1, 2, 0, .ro, 0, 0, 7⟩,
    ⟨0x128, 0, 1, 1, 1, .wo, 0, 0, 1⟩,
    ⟨0x128, 0, 1, 0, 0, .wo, 0, 0, 1⟩,
    ⟨0x12C, 0, 1, 31, 22, .wo, 0, 0, 1023⟩,
    ⟨0x12C, 0, 1, 21, 14, .wo, 0, 0, 255⟩,
    ⟨0x12C, 0, 1, 5, 0, .wo, 0, 0, 63⟩,
    ⟨0x130, 0, 1, 5, 0, .wo, 0, 0, 63⟩,
    ⟨0x134, 0, 1, 31, 22, .wo, 0, 0, 1023⟩,
    ⟨0x134, 0, 1, 21, 14, .wo, 0, 0, 255⟩,
    ⟨0x134, 0, 1, 0, 0, .wo, 0, 0, 1⟩,
    ⟨0x140, 0, 1, 31, 0, .ro, 0, 0, 4294967295⟩,
    ⟨0x144, 0, 1, 31, 0, .ro, 0, 0, 4294967295⟩,
    ⟨0x148, 0, 1, 31, 16, .ro, 0, 0, 65535⟩,
    ⟨0x148, 0, 1, 15, 0, .ro, 0, 0, 65535⟩,
    ⟨0x14C, 0, 1, 31, 16, .ro, 0, 0, 65535⟩ ]
def regMapBRG1 : List RegSpec :=
  [ ⟨0x14C, 0, 1, 15, 0, .ro, 0, 0, 65535⟩,
    ⟨0x180, 4, 16, 31, 30, .ro, 0, 0, 3⟩,
    ⟨0x180, 4, 16, 29, 27, .ro, 0, 0, 7⟩,
    ⟨0x180, 4, 16, 23, 16, .ro, 0, 0, 255⟩,
    ⟨0x180, 4, 16, 15, 8, .ro, 0, 0, 255⟩,
    ⟨0x180, 4, 16, 3, 0, .ro, 0, 0, 15⟩,
    ⟨0x200, 4, 32, 31, 0, .ro, 0, 0, 4294967295⟩,
    ⟨0x280, 4, 32, 31, 0, .w1c, 0, 0, 4294967295⟩,
    ⟨0x300, 4, 64, 31, 31, .ro, 0, 0, 1⟩,
    ⟨0x300, 4, 64, 30, 28, .ro, 0, 0, 7⟩,
    ⟨0x300, 4, 64, 27, 18, .ro, 0, 0, 1023⟩,
    ⟨0x300, 4, 64, 17, 10, .ro, 0, 0, 255⟩,
    ⟨0x300, 4, 64, 7, 0, .ro, 0, 0, 255⟩,
    ⟨0x400, 16, 16, 31, 0, .ro, 0, 0, 4294967295⟩,
    ⟨0x404, 16, 16, 31, 0, .ro, 0, 0, 4294967295⟩,
    ⟨0x408, 16, 16, 31, 0, .ro, 0, 0, 4294967295⟩,
    ⟨0x40C, 16, 16, 31, 0, .ro, 0, 0, 4294967295⟩,
    ⟨0x500, 16, 8, 31, 0, .ro, 0, 0, 4294967295⟩,
    ⟨0x504, 16, 8, 31, 0, .ro, 0, 0, 4294967295⟩,
    ⟨0x508, 16, 8, 31, 0, .ro, 0, 0, 4294967295⟩,
    ⟨0x50C, 16, 8, 31, 0, .ro, 0, 0, 4294967295⟩,
    ⟨0x600, 4, 8, 31, 0, .ro, 0, 0, 4294967295⟩,
    ⟨0x620, 4, 8, 31, 0, .ro, 0, 0, 4294967295⟩,
    ⟨0x640, 4, 8, 31, 0, .ro, 0, 0, 4294967295⟩,
    ⟨0x660, 4, 8, 31, 0, .ro, 0, 0, 4294967295⟩,
    ⟨0x680, 4, 8, 31, 0, .ro, 0, 0, 4294967295⟩,
    ⟨0x6A0, 4, 8, 31, 0, .ro, 0, 0, 4294967295⟩,
    ⟨0x6C0, 4, 8, 31, 0, .ro, 0, 0, 4294967295⟩,
    ⟨0x6E0, 4, 8, 31, 0, .ro, 0, 0, 4294967295⟩,
    ⟨0x700, 4, 8, 31, 0, .ro, 0, 0, 4294967295⟩,
    ⟨0x720, 4, 8, 31, 0, .ro, 0, 0, 4294967295⟩,
    ⟨0x740, 4, 8, 31, 0, .ro, 0, 0, 4294967295⟩,
    ⟨0x760, 4, 8, 31, 0, .ro, 0, 0, 4294967295⟩,
    ⟨0x780, 4, 8, 31, 0, .ro, 0, 0, 4294967295⟩,
    ⟨0x7A0, 4, 8, 31, 0, .ro, 0, 0, 4294967295⟩,
    ⟨0x7C0, 4, 8, 31, 0, .ro, 0, 0, 4294967295⟩,
    ⟨0x7E0, 4, 8, 31, 0, .ro, 0, 0, 4294967295⟩,
    ⟨0x800, 0, 1, 23, 16, .rws, 10, 0, 255⟩,
    ⟨0x800, 0, 1, 3, 3, .rws, 0, 0, 1⟩,
    ⟨0x800, 0, 1, 2, 2, .rws, 1, 0, 1⟩ ]
def regMapBRG2 : List RegSpec :=
  [ ⟨0x800, 0, 1, 1, 1, .rws, 0, 0, 1⟩,
    ⟨0x800, 0, 1, 0, 0, .rws, 1, 0, 1⟩,
    ⟨0x804, 0, 1, 23, 16, .rws, 5, 2, 255⟩,
    ⟨0x804, 0, 1, 15, 8, .rws, 10, 1, 255⟩,
    ⟨0x804, 0, 1, 7, 0, .rws, 10, 1, 255⟩,
    ⟨0x808, 0, 1, 15, 0, .rws, 0, 0, 65535⟩ ]
def regMapBRG : List RegSpec := regMapBRG0 ++ regMapBRG1 ++ regMapBRG2

def regMapJXR0 : List RegSpec :=
  [ ⟨0x100, 0, 1, 27, 25, .ro, 0, 0, 7⟩,
    ⟨0x100, 0, 1, 24, 24, .ro, 0, 0, 1⟩,
    ⟨0x100, 0, 1, 23, 23, .ro, 0, 0, 1⟩,
    ⟨0x100, 0, 1, 22, 22, .ro, 0, 0, 1⟩,
    ⟨0x100, 0, 1, 21, 21, .ro, 0, 0, 1⟩,
    ⟨0x100, 0, 1, 20, 20, .ro, 0, 0, 1⟩,
    ⟨0x104, 0, 1, 31, 31, .ro, 0, 0, 1⟩,
    ⟨0x104, 0, 1, 30, 30, .ro, 0, 0, 1⟩,
    ⟨0x104, 0, 1, 25, 16, .ro, 0, 0, 1023⟩,
    ⟨0x104, 0, 1, 9, 0, .ro, 0, 0, 1023⟩,
    ⟨0x108, 0, 1, 31, 31, .ro, 0, 0, 1⟩,
    ⟨0x108, 0, 1, 15, 0, .ro, 0, 0, 65535⟩,
    ⟨0x110, 0, 1, 31, 0, .ro, 0, 0, 4294967295⟩,
    ⟨0x114, 0, 1, 31, 0, .ro, 0, 0, 4294967295⟩,
    ⟨0x118, 0, 1, 15, 0, .ro, 0, 0, 65535⟩,
    ⟨0x11C, 0, 1, 31, 16, .wo, 0, 0, 65535⟩,
    ⟨0x11C, 0, 1, 15, 0, .wo, 0, 0, 65535⟩,
    ⟨0x120, 0, 1, 2, 2, .w1s, 0, 0, 1⟩,
    ⟨0x120, 0, 1, 1, 1, .w1s, 0, 0, 1⟩,
    ⟨0x120, 0, 1, 0, 0, .w1s, 0, 0, 1⟩,
    ⟨0x124, 0, 1, 31, 16, .ro, 0, 0, 65535⟩,
    ⟨0x124, 0, 1, 15, 0, .ro, 0, 0, 65535⟩,
    ⟨0x128, 0, 1, 31, 16, .ro, 0, 0, 65535⟩,
    ⟨0x128, 0, 1, 15, 0, .ro, 0, 0, 65535⟩,
    ⟨0x12C, 0, 1, 31, 16, .ro, 0, 0, 65535⟩,
    ⟨0x12C, 0, 1, 15, 0, .ro, 0, 0, 65535⟩,
    ⟨0x130, 0, 1, 10, 0, .ro, 0, 0, 2047⟩,
    ⟨0x134, 0, 1, 0, 0, .wo, 0, 0, 1⟩,
    ⟨0x200, 4, 32, 31, 0, .ro, 0, 0, 4294967295⟩,
    ⟨0x800, 0, 1, 1, 0, .rwl, 2, 0, 2⟩,
    ⟨0x804, 0, 1, 31, 24, .rws, 100, 30, 255⟩,
    ⟨0x804, 0, 1, 23, 20, .rws, 3, 0, 15⟩,
    ⟨0x804, 0, 1, 6, 6, .rws, 1, 0, 1⟩,
    ⟨0x804, 0, 1, 5, 5, .rws, 1, 0, 1⟩,
    ⟨0x804, 0, 1, 4, 4, .rws, 1, 0, 1⟩,
    ⟨0x808, 0, 1, 31, 31, .rws, 0, 0, 1⟩,
    ⟨0x808, 0, 1, 9, 0, .rws, 0, 0, 1023⟩,
    ⟨0x80C, 0, 1, 15, 0, .rws, 65535, 0, 65535⟩ ]
def regMapJXR : List RegSpec := regMapJXR0

def regMapNMG0 : List RegSpec :=
  [ ⟨0x100, 0, 1, 24, 16, .ro, 0, 0, 511⟩,
    ⟨0x100, 0, 1, 15, 8, .ro, 0, 0, 255⟩,
    ⟨0x100, 0, 1, 5, 5, .ro, 0, 0, 1⟩,
    ⟨0x100, 0, 1, 4, 4, .ro, 0, 0, 1⟩,
    ⟨0x100, 0, 1, 3, 0, .ro, 0, 0, 15⟩,
    ⟨0x104, 0, 1, 0, 0, .rw, 0, 0, 1⟩,
    ⟨0x108, 0, 1, 31, 0, .rw, 0, 0, 4294967295⟩,
    ⟨0x10C, 0, 1, 7, 0, .rw, 0, 0, 255⟩,
    ⟨0x110, 0, 1, 31, 16, .ro, 0, 0, 65535⟩,
    ⟨0x110, 0, 1, 15, 0, .ro, 0, 0, 65535⟩,
    ⟨0x114, 0, 1, 15, 0, .ro, 0, 0, 65535⟩,
    ⟨0x120, 4, 8, 31, 0, .ro, 0, 0, 4294967295⟩,
    ⟨0x800, 0, 1, 23, 16, .rws, 0, 0, 255⟩,
    ⟨0x800, 0, 1, 10, 8, .rws, 0, 0, 4⟩,
    ⟨0x804, 0, 1, 10, 0, .rws, 1280, 0, 2047⟩,
    ⟨0x808, 0, 1, 23, 16, .rws, 100, 0, 255⟩,
    ⟨0x808, 0, 1, 15, 8, .rws, 250, 0, 255⟩,
    ⟨0x808, 0, 1, 7, 0, .rws, 100, 0, 255⟩,
    ⟨0x80C, 0, 1, 15, 0, .rws, 150, 0, 65535⟩ ]
def regMapNMG : List RegSpec := regMapNMG0

def regMapTBS0 : List RegSpec :=
  [ ⟨0x100, 0, 1, 1, 1, .ro, 0, 0, 1⟩,
    ⟨0x100, 0, 1, 0, 0, .w1s, 0, 0, 1⟩,
    ⟨0x104, 0, 1, 31, 0, .ro, 0, 0, 4294967295⟩,
    ⟨0x108, 0, 1, 31, 0, .ro, 0, 0, 4294967295⟩,
    ⟨0x10C, 0, 1, 3, 3, .w1c, 0, 0, 1⟩,
    ⟨0x10C, 0, 1, 2, 2, .w1c, 0, 0, 1⟩,
    ⟨0x10C, 0, 1, 1, 1, .ro, 0, 0, 1⟩,
    ⟨0x10C, 0, 1, 0, 0, .ro, 0, 0, 1⟩,
    ⟨0x110, 0, 1, 31, 0, .ro, 0, 0, 4294967295⟩,
    ⟨0x114, 0, 1, 15, 0, .ro, 0, 0, 65535⟩,
    ⟨0x118, 0, 1, 31, 0, .ro, 0, 0, 4294967295⟩,
    ⟨0x11C, 0, 1, 31, 0, .ro, 0, 0, 4294967295⟩,
    ⟨0x120, 4, 4, 31, 0, .rw, 0, 0, 4294967295⟩,
    ⟨0x800, 0, 1, 8, 8, .rws, 1, 0, 1⟩,
    ⟨0x800, 0, 1, 6, 0, .rws, 64, 0, 64⟩,
    ⟨0x810, 4, 4, 31, 0, .rws, 0, 0, 4294967295⟩ ]
def regMapTBS : List RegSpec := regMapTBS0

def regMapEVF0 : List RegSpec :=
  [ ⟨0x100, 0, 1, 31, 16, .w1s, 0, 0, 65535⟩,
    ⟨0x100, 0, 1, 15, 0, .w1s, 0, 0, 65535⟩,
    ⟨0x108, 4, 2, 31, 0, .rc, 0, 0, 4294967295⟩,
    ⟨0x110, 0, 1, 0, 0, .w1c, 0, 0, 1⟩ ]
def regMapEVF : List RegSpec := regMapEVF0

def regMapDMA0 : List RegSpec :=
  [ ⟨0x100, 16, 16, 1, 1, .w1s, 0, 0, 1⟩,
    ⟨0x100, 16, 16, 0, 0, .w1s, 0, 0, 1⟩,
    ⟨0x104, 16, 16, 31, 16, .ro, 0, 0, 65535⟩,
    ⟨0x104, 16, 16, 4, 4, .w1c, 0, 0, 1⟩,
    ⟨0x104, 16, 16, 3, 3, .w1c, 0, 0, 1⟩,
    ⟨0x104, 16, 16, 2, 2, .w1c, 0, 0, 1⟩,
    ⟨0x104, 16, 16, 1, 1, .ro, 0, 0, 1⟩,
    ⟨0x104, 16, 16, 0, 0, .ro, 0, 0, 1⟩,
    ⟨0x108, 16, 16, 31, 0, .ro, 0, 0, 4294967295⟩,
    ⟨0x800, 16, 16, 31, 0, .rws, 0, 0, 4294967295⟩,
    ⟨0x804, 16, 16, 31, 0, .rws, 0, 0, 4294967295⟩,
    ⟨0x808, 16, 16, 31, 16, .rws, 1, 1, 65535⟩,
    ⟨0x808, 16, 16, 15, 0, .rws, 1, 1, 4096⟩,
    ⟨0x80C, 16, 16, 31, 31, .rws, 0, 0, 1⟩,
    ⟨0x80C, 16, 16, 30, 30, .rws, 1, 0, 1⟩,
    ⟨0x80C, 16, 16, 29, 29, .rws, 1, 0, 1⟩,
    ⟨0x80C, 16, 16, 28, 28, .rws, 0, 0, 1⟩,
    ⟨0x80C, 16, 16, 14, 8, .rws, 64, 0, 64⟩ ]
def regMapDMA : List RegSpec := regMapDMA0

def regMapCAN0 : List RegSpec :=
  [ ⟨0x100, 0, 1, 8, 8, .w1c, 0, 0, 1⟩,
    ⟨0x100, 0, 1, 2, 0, .ro, 0, 0, 7⟩,
    ⟨0x104, 0, 1, 15, 8, .ro, 0, 0, 255⟩,
    ⟨0x104, 0, 1, 7, 0, .ro, 0, 0, 255⟩,
    ⟨0x108, 0, 1, 2, 0, .rc, 0, 0, 7⟩,
    ⟨0x10C, 0, 1, 7, 0, .ro, 0, 0, 255⟩,
    ⟨0x110, 0, 1, 7, 0, .rw, 0, 0, 255⟩,
    ⟨0x114, 0, 1, 31, 0, .w1s, 0, 0, 4294967295⟩,
    ⟨0x118, 0, 1, 31, 0, .w1s, 0, 0, 4294967295⟩,
    ⟨0x11C, 0, 1, 31, 0, .w1c, 0, 0, 4294967295⟩,
    ⟨0x120, 0, 1, 31, 0, .w1c, 0, 0, 4294967295⟩,
    ⟨0x124, 0, 1, 1, 1, .w1c, 0, 0, 1⟩,
    ⟨0x124, 0, 1, 0, 0, .w1c, 0, 0, 1⟩,
    ⟨0x128, 0, 1, 0, 0, .w1s, 0, 0, 1⟩,
    ⟨0x800, 0, 1, 5, 5, .rwl, 1, 0, 1⟩,
    ⟨0x800, 0, 1, 4, 4, .rwl, 0, 0, 1⟩,
    ⟨0x800, 0, 1, 3, 3, .rwl, 0, 0, 1⟩,
    ⟨0x800, 0, 1, 2, 0, .rwl, 0, 0, 2⟩,
    ⟨0x804, 0, 1, 31, 27, .rws, 1, 0, 31⟩,
    ⟨0x804, 0, 1, 26, 18, .rws, 63, 1, 255⟩,
    ⟨0x804, 0, 1, 17, 11, .rws, 16, 1, 127⟩,
    ⟨0x804, 0, 1, 10, 4, .rws, 16, 1, 127⟩,
    ⟨0x808, 0, 1, 31, 27, .rws, 0, 0, 31⟩,
    ⟨0x808, 0, 1, 26, 22, .rws, 29, 1, 31⟩,
    ⟨0x808, 0, 1, 21, 18, .rws, 10, 1, 15⟩,
    ⟨0x808, 0, 1, 17, 14, .rws, 10, 1, 15⟩,
    ⟨0x80C, 0, 1, 31, 31, .rws, 0, 0, 1⟩,
    ⟨0x80C, 0, 1, 23, 16, .rws, 0, 0, 255⟩,
    ⟨0x810, 0, 1, 31, 31, .rws, 1, 0, 1⟩,
    ⟨0x810, 0, 1, 30, 30, .rws, 0, 0, 1⟩,
    ⟨0x810, 0, 1, 29, 29, .rws, 0, 0, 1⟩,
    ⟨0x814, 0, 1, 31, 0, .rws, 0, 0, 4294967295⟩,
    ⟨0x818, 0, 1, 31, 0, .rws, 0, 0, 4294967295⟩,
    ⟨0x81C, 0, 1, 31, 0, .rws, 0, 0, 4294967295⟩,
    ⟨0x900, 8, 64, 31, 31, .rws, 0, 0, 1⟩,
    ⟨0x900, 8, 64, 30, 29, .rws, 1, 0, 2⟩,
    ⟨0x900, 8, 64, 28, 0, .rws, 0, 0, 536870911⟩,
    ⟨0x904, 8, 64, 31, 31, .rws, 1, 0, 1⟩,
    ⟨0x904, 8, 64, 30, 30, .rws, 0, 0, 1⟩,
    ⟨0x904, 8, 64, 28, 0, .rws, 0, 0, 536870911⟩ ]
def regMapCAN1 : List RegSpec :=
  [ ⟨0xB00, 16, 4, 31, 31, .rws, 0, 0, 1⟩,
    ⟨0xB00, 16, 4, 30, 30, .rws, 0, 0, 1⟩,
    ⟨0xB00, 16, 4, 28, 0, .rws, 0, 0, 536870911⟩,
    ⟨0xB04, 16, 4, 28, 0, .rws, 0, 0, 536870911⟩,
    ⟨0xB08, 16, 4, 31, 0, .rws, 0, 0, 4294967295⟩,
    ⟨0xB0C, 16, 4, 31, 0, .rws, 0, 0, 4294967295⟩ ]
def regMapCAN : List RegSpec := regMapCAN0 ++ regMapCAN1

def regMapLIN0 : List RegSpec :=
  [ ⟨0x100, 0, 1, 13, 8, .ro, 0, 0, 63⟩,
    ⟨0x100, 0, 1, 5, 5, .w1c, 0, 0, 1⟩,
    ⟨0x100, 0, 1, 4, 4, .w1c, 0, 0, 1⟩,
    ⟨0x100, 0, 1, 3, 0, .ro, 0, 0, 15⟩,
    ⟨0x104, 0, 1, 13, 8, .ro, 0, 0, 63⟩,
    ⟨0x104, 0, 1, 3, 0, .ro, 0, 0, 15⟩,
    ⟨0x108, 0, 1, 13, 8, .rc, 0, 0, 63⟩,
    ⟨0x108, 0, 1, 3, 0, .rc, 0, 0, 15⟩,
    ⟨0x10C, 0, 1, 3, 0, .w1s, 0, 0, 15⟩,
    ⟨0x110, 4, 2, 31, 0, .w1c, 0, 0, 4294967295⟩,
    ⟨0x400, 8, 64, 31, 0, .rw, 0, 0, 4294967295⟩,
    ⟨0x800, 0, 1, 0, 0, .rwl, 0, 0, 1⟩,
    ⟨0x804, 0, 1, 8, 8, .rws, 0, 0, 1⟩,
    ⟨0x804, 0, 1, 2, 0, .rws, 3, 0, 4⟩,
    ⟨0x808, 4, 2, 31, 0, .rws, 0, 0, 4294967295⟩,
    ⟨0x900, 4, 64, 7, 4, .rws, 8, 1, 8⟩,
    ⟨0x900, 4, 64, 2, 2, .rws, 1, 0, 1⟩,
    ⟨0x900, 4, 64, 1, 0, .rws, 0, 0, 2⟩,
    ⟨0xA00, 4, 64, 31, 31, .rws, 0, 0, 1⟩,
    ⟨0xA00, 4, 64, 13, 8, .rws, 0, 0, 63⟩,
    ⟨0xA00, 4, 64, 7, 0, .rws, 0, 0, 255⟩,
    ⟨0x404, 8, 64, 31, 0, .rw, 0, 0, 4294967295⟩ ]
def regMapLIN : List RegSpec := regMapLIN0

def regMapIMM0 : List RegSpec :=
  [ ⟨0x100, 0, 1, 1, 1, .w1s, 0, 0, 1⟩,
    ⟨0x100, 0, 1, 0, 0, .w1s, 0, 0, 1⟩,
    ⟨0x104, 0, 1, 31, 24, .ro, 0, 0, 255⟩,
    ⟨0x104, 0, 1, 19, 16, .ro, 0, 0, 15⟩,
    ⟨0x104, 0, 1, 14, 12, .ro, 0, 0, 7⟩,
    ⟨0x104, 0, 1, 3, 3, .ro, 0, 0, 1⟩,
    ⟨0x104, 0, 1, 2, 2, .ro, 0, 0, 1⟩,
    ⟨0x104, 0, 1, 1, 1, .ro, 0, 0, 1⟩,
    ⟨0x104, 0, 1, 0, 0, .ro, 0, 0, 1⟩,
    ⟨0x108, 0, 1, 31, 0, .ro, 0, 0, 4294967295⟩,
    ⟨0x10C, 0, 1, 7, 0, .ro, 0, 0, 255⟩,
    ⟨0x110, 0, 1, 7, 0, .ro, 0, 0, 255⟩,
    ⟨0x114, 0, 1, 31, 16, .ro, 0, 0, 65535⟩,
    ⟨0x114, 0, 1, 15, 0, .ro, 0, 0, 65535⟩,
    ⟨0x118, 0, 1, 31, 16, .ro, 0, 0, 65535⟩,
    ⟨0x118, 0, 1, 15, 0, .ro, 0, 0, 65535⟩,
    ⟨0x11C, 0, 1, 31, 16, .ro, 0, 0, 65535⟩,
    ⟨0x11C, 0, 1, 15, 0, .ro, 0, 0, 65535⟩,
    ⟨0x120, 4, 8, 31, 0, .ro, 0, 0, 4294967295⟩,
    ⟨0x140, 0, 1, 31, 0, .ro, 0, 0, 4294967295⟩,
    ⟨0x144, 0, 1, 31, 0, .ro, 0, 0, 4294967295⟩,
    ⟨0x148, 0, 1, 31, 16, .ro, 0, 0, 65535⟩,
    ⟨0x148, 0, 1, 2, 0, .ro, 0, 0, 7⟩,
    ⟨0x160, 4, 4, 31, 0, .ro, 0, 0, 4294967295⟩,
    ⟨0x800, 0, 1, 23, 16, .rws, 64, 16, 255⟩,
    ⟨0x800, 0, 1, 15, 12, .rws, 8, 0, 15⟩,
    ⟨0x800, 0, 1, 11, 8, .rws, 1, 0, 15⟩,
    ⟨0x800, 0, 1, 7, 0, .rws, 125, 32, 255⟩,
    ⟨0x804, 0, 1, 7, 4, .rws, 3, 1, 15⟩,
    ⟨0x804, 0, 1, 1, 0, .rws, 1, 0, 2⟩,
    ⟨0x808, 0, 1, 31, 31, .rws, 0, 0, 1⟩,
    ⟨0x808, 0, 1, 30, 29, .rws, 0, 0, 3⟩,
    ⟨0x808, 0, 1, 27, 16, .rws, 100, 0, 4095⟩,
    ⟨0x808, 0, 1, 10, 0, .rws, 0, 0, 2047⟩,
    ⟨0x80C, 0, 1, 7, 0, .rws, 255, 0, 255⟩,
    ⟨0x810, 0, 1, 10, 8, .rws, 0, 0, 4⟩,
    ⟨0x810, 0, 1, 7, 0, .rws, 0, 0, 255⟩,
    ⟨0x814, 0, 1, 31, 31, .rws, 0, 0, 1⟩,
    ⟨0x814, 0, 1, 3, 0, .rws, 1, 0, 15⟩,
    ⟨0x840, 4, 8, 31, 16, .rws, 0, 0, 65535⟩ ]
def regMapIMM1 : List RegSpec :=
  [ ⟨0x840, 4, 8, 15, 0, .rws, 0, 0, 65535⟩ ]
def regMapIMM : List RegSpec := regMapIMM0 ++ regMapIMM1

def regMapLFA0 : List RegSpec :=
  [ ⟨0x100, 0, 1, 11, 8, .w1c, 0, 0, 15⟩,
    ⟨0x100, 0, 1, 7, 4, .w1c, 0, 0, 15⟩,
    ⟨0x100, 0, 1, 3, 3, .ro, 0, 0, 1⟩,
    ⟨0x100, 0, 1, 2, 0, .ro, 0, 0, 7⟩,
    ⟨0x104, 0, 1, 15, 0, .ro, 0, 0, 65535⟩,
    ⟨0x108, 4, 4, 11, 0, .ro, 0, 0, 4095⟩,
    ⟨0x800, 4, 4, 31, 31, .rws, 0, 0, 1⟩,
    ⟨0x800, 4, 4, 9, 0, .rws, 500, 100, 1000⟩ ]
def regMapLFA : List RegSpec := regMapLFA0

def regMapSWI0 : List RegSpec :=
  [ ⟨0x100, 4, 2, 31, 0, .ro, 0, 0, 4294967295⟩,
    ⟨0x108, 4, 2, 31, 0, .ro, 0, 0, 4294967295⟩,
    ⟨0x110, 4, 2, 31, 0, .w1c, 0, 0, 4294967295⟩,
    ⟨0x118, 0, 1, 15, 0, .ro, 0, 0, 65535⟩,
    ⟨0x140, 4, 16, 15, 15, .ro, 0, 0, 1⟩,
    ⟨0x140, 4, 16, 11, 0, .ro, 0, 0, 4095⟩,
    ⟨0x800, 4, 64, 15, 14, .rws, 2, 0, 2⟩,
    ⟨0x800, 4, 64, 13, 12, .rws, 0, 0, 3⟩,
    ⟨0x800, 4, 64, 11, 9, .rws, 0, 0, 7⟩,
    ⟨0x800, 4, 64, 8, 7, .rws, 0, 0, 3⟩,
    ⟨0x800, 4, 64, 6, 6, .rws, 0, 0, 1⟩,
    ⟨0x800, 4, 64, 5, 5, .rws, 0, 0, 1⟩,
    ⟨0x900, 0, 1, 8, 8, .rws, 0, 0, 1⟩,
    ⟨0x900, 0, 1, 7, 0, .rws, 20, 1, 100⟩,
    ⟨0x940, 4, 16, 27, 16, .rws, 4095, 0, 4095⟩,
    ⟨0x940, 4, 16, 11, 0, .rws, 0, 0, 4095⟩ ]
def regMapSWI : List RegSpec := regMapSWI0

def regMapRFX0 : List RegSpec :=
  [ ⟨0x100, 4, 4, 31, 0, .ro, 0, 0, 4294967295⟩,
    ⟨0x110, 4, 4, 31, 0, .w1c, 0, 0, 4294967295⟩,
    ⟨0x120, 4, 4, 31, 0, .rw, 0, 0, 4294967295⟩,
    ⟨0x130, 4, 4, 31, 0, .ro, 0, 0, 4294967295⟩,
    ⟨0x140, 4, 4, 31, 0, .ro, 0, 0, 4294967295⟩,
    ⟨0x150, 0, 1, 16, 16, .ro, 0, 0, 1⟩,
    ⟨0x150, 0, 1, 15, 0, .ro, 0, 0, 65535⟩,
    ⟨0x800, 4, 3, 31, 0, .rws, 0, 0, 4294967295⟩,
    ⟨0x80C, 0, 1, 7, 0, .rws, 0, 0, 255⟩,
    ⟨0x810, 4, 3, 31, 0, .rws, 0, 0, 4294967295⟩,
    ⟨0x81C, 0, 1, 7, 0, .rws, 0, 0, 255⟩,
    ⟨0x820, 4, 3, 31, 0, .rws, 0, 0, 4294967295⟩,
    ⟨0x82C, 0, 1, 7, 0, .rws, 0, 0, 255⟩,
    ⟨0x830, 4, 3, 31, 0, .rws, 0, 0, 4294967295⟩,
    ⟨0x83C, 0, 1, 7, 0, .rws, 0, 0, 255⟩,
    ⟨0x840, 4, 3, 31, 0, .rws, 0, 0, 4294967295⟩,
    ⟨0x84C, 0, 1, 7, 0, .rws, 0, 0, 255⟩,
    ⟨0x850, 4, 3, 31, 0, .rws, 0, 0, 4294967295⟩,
    ⟨0x85C, 0, 1, 7, 0, .rws, 0, 0, 255⟩,
    ⟨0x860, 4, 3, 31, 0, .rws, 0, 0, 4294967295⟩,
    ⟨0x86C, 0, 1, 7, 0, .rws, 0, 0, 255⟩,
    ⟨0x870, 4, 3, 31, 0, .rws, 0, 0, 4294967295⟩,
    ⟨0x87C, 0, 1, 7, 0, .rws, 0, 0, 255⟩,
    ⟨0x880, 4, 3, 31, 0, .rws, 0, 0, 4294967295⟩,
    ⟨0x88C, 0, 1, 7, 0, .rws, 0, 0, 255⟩,
    ⟨0x890, 4, 3, 31, 0, .rws, 0, 0, 4294967295⟩,
    ⟨0x89C, 0, 1, 7, 0, .rws, 0, 0, 255⟩,
    ⟨0x8A0, 4, 3, 31, 0, .rws, 0, 0, 4294967295⟩,
    ⟨0x8AC, 0, 1, 7, 0, .rws, 0, 0, 255⟩,
    ⟨0x8B0, 4, 3, 31, 0, .rws, 0, 0, 4294967295⟩,
    ⟨0x8BC, 0, 1, 7, 0, .rws, 0, 0, 255⟩,
    ⟨0x8C0, 4, 3, 31, 0, .rws, 0, 0, 4294967295⟩,
    ⟨0x8CC, 0, 1, 7, 0, .rws, 0, 0, 255⟩,
    ⟨0x8D0, 4, 3, 31, 0, .rws, 0, 0, 4294967295⟩,
    ⟨0x8DC, 0, 1, 7, 0, .rws, 0, 0, 255⟩,
    ⟨0x8E0, 4, 3, 31, 0, .rws, 0, 0, 4294967295⟩,
    ⟨0x8EC, 0, 1, 7, 0, .rws, 0, 0, 255⟩,
    ⟨0x8F0, 4, 3, 31, 0, .rws, 0, 0, 4294967295⟩,
    ⟨0x8FC, 0, 1, 7, 0, .rws, 0, 0, 255⟩,
    ⟨0x900, 4, 3, 31, 0, .rws, 0, 0, 4294967295⟩,
    ⟨0x90C, 0, 1, 7, 0, .rws, 0, 0, 255⟩,
    ⟨0x910, 4, 3, 31, 0, .rws, 0, 0, 4294967295⟩,
    ⟨0x91C, 0, 1, 7, 0, .rws, 0, 0, 255⟩,
    ⟨0x920, 4, 3, 31, 0, .rws, 0, 0, 4294967295⟩,
    ⟨0x92C, 0, 1, 7, 0, .rws, 0, 0, 255⟩,
    ⟨0x930, 4, 3, 31, 0, .rws, 0, 0, 4294967295⟩,
    ⟨0x93C, 0, 1, 7, 0, .rws, 0, 0, 255⟩,
    ⟨0x940, 4, 3, 31, 0, .rws, 0, 0, 4294967295⟩,
    ⟨0x94C, 0, 1, 7, 0, .rws, 0, 0, 255⟩,
    ⟨0x950, 4, 3, 31, 0, .rws, 0, 0, 4294967295⟩,
    ⟨0x95C, 0, 1, 7, 0, .rws, 0, 0, 255⟩,
    ⟨0x960, 4, 3, 31, 0, .rws, 0, 0, 4294967295⟩,
    ⟨0x96C, 0, 1, 7, 0, .rws, 0, 0, 255⟩,
    ⟨0x970, 4, 3, 31, 0, .rws, 0, 0, 4294967295⟩,
    ⟨0x97C, 0, 1, 7, 0, .rws, 0, 0, 255⟩,
    ⟨0x980, 4, 3, 31, 0, .rws, 0, 0, 4294967295⟩,
    ⟨0x98C, 0, 1, 7, 0, .rws, 0, 0, 255⟩,
    ⟨0x990, 4, 3, 31, 0, .rws, 0, 0, 4294967295⟩,
    ⟨0x99C, 0, 1, 7, 0, .rws, 0, 0, 255⟩,
    ⟨0x9A0, 4, 3, 31, 0, .rws, 0, 0, 4294967295⟩,
    ⟨0x9AC, 0, 1, 7, 0, .rws, 0, 0, 255⟩,
    ⟨0x9B0, 4, 3, 31, 0, .rws, 0, 0, 4294967295⟩,
    ⟨0x9BC, 0, 1, 7, 0, .rws, 0, 0, 255⟩,
    ⟨0x9C0, 4, 3, 31, 0, .rws, 0, 0, 4294967295⟩,
    ⟨0x9CC, 0, 1, 7, 0, .rws, 0, 0, 255⟩,
    ⟨0x9D0, 4, 3, 31, 0, .rws, 0, 0, 4294967295⟩,
    ⟨0x9DC, 0, 1, 7, 0, .rws, 0, 0, 255⟩,
    ⟨0x9E0, 4, 3, 31, 0, .rws, 0, 0, 4294967295⟩,
    ⟨0x9EC, 0, 1, 7, 0, .rws, 0, 0, 255⟩,
    ⟨0x9F0, 4, 3, 31, 0, .rws, 0, 0, 4294967295⟩,
    ⟨0x9FC, 0, 1, 7, 0, .rws, 0, 0, 255⟩,
    ⟨0xA00, 8, 128, 31, 31, .rws, 0, 0, 1⟩ ]
def regMapRFX1 : List RegSpec :=
  [ ⟨0xA00, 8, 128, 30, 30, .rws, 0, 0, 1⟩,
    ⟨0xA00, 8, 128, 29, 29, .rws, 0, 0, 1⟩,
    ⟨0xA00, 8, 128, 28, 28, .rws, 0, 0, 1⟩,
    ⟨0xA00, 8, 128, 27, 26, .rws, 0, 0, 3⟩,
    ⟨0xA00, 8, 128, 25, 21, .rws, 0, 0, 31⟩,
    ⟨0xA00, 8, 128, 19, 10, .rws, 0, 0, 1023⟩,
    ⟨0xA00, 8, 128, 9, 0, .rws, 0, 0, 1023⟩,
    ⟨0xA04, 8, 128, 31, 28, .rws, 0, 0, 15⟩,
    ⟨0xA04, 8, 128, 19, 10, .rws, 0, 0, 1023⟩,
    ⟨0xA04, 8, 128, 9, 0, .rws, 0, 0, 1023⟩ ]
def regMapRFX : List RegSpec := regMapRFX0 ++ regMapRFX1

def regMapMSQ0 : List RegSpec :=
  [ ⟨0x100, 0, 1, 11, 8, .ro, 15, 0, 15⟩,
    ⟨0x100, 0, 1, 7, 4, .ro, 0, 0, 15⟩,
    ⟨0x100, 0, 1, 0, 0, .w1c, 0, 0, 1⟩,
    ⟨0x104, 0, 1, 15, 15, .ro, 0, 0, 1⟩,
    ⟨0x104, 0, 1, 11, 0, .ro, 0, 0, 4095⟩,
    ⟨0x108, 0, 1, 11, 0, .ro, 0, 0, 4095⟩,
    ⟨0x110, 4, 4, 11, 0, .ro, 0, 0, 4095⟩,
    ⟨0x120, 4, 4, 11, 0, .ro, 0, 0, 4095⟩,
    ⟨0x130, 0, 1, 2, 0, .ro, 0, 0, 7⟩,
    ⟨0x134, 0, 1, 6, 0, .rw, 0, 0, 127⟩,
    ⟨0x138, 0, 1, 31, 16, .ro, 0, 0, 65535⟩,
    ⟨0x138, 0, 1, 0, 0, .ro, 0, 0, 1⟩,
    ⟨0x140, 4, 9, 11, 0, .ro, 0, 0, 4095⟩,
    ⟨0x170, 4, 4, 15, 0, .ro, 0, 0, 65535⟩,
    ⟨0x180, 4, 4, 15, 0, .rw, 0, 0, 65535⟩,
    ⟨0x800, 0, 1, 15, 12, .rws, 8, 1, 15⟩,
    ⟨0x800, 0, 1, 9, 8, .rws, 1, 0, 3⟩,
    ⟨0x804, 0, 1, 27, 16, .rws, 1024, 0, 4095⟩,
    ⟨0x804, 0, 1, 11, 0, .rws, 1536, 0, 4095⟩,
    ⟨0x810, 4, 4, 31, 31, .rws, 0, 0, 1⟩,
    ⟨0x810, 4, 4, 26, 24, .rws, 0, 0, 5⟩,
    ⟨0x810, 4, 4, 3, 0, .rws, 0, 0, 8⟩,
    ⟨0x820, 4, 4, 31, 0, .rws, 0, 0, 4294967295⟩,
    ⟨0x900, 4, 72, 11, 0, .rws, 0, 0, 4095⟩ ]
def regMapMSQ : List RegSpec := regMapMSQ0

def regMapGOV0 : List RegSpec :=
  [ ⟨0x100, 0, 1, 4, 4, .ro, 0, 0, 1⟩,
    ⟨0x100, 0, 1, 3, 0, .ro, 0, 0, 15⟩,
    ⟨0x104, 4, 4, 11, 0, .ro, 0, 0, 4095⟩,
    ⟨0x114, 0, 1, 11, 0, .ro, 0, 0, 4095⟩,
    ⟨0x118, 4, 4, 12, 0, .ro, 4096, 0, 8191⟩,
    ⟨0x130, 4, 4, 31, 0, .ro, 0, 0, 4294967295⟩,
    ⟨0x140, 0, 1, 31, 28, .ro, 0, 0, 15⟩,
    ⟨0x140, 0, 1, 27, 26, .ro, 0, 0, 3⟩,
    ⟨0x140, 0, 1, 23, 16, .ro, 0, 0, 255⟩,
    ⟨0x140, 0, 1, 11, 0, .ro, 0, 0, 4095⟩,
    ⟨0x144, 0, 1, 31, 0, .rc, 0, 0, 4294967295⟩,
    ⟨0x148, 0, 1, 6, 0, .ro, 0, 0, 127⟩,
    ⟨0x800, 0, 1, 27, 16, .rws, 1024, 0, 4095⟩,
    ⟨0x800, 0, 1, 15, 8, .rws, 128, 1, 255⟩,
    ⟨0x800, 0, 1, 7, 4, .rws, 5, 0, 15⟩,
    ⟨0x800, 0, 1, 3, 0, .rws, 4, 1, 15⟩,
    ⟨0x804, 0, 1, 27, 16, .rws, 700, 0, 700⟩,
    ⟨0x804, 0, 1, 11, 0, .rws, 800, 0, 800⟩,
    ⟨0x808, 0, 1, 27, 16, .rws, 800, 0, 800⟩,
    ⟨0x808, 0, 1, 11, 0, .rws, 500, 0, 500⟩,
    ⟨0x80C, 0, 1, 11, 0, .rws, 2400, 0, 2400⟩,
    ⟨0x810, 4, 4, 11, 0, .rws, 3768, 2048, 4095⟩ ]
def regMapGOV : List RegSpec := regMapGOV0

def regMapHSC0 : List RegSpec :=
  [ ⟨0x100, 0, 1, 1, 1, .rw, 0, 0, 1⟩,
    ⟨0x100, 0, 1, 0, 0, .rw, 0, 0, 1⟩,
    ⟨0x104, 0, 1, 1, 0, .w1s, 0, 0, 3⟩,
    ⟨0x108, 0, 1, 1, 0, .w1c, 0, 0, 3⟩,
    ⟨0x10C, 0, 1, 11, 0, .rw, 0, 0, 4095⟩,
    ⟨0x110, 0, 1, 31, 20, .ro, 0, 0, 4095⟩,
    ⟨0x110, 0, 1, 19, 19, .ro, 0, 0, 1⟩,
    ⟨0x110, 0, 1, 18, 18, .ro, 0, 0, 1⟩,
    ⟨0x110, 0, 1, 17, 17, .ro, 0, 0, 1⟩,
    ⟨0x110, 0, 1, 16, 16, .ro, 0, 0, 1⟩,
    ⟨0x110, 0, 1, 15, 12, .ro, 0, 0, 15⟩,
    ⟨0x110, 0, 1, 3, 0, .ro, 0, 0, 15⟩,
    ⟨0x114, 0, 1, 15, 15, .ro, 0, 0, 1⟩,
    ⟨0x114, 0, 1, 14, 14, .ro, 0, 0, 1⟩,
    ⟨0x114, 0, 1, 11, 0, .ro, 0, 0, 4095⟩,
    ⟨0x118, 0, 1, 15, 15, .ro, 0, 0, 1⟩,
    ⟨0x118, 0, 1, 11, 0, .ro, 0, 0, 4095⟩,
    ⟨0x11C, 0, 1, 11, 0, .ro, 0, 0, 4095⟩,
    ⟨0x120, 0, 1, 24, 16, .ro, 0, 0, 511⟩,
    ⟨0x120, 0, 1, 8, 0, .ro, 0, 0, 511⟩,
    ⟨0x124, 0, 1, 7, 4, .ro, 0, 0, 15⟩,
    ⟨0x124, 0, 1, 3, 0, .ro, 0, 0, 15⟩,
    ⟨0x800, 0, 1, 2, 0, .rwl, 0, 0, 4⟩,
    ⟨0x804, 0, 1, 27, 16, .rws, 0, 0, 4095⟩,
    ⟨0x804, 0, 1, 14, 12, .rws, 3, 0, 7⟩,
    ⟨0x804, 0, 1, 11, 10, .rws, 3, 0, 3⟩,
    ⟨0x804, 0, 1, 9, 8, .rws, 1, 0, 3⟩,
    ⟨0x804, 0, 1, 5, 4, .rws, 1, 0, 3⟩,
    ⟨0x808, 0, 1, 27, 16, .rws, 0, 0, 4095⟩,
    ⟨0x808, 0, 1, 11, 0, .rws, 0, 0, 4095⟩,
    ⟨0x80C, 0, 1, 27, 16, .rws, 0, 0, 4095⟩,
    ⟨0x80C, 0, 1, 11, 0, .rws, 0, 0, 4095⟩,
    ⟨0x810, 0, 1, 23, 20, .rws, 0, 0, 15⟩,
    ⟨0x810, 0, 1, 19, 16, .rws, 0, 0, 9⟩,
    ⟨0x810, 0, 1, 10, 8, .rws, 0, 0, 7⟩,
    ⟨0x810, 0, 1, 5, 4, .rws, 0, 0, 3⟩,
    ⟨0x810, 0, 1, 3, 3, .rws, 0, 0, 1⟩,
    ⟨0x810, 0, 1, 2, 0, .rws, 0, 0, 7⟩,
    ⟨0x814, 0, 1, 24, 24, .rws, 0, 0, 1⟩,
    ⟨0x814, 0, 1, 23, 16, .rws, 0, 0, 255⟩ ]
def regMapHSC1 : List RegSpec :=
  [ ⟨0x814, 0, 1, 15, 8, .rws, 0, 0, 255⟩,
    ⟨0x814, 0, 1, 5, 4, .rws, 0, 0, 3⟩,
    ⟨0x814, 0, 1, 1, 0, .rws, 0, 0, 2⟩,
    ⟨0x818, 0, 1, 27, 16, .rws, 0, 0, 4095⟩,
    ⟨0x818, 0, 1, 2, 0, .rws, 0, 0, 4⟩,
    ⟨0x81C, 0, 1, 11, 0, .rws, 4095, 0, 4095⟩ ]
def regMapHSC : List RegSpec := regMapHSC0 ++ regMapHSC1

def regMapHB0 : List RegSpec :=
  [ ⟨0x100, 0, 1, 4, 4, .rw, 0, 0, 1⟩,
    ⟨0x100, 0, 1, 3, 0, .rw, 0, 0, 15⟩,
    ⟨0x104, 0, 1, 11, 0, .rw, 0, 0, 4095⟩,
    ⟨0x108, 0, 1, 31, 20, .ro, 0, 0, 4095⟩,
    ⟨0x108, 0, 1, 19, 19, .ro, 0, 0, 1⟩,
    ⟨0x108, 0, 1, 18, 18, .ro, 0, 0, 1⟩,
    ⟨0x108, 0, 1, 17, 17, .ro, 0, 0, 1⟩,
    ⟨0x108, 0, 1, 16, 16, .ro, 0, 0, 1⟩,
    ⟨0x108, 0, 1, 15, 15, .ro, 0, 0, 1⟩,
    ⟨0x108, 0, 1, 14, 11, .ro, 0, 0, 15⟩,
    ⟨0x108, 0, 1, 10, 10, .ro, 1, 0, 1⟩,
    ⟨0x108, 0, 1, 9, 9, .ro, 0, 0, 1⟩,
    ⟨0x108, 0, 1, 3, 0, .ro, 0, 0, 15⟩,
    ⟨0x10C, 0, 1, 15, 15, .ro, 0, 0, 1⟩,
    ⟨0x10C, 0, 1, 14, 14, .ro, 0, 0, 1⟩,
    ⟨0x10C, 0, 1, 11, 0, .ro, 0, 0, 4095⟩,
    ⟨0x118, 0, 1, 31, 0, .rw, 0, 0, 4294967295⟩,
    ⟨0x11C, 0, 1, 31, 24, .ro, 0, 0, 255⟩,
    ⟨0x11C, 0, 1, 15, 0, .ro, 0, 0, 65535⟩,
    ⟨0x120, 0, 1, 12, 0, .ro, 0, 0, 8191⟩,
    ⟨0x124, 0, 1, 1, 1, .w1c, 0, 0, 1⟩,
    ⟨0x124, 0, 1, 0, 0, .w1c, 0, 0, 1⟩,
    ⟨0x800, 0, 1, 1, 0, .rwl, 0, 0, 2⟩,
    ⟨0x804, 0, 1, 27, 16, .rws, 0, 0, 4095⟩,
    ⟨0x804, 0, 1, 14, 12, .rws, 6, 0, 7⟩,
    ⟨0x804, 0, 1, 11, 10, .rws, 3, 0, 3⟩,
    ⟨0x804, 0, 1, 9, 8, .rws, 1, 0, 3⟩,
    ⟨0x804, 0, 1, 7, 4, .rws, 2, 0, 15⟩,
    ⟨0x804, 0, 1, 3, 3, .rws, 0, 0, 1⟩,
    ⟨0x804, 0, 1, 2, 2, .rws, 0, 0, 1⟩,
    ⟨0x808, 0, 1, 11, 0, .rws, 0, 0, 4095⟩,
    ⟨0x80C, 0, 1, 27, 16, .rws, 0, 0, 4095⟩,
    ⟨0x80C, 0, 1, 11, 0, .rws, 0, 0, 4095⟩,
    ⟨0x810, 0, 1, 23, 16, .rws, 0, 0, 255⟩,
    ⟨0x810, 0, 1, 15, 8, .rws, 0, 0, 255⟩,
    ⟨0x810, 0, 1, 7, 0, .rws, 10, 0, 255⟩,
    ⟨0x814, 0, 1, 23, 20, .rws, 0, 0, 15⟩,
    ⟨0x814, 0, 1, 19, 16, .rws, 0, 0, 15⟩,
    ⟨0x818, 0, 1, 27, 16, .rws, 0, 0, 4095⟩,
    ⟨0x818, 0, 1, 2, 0, .rws, 0, 0, 4⟩ ]
def regMapHB1 : List RegSpec :=
  [ ⟨0x81C, 0, 1, 15, 12, .rws, 1, 1, 5⟩,
    ⟨0x81C, 0, 1, 11, 0, .rws, 4095, 0, 4095⟩,
    ⟨0x820, 0, 1, 31, 31, .rws, 0, 0, 1⟩,
    ⟨0x820, 0, 1, 27, 16, .rws, 0, 0, 4095⟩,
    ⟨0x820, 0, 1, 15, 0, .rws, 0, 0, 65535⟩,
    ⟨0x824, 0, 1, 31, 16, .rws, 0, 0, 65535⟩,
    ⟨0x824, 0, 1, 15, 0, .rws, 0, 0, 65535⟩,
    ⟨0x828, 0, 1, 31, 31, .rws, 0, 0, 1⟩,
    ⟨0x828, 0, 1, 30, 30, .rws, 0, 0, 1⟩,
    ⟨0x828, 0, 1, 29, 24, .rws, 0, 0, 63⟩,
    ⟨0x828, 0, 1, 23, 16, .rws, 0, 0, 255⟩,
    ⟨0x828, 0, 1, 11, 0, .rws, 0, 0, 4095⟩,
    ⟨0x82C, 0, 1, 7, 0, .rws, 0, 0, 255⟩,
    ⟨0x110, 0, 1, 11, 0, .ro, 0, 0, 4095⟩,
    ⟨0x114, 0, 1, 11, 0, .ro, 0, 0, 4095⟩ ]
def regMapHB : List RegSpec := regMapHB0 ++ regMapHB1

def regMapSOL0 : List RegSpec :=
  [ ⟨0x100, 0, 1, 2, 2, .rw, 0, 0, 1⟩,
    ⟨0x100, 0, 1, 1, 1, .w1s, 0, 0, 1⟩,
    ⟨0x100, 0, 1, 0, 0, .rw, 0, 0, 1⟩,
    ⟨0x104, 0, 1, 17, 16, .ro, 0, 0, 3⟩,
    ⟨0x104, 0, 1, 13, 13, .ro, 0, 0, 1⟩,
    ⟨0x104, 0, 1, 12, 12, .ro, 0, 0, 1⟩,
    ⟨0x104, 0, 1, 11, 11, .ro, 0, 0, 1⟩,
    ⟨0x104, 0, 1, 10, 10, .ro, 0, 0, 1⟩,
    ⟨0x104, 0, 1, 9, 9, .ro, 0, 0, 1⟩,
    ⟨0x104, 0, 1, 8, 8, .ro, 0, 0, 1⟩,
    ⟨0x104, 0, 1, 7, 4, .ro, 0, 0, 15⟩,
    ⟨0x104, 0, 1, 3, 0, .ro, 0, 0, 15⟩,
    ⟨0x108, 0, 1, 15, 15, .ro, 0, 0, 1⟩,
    ⟨0x108, 0, 1, 11, 0, .ro, 0, 0, 4095⟩,
    ⟨0x10C, 0, 1, 15, 15, .ro, 0, 0, 1⟩,
    ⟨0x10C, 0, 1, 11, 0, .ro, 0, 0, 4095⟩,
    ⟨0x110, 0, 1, 11, 0, .ro, 0, 0, 4095⟩,
    ⟨0x114, 0, 1, 15, 15, .ro, 0, 0, 1⟩,
    ⟨0x114, 0, 1, 11, 0, .ro, 0, 0, 4095⟩,
    ⟨0x118, 0, 1, 15, 0, .ro, 0, 0, 65535⟩,
    ⟨0x11C, 0, 1, 31, 16, .ro, 0, 0, 65535⟩,
    ⟨0x11C, 0, 1, 11, 0, .ro, 0, 0, 4095⟩,
    ⟨0x120, 0, 1, 31, 16, .ro, 0, 0, 65535⟩,
    ⟨0x120, 0, 1, 15, 12, .ro, 0, 0, 15⟩,
    ⟨0x120, 0, 1, 7, 0, .ro, 0, 0, 255⟩,
    ⟨0x124, 0, 1, 1, 1, .w1c, 0, 0, 1⟩,
    ⟨0x124, 0, 1, 0, 0, .w1c, 0, 0, 1⟩,
    ⟨0x800, 0, 1, 27, 16, .rws, 0, 0, 4095⟩,
    ⟨0x800, 0, 1, 11, 0, .rws, 0, 0, 4095⟩,
    ⟨0x804, 0, 1, 27, 16, .rws, 0, 0, 4095⟩,
    ⟨0x804, 0, 1, 7, 0, .rws, 0, 0, 255⟩,
    ⟨0x808, 0, 1, 15, 0, .rws, 0, 0, 65535⟩,
    ⟨0x80C, 0, 1, 11, 10, .rws, 3, 0, 3⟩,
    ⟨0x80C, 0, 1, 9, 8, .rws, 1, 0, 3⟩,
    ⟨0x80C, 0, 1, 0, 0, .rws, 0, 0, 1⟩,
    ⟨0x810, 0, 1, 31, 31, .rws, 0, 0, 1⟩,
    ⟨0x810, 0, 1, 27, 24, .rws, 0, 0, 15⟩,
    ⟨0x810, 0, 1, 23, 16, .rws, 0, 0, 255⟩,
    ⟨0x810, 0, 1, 15, 8, .rws, 0, 0, 255⟩,
    ⟨0x810, 0, 1, 7, 0, .rws, 0, 0, 255⟩ ]
def regMapSOL1 : List RegSpec :=
  [ ⟨0x814, 0, 1, 7, 0, .rws, 0, 0, 255⟩,
    ⟨0x818, 0, 1, 31, 31, .rws, 0, 0, 1⟩,
    ⟨0x818, 0, 1, 30, 30, .rws, 0, 0, 1⟩,
    ⟨0x818, 0, 1, 27, 16, .rws, 0, 0, 4095⟩,
    ⟨0x818, 0, 1, 15, 0, .rws, 0, 0, 65535⟩,
    ⟨0x81C, 0, 1, 31, 24, .rws, 0, 0, 255⟩,
    ⟨0x81C, 0, 1, 23, 16, .rws, 0, 0, 255⟩,
    ⟨0x81C, 0, 1, 15, 0, .rws, 0, 0, 65535⟩,
    ⟨0x820, 0, 1, 23, 20, .rws, 0, 0, 15⟩,
    ⟨0x820, 0, 1, 19, 16, .rws, 0, 0, 15⟩,
    ⟨0x824, 0, 1, 2, 0, .rws, 0, 0, 3⟩ ]
def regMapSOL : List RegSpec := regMapSOL0 ++ regMapSOL1

def regMapSBK0 : List RegSpec :=
  [ ⟨0x100, 0, 1, 15, 15, .ro, 0, 0, 1⟩,
    ⟨0x100, 0, 1, 14, 14, .ro, 0, 0, 1⟩,
    ⟨0x100, 0, 1, 13, 13, .ro, 0, 0, 1⟩,
    ⟨0x100, 0, 1, 11, 0, .ro, 0, 0, 4095⟩,
    ⟨0x104, 4, 4, 31, 31, .ro, 0, 0, 1⟩,
    ⟨0x104, 4, 4, 27, 24, .ro, 0, 0, 15⟩,
    ⟨0x104, 4, 4, 23, 20, .ro, 0, 0, 15⟩,
    ⟨0x104, 4, 4, 15, 0, .ro, 0, 0, 65535⟩,
    ⟨0x800, 0, 1, 31, 31, .rws, 0, 0, 1⟩,
    ⟨0x800, 0, 1, 27, 24, .rws, 7, 0, 15⟩,
    ⟨0x800, 0, 1, 11, 0, .rws, 0, 0, 4095⟩,
    ⟨0x804, 0, 1, 11, 0, .rws, 0, 0, 4095⟩,
    ⟨0x808, 0, 1, 1, 0, .rws, 1, 0, 2⟩,
    ⟨0x808, 0, 1, 3, 2, .rws, 1, 0, 2⟩,
    ⟨0x808, 0, 1, 5, 4, .rws, 1, 0, 2⟩,
    ⟨0x808, 0, 1, 7, 6, .rws, 1, 0, 2⟩,
    ⟨0x80C, 0, 1, 7, 7, .rws, 0, 0, 1⟩,
    ⟨0x80C, 0, 1, 15, 15, .rws, 0, 0, 1⟩,
    ⟨0x80C, 0, 1, 23, 23, .rws, 0, 0, 1⟩,
    ⟨0x80C, 0, 1, 31, 31, .rws, 0, 0, 1⟩,
    ⟨0x80C, 0, 1, 6, 4, .rws, 0, 0, 7⟩,
    ⟨0x80C, 0, 1, 14, 12, .rws, 0, 0, 7⟩,
    ⟨0x80C, 0, 1, 22, 20, .rws, 0, 0, 7⟩,
    ⟨0x80C, 0, 1, 30, 28, .rws, 0, 0, 7⟩,
    ⟨0x80C, 0, 1, 3, 0, .rws, 3, 0, 15⟩,
    ⟨0x80C, 0, 1, 11, 8, .rws, 3, 0, 15⟩,
    ⟨0x80C, 0, 1, 19, 16, .rws, 3, 0, 15⟩,
    ⟨0x80C, 0, 1, 27, 24, .rws, 3, 0, 15⟩ ]
def regMapSBK : List RegSpec := regMapSBK0

def regMapLST0 : List RegSpec :=
  [ ⟨0x100, 0, 1, 1, 1, .rw, 0, 0, 1⟩,
    ⟨0x100, 0, 1, 0, 0, .rw, 0, 0, 1⟩,
    ⟨0x104, 0, 1, 31, 20, .ro, 0, 0, 4095⟩,
    ⟨0x104, 0, 1, 19, 19, .ro, 0, 0, 1⟩,
    ⟨0x104, 0, 1, 18, 18, .ro, 0, 0, 1⟩,
    ⟨0x104, 0, 1, 17, 17, .ro, 0, 0, 1⟩,
    ⟨0x104, 0, 1, 16, 16, .ro, 0, 0, 1⟩,
    ⟨0x104, 0, 1, 15, 12, .ro, 0, 0, 15⟩,
    ⟨0x104, 0, 1, 3, 0, .ro, 0, 0, 15⟩,
    ⟨0x108, 0, 1, 15, 15, .ro, 0, 0, 1⟩,
    ⟨0x108, 0, 1, 11, 0, .ro, 0, 0, 4095⟩,
    ⟨0x10C, 0, 1, 15, 15, .ro, 0, 0, 1⟩,
    ⟨0x10C, 0, 1, 11, 0, .ro, 0, 0, 4095⟩,
    ⟨0x110, 0, 1, 11, 0, .ro, 0, 0, 4095⟩,
    ⟨0x114, 0, 1, 15, 0, .w1c, 0, 0, 65535⟩,
    ⟨0x118, 0, 1, 15, 0, .w1c, 0, 0, 65535⟩,
    ⟨0x800, 0, 1, 31, 16, .rws, 0, 0, 65535⟩,
    ⟨0x800, 0, 1, 13, 12, .rws, 0, 0, 3⟩,
    ⟨0x800, 0, 1, 11, 10, .rws, 3, 0, 3⟩,
    ⟨0x800, 0, 1, 7, 4, .rws, 0, 0, 15⟩,
    ⟨0x800, 0, 1, 3, 3, .rws, 0, 0, 1⟩,
    ⟨0x804, 0, 1, 10, 0, .rws, 0, 0, 2047⟩,
    ⟨0x808, 0, 1, 11, 0, .rws, 4000, 0, 4095⟩,
    ⟨0x80C, 0, 1, 8, 8, .rws, 1, 0, 1⟩,
    ⟨0x80C, 0, 1, 7, 0, .rws, 0, 0, 255⟩,
    ⟨0x810, 0, 1, 23, 20, .rws, 0, 0, 15⟩,
    ⟨0x810, 0, 1, 19, 16, .rws, 0, 0, 15⟩,
    ⟨0x814, 0, 1, 2, 0, .rws, 0, 0, 3⟩,
    ⟨0x818, 0, 1, 11, 0, .rws, 4095, 0, 4095⟩ ]
def regMapLST : List RegSpec := regMapLST0

def regMapLMX0 : List RegSpec :=
  [ ⟨0x100, 0, 1, 1, 1, .rw, 0, 0, 1⟩,
    ⟨0x100, 0, 1, 0, 0, .rw, 0, 0, 1⟩,
    ⟨0x104, 0, 1, 18, 18, .ro, 0, 0, 1⟩,
    ⟨0x104, 0, 1, 16, 16, .ro, 0, 0, 1⟩,
    ⟨0x104, 0, 1, 15, 12, .ro, 0, 0, 15⟩,
    ⟨0x104, 0, 1, 11, 8, .ro, 0, 0, 15⟩,
    ⟨0x104, 0, 1, 3, 0, .ro, 0, 0, 15⟩,
    ⟨0x108, 0, 1, 11, 0, .w1c, 0, 0, 4095⟩,
    ⟨0x10C, 0, 1, 23, 0, .w1c, 0, 0, 16777215⟩,
    ⟨0x110, 4, 9, 31, 0, .w1c, 0, 0, 4294967295⟩,
    ⟨0x800, 0, 1, 23, 12, .rws, 0, 0, 4095⟩,
    ⟨0x800, 0, 1, 11, 10, .rws, 3, 0, 3⟩,
    ⟨0x804, 0, 1, 23, 0, .rws, 0, 0, 16777215⟩,
    ⟨0x808, 0, 1, 23, 20, .rws, 0, 0, 15⟩,
    ⟨0x808, 0, 1, 19, 16, .rws, 0, 0, 15⟩,
    ⟨0x80C, 0, 1, 0, 0, .rws, 0, 0, 1⟩,
    ⟨0x840, 4, 24, 11, 0, .rws, 0, 0, 4095⟩ ]
def regMapLMX : List RegSpec := regMapLMX0

def regMapLCH0 : List RegSpec :=
  [ ⟨0x100, 0, 1, 1, 1, .rw, 0, 0, 1⟩,
    ⟨0x100, 0, 1, 0, 0, .rw, 0, 0, 1⟩,
    ⟨0x104, 0, 1, 26, 16, .ro, 0, 0, 2047⟩,
    ⟨0x104, 0, 1, 5, 5, .ro, 0, 0, 1⟩,
    ⟨0x104, 0, 1, 4, 4, .ro, 0, 0, 1⟩,
    ⟨0x104, 0, 1, 3, 0, .ro, 0, 0, 15⟩,
    ⟨0x108, 0, 1, 31, 0, .ro, 0, 0, 4294967295⟩,
    ⟨0x10C, 0, 1, 0, 0, .w1c, 0, 0, 1⟩,
    ⟨0x800, 0, 1, 23, 17, .rws, 0, 0, 127⟩,
    ⟨0x800, 0, 1, 16, 16, .rws, 0, 0, 1⟩,
    ⟨0x800, 0, 1, 15, 15, .rws, 0, 0, 1⟩,
    ⟨0x800, 0, 1, 14, 13, .rws, 1, 0, 3⟩,
    ⟨0x800, 0, 1, 10, 0, .rws, 1, 1, 1024⟩,
    ⟨0x804, 0, 1, 0, 0, .rws, 0, 0, 1⟩ ]
def regMapLCH : List RegSpec := regMapLCH0

def regMapFRMC0 : List RegSpec :=
  [ ⟨0x100, 0, 1, 0, 0, .w1s, 0, 0, 1⟩,
    ⟨0x104, 0, 1, 24, 16, .ro, 0, 0, 511⟩,
    ⟨0x104, 0, 1, 15, 15, .ro, 0, 0, 1⟩,
    ⟨0x104, 0, 1, 4, 4, .ro, 0, 0, 1⟩,
    ⟨0x104, 0, 1, 3, 3, .ro, 0, 0, 1⟩,
    ⟨0x104, 0, 1, 2, 2, .ro, 0, 0, 1⟩,
    ⟨0x104, 0, 1, 1, 1, .ro, 0, 0, 1⟩,
    ⟨0x104, 0, 1, 0, 0, .ro, 0, 0, 1⟩,
    ⟨0x108, 0, 1, 31, 0, .ro, 0, 0, 4294967295⟩,
    ⟨0x10C, 0, 1, 31, 16, .ro, 0, 0, 65535⟩,
    ⟨0x10C, 0, 1, 15, 0, .ro, 0, 0, 65535⟩,
    ⟨0x110, 0, 1, 31, 0, .rw, 0, 0, 4294967295⟩,
    ⟨0x114, 0, 1, 2, 2, .w1c, 0, 0, 1⟩,
    ⟨0x114, 0, 1, 1, 1, .w1c, 0, 0, 1⟩,
    ⟨0x114, 0, 1, 0, 0, .w1c, 0, 0, 1⟩,
    ⟨0x118, 0, 1, 15, 0, .ro, 0, 0, 65535⟩,
    ⟨0x11C, 0, 1, 1, 1, .w1s, 0, 0, 1⟩,
    ⟨0x11C, 0, 1, 0, 0, .w1s, 0, 0, 1⟩,
    ⟨0x120, 0, 1, 0, 0, .wo, 0, 0, 1⟩,
    ⟨0x800, 0, 1, 3, 3, .rws, 1, 0, 1⟩,
    ⟨0x800, 0, 1, 2, 2, .rws, 0, 0, 1⟩,
    ⟨0x800, 0, 1, 1, 0, .rws, 0, 0, 2⟩,
    ⟨0x804, 0, 1, 31, 0, .rws, 0, 0, 4294967295⟩,
    ⟨0x808, 0, 1, 31, 0, .rws, 0, 0, 4294967295⟩,
    ⟨0x80C, 0, 1, 31, 0, .rws, 0, 0, 4294967295⟩,
    ⟨0x810, 0, 1, 31, 16, .rws, 0, 0, 65535⟩,
    ⟨0x810, 0, 1, 15, 0, .rws, 0, 0, 65535⟩,
    ⟨0x814, 0, 1, 31, 31, .rws, 0, 0, 1⟩,
    ⟨0x814, 0, 1, 15, 0, .rws, 0, 0, 65535⟩ ]
def regMapFRMC : List RegSpec := regMapFRMC0

def regMapXSP0 : List RegSpec :=
  [ ⟨0x100, 0, 1, 2, 0, .rw, 0, 0, 7⟩,
    ⟨0x104, 0, 1, 3, 2, .ro, 0, 0, 3⟩,
    ⟨0x104, 0, 1, 1, 0, .ro, 0, 0, 3⟩,
    ⟨0x108, 0, 1, 9, 8, .wo, 0, 0, 3⟩,
    ⟨0x108, 0, 1, 1, 0, .wo, 0, 0, 3⟩,
    ⟨0x10C, 0, 1, 31, 0, .rw, 0, 0, 4294967295⟩,
    ⟨0x110, 0, 1, 31, 0, .rw, 0, 0, 4294967295⟩,
    ⟨0x114, 0, 1, 3, 0, .ro, 0, 0, 15⟩,
    ⟨0x118, 4, 2, 15, 0, .ro, 0, 0, 65535⟩,
    ⟨0x800, 8, 2, 31, 31, .rwl, 0, 0, 1⟩,
    ⟨0x800, 8, 2, 30, 30, .rwl, 0, 0, 1⟩,
    ⟨0x800, 8, 2, 29, 29, .rwl, 1, 0, 1⟩,
    ⟨0x800, 8, 2, 20, 16, .rwl, 0, 20, 31⟩,
    ⟨0x800, 8, 2, 15, 12, .rws, 1, 0, 15⟩,
    ⟨0x800, 8, 2, 11, 6, .rws, 20, 0, 63⟩,
    ⟨0x804, 8, 2, 19, 16, .rwl, 3, 0, 15⟩,
    ⟨0x804, 8, 2, 7, 0, .rwl, 10, 0, 255⟩ ]
def regMapXSP : List RegSpec := regMapXSP0

def regMapJRN0 : List RegSpec :=
  [ ⟨0x100, 0, 1, 31, 0, .ro, 0, 0, 4294967295⟩,
    ⟨0x104, 0, 1, 31, 0, .ro, 0, 0, 4294967295⟩,
    ⟨0x108, 0, 1, 15, 0, .ro, 0, 0, 65535⟩,
    ⟨0x10C, 0, 1, 15, 0, .rc, 0, 0, 65535⟩,
    ⟨0x110, 0, 1, 31, 0, .rw, 0, 0, 4294967295⟩,
    ⟨0x114, 0, 1, 1, 0, .ro, 0, 0, 3⟩,
    ⟨0x118, 0, 1, 0, 0, .wo, 0, 0, 1⟩,
    ⟨0x140, 4, 16, 31, 0, .ro, 0, 0, 4294967295⟩,
    ⟨0x800, 0, 1, 31, 31, .rws, 0, 0, 1⟩,
    ⟨0x800, 0, 1, 15, 0, .rws, 0, 2, 65535⟩,
    ⟨0x804, 0, 1, 31, 0, .rws, 0, 0, 4294967295⟩ ]
def regMapJRN : List RegSpec := regMapJRN0

def regMapSPR0 : List RegSpec :=
  [ ⟨0x100, 0, 1, 7, 0, .ro, 0, 0, 255⟩,
    ⟨0x104, 0, 1, 31, 16, .ro, 573, 0, 65535⟩,
    ⟨0x104, 0, 1, 4, 0, .ro, 16, 0, 31⟩,
    ⟨0x108, 4, 3, 31, 0, .ro, 0, 0, 4294967295⟩,
    ⟨0x120, 0, 1, 4, 0, .ro, 0, 0, 31⟩,
    ⟨0x140, 4, 16, 31, 28, .ro, 0, 0, 15⟩,
    ⟨0x140, 4, 16, 27, 0, .ro, 0, 0, 268435455⟩,
    ⟨0x800, 0, 1, 8, 8, .rws, 1, 0, 1⟩,
    ⟨0x800, 0, 1, 7, 0, .rws, 16, 1, 255⟩ ]
def regMapSPR : List RegSpec := regMapSPR0

def regMapEC0 : List RegSpec :=
  [ ⟨0x100, 0, 1, 7, 4, .ro, 0, 0, 15⟩,
    ⟨0x100, 0, 1, 3, 3, .ro, 0, 0, 1⟩,
    ⟨0x100, 0, 1, 2, 0, .ro, 0, 0, 7⟩,
    ⟨0x108, 4, 2, 31, 0, .ro, 0, 0, 4294967295⟩,
    ⟨0x110, 4, 2, 31, 0, .w1c, 0, 0, 4294967295⟩,
    ⟨0x118, 0, 1, 31, 0, .ro, 0, 0, 4294967295⟩,
    ⟨0x11C, 0, 1, 7, 0, .ro, 0, 0, 255⟩,
    ⟨0x800, 0, 1, 31, 10, .rwl, 0, 0, 4194303⟩,
    ⟨0x804, 0, 1, 31, 2, .rws, 0, 0, 1073741823⟩,
    ⟨0x840, 4, 32, 3, 3, .rws, 0, 0, 1⟩,
    ⟨0x840, 4, 32, 7, 7, .rws, 0, 0, 1⟩,
    ⟨0x840, 4, 32, 11, 11, .rws, 0, 0, 1⟩,
    ⟨0x840, 4, 32, 15, 15, .rws, 0, 0, 1⟩,
    ⟨0x840, 4, 32, 19, 19, .rws, 0, 0, 1⟩,
    ⟨0x840, 4, 32, 23, 23, .rws, 0, 0, 1⟩,
    ⟨0x840, 4, 32, 27, 27, .rws, 0, 0, 1⟩,
    ⟨0x840, 4, 32, 31, 31, .rws, 0, 0, 1⟩,
    ⟨0x840, 4, 32, 2, 0, .rws, 0, 0, 7⟩,
    ⟨0x840, 4, 32, 6, 4, .rws, 0, 0, 7⟩,
    ⟨0x840, 4, 32, 10, 8, .rws, 0, 0, 7⟩,
    ⟨0x840, 4, 32, 14, 12, .rws, 0, 0, 7⟩,
    ⟨0x840, 4, 32, 18, 16, .rws, 0, 0, 7⟩,
    ⟨0x840, 4, 32, 22, 20, .rws, 0, 0, 7⟩,
    ⟨0x840, 4, 32, 26, 24, .rws, 0, 0, 7⟩,
    ⟨0x840, 4, 32, 30, 28, .rws, 0, 0, 7⟩ ]
def regMapEC : List RegSpec := regMapEC0

def regMapMBX0 : List RegSpec :=
  [ ⟨0x100, 4, 16, 31, 0, .rw, 0, 0, 4294967295⟩,
    ⟨0x200, 4, 16, 31, 0, .rw, 0, 0, 4294967295⟩,
    ⟨0x300, 4, 16, 31, 0, .rw, 0, 0, 4294967295⟩,
    ⟨0x400, 4, 16, 31, 0, .rw, 0, 0, 4294967295⟩,
    ⟨0x140, 256, 4, 4, 0, .wo, 0, 0, 31⟩,
    ⟨0x144, 256, 4, 31, 0, .rc, 0, 0, 4294967295⟩,
    ⟨0x148, 256, 4, 31, 31, .ro, 0, 0, 1⟩,
    ⟨0x148, 256, 4, 22, 20, .ro, 0, 0, 7⟩,
    ⟨0x148, 256, 4, 19, 10, .ro, 0, 0, 1023⟩,
    ⟨0x148, 256, 4, 4, 0, .ro, 0, 0, 31⟩,
    ⟨0x800, 0, 1, 3, 0, .rws, 0, 0, 15⟩,
    ⟨0x180, 4, 16, 31, 0, .rw, 0, 0, 4294967295⟩,
    ⟨0x280, 4, 16, 31, 0, .rw, 0, 0, 4294967295⟩,
    ⟨0x380, 4, 16, 31, 0, .rw, 0, 0, 4294967295⟩,
    ⟨0x480, 4, 16, 31, 0, .rw, 0, 0, 4294967295⟩,
    ⟨0x1C0, 256, 4, 4, 0, .wo, 0, 0, 31⟩,
    ⟨0x1C4, 256, 4, 31, 0, .rc, 0, 0, 4294967295⟩,
    ⟨0x1C8, 256, 4, 31, 31, .ro, 0, 0, 1⟩,
    ⟨0x1C8, 256, 4, 22, 20, .ro, 0, 0, 7⟩,
    ⟨0x1C8, 256, 4, 19, 10, .ro, 0, 0, 1023⟩,
    ⟨0x1C8, 256, 4, 4, 0, .ro, 0, 0, 31⟩ ]
def regMapMBX : List RegSpec := regMapMBX0

end Sys2Proof.Machine
end

