-- ==== Sys2Proof/Config.lean ====
section
/-! DEFINITION. What one unit or one implementation fixes, and the free values: opaque constants without a body, so that no
proof can see what they are (notes/assumptions 2 to 9). -/

namespace Sys2Proof.Config

/-- The value a step takes where the manual leaves one open, applied to the counter `State.free`, which the step
advances (notes/assumptions/2). -/
opaque freeNat : Nat → Nat

/-- The instance IDX of class SUPTEMP in a stream word is a supply, not a temperature (07 Table 6 does not number them). -/
opaque idxSupply : Nat → Bool

/-- The public identity serial of the unit, per unit (03 Table 2, R6). -/
opaque serial : BitVec 64

/-- Levels of the pins SBA1 and SBA0, sampled at power-on (17, R396). -/
opaque sba : BitVec 2

/-- Content of the 96 KB boot ROM, which the manual does not print (01 Table 6). -/
opaque romByte : Nat → Byte

/-! The cryptographic functions that the manual names by their standards (20, R459 to R476) and does not restate: free
functions of their operands (notes/assumptions/3). A cipher that works as a key stream is given by its stream and its tag, so
that what is sealed opens again. -/

/-- SHA-256 (FIPS 180-4). -/
opaque sha256 : List Byte → List Byte

/-- SHA-256 of the 96 KB boot ROM (20 Table 9). -/
opaque romHash : List Byte

/-- Hash of the Randeno manufacturing key, held in ROM (20 Table 2). -/
opaque randenoHash : List Byte

/-- Command byte of an LF downlink frame, which the manual does not give (R431, notes/assumptions/88). -/
opaque lfCommand : Nat → Byte

/-- AES-128 of one block, and its inverse: key, block (19 Table 2). -/
opaque aesEnc : List Byte → List Byte → List Byte
opaque aesDec : List Byte → List Byte → List Byte

/-- AES-CMAC: key, message. -/
opaque cmac : List Byte → List Byte → List Byte

/-- AES-256-GCM: byte `i` of the key stream of a key and a nonce; the tag of a key, a nonce, associated data and ciphertext. -/
opaque gcmStream : List Byte → List Byte → Nat → Byte
opaque gcmTag : List Byte → List Byte → List Byte → List Byte → List Byte

/-- AES-256-CCM: byte `i` of the key stream; the tag of a key, a nonce, associated data and plaintext. -/
opaque ccmStream : List Byte → List Byte → Nat → Byte
opaque ccmTag : List Byte → List Byte → List Byte → List Byte → List Byte

/-- AES-256-XTS of one 16-byte block at a byte offset: key, offset, block (R29). -/
opaque xtsEnc : List Byte → Nat → List Byte → List Byte
opaque xtsDec : List Byte → Nat → List Byte → List Byte

/-- SLH-DSA-SHA2-128s verification: public key, message, signature (R474). -/
opaque slhVerify : List Byte → List Byte → List Byte → Bool

/-- SLH-DSA-SHA2-128f public key of a seed, and signature by a seed (R462, R471). -/
opaque slhPublic : List Byte → List Byte
opaque slhSign : List Byte → List Byte → List Byte

/-- The GCM nonce of a wrapped key record, by its head, which the manual does not give (R459, notes/assumptions/6). -/
opaque wrapNonce : List Byte → List Byte

/-- What a wrapped record of the provisioning service holds (20 Table 10, IMPORT). -/
structure ImportRec where
  typ : Nat
  usage : Nat
  users : Nat
  parent : Nat
  key : List Byte
  deriving DecidableEq, Repr

/-- A wrapped record opened under the service's key, none where it fails; the manual gives no layout of it. -/
opaque importOpen : List Byte → List Byte → Option ImportRec

/-- What a learning package carries (R434). -/
structure LearnPkg where
  serial : BitVec 64
  lcnt : Nat
  tokens : List (Nat × List Byte)
  deriving DecidableEq, Repr

/-- A learning package opened under the dealer key and the service's key, none where its authorisation fails; the manual gives
no layout of it. -/
opaque learnOpen : List Byte → List Byte → List Byte → Option LearnPkg

end Sys2Proof.Config
end

