-- ==== Sys2Proof/Machine/State.lean ====
section
/-! DEFINITION. The state of one KR7360, as plain data: every register of every page in one sparse store, the configuration
in force in a second one, the byte memories in a third, and for each block the state its chapter names beside its registers.
A store lists only what differs from its default (a register's reset value, an erased memory byte), keys strictly rising, so
that equal stores are equal lists. -/

namespace Sys2Proof.Machine

/-- A sparse map: (key, value) pairs with strictly rising keys, no value equal to the default of its key. -/
abbrev Store (α : Type) := List (Nat × α)

/-- The eight operating modes (03, R60 Table 1). -/
inductive Mode where
  | off | park | watch | listen | boot | hold | run | limp
  deriving DecidableEq, Repr

/-- Protection and retry state common to the protected outputs (06, R136 to R142): kept in PWR retention cells (R127). -/
structure Prot where
  rused : Nat            -- retries consumed since the last clear (R139, R140)
  lockout : Bool         -- R141
  latchT : Bool          -- thermal latch set (R134)
  latchD : Bool          -- ΔT limit set (R135)
  tripped : Bool         -- an event has turned the output off and no restart has followed (R138)
  rdly : Bool            -- the restart delay runs (R137)
  slewOff : Bool         -- slew-controlled turn-off of a trip, perhaps still in progress (R142)
  deriving DecidableEq, Repr

/-- Demand on a switching output, before mode, governor and protection (05, R99, R100). -/
inductive Demand where
  | none
  | full
  | gen (duty : Nat)
  deriving DecidableEq, Repr

/-- A high-side channel beside its registers (05, 06, 07). -/
structure HscSt where
  prot : Prot
  theta : Nat            -- wire temperature rise: units of 1/1024 K with a fraction of 40 bits (R124, notes/assumptions/24)
  ovc : Nat              -- overload count (R129)
  offTicks : Nat         -- 100 µs ticks with the gate off, saturating at 1000 (R130)
  window : Bool          -- inrush window open (R130)
  wlast : Bool           -- the window has ended within the present tick, which still has the raised level (R130)
  onFirst : Bool         -- the next switch-on is the first after a trip or latch (R130)
  on : Bool              -- every term of R14 holds and there is demand
  charging : Bool        -- CAP charge phase (R110)
  gen : Bool             -- pulse generator running (R103)
  rem : Nat              -- carried remainder e (R103)
  onClk : Nat            -- on-time of the present pulse in PWR clocks (R103)
  vf : Nat               -- filtered supply, 2^-16 of the 15 mV code (R108)
  safeDem : Demand       -- demand at the edge at which SAFE came into force (R116)
  ran : Bool             -- the gate has been on in the present 100 µs tick, outside the turn-off of an earlier event (R125)
  lastProt : Nat         -- code of the latest protection sample (R123)
  cand : Nat             -- value of the latest valid diagnostic result (R157)
  agree : Nat            -- how many consecutive valid results agreed on it (R157)
  phase : Nat            -- off-state check: 0 none, 1, 2 (R152); 3 phase 1 done, phase 2 waiting
  wear : List Nat        -- latest share of segments 0 to 8 (R159)
  nmeas : Nat            -- wear measurements of the channel (07 Table 7)
  ldCnt : Nat            -- pulses counted by STRETCH or AVERAGE (R156)
  stretched : Bool       -- the present pulse is the stretched one (R156)
  avgSum : Nat           -- AVERAGE: sum of current × clocks (R156)
  avgClk : Nat
  avgBad : Bool
  imSeen : Bool          -- a valid current sample has been taken (R150)
  qAcc : Nat             -- Σ I² c of the ticks since the last governor tick (R288)
  edge : Bool            -- the gate has changed in the present 100 µs tick (R123)
  deriving DecidableEq, Repr

/-- A half-bridge beside its registers (08). -/
structure HbSt where
  prot : Prot
  on : Bool              -- driving or braking: R14 holds and the action in force is not OFF
  act : Nat              -- action in force (08 Table 2)
  gen : Bool             -- generator running (R171)
  rem : Nat              -- carried remainder (R103)
  gate : Bool            -- the driven switch conducts in the present pulse
  rev : Bool             -- a reversal pause is due or runs (R174)
  parkOut : Bool         -- PARKRUN has ended while it is still demanded: STOP applies (R187)
  dirNeg : Bool          -- direction of the last drive was REV (R184)
  vf : Nat               -- filtered die B supply (R173)
  safeAct : Nat          -- action and duty at the edge at which SAFE came into force (R177)
  safeDuty : Nat
  pers : List Nat        -- up to four last accepted ripple periods, newest first (R184)
  insRun : Nat           -- consecutive inserted ripples (R184)
  ibar : List Nat        -- mean currents of the last ripples, newest first, at most 64 (R186)
  nacc : Nat             -- ripples accepted since the drive started (R186)
  deriving DecidableEq, Repr

/-- Phase of a valve's profile (09, R201 Table 2). -/
inductive SolPhase where
  | off | boost | hold | decay | window
  deriving DecidableEq, Repr

/-- A valve beside its registers (09). -/
structure SolSt where
  prot : Prot
  phase : SolPhase
  deferred : Bool        -- waits in its bank's queue (R211)
  trig : Bool            -- the last new command was of the TRIG kind (R202)
  level : Bool           -- level demand in force at the last evaluation
  rfx : Bool             -- reflex result ON at the last evaluation (R202)
  shared : Bool          -- takes part in the bank's overlap policy in this BOOST (R210)
  gate : Bool            -- low-side switch on (R201)
  fast : Bool            -- the bank has been in VBST in this decay (R209)
  holdMs : Nat           -- ms of the present HOLD (R216)
  thetaE : Nat           -- energy model, units of 2^-50 K: PWR retention (R215)
  pairs : List (Nat × Nat) -- last coil voltage and current pairs, newest first, at most 16 (R215)
  trAge : Nat            -- ms since the last pair, saturating at 101 (R215)
  slept : Nat            -- seconds for which the restored energy model still has to decay, once TAU is known (R128, R215)
  win3 : Bool            -- the latest closing window was on slice 3, else on slice 2 (R206)
  deriving DecidableEq, Repr

/-- The boost converter and the bank switches beside their registers (09). -/
structure SbkSt where
  ovStop : Bool          -- stopped by an overvoltage (R198)
  latch : Bool           -- stopped by its thermal latch (09 Table 8)
  sel : List Nat         -- SEL in force per bank (R219)
  queues : List (List Nat) -- deferred valves per bank in arrival order (R210)
  deriving DecidableEq, Repr

/-- An LED string beside its registers (10). -/
structure LstSt where
  prot : Prot
  phase : Nat            -- 0 idle, 1 soft-start, 2 started and waiting for a boundary, 3 lit, 4 dark at L_eff = 0 (R228, R231)
  frame : List Nat       -- L and PW 0 to 15 of the frame in progress (R230)
  full : Bool            -- lit by a reflex set or SAFE = ON (R231, R234)
  last : Bool            -- there was demand when SAFE came into force (R234)
  lastFull : Bool        -- and it was a full one
  carry : List Nat       -- clocks of this frame into which the lit times of the one before run, by position (R229)
  deriving DecidableEq, Repr

/-- The indicator matrix beside its registers (10). -/
structure LmxSt where
  prot : Prot
  on : Bool
  last : Bool            -- there was demand when SAFE came into force (R239)
  raw : List Nat         -- pulse widths of the frame in progress (R239)
  pw : List Nat          -- and as the trim of its boundary leaves them; empty while dark (R236)
  deriving DecidableEq, Repr

/-- FRMC and its player beside their registers (10). -/
structure FrmcSt where
  target : Bool          -- buffer that the pending swap brings to the front (R243)
  trig : Nat             -- TBS of the trigger of the pending swap (R244)
  play : Nat             -- player: 0 stopped, 1 waits for swap and mirror, 2 copies, 3 armed, waits for the swap (R246)
  stop : Bool            -- STOP written during a copy (R246)
  deriving DecidableEq, Repr

/-- A pixel chain port beside its registers (11). -/
structure LchSt where
  phase : Nat            -- 0 idle, 1 waits for a boundary, 2 frame in progress, 3 gap, 4 fault (R259, R267)
  blank : Bool           -- a blanking frame is due at the next boundary (R262)
  blanking : Bool        -- the frame in progress is the blanking frame
  last : Bool            -- the port transmitted when SAFE came into force (R266)
  pix : List Nat         -- records of the frame in progress, three values each (R266)
  frame : List Nat       -- and the values sent, in their order (R257, R258)
  live : Bool            -- its records are read from FRM as it goes, not repeated (R260, R266)
  g : Nat                -- its trim factor, taken at its boundary (R265)
  late : Option Nat      -- the chain position from which it sends zeros for want of a record (R260)
  deriving DecidableEq, Repr

/-- The timebase beside its registers (13, R305 to R308). -/
structure TbsSt where
  armed : Nat            -- armed compare units, one bit each (R308)
  integ : Int            -- integral I, 1/64 ppm (R305)
  lockN : Nat            -- consecutive beacons with |OFFS| ≤ 8, at most 16 (R306)
  exclN : Nat            -- consecutive beacons with |OFFS| ≤ 80 while excluded, at most 16 (R306)
  satN : Nat             -- consecutive beacons with the trim held at ±250 ppm, at most 100 (13, TRIMSAT)
  deriving DecidableEq, Repr

/-- What a waiting core waits for (14, R325 to R328). -/
inductive CoreWait where
  | none
  | wfe (high : Bool) (mask : Word)
  | wtu (target : Word)
  | wtx (high : Bool) (mask target : Word)
  deriving DecidableEq, Repr

/-- The registers of an Elroth core, the pair counting as one (14 Table 1), and what it is engaged in. -/
structure CoreSt where
  st : Nat               -- 0 held in reset, 1 released, 3 halted (13, EC.STAT)
  a : Word
  ag : BitVec 8
  x : Word
  y : Word
  s : Word
  p : Word
  b : Word
  k : Nat                -- repeat count, 0 to 256
  rp : Nat               -- F.RP, 0 to 9
  e : Bool
  t : Bool
  i : Bool
  z : Bool
  n : Bool
  v : Bool
  c : Bool
  rep : Bool             -- a REP is engaged (R330); E stands for a REPI
  repP : Word            -- address of that REP
  repK : Nat             -- K before it
  repNew : Bool          -- the repeated instruction has not begun (R330)
  repIns : Option Instr  -- the repeated instruction, fetched once at its first iteration (R330)
  repX : Word            -- X and Y before that REP
  repY : Word
  wait : CoreWait
  wlen : Nat             -- length of the waiting instruction, and X and Y after its operand (R325)
  wx : Word
  wy : Word
  deriving DecidableEq, Repr

/-- A request of the bridge: a posted write, a read or a LOCK (16, R362 to R370). -/
structure BrgReq where
  kind : Nat             -- issuing initiator, POWN coding; 0 the bridge itself
  dev : Nat              -- ring address
  addr : Nat             -- offset in the device's 1 MB slot
  op : Nat               -- 0 write, 1 read, 2 LOCK
  words : List Word      -- data of a write, the value of a LOCK
  cnt : Nat              -- words read
  dest : Nat             -- where a response goes: 0–15 slot, 16 + n core page 0xA0 + n, 32 nowhere, 33 the poll round
  live : Bool            -- false: a split read that FREE has cancelled (R371)
  no : Nat := 0          -- its place in issue order (R363)
  deriving DecidableEq, Repr

/-- A request on the ring without its response (15, R345, R346). -/
structure BrgOut where
  req : BrgReq
  seq : Nat
  resends : Nat
  deriving DecidableEq, Repr

/-- A core's own buffer for its blocking read or LOCK (16, R369). -/
inductive CoreBuf where
  | idle
  | waiting (addr : Nat)
  | data (addr : Nat) (w : Word)
  | failed (addr : Nat)
  deriving DecidableEq, Repr

/-- The bridge beside its registers (16). -/
structure BrgSt where
  queue : List BrgReq            -- posting queue, oldest first; from the 65th on, stalled initiators (R362)
  issued : Nat                   -- requests issued so far (R363)
  outst : List BrgOut
  rdcnt : Store Nat              -- RDCNT per initiator kind (R370)
  rdtag : Store Nat              -- RDTAG per initiator kind
  slotAddr : Store Nat           -- window address of each slot's read
  cores : Store CoreBuf          -- by core page
  first : Store Nat              -- data + 1 of the first of two reads of one instruction, by core page: its second is awaited (R369)
  poison : List (Nat × Nat)      -- poisoned (device, page), at most 16 (R368)
  polls : Store Nat              -- last poll that succeeded: WSUM + 1; 0 where the last poll failed or none has run (R375)
  pollDue : Bool                 -- a poll round is due while one is still running (R375)
  adm : Store Nat                -- TBS + 1 of the last automatic admission of each worker (R377)
  park : List (Nat × Nat)        -- park round: worker, 0 unresolved, 1 parked, 2 refused, 3 answered and not yet gone (R380)
  epDiff : Nat                   -- consecutive beacons with a differing SYSEP, at most 3 (R376)
  epSame : Nat
  deriving DecidableEq, Repr

/-- A duplicate window: the highest SEQ accepted and the map of the 64 up to it; an empty map is an empty window (R347). -/
structure DupWin where
  top : Nat
  map : Nat
  deriving DecidableEq, Repr

/-- What a ring output has sent last: nothing but idles and heartbeats, a good frame by its header, payload and CRC bytes, a frame that
ended with ABORT, or a horn (15 Table 1). -/
inductive TxPort where
  | idle
  | frame (bytes : List Byte)
  | aborted
  | horn
  deriving DecidableEq, Repr

/-- The ring port beside its registers (15). -/
structure JxrSt where
  outA : TxPort                  -- what the lane A output has sent last
  outB : TxPort
  queue : List (Bool × RingFrame) -- own frames waiting for a gap, with their lane, lane B true (R343)
  evtCopy : List RingFrame       -- second copies of EVT frames, oldest first, each due 10 µs after its first copy (R353)
  whorn : Bool                   -- a wake by another source than a horn: WHORN is looked at when JXR's configuration comes (R356)
  bcnWait : Nat                  -- time from the clock of the last beacon's MTIME to its SOF out, 0.125 ns (R351)
  seqs : Store Nat               -- next SEQ per destination; 1024: broadcasts (R347)
  wins : Store DupWin            -- 0: unicast of source 0; 1 + a: broadcasts of source a
  resp : List (Nat × RingFrame)  -- responses to the last 64 requests, newest first (R347)
  wrapUp : Bool                  -- wrap point for the upstream hop (R339)
  wrapDown : Bool                -- wrap point for the downstream hop
  hbA : Byte                     -- last heartbeat status byte of each input (15 Table 2)
  hbB : Byte
  enumPh : Nat                   -- 0 none, 1 waits for the outstanding requests, 2 pass 1 sent, 3 pass 2 sent (R348, R381)
  enumPos : Nat                  -- POS that pass 1 returned
  enumMap : Nat                  -- MAP that pass 1 returned
  conflict : Bool                -- R349
  pinErr : Bool                  -- PINERR holds this device off (R348)
  enumLast : Nat                 -- 4096 × PASS + SEQ + 1 of the last ENUM handled; 0 none (R348)
  took : Bool                    -- address taken in this enumeration: TBS loads at pass 2 (R349)
  lostA : Bool                   -- the input has been lost and has not locked since (R339)
  lostB : Bool
  stA : Byte                     -- heartbeat status byte that each output sends (15 Table 2)
  stB : Byte
  evtOne : Bool                  -- the one EVT frame that may go while the insertion buffer holds anything has gone (R343)
  deriving DecidableEq, Repr

/-- A CAN controller beside its registers (18). -/
structure CanSt where
  cur : Option Nat       -- buffer being transmitted; 31 on NMG's bus is the NM message (R408, R421)
  frame : List Byte      -- its element as last read
  cancel : Bool          -- TXCAN written during the attempt
  deriving DecidableEq, Repr

/-- A LIN controller beside its registers (18). -/
structure LinSt where
  halt : Bool            -- HALT written: the schedule stops at the end of its slot (R416)
  sleep : Nat            -- 0 none, 1 waits for the slot to end, 2 the go-to-sleep frame is being sent (R416)
  sent : List Byte       -- the response last sent: the copy of FD and its checksum (R415)
  pulse : Bool           -- a wake pulse has been sent and no frame has followed it (R416)
  old : Option (Store Word) -- configuration of the slot in progress, where a commit has applied since it began (18, LIN page)
  deriving DecidableEq, Repr

/-- NMG beside its registers (18). -/
structure NmgSt where
  tx : List (Nat × List Byte) -- messages to send: 0 ALIVE, 1 ring, 2 SLEEPACK, 3 limp-home, 4 limp-home of a ready node; oldest first (R421)
  ferryIn : Nat          -- FERRY of the last ring message received (R424)
  holds : Bool           -- the ring is here, to be passed after TTYP (R422)
  await : Bool           -- the successor has not been heard since the last ring message (R422)
  heard : Bool           -- an NM message has come since BUS powered up (R427)
  limpHeard : Bool       -- in LIMPHOME: another node has been heard (R428)
  deriving DecidableEq, Repr

/-- The host port beside its registers (17). -/
structure HptSt where
  rbuf : Option (List Word) -- read buffer (R391)
  reading : Option (Nat × Nat × List Word) -- a read that is still completing: its next address, words to come, words read (R390)
  wait : List (Nat × Word)  -- words of a write that are still stalled (R389)
  wbusy : Bool
  res : Nat              -- RES of the last frame (17 Table 2)
  out : List Byte        -- bytes the device sent in the last frame: the status byte, then the response phase (R385)
  deriving DecidableEq, Repr

/-- The side-band port beside its registers (17). -/
structure SbpSt where
  limp : Bool            -- AON: LIMP latch (R400)
  recov : Bool           -- AON: RECOV latch
  out : List Byte        -- last response
  attSt : Nat            -- 0 IDLE, 1 BUSY, 2 READY, 3 REFUSED (17 Table 7)
  nonce : List Byte      -- nonce of the request in progress (R401)
  memRes : Nat           -- result and words of the last MEMWR (R402)
  memN : Nat
  memWait : List (Nat × Word) -- words of a MEMWR still to be issued
  memBusy : Bool
  mrd : Option (Nat × Nat × List Word) -- a MEMRD that holds SCL: address, count and the words read (R402)
  deriving DecidableEq, Repr

/-- IMM beside its registers (19). -/
structure ImmSt where
  phase : Nat            -- 0 idle; a reply is awaited: 1 ID, 2 C1, 3 ACK, 4 BLK, 5 an ID in a slot of anticollision
  ants : List Nat        -- antennas of the session still to run, the driving one first (R440)
  slot : Nat             -- slot that the ID named
  rb : List Byte         -- challenge RB (R436)
  blk : Nat              -- blocks read
  addressed : Bool       -- the round is addressed by AUTH1S (R438)
  ids : List Nat         -- token slots named by the IDs received cleanly, in the order received
  slotsLeft : Nat        -- slots still to come of the SLOTREQ in progress
  reqs : Nat             -- SLOTREQs sent
  again : Bool           -- slots of the present SLOTREQ collided
  acRes : Nat            -- result of the last addressed round, 0 where none ran
  cfg : Store Word       -- configuration of the session: the one in force at its START (19, IMM page)
  rel : List (List Byte)        -- elements in the internal transmit buffer and waiting for it, the oldest first (R443, R446)
  tx : List Byte         -- payload of the last downlink frame (19 Table 2)
  lfaT : Nat             -- antenna drivers with a thermal latch, one bit each (R134)
  lfaD : Nat             -- and with a ΔT limit (R135)
  pollTab : List Nat     -- AON copy of POLL[0] to POLL[7] (R447)
  pollAnt : List Nat     -- antennas of the mask in the copy
  pollIpk : List Nat     -- and their currents
  pollTset : Nat
  pollTta : Nat
  pollIds : List Nat     -- IDs of the enabled, valid slots in the copy
  pollOn : Bool          -- polling goes on in this WATCH period
  meas : Bool            -- the field in force has been measured during a reply (19 Table 10)
  pollBad : Bool         -- the copy has failed its check (R447)
  step : Nat             -- poll step in force
  bursts : Nat
  deriving DecidableEq, Repr

/-- A key record (20 Table 3); the usage bits are ENC, DEC, MAC, VMAC, DERIVE, WRAP, SIGN from bit 0. -/
structure KeyRec where
  held : Bool
  typ : Nat              -- 0 AES-128, 1 AES-256, 2 AES-256-XTS, 3 HMAC, 4 SLH seed
  imported : Bool
  parent : Nat
  pgen : Nat
  gen : Nat
  usage : Nat
  users : Nat            -- bit k − 1: the kind of POWN coding k
  data : List Byte       -- label, or ciphertext and tag
  deriving DecidableEq, Repr

/-- A vault command that runs (R472). -/
structure VltCmd where
  kind : Nat             -- issuer, POWN coding
  op : Nat
  slot : Nat
  deriving DecidableEq, Repr

/-- The Svetkivex vault beside its registers (20). -/
structure VltSt where
  otp : Store Word           -- the 512 words (20 Table 1)
  keys : Store KeyRec        -- MRAM: the key store (R460)
  clears : Nat               -- MRAM: CLEARs accepted (R470)
  latch : Bool               -- AON: the tamper latch (R467)
  mark : Bool                -- MRAM: the tamper record (R468)
  parents : Nat              -- domain parents derived at this boot: 0 none, 1 FW, 2 all (R95, R459)
  zeroised : Bool            -- working keys zeroised since (R468)
  kram : Store (Option (Nat × Nat)) -- key RAM: K ⊕ M and M of each working key by slot (R463)
  drbg : Nat                 -- requests to the DRBG since it was last seeded (R465)
  cmd : Option VltCmd
  report : List Byte         -- the report buffer, empty where none (R471)
  debug : Bool               -- a debug connection refuses key use until reset (20 Table 2)
  relCnt : Nat               -- next release counter (R445)
  relMark : Nat              -- MRAM: high-water mark
  relFresh : Bool            -- the mark has been raised since the last entry to BOOT
  learned : Nat              -- MRAM: LCNT of the last accepted package (R434)
  tkid : List Nat            -- MRAM: token IDs of the slots
  deriving DecidableEq, Repr

/-- The update record in MRAM (R478) and the distribution engine (R490). -/
structure UpdSt where
  state : Nat                -- 0 STABLE, 1 TRIAL, 2 CONFIRMING
  conf : Nat                 -- confirmed slot
  trial : Nat                -- trial slot
  tboots : Nat
  trun : Nat                 -- trial RUN time left, as recorded
  prevv : Bool
  prevgen : Nat
  insthash : List Byte       -- PHASH of the last installation; empty where none
  rejected : Nat             -- slots marked rejected, one bit each (R486)
  revert : Bool              -- the trial has run out: revert at the next boot (R484)
  gen : Nat                  -- GEN of the command that runs
  asked : Bool               -- the CONFIRM that runs came in a trial (R485)
  iso : Option (Nat × Nat × List Byte) -- ISO 15765-2 message being received: length, next sequence number, bytes so far (R489)
  ending : Bool              -- the end message of a download has come over CAN0 and the ROM installs (R489)
  next : Nat                 -- distribution: frames sent
  await : Option RingFrame   -- the BULK frame sent last, without its response
  resends : Nat              -- how often it has been resent (R346)
  stop : Bool                -- STOP written
  chosen : Bool              -- the ROM has chosen the active slot in this boot (R29)
  deriving DecidableEq, Repr

/-- XSP beside its registers (23). -/
structure XspSt where
  cmd : Option (Nat × Nat)   -- OP and chip-select of the command that runs
  addr : Nat                 -- its external address and buffer
  buf : Nat
  map : Store Nat            -- MRAM: spare that stands for a block, by 2^20 × CS + block, plus 1; 0 none (R513)
  used : List Nat            -- spares used on each chip-select
  deriving DecidableEq, Repr

/-- An operation of JRN on the flash (R512, R516). -/
inductive JrnOp where
  | erase (unit : Nat)
  | header (unit seq : Nat)  -- the header of a unit, whose first record is that of SEQ seq
  | record (seq : Nat)       -- the record of SEQ seq, at the next place of the unit written to
  deriving DecidableEq, Repr

/-- The journal beside its registers (23). -/
structure JrnSt where
  ring : List (Nat × List Word) -- MRAM: staged records not yet copied, oldest first, at most 64 (R515)
  base : Nat                 -- MRAM: the region that the fields below describe, from JRN.BASE and UNITS
  units : Nat
  cur : Option Nat           -- unit with its header and with place for records
  fill : Nat                 -- records in it
  ready : Option Nat         -- erased unit that follows
  next : Nat                 -- unit to be erased after it
  useq : Nat                 -- sequence number of the next unit
  op : Option JrnOp          -- the operation that runs
  buf : List Byte            -- the page or the 256 bytes that a program takes (R512)
  firsts : Store Nat         -- SEQ + 1 of the first record of each unit that holds records, by unit
  fetch : Bool               -- a fetch runs (R517)
  deriving DecidableEq, Repr

/-- The substitution maps, in MRAM and OTP (R519). -/
structure SprSt where
  segs : Nat                 -- channels whose spare segment is in use
  segBad : Store Nat         -- segments that were failed when the spare took their place, by channel, one bit each
  rows : List Nat            -- MRAM rows replaced, newest first
  keys : List (Nat × Nat)    -- key slots replaced and their spares
  slice : Option Nat
  rc : Option Nat
  otp : List Nat             -- OTP words replaced
  deriving DecidableEq, Repr

/-- What AON and MRAM hold about sleeping and waking (03, R67 to R73; 12, R273, R274). -/
structure WakeSt where
  left : Nat                 -- mode that LISTEN left: 1 PARK, 2 WATCH
  bus : Nat                  -- bus whose wake entered LISTEN, DETAIL order
  pulses : Nat           -- LISTEN: bit n, a wake pulse of LIN n has been heard (R420)
  fw : List Nat              -- consecutive false wakes of each bus (R73)
  latched : List (Nat × Nat × Nat × Nat) -- wakes latched between t1 and t3: SRC, DETAIL, ALSO, RTC seconds × 65,536 + sub-second count (R67)
  fired : Bool               -- a wake source fired in the quiesce window (R66)
  level : Nat                -- strong-wake levels latched at t3, one bit each (R273)
  cyc : List (Nat × Bool)    -- cyclic inputs of the copy with their reference states (R274)
  cycCfg : List (Nat × Nat × Nat) -- TYPE, THR and IWET of these inputs
  cycBad : Bool              -- the copy has failed its check in a burst (12 Table 4)
  conf : Bool                -- CONF of the copy
  diff : List (Nat × Bool)   -- difference that awaits its confirming burst
  per : Nat                  -- PER of the copy
  req : Bool                 -- the Park entry was started by DEV.MREQ
  ka : Nat                   -- keep-awake sources active since t0 of Park entry (R66)
  kaPage : Nat               -- first output page among them
  kaLast : Nat               -- keep-awake sources active when the last command ended (R65)
  deriving DecidableEq, Repr

/-- The fuse-state record that Park entry writes into MRAM (06, R128; 08, R185; 09, R215). -/
structure FuseRec where
  hsc : List (Nat × Nat × Bool) -- Θ, RUSED and lockout of the 72 channels
  pos : List (Nat × Bool)    -- POS and POSVALID of the 12 half-bridges
  sol : List Nat             -- Θ_E of the 16 valves
  sec : Nat                  -- PMU.RTCSEC
  crc : Word                 -- CRC-32 over the fields above
  deriving DecidableEq, Repr

/-- A fault source asserted in the present command, still to be collected by FLT: its ID, whether by PFORCE, and the
DETAIL bytes of its record where the source's chapter states them. -/
structure Due where
  id : Nat
  forced : Bool
  detail : List Byte
  deriving DecidableEq, Repr

/-- Fault collection beside its registers (22). -/
structure FltSt where
  opened : Store Nat       -- open sources with their effective class (R500)
  level : List Nat         -- level sources whose condition stands (R543)
  held : Store Nat         -- AON: sources held while PWR has no power, with RTC seconds + 1 (R544)
  aliveStop : Bool         -- a kick error or a C4 or C5 event since the last reset (R504)
  kicked : Bool            -- a first valid kick has been written (R504)
  nextA5 : Bool            -- the next key is 0xA5 (R505)
  kickOff : Bool           -- kicks are no longer checked (R505)
  seq : Nat                -- AON: sequence number of the last record (R506)
  dropped : Nat            -- records dropped since the last one written (R506)
  queue : List (List Word) -- records waiting for JRN, at most 32 (R506)
  cell : List Word         -- AON: record of a C5 event, empty where none (R506)
  wired : Bool             -- source 39 has acted since the last reset: no commit of FLT is taken (R502)
  deriving DecidableEq, Repr

/-- What an access answers an initiator that waits: the value read, a bus error (R28), or a stall. -/
inductive Answer where
  | val (v : Word)
  | err
  | stall
  deriving DecidableEq, Repr

/-- Progress of a Park entry (03 Table 7): none, from t0 to t1, from t1 to t2, from t2 to t3. -/
inductive ParkPhase where
  | none | quiesce | committed | closing
  deriving DecidableEq, Repr

/-- Protection state at power-up of PWR without retained values (06, R127). -/
def Prot.init : Prot := ⟨0, false, false, false, false, false, false⟩

/-- A high-side channel at power-up of PWR: half of the trip rise with the reset configuration at the −40 °C clamp, which is
1160/16 K (R127). -/
def HscSt.init : HscSt :=
  { prot := Prot.init, theta := 1160 * 2 ^ 46, ovc := 0, offTicks := 1000, window := false, wlast := false, onFirst := false, on := false,
    charging := false, gen := false, rem := 0, onClk := 0, vf := 0, safeDem := .none, ran := false, lastProt := 0, cand := 0, agree := 0,
    phase := 0, wear := [], nmeas := 0, ldCnt := 0, stretched := false, avgSum := 0, avgClk := 0, avgBad := false,
    imSeen := false, qAcc := 0, edge := false }

/-- A half-bridge at power-up of PWR. -/
def HbSt.init : HbSt :=
  { prot := Prot.init, on := false, act := 0, gen := false, rem := 0, gate := false, rev := false, parkOut := false, dirNeg := false, vf := 0,
    safeAct := 0, safeDuty := 0, pers := [], insRun := 0, ibar := [], nacc := 0 }

/-- A valve at power-up of PWR. -/
def SolSt.init : SolSt :=
  { prot := Prot.init, phase := .off, deferred := false, trig := false, level := false, rfx := false, shared := false,
    gate := false, fast := false, holdMs := 0, thetaE := 0, pairs := [], trAge := 101, slept := 0, win3 := true }

/-- The converter and the bank switches at reset: every SEL at VBAT (09 Table 7). -/
def SbkSt.init : SbkSt := { ovStop := false, latch := false, sel := [1, 1, 1, 1], queues := [[], [], [], []] }

/-- A string, the matrix, FRMC and a chain port at reset. -/
def LstSt.init : LstSt :=
  { prot := Prot.init, phase := 0, frame := [], full := false, last := false, lastFull := false, carry := [] }
def LmxSt.init : LmxSt := { prot := Prot.init, on := false, last := false, raw := [], pw := [] }
def FrmcSt.init : FrmcSt := { target := false, trig := 0, play := 0, stop := false }
def LchSt.init : LchSt := { phase := 0, blank := false, blanking := false, last := false, pix := [], frame := [], live := false, g := 0, late := none }

/-- The timebase at reset (R19, R308). -/
def TbsSt.init : TbsSt := { armed := 0, integ := 0, lockN := 0, exclN := 0, satN := 0 }

/-- The registers of a core at its release, P to be set to the slot entry vector (14 Table 1, R313). -/
def CoreSt.init : CoreSt :=
  { st := 0, a := 0, ag := 0, x := 0, y := 0, s := 0x01010000, p := 0, b := 0x40000000, k := 0, rp := 0, e := false, t := false,
    i := false, z := false, n := false, v := false, c := false, rep := false, repP := 0, repK := 0, repNew := false, repIns := none,
    repX := 0, repY := 0, wait := .none, wlen := 0, wx := 0, wy := 0 }

/-- The bridge and the ring port at reset (15, 16). -/
def BrgSt.init : BrgSt :=
  { queue := [], issued := 0, outst := [], rdcnt := [], rdtag := [], slotAddr := [], cores := [], first := [], poison := [], polls := [], pollDue := false, adm := [],
    park := [], epDiff := 0, epSame := 0 }
def JxrSt.init : JxrSt :=
  { outA := .idle, outB := .idle, queue := [], evtCopy := [], whorn := false, bcnWait := 0, seqs := [], wins := [], resp := [], wrapUp := false,
    wrapDown := false, hbA := 0, hbB := 0, enumPh := 0, enumPos := 0, enumMap := 0, conflict := false, pinErr := false,
    enumLast := 0, took := false, lostA := false, lostB := false, stA := 0, stB := 0, evtOne := false }

/-- The buses, NMG and the ports at reset (17, 18). -/
def CanSt.init : CanSt := { cur := none, frame := [], cancel := false }
def LinSt.init : LinSt := { halt := false, sleep := 0, sent := [], pulse := false, old := none }
def NmgSt.init : NmgSt := { tx := [], ferryIn := 0, holds := false, await := false, heard := false, limpHeard := false }
def HptSt.init : HptSt := { rbuf := none, reading := none, wait := [], wbusy := false, res := 0, out := [] }
def SbpSt.init : SbpSt :=
  { limp := false, recov := false, out := [], attSt := 0, nonce := [], memRes := 0, memN := 0, memWait := [], memBusy := false, mrd := .none }

/-- IMM, the vault, UPD, XSP, JRN and SPR as manufactured: BLANK, nothing in OTP or in the key store (20 Table 2; notes/assumptions/30). -/
def ImmSt.init : ImmSt :=
  { phase := 0, ants := [], slot := 0, rb := [], blk := 0, addressed := false, ids := [], slotsLeft := 0, reqs := 0,
    again := false, acRes := 0, cfg := [], rel := [], tx := [], lfaT := 0, lfaD := 0, pollTab := [], pollAnt := [], pollIpk := [],
    pollTset := 0, pollTta := 0, pollIds := [], pollOn := false, meas := false, pollBad := false, step := 0, bursts := 0 }
def KeyRec.none : KeyRec :=
  { held := false, typ := 0, imported := false, parent := 0, pgen := 0, gen := 0, usage := 0, users := 0, data := [] }
def VltSt.init : VltSt :=
  { otp := [], keys := [], clears := 0, latch := false, mark := false, parents := 0, zeroised := false, kram := [], drbg := 0,
    cmd := .none, report := [], debug := false, relCnt := 0, relMark := 0, relFresh := false, learned := 0, tkid := [] }
def UpdSt.init : UpdSt :=
  { state := 0, conf := 0, trial := 0, tboots := 0, trun := 0, prevv := false, prevgen := 0, insthash := [], rejected := 0,
    revert := false, gen := 0, asked := false, iso := .none, ending := false, next := 0, await := .none, resends := 0, stop := false,
    chosen := false }
def XspSt.init : XspSt := { cmd := .none, addr := 0, buf := 0, map := [], used := [0, 0] }
def JrnSt.init : JrnSt :=
  { ring := [], base := 0, units := 0, cur := .none, fill := 0, ready := .none, next := 0, useq := 0, op := .none, buf := [],
    firsts := [], fetch := false }
def SprSt.init : SprSt := { segs := 0, segBad := [], rows := [], keys := [], slice := .none, rc := .none, otp := [] }
def WakeSt.init : WakeSt :=
  { left := 1, bus := 0, pulses := 0, fw := [0, 0, 0, 0, 0, 0, 0, 0], latched := [], fired := false, level := 0, cyc := [], cycCfg := [], cycBad := false, conf := false,
    diff := [], per := 20, req := false, ka := 0, kaPage := 0, kaLast := 0 }

/-- A command that the machine cannot carry out for want of memory or a unit; none is raised (every command completes). -/
inductive Fault where
  /-- Never raised: the KR7360 reports its faults through FLT and goes on (22), so no command stops the machine. Safe. -/
  | stopped
  deriving DecidableEq, Repr

/-- A command that the model gives no meaning. -/
inductive Refusal where
  /-- A command whose meaning is not written: raised by no arm once every arm calls its meaning. Safe. -/
  | notModelled (mnemonic : String)
  deriving DecidableEq, Repr

/-- The whole device, with the queue of the commands that wait. -/
structure State where
  mode : Mode
  regs : Store Word             -- register words: headers, live and shadow
  applied : Store Word          -- the configuration in force (R38)
  mem : List Host.Cell          -- byte memories
  free : Nat                    -- counter of the free values taken so far: the model's own
  dirty : Bool                  -- outputs are to be evaluated again before the command ends: the model's own
  due : List Due                -- fault sources still to be collected in this command: the model's own
  crossed : Nat                 -- event lines that have crossed into SYS in this command, one bit each; bit 64: some merged (R24)
  lineHeld : Nat                -- lines raised while the SYS clock stands, one bit each: they cross when it returns (R26)
  pwrTick : Nat                 -- 100 µs ticks of the PWR domain since it powered up (R545)
  msDone : Nat                  -- work of the present 1 ms tick that is done: bit 0 T_A refresh, bit 1 governor (R545)
  anaDone : Nat                 -- analogue switch inputs sampled in the present 100 µs tick, one bit each (R545)
  flt : FltSt
  park : ParkPhase
  tbs : Nat                     -- 64-bit system timebase
  tb : TbsSt
  ec : Store CoreSt             -- EC0/EC1 (0), EC2 (2), EC3 (3)
  jxr : JxrSt
  brg : BrgSt
  can : Store CanSt
  lin : Store LinSt
  nmg : NmgSt
  aonCopy : Store Word          -- AON: bus configuration copied at t2 of Park entry (R419)
  aonCopyOk : Bool              -- its CRC-32 holds
  commits : List (Nat × Nat)    -- commits in CHECKING in the order they arrived: page, kind of the committer (R44)
  pendKind : Store Nat          -- kind of the committer of each pending commit (R45)
  cmtClass : Store Nat          -- apply class of the commit in progress of each page, as it was written with COMMIT (R45)
  pmuPend : List (Nat × Word)   -- writes on their way to AON: page offset, word (R25)
  wk : WakeSt
  fuseRec : Option FuseRec      -- MRAM: the fuse-state record (R128)
  committer : Store Nat         -- POWN coding of the initiator whose commit each page runs under (R17)
  hpt : HptSt
  sbp : SbpSt
  imm : ImmSt
  vlt : VltSt
  upd : UpdSt
  xsp : XspSt
  jrn : JrnSt
  spr : SprSt
  hsc : Store HscSt
  hb : Store HbSt
  sol : Store SolSt
  sbk : SbkSt
  lst : Store LstSt
  lmx : LmxSt
  frmc : FrmcSt
  lch : Store LchSt
  rfxLoaded : Bool              -- the reflex loader has ended since the last entry to BOOT (R81)
  rfxRun : Nat                  -- pulse timers that run, one bit a rule (R281)
  rfxHist : Nat                 -- condition of each rule on the previous clock (R281)
  holdAct : Bool                -- DEV.HOLDACT has been set since the entry (R283)
  swiPins : Nat                 -- comparator level of each switch input as its pin stands: the environment's (R272)
  swiDeb : Nat                  -- inputs in debounce, one bit each (R272)
  swiClean : Nat                -- inputs in a cleaning pulse, one bit each (R271)
  govLog : List (Word × Word)   -- governor log, oldest first, at most 64 (R291)
  govShed : List (Nat × Nat)    -- shed outputs, most recent first, with their loss (R290)
  govSince : List Nat           -- ms since the last step of each die (R290)
  govPkgDie : Nat               -- die of the latest PKG entry (12 Table 14)
  tcmBad : Nat                  -- TCMs in which a word with a double-bit error awaits its next read, one bit a core (R296)
  dmaHeld : Nat                 -- channels with a trigger held (R310)
  dmaSrc : Store Nat
  dmaDst : Store Nat
  dmaLeft : Store Nat           -- words of a block that still wait for a busy device, per channel (R310)
  winBank : Store Nat           -- bank + 1 of a window read still in progress: by initiator kind, 17 + n for DMA channel n (R30)
  msqFifo : List (Nat × Word)   -- samples on their way from PWR to SYS, source class and stream word, oldest first, at most 64 (R23)
  ans : Option Answer           -- answer to the initiator of the last access command; none: a write that was taken
  pending : List Instr          -- the commands that wait, first in, first out
  deriving DecidableEq, Repr

/-- The device right after a power-on reset, as it leaves the factory: in BOOT with CAUSE = POWERON, every register at its reset
value, no page configured, nothing in OTP, MRAM or external memory but erased cells, no command waiting (R78, R530;
notes/assumptions/30). -/
def State.reset : State :=
  { mode := .boot, regs := [], applied := [], mem := [], free := 0, dirty := false, due := [], crossed := 0, lineHeld := 0, pwrTick := 0,
    msDone := 0, anaDone := 0,
    flt := { opened := [], level := [], held := [], aliveStop := false, kicked := false, nextA5 := false, kickOff := false,
             seq := 0, dropped := 0, queue := [], cell := [], wired := false },
    park := .none, tbs := 0, tb := TbsSt.init, ec := [], jxr := JxrSt.init, brg := BrgSt.init, can := [], lin := [],
    nmg := NmgSt.init, aonCopy := [], aonCopyOk := false, commits := [], pendKind := [], cmtClass := [], pmuPend := [], wk := WakeSt.init,
    fuseRec := none, committer := [], hpt := HptSt.init, sbp := SbpSt.init, imm := ImmSt.init, vlt := VltSt.init,
    upd := UpdSt.init, xsp := XspSt.init, jrn := JrnSt.init, spr := SprSt.init, hsc := [], hb := [], sol := [],
    sbk := SbkSt.init, lst := [], lmx := LmxSt.init, frmc := FrmcSt.init, lch := [], rfxLoaded := false, rfxRun := 0, rfxHist := 0,
    holdAct := false, swiPins := 0, swiDeb := 0, swiClean := 0, govLog := [], govShed := [], govSince := [0, 0, 0, 0], govPkgDie := 0,
    tcmBad := 0, dmaHeld := 0, dmaSrc := [], dmaDst := [], dmaLeft := [], winBank := [], msqFifo := [], ans := none, pending := [] }

end Sys2Proof.Machine
end

