-- ==== Sys2Proof/Machine/Ops.lean ====
section
/-! DEFINITION. The named operations over memory, stores, register words and fields: the one place where a word is cut into
fields, a sparse store is read and written, and bytes are joined into words. -/

namespace Sys2Proof.Machine

/-! ### Sparse stores -/

/-- The value at key `i`: the listed one, else the default of the key. -/
def storeGet {α : Type} (d : Nat → α) : Store α → Nat → α
  | [], i => d i
  | (k, v) :: m, i => if k = i then v else if i < k then d i else storeGet d m i

/-- `v` at key `i`, every other key unchanged; a value equal to the default is not listed. -/
def storeSet {α : Type} [DecidableEq α] (d : Nat → α) : Store α → Nat → α → Store α
  | [], i, v => if v = d i then [] else [(i, v)]
  | (k, w) :: m, i, v =>
    if i < k then (if v = d i then (k, w) :: m else (i, v) :: (k, w) :: m)
    else if i = k then (if v = d i then m else (i, v) :: m)
    else (k, w) :: storeSet d m i v

/-- The canonical form above a bound: keys strictly rising from `lo`, no entry equal to its default. -/
def storeWfFrom {α : Type} [DecidableEq α] (d : Nat → α) : Nat → Store α → Bool
  | _, [] => true
  | lo, (k, v) :: m => decide (lo ≤ k) && decide (v ≠ d k) && storeWfFrom d (k + 1) m

/-- The canonical form of a store. -/
def storeWf {α : Type} [DecidableEq α] (d : Nat → α) (m : Store α) : Bool := storeWfFrom d 0 m

/-- Only the entries whose key satisfies `p`: every other key returns to its default. -/
def storeKeep {α : Type} (p : Nat → Bool) (m : Store α) : Store α := m.filter fun e => p e.1

/-- `f` applied to the value at key `i`. -/
def storeMod {α : Type} [DecidableEq α] (d : Nat → α) (m : Store α) (i : Nat) (f : α → α) : Store α :=
  storeSet d m i (f (storeGet d m i))

/-! ### Bytes of memory -/

/-- Key of external byte 0 among the byte memories: the 4 GB of external memory lie above the device's own addresses. -/
def extBase : Nat := 0x100000000

/-- What an unlisted byte of memory reads as: external memory erased, every other byte 0 (notes/assumptions/1, DESIGN CHOICE). -/
def memDefault (a : Nat) : Byte := if extBase ≤ a then 0xFF else 0

/-- One byte of memory. -/
def memGet (m : List Host.Cell) (a : Nat) : Byte := storeGet memDefault m a

/-- One byte written. -/
def memSet (m : List Host.Cell) (a : Nat) (b : Byte) : List Host.Cell := storeSet memDefault m a b

/-- The memory is in its canonical form. -/
def Memory.wf (m : List Host.Cell) : Bool := storeWf memDefault m

/-- Consecutive bytes written from address `a`. -/
def memSetList : List Host.Cell → Nat → List Byte → List Host.Cell
  | m, _, [] => m
  | m, a, b :: bs => memSetList (memSet m a b) (a + 1) bs

/-- `n` consecutive bytes from address `a`. -/
def memGetList (m : List Host.Cell) (a : Nat) : Nat → List Byte
  | 0 => []
  | n + 1 => memGet m a :: memGetList m (a + 1) n

/-- The four bytes of a word, least significant first. -/
def wordBytes (w : Word) : List Byte :=
  [w.extractLsb' 0 8, w.extractLsb' 8 8, w.extractLsb' 16 8, w.extractLsb' 24 8]

/-- The number that bytes spell, least significant first. -/
def bytesToNat : List Byte → Nat
  | [] => 0
  | b :: bs => b.toNat + 256 * bytesToNat bs

/-- The `n` low bytes of a number, least significant first. -/
def natToBytes : Nat → Nat → List Byte
  | 0, _ => []
  | n + 1, v => BitVec.ofNat 8 v :: natToBytes n (v / 256)

/-- The 32-bit word at address `a`, least significant byte first. -/
def memWord (m : List Host.Cell) (a : Nat) : Word := BitVec.ofNat 32 (bytesToNat (memGetList m a 4))

/-- A 32-bit word stored at address `a`, least significant byte first. -/
def memSetWord (m : List Host.Cell) (a : Nat) (w : Word) : List Host.Cell := memSetList m a (wordBytes w)

/-- A block of bytes returned to what unlisted memory reads as. -/
def memClear (m : List Host.Cell) (lo hi : Nat) : List Host.Cell := storeKeep (fun k => k < lo || hi ≤ k) m

/-! ### Fields of words -/

/-- The unsigned value of bits `hi:lo` of a word. -/
def fget (w : Word) (f : Fld) : Nat := (w.toNat >>> f.lo) % 2 ^ (f.hi + 1 - f.lo)

/-- The word with bits `hi:lo` replaced by the low bits of `v`. -/
def fset (w : Word) (f : Fld) (v : Nat) : Word :=
  BitVec.ofNat 32 (w.toNat - fget w f * 2 ^ f.lo + (v % 2 ^ (f.hi + 1 - f.lo)) * 2 ^ f.lo)

/-- Bit `b` of a word. -/
def bitOf (w : Word) (b : Nat) : Bool := w.toNat.testBit b

/-- The word with bit `b` set or cleared. -/
def setBit (w : Word) (b : Nat) (v : Bool) : Word := fset w ⟨0, b, b⟩ v.toNat

/-- The value of an `n`-bit two's complement code. -/
def sext (n v : Nat) : Int := if v < 2 ^ (n - 1) then (v : Int) else (v : Int) - 2 ^ n

/-- The `n`-bit two's complement code of an integer. -/
def twos (n : Nat) (v : Int) : Nat := (v % (2 ^ n : Int)).toNat

/-- An integer held within bounds. -/
def clampInt (lo hi v : Int) : Int := if v < lo then lo else if hi < v then hi else v

/-- A count that saturates at `top`. -/
def satInc (top n : Nat) : Nat := if n < top then n + 1 else top

/-- Round to nearest of `a / b`, ties up. -/
def roundDiv (a b : Nat) : Nat := if b = 0 then 0 else (2 * a + b) / (2 * b)

/-! ### CRCs -/

/-- One bit step of the reflected CRC-32 of R41. -/
def crc32Bit (c : Nat) : Nat := if c % 2 = 1 then (c / 2) ^^^ 0xEDB88320 else c / 2

/-- One byte of the CRC-32 of R41 (polynomial 0x04C1_1DB7, reflected). -/
def crc32Byte (c : Nat) (b : Byte) : Nat :=
  crc32Bit (crc32Bit (crc32Bit (crc32Bit (crc32Bit (crc32Bit (crc32Bit (crc32Bit (c ^^^ b.toNat))))))))

/-- The CRC-32 of R41: initial value and final XOR all ones. -/
def crc32 (bs : List Byte) : Word := BitVec.ofNat 32 ((bs.foldl crc32Byte 0xFFFFFFFF) ^^^ 0xFFFFFFFF)

/-! ### Pages -/

/-- The block of a page and its first page (02, R57 Table 12); none: reserved. -/
def blkOf (p : Nat) : Option (Blk × Nat) :=
  if p < 0x10 then
    some (match p with
      | 0 => (.DEV, 0) | 1 => (.PMU, 1) | 2 => (.CLK, 2) | 3 => (.RST, 3) | 4 => (.FLT, 4) | 5 => (.PROT, 5)
      | 6 => (.VLT, 6) | 7 => (.UPD, 7) | 8 => (.HPT, 8) | 9 => (.SBP, 9) | 10 => (.BRG, 10) | 11 => (.JXR, 11)
      | 12 => (.NMG, 12) | 13 => (.TBS, 13) | 14 => (.EVF, 14) | _ => (.DMA, 15))
  else if p < 0x14 then some (.CAN, 0x10)
  else if p < 0x1A then some (.LIN, 0x14)
  else if p < 0x20 then
    some (match p with
      | 0x1A => (.IMM, 0x1A) | 0x1B => (.LFA, 0x1B) | 0x1C => (.SWI, 0x1C) | 0x1D => (.RFX, 0x1D)
      | 0x1E => (.MSQ, 0x1E) | _ => (.GOV, 0x1F))
  else if p < 0x68 then some (.HSC, 0x20)
  else if p < 0x74 then some (.HB, 0x68)
  else if p < 0x84 then some (.SOL, 0x74)
  else if p = 0x84 then some (.SBK, 0x84)
  else if p < 0x88 then none
  else if p < 0x8C then some (.LST, 0x88)
  else if p = 0x8C then some (.LMX, 0x8C)
  else if p < 0x91 then some (.LCH, 0x8D)
  else if p = 0x91 then some (.FRMC, 0x91)
  else if p < 0x98 then none
  else if p = 0x98 then some (.XSP, 0x98)
  else if p = 0x99 then some (.JRN, 0x99)
  else if p = 0x9A then some (.SPR, 0x9A)
  else if p < 0xA0 then none
  else if p < 0xA4 then some (.EC, 0xA0)
  else if p = 0xB0 then some (.MBX, 0xB0)
  else none

/-- Fixed properties of a page: RSE, ACPER, ACMODE and FSRC of PCAP (02 Table 3 and the page sections), and its domain. -/
structure PageCap where
  rse : Bool
  acper : Bool
  acmode : Bool
  fsrc : Nat
  dom : Dom
  deriving DecidableEq, Repr

/-- PCAP and the clock domain of page `p` (01 Table 5, 02 Table 12; notes/assumptions/10 for DEV, CLK and EVF). -/
def pageCap (p : Nat) : PageCap :=
  match (blkOf p).map Prod.fst with
  | some .DEV => ⟨false, false, false, 0x00, .sys⟩
  | some .PMU => ⟨false, false, true, 0x80, .aon⟩
  | some .CLK => ⟨false, false, false, 0x00, .sys⟩
  | some .RST => ⟨false, false, true, 0x80, .sys⟩
  | some .FLT => ⟨true, false, true, 0xBF, .pwr⟩
  | some .PROT => ⟨false, false, false, 0x81, .sys⟩
  | some .VLT => ⟨false, false, true, 0xBF, .sys⟩
  | some .UPD => ⟨false, false, true, 0x87, .sys⟩
  | some .HPT => ⟨false, false, true, 0x8F, .sys⟩
  | some .SBP => ⟨false, false, true, 0x87, .sys⟩
  | some .BRG => ⟨false, false, true, 0xFF, .sys⟩
  | some .JXR => ⟨false, false, true, 0xFF, .ring⟩
  | some .NMG => ⟨false, false, true, 0x87, .bus⟩
  | some .TBS => ⟨false, false, true, 0x87, .bus⟩
  | some .EVF => ⟨true, false, false, 0x03, .sys⟩
  | some .DMA => ⟨false, false, true, 0x83, .sys⟩
  | some .CAN => ⟨true, false, true, if p < 0x12 then 0xBF else 0xB7, .bus⟩
  | some .LIN => ⟨true, false, true, 0x8F, .bus⟩
  | some .IMM => ⟨false, false, true, 0xFF, .sys⟩
  | some .LFA => ⟨false, false, true, 0x9F, .lf⟩
  | some .SWI => ⟨false, true, true, 0x87, .pwr⟩
  | some .RFX => ⟨false, false, true, 0x81, .pwr⟩
  | some .MSQ => ⟨false, true, true, 0xBF, .pwr⟩
  | some .GOV => ⟨true, true, true, 0xFF, .pwr⟩
  | some .HSC => ⟨false, true, true, 0xFF, .pwr⟩
  | some .HB => ⟨false, true, true, 0xFF, .pwr⟩
  | some .SOL => ⟨false, true, true, 0xFF, .pwr⟩
  | some .SBK => ⟨false, true, true, 0x9F, .pwr⟩
  | some .LST => ⟨false, true, true, 0xFF, .bus⟩
  | some .LMX => ⟨false, true, true, 0xDF, .bus⟩
  | some .LCH => ⟨false, true, true, 0x83, .bus⟩
  | some .FRMC => ⟨false, false, true, 0x87, .bus⟩
  | some .XSP => ⟨false, false, true, 0x9F, .sys⟩
  | some .JRN => ⟨true, false, true, 0x83, .sys⟩
  | some .SPR => ⟨false, false, true, 0x8F, .sys⟩
  | some .EC => ⟨false, false, true, if p = 0xA1 then 0x81 else 0xBE, .sys⟩
  | some .MBX => ⟨true, false, true, 0x81, .sys⟩
  | none => ⟨false, false, false, 0, .sys⟩

/-- The register map of a block. -/
def regMap : Blk → List RegSpec
  | .DEV => regMapDEV | .PMU => regMapPMU | .CLK => regMapCLK | .RST => regMapRST | .FLT => regMapFLT
  | .PROT => regMapPROT | .VLT => regMapVLT | .UPD => regMapUPD | .HPT => regMapHPT | .SBP => regMapSBP
  | .BRG => regMapBRG | .JXR => regMapJXR | .NMG => regMapNMG | .TBS => regMapTBS | .EVF => regMapEVF
  | .DMA => regMapDMA | .CAN => regMapCAN | .LIN => regMapLIN | .IMM => regMapIMM | .LFA => regMapLFA
  | .SWI => regMapSWI | .RFX => regMapRFX | .MSQ => regMapMSQ | .GOV => regMapGOV | .HSC => regMapHSC
  | .HB => regMapHB | .SOL => regMapSOL | .SBK => regMapSBK | .LST => regMapLST | .LMX => regMapLMX
  | .LCH => regMapLCH | .FRMC => regMapFRMC | .XSP => regMapXSP | .JRN => regMapJRN | .SPR => regMapSPR
  | .EC => regMapEC | .MBX => regMapMBX

/-- The register map of page `p`: the map of its block; EC1 has no shadow fields (13, EC pages). -/
def pageMap (p : Nat) : List RegSpec :=
  match blkOf p with
  | some (b, _) => if p = 0xA1 then [] else regMap b
  | none => []

/-- `r` describes a field of the word at page offset `off`. -/
def RegSpec.at (r : RegSpec) (off : Nat) : Bool :=
  decide (r.off ≤ off) &&
    (if r.stride = 0 then decide (off = r.off)
     else decide ((off - r.off) % r.stride = 0) && decide ((off - r.off) / r.stride < r.cnt))

/-- The fields of the word at page offset `off`. -/
def fieldsAt (p off : Nat) : List RegSpec := (pageMap p).filter fun r => r.at off

/-- The mask of the bits that `r` occupies. -/
def RegSpec.mask (r : RegSpec) : Nat := (2 ^ (r.hi + 1 - r.lo) - 1) * 2 ^ r.lo

/-- The bits of the word whose access code satisfies `q`. -/
def accMask (p off : Nat) (q : Acc → Bool) : Nat :=
  (fieldsAt p off).foldl (fun m r => if q r.acc then m ||| r.mask else m) 0

/-- Key of the word at byte offset `off` of page `p`. -/
def rkey (p off : Nat) : Nat := p * 1024 + off / 4

/-- The reset value of a register word, from the reset columns of the register tables; the values that differ
from page to page: HSC.SEG.ACTIVE by class (05 Table 11), IMM.POLL by step (19 Table 6). -/
def regReset (k : Nat) : Word :=
  let p := k / 1024
  let off := k % 1024 * 4
  let base := (fieldsAt p off).foldl (fun m r => m ||| (r.rst <<< r.lo)) 0
  if 0x20 ≤ p ∧ p < 0x68 ∧ off = 0x120 then (if p < 0x40 then 0xFF else 0x0F)
  else if p = 0x1A ∧ 0x840 ≤ off ∧ off < 0x860 then
    BitVec.ofNat 32 (match (off - 0x840) / 4 with | 0 => 60 * 65536 + 5 | 1 => 1440 * 65536 + 20 | 2 => 10080 * 65536 + 160 | _ => 0)
  else BitVec.ofNat 32 base

/-! ### Register words of a state -/

/-- The stored word at offset `off` of page `p` (header, live or shadow). -/
def rd (s : State) (p off : Nat) : Word := storeGet regReset s.regs (rkey p off)

/-- The stored word replaced. -/
def wr (s : State) (p off : Nat) (w : Word) : State := { s with regs := storeSet regReset s.regs (rkey p off) w }

/-- A field of a stored word. -/
def getF (s : State) (p : Nat) (f : Fld) : Nat := fget (rd s p f.off) f

/-- A field of a stored word replaced. -/
def setF (s : State) (p : Nat) (f : Fld) (v : Nat) : State := wr s p f.off (fset (rd s p f.off) f v)

/-- A one-bit field is set. -/
def isSet (s : State) (p : Nat) (f : Fld) : Bool := getF s p f ≠ 0

/-- A one-bit field replaced. -/
def setFlag (s : State) (p : Nat) (f : Fld) (b : Bool) : State := setF s p f b.toNat

/-- A word of the configuration in force (R38: the reset values until a commit has applied). -/
def cfgW (s : State) (p off : Nat) : Word := storeGet regReset s.applied (rkey p off)

/-- A field of the configuration in force. -/
def cfg (s : State) (p : Nat) (f : Fld) : Nat := fget (cfgW s p f.off) f

/-- A one-bit field of the configuration in force is set. -/
def cfgOn (s : State) (p : Nat) (f : Fld) : Bool := cfg s p f ≠ 0

/-! ### The page header (02, Tables 1 to 7) -/

def H.FOFF : Fld := ⟨0x008, 25, 16⟩
def H.CMTDONE : Fld := ⟨0x008, 12, 12⟩
def H.CRES : Fld := ⟨0x008, 11, 8⟩
def H.LOCKED : Fld := ⟨0x008, 7, 7⟩
def H.WERR : Fld := ⟨0x008, 5, 5⟩
def H.CST : Fld := ⟨0x008, 3, 2⟩
def H.APPLY : Fld := ⟨0x00C, 7, 6⟩
def H.ENABLE : Fld := ⟨0x00C, 0, 0⟩
def H.EPOCH : Fld := ⟨0x010, 15, 0⟩
def H.PCRC : Fld := ⟨0x014, 31, 0⟩
def H.PFLT : Fld := ⟨0x018, 7, 0⟩
def H.PFORCE : Fld := ⟨0x01C, 7, 0⟩
def H.PIRQ : Fld := ⟨0x020, 9, 0⟩

/-- DEV, CLK, EVF and SBP are always enabled and run without a commit (03, 01, 13, 17). -/
def alwaysOn (p : Nat) : Bool := p = 0x00 || p = 0x02 || p = 0x0E || p = 0x09

/-- PCTL.ENABLE of a page. -/
def enabled (s : State) (p : Nat) : Bool := alwaysOn p || isSet s p H.ENABLE

/-- The page has accepted a commit (PEPOCH ≠ 0). -/
def configured (s : State) (p : Nat) : Bool := getF s p H.EPOCH ≠ 0

/-- A block without outputs is in its disabled state: its ENABLE is clear, and it has been configured (R509); with PEPOCH = 0 it
acts under its reset values (R38, notes/assumptions/11). -/
def blockOff (s : State) (p : Nat) : Bool := configured s p && !enabled s p

/-- A rejected write: WERR set, FOFF names the word (02 Table 4). -/
def werr (s : State) (p off : Nat) : State := setFlag (setF s p H.FOFF (off / 4)) p H.WERR true

/-- A free value of the manual's and the counter that the next one takes (notes/assumptions/2). -/
def freshNat (s : State) (bound : Nat) : State × Nat :=
  ({ s with free := s.free + 1 }, Config.freeNat s.free % bound)

/-! ### The active slot -/

/-- The slot that was chosen at boot; none before the ROM has chosen it, in recovery and in the tamper hold (R29). -/
def activeSlot (s : State) : Option Nat := if s.upd.chosen then some (getF s 0x03 R.RST.BOOT.SLOT) else none

/-- One byte of the SMBus CRC-8: polynomial 0x07. -/
def crc8Byte (c : Nat) (b : Byte) : Nat :=
  (List.range 8).foldl (fun c _ => if c.testBit 7 then (2 * c % 256) ^^^ 0x07 else 2 * c) (c ^^^ b.toNat)

/-- The PEC (R397). -/
def pec (l : List Byte) : Byte := BitVec.ofNat 8 (l.foldl crc8Byte 0)

/-! ### Decay over a sleep (R128) -/

/-- b^k in units of 2^-64, each product rounded down. -/
def fixPow (b : Nat) : Nat → Nat
  | 0 => 2 ^ 64
  | k + 1 => b * fixPow b k / 2 ^ 64

/-- e^(−num/den) in units of 2^-64: the whole part by powers of e^-1, the rest by 24 terms of the series. -/
def expNeg (num den : Nat) : Nat :=
  let r := num % den
  let frac := (List.range 24).foldl (fun t i => 2 ^ 64 - t * r / (den * (24 - i))) (2 ^ 64)
  if decide (64 ≤ num / den) then 0 else fixPow 6786177901268885274 (num / den) * frac / 2 ^ 64

/-- What e^(−ds/τ) leaves of a rise after `ds` seconds (R128), τ = `tau` / 100 s, rounded down (DEDUCED, notes/assumptions/5). -/
def decayed (th ds tau : Nat) : Nat := if ds = 0 then th else th * expNeg (100 * ds) (max tau 1) / 2 ^ 64

end Sys2Proof.Machine
end

