-- ==== Sys2Proof/Machine/Events.lean ====
section
/-! DEFINITION. What every block shares: output numbers and power dies (01 Table 1, R279), SAFE values in force (R494), the
mode's permission (R60), reflex results, event lines and their captures and triggers (R302, R303, R307, R310), page
interrupts as levels (R541). -/

namespace Sys2Proof.Machine

/-- Where the demand of an output comes from. -/
inductive Origin where
  | none | cmd | reflex | safe
  deriving DecidableEq, Repr

/-- Page of output `o`: the reflex outputs 0–103 (R279), then LMX (104) and LCH0–LCH3 (105–108). -/
def outPage (o : Nat) : Nat :=
  if o < 72 then 0x20 + o else if o < 84 then 0x68 + (o - 72) else if o < 100 then 0x74 + (o - 84)
  else if o < 104 then 0x88 + (o - 100) else if o = 104 then 0x8C else 0x8D + (o - 105)

/-- Output number of an output page (HSC, HB, SOL, LST, LMX, LCH; R493). -/
def pageOut (p : Nat) : Option Nat :=
  if 0x20 ≤ p ∧ p < 0x68 then some (p - 0x20) else if 0x68 ≤ p ∧ p < 0x74 then some (p - 0x68 + 72)
  else if 0x74 ≤ p ∧ p < 0x84 then some (p - 0x74 + 84) else if 0x88 ≤ p ∧ p < 0x8C then some (p - 0x88 + 100)
  else if p = 0x8C then some 104 else if 0x8D ≤ p ∧ p < 0x91 then some (p - 0x8D + 105) else none

/-- Power die of an output page or of SBK: 0 H, 1 M, 2 L, 3 B (01 Table 1). -/
def pageDie (p : Nat) : Option Nat :=
  if 0x20 ≤ p ∧ p < 0x28 then some 0 else if 0x28 ≤ p ∧ p < 0x40 then some 1
  else if 0x40 ≤ p ∧ p < 0x68 then some 2 else if 0x68 ≤ p ∧ p < 0x74 then some 3
  else if 0x74 ≤ p ∧ p < 0x85 then some 2 else if 0x88 ≤ p ∧ p < 0x91 then some 3 else none

/-- The open source `id` at class `c` brings the SAFE value of page `p`'s output into force (R493, R494). -/
def safeShare (id c p : Nat) : Bool :=
  let q := id / 8
  (decide (2 ≤ c) && q = p && (pageOut q).isSome) ||
    (decide (3 ≤ c) && (pageDie q).isSome && pageDie q = pageDie p)

/-- The SAFE value of output `o` is in force: in LIMP, and while an open event of class C2 or above brought it (R116, R494). -/
def safeInForce (s : State) (o : Nat) : Bool :=
  s.mode = .limp || s.flt.opened.any fun e => safeShare e.1 e.2 (outPage o)

/-- Park entry holds every output off, from its t0 to t3 or to its refusal (R60, R66). -/
def parkHolds (s : State) : Bool := s.park ≠ .none

/-- mode_permits of R14 for a demand of the given origin (R60 Table 1, R283 Table 8); from a reset until the reflex loader completes
every gate is off (R79). -/
def modePermits (s : State) (o : Origin) : Bool :=
  !parkHolds s && s.rfxLoaded &&
    match s.mode with
    | .run => true
    | .limp => o = .safe || o = .reflex
    | .boot | .hold => o = .reflex
    | _ => false

/-- The reflex result of output `o` is ON (R282, RFX.DON). -/
def rfxOn (s : State) (o : Nat) : Bool := bitOf (rd s 0x1D (0x130 + 4 * (o / 32))) (o % 32)

/-- The reflex result of output `o` is OFF (RFX.DOFF). -/
def rfxOff (s : State) (o : Nat) : Bool := bitOf (rd s 0x1D (0x140 + 4 * (o / 32))) (o % 32)

/-- Output `o` is held shed by the governor (GOV.SHED, R289). -/
def shed (s : State) (o : Nat) : Bool := bitOf (rd s 0x1F (0x130 + 4 * (o / 32))) (o % 32)

/-- Domains that have power in the present mode (R60 Table 1; LISTEN powers BUS). -/
def domOn (s : State) (d : Dom) : Bool :=
  match s.mode with
  | .off => false
  | .park | .watch => d = .aon
  | .listen => d = .aon || d = .bus
  | _ => true

/-- The device runs: SYS, PWR and BUS have power. -/
def running (s : State) : Bool := s.mode = .boot || s.mode = .hold || s.mode = .run || s.mode = .limp

/-- The SYS clock stands, as its monitor has found (R16): no crossing out of SYS or into it delivers anything new (R26). -/
def sysLost (s : State) : Bool := s.flt.level.contains 32

/-- The BUS clock stands: the last window counted none of its clocks (R34). -/
def busLost (s : State) : Bool := isSet s 0x02 R.CLK.STAT.BUSFAIL && getF s 0x02 R.CLK.BUSCNT.CNT = 0

/-- An access to page `p` cannot cross, because the SYS clock or the clock of the page's domain stands (R26). -/
def pageStands (s : State) (p : Nat) : Bool := sysLost s || ((pageCap p).dom = .bus && busLost s)

/-- Fault source `id` asserts: it is put behind the sources that FLT has still to collect in this command (R493). -/
def raise (s : State) (id : Nat) : State := { s with due := s.due ++ [⟨id, false, []⟩] }

/-- Fault source `b` of page `p` asserts (R54). -/
def raiseP (s : State) (p b : Nat) : State := raise s (p * 8 + b)

/-- A fault source asserts with the DETAIL bytes of its record (R144). -/
def raiseDetail (s : State) (id : Nat) (det : List Byte) : State := { s with due := s.due ++ [⟨id, false, det⟩] }

/-- A level source's condition starts to stand: it asserts (R543). -/
def assertLevel (s : State) (id : Nat) : State :=
  if s.flt.level.contains id then s
  else raise { s with flt := { s.flt with level := s.flt.level ++ [id] } } id

/-- A level source's condition ends (R543). -/
def releaseLevel (s : State) (id : Nat) : State :=
  { s with flt := { s.flt with level := s.flt.level.filter (· ≠ id) } }

/-- PFORCE holds TLATCH or DTEMP of an output page (R55): the latch is as good as set. -/
def latchForced (s : State) (p : Nat) : Bool := (getF s p H.PFORCE &&& 0x0C) ≠ 0

/-- What the reflex rules and the outputs look at has changed: they are evaluated again before the command ends. -/
def touch (s : State) : State := { s with dirty := true }

/-! ### Cores -/

/-- The initiator that a core is. -/
def coreWho : EcCore → Who
  | .app => .app | .ec2 => .ec2 | .ec3 => .ec3

/-- The page of a core, EC0's for the pair. -/
def corePg : EcCore → Nat
  | .app => 0xA0 | .ec2 => 0xA2 | .ec3 => 0xA3

def coreDefault (_ : Nat) : CoreSt := CoreSt.init
def coreGet (s : State) (k : EcCore) : CoreSt := storeGet coreDefault s.ec (corePg k)
def coreSet (s : State) (k : EcCore) (c : CoreSt) : State := { s with ec := storeSet coreDefault s.ec (corePg k) c }

/-! ### Measurement slices (R146, R147) -/

/-- What a slice of MSQ serves (07 Table 1). -/
inductive MsqSource where
  | hscCurrent | hscVout | protSense | temperature | hbCurrent | supply | led | switchAnalog | wear | coil | window (on3 : Bool)
  deriving DecidableEq, Repr

/-- The slice that serves a source (07 Table 1; the coil pairs of R215 on slice 3); a valve closing window is on slice 2 or 3 (R206). -/
def MsqSource.slice : MsqSource → Nat
  | .hscCurrent | .hscVout => 0
  | .protSense | .temperature => 1
  | .coil | .window true => 3
  | _ => 2

/-- Slice `k` has failed and the spare does not stand in for it (R147). -/
def sliceDead (s : State) (k : Nat) : Bool := (getF s 0x1E R.MSQ.STAT.SFAIL).testBit k && s.spr.slice ≠ some k

/-- A source gets fresh samples (R147). -/
def msqFresh (s : State) (m : MsqSource) : Bool := !sliceDead s m.slice

/-! ### Event lines -/

/-- The pages of the cores that hold event bits: EC0 for the pair, EC2, EC3 (R294, R302). -/
def corePages : List Nat := [0xA0, 0xA2, 0xA3]

/-- Line `k` set pending in the core of page `p`; found set, its overrun bit is set (R302). -/
def pendLine (s : State) (p k : Nat) : State :=
  let w := rd s p (0x108 + 4 * (k / 32))
  if bitOf w (k % 32) then
    wr s p (0x110 + 4 * (k / 32)) (setBit (rd s p (0x110 + 4 * (k / 32))) (k % 32) true)
  else wr s p (0x108 + 4 * (k / 32)) (setBit w (k % 32) true)

/-- The event capture of TBS (R307). -/
def tbsEventCapture (s : State) (k : Nat) : State :=
  if cfg s 0x0D R.TBS.CFG.ECSEL ≠ k then s
  else
    let s := if isSet s 0x0D R.TBS.STAT.ECVALID then setFlag s 0x0D R.TBS.STAT.ECOVR true else s
    let s := setF (setF s 0x0D R.TBS.ECAPL.CNT (s.tbs % 2 ^ 32)) 0x0D R.TBS.ECAPH.CNT (s.tbs / 2 ^ 32)
    setFlag s 0x0D R.TBS.STAT.ECVALID true

/-- A raise of the TRIG line of DMA channel `c`: a waiting channel starts a block; a raise during a block is held, one only;
a further one is lost and raises TOVR (R309, R310). -/
def dmaTrigger (s : State) (c : Nat) : State :=
  if isSet s 0x0F (R.DMA.STAT.BUSY c) then
    if bitOf (BitVec.ofNat 32 s.dmaHeld) c then raiseP (setFlag s 0x0F (R.DMA.STAT.TOVR c) true) 0x0F 1
    else { s with dmaHeld := s.dmaHeld ||| 2 ^ c }
  else if !blockOff s 0x0F && cfgOn s 0x0F (R.DMA.CFG.EN c) then
    let s := if isSet s 0x0F (R.DMA.STAT.WAIT c) then s else dmaBegin s c
    setFlag (setFlag s 0x0F (R.DMA.STAT.WAIT c) false) 0x0F (R.DMA.STAT.BUSY c) true
  else s
where
  /-- A channel that is not in progress starts from SRC, DST and NBLK. -/
  dmaBegin (s : State) (c : Nat) : State :=
    let s := setF s 0x0F (R.DMA.STAT.BLEFT c) (cfg s 0x0F (R.DMA.CNT.NBLK c))
    { s with dmaSrc := storeSet (fun _ => 0) s.dmaSrc c (cfg s 0x0F (R.DMA.SRC.ADDR c)),
             dmaDst := storeSet (fun _ => 0) s.dmaDst c (cfg s 0x0F (R.DMA.DST.ADDR c)) }

/-- Line `k` crosses into SYS: a hardware line of a block outside SYS (R24, R303; the bridge, which raises EV62 here, is a SYS block). -/
def lineCrosses (k : Nat) : Bool := decide (16 ≤ k) && k ≠ 17 && (decide (k < 48) || decide (56 ≤ k)) && decide (k < 62)

/-- A raise merges in the crossing: its OVR bit, and source OVR once (R24, R302; notes/assumptions/58). -/
def lineMerge (s : State) (k : Nat) : State :=
  let s := wr s 0x0E (0x108 + 4 * (k / 32)) (setBit (rd s 0x0E (0x108 + 4 * (k / 32))) (k % 32) true)
  if s.crossed.testBit 64 then s else raiseP { s with crossed := s.crossed + 2 ^ 64 } 0x0E 0

/-- A raise of event line `k`: pending in every core, captured, and a trigger of the DMA channels that name it (R302, R307, R309); a
second one of a line that crosses merges with the first one of the command (R24). While the SYS clock stands a line waits in its
crossing, where a second raise merges too (R24, R26). -/
def raiseLine (s : State) (k : Nat) : State :=
  if !running s then s
  else if lineCrosses k && sysLost s then
    if s.lineHeld.testBit k then lineMerge s k else { s with lineHeld := s.lineHeld ||| 2 ^ k }
  else if lineCrosses k && s.crossed.testBit k then lineMerge s k
  else
    let s := if lineCrosses k then { s with crossed := s.crossed + 2 ^ k } else s
    let s := corePages.foldl (fun s p => pendLine s p k) s
    let s := tbsEventCapture s k
    (List.range 16).foldl (fun s c => if cfg s 0x0F (R.DMA.CFG.TRIG c) = k then dmaTrigger s c else s) s

/-! ### The log of the spare manager (R519) -/

/-- An entry of SPR.LOG, newest first; `kind` is the row of 23 Table 1, from 0. -/
def sprEntry (s : State) (kind what : Nat) : State :=
  let n := getF s 0x9A R.SPR.LOGN.N
  let s := (List.range 15).foldl (fun s i => wr s 0x9A (0x140 + 4 * (15 - i)) (rd s 0x9A (0x140 + 4 * (14 - i)))) s
  setF (wr s 0x9A 0x140 (BitVec.ofNat 32 (kind * 2 ^ 28 + what % 2 ^ 28))) 0x9A R.SPR.LOGN.N (min 16 (n + 1))

/-- A substitution is logged and raises SUBST. -/
def sprLog (s : State) (kind what : Nat) : State := raiseP (sprEntry s kind what) 0x9A 0

/-- A kind has no spare left: a further failure raises EXHAUST. -/
def sprExhaust (s : State) (kind : Nat) : State :=
  raiseP (setF s 0x9A R.SPR.STAT.EXH (getF s 0x9A R.SPR.STAT.EXH ||| 2 ^ kind)) 0x9A 1

/-- With SPR disabled a failure found is logged and raises EXHAUST; no substitution is made (R509). -/
def sprDisabled (s : State) (kind what : Nat) : State := raiseP (sprEntry s kind what) 0x9A 1

/-! ### Page interrupts -/

/-- The page interrupt of page `p` is asserted (R541). -/
def pageIrq (s : State) (p : Nat) : Bool :=
  let q := getF s p H.PIRQ
  (q.testBit 9 && isSet s p H.WERR) || (q.testBit 8 && isSet s p H.CMTDONE) || (getF s p H.PFLT &&& q &&& 0xFF) ≠ 0

end Sys2Proof.Machine
end

