-- ==== Sys2Proof/Machine/Hsc.lean ====
section
/-! DEFINITION. High-side channels: demand, modes, pulse generator and supply compensation (05), the wire model and the
conditions of a restart (06), diagnostic results (07). What raises a fault source is in Trips.lean. -/

namespace Sys2Proof.Machine

/-! ### Fixed properties of a channel (05 Table 1, 06 Tables 1 and 2) -/

/-- Page of channel `n`. -/
def hscPage (n : Nat) : Nat := 0x20 + n

/-- Class of channel `n`: 0 H, 1 M, 2 L (R97). -/
def hscClass (n : Nat) : Nat := if n < 8 then 0 else if n < 32 then 1 else 2

/-- Power die of channel `n`, the class's own: 0 H, 1 M, 2 L (R97). -/
def hscDie (n : Nat) : Nat := hscClass n

/-- Normal-range current LSB in mA by class (05 Table 1). -/
def hscLsb (n : Nat) : Nat := match hscClass n with | 0 => 10 | 1 => 4 | _ => 1

/-- Protection sense LSB in mA by class (R123). -/
def hscProtLsb (n : Nat) : Nat := match hscClass n with | 0 => 30 | 1 => 15 | _ => 5

/-- Typical on-resistance at 25 °C in µΩ by class (05 Table 2). -/
def hscRon25 (n : Nat) : Nat := match hscClass n with | 0 => 4000 | 1 => 15000 | _ => 55000

/-- Main segments of the class (R98). -/
def hscSegs (n : Nat) : Nat := if hscClass n = 2 then 4 else 8

/-- PWR clocks per period of frequency group `g` (R102 Table 4). -/
def grpClocks (g : Nat) : Nat :=
  match g with | 0 => 800000 | 1 => 400000 | 2 => 200000 | 3 => 80000 | 4 => 40000 | 5 => 16000 | 6 => 8000 | _ => 3200

/-- A period of group `g` starts now (R102, R545): in each of the 10 ms that begin on the first PWR tick and on every hundredth after it,
at every multiple of its length; the event may come before or after FUSE_ENGINE_TICK (notes/assumptions/83). -/
def grpStart (s : State) (g : Nat) : Bool := let k := grpClocks g / 8000; decide (k ≤ 1) || decide (s.pwrTick % k < 2)

/-- Clock `c` of a period of group `g` falls in the present tick (R103, R545), or on the edge to the next. -/
def grpClock (s : State) (g c : Nat) : Bool :=
  let k := grpClocks g / 8000
  decide (k ≤ 1) || decide ((s.pwrTick + k - 1) % k = c / 8000) || (decide (c % 8000 = 0) && decide (s.pwrTick % k = c / 8000))

/-- Frequency of group `g` in Hz (R102 Table 4). -/
def grpHz (g : Nat) : Nat :=
  match g with | 0 => 100 | 1 => 200 | 2 => 400 | 3 => 1000 | 4 => 2000 | 5 => 5000 | 6 => 10000 | _ => 25000

/-- τ in seconds (06 Table 1). -/
def wireTau (xsec : Nat) : Nat :=
  match xsec with | 0 => 29 | 1 => 36 | 2 => 48 | 3 => 55 | 4 => 72 | 5 => 95 | 6 => 129 | _ => 162

/-- K in 10⁻⁵ K/A² (06 Table 1). -/
def wireK (xsec ins : Nat) : Nat :=
  if ins = 0 then
    match xsec with
    | 0 => 97120 | 1 => 64340 | 2 => 39540 | 3 => 27150 | 4 => 16940 | 5 => 8618 | 6 => 4713 | _ => 2723
  else
    match xsec with
    | 0 => 102840 | 1 => 68130 | 2 => 41870 | 3 => 28750 | 4 => 17940 | 5 => 9126 | 6 => 4990 | _ => 2883

/-- I_R in 10 mA (06 Table 1). -/
def wireIR (xsec ins : Nat) : Nat :=
  if ins = 0 then
    match xsec with
    | 0 => 908 | 1 => 1115 | 2 => 1422 | 3 => 1717 | 4 => 2173 | 5 => 3047 | 6 => 4120 | _ => 5420
  else
    match xsec with
    | 0 => 986 | 1 => 1212 | 2 => 1545 | 3 => 1865 | 4 => 2361 | 5 => 3310 | 6 => 4477 | _ => 5889

/-- Bundle factor B in hundredths (06 Table 2). -/
def wireB (code : Nat) : Nat := match code with | 0 => 100 | 1 => 125 | 2 => 160 | _ => 200

/-- Inrush window: length in ms and the factor M (06 Table 3). -/
def inrush (code : Nat) : Nat × Nat :=
  match code with
  | 0 => (0, 1) | 1 => (10, 2) | 2 => (20, 2) | 3 => (20, 3) | 4 => (50, 3) | 5 => (50, 4) | 6 => (100, 4) | _ => (200, 4)

/-! ### The state of a channel -/

/-- The state of channel `n` beside its registers. -/
def hscGet (s : State) (n : Nat) : HscSt := storeGet (fun _ => HscSt.init) s.hsc n

/-- That state replaced. -/
def hscSet (s : State) (n : Nat) (c : HscSt) : State := { s with hsc := storeSet (fun _ => HscSt.init) s.hsc n c }

/-- Mode in force (05 Table 3). -/
def hscMode (s : State) (n : Nat) : Nat := cfg s (hscPage n) R.HSC.MODE.MODE

/-- The mode runs the pulse generator: PWM, BULB or LED (R100). -/
def hscGenMode (s : State) (n : Nat) : Bool := hscMode s n = 1 || hscMode s n = 2 || hscMode s n = 3

/-- Demand before SAFE values, and where it comes from (R99, R100, R282; R283 for the mode). -/
def hscPlainDemand (s : State) (n : Nat) : Demand × Origin :=
  let p := hscPage n
  if rfxOn s n then
    (if hscGenMode s n then .gen (cfg s p R.HSC.RFXD.DUTY) else .full, .reflex)
  else if rfxOff s n then (.none, .none)
  else if isSet s p R.HSC.CMD.ON && enabled s p then
    (if hscGenMode s n then .gen (getF s p R.HSC.DUTY.DUTY) else .full, .cmd)
  else (.none, .none)

/-- Demand under the SAFE value (R116 Table 10). -/
def hscSafeDemand (s : State) (n : Nat) : Demand × Origin :=
  let p := hscPage n
  match cfg s p R.HSC.SAFE.SAFE with
  | 0 => (.none, .none)
  | 1 => (.full, .safe)
  | 2 => ((hscGet s n).safeDem, .safe)
  | 3 =>
    if rfxOn s n then (if hscGenMode s n then .gen (cfg s p R.HSC.RFXD.DUTY) else .full, .reflex) else (.none, .none)
  | _ => (.gen (cfg s p R.HSC.SAFE.SAFEDUTY), .safe)

/-- The demand in force. -/
def hscDemand (s : State) (n : Nat) : Demand × Origin :=
  if safeInForce s n then hscSafeDemand s n else hscPlainDemand s n

/-- No trip, latch, lockout or asserted protection source (R14, R15, R138). -/
def hscProtPermits (s : State) (n : Nat) : Bool :=
  let c := (hscGet s n).prot
  !c.lockout && !c.latchT && !c.latchD && !c.tripped && (getF s (hscPage n) H.PFORCE &&& 0x6F) = 0

/-- HSC.STAT.STATE: the first state of Table 13 of 05 that applies (R119). -/
def hscStateCode (s : State) (n : Nat) : Nat :=
  let c := hscGet s n
  let d := hscDemand s n
  let held := d.1 ≠ .none && !modePermits s d.2
  if c.prot.latchT || c.prot.latchD || latchForced s (hscPage n) then 5
  else if c.prot.lockout then 6
  else if c.prot.tripped && (c.prot.rdly || d.1 ≠ .none) then 4
  else if parkHolds s || held then 8
  else if shed s n then 7
  else if c.charging then 3
  else if c.gen then 2
  else if c.on then 1
  else 0

/-- STAT after the state of the channel has changed. -/
def hscStat (s : State) (n : Nat) : State :=
  let p := hscPage n
  let d := hscDemand s n
  let s1 := setF s p R.HSC.STAT.STATE (hscStateCode s n)
  let s2 := setFlag s1 p R.HSC.STAT.SAFEACT (safeInForce s n)
  let s3 := setFlag s2 p R.HSC.STAT.RFXACT (d.2 = .reflex)
  setF s3 p R.HSC.STAT.RUSED (hscGet s n).prot.rused

/-- The channel's gate is driven on. -/
def hscGate (s : State) (n : Nat) : Bool := isSet s (hscPage n) R.HSC.STAT.GATE

/-- The gate turns on: an inrush window opens in BULB after 100 ms off or after an event (R130); a phase of an off-state check that
runs ends without a result (R155). -/
def hscGateOn (s : State) (n : Nat) : State :=
  let p := hscPage n
  let c := hscGet s n
  let opens := hscMode s n = 2 && cfg s p R.HSC.WIRE.INRA ≠ 0 && (c.offTicks ≥ 1000 || c.onFirst)
  let c := { c with window := c.window || opens, onFirst := false, ran := true, offTicks := 0,
                    edge := c.edge || !isSet s p R.HSC.STAT.GATE, phase := if c.phase = 3 then 3 else 0 }
  setFlag (hscSet s n c) p R.HSC.STAT.GATE true

/-- The gate turns off, or its off-time is prolonged; a phase 2 that waits for its off-time begins (R152). -/
def hscGateOff (s : State) (n : Nat) : State :=
  let c := hscGet s n
  let s := hscSet s n { c with phase := if c.phase = 3 then 2 else c.phase, edge := c.edge || hscGate s n }
  setFlag s (hscPage n) R.HSC.STAT.GATE false

/-- Latest unfiltered supply sample of the channel's die (R108). -/
def hscVdie (s : State) (n : Nat) : Nat := getF s 0x1E (R.MSQ.VDIE.CODE (hscDie n))

/-- The filtered supply V_f in 2^-16 of the 15 mV code; before the filter has had a sample, the latest unfiltered one (R108). -/
def hscVf (s : State) (n : Nat) : Nat := if (hscGet s n).vf = 0 then hscVdie s n * 65536 else (hscGet s n).vf

/-- Nominal current in mA by class (05 Table 1). -/
def hscNominal (n : Nat) : Nat := match hscClass n with | 0 => 20000 | 1 => 8000 | _ => 2000

/-- No pulse has a duty: the generator does not run. -/
def hscNoDuty (s : State) (n : Nat) : State :=
  setFlag (setF s (hscPage n) R.HSC.STAT.DEFF 0) (hscPage n) R.HSC.STAT.COMPSAT false

/-- The pulses that STRETCH and AVERAGE count start anew: their periods are consecutive (R156). -/
def HscSt.lowDutyReset (c : HscSt) : HscSt := { c with ldCnt := 0, stretched := false, avgSum := 0, avgClk := 0, avgBad := false }

/-- A period that holds no pulse below T_MIN: the run of AVERAGE is broken; STRETCH counts only such pulses and goes on (R156, DESIGN
CHOICE, notes/assumptions/87). -/
def HscSt.noShort (lds : Nat) (c : HscSt) : HscSt := if lds = 1 then { c with stretched := false } else c.lowDutyReset

/-- The channel stops conducting. -/
def hscStop (s : State) (n : Nat) : State :=
  let c := hscGet s n
  let s := hscSet s n { c.lowDutyReset with on := false, charging := false, gen := false, rem := 0, onClk := 0 }
  hscNoDuty (hscGateOff s n) n

/-- The channel starts to conduct on demand `d`: full on (a CAP channel with its charge phase, R110), or its generator
starts with remainder 0 and the supply filter at the latest sample (R103, R108; a charge phase starts its filter in the same way,
DESIGN CHOICE, notes/assumptions/24). -/
def hscStart (s : State) (n : Nat) (d : Demand) : State :=
  let c := hscGet s n
  match d with
  | .none => hscStop s n
  | .full =>
    let s := hscSet s n { c with on := true, gen := false, charging := hscMode s n = 4,
                                 vf := if hscMode s n = 4 then hscVdie s n * 65536 else c.vf }
    hscGateOn s n
  | .gen _ => hscSet s n { c with on := true, gen := true, charging := false, rem := 0, vf := hscVdie s n * 65536 }

/-- SAFE comes into force: the demand as it stands is latched for LAST (R116). -/
def hscSafeLatch (s : State) (n : Nat) : State :=
  if safeInForce s n && !isSet s (hscPage n) R.HSC.STAT.SAFEACT then
    setFlag (hscSet s n { hscGet s n with safeDem := (hscPlainDemand s n).1 }) (hscPage n) R.HSC.STAT.SAFEACT true
  else s

/-- The checks of a channel end where its state is LATCH, LOCKOUT or TRIP (R153). -/
def hscCheckEnd (s : State) (n : Nat) : State :=
  let st := hscStateCode s n
  if (hscGet s n).phase ≠ 0 && decide (4 ≤ st) && decide (st ≤ 6) then hscSet s n { hscGet s n with phase := 0 } else s

/-- The channel after anything that R14 looks at has changed: it starts, stops or changes between full and generated
conduction. A generated channel that turns fully on in CAP with its gate off switches on, with a charge phase; a charge phase ends
where CAP is no longer applied (R110). -/
def hscUpdate (s : State) (n : Nat) : State :=
  let s := hscSafeLatch s n
  let d := hscDemand s n
  let want := d.1 ≠ .none && modePermits s d.2 && !shed s n && hscProtPermits s n
  let c := hscGet s n
  let s :=
    if !want then (if c.on then hscStop s n else s)
    else if !c.on then hscStart s n d.1
    else
      match d.1 with
      | .full =>
        if c.gen then
          let charge := hscMode s n = 4 && !hscGate s n
          hscGateOn (hscNoDuty (hscSet s n { c.lowDutyReset with gen := false, rem := 0, charging := charge,
                                                                 vf := if charge then hscVdie s n * 65536 else c.vf }) n) n
        else if c.charging && hscMode s n ≠ 4 then hscSet s n { c with charging := false } else s
      | .gen _ => if c.gen then s else hscGateOff (hscStart s n d.1) n
      | .none => s
  hscStat (hscCheckEnd s n) n

/-! ### Supply compensation and the pulse generator (R103 to R109) -/

/-- The factor F with 16 fractional bits, or `none` where it is unbounded. `vf` is in 2^-16 of 15 mV, `vnom` and `vfwd` in
10 mV. -/
def compF (mode vnom vfwd vf : Nat) : Option Nat :=
  if mode = 2 then
    (if vf = 0 then none else some (roundDiv ((vnom * 10 * 65536) ^ 2 * 65536) ((vf * 15) ^ 2)))
  else if mode = 3 then
    let v := vf * 15
    let w := vfwd * 10 * 65536
    (if v ≤ w then none else some (roundDiv ((vnom - vfwd) * 10 * 65536 * 65536) (v - w)))
  else some 65536

/-- D_eff before the governor's trim, and COMPSAT (R109). -/
def compDuty (mode vnom vfwd vf d : Nat) : Nat × Bool :=
  if d = 0 then (0, false)
  else
    match compF mode vnom vfwd vf with
    | none => (4095, true)
    | some f => (min 4095 (roundDiv (d * f) 65536), decide (4095 * 65536 < d * f))

/-- Trim factor g of die `d` (R289). -/
def govTrim (s : State) (d : Nat) : Nat := getF s 0x1F (R.GOV.TRIM.G d)

/-- D_eff of channel `n` for demanded duty `d` after compensation and its clamp. -/
def hscDeffOf (s : State) (n d : Nat) : Nat × Bool :=
  let p := hscPage n
  compDuty (hscMode s n) (cfg s p R.HSC.COMP.VNOM) (cfg s p R.HSC.COMP.VFWD) (hscGet s n).vf d

/-- The trim that applies to the channel: 4096 in P0 (R289). -/
def hscG (s : State) (n : Nat) : Nat :=
  if cfg s (hscPage n) R.HSC.CFG.PRIO = 0 then 4096 else govTrim s (hscDie n)

/-- Typical minimum measurable on-time T_MIN in PWR clocks (R149 Table 2): t_don + 0.8 V_f / slew + t_en + 2 µs, at least
12 µs. -/
def hscTmin (s : State) (n : Nat) : Nat :=
  let cls := hscClass n
  let tdon := match cls with | 0 => 200 | 1 => 120 | _ => 64
  let ten := match cls with | 0 => 480 | 1 => 320 | _ => 160
  let mvPerUs := match cfg s (hscPage n) R.HSC.CFG.SLEW with | 0 => 500 | 1 => 1000 | 2 => 2000 | _ => 5000
  let edge := hscVf s n * 15 * 64 / (65536 * mvPerUs)
  max 960 (tdon + edge + ten + 160)

/-- A pulse of a generator with duty `d`, N clocks a period and remainder `e`: on-time and new remainder (R103). -/
def genPulse (d n e : Nat) : Nat × Nat := ((d * n + e) / 4096, (d * n + e) % 4096)

/-- Clock s of a period: the generator takes its duty and the gate turns on (R103, R105, R109; R156 for STRETCH). -/
def hscPulseStart (s : State) (n : Nat) : State :=
  let p := hscPage n
  let c := hscGet s n
  let g := cfg s p R.HSC.CFG.FGRP
  match c.gen && grpClock s g (cfg s p R.HSC.CFG.PHASE * grpClocks g / 4096), hscDemand s n with
  | true, (.gen d, _) =>
    let (deff, sat) := hscDeffOf s n d
    let dt := deff * hscG s n / 4096
    let N := grpClocks (cfg s p R.HSC.CFG.FGRP)
    let s := setFlag (setF s p R.HSC.STAT.DEFF dt) p R.HSC.STAT.COMPSAT sat
    let lds := cfg s p R.HSC.DIAG.LDS
    if dt = 0 then hscStat (hscGateOff (hscSet s n { c.noShort lds with onClk := 0 }) n) n
    else if dt = 4095 then hscStat (hscGateOn (hscSet s n { c.noShort lds with onClk := N }) n) n
    else
      let (on, e) := genPulse dt N c.rem
      if on = 0 then hscStat (hscGateOff (hscSet s n { c.noShort lds with rem := e, onClk := 0 }) n) n
      else
        let short := decide (on < hscTmin s n) && lds = 1
        let due := short && decide (c.ldCnt + 1 ≥ cfg s p R.HSC.DIAG.LDN)
        let on' := if due then hscTmin s n else on
        let cnt := if short then (if due then 0 else c.ldCnt + 1) else c.ldCnt
        hscStat (hscGateOn (hscSet s n { c with rem := e, onClk := on', ldCnt := cnt, stretched := due }) n) n
  | _, _ => s

/-! ### Diagnostic results (07) -/

/-- DRES.RESULT of the channel. -/
def hscResult (s : State) (n : Nat) : Nat := getF s (hscPage n) R.HSC.DRES.RESULT

/-- A valid result by a method, which METHOD names (R156): RESULT follows after OLCNT agreeing ones; DIAG is raised when it becomes
OPENLOAD or STB (R157). -/
def diagResult (s : State) (n method res : Nat) : State :=
  let p := hscPage n
  let c := hscGet s n
  let agree := if c.cand = res then c.agree + 1 else 1
  let s := setF (hscSet s n { c with cand := res, agree := agree }) p R.HSC.DRES.METHOD method
  if agree < cfg s 0x1E R.MSQ.CFG.OLCNT then s
  else
    let s' := setF s p R.HSC.DRES.RESULT res
    if (res = 2 || res = 3) && hscResult s n ≠ res then raiseP s' p 4 else s'

/-- RESULT set to PENDING or UNAVAIL: the agreement count starts again (R157). -/
def diagSet (s : State) (n res : Nat) : State :=
  let c := hscGet s n
  setF (hscSet s n { c with cand := 0, agree := 0 }) (hscPage n) R.HSC.DRES.RESULT res

/-- The comparison of an on-state value with OLTH: OPENLOAD below, PASS at or above; off where THR = 0 (R151). -/
def onStateResult (s : State) (n code : Nat) : Option Nat :=
  let thr := cfg s 0x1E (R.MSQ.OLTH.THR n)
  if thr = 0 then none else if code < thr then some 2 else some 1

/-- The range MSQ chooses for the next sample: 1 fine, 0 normal (R150); normal before the first valid sample (DESIGN CHOICE,
notes/assumptions/87). -/
def nextRange (s : State) (n : Nat) : Nat :=
  let p := hscPage n
  let w := rd s p 0x114
  if cfg s p R.HSC.DIAG.FINE = 0 then 0
  else
    let code := fget w R.HSC.IMEAS.CODE
    if (hscGet s n).imSeen = false then 0
    else if fget w R.HSC.IMEAS.RANGE = 1 then (if code = 4095 then 0 else 1)
    else (if code * hscLsb n ≤ 80 then 1 else 0)

/-- A current sample of the channel: valid ones set IMEAS and give a result, others clear VALID only (R149 to R151). A failed slice 0
without the spare gives none (R147). -/
def hscSample (s : State) (n method : Nat) (code : BitVec 12) (valid : Bool) : State :=
  let p := hscPage n
  if !msqFresh s .hscCurrent then s
  else if !valid then setFlag s p R.HSC.IMEAS.VALID false
  else
    let r := nextRange s n
    let s := setF (setF (setFlag s p R.HSC.IMEAS.VALID true) p R.HSC.IMEAS.RANGE r) p R.HSC.IMEAS.CODE code.toNat
    let s := hscSet s n { hscGet s n with imSeen := true }
    if blockOff s 0x1E then s
    else
      match onStateResult s n code.toNat with
      | none => s
      | some res => diagResult s n method res

/-- A pulse below T_MIN under AVERAGE: its current and on-time are added; after LDM consecutive ones the mean is compared as an on-state
value, where each lasted 2 µs and their sum 12 µs. IMEAS, which shows samples, keeps its code (R149, R151, R156). -/
def hscAverage (s : State) (n : Nat) (code : BitVec 12) : State :=
  let c := hscGet s n
  let bad := c.avgBad || decide (c.onClk < 160)
  let sum := c.avgSum + code.toNat * c.onClk
  let clk := c.avgClk + c.onClk
  let k := c.ldCnt + 1
  if k < cfg s (hscPage n) R.HSC.DIAG.LDM then hscSet s n { c with ldCnt := k, avgSum := sum, avgClk := clk, avgBad := bad }
  else
    let s := hscSet s n c.lowDutyReset
    if bad || decide (clk < 960) || blockOff s 0x1E || !msqFresh s .hscCurrent then s
    else match onStateResult s n (sum / clk) with
      | none => s
      | some res => diagResult s n 2 res

/-- The on-time of a pulse ends: the gate turns off under slew and the triggered sample is taken (R103, R149, R156). A request that
slice 0 could not serve (`served` false) yields none and leaves IMEAS as it is. A generator at full duty has no scheduled gate-off and
gets no sample (DESIGN CHOICE, notes/assumptions/87). -/
def hscPulseEnd (s : State) (n : Nat) (code : BitVec 12) (enh served : Bool) : State :=
  let p := hscPage n
  let c := hscGet s n
  if !c.gen || !hscGate s n || getF s p R.HSC.STAT.DEFF = 4095 then s
  else
    let s := hscGateOff s n
    let lds := cfg s p R.HSC.DIAG.LDS
    let broken (s : State) : State := if lds = 2 then hscSet s n (hscGet s n).lowDutyReset else s
    if !served then broken s
    else if c.onClk ≥ 960 && enh then broken (hscSample s n (if c.stretched then 1 else 0) code true)
    else
      let s := setFlag s p R.HSC.IMEAS.VALID false
      if lds ≠ 2 then s else if c.onClk < hscTmin s n then hscAverage s n code else broken s

/-! ### The wire model (R124 to R131) -/

/-- T_A in 1/16 K from −55 °C, clamped to −40 °C to +125 °C (R125). -/
def taCode (s : State) : Nat := max 240 (min 2880 (getF s 0x1E R.MSQ.TBASE.CODE))

/-- Θ_trip in 1/16 K: at least 10 K (R125). -/
def thetaTrip16 (s : State) (n : Nat) : Nat :=
  let ttrip := if cfg s (hscPage n) R.HSC.WIRE.INS = 0 then 160 * 16 else 180 * 16
  max 160 (ttrip - taCode s)

/-- Θ_trip in the unit of `theta`, 2^-40 of 1/1024 K (notes/assumptions/24). -/
def thetaTrip (s : State) (n : Nat) : Nat := thetaTrip16 s n * 2 ^ 46

/-- Θ after one tick with Σ I² c = `qs` (mA² × clocks), by R124 and R126. -/
def thetaNext (s : State) (n qs theta : Nat) : Nat :=
  let p := hscPage n
  let xsec := cfg s p R.HSC.WIRE.XSEC
  let b := wireB (cfg s p R.HSC.WIRE.BUNDLE)
  let steady : Int := ((b * wireK xsec (cfg s p R.HSC.WIRE.INS) * qs * 2 ^ 50 / (10 ^ 7 * (8000 * 10 ^ 6)) : Nat) : Int)
  let t : Int := (theta : Int) + (steady - (theta : Int)) / ((b * wireTau xsec * 100 : Nat) : Int)
  (clampInt 0 (1023 * 2 ^ 50) t).toNat

/-- I_OV squared in mA², for Q of a tick compared as Σ I² c > I_OV² × 8000 (R129, R130). -/
def iovSq (s : State) (n : Nat) (m : Nat) : Nat :=
  let p := hscPage n
  let ir := wireIR (cfg s p R.HSC.WIRE.XSEC) (cfg s p R.HSC.WIRE.INS)
  let b := wireB (cfg s p R.HSC.WIRE.BUNDLE)
  let full := hscProtLsb n * 4095
  min ((25 * ir * m) ^ 2 * 100 / b) (full ^ 2)

/-- An apply edge of the channel's page: a change of FGRP or PHASE ends the pulse, clears the remainder (R107) and breaks a run of
consecutive periods (R156); without a pull-up no off-state check goes on (R152); a change of MODE or DIAG makes the result PENDING
(R157); live values act under the new configuration (R47). -/
def hscApplied (old s : State) (n : Nat) : State :=
  let p := hscPage n
  let moved := cfg old p R.HSC.CFG.FGRP ≠ cfg s p R.HSC.CFG.FGRP || cfg old p R.HSC.CFG.PHASE ≠ cfg s p R.HSC.CFG.PHASE
  let s := if moved && (hscGet s n).gen then hscGateOff (hscSet s n { (hscGet s n).lowDutyReset with rem := 0, onClk := 0 }) n else s
  let s := if cfg s p R.HSC.DIAG.OLPU = 0 then hscSet s n { hscGet s n with phase := 0 } else s
  let s := if cfgW old p 0x814 ≠ cfgW s p 0x814 then hscSet s n (hscGet s n).lowDutyReset else s
  let s := if cfgW old p 0x800 ≠ cfgW s p 0x800 || cfgW old p 0x814 ≠ cfgW s p 0x814 then diagSet s n 0 else s
  hscUpdate s n

/-- The consistency rules of an HSC page, on the values to be committed (R120, R131): the word index of the first rule
broken, its lowest word. -/
def hscConsist (g : Fld → Nat) (n : Nat) : Option Nat :=
  let mode := g R.HSC.MODE.MODE
  let gen := mode = 1 || mode = 2 || mode = 3
  let slew := g R.HSC.CFG.SLEW
  let cls := hscClass n
  let lim := match slew with
    | 0 => 4
    | 1 => 5
    | 2 => if cls = 0 then 5 else 6
    | _ => if cls = 2 then 7 else 6
  let ilim := g R.HSC.CAP.ILIM
  let capt := g R.HSC.CAP.CAPT
  let lds := g R.HSC.DIAG.LDS
  let ir := wireIR (g R.HSC.WIRE.XSEC) (g R.HSC.WIRE.INS)
  let iov2 := min ((25 * ir) ^ 2 * 100 / wireB (g R.HSC.WIRE.BUNDLE)) ((hscProtLsb n * 4095) ^ 2)
  if (gen && decide (lim < g R.HSC.CFG.FGRP)) then some 512
  else if (mode = 2 || mode = 3) && decide (g R.HSC.COMP.VNOM < 100) then some 512
  else if mode = 3 && decide (g R.HSC.COMP.VNOM ≤ g R.HSC.COMP.VFWD) then some 512
  else if mode = 4 && (ilim = 0 || decide (2000 < ilim) || capt = 0) then some 512
  else if mode ≠ 4 && (ilim ≠ 0 || capt ≠ 0) then some 512
  else if g R.HSC.WIRE.INRA ≠ 0 && mode ≠ 2 then some 512
  else if g R.HSC.DIAG.FINE ≠ 0 && mode ≠ 3 then some 512
  else if lds ≠ 0 && (mode = 0 || mode = 4) then some 512
  else if g R.HSC.SAFE.SAFE = 4 && (mode = 0 || mode = 4) then some 512
  else if mode = 4 && decide (iov2 < (ilim * hscLsb n) ^ 2) then some 512
  else if lds = 1 && decide (g R.HSC.DIAG.LDN < 2) then some 517
  else if lds = 2 && decide (g R.HSC.DIAG.LDM < 2) then some 517
  else none

end Sys2Proof.Machine
end

