-- ==== Sys2Proof/Machine/Hb.lean ====
section
/-! DEFINITION. Motor half-bridges: pairing, actions, the generator with supply compensation, reversal, ripple counting and
pinch detection (08). -/

namespace Sys2Proof.Machine

/-- Page of half-bridge `n`. -/
def hbPage (n : Nat) : Nat := 0x68 + n

/-- The state of half-bridge `n` beside its registers. -/
def hbGet (s : State) (n : Nat) : HbSt := storeGet (fun _ => HbSt.init) s.hb n

/-- That state replaced. -/
def hbSet (s : State) (n : Nat) (c : HbSt) : State := { s with hb := storeSet (fun _ => HbSt.init) s.hb n c }

/-- Applied PAIR of the pair of `n`, from its primary's page (R167). -/
def hbPair (s : State) (n : Nat) : Nat := cfg s (hbPage (n - n % 2)) R.HB.MODE.PAIR

/-- The half-bridge follows its primary (R168). -/
def hbFollower (s : State) (n : Nat) : Bool := n % 2 = 1 && hbPair s n ≠ 0

/-- The halves whose switches act with those of `n`: both of a pair (R167, R180). -/
def hbHalves (s : State) (n : Nat) : List Nat := if hbPair s n ≠ 0 then [n - n % 2, n - n % 2 + 1] else [n]

/-- A latch of the bridge, or of either half of its pair, holds (R180). -/
def hbLatched (s : State) (n : Nat) : Bool :=
  (hbHalves s n).any fun m => (hbGet s m).prot.latchT || (hbGet s m).prot.latchD

/-- Current of the bridge in 10 mA: its sample, or the sum of both halves in PARALLEL (R178, R183). -/
def hbAmps (s : State) (n : Nat) : Nat :=
  let i (m : Nat) : Int :=
    let c : Int := ((getF s (hbPage m) R.HB.IMEAS.CODE : Nat) : Int)
    if isSet s (hbPage m) R.HB.IMEAS.NEG then -c else c
  ((if hbPair s n = 2 then hbHalves s n else [n]).map i).sum.natAbs

/-- The action of CFG.STOP: OFF or BRAKELO (R175). -/
def hbStopAct (s : State) (n : Nat) : Nat := if cfgOn s (hbPage n) R.HB.CFG.STOP then 3 else 0

/-- A value of HB.CMD.ACT that Table 2 admits for the applied PAIR (R169). -/
def hbActOk (s : State) (n act : Nat) : Bool := decide (act ≤ 5) && (act ≠ 4 || hbPair s n = 1)

/-- Action and duty demanded before SAFE values (R169, R175, R282). A follower takes none. -/
def hbPlainDemand (s : State) (n : Nat) : Nat × Nat × Origin :=
  let p := hbPage n
  if hbFollower s n then (0, 0, .none)
  else if rfxOn s (72 + n) then (cfg s p R.HB.RFXD.RACT, cfg s p R.HB.RFXD.DUTY, .reflex)
  else if rfxOff s (72 + n) then (hbStopAct s n, 0, .reflex)
  else if enabled s p then (getF s p R.HB.CMD.ACT, getF s p R.HB.DUTY.DUTY, .cmd)
  else (0, 0, .none)

/-- Action and duty under the SAFE value (R177 Table 4). -/
def hbSafeDemand (s : State) (n : Nat) : Nat × Nat × Origin :=
  let p := hbPage n
  match cfg s p R.HB.SAFE.SAFE with
  | 0 => (0, 0, .none)
  | 1 => (3, 0, .safe)
  | 2 => ((hbGet s n).safeAct, (hbGet s n).safeDuty, .safe)
  | 3 =>
    if rfxOn s (72 + n) then (cfg s p R.HB.RFXD.RACT, cfg s p R.HB.RFXD.DUTY, .reflex)
    else if rfxOff s (72 + n) then (hbStopAct s n, 0, .reflex)
    else (0, 0, .none)
  | _ => (cfg s p R.HB.RFXD.RACT, cfg s p R.HB.SAFE.SAFEDUTY, .safe)

/-- A demand for PARKRUN that has ended: STOP applies in its place while it lasts (R187). -/
def hbParked (s : State) (n : Nat) (d : Nat × Nat × Origin) : Nat × Nat × Origin :=
  if d.1 = 5 && (hbGet s n).parkOut then (hbStopAct s n, 0, d.2.2) else d

/-- The demand before the end of PARKRUN. -/
def hbRawDemand (s : State) (n : Nat) : Nat × Nat × Origin :=
  if safeInForce s (72 + n) && !hbFollower s n then hbSafeDemand s n else hbPlainDemand s n

/-- The demand in force. -/
def hbDemand (s : State) (n : Nat) : Nat × Nat × Origin := hbParked s n (hbRawDemand s n)

/-- An action that drives under the generator. -/
def hbDrives (act : Nat) : Bool := act = 1 || act = 2 || act = 5

/-- HB.STAT.STATE: the first state of Table 3 of 08 that applies (R176). -/
def hbStateCode (s : State) (n : Nat) : Nat :=
  let c := hbGet s n
  let d := hbDemand s n
  let held := d.1 ≠ 0 && !modePermits s d.2.2
  if hbFollower s n then 9
  else if hbLatched s n || (hbHalves s n).any (fun m => latchForced s (hbPage m)) then 5
  else if c.prot.lockout then 6
  else if c.prot.tripped && (c.prot.rdly || d.1 ≠ 0) then 4
  else if parkHolds s || held then 8
  else if shed s (72 + n) then 7
  else if c.rev && hbDrives d.1 then 10
  else if c.on && (c.act = 3 || c.act = 4) then 11
  else if c.gen then (if getF s (hbPage n) R.HB.STAT.DEFF = 4095 then 1 else 2)
  else 0

/-- STAT after the state of the bridge has changed. -/
def hbStat (s : State) (n : Nat) : State :=
  let p := hbPage n
  let d := hbDemand s n
  let c := hbGet s n
  let s1 := setF s p R.HB.STAT.STATE (hbStateCode s n)
  let s2 := setFlag s1 p R.HB.STAT.SAFEACT (safeInForce s (72 + n))
  let s3 := setFlag s2 p R.HB.STAT.RFXACT (d.2.2 = .reflex)
  let s4 := setF s3 p R.HB.STAT.RUSED c.prot.rused
  setFlag s4 p R.HB.STAT.PARKING (c.on && c.act = 5)

/-- No trip, latch, lockout or asserted protection source, of either half of a pair: HSHORT, STALL, TLATCH, DTEMP, LOCKOUT (R180,
R181, R15). -/
def hbProtPermits (s : State) (n : Nat) : Bool :=
  let c := (hbGet s n).prot
  !c.lockout && !c.tripped && !hbLatched s n &&
    (hbHalves s n).all (fun m => decide ((getF s (hbPage m) H.PFORCE &&& 0x4F) = 0))

/-- Supply of die B, latest sample. -/
def hbVdie (s : State) : Nat := getF s 0x1E (R.MSQ.VDIE.CODE 3)

/-- The generator of the bridge stands: no duty, no limiter in the period (R178). -/
def hbNoDuty (s : State) (n : Nat) : State :=
  setFlag (setF s (hbPage n) R.HB.STAT.DEFF 0) (hbPage n) R.HB.STAT.CLIM false

/-- Every switch off: coast. A reversal that is due stays so (R174). -/
def hbStop (s : State) (n : Nat) : State :=
  hbNoDuty (hbSet s n { hbGet s n with on := false, act := 0, gen := false, gate := false, rem := 0 }) n

/-- Both low sides, or the action of a brake (R169, R174). -/
def hbBrake (s : State) (n act : Nat) : State :=
  hbNoDuty (hbSet s n { hbGet s n with on := true, act := act, gen := false, gate := false, rem := 0 }) n

/-- The bridge takes action `act` (R169). A drive starts the generator where it does not run yet; a change of driven switch leaves a
begun pulse and the remainder alone (R103, R171). The ripple count of the drive starts at a standing generator and at a change of
direction (R186), and the direction is the drive's (R184). -/
def hbTake (s : State) (n act : Nat) : State :=
  let c := hbGet s n
  if act = 0 then hbStop s n
  else if hbDrives act then
    let c := { c with on := true, act := act, gen := true, gate := c.gate && c.gen, rev := false,
                      rem := if c.gen then c.rem else 0, dirNeg := decide (act = 2),
                      vf := if c.gen then c.vf else hbVdie s * 65536,
                      nacc := if c.gen && c.dirNeg = decide (act = 2) then c.nacc else 0 }
    let s := if (hbGet s n).gen then s else hbNoDuty s n
    setFlag (hbSet s n c) (hbPage n) R.HB.STAT.STILL false
  else hbBrake s n act

/-- SAFE comes into force: action and duty as they stand are latched for LAST (R177). -/
def hbSafeLatch (s : State) (n : Nat) : State :=
  if safeInForce s (72 + n) && !isSet s (hbPage n) R.HB.STAT.SAFEACT then
    let d := hbParked s n (hbPlainDemand s n)
    setFlag (hbSet s n { hbGet s n with safeAct := d.1, safeDuty := d.2.1 }) (hbPage n) R.HB.STAT.SAFEACT true
  else s

/-- The bridge after anything that R14 looks at has changed. In HBRIDGE a change between a forward drive and REV passes
through the reversal pause: both low sides on until its end (R174). -/
def hbUpdate (s : State) (n : Nat) : State :=
  let s := hbSafeLatch s n
  let s := if (hbGet s n).parkOut && (hbRawDemand s n).1 ≠ 5 then hbSet s n { hbGet s n with parkOut := false } else s
  let d := hbDemand s n
  let want := d.1 ≠ 0 && modePermits s d.2.2 && !shed s (72 + n) && hbProtPermits s n && !hbFollower s n
  let c := hbGet s n
  let turn := c.rev || (c.gen && c.dirNeg ≠ decide (d.1 = 2))
  let s :=
    if !want then (if c.on then hbStop s n else s)
    else if hbPair s n = 1 && hbDrives d.1 && turn then
      (if c.rev && c.on && c.act = 3 then s
       else hbBrake (hbSet s n { c with rev := true }) n 3)
    else if c.on && c.act = d.1 then s
    else hbTake s n d.1
  hbStat s n

/-- The end of the reversal pause: TREV has elapsed since the change and |I| is below 1.0 A (R174). -/
def hbReversalEnd (s : State) (n : Nat) : State :=
  let c := hbGet s n
  if c.rev && decide (hbAmps s n < 100) then touch (hbUpdate (hbSet s n { c with rev := false }) n) else s

/-- Effective duty for demanded duty `d` (R173): no governor trim on half-bridges. -/
def hbDeffOf (s : State) (n d : Nat) : Nat :=
  let vnom := cfg s (hbPage n) R.HB.COMP.VNOM
  if vnom = 0 then d
  else
    let v := (hbGet s n).vf * 15
    if d = 0 then 0 else if v = 0 then 4095 else min 4095 (roundDiv (d * vnom * 10 * 65536) v)

/-- Which switches of half `m` conduct, high side and low side, where the driven switch is on or off (`pulse`): R169 Table 2, and
DECAY in the off-time, in which SLOW turns the complementary switch on and FAST every switch off (R172). A period without a pulse is
off-time throughout (DESIGN CHOICE, notes/assumptions/87). -/
def hbSides (s : State) (m : Nat) (pulse : Bool) : Bool × Bool :=
  let n := if hbFollower s m then m - 1 else m
  let c := hbGet s n
  let slow := !cfgOn s (hbPage n) R.HB.CFG.DECAY
  let bridge := hbPair s n = 1
  if !c.on then (false, false)
  else if c.act = 3 then (false, true)
  else if c.act = 4 then (true, false)
  else if bridge && (decide (c.act = 2) ≠ hbFollower s m) then (false, pulse || slow)
  else if c.act = 2 && !bridge then (!pulse && slow, pulse)
  else (pulse, !pulse && slow)

/-- The switches of half `m` that conduct now. -/
def hbConducts (s : State) (m : Nat) : Bool × Bool :=
  hbSides s m (hbGet s (if hbFollower s m then m - 1 else m)).gate

/-- Clock s of a period of the bridge's generator (R171). At DEFF = 4095 a switch that the limiter has turned off waits for its
10 µs (R178). -/
def hbPulseStart (s : State) (n : Nat) : State :=
  let p := hbPage n
  let c := hbGet s n
  let g := cfg s p R.HB.CFG.FGRP
  if !c.gen || !grpClock s g (cfg s p R.HB.CFG.PHASE * grpClocks g / 4096) then s
  else
    let d := hbDeffOf s n (hbDemand s n).2.1
    let held := isSet s p R.HB.STAT.CLIM && getF s p R.HB.STAT.DEFF = 4095
    let s := setFlag (setF s p R.HB.STAT.DEFF d) p R.HB.STAT.CLIM false
    if d = 0 then hbStat (hbSet s n { c with gate := false }) n
    else if d = 4095 then hbStat (hbSet s n { c with gate := c.gate || !held }) n
    else
      let (on, e) := genPulse d (grpClocks (cfg s p R.HB.CFG.FGRP)) c.rem
      hbStat (hbSet s n { c with gate := decide (on ≠ 0), rem := e }) n

/-- The on-time of a pulse ends; the sample of the bridge current, `neg` where it flows into the output (R171, 07 R149), where slice 2
serves it (R146). -/
def hbPulseEnd (s : State) (n : Nat) (code : BitVec 12) (neg served : Bool) : State :=
  let p := hbPage n
  let c := hbGet s n
  if !c.gen || !c.gate || getF s p R.HB.STAT.DEFF = 4095 then s
  else if !served || !msqFresh s .hbCurrent then hbSet s n { c with gate := false }
  else
    let s := setFlag (setF s p R.HB.IMEAS.CODE code.toNat) p R.HB.IMEAS.VALID true
    let s := setFlag s p R.HB.IMEAS.NEG neg
    hbSet s n { c with gate := false }

/-- The limiter acts: the driven switch turns off for the rest of the period, and the current decays as DECAY sets (R178,
`hbSides`). -/
def hbLimit (s : State) (n : Nat) : State :=
  let c := hbGet s n
  if c.gen && c.gate && cfg s (hbPage n) R.HB.LIM.ILIM ≠ 0 then
    setFlag (hbSet s n { c with gate := false }) (hbPage n) R.HB.STAT.CLIM true
  else s

/-- At DEFF = 4095 the driven switch turns on again 10 µs after the limiter acted (R178). -/
def hbLimitAgain (s : State) (n : Nat) : State :=
  let c := hbGet s n
  if c.gen && !c.gate && getF s (hbPage n) R.HB.STAT.DEFF = 4095 then hbSet s n { c with gate := true } else s

/-! ### Ripple counting (R183 to R186) -/

/-- Signed 32-bit position. -/
def hbPos (s : State) (n : Nat) : Int := sext 32 (getF s (hbPage n) R.HB.POS.POS)

/-- The detector runs: RIP.EN, and the state is none of LATCH, LOCKOUT, FOLLOWER (R183). -/
def hbRippleRuns (s : State) (n : Nat) : Bool :=
  let st := hbStateCode s n
  cfgOn s (hbPage n) R.HB.RIP.EN && st ≠ 5 && st ≠ 6 && st ≠ 9

/-- Expected period in 10 µs: the mean of up to 4 last accepted periods; TSEED where there is none (R184), rounded down
(DESIGN CHOICE, notes/assumptions/87). -/
def hbTexp (s : State) (n : Nat) : Nat :=
  let l := (hbGet s n).pers
  if l.isEmpty then cfg s (hbPage n) R.HB.RIP.TSEED else l.sum / l.length

/-- The mean current of ripple `k` before the newest, 0 where the history does not reach. -/
def hbIbar (c : HbSt) (k : Nat) : Int := ((c.ibar.getD k 0 : Nat) : Int)

/-- FIDX after the newest ripple (R186). -/
def hbFidx (s : State) (n : Nat) : Int :=
  let c := hbGet s n
  hbIbar c 0 - hbIbar c (cfg s (hbPage n) R.HB.PINCH.PLAG)

/-- The position counts one ripple in the direction of the drive. -/
def hbCount (s : State) (n : Nat) : State :=
  let d : Int := if (hbGet s n).dirNeg then -1 else 1
  setF s (hbPage n) R.HB.POS.POS (twos 32 (hbPos s n + d))

/-- An accepted ripple with its period (10 µs) and mean current (10 mA): R184, R186. PINCH raises the bridge's event line. -/
def hbAccept (s : State) (n : Nat) (per ib : Nat) : State :=
  let p := hbPage n
  let c := hbGet s n
  if !hbRippleRuns s n || decide (2 * per < hbTexp s n) then s
  else
    let s := hbCount s n
    let c := { c with insRun := 0, nacc := c.nacc + 1, pers := (per :: c.pers).take 4, ibar := (ib :: c.ibar).take 64 }
    let s := setF (setFlag (hbSet s n c) p R.HB.STAT.STILL false) p R.HB.RPER.PER per
    let fx := hbFidx s n
    let s := setF s p R.HB.FIDX.FIDX (twos 13 fx)
    let closing := if cfgOn s p R.HB.PINCH.PDIR then c.act = 2 else (c.act = 1 || c.act = 5)
    let pos := hbPos s n
    let hit := cfgOn s p R.HB.PINCH.EN && closing &&
      decide (sext 16 (cfg s p R.HB.PZONE.PZLO) ≤ pos) && decide (pos ≤ sext 16 (cfg s p R.HB.PZONE.PZHI)) &&
      decide (cfg s p R.HB.PINCH.PBLK + cfg s p R.HB.PINCH.PLAG ≤ c.nacc) &&
      decide ((cfg s p R.HB.PINCH.PTH : Int) ≤ fx)
    if hit then
      let s' := touch (setFlag (setFlag s p R.HB.EVT.PINCH true) p R.HB.STAT.PINCH true)
      if isSet s p R.HB.EVT.PINCH then s' else raiseLine s' (32 + n)
    else s

/-- An inserted ripple (R184); two in a row raise RIPLOST (R192). -/
def hbInsert (s : State) (n : Nat) : State :=
  let p := hbPage n
  let c := hbGet s n
  if !hbRippleRuns s n || decide (2 ≤ c.insRun) then s
  else
    let s := hbCount s n
    let c := { c with insRun := c.insRun + 1, ibar := (c.ibar.headD 0 :: c.ibar).take 64 }
    let s := hbSet s n c
    let s := setF s p R.HB.RPER.INS (satInc 255 (getF s p R.HB.RPER.INS))
    let s := setF s p R.HB.FIDX.FIDX (twos 13 (hbFidx s n))
    if c.insRun = 2 then raiseP s p 5 else s

/-- Standstill: 20 ms without an accepted ripple, |I| below 0.2 A, and ACT other than FWD, REV or PARKRUN (R184): neither the commanded
action nor one in force by a reflex rule or a SAFE value drives (DESIGN CHOICE, notes/assumptions/87). -/
def hbStill (s : State) (n : Nat) : State :=
  let c := hbGet s n
  if (hbDrives c.act && c.on) || hbDrives (getF s (hbPage n) R.HB.CMD.ACT) then s
  else if decide (20 ≤ hbAmps s n) then s
  else setFlag (hbSet s n { c with pers := [] }) (hbPage n) R.HB.STAT.STILL true

/-- A write that takes ACT from `old` to `act` leaves a reversal due: in HBRIDGE, between a forward action and REV; one to an action
that does not drive takes it away (R174). -/
def hbTurns (s : State) (n old act : Nat) (rev : Bool) : Bool :=
  let changes := hbPair s n = 1 && hbDrives old && (decide (old = 2) ≠ decide (act = 2))
  hbDrives act && (rev || changes)

/-- CMD is the demand in force: neither a reflex result nor a SAFE value overrides it (R175, R177, R282). -/
def hbCommanded (s : State) (n : Nat) : Bool := (hbRawDemand s n).2.2 = .cmd

/-- A write of HB.CMD (R168, R169): refused with WERR on a follower or for a refused action; a different ACT clears PINCH. Where CMD is the
demand in force, a change between a forward action and REV makes a reversal pause due (R174), and a written PARKRUN starts anew
(R187). -/
def hbCmd (s : State) (n : Nat) (v : Word) : State :=
  let p := hbPage n
  let act := fget v R.HB.CMD.ACT
  if hbFollower s n || !hbActOk s n act then werr s p 0x100
  else
    let c := hbGet s n
    let s := if hbCommanded s n
      then hbSet s n { c with rev := hbTurns s n (getF s p R.HB.CMD.ACT) act c.rev, parkOut := false } else s
    let s := if act ≠ getF s p R.HB.CMD.ACT then setFlag (setFlag s p R.HB.EVT.PINCH false) p R.HB.STAT.PINCH false else s
    touch (hbUpdate (setF (setF s p R.HB.CMD.ACT act) p R.HB.CMD.STAYON (fget v R.HB.CMD.STAYON)) n)

/-- A write of HB.DUTY: refused with WERR on a follower (R168); the generator reads it at its next pulse (R171). -/
def hbDutyWrite (s : State) (n : Nat) (v : Word) : State :=
  let p := hbPage n
  if hbFollower s n then werr s p 0x104 else setF s p R.HB.DUTY.DUTY (fget v R.HB.DUTY.DUTY)

/-- A write of HB.POS normalises the position (R184). -/
def hbPosWrite (s : State) (n : Nat) (v : Word) : State :=
  let p := hbPage n
  setFlag (setF (setF s p R.HB.POS.POS v.toNat) p R.HB.RPER.INS 0) p R.HB.STAT.POSVALID true

/-- PARKRUN ended by a reflex clear: STOP applies and is written into CMD.ACT, PARKDONE is set (R187). -/
def hbParkEnd (s : State) (n : Nat) : State :=
  let p := hbPage n
  let c := hbGet s n
  if c.on && c.act = 5 && rfxOff s (72 + n) then
    let s := hbSet (setF s p R.HB.CMD.ACT (hbStopAct s n)) n { c with parkOut := true }
    raiseLine (setFlag s p R.HB.EVT.PARKDONE true) (32 + n)
  else s

/-- The park timeout: STOP applies, whatever demands PARKRUN, and PARKTO is raised (R187). -/
def hbParkTimeout (s : State) (n : Nat) : State :=
  let p := hbPage n
  let c := hbGet s n
  if c.on && c.act = 5 && cfg s p R.HB.PARK.PTO ≠ 0 then
    raiseP (touch (hbUpdate (hbSet s n { c with parkOut := true }) n)) p 4
  else s

/-- A change of PAIR merges the retry states of two single halves into the primary's, or gives the odd half a copy of it; each half
keeps the latches of its own sensor, and a lockout that comes to a page so raises LOCKOUT there (R141, R180, R181; DESIGN CHOICE,
notes/assumptions/87). -/
def hbRepair (s : State) (m : Nat) (single : Bool) : State :=
  let a := hbGet s m
  let b := hbGet s (m + 1)
  let x := a.prot
  let y := b.prot
  if single then
    let s := if y.lockout && !x.lockout then raiseP s (hbPage m) 6 else s
    hbSet s m { a with rev := false,
                       prot := { x with lockout := x.lockout || y.lockout, tripped := x.tripped || y.tripped,
                                        rdly := x.rdly || y.rdly, rused := max x.rused y.rused, slewOff := x.slewOff || y.slewOff } }
  else
    let s := if x.lockout && !y.lockout then raiseP s (hbPage (m + 1)) 6 else s
    hbSet (hbSet s m { a with rev := false }) (m + 1)
      { b with prot := { x with latchT := y.latchT, latchD := y.latchD } }

/-- An apply edge of a bridge page (R107, R168): a change of PAIR turns the switches of the pair off first. -/
def hbApplied (old s : State) (n : Nat) : State :=
  let p := hbPage n
  let moved := cfg old p R.HB.CFG.FGRP ≠ cfg s p R.HB.CFG.FGRP || cfg old p R.HB.CFG.PHASE ≠ cfg s p R.HB.CFG.PHASE
  let s := if moved then hbSet s n { hbGet s n with rem := 0, gate := false } else s
  if cfg old p R.HB.MODE.PAIR ≠ cfg s p R.HB.MODE.PAIR then
    let m := n - n % 2
    let old0 := cfg old p R.HB.MODE.PAIR = 0
    let t := hbStop (hbStop s m) (m + 1)
    let t := if old0 ≠ decide (cfg s p R.HB.MODE.PAIR = 0) then hbRepair t m old0 else hbSet t m { hbGet t m with rev := false }
    hbUpdate (hbUpdate t m) (m + 1)
  else hbUpdate s n

/-- The consistency rules of an HB page on the values to be committed (R191). -/
def hbConsist (s : State) (g : Fld → Nat) (n : Nat) : Option Nat :=
  let pair := g R.HB.MODE.PAIR
  let ilim := g R.HB.LIM.ILIM
  let ith := g R.HB.LIM.ITH
  let lo := sext 16 (g R.HB.PZONE.PZLO)
  let hi := sext 16 (g R.HB.PZONE.PZHI)
  if n % 2 = 1 && pair ≠ 0 then some 512
  else if n % 2 = 0 && pair ≠ 0 && enabled s (hbPage (n + 1)) then some 512
  else if decide ((if pair = 2 then 4000 else 2000) < ilim) then some 512
  else if g R.HB.RFXD.RACT = 4 && pair ≠ 1 then some 512
  else if g R.HB.CFG.FGRP = 7 && g R.HB.CFG.SLEW = 0 then some 513
  else if g R.HB.RIP.EN ≠ 0 && decide (g R.HB.CFG.FGRP < 6) then some 513
  else if (g R.HB.STALL.STIME ≠ 0 && ith = 0) || (decide (ilim < ith) && ilim ≠ 0) then some 515
  else if decide (9 < g R.HB.PROT.RDLY) then some 517
  else if g R.HB.PINCH.EN ≠ 0 &&
      (g R.HB.RIP.EN = 0 || g R.HB.PINCH.PLAG = 0 || g R.HB.PINCH.PTH = 0 || decide (hi < lo)) then some 520
  else none

end Sys2Proof.Machine
end

