-- ==== Sys2Proof/Machine/Rfx.lean ====
section
/-! DEFINITION. Reflex rules: terms, conditions, latches and timers, and the result of each output (12, R279 to R285). -/

namespace Sys2Proof.Machine

/-- A block of four 32-bit words as one 128-bit number. -/
def words4 (s : State) (p off : Nat) : Nat :=
  (rd s p off).toNat + (rd s p (off + 4)).toNat * 2 ^ 32 + (rd s p (off + 8)).toNat * 2 ^ 64 +
    (rd s p (off + 12)).toNat * 2 ^ 96

/-- A 128-bit number written as four words. -/
def setWords4 (s : State) (p off v : Nat) : State :=
  let s := wr s p off (BitVec.ofNat 32 v)
  let s := wr s p (off + 4) (BitVec.ofNat 32 (v / 2 ^ 32))
  let s := wr s p (off + 8) (BitVec.ofNat 32 (v / 2 ^ 64))
  wr s p (off + 12) (BitVec.ofNat 32 (v / 2 ^ 96))

/-- Set or clear bit `b` of a number. -/
def natBit (v b : Nat) (x : Bool) : Nat := if x then v ||| 2 ^ b else v &&& ((2 ^ 128 - 1) ^^^ 2 ^ b)

/-- The mode code of Table 1 of 03. -/
def modeCode : Mode → Nat
  | .off => 0 | .park => 1 | .watch => 2 | .listen => 3 | .boot => 4 | .hold => 5 | .run => 6 | .limp => 7

/-- Output `o` is in TRIP, LATCH or LOCKOUT (R280 Table 7, PROTo). -/
def outProtected (s : State) (o : Nat) : Bool :=
  let p := outPage o
  if 84 ≤ o ∧ o < 100 then
    let st := getF s p R.SOL.STAT.STATE
    st = 6 || st = 7 || st = 8
  else
    let st := if o < 72 then getF s p R.HSC.STAT.STATE else if o < 84 then getF s p R.HB.STAT.STATE
      else getF s p R.LST.STAT.STATE
    st = 4 || st = 5 || st = 6

/-- The value of a term source, with `act` the rules active on the previous clock (R280 Table 7). -/
def rfxSource (s : State) (act src : Nat) : Bool :=
  if src < 0x40 then bitOf (rd s 0x1C (0x100 + 4 * (src / 32))) (src % 32)
  else if src < 0x50 then bitOf (rd s 0x1C 0x118) (src - 0x40)
  else if src < 0x5C then isSet s (0x68 + (src - 0x50)) R.HB.STAT.PINCH
  else if 0x60 ≤ src ∧ src < 0x6C then isSet s (0x68 + (src - 0x60)) R.HB.STAT.PARKING
  else if 0x70 ≤ src ∧ src < 0x80 then bitOf (rd s 0x0B R.JXR.EFLAG.FLAG.off) (src - 0x70)
  else if 0x80 ≤ src ∧ src < 0x88 then modeCode s.mode = src - 0x80
  else if src = 0xFF then true
  else if 0x100 ≤ src ∧ src < 0x168 then outProtected s (src - 0x100)
  else if 0x180 ≤ src ∧ src < 0x200 then act.testBit (src - 0x180)
  else false

/-- A 10-bit term: the source, inverted by bit 9. -/
def rfxTerm (s : State) (act t : Nat) : Bool := rfxSource s act (t % 512) ^^ t.testBit 9

/-- A field of rule `r` in force. -/
def rfxA (s : State) (r : Nat) : Word := cfgW s 0x1D (0xA00 + 8 * r)
def rfxB (s : State) (r : Nat) : Word := cfgW s 0x1D (0xA04 + 8 * r)

/-- Rule `r` is enabled. -/
def rfxEn (s : State) (r : Nat) : Bool := bitOf (rfxA s r) 31

/-- The enabled rules. -/
def rfxRules (s : State) : List Nat := (List.range 128).filter (rfxEn s)

/-- The condition C of rule `r`: AND or OR of its four terms (R280). -/
def rfxCond (s : State) (act r : Nat) : Bool :=
  let a := rfxA s r
  let b := rfxB s r
  let t0 := rfxTerm s act (fget a ⟨0, 9, 0⟩)
  let t1 := rfxTerm s act (fget a ⟨0, 19, 10⟩)
  let t2 := rfxTerm s act (fget b ⟨0, 9, 0⟩)
  let t3 := rfxTerm s act (fget b ⟨0, 19, 10⟩)
  if bitOf a 28 then t0 || t1 || t2 || t3 else t0 && t1 && t2 && t3

/-- The action of rule `r`: 0 SET, 1 CLEAR, 2 TOGGLE, 3 PULSE. -/
def rfxAct (s : State) (r : Nat) : Nat := fget (rfxA s r) ⟨0, 27, 26⟩

/-- Rule `r` is inhibited: in RUN only (R284). -/
def rfxInhibited (s : State) (r : Nat) : Bool := s.mode = .run && (words4 s 0x1D 0x120).testBit r

/-- Rule `r` is set-active for condition `c` (R281). -/
def rfxSetActive (s : State) (tgl run r : Nat) (c : Bool) : Bool :=
  !rfxInhibited s r &&
    match rfxAct s r with
    | 0 => c
    | 1 => false
    | 2 => tgl.testBit r
    | _ => run.testBit r

/-- Latches, timers, history and activity of the rules on one clock. -/
structure RfxClock where
  tgl : Nat
  run : Nat
  hist : Nat
  act : Nat
  deriving DecidableEq, Repr

/-- One PWR clock of rule evaluation (R281, R284): every enabled rule is evaluated, a rising edge of a rule that is not
inhibited inverts its latch or starts its timer. -/
def rfxStep (s : State) (k : RfxClock) : RfxClock :=
  (rfxRules s).foldl (fun a r =>
    let c := rfxCond s k.act r
    let edge := c && !k.hist.testBit r && !rfxInhibited s r
    let tgl := if edge && rfxAct s r = 2 then natBit a.tgl r (!a.tgl.testBit r) else a.tgl
    let run := if edge && rfxAct s r = 3 then natBit a.run r true else a.run
    let active := rfxSetActive s tgl run r c || (rfxAct s r = 1 && c && !rfxInhibited s r)
    { tgl := tgl, run := run, hist := natBit a.hist r c, act := natBit a.act r active }) { k with act := 0 }

/-- Clocks until the activity of the rules no longer changes, at most `fuel` (notes/assumptions/14). -/
def rfxSettle (s : State) : Nat → RfxClock → RfxClock
  | 0, k => k
  | n + 1, k =>
    let k' := rfxStep s k
    if k' = k then k else rfxSettle s n k'

/-- The outputs of group `g` as a 128-bit mask (R279). -/
def rfxGroup (s : State) (g : Nat) : Nat :=
  (cfgW s 0x1D (0x800 + 16 * g)).toNat + (cfgW s 0x1D (0x804 + 16 * g)).toNat * 2 ^ 32 +
    (cfgW s 0x1D (0x808 + 16 * g)).toNat * 2 ^ 64 + (cfgW s 0x1D (0x80C + 16 * g)).toNat % 2 ^ 8 * 2 ^ 96

/-- Rule `r` may act in the present mode (R283 Table 8). -/
def rfxEligible (s : State) (r : Nat) : Bool :=
  match s.mode with
  | .boot | .hold => bitOf (rfxA s r) 30
  | .run => !rfxInhibited s r
  | .limp => bitOf (rfxA s r) 29
  | _ => false

/-- The SAFE field of output `o` reads REFLEX, which is code 3 on HSC, HB, SOL and LST (R116, R177, R214, R234). -/
def safeReflex (s : State) (o : Nat) : Bool :=
  let p := outPage o
  (if o < 72 then cfg s p R.HSC.SAFE.SAFE else if o < 84 then cfg s p R.HB.SAFE.SAFE
    else if o < 100 then cfg s p R.SOL.SAFE.SAFE else cfg s p R.LST.SAFE.SAFE) = 3

/-- The outputs whose SAFE value is in force, and those of them set to REFLEX. -/
def rfxSafeMasks (s : State) : Nat × Nat :=
  if s.mode ≠ .limp && s.flt.opened.isEmpty then (0, 0)
  else (List.range 104).foldl (fun a o =>
    if safeInForce s o then (natBit a.1 o true, if safeReflex s o then natBit a.2 o true else a.2) else a) (0, 0)

/-- The results ON and OFF of all outputs (R282, R283); NONE for all from t0 of Park entry (R283). -/
def rfxResults (s : State) (k : RfxClock) : Nat × Nat :=
  if parkHolds s then (0, 0)
  else
    let m := (rfxRules s).foldl (fun (a : Nat × Nat × Nat × Nat) r =>
      if !rfxEligible s r then a
      else
        let g := rfxGroup s (fget (rfxA s r) ⟨0, 25, 21⟩)
        let l := if bitOf (rfxA s r) 29 then g else 0
        if rfxSetActive s k.tgl k.run r (k.hist.testBit r) then (a.1 ||| g, a.2.1, a.2.2.1 ||| l, a.2.2.2)
        else if rfxAct s r = 1 && k.act.testBit r then (a.1, a.2.1 ||| g, a.2.2.1, a.2.2.2 ||| l)
        else a) (0, 0, 0, 0)
    let (safe, refl) := rfxSafeMasks s
    let inv := (2 ^ 128 - 1) ^^^ safe
    let on := (m.1 &&& inv) ||| (m.2.2.1 &&& refl)
    let off := (m.2.1 &&& inv) ||| (m.2.2.2 &&& refl)
    (on &&& ((2 ^ 128 - 1) ^^^ off), off)

/-- The rules act: RFX has a configuration in force and is enabled, and PWR runs (R281, R509). -/
def rfxActive (s : State) : Bool := running s && configured s 0x1D && enabled s 0x1D

/-- Evaluation of the rules until they are stable, and the results (R281, R282). While RFX does not act no rule is evaluated and every
result is NONE (R509); the history of the conditions stays as the load or the commit left it (R281, R285). -/
def rfxEval (s : State) : State :=
  if !rfxActive s then
    setWords4 (setWords4 (setWords4 (setWords4 { s with rfxRun := 0 } 0x1D 0x110 0) 0x1D 0x100 0)
      0x1D 0x130 0) 0x1D 0x140 0
  else
    let k := rfxSettle s 130 ⟨words4 s 0x1D 0x110, s.rfxRun, s.rfxHist, words4 s 0x1D 0x100⟩
    let r := rfxResults s k
    let s := { s with rfxRun := k.run, rfxHist := k.hist }
    let s := setWords4 (setWords4 s 0x1D 0x110 k.tgl) 0x1D 0x100 k.act
    setWords4 (setWords4 s 0x1D 0x130 r.1) 0x1D 0x140 r.2

/-- Another clock would change what the rules have left: a term has changed since, such as a PROT or a PARK term (R280, R281). -/
def rfxStale (s : State) : Bool :=
  rfxActive s &&
    let k : RfxClock := ⟨words4 s 0x1D 0x110, s.rfxRun, s.rfxHist, words4 s 0x1D 0x100⟩
    rfxStep s k ≠ k

/-- The rules in `rs` take a fresh start: latch 0, no timer, the previous condition equal to the first one (R281, R285). -/
def rfxFresh (s : State) (rs : List Nat) : State :=
  let tgl := rs.foldl (fun t r => natBit t r false) (words4 s 0x1D 0x110)
  let run := rs.foldl (fun t r => natBit t r false) s.rfxRun
  let act := words4 s 0x1D 0x100
  let hist := rs.foldl (fun t r => natBit t r (rfxCond s act r)) s.rfxHist
  setWords4 { s with rfxRun := run, rfxHist := hist } 0x1D 0x110 tgl

/-- The rules whose words differ between two configurations (R285). -/
def rfxChanged (old s : State) : List Nat :=
  (List.range 128).filter fun r => rfxA old r ≠ rfxA s r || rfxB old r ≠ rfxB s r

/-- Some output has the result ON from a hold-safe rule in BOOT or HOLD, for the first time since the entry (HOLDACT, 12). -/
def holdActNew (s : State) : Bool :=
  (s.mode = .boot || s.mode = .hold) && !s.holdAct && words4 s 0x1D 0x130 ≠ 0

/-- The admitted SRC values of a term (R280 Table 7). -/
def rfxSrcOk (t : Nat) : Bool :=
  let src := t % 512
  decide (src < 0x5C) || (decide (0x60 ≤ src) && decide (src < 0x6C)) || (decide (0x70 ≤ src) && decide (src < 0x88)) ||
    src = 0xFF || (decide (0x100 ≤ src) && decide (src < 0x168)) || decide (0x180 ≤ src)

/-- A rule word of RFX at offset `off` with a term outside Table 7 (R42 step 3). -/
def rfxRange (off : Nat) (x : Word) : Bool :=
  decide (0xA00 ≤ off) && decide (off < 0xE00) && !(rfxSrcOk (fget x ⟨0, 9, 0⟩) && rfxSrcOk (fget x ⟨0, 19, 10⟩))

/-- The consistency rules of RFX (R285): an enabled rule names an empty group; PLEN on a rule that is no PULSE. The lowest word is
named: a group's first one, before the rules'. -/
def rfxConsist (w : Nat → Word) : Option Nat :=
  let grp (r : Nat) : Nat := fget (w (0xA00 + 8 * r)) ⟨0, 25, 21⟩
  let empty (g : Nat) : Bool := (List.range 4).all fun i => w (0x800 + 16 * g + 4 * i) = 0
  match (List.range 32).find? fun g => empty g && (List.range 128).any fun r => bitOf (w (0xA00 + 8 * r)) 31 && grp r = g with
  | some g => some (512 + 4 * g)
  | none =>
    ((List.range 128).find? fun r =>
      fget (w (0xA04 + 8 * r)) ⟨0, 31, 28⟩ ≠ 0 && fget (w (0xA00 + 8 * r)) ⟨0, 27, 26⟩ ≠ 3).map fun r => 640 + 2 * r

end Sys2Proof.Machine
end

