-- ==== Sys2Proof/Machine/Sol.lean ====
section
/-! DEFINITION. Valve drive: bank positions and the boost converter, profiles, deferral, closing detection and the coil model
(09). -/

namespace Sys2Proof.Machine

/-- Page of valve `n` (R194). -/
def solPage (n : Nat) : Nat := 0x74 + n

/-- Bank of valve `n` (R194). -/
def solBank (n : Nat) : Nat := n / 4

/-- The valves of bank `b`. -/
def bankValves (b : Nat) : List Nat := [4 * b, 4 * b + 1, 4 * b + 2, 4 * b + 3]

/-- The state of valve `n` beside its registers. -/
def solGet (s : State) (n : Nat) : SolSt := storeGet (fun _ => SolSt.init) s.sol n

/-- That state replaced. -/
def solSet (s : State) (n : Nat) (c : SolSt) : State := { s with sol := storeSet (fun _ => SolSt.init) s.sol n c }

/-! ### Converter and banks -/

/-- The converter switches (R197, R198, 09 Table 8): it stops at t2 of Park entry, and for BSTOV and TLATCH, forced ones too (R55). -/
def sbkRuns (s : State) : Bool :=
  cfgOn s 0x84 R.SBK.BST.EN && running s && s.park ≠ .closing && !s.sbk.ovStop && !s.sbk.latch &&
    (getF s 0x84 H.PFORCE &&& 0x12) = 0

/-- BSTAT.RUN follows the converter. -/
def sbkStat (s : State) : State := setFlag s 0x84 R.SBK.BSTAT.RUN (sbkRuns s)

/-- SEL in force for bank `b` (R219). -/
def bankSel (s : State) (b : Nat) : Nat := s.sbk.sel.getD b 1

/-- The bank's queue of deferred valves. -/
def bankQueue (s : State) (b : Nat) : List Nat := s.sbk.queues.getD b []

/-- A BOOST of valve `n` takes its bank to VBST: BSRC = VBST, the bank in AUTO, the converter enabled (R199, R200, R210). -/
def solShares (s : State) (n : Nat) : Bool :=
  cfg s (solPage n) R.SOL.CFG.BSRC = 0 && bankSel s (solBank n) = 0 && cfgOn s 0x84 R.SBK.BST.EN

/-- The valves of bank `b` in BOOST that take part in its overlap policy. -/
def bankBoosters (s : State) (b : Nat) : List Nat :=
  (bankValves b).filter fun n => (solGet s n).phase = .boost && (solGet s n).shared

/-- The bank is to be in its VBST position (09 Table 1). -/
def bankWants (s : State) (b : Nat) : Bool :=
  match bankSel s b with
  | 0 => !(bankBoosters s b).isEmpty
  | 1 => false
  | _ => true

/-- The bank is in its VBST position. -/
def bankPos (s : State) (b : Nat) : Bool := isSet s 0x84 (R.SBK.BANK.POS b)

/-- A bit per valve of bank `b` that satisfies `q`. -/
def bankBits (s : State) (b : Nat) (q : SolSt → Bool) : Nat :=
  (bankValves b).foldl (fun m n => if q (solGet s n) then m + 2 ^ (n % 4) else m) 0

/-- A window of valve `n` closes with result `r`, or a decay ends without one (R207 Table 4). -/
def solResult (s : State) (n r : Nat) : State :=
  if cfgOn s (solPage n) R.SOL.CLDC.EN then setF s (solPage n) R.SOL.CLD.RES r else s

/-! ### State code -/

/-- Level demand and its origin, TRIG profiles left out (R204, R214, R282). -/
def solDemand (s : State) (n : Nat) : Bool × Origin :=
  let p := solPage n
  let o := 84 + n
  let plain : Bool × Origin :=
    if rfxOn s o && configured s p then (true, .reflex)
    else if rfxOff s o && configured s p then (false, .none)
    else if isSet s p R.SOL.CMD.ON && enabled s p then (true, .cmd)
    else (false, .none)
  if safeInForce s o then
    match cfg s p R.SOL.SAFE.SAFE with
    | 0 => (false, .none)
    | 1 => (true, .safe)
    | 2 => ((solGet s n).level, .safe)
    | _ => if rfxOn s o && configured s p then (true, .reflex) else (false, .none)
  else plain

/-- A TRIG profile may run on: commands act, or SAFE = LAST continues the phase (R204, R214, R282). -/
def solTrigAllowed (s : State) (n : Nat) : Bool :=
  let p := solPage n
  let o := 84 + n
  if safeInForce s o then cfg s p R.SOL.SAFE.SAFE = 2 && modePermits s .safe
  else enabled s p && !rfxOff s o && modePermits s .cmd

/-- No trip, latch, lockout or asserted protection source (R212, R15). -/
def solProtPermits (s : State) (n : Nat) : Bool :=
  let c := (solGet s n).prot
  !c.lockout && !c.latchT && !c.latchD && !c.tripped && (getF s (solPage n) H.PFORCE &&& 0x6D) = 0

/-- SOL.STAT.STATE: the first state of Table 12 of 09 that applies (R223). -/
def solStateCode (s : State) (n : Nat) : Nat :=
  let c := solGet s n
  let d := solDemand s n
  if c.prot.latchT || c.prot.latchD || latchForced s (solPage n) then 7
  else if c.prot.lockout then 8
  else if c.prot.tripped && (c.prot.rdly || d.1) then 6
  else if parkHolds s || (d.1 && !modePermits s d.2) then 9
  else if shed s (84 + n) then 10
  else if c.deferred then 5
  else match c.phase with | .boost => 1 | .hold => 2 | .decay => 3 | .window => 4 | .off => 0

/-- STAT after the state of the valve has changed. -/
def solStat (s : State) (n : Nat) : State :=
  let p := solPage n
  let s1 := setF s p R.SOL.STAT.STATE (solStateCode s n)
  let s2 := setFlag s1 p R.SOL.STAT.SAFEACT (safeInForce s (84 + n))
  let s3 := setFlag s2 p R.SOL.STAT.RFXACT ((solDemand s n).2 = .reflex)
  setF s3 p R.SOL.STAT.RUSED (solGet s n).prot.rused

/-- The bank's position and its registers follow its valves; a decay on VBST becomes fast, an open window closes with FASTDEC
(R195, R200, R209). -/
def bankUpdate (s : State) (b : Nat) : State :=
  let pos := bankWants s b
  let s := setFlag s 0x84 (R.SBK.BANK.POS b) pos
  let s := setF s 0x84 (R.SBK.BANK.BOOSTING b) (bankBits s b fun c => c.phase = .boost)
  let s := setF s 0x84 (R.SBK.BANK.QUEUED b) (bankBits s b fun c => c.deferred)
  (bankValves b).foldl (fun s n =>
    let c := solGet s n
    let s := setFlag s (solPage n) R.SOL.STAT.BVST pos
    if !pos then s
    else
      match c.phase with
      | .decay => solSet s n { c with fast := true }
      | .window => solStat (solResult (solSet s n { c with phase := .off, fast := true }) n 3) n
      | _ => s) s

/-! ### Profile (R200 to R204, R210, R211) -/

/-- The valve leaves its bank's queue. -/
def bankUnqueue (s : State) (n : Nat) : State :=
  let b := solBank n
  let s := { s with sbk := { s.sbk with queues := s.sbk.queues.set b ((bankQueue s b).filter (· ≠ n)) } }
  solSet s n { solGet s n with deferred := false }

/-- BOOST begins: the low side turns on, the bank changes over, overlapping valves of a SHARE bank extend their limit. -/
def solBoost (s : State) (n : Nat) : State :=
  let p := solPage n
  let b := solBank n
  let sh := solShares s n
  let s := solSet s n { solGet s n with phase := .boost, gate := true, deferred := false, fast := false, shared := sh }
  let s := setFlag s p R.SOL.STAT.BVBAT (!sh && bankSel s b ≠ 2)
  let l := bankBoosters s b
  let ext := sh && cfgOn s 0x84 (R.SBK.OVL.POL b) && decide (2 ≤ l.length)
  let s := setFlag s p R.SOL.STAT.SHXT false
  let s := if ext then l.foldl (fun s m => solStat (setFlag s (solPage m) R.SOL.STAT.SHXT true) m) s else s
  bankUpdate s b

/-- A BOOST request: granted, or deferred behind the valve that boosts (R210). From DECAY and WINDOW a deferred valve chops at
IHOLD (R211). -/
def solRequest (s : State) (n : Nat) : State :=
  let b := solBank n
  let c := solGet s n
  if c.deferred then s
  else if solShares s n && !cfgOn s 0x84 (R.SBK.OVL.POL b) && !(bankBoosters s b).isEmpty then
    let s := { s with sbk := { s.sbk with queues := s.sbk.queues.set b (bankQueue s b ++ [n]) } }
    let s := setF s 0x84 (R.SBK.BANK.DEFCNT b) (satInc 65535 (getF s 0x84 (R.SBK.BANK.DEFCNT b)))
    let chop := c.phase = .decay || c.phase = .window
    bankUpdate (solSet s n { c with deferred := true, phase := if chop then .hold else c.phase, gate := c.gate || chop }) b
  else solBoost s n

/-- A deferred valve may enter BOOST: what it was commanded to do is still permitted (R14, R60). One that is not leaves its queue when
it is evaluated in its turn. -/
def solMayBoost (s : State) (n : Nat) : Bool :=
  let d := solDemand s n
  !shed s (84 + n) && solProtPermits s n && ((d.1 && modePermits s d.2) || ((solGet s n).trig && solTrigAllowed s n))

/-- The valve has left BOOST: BDONE, the head of the queue enters BOOST, the bank follows (R200, R210). -/
def solLeaveBoost (s : State) (n dur ipk : Nat) : State :=
  let p := solPage n
  let b := solBank n
  let s := setF (setF s p R.SOL.BOOST.TBST dur) p R.SOL.BOOST.IPKR ipk
  let s := raiseLine (setFlag s p R.SOL.EVT.BDONE true) (44 + b)
  match (bankQueue s b).find? (solMayBoost s) with
  | some m => if (bankBoosters s b).isEmpty then solStat (solBoost (bankUnqueue s m) m) m else bankUpdate s b
  | none => bankUpdate s b

/-- The low side turns off into DECAY from any phase that carries current; BOOST is left first (R201, R212), and the duration and
current that SOL.BOOST then shows are free values: no measurement comes with the end of a command (notes/assumptions/12). -/
def solDecay (s : State) (n : Nat) : State :=
  let c := solGet s n
  match c.phase with
  | .boost =>
    let s := solSet s n { c with phase := .decay, gate := false, shared := false, fast := false }
    let d := freshNat s 65536
    let i := freshNat d.1 4096
    solLeaveBoost i.1 n d.2 i.2
  | .hold => bankUpdate (solSet s n { c with phase := .decay, gate := false, fast := bankPos s (solBank n) }) (solBank n)
  | _ => s

/-- The command ends: HOLD and BOOST pass into DECAY, a deferral leaves its queue (R202, R211). -/
def solEnd (s : State) (n : Nat) : State :=
  let s := if (solGet s n).deferred then bankUpdate (bankUnqueue s n) (solBank n) else s
  solDecay s n

/-- A limited coil under REFUSE: a new command is ignored (R216). -/
def solRefuses (s : State) (n : Nat) : Bool :=
  isSet s (solPage n) R.SOL.STAT.COILLIM && cfgOn s (solPage n) R.SOL.THM.ACT

/-- A new command (R202, R203, R216): refused on a limited coil under REFUSE; in BOOST it only restarts the TBMAX count. -/
def solNew (s : State) (n : Nat) (trig : Bool) : State :=
  let p := solPage n
  let c := solGet s n
  if solRefuses s n then s
  else
    let s := if c.phase = .decay || c.phase = .window then solResult s n 5 else s
    let s := solSet s n { c with trig := trig, holdMs := 0 }
    if c.phase = .boost then s else solRequest s n

/-- The valve after anything that R14 looks at has changed: a level demand that comes into effect is a new command of the ON
kind (notes/assumptions/21), one that ends, ends the profile; so does a TRIG profile that may not run on. -/
def solUpdate (s : State) (n : Nat) : State :=
  let p := solPage n
  let safe := safeInForce s (84 + n)
  let entered := safe && !isSet s p R.SOL.STAT.SAFEACT
  let d := solDemand s n
  let free := !shed s (84 + n) && solProtPermits s n
  let want := d.1 && modePermits s d.2 && free
  let c := solGet s n
  let rfx := d.2 = .reflex && d.1
  let fresh := want && (!c.level || (rfx && !c.rfx) || (entered && cfg s p R.SOL.SAFE.SAFE = 1))
  let s := solSet s n { c with level := want, rfx := rfx }
  let s :=
    if fresh then solNew s n false
    else if want then s
    else
      let runs := c.deferred || c.phase = .boost || c.phase = .hold
      if runs && !(c.trig && free && solTrigAllowed s n) then solEnd s n else s
  solStat s n

/-- Commands act on the valve (R204, R214, R282). -/
def solTakes (s : State) (n : Nat) : Bool := enabled s (solPage n) && !safeInForce s (84 + n) && !rfxOn s (84 + n)

/-- A written TRIG finds the valve free but for its protection: nothing else of R14 holds it, and no REFUSE ignores it (R202, R216). -/
def solTrigOpen (s : State) (n : Nat) (v : Word) : Bool :=
  fget v R.SOL.CMD.TRIG = 1 && solTakes s n && solTrigAllowed s n && !shed s (84 + n) && !solRefuses s n

/-- A written TRIG is a new command (R202). -/
def solTrigs (s : State) (n : Nat) (v : Word) : Bool := solTrigOpen s n v && solProtPermits s n

/-- A write of SOL.CMD (R202): ON = 0 ends the command, ON from 0 to 1 and TRIG are new commands; one that comes with ON = 0 restarts the
profile in place of its end (R203). A page that takes no commands only stores ON and STAYON. -/
def solCmd (s : State) (n : Nat) (v : Word) : State :=
  let p := solPage n
  let on := fget v R.SOL.CMD.ON
  let s := setF (setF s p R.SOL.CMD.ON on) p R.SOL.CMD.STAYON (fget v R.SOL.CMD.STAYON)
  if solTrigs s n v then
    solStat (solNew (solUpdate (solSet s n { solGet s n with trig := true }) n) n true) n
  else
    let ends := solTakes s n && on = 0 && fget v R.SOL.CMD.TRIG = 0
    solUpdate (if ends then solEnd (solSet s n { solGet s n with trig := false }) n else s) n

/-- I reaches IPEAK: BOOST passes into HOLD, whose first phase is an off-time (R201). -/
def solPeak (s : State) (n dur ipk : Nat) : State :=
  let c := solGet s n
  if c.phase ≠ .boost then s
  else
    let s := solSet s n { c with phase := .hold, gate := false, shared := false, holdMs := 0 }
    solStat (solLeaveBoost s n dur ipk) n

/-- FCODE and VLVFAIL (R201, R208). -/
def solFail (s : State) (n code : Nat) : State :=
  raiseP (setF s (solPage n) R.SOL.STAT.FCODE code) (solPage n) 1

/-- BOOST lasts its limit: HOLD with BOOSTTO (R201). -/
def solBoostTimeout (s : State) (n dur ipk : Nat) : State :=
  if (solGet s n).phase ≠ .boost then s else solFail (solPeak s n dur ipk) n 1

/-- The comparator crosses a hysteresis limit in HOLD: the low side turns off at the upper, on at the lower one (R201). The sample comes
from the on-time that ends; VALID says that this was at least 12 µs (R220). -/
def solChop (s : State) (n : Nat) (off : Bool) (code : Nat) (long : Bool) : State :=
  let p := solPage n
  let c := solGet s n
  if c.phase ≠ .hold then s
  else
    let t := solSet s n { c with gate := !off }
    if off then setFlag (setF t p R.SOL.IMEAS.CODE code) p R.SOL.IMEAS.VALID long else t

/-- THOLD expires on a TRIG profile (R202). -/
def solHoldExpiry (s : State) (n : Nat) : State :=
  let c := solGet s n
  if c.phase = .hold && c.trig && !c.deferred then solStat (solEnd s n) n else s

/-- Open closing windows (R148). -/
def openWindows (s : State) : Nat := (s.sol.filter fun e => e.2.phase = .window).length

/-- The slice for a new closing window, where fewer than six are open (07 Table 1, R148): up to four on slice 3, up to two on slice 2; one that
gives samples first, then slice 3 (DESIGN CHOICE, notes/assumptions/87). -/
def windowOn3 (s : State) : Bool :=
  let on (b : Bool) : Nat := (s.sol.filter fun e => e.2.phase = .window && e.2.win3 == b).length
  if decide (4 ≤ on true) then false
  else if decide (2 ≤ on false) then true
  else msqFresh s (.window true) || !msqFresh s (.window false)

/-- The current has reached zero: DECAY ends, and a closing window opens unless the decay was fast or six are open (R206, R207,
R209, R148). -/
def solDecayEnd (s : State) (n : Nat) : State :=
  let p := solPage n
  let c := solGet s n
  if c.phase ≠ .decay then s
  else
    let s0 := solSet s n { c with phase := .off }
    if !cfgOn s p R.SOL.CLDC.EN then solStat s0 n
    else if c.fast then solStat (solResult s0 n 3) n
    else if decide (6 ≤ openWindows s) then raiseP (solStat (solResult s0 n 4) n) 0x1E 4
    else solStat (solSet s n { c with phase := .window, win3 := windowOn3 s }) n

/-- 50 ms of decay without zero current (R207). -/
def solNoZero (s : State) (n : Nat) : State :=
  if (solGet s n).phase = .decay then solResult s n 6 else s

/-- Sum of four samples up to index `k`, four times a[k] of R206. -/
def cldA (v : List Int) (k : Nat) : Int :=
  v.getD k 0 + v.getD (k - 1) 0 + v.getD (k - 2) 0 + v.getD (k - 3) 0

/-- The first sample at which |d2| reaches TH (R206); `blk` and `st` in µs. -/
def cldClosing (blk st th : Nat) (v : List Int) : Option Nat :=
  (List.range v.length).find? fun k =>
    decide (blk + 2 * st + 3 ≤ k) &&
      decide (4 * th ≤ (cldA v k - 2 * cldA v (k - st) + cldA v (k - 2 * st)).natAbs)

/-- VCOIL shows the latest sample of a window (R206, R220); a failed slice without the spare gives none (R147). -/
def solVcoil (s : State) (n code : Nat) : State :=
  if !msqFresh s (.window (solGet s n).win3) then s
  else setF (setFlag s (solPage n) R.SOL.VCOIL.VALID true) (solPage n) R.SOL.VCOIL.CODE code

/-- The samples of an open window, the first at its opening, `tdec` µs after the start of decay: a closing sets TCLOSE, VALID,
CLOSED, and clears MISS (R206, R208). A window on a failed slice has no samples (R147). TCLOSE keeps 16 bits (DESIGN CHOICE,
notes/assumptions/87). -/
def solClosing (s : State) (n tdec : Nat) (v : List (BitVec 12)) : State :=
  let p := solPage n
  let c := solGet s n
  if c.phase ≠ .window || !msqFresh s (.window c.win3) then s
  else
    let st := cfg s p R.SOL.CLDC.STEP
    match cldClosing (cfg s p R.SOL.CLDC.BLK * 10) st (cfg s p R.SOL.CLDC.TH) (v.map BitVec.toInt) with
    | none => match v.getLast? with | some x => solVcoil s n x.toNat | none => s
    | some k =>
      let s := solVcoil s n (v.getD k 0).toNat
      let s := setF (setF s p R.SOL.CLD.TCLOSE (tdec + k - st)) p R.SOL.CLD.RES 1
      let s := setFlag (setF s p R.SOL.CLD.MISS 0) p R.SOL.EVT.CLOSED true
      solStat (raiseLine (solSet s n { c with phase := .off }) (44 + solBank n)) n

/-- The window ends without a closing, its last sample in VCOIL (R206, R207, R208). -/
def solWindowExpiry (s : State) (n code : Nat) : State :=
  let p := solPage n
  let c := solGet s n
  if c.phase ≠ .window then s
  else
    let miss := satInc 255 (getF s p R.SOL.CLD.MISS)
    let s := setF (setF (solVcoil (solSet s n { c with phase := .off }) n code) p R.SOL.CLD.RES 2) p R.SOL.CLD.MISS miss
    let s := solStat s n
    if cfg s p R.SOL.CLDC.MISS ≠ 0 && miss = cfg s p R.SOL.CLDC.MISS then solFail s n 2 else s

/-! ### Coil model (R215, R216) -/

/-- HSC.TEMP code of T_R for a resistance in 10 mΩ (R215): 1/16 K from −55 °C. -/
def tempOfR (r rref : Nat) : Nat :=
  if rref = 0 then 0
  else (clampInt 0 4095 (16 * 75 + (16 * 100000 * ((r : Int) - (rref : Int))) / (393 * (rref : Int)))).toNat

/-- R_c in 10 mΩ from the pairs: mean voltage (30 mV) over mean current (2 mA). -/
def coilR (l : List (Nat × Nat)) : Nat :=
  let v := (l.map Prod.fst).sum
  let i := (l.map Prod.snd).sum
  if i = 0 then 0 else min 65535 (1500 * v / i)

/-- The coil limit ends a HOLD under LIMIT that has lasted TMINH: more than TMINH of the 1 ms ticks, the first of which came within 1 ms
(R216); TMINH may end between two ticks (solMinHold). -/
def solLimitAct (s : State) (n : Nat) : State :=
  let p := solPage n
  let c := solGet s n
  if isSet s p R.SOL.STAT.COILLIM && !cfgOn s p R.SOL.THM.ACT && c.phase = .hold && !c.deferred &&
      decide (cfg s p R.SOL.THM2.TMINH < c.holdMs) then solStat (solEnd s n) n else s

/-- The coil model of a valve, each 1 ms, with the pair taken in HOLD and the mean power in mW (R215, R216). -/
def solCoil (s : State) (n : Nat) (pair : Option (Nat × Nat)) (mw : Nat) : State :=
  let p := solPage n
  let c := solGet s n
  let c := { c with holdMs := if c.phase = .hold then c.holdMs + 1 else c.holdMs }
  if !cfgOn s p R.SOL.THM.EN then
    setFlag (setFlag (solSet s n c) p R.SOL.TCOIL.SRC false) p R.SOL.STAT.COILLIM false
  else
    let rref := cfg s p R.SOL.THM.RREF
    let taken := if c.phase = .hold then pair else none
    let pairs := match taken with | some x => (x :: c.pairs).take 16 | none => c.pairs
    let age := if taken.isSome then 0 else min 101 (c.trAge + 1)
    let steady : Int := ((cfg s p R.SOL.THM2.RTH * mw * 2 ^ 50 / 2000 : Nat) : Int)
    let th : Int := (c.thetaE : Int) + (steady - (c.thetaE : Int)) / ((cfg s p R.SOL.THM2.TAU * 1000 : Nat) : Int)
    let th := (max 0 th).toNat
    let r := coilR pairs
    let te := min 4095 (max 240 (min 2880 (getF s 0x1E R.MSQ.TBASE.CODE)) + th * 16 / 2 ^ 50)
    let tr := if r = 0 || decide (100 < age) then 0 else tempOfR r rref
    let tc := max te tr
    let s := solSet s n { c with thetaE := th, pairs := pairs, trAge := age }
    let s := setF (setFlag (setF s p R.SOL.TCOIL.CODE tc) p R.SOL.TCOIL.SRC (decide (te < tr))) p R.SOL.RCOIL.R r
    let was := isSet s p R.SOL.STAT.COILLIM
    let tl := cfg s p R.SOL.THM.TLIM
    let lim := decide (tl ≤ tc) || (was && decide (tl ≤ tc + 160))
    let s := setFlag s p R.SOL.STAT.COILLIM lim
    solLimitAct (if lim && !was then raiseP s p 4 else s) n

/-- TMINH has passed since the HOLD of a limited valve began (R216). -/
def solMinHold (s : State) (n : Nat) : State :=
  let p := solPage n
  let c := solGet s n
  if isSet s p R.SOL.STAT.COILLIM && !cfgOn s p R.SOL.THM.ACT && c.phase = .hold && !c.deferred
  then solStat (solEnd s n) n else s

/-! ### SBK page -/

/-- A new SEL takes effect for bank `b` while none of its valves is in BOOST (R219). -/
def bankSelApply (s : State) (b : Nat) : State :=
  if (bankValves b).any fun n => (solGet s n).phase = .boost then s
  else bankUpdate { s with sbk := { s.sbk with sel := s.sbk.sel.set b (cfg s 0x84 (R.SBK.SEL.SEL b)) } } b

/-- An apply edge of SBK: the converter and the banks that can follow at once. -/
def sbkApplied (s : State) : State := sbkStat ((List.range 4).foldl bankSelApply s)

/-- The decay of a restored energy model over the sleep, once TAU is known (R128, R215). -/
def solSlept (s : State) (n : Nat) : State :=
  let c := solGet s n
  let tau := cfg s (solPage n) R.SOL.THM2.TAU
  if c.slept = 0 || tau = 0 then s else solSet s n { c with thetaE := decayed c.thetaE c.slept (100 * tau), slept := 0 }

/-- An apply edge of a valve page. -/
def solApplied (s : State) (n : Nat) : State :=
  let s := solSlept s n
  solUpdate (if cfgOn s (solPage n) R.SOL.THM.EN then s else setFlag s (solPage n) R.SOL.STAT.COILLIM false) n

/-- The consistency rules of a SOL page (R222). -/
def solConsist (g : Fld → Nat) : Option Nat :=
  let ipk := g R.SOL.PROF.IPEAK
  let ih := g R.SOL.HOLD.IHOLD
  let hy := g R.SOL.HOLD.IHYS
  if ipk = 0 || decide (3000 < ipk) || g R.SOL.PROF.TBMAX = 0 then some 512
  else if decide (2 * ipk ≤ 2 * ih + hy) then some 512
  else if decide (750 < ih) || decide (hy < 5) || decide (ih < hy) then some 513
  else if g R.SOL.CLDC.EN ≠ 0 && (g R.SOL.CLDC.STEP = 0 || g R.SOL.CLDC.TH = 0 || g R.SOL.CLDW.WIN = 0) then some 516
  else if g R.SOL.THM.EN ≠ 0 && (g R.SOL.THM.RREF = 0 || g R.SOL.THM.TLIM = 0 || g R.SOL.THM2.RTH = 0 ||
      g R.SOL.THM2.TAU = 0 || (g R.SOL.THM.ACT = 0 && g R.SOL.THM2.TMINH = 0)) then some 518
  else if decide (9 < g R.SOL.PROT.RDLY) then some 520
  else none

/-- The consistency rules of SBK (R219). -/
def sbkConsist (g : Fld → Nat) : Option Nat :=
  let en := g R.SBK.BST.EN ≠ 0
  let vset := g R.SBK.BST.VSET
  if en && (decide (vset < 1600) || decide (4000 < vset) || decide (vset ≤ g R.SBK.BSTUV.VMIN)) then some 512
  else if !en && (List.range 4).any (fun b => g (R.SBK.SEL.SEL b) = 2) then some 512
  else if (List.range 4).any (fun b => g (R.SBK.OVL.POL b) ≠ 0 && g (R.SBK.SEL.SEL b) ≠ 0) then some 514
  else none

end Sys2Proof.Machine
end

