-- ==== Sys2Proof/Machine/Light.lean ====
section
/-! DEFINITION. LED strings, the indicator matrix, frame memory and its swap, the animation player (10); pixel chain ports
(11). -/

namespace Sys2Proof.Machine

/-! ### Frame memory -/

/-- Base of buffer A or B of FRM (R240). -/
def frmBase (b : Bool) : Nat := if b then 0x20240000 else 0x20200000

/-- The code of the halfword at an address: bits 11:0 (R240). -/
def frmCode (s : State) (a : Nat) : Nat := bytesToNat (memGetList s.mem a 2) % 4096

/-- Entries of the range `[lo, lo + len)` of a memory. -/
def memRange (m : List Host.Cell) (lo len : Nat) : List Host.Cell := m.filter fun e => lo ≤ e.1 && e.1 < lo + len

/-- `len` bytes copied from `src` to `dst`, as one step. -/
def memCopy (m : List Host.Cell) (src dst len : Nat) : List Host.Cell :=
  (m.filter fun e => e.1 < dst) ++ (memRange m src len).map (fun e => (e.1 - src + dst, e.2)) ++
    m.filter fun e => dst + len ≤ e.1

/-- TBS as the environment gives it with an event; it never steps back but by a load (R19, notes/assumptions/22), and stands while the BUS
clock does (R26). -/
def setNow (s : State) (now : Nat) : State := if s.tbs ≤ now && !busLost s then { s with tbs := now } else s

/-! ### Pages and states -/

/-- Page of string `n`. -/
def lstPage (n : Nat) : Nat := 0x88 + n

/-- Page of chain port `c`. -/
def lchPage (c : Nat) : Nat := 0x8D + c

def lstGet (s : State) (n : Nat) : LstSt := storeGet (fun _ => LstSt.init) s.lst n
def lstSet (s : State) (n : Nat) (c : LstSt) : State := { s with lst := storeSet (fun _ => LstSt.init) s.lst n c }
def lchGet (s : State) (n : Nat) : LchSt := storeGet (fun _ => LchSt.init) s.lch n
def lchSet (s : State) (n : Nat) (c : LchSt) : State := { s with lch := storeSet (fun _ => LchSt.init) s.lch n c }

/-- Trim factor of die B, for an output of priority class `prio` (R289). -/
def trimB (s : State) (prio : Nat) : Nat := if prio = 0 then 4096 else getF s 0x1F (R.GOV.TRIM.G 3)

/-! ### Strings (R226 to R234) -/

/-- Frame length of a string in BUS clocks (10 Table 1). -/
def lstFrame (s : State) (n : Nat) : Nat :=
  match cfg s (lstPage n) R.LST.CFG.FRATE with | 0 => 200000 | 1 => 160000 | 2 => 100000 | _ => 80000

/-- Demand: whether there is any, whether it is a full one (RFXD.LEVEL, every populated position), and its origin (R231,
R234, R282). -/
def lstDemand (s : State) (n : Nat) : Bool × Bool × Origin :=
  let p := lstPage n
  let o := 100 + n
  let c := lstGet s n
  if safeInForce s o then
    match cfg s p R.LST.SAFE.SAFE with
    | 0 => (false, false, .none)
    | 1 => (true, true, .safe)
    | 2 => (c.last, c.lastFull, .safe)
    | _ => if rfxOn s o && configured s p then (true, true, .reflex) else (false, false, .none)
  else if rfxOn s o && configured s p then (true, true, .reflex)
  else if rfxOff s o && configured s p then (false, false, .none)
  else if isSet s p R.LST.CMD.ON && enabled s p then (true, false, .cmd)
  else (false, false, .none)

/-- No trip, latch, lockout or asserted protection source (R233, R15). -/
def lstProtPermits (s : State) (n : Nat) : Bool :=
  let c := (lstGet s n).prot
  !c.lockout && !c.latchT && !c.latchD && !c.tripped && (getF s (lstPage n) H.PFORCE &&& 0x4F) = 0

/-- LST.STAT.STATE (10 Table 7). -/
def lstStateCode (s : State) (n : Nat) : Nat :=
  let c := lstGet s n
  let d := lstDemand s n
  if c.prot.latchT || c.prot.latchD || latchForced s (lstPage n) then 5
  else if c.prot.lockout then 6
  else if c.prot.tripped && (c.prot.rdly || d.1) then 4
  else if parkHolds s || (d.1 && !modePermits s d.2.2) then 8
  else if shed s (100 + n) then 7
  else if c.phase = 1 || c.phase = 2 then 1
  else if c.phase = 3 then 2
  else 0

/-- STAT after the state of the string has changed. -/
def lstStat (s : State) (n : Nat) : State :=
  let p := lstPage n
  let s1 := setF s p R.LST.STAT.STATE (lstStateCode s n)
  let s2 := setFlag s1 p R.LST.STAT.SAFEACT (safeInForce s (100 + n))
  let s3 := setFlag s2 p R.LST.STAT.RFXACT ((lstDemand s n).2.2 = .reflex)
  setF s3 p R.LST.STAT.RUSED (lstGet s n).prot.rused

/-- The level in force: LEFF and FLOOR (R228, R230). -/
def lstLevel (s : State) (n l : Nat) : State :=
  let p := lstPage n
  setFlag (setF s p R.LST.STAT.LEFF l) p R.LST.STAT.FLOOR (decide (l < 256))

/-- A frame boundary: TBS is a multiple of the frame length (R225). -/
def frameStarts (s : State) (n : Nat) : Bool := decide (s.tbs % n = 0)

/-- The string repeats its frame under SAFE = LAST, and no swap reaches it (R234). -/
def lstHolds (s : State) (n : Nat) : Bool := safeInForce s (100 + n) && cfg s (lstPage n) R.LST.SAFE.SAFE = 2

/-- L and the pulse widths that the next frame takes: the record of a buffer, or the full demand, or under
SAFE = LAST the present ones again (R230, R231, R234, 10 Table 3). -/
def lstRecordOf (s : State) (n : Nat) (front : Bool) : List Nat :=
  let p := lstPage n
  let d := lstDemand s n
  if lstHolds s n then (lstGet s n).frame
  else if d.2.1 then cfg s p R.LST.RFXD.LEVEL :: List.replicate 16 4095
  else
    let a := frmBase front + 0x40 * n
    frmCode s a :: (List.range 16).map fun k => frmCode s (a + 4 + 2 * k)

/-- The record that applies at a boundary now. -/
def lstRecord (s : State) (n : Nat) : List Nat := lstRecordOf s n (isSet s (lstPage n) R.LST.STAT.FRONT)

/-- L_eff = floor(L × g / 4096) (R230). -/
def lstLeff (s : State) (n : Nat) (rec : List Nat) : Nat :=
  rec.headD 0 * trimB s (cfg s (lstPage n) R.LST.CFG.PRIO) / 4096

/-- The string after anything that R14 looks at has changed: demand that begins starts the soft-start, one that ends stops the
converter (R231, R233); the frame that SAFE = LAST repeats outlives a trip (R234). -/
def lstUpdate (s : State) (n : Nat) : State :=
  let p := lstPage n
  let c := lstGet s n
  let s :=
    if safeInForce s (100 + n) && !isSet s p R.LST.STAT.SAFEACT
    then lstSet s n { c with last := c.phase ≠ 0, lastFull := c.full } else s
  let d := lstDemand s n
  let want := d.1 && modePermits s d.2.2 && !shed s (100 + n) && lstProtPermits s n
  let keep := lstHolds s n
  let c := lstGet s n
  let s :=
    if !want then (if c.phase = 0 then s else lstLevel (lstSet s n { c with phase := 0, full := false, carry := [], frame := if keep then c.frame else [] }) n 0)
    else if c.phase = 0 then
      (if lstLeff s n (lstRecord s n) = 0 then lstSet s n { c with phase := 4, full := d.2.1 }
       else lstSet s n { c with phase := 1, full := d.2.1 })
    else lstSet s n { c with full := d.2.1 }
  lstStat s n

/-- The converter ends soft-start (R231). -/
def lstSoftEnd (s : State) (n : Nat) : State :=
  let c := lstGet s n
  if c.phase = 1 then lstStat (lstSet s n { c with phase := 2 }) n else s

/-- Lit clocks of position `k` in the frame in progress (R229). -/
def lstLit (s : State) (n k : Nat) : Nat :=
  let c := lstGet s n
  let l := getF s (lstPage n) R.LST.STAT.LEFF
  let w := if decide (256 ≤ l) then lstFrame s n else l * lstFrame s n / 256
  if c.phase = 3 then c.frame.getD (k + 1) 0 * w / 4095 else 0

/-- Clock of the frame at which position `k` is lit (R229). -/
def lstStart (s : State) (n k : Nat) : Nat := k * cfg s (lstPage n) R.LST.CFG.STAG * 80

/-- Clocks of the next frame that position `k`'s lit time runs into (R229, as R104). -/
def lstCarry (s : State) (n k : Nat) : Nat := lstStart s n k + lstLit s n k - lstFrame s n

/-- Position `k` is lit now, its bypass switch open: from its start clock on, or still from the frame before (R225, R229). -/
def lstLitNow (s : State) (n k : Nat) : Bool :=
  let t := s.tbs % lstFrame s n
  let p := lstPage n
  let open' := (cfg s p R.LST.CFG.POP).testBit k && !(cfgOn s p R.LST.DIAG.AUTOBP && (getF s p R.LST.LOPEN.OPEN).testBit k)
  open' && (lstGet s n).phase = 3 &&
    (decide (t < (lstGet s n).carry.getD k 0) || (decide (lstStart s n k ≤ t) && decide (t < lstStart s n k + lstLit s n k)))

/-- Position `k` is bypassed whatever its pulse width: unpopulated, or open under AUTOBP (R226, R232). -/
def lstBypassed (s : State) (n k : Nat) : Bool :=
  let p := lstPage n
  !(cfg s p R.LST.CFG.POP).testBit k || (cfgOn s p R.LST.DIAG.AUTOBP && (getF s p R.LST.LOPEN.OPEN).testBit k)

/-- Position `k` has a lit time of at least 12 µs in which its comparator is evaluated (R232): that of the frame in progress, or one that
runs on from the frame before (R229). -/
def lstJudged (s : State) (n k : Nat) : Bool :=
  let carry := if (lstGet s n).phase = 3 then (lstGet s n).carry.getD k 0 else 0
  !lstBypassed s n k &&
    (decide (960 ≤ lstLit s n k) || (carry ≠ 0 && decide (960 ≤ carry + lstFrame s n - lstStart s n k)))

/-- An open LED at a lit position (R232). -/
def lstOpen (s : State) (n k : Nat) : State :=
  let p := lstPage n
  if !lstJudged s n k then s
  else raiseP (setF s p R.LST.LOPEN.OPEN (getF s p R.LST.LOPEN.OPEN ||| 2 ^ k)) p 4

/-- A shorted LED, below VSHT in three consecutive frames (R232). -/
def lstShort (s : State) (n k : Nat) : State :=
  let p := lstPage n
  if !lstJudged s n k || cfg s p R.LST.DIAG.VSHT = 0 then s
  else raiseP (setF s p R.LST.LSHORT.SHORT (getF s p R.LST.LSHORT.SHORT ||| 2 ^ k)) p 5

/-! ### Matrix (R235 to R239) -/

/-- Demand of the matrix (R239). -/
def lmxDemand (s : State) : Bool × Origin :=
  if safeInForce s 104 then (if cfgOn s 0x8C R.LMX.SAFE.SAFE then (s.lmx.last, .safe) else (false, .none))
  else if isSet s 0x8C R.LMX.CMD.ON && enabled s 0x8C then (true, .cmd) else (false, .none)

/-- LMX.STAT.STATE (10 Table 9). -/
def lmxStateCode (s : State) : Nat :=
  let c := s.lmx
  let d := lmxDemand s
  if c.prot.latchT || c.prot.latchD || latchForced s 0x8C then 5
  else if c.prot.lockout then 6
  else if parkHolds s || (d.1 && !modePermits s d.2) then 8
  else if shed s 104 then 7
  else if c.on then 2 else 0

/-- STAT after the state of the matrix has changed. -/
def lmxStat (s : State) : State :=
  let s1 := setF s 0x8C R.LMX.STAT.STATE (lmxStateCode s)
  setF (setFlag s1 0x8C R.LMX.STAT.SAFEACT (safeInForce s 104)) 0x8C R.LMX.STAT.RUSED s.lmx.prot.rused

/-- The matrix after anything that R14 looks at has changed. -/
def lmxUpdate (s : State) : State :=
  let s := if safeInForce s 104 && !isSet s 0x8C R.LMX.STAT.SAFEACT
    then { s with lmx := { s.lmx with last := s.lmx.on } } else s
  let d := lmxDemand s
  let c := s.lmx.prot
  let want := d.1 && modePermits s d.2 && !shed s 104 && !c.lockout && !c.latchT && !c.latchD && !c.tripped &&
    (getF s 0x8C H.PFORCE &&& 0x4C) = 0
  lmxStat { s with lmx := { s.lmx with on := want, pw := if want then s.lmx.pw else [],
                                       raw := if want || (safeInForce s 104 && s.lmx.last) then s.lmx.raw else [] } }

/-- Row `r` conducts in its slot (R235, R238). -/
def lmxRowOn (s : State) (r : Nat) : Bool :=
  s.lmx.on && (cfg s 0x8C R.LMX.CFG.ROWEN).testBit r && !(getF s 0x8C R.LMX.ROWSC.ROW).testBit r

/-- Column `c` sinks its current (R235, R238). -/
def lmxColOn (s : State) (c : Nat) : Bool :=
  s.lmx.on && (cfg s 0x8C R.LMX.COLEN.COL).testBit c && !(getF s 0x8C R.LMX.COLSTB.COL).testBit c

/-- Matrix frame length and row slot in BUS clocks (10 Table 1, R235). -/
def lmxFrameLen : Nat := 333312
def lmxSlot : Nat := 27776

/-- The row slot in progress (R225, R235). -/
def lmxRow (s : State) : Nat := s.tbs % lmxFrameLen / lmxSlot

/-- LED (r, c) is lit now: in its row's slot, after the 80 clocks of blanking, for its pulse width (R235). -/
def lmxLitNow (s : State) (r c : Nat) : Bool :=
  let t := s.tbs % lmxFrameLen % lmxSlot
  lmxRow s = r && lmxRowOn s r && lmxColOn s c && decide (80 ≤ t) && decide (t < 80 + s.lmx.pw.getD (24 * r + c) 0 * 27696 / 4095)

/-- An open LED, in an on-time of at least 12 µs (R238). -/
def lmxOpen (s : State) (r c : Nat) : State :=
  let i := 24 * r + c
  if lmxRowOn s r && lmxColOn s c && decide (960 ≤ s.lmx.pw.getD i 0 * 27696 / 4095) then
    let f := R.LMX.OPEN.OPEN (i / 32)
    raiseP (setF s 0x8C f (getF s 0x8C f ||| 2 ^ (i % 32))) 0x8C 4
  else s

/-- A row short (R238). -/
def lmxRowShort (s : State) (r : Nat) : State :=
  if lmxRowOn s r then raiseP (setF s 0x8C R.LMX.ROWSC.ROW (getF s 0x8C R.LMX.ROWSC.ROW ||| 2 ^ r)) 0x8C 0 else s

/-- A column short to supply (R238). -/
def lmxColStb (s : State) (c : Nat) : State :=
  if lmxColOn s c then raiseP (setF s 0x8C R.LMX.COLSTB.COL (getF s 0x8C R.LMX.COLSTB.COL ||| 2 ^ c)) 0x8C 1 else s

/-! ### What a chain reads (R257 to R260) -/

/-- Frame length of port `c` in BUS clocks (11 Table 2). -/
def lchFrameLen (code : Nat) : Nat := match code with | 0 => 1600000 | 1 => 1333248 | 2 => 800000 | _ => 666624

/-- Trim of a port (R265). -/
def lchG (s : State) (c : Nat) : Nat :=
  let f := cfg s (lchPage c) R.LCH.CFG.FEED
  if cfgOn s (lchPage c) R.LCH.CFG.GTRIM then hscG s f else 4096

/-- The records of the buffer the port displays, three values each (R257, R258). -/
def lchRecords (s : State) (c : Nat) : List Nat :=
  let a := frmBase (isSet s (lchPage c) R.LCH.STAT.FRONT) + 0x1000 + 0x2000 * c
  (List.range (3 * cfg s (lchPage c) R.LCH.CFG.NPIX)).map fun j => frmCode s (a + 2 * j)

/-- The values of a frame of the records `rec'` with trim `g` in the order sent (R257, R258, R265); zeros from chain position `late` on
(R260). -/
def lchFrame (s : State) (c g : Nat) (late : Option Nat) (rec' : List Nat) : List Nat :=
  let p := lchPage c
  let n := cfg s p R.LCH.CFG.NPIX
  (List.range n).flatMap fun q =>
    let i := if cfgOn s p R.LCH.CFG.REV then n - 1 - q else q
    if decide (late.getD n ≤ q) then [0, 0, 0] else (List.range 3).map fun k => rec'.getD (3 * i + k) 0 * g / 4096

/-- The chain position whose record is the first of the frame in progress still to be read: each is read while the pixel before it is sent,
that of position 0 by the boundary (R260; DESIGN CHOICE, notes/assumptions/23: at the start of that pixel). -/
def lchUnread (s : State) (c : Nat) : Nat :=
  let t := s.tbs % lchFrameLen (cfg s (lchPage c) R.LCH.CFG.FRATE)
  if decide (t < 30000) then 1 else (t - 30000) / 1440 + 2

/-- What the port displays has changed in the course of a frame: the records still to be read come from there (R260). -/
def lchFollow (s : State) (c : Nat) : State :=
  let p := lchPage c
  let x := lchGet s c
  if x.phase ≠ 2 || x.blanking || !x.live then s
  else
    let now := lchRecords s c
    let n := cfg s p R.LCH.CFG.NPIX
    let k := lchUnread s c
    let q (i : Nat) : Nat := if cfgOn s p R.LCH.CFG.REV then n - 1 - i else i
    let pix := (List.range now.length).map fun j => if decide (q (j / 3) < k) then x.pix.getD j 0 else now.getD j 0
    lchSet s c { x with pix := pix, frame := lchFrame s c x.g x.late pix }

/-! ### FRMC: swap and player (R241 to R247) -/

/-- Page of consumer `k` of the swap: 0–3 strings, 4 the matrix, 5–8 chains (10 Table 11, PEND). -/
def consPage (k : Nat) : Nat := 0x88 + k

/-- The FRONT bit of consumer `k`. -/
def consFrontFld (k : Nat) : Fld := if k < 5 then R.LST.STAT.FRONT else R.LCH.STAT.FRONT

/-- The player's phase, with STAT.PLAY. -/
def playSet (s : State) (ph : Nat) : State :=
  setFlag { s with frmc := { s.frmc with play := ph, stop := s.frmc.stop && decide (ph = 2) } } 0x91 R.FRMC.STAT.PLAY
    (ph ≠ 0)

/-- ARM and its copy in STAT. -/
def armSet (s : State) (v : Bool) : State := setFlag (setFlag s 0x91 R.FRMC.CTL.ARM v) 0x91 R.FRMC.STAT.ARMED v

/-- A waiting player begins its copy once no swap is pending and no mirror copy runs (R246). -/
def playGo (s : State) : State :=
  if s.frmc.play = 1 && !isSet s 0x91 R.FRMC.STAT.SWPEND && !isSet s 0x91 R.FRMC.STAT.MIRR then playSet s 2 else s

/-- The last consumer has switched: FRONT, SWPEND, SWCNT, SWDONE with EV24, the mirror copy; the player goes on (R244, R246). -/
def swapDone (s : State) : State :=
  let s := setFlag (setFlag s 0x91 R.FRMC.STAT.FRONT s.frmc.target) 0x91 R.FRMC.STAT.SWPEND false
  let s := setF s 0x91 R.FRMC.SWCNT.CNT (getF s 0x91 R.FRMC.SWCNT.CNT + 1)
  let s := raiseLine (setFlag s 0x91 R.FRMC.EVT.SWDONE true) 24
  let s := if cfgOn s 0x91 R.FRMC.CFG.MIRROR then setFlag s 0x91 R.FRMC.STAT.MIRR true else s
  if s.frmc.play ≠ 3 then s
  else
    let i := getF s 0x91 R.FRMC.AFRM.IDX
    if decide (i + 1 < cfg s 0x91 R.FRMC.ALEN.NFRM) then playGo (playSet (setF s 0x91 R.FRMC.AFRM.IDX (i + 1)) 1)
    else
      if cfgOn s 0x91 R.FRMC.ADST.LOOP then playGo (playSet (setF s 0x91 R.FRMC.AFRM.IDX 0) 1)
      else raiseLine (playSet (setFlag s 0x91 R.FRMC.EVT.AEND true) 0) 25

/-- FRONT of consumer `k` takes the target; a chain in the course of a frame reads on from there (R244, R260). -/
def consFront (s : State) (k : Nat) : State :=
  let s := setFlag s (consPage k) (consFrontFld k) s.frmc.target
  if k < 5 then s else lchFollow s (k - 5)

/-- Consumer `k` shows the target; the last one ends the swap (R244). -/
def consSwitch (s : State) (k : Nat) : State :=
  let pend := getF s 0x91 R.FRMC.STAT.PEND
  if !pend.testBit k then s
  else
    let s := consFront s k
    let s := setF s 0x91 R.FRMC.STAT.PEND (pend - 2 ^ k)
    if pend = 2 ^ k then swapDone s else s

/-- A pending swap reaches consumer `k` at its frame boundary, from 50 µs after the trigger on (R244). -/
def consBoundary (s : State) (k : Nat) : State :=
  if isSet s 0x91 R.FRMC.STAT.SWPEND && decide (4000 ≤ (s.tbs + 2 ^ 64 - s.frmc.trig) % 2 ^ 64) then consSwitch s k else s

/-- The buffer that consumer `k` with frames of `len` clocks displays from its next boundary on: the target of a pending swap that reaches it
there (R244). -/
def consNext (s : State) (k len : Nat) : Bool :=
  let next := (s.tbs / len + 1) * len
  if isSet s 0x91 R.FRMC.STAT.SWPEND && (getF s 0x91 R.FRMC.STAT.PEND).testBit k && decide (s.frmc.trig + 4000 ≤ next)
  then s.frmc.target else isSet s (consPage k) (consFrontFld k)

/-- A consumer's ENABLE has changed: a disabled one switches at once, one enabled during a swap starts on the target (R244). -/
def consEnable (s : State) (k : Nat) : State :=
  if !isSet s 0x91 R.FRMC.STAT.SWPEND then s
  else if enabled s (consPage k) then consFront s k
  else consSwitch s k

/-- A trigger without a swap: LATE is counted; the player's fault source, and ALATE before its copy has ended (R243, R246). -/
def swapLate (s : State) : State :=
  let s := setF s 0x91 R.FRMC.MISS.LATE (satInc 65535 (getF s 0x91 R.FRMC.MISS.LATE))
  if s.frmc.play = 0 then s
  else
    let s := raiseP s 0x91 0
    if s.frmc.play ≠ 3 then raiseLine (setFlag s 0x91 R.FRMC.EVT.ALATE true) 25 else s

/-- A trigger that starts a swap: the other buffer becomes the target; disabled consumers switch at once (R243, R244). -/
def swapStart (s : State) : State :=
  let tgt := !isSet s 0x91 R.FRMC.STAT.FRONT
  let s := setFlag (armSet s false) 0x91 R.FRMC.STAT.SWPEND true
  let s := { s with frmc := { s.frmc with target := tgt, trig := s.tbs } }
  let s := setF s 0x91 R.FRMC.STAT.PEND 0x1FF
  ((List.range 9).filter fun k => !enabled s (consPage k)).foldl consSwitch s

/-- A trigger of the kind that CFG.TRIG selects, an edge of MSYNC of the polarity of MPOL (R243, R245; R509 for a disabled FRMC). -/
def swapTrigger (s : State) (kind : Nat) (rise : Bool) : State :=
  if cfg s 0x91 R.FRMC.CFG.TRIG ≠ kind || (kind = 1 && cfgOn s 0x91 R.FRMC.CFG.MPOL = rise) then s
  else
    let s := if kind = 2 && cfg s 0x91 R.FRMC.SWPER.PER ≠ 0
      then setF s 0x91 R.FRMC.SWTIME.TIME (getF s 0x91 R.FRMC.SWTIME.TIME + cfg s 0x91 R.FRMC.SWPER.PER) else s
    let excl := kind = 2 && isSet s 0x0D R.TBS.STAT.EXCL
    let s := if kind = 2 then setFlag s 0x91 R.FRMC.STAT.EXCL excl else s
    if !excl && !blockOff s 0x91 && isSet s 0x91 R.FRMC.CTL.ARM && !isSet s 0x91 R.FRMC.STAT.SWPEND then swapStart s
    else swapLate s

/-- TBS bits 31:0 have reached SWTIME, in the wrap-safe signed compare (R243). -/
def swapTimeReached (s : State) : Bool :=
  decide ((s.tbs + 2 ^ 32 - getF s 0x91 R.FRMC.SWTIME.TIME) % 2 ^ 32 < 2 ^ 31)

/-- A write of CTL.ARM = 1 (R243). -/
def frmcArm (s : State) : State :=
  if isSet s 0x91 R.FRMC.STAT.SWPEND || isSet s 0x91 R.FRMC.STAT.MIRR || s.frmc.play ≠ 0 then werr s 0x91 0x100
  else armSet s true

/-- The mirror copy ends: the new back buffer holds the consumer region of the front one (R244). -/
def mirrorDone (s : State) : State :=
  if !isSet s 0x91 R.FRMC.STAT.MIRR then s
  else
    let f := isSet s 0x91 R.FRMC.STAT.FRONT
    playGo (setFlag { s with mem := memCopy s.mem (frmBase f) (frmBase !f) 0x9000 } 0x91 R.FRMC.STAT.MIRR false)

/-- START (R246, R254): index 0; rejected with NFRM = 0. A disabled FRMC starts nothing (R509). -/
def playStart (s : State) : State :=
  if cfg s 0x91 R.FRMC.ALEN.NFRM = 0 then werr s 0x91 0x11C
  else if blockOff s 0x91 then s
  else playGo (playSet (setF s 0x91 R.FRMC.AFRM.IDX 0) 1)

/-- STOP (R246): after the copy in progress. -/
def playStop (s : State) : State :=
  if s.frmc.play = 2 then { s with frmc := { s.frmc with stop := true } } else playSet s 0

/-- A disabled FRMC: the player stops (R509). -/
def frmcDisabled (s : State) : State := playSet s 0

/-- A write to FRM at byte address `a` is refused: the consumer region of a buffer that an enabled consumer displays or that a
mirror copy uses (R242). -/
def frmRefused (s : State) (a : Nat) : Bool :=
  let b := decide (0x20240000 ≤ a)
  decide (a % 0x40000 < 0x9000) &&
    (isSet s 0x91 R.FRMC.STAT.MIRR ||
      (List.range 9).any fun k => enabled s (consPage k) && (isSet s (consPage k) (consFrontFld k) == b))

/-- Bytes written into FRM; a chain whose buffer is not protected reads on from them (R242, R260). -/
def frmStore (s : State) (a : Nat) (bytes : List Byte) : State :=
  (List.range 4).foldl lchFollow { s with mem := memSetList s.mem a bytes }

/-- A refused FRM write (R242). -/
def frmReject (s : State) : State :=
  raiseP (setF s 0x91 R.FRMC.MISS.WREJ (satInc 65535 (getF s 0x91 R.FRMC.MISS.WREJ))) 0x91 2

/-- Entry to BOOT: both consumer regions are zero, FRONT selects buffer A (R241). -/
def frmcBoot (s : State) : State := { s with mem := memClear (memClear s.mem 0x20200000 0x20209000) 0x20240000 0x20249000 }

/-! ### Frame boundaries of strings and the matrix -/

/-- A string frame boundary (R230, R231, R244): a pending swap switches, then the record and the trimmed level apply; what is lit past
the end of the frame carries over (R229). -/
def lstBoundary (s : State) (n : Nat) : State :=
  let s := if lstHolds s n then s else consBoundary s n
  let carry := (List.range 16).map (lstCarry s n)
  let c : LstSt := { lstGet s n with carry := if carry.all (· = 0) then [] else carry }
  if c.phase = 0 || c.phase = 1 then s
  else
    let rec' := lstRecord s n
    let l := lstLeff s n rec'
    let ph := if l = 0 then 4 else if c.phase = 4 then 1 else 3
    lstStat (lstLevel (lstSet s n { c with frame := rec', phase := ph }) n l) n

/-- STRING_FRAME_BOUNDARY at TBS as it stands: it falls on a multiple of the frame length (R225). -/
def lstBoundaryAt (s : State) (n : Nat) : State := if frameStarts s (lstFrame s n) then lstBoundary s n else s

/-- The pulse widths of the matrix in a buffer (R240). -/
def lmxRecord (s : State) (front : Bool) : List Nat :=
  (List.range 288).map fun i => frmCode s (frmBase front + 0x100 + 2 * i)

/-- SAFE = LAST of the matrix is in force (R239). -/
def lmxHolds (s : State) : Bool := safeInForce s 104 && cfgOn s 0x8C R.LMX.SAFE.SAFE

/-- A matrix frame boundary (R236, R244): the trim of this frame acts on the widths of the buffer displayed, or under SAFE = LAST on those
of the frame in progress, which repeat while no swap reaches the matrix (R239). -/
def lmxBoundary (s : State) : State :=
  let held := lmxHolds s
  let s := if held then s else consBoundary s 4
  if !s.lmx.on then s
  else
    let raw := if held then s.lmx.raw else lmxRecord s (isSet s 0x8C R.LMX.STAT.FRONT)
    let g := trimB s (cfg s 0x8C R.LMX.CFG.PRIO)
    { s with lmx := { s.lmx with raw := raw, pw := raw.map fun w => w * g / 4096 } }

/-- MATRIX_FRAME_BOUNDARY at TBS as it stands (R225). -/
def lmxBoundaryAt (s : State) : State := if frameStarts s lmxFrameLen then lmxBoundary s else s

/-! ### Pixel chains (R256 to R269) -/

/-- SAFE = LAST of a port is in force: it repeats its records, and no swap reaches it (R266). -/
def lchHolds (s : State) (c : Nat) : Bool := safeInForce s (105 + c) && cfgOn s (lchPage c) R.LCH.SAFE.SAFE

/-- The port is to transmit (R261, R266): SAFE = LAST stands in for CMD.ON, not for ENABLE. -/
def lchWants (s : State) (c : Nat) : Bool :=
  let p := lchPage c
  (s.mode = .run || s.mode = .limp) && enabled s p &&
    if safeInForce s (105 + c) then lchHolds s c && (lchGet s c).last
    else s.mode = .run && isSet s p R.LCH.CMD.ON

/-- STAT of a port (11 Table 4); SEND stands for a frame in progress, of whose lead and gap a read shows WAIT (`lchShow`). -/
def lchStat (s : State) (c : Nat) : State :=
  let p := lchPage c
  let x := lchGet s c
  let st := if x.phase = 4 then 4 else if x.phase = 2 && x.blanking then 3 else if x.phase = 2 then 2
    else if x.phase = 1 || x.phase = 3 then 1 else 0
  setFlag (setF s p R.LCH.STAT.STATE st) p R.LCH.STAT.SAFEACT (safeInForce s (105 + c))

/-- The port after anything that gates it has changed: it starts at the next boundary, stops with a blanking frame (R262), or,
at Park entry and at a shut-off by PWR, at once (R263). -/
def lchUpdate (s : State) (c : Nat) : State :=
  let p := lchPage c
  let x := lchGet s c
  let runs := x.phase = 1 || x.phase = 2 || x.phase = 3
  let s := if safeInForce s (105 + c) && !isSet s p R.LCH.STAT.SAFEACT
    then lchSet s c { x with last := runs && !x.blank } else s
  let x := lchGet s c
  let s :=
    if x.phase = 4 then s
    else if parkHolds s || shed s (105 + c) || !running s then
      lchSet s c { x with phase := 0, blank := false, blanking := false }
    else if lchWants s c then
      (if x.phase = 0 then lchSet s c { x with phase := 1, blank := false } else lchSet s c { x with blank := false })
    else if runs && !x.blanking then lchSet s c { x with blank := true } else s
  lchStat s c

/-- A chain frame boundary (R244, R259, R260, R262). SAFE = LAST repeats the records of the frame in progress, with this frame's trim
(R265, R266), the zeros of a blanking frame too; records that a longer NPIX adds come from the buffer displayed. -/
def lchBoundary (s : State) (c : Nat) (late : Option Nat) : State :=
  let p := lchPage c
  let s := if lchHolds s c then s else consBoundary s (5 + c)
  let x := lchGet s c
  if x.phase = 0 || x.phase = 4 then s
  else if x.blank || (x.blanking && !lchWants s c) then
    lchStat (lchSet s c { x with phase := 2, blank := false, blanking := true,
                                 pix := List.replicate (3 * cfg s p R.LCH.CFG.NPIX) 0,
                                 frame := List.replicate (3 * cfg s p R.LCH.CFG.NPIX) 0 }) c
  else
    let now := lchRecords s c
    let rec' := if lchHolds s c then x.pix.take now.length ++ now.drop x.pix.length else now
    let g := lchG s c
    let s' := lchStat (lchSet s c { x with phase := 2, blanking := false, pix := rec', frame := lchFrame s c g late rec',
                                           live := !lchHolds s c, g := g, late := late }) c
    if decide (late.getD 2048 < cfg s p R.LCH.CFG.NPIX) then raiseP s' p 1 else s'

/-- CHAIN_FRAME_BOUNDARY at TBS as it stands (R225, R259). -/
def lchBoundaryAt (s : State) (c : Nat) (late : Option Nat) : State :=
  if frameStarts s (lchFrameLen (cfg s (lchPage c) R.LCH.CFG.FRATE)) then lchBoundary s c late else s

/-- Bit `b` of the stream of a frame: 36 bits a pixel, each value most significant bit first (R257). -/
def lchBit (frame : List Nat) (b : Nat) : Bool := (frame.getD (b / 12) 0).testBit (11 - b % 12)

/-- BUS clocks into the data of the frame in progress, after the lead of 30,000; none outside the data (R259). -/
def lchData (s : State) (c : Nat) : Option Nat :=
  let t := s.tbs % lchFrameLen (cfg s (lchPage c) R.LCH.CFG.FRATE)
  if (lchGet s c).phase = 2 && decide (30000 ≤ t) && decide (t < 30000 + 480 * (lchGet s c).frame.length) then some (t - 30000) else none

/-- The data line is high now: the first 12 or 28 of the 40 clocks of a bit, by its value (R256, R261). -/
def lchLine (s : State) (c : Nat) : Bool :=
  match lchData s c with
  | none => false
  | some t => decide (t % 40 < if lchBit (lchGet s c).frame (t / 40) then 28 else 12)

/-- LCH.STAT as read (11 Table 4): WAIT in the lead and in the gap of a frame, and the chain position being sent, which stands at its
ends outside the data (R259, R268; DESIGN CHOICE, notes/assumptions/23). -/
def lchShow (s : State) (c : Nat) : Word :=
  let w := rd s (lchPage c) 0x104
  let x := lchGet s c
  if x.phase ≠ 2 then w
  else
    let w := if (lchData s c).isNone && !x.blanking then fset w R.LCH.STAT.STATE 1 else w
    let t := s.tbs % lchFrameLen (cfg s (lchPage c) R.LCH.CFG.FRATE)
    fset w R.LCH.STAT.POS (min (x.frame.length / 3 - 1) ((t - 30000) / 1440))

/-- 80 µs after the last bit: the pixels latch, FDONE with the port's line; after the blanking frame the port idles (R259,
R262). -/
def lchLatch (s : State) (c : Nat) : State :=
  let p := lchPage c
  let x := lchGet s c
  if x.phase ≠ 2 then s
  else
    let s := setF s p R.LCH.FCNT.CNT (getF s p R.LCH.FCNT.CNT + 1)
    let s := setF s p R.LCH.STAT.POS (cfg s p R.LCH.CFG.NPIX - 1)
    let s := raiseLine (setFlag s p R.LCH.EVT.FDONE true) (26 + c)
    let x := { x with phase := if x.blanking then 0 else 3, blanking := false }
    lchUpdate (lchSet s c x) c

/-- The port stops driving high and is in FAULT (R267). -/
def lchFault (s : State) (c : Nat) : State :=
  lchStat (lchSet s c { lchGet s c with phase := 4, blank := false, blanking := false }) c

/-- A short of the data line of a port that transmits (R267). -/
def lchLineShort (s : State) (c : Nat) : State :=
  let x := lchGet s c
  if x.phase = 1 || x.phase = 2 || x.phase = 3 then raiseP (lchFault s c) (lchPage c) 0 else s

/-- The LINESC flag of PFLT has been cleared: the port may transmit again (R267). -/
def lchUnfault (s : State) (c : Nat) : State :=
  let x := lchGet s c
  if x.phase = 4 then lchUpdate (lchSet s c { x with phase := 0 }) c else s

/-! ### Consistency rules (R250, R252, R254, R269) -/

def lstConsist (g : Fld → Nat) : Option Nat :=
  if g R.LST.CFG.POP = 0 then some 512
  else if g R.LST.IMAX.IMAX = 0 || decide (1500 < g R.LST.IMAX.IMAX) then some 513
  else if g R.LST.OVP.OVP = 0 || decide (4000 < g R.LST.OVP.OVP) then some 514
  else if decide (9 < g R.LST.PROT.RDLY) then some 516
  else none

def lmxConsist (g : Fld → Nat) : Option Nat :=
  let col := g R.LMX.COLEN.COL
  let sum := (List.range 24).foldl (fun a c => if col.testBit c then a + g (R.LMX.ICOL.ICOL c) else a) 0
  if g R.LMX.CFG.ROWEN = 0 then some 512
  else if col = 0 || decide (68250 < sum) then some 513
  else if decide (9 < g R.LMX.PROT.RDLY) then some 514
  else none

def frmcConsist (g : Fld → Nat) : Option Nat :=
  if g R.FRMC.ALEN.NFRM = 0 then none
  else if g R.FRMC.ASRC.ADDR % 4 ≠ 0 then some 514
  else if g R.FRMC.ASTR.STRIDE % 4 ≠ 0 then some 515
  else if g R.FRMC.ALEN.FLEN % 4 ≠ 0 || g R.FRMC.ALEN.FLEN = 0 || decide (0x9000 < g R.FRMC.ADST.DOFF + g R.FRMC.ALEN.FLEN)
  then some 516
  else if g R.FRMC.ADST.DOFF % 4 ≠ 0 then some 517
  else none

def lchConsist (g : Fld → Nat) : Option Nat :=
  if decide (lchFrameLen (g R.LCH.CFG.FRATE) < 36400 + 1440 * g R.LCH.CFG.NPIX) then some 512
  else if g R.LCH.CFG.GTRIM ≠ 0 && decide (71 < g R.LCH.CFG.FEED) then some 512
  else none

end Sys2Proof.Machine
end

