-- ==== Sys2Proof/Machine/Losses.lean ====
section
/-! DEFINITION. Loss estimates of the governor (12 Table 11, R288; R98, R182, R213), in µW. -/

namespace Sys2Proof.Machine

/-- A field of GOV in force: the reset value while GOV is disabled (R509). -/
def govCfg (s : State) (f : Fld) : Nat :=
  if !blockOff s 0x1F then cfg s 0x1F f else fget (regReset (rkey 0x1F f.off)) f

/-- VBAT lies between 4.5 V and 6 V, where the governor doubles on-resistances (R98); 4.5 V counts as between, 6 V does not, and below
4.5 V nothing is doubled (DESIGN CHOICE, notes/assumptions/87). -/
def lowVbat (s : State) : Bool :=
  let v := getF s 0x1E R.MSQ.VBAT.CODE
  decide (300 ≤ v) && decide (v < 400)

/-- R_ON(Tj) in µΩ of a switch of `r25` µΩ with `seg` segments of which `n` conduct, Tj by its HSC.TEMP code (R98). -/
def ronAt (s : State) (r25 seg n tj : Nat) : Nat :=
  let r := (r25 * seg : Nat) * (160000 + 45 * ((tj : Int) - 1280)) / (160000 * ((max n 1 : Nat) : Int))
  r.toNat * (if lowVbat s then 2 else 1)

/-- Number of set bits. -/
def popCount : Nat → Nat → Nat
  | 0, _ => 0
  | k + 1, v => v % 2 + popCount k (v / 2)

/-- R_ON of channel `n` in µΩ. -/
def hscRon (s : State) (n : Nat) : Nat :=
  let p := hscPage n
  ronAt s (hscRon25 n) (hscSegs n) (popCount 9 (getF s p R.HSC.SEG.ACTIVE)) (getF s p R.HSC.TEMP.CODE)

/-- Latest on-state current of channel `n` in µA (R150). -/
def hscAmps (s : State) (n : Nat) : Nat :=
  let p := hscPage n
  if isSet s p R.HSC.IMEAS.RANGE then getF s p R.HSC.IMEAS.CODE * 25
  else getF s p R.HSC.IMEAS.CODE * hscLsb n * 1000

/-- Loss of channel `n` with the trim factor of its die at `g`. -/
def hscLoss (s : State) (n g : Nat) : Nat :=
  let c := hscGet s n
  let p := hscPage n
  if !c.on then 0
  else if c.charging then
    (hscVf s n * 15 / 65536 - getF s p R.HSC.VOUT.CODE * 15) * (hscAmps s n / 1000)
  else if !c.gen then c.qAcc * hscRon s n / (80000 * 1000000)
  else
    let d := match (hscDemand s n).1 with | .gen d => (hscDeffOf s n d).1 | _ => 4095
    let deff := d * (if cfg s p R.HSC.CFG.PRIO = 0 then 4096 else g) / 4096
    let ma := hscAmps s n / 1000
    let cond := ma * ma * hscRon s n * deff / (4095 * 1000000)
    let mv := hscVf s n * 15 / 65536
    let slew := match cfg s p R.HSC.CFG.SLEW with | 0 => 500 | 1 => 1000 | 2 => 2000 | _ => 5000
    let te := 800 * mv / slew
    let edge := grpHz (cfg s p R.HSC.CFG.FGRP) * mv * ma * te / 3000000000
    if deff = 0 then 0 else if deff = 4095 then cond else cond + edge

/-- Number of switches in a pair of flags. -/
def countSides (x : Bool × Bool) : Nat := x.1.toNat + x.2.toNat

/-- Loss of bridge `n`: I² R_ON(Tj) per conducting switch of each of its halves, with the half's own current and temperature (R182), the
on-time and the off-time of a drive weighed by the effective duty of its next period (R288). -/
def hbLoss (s : State) (n : Nat) : Nat :=
  let c := hbGet s n
  if !c.on then 0
  else
    let d := if hbDrives c.act then hbDeffOf s n (hbDemand s n).2.1 else 4095
    ((hbHalves s n).map fun m =>
      let ma := getF s (hbPage m) R.HB.IMEAS.CODE * 10
      let one := ma * ma * ronAt s 8000 1 1 (getF s (hbPage m) R.HB.TEMP.CODE) / 1000000
      one * (d * countSides (hbSides s m true) + (4095 - d) * countSides (hbSides s m false)) / 4095).sum

/-- Loss of valve `n` with its on-time and free-wheeling time (R213): the clamp's drop while its bank is at
VBST, the diode's while it is at VBAT (R195). -/
def solLoss (s : State) (n : Nat) (m : LossSamples) : Nat :=
  match m.valve.find? fun e => e.1.val = n with
  | none => 0
  | some (_, on, fw) =>
    let p := solPage n
    let ma := getF s p R.SOL.IMEAS.CODE * 2
    let sw := ma * ma * ronAt s 80000 1 1 (getF s p R.SOL.TEMP.CODE) / 1000000
    let drop := if bankPos s (solBank n) then 24800 else 800
    (sw * on.toNat + ma * drop * fw.toNat) / 4096

/-- Loss of string `n` with the trim factor of die B at `g`: converter and closed bypasses (12 Table 11), with the level and the widths of
the next frame (R288) and, below level 256, its lit window (R228, R229). -/
def lstLoss (s : State) (n g : Nat) : Nat :=
  let p := lstPage n
  let rec' := lstRecordOf s n (consNext s n (lstFrame s n))
  let l := rec'.headD 0 * (if cfg s p R.LST.CFG.PRIO = 0 then 4096 else g) / 4096
  if (lstGet s n).phase = 0 || l = 0 then 0
  else
    let ma := cfg s p R.LST.IMAX.IMAX * (max l 256) / 4095
    let lit := if decide (256 ≤ l) then 256 else l
    let pout := getF s p R.LST.VOUT.CODE * 15 * ma * lit / 256
    let closed := (List.range 16).foldl (fun a k =>
      a + 4095 * 256 - (if lstBypassed s n k then 0 else rec'.getD (k + 1) 0 * lit)) 0
    let eta := govCfg s (R.GOV.ETA.ETA n)
    pout * (4096 - eta) / (max eta 1) + ma * ma * 150 * closed / (4095 * 256 * 1000)

/-- Loss of the matrix with the trim factor of die B at `g` (12 Table 11), with the widths of its next frame (R288): columns, and rows of
0.5 Ω. -/
def lmxLoss (s : State) (g : Nat) (m : LossSamples) : Nat :=
  if !s.lmx.on then 0
  else
    let new := if cfg s 0x8C R.LMX.CFG.PRIO = 0 then 4096 else g
    let raw := if lmxHolds s then s.lmx.raw else lmxRecord s (consNext s 4 lmxFrameLen)
    let row (r : Nat) : Nat := (List.range 24).foldl (fun a c =>
      if lmxRowOn s r && lmxColOn s c then
        let ua := cfg s 0x8C (R.LMX.ICOL.ICOL c) * 60000 / 4095
        let pw := raw.getD (24 * r + c) 0 * new / 4096
        a + m.colV.getD c 0 * ua * pw / (4095 * 12 * 1000)
      else a) 0
    let rowI (r : Nat) : Nat := (List.range 24).foldl (fun a c =>
      if lmxRowOn s r && lmxColOn s c then
        a + cfg s 0x8C (R.LMX.ICOL.ICOL c) * 60 * (raw.getD (24 * r + c) 0 * new / 4096) / (4095 * 4095)
      else a) 0
    ((List.range 12).map fun r => row r + rowI r * rowI r * 500 / (12 * 1000)).sum

/-- Loss of output `o` (R279; 104 the matrix) with its die's trim factor at `g`. -/
def outLoss (s : State) (o g : Nat) (m : LossSamples) : Nat :=
  if o < 72 then hscLoss s o g
  else if o < 84 then hbLoss s (o - 72)
  else if o < 100 then solLoss s (o - 84) m
  else if o < 104 then lstLoss s (o - 100) g
  else lmxLoss s g m

/-- Losses of a die that belong to no output: the converter on die L, the LF drivers on die B (12 Table 11). -/
def dieExtra (s : State) (d : Nat) (m : LossSamples) : Nat :=
  if d = 2 then (if sbkRuns s then m.boost * 1000 / 9 else 0) else if d = 3 then m.lf * 1000 else 0

/-- Priority class of output `o` (R289); bridges have one too (08). -/
def outPrio (s : State) (o : Nat) : Option Nat :=
  let p := outPage o
  if o < 72 then some (cfg s p R.HSC.CFG.PRIO)
  else if o < 84 then some (cfg s p R.HB.CFG.PRIO)
  else if o < 100 then some (cfg s p R.SOL.CFG.PRIO)
  else if o < 104 then some (cfg s p R.LST.CFG.PRIO)
  else some (cfg s p R.LMX.CFG.PRIO)

/-- A trimmable load: HSC in PWM, BULB or LED, a string, the matrix, outside P0 (R289). -/
def trimmable (s : State) (o : Nat) : Bool :=
  outPrio s o ≠ some 0 && ((decide (o < 72) && hscGenMode s o) || decide (100 ≤ o))

end Sys2Proof.Machine
end

