-- ==== Sys2Proof/Machine/Gov.lean ====
section
/-! DEFINITION. The dissipation governor: budgets, trim, shedding, restoring, the log (12, R288 to R293). -/

namespace Sys2Proof.Machine

/-- Budget of die `d` in µW (R292). -/
def govBudget (s : State) (d : Nat) : Nat :=
  10000 * govCfg s (match d with | 0 => R.GOV.BUD0.BUDH | 1 => R.GOV.BUD0.BUDM | 2 => R.GOV.BUD1.BUDL | _ => R.GOV.BUD1.BUDB)

/-- The outputs on die `d` that carry loss: R279 numbers, and 104 for the matrix. -/
def dieOuts (d : Nat) : List Nat := (List.range 105).filter fun o => pageDie (outPage o) = some d

/-- Loss of die `d` in µW with its trim factor at `g` (R288, R289): a shed output counts 0; die B carries the LF drivers'
reported loss, die L the boost converter's. -/
def dieLoss (s : State) (d g : Nat) (m : LossSamples) : Nat :=
  ((dieOuts d).map fun o => if shed s o then 0 else outLoss s o g m).sum + dieExtra s d m

/-- Package loss in µW: the dies and VBAT × 160 mA (R288). -/
def pkgLoss (s : State) (m : LossSamples) : Nat :=
  ((List.range 4).map fun d => dieLoss s d (govTrim s d) m).sum + getF s 0x1E R.MSQ.VBAT.CODE * 15 * 160

/-- The registers that show the log follow its entries (R291). -/
def govLogView (s : State) : State :=
  let e := s.govLog.headD (0, 0)
  setF (wr (wr s 0x1F 0x140 e.1) 0x1F 0x144 e.2) 0x1F R.GOV.LOGN.N s.govLog.length

/-- A log entry: KIND, die, output, die loss, TBS bits 43:12; a full log drops it and raises LOGOVF (R291, 12 Table 14). -/
def govLogPut (s : State) (kind d out loss : Nat) : State :=
  if decide (64 ≤ s.govLog.length) then raiseP s 0x1F 5
  else
    let a : Word := BitVec.ofNat 32 (kind * 2 ^ 28 + d * 2 ^ 26 + out * 2 ^ 16 + min 4095 (loss / 10000))
    let b : Word := BitVec.ofNat 32 (s.tbs / 4096)
    raiseLine (govLogView { s with govLog := s.govLog ++ [(a, b)] }) 30

/-- Ticks since the last step on die `d`. -/
def govSince (s : State) (d : Nat) : Nat := s.govSince.getD d 0

/-- A step has been taken on die `d`. -/
def govStepped (s : State) (d : Nat) : State := { s with govSince := s.govSince.set d 0 }

/-- SHED bit of output `o` written. -/
def govShedBit (s : State) (o : Nat) (v : Bool) : State :=
  wr s 0x1F (0x130 + 4 * (o / 32)) (setBit (rd s 0x1F (0x130 + 4 * (o / 32))) (o % 32) v)

/-- A trim step on die `d` is possible, and the new factor (R289). -/
def govTrimStep (s : State) (d : Nat) (m : LossSamples) : Option Nat :=
  let g := govTrim s d
  let gmin := govCfg s R.GOV.CFG.GMIN
  let g' := max gmin (g - govCfg s R.GOV.CFG.GSTEP)
  if decide (gmin < g) && (dieOuts d).any (fun o => trimmable s o && !shed s o && outLoss s o g m ≠ 0) &&
      decide (dieLoss s d g' m < dieLoss s d g m) then some g' else none

/-- The output of priority class `prio` to shed on die `d`: the largest loss, a tie to the higher page (R289). -/
def govShedPick (s : State) (d prio : Nat) (m : LossSamples) : Option Nat :=
  let g := govTrim s d
  (dieOuts d).foldl (fun (a : Option Nat) o =>
    let l := outLoss s o g m
    if shed s o || l = 0 || outPrio s o ≠ some prio then a
    else
      match a with
      | none => some o
      | some b => if outLoss s b g m ≤ l then some o else some b) none

/-- One step of the list of R289 on die `d`; none: no step is left. -/
def govStep (s : State) (d : Nat) (m : LossSamples) : Option State :=
  let loss := dieLoss s d (govTrim s d) m
  match govTrimStep s d m with
  | some g =>
    let s := govStepped (setF s 0x1F (R.GOV.TRIM.G d) g) d
    some (touch (if g = govCfg s R.GOV.CFG.GMIN then govLogPut s 3 d 0xFF loss else s))
  | none =>
    match (govShedPick s d 3 m).orElse fun _ => govShedPick s d 2 m with
    | some o =>
      let l := outLoss s o (govTrim s d) m
      let s := govStepped (govShedBit s o true) d
      let s := { s with govShed := (o, l) :: s.govShed }
      some (touch (raiseP (govLogPut s 1 d o loss) 0x1F 6))
    | none => none

/-- The restore step of R290 on die `d`, if one passes; `pkg` is the package estimate of the tick. -/
def govRestore (s : State) (d pkg : Nat) (m : LossSamples) : State :=
  let h := 100 - govCfg s R.GOV.CFG.HYST
  let lim := govBudget s d * h / 100
  let plim := govCfg s R.GOV.BUDP.BUDPKG * 10000 * h / 100
  let g := govTrim s d
  let loss := dieLoss s d g m
  if decide (govSince s d < 50 * govCfg s R.GOV.CFG.TRST) || decide (lim ≤ loss) || decide (plim ≤ pkg) then s
  else
    match s.govShed.find? fun e => pageDie (outPage e.1) = some d with
    | some (o, l) =>
      if decide (loss + l < lim) && decide (pkg + l < plim) then
        let s := govStepped (govShedBit { s with govShed := s.govShed.filter (·.1 ≠ o) } o false) d
        touch (govLogPut s 2 d o loss)
      else raiseG s d g loss pkg lim plim
    | none => raiseG s d g loss pkg lim plim
where
  /-- A rise of g by GSTEP, capped at 4096; one that reaches GMIN or 4096 is logged (R291). -/
  raiseG (s : State) (d g loss pkg lim plim : Nat) : State :=
    let g' := min 4096 (g + govCfg s R.GOV.CFG.GSTEP)
    let l' := dieLoss s d g' m
    if g = 4096 || decide (lim ≤ l') || decide (plim + loss ≤ pkg + l') then s
    else
      let s := govStepped (setF s 0x1F (R.GOV.TRIM.G d) g') d
      touch (if g' = 4096 then govLogPut s 4 d 0xFF loss else if g' = govCfg s R.GOV.CFG.GMIN then govLogPut s 3 d 0xFF loss else s)

/-- The over flag of die `d`: with its level source and its log entries (R289, R543). -/
def govOver (s : State) (d : Nat) (v : Bool) (loss : Nat) : State :=
  let old := (getF s 0x1F R.GOV.STAT.OVER).testBit d
  let s := setF s 0x1F R.GOV.STAT.OVER (if v then getF s 0x1F R.GOV.STAT.OVER ||| 2 ^ d
    else getF s 0x1F R.GOV.STAT.OVER &&& (15 ^^^ 2 ^ d))
  if v && !old then assertLevel (govLogPut s 5 d 0xFF loss) (248 + d)
  else if !v && old then releaseLevel (govLogPut s 6 d 0xFF loss) (248 + d) else s

/-- A step is possible on die `d` (R289). -/
def govCan (s : State) (d : Nat) (m : LossSamples) : Bool := (govStep s d m).isSome

/-- The die that an over package treats as over: the highest ratio of loss to budget among those with a step left (R289). -/
def govPkgDie (s : State) (m : LossSamples) : Option Nat :=
  (List.range 4).foldl (fun (a : Option Nat) d =>
    if !govCan s d m then a
    else
      match a with
      | none => some d
      | some b =>
        if dieLoss s b (govTrim s b) m * govBudget s d < dieLoss s d (govTrim s d) m * govBudget s b
        then some d else some b) none

/-- The 1 ms tick of GOV (R288 to R291). -/
def govTick (s : State) (m : LossSamples) : State :=
  let s0 := s
  let loss (d : Nat) : Nat := dieLoss s0 d (govTrim s0 d) m
  let pkg := pkgLoss s0 m
  let s := { s with govSince := s.govSince.map (· + 1) }
  let s := (List.range 4).foldl (fun s d => setF s 0x1F (R.GOV.PDIE.P d) (min 4095 (loss d / 10000))) s
  let s := setF s 0x1F R.GOV.PPKG.P (min 4095 (pkg / 10000))
  let pkgOver := decide (govCfg s0 R.GOV.BUDP.BUDPKG * 10000 < pkg)
  let pd := if pkgOver then govPkgDie s0 m else none
  let wasPkg := isSet s0 0x1F R.GOV.STAT.PKG
  let s := setFlag s 0x1F R.GOV.STAT.PKG pkgOver
  let s := if pkgOver && !wasPkg then { s with govPkgDie := pd.getD s.govPkgDie } else s
  let s := if pkgOver && !wasPkg then govLogPut s 7 s.govPkgDie 0xFF (loss s.govPkgDie)
    else if !pkgOver && wasPkg then govLogPut s 8 s.govPkgDie 0xFF (loss s.govPkgDie) else s
  let s := if pkgOver && pd.isNone then assertLevel s 252 else releaseLevel s 252
  let s := (List.range 4).foldl (fun s d =>
    let above := decide (govBudget s0 d < loss d)
    if above || pd = some d then
      match govStep s d m with
      | some s' => govOver s' d false (loss d)
      | none => govOver s d above (loss d)
    else govRestore (govOver s d false (loss d)) d pkg m) s
  (s.hsc.map Prod.fst).foldl (fun s n => hscSet s n { hscGet s n with qAcc := 0 }) s

/-- A read of GOV.LOGB returns the second word of the oldest entry and removes it; an empty log reads zero (R291). -/
def govPop (s : State) : State × Word :=
  match s.govLog with
  | [] => (s, 0)
  | e :: l => (govLogView { s with govLog := l }, e.2)

end Sys2Proof.Machine
end

