-- ==== Sys2Proof/Machine/Swi.lean ====
section
/-! DEFINITION. Switch inputs: filtered levels, debounce, cleaning pulses, analogue comparators (12, R271 to R278). -/

namespace Sys2Proof.Machine

/-- Filtered level of input `n` (SWI.RAW, R272). -/
def swiRaw (s : State) (n : Nat) : Bool := bitOf (rd s 0x1C (0x100 + 4 * (n / 32))) (n % 32)

/-- Debounced state of input `n` (SWI.STATE). -/
def swiState (s : State) (n : Nat) : Bool := bitOf (rd s 0x1C (0x108 + 4 * (n / 32))) (n % 32)

/-- A bit of one of SWI's two-word registers written. -/
def swiPut (s : State) (off n : Nat) (v : Bool) : State :=
  wr s 0x1C (off + 4 * (n / 32)) (setBit (rd s 0x1C (off + 4 * (n / 32))) (n % 32) v)

/-- STATE follows RAW XOR INV; a change sets CHG, raises EV16, and an SG or SB input that becomes active with IWET of 5 or
15 mA starts its cleaning pulse (R271, R272). A disabled SWI does none of it (R509). -/
def swiFollow (s : State) (n : Nat) : State :=
  let v := swiRaw s n ^^ cfgOn s 0x1C (R.SWI.CFG.INV n)
  let s := { s with swiDeb := natBit s.swiDeb n false }
  if blockOff s 0x1C || v = swiState s n then s
  else
    let s := raiseLine (swiPut (swiPut s 0x108 n v) 0x110 n true) 16
    if v && decide (cfg s 0x1C (R.SWI.CFG.TYPE n) < 2) && decide (2 ≤ cfg s 0x1C (R.SWI.CFG.IWET n))
    then { s with swiClean := natBit s.swiClean n true } else s

/-- The comparator of input `n` has held a new level for 200 ns: RAW and its reflex term change; DEB = 0 passes it on at
once, another code restarts the debounce (R272). -/
def swiRawChange (s : State) (n : Nat) (v : Bool) : State :=
  if swiRaw s n = v then s
  else
    let s := touch (swiPut s 0x100 n v)
    if cfg s 0x1C (R.SWI.CFG.DEB n) = 0 then swiFollow s n else { s with swiDeb := natBit s.swiDeb n true }

/-- The debounce of input `n` ends (R272). -/
def swiDebounce (s : State) (n : Nat) : State := if s.swiDeb.testBit n then swiFollow s n else s

/-- The 1 ms cleaning pulse of input `n` ends; one that did not reach 90 % of its current raises WETFAIL (R271, R278). -/
def swiCleanEnd (s : State) (n : Nat) (ok : Bool) : State :=
  if !s.swiClean.testBit n then s
  else
    let s := { s with swiClean := natBit s.swiClean n false }
    if ok then s else raiseP s 0x1C 1

/-- The 10 kS/s sample of analogue input `k` (R275), once in every PWR tick (R545), where its slice serves it (R147). -/
def swiAnalogue (s : State) (k : Nat) (code : Nat) : State :=
  if !msqFresh s .switchAnalog || s.anaDone.testBit k then s else
  let s := { s with anaDone := s.anaDone ||| 2 ^ k }
  let s := setF (setFlag s 0x1C (R.SWI.AVAL.VALID k) true) 0x1C (R.SWI.AVAL.CODE k) code
  let w := rd s 0x1C 0x118
  let out := if decide (cfg s 0x1C (R.SWI.ATH.HI k) ≤ code) then true
    else if decide (code ≤ cfg s 0x1C (R.SWI.ATH.LO k)) then false else bitOf w k
  if out = bitOf w k then s else touch (wr s 0x1C 0x118 (setBit w k out))

/-- The debounce of input `n` starts anew while STATE differs from RAW XOR INV; DEB = 0 passes it on at once (R272). -/
def swiRestart (s : State) (n : Nat) : State :=
  if (swiRaw s n ^^ cfgOn s 0x1C (R.SWI.CFG.INV n)) = swiState s n then { s with swiDeb := natBit s.swiDeb n false }
  else if cfg s 0x1C (R.SWI.CFG.DEB n) = 0 then swiFollow s n else { s with swiDeb := natBit s.swiDeb n true }

/-- An apply edge of SWI: a new DEB or INV restarts the debounce of its input (12, SWI page). -/
def swiApplied (old s : State) : State :=
  (List.range 64).foldl (fun s n =>
    if cfg old 0x1C (R.SWI.CFG.DEB n) ≠ cfg s 0x1C (R.SWI.CFG.DEB n) ||
      cfgOn old 0x1C (R.SWI.CFG.INV n) ≠ cfgOn s 0x1C (R.SWI.CFG.INV n) then swiRestart s n else s) s

/-- SWI is enabled again: every input's debounce starts anew (R272, R509). -/
def swiResume (s : State) : State := (List.range 64).foldl swiRestart s

/-- The pins in `mask` stand at `levels` (the environment's). -/
def pinsSet (s : State) (mask levels : Nat) : State :=
  { s with swiPins := (s.swiPins ^^^ (s.swiPins &&& mask)) ||| (levels &&& mask) }

/-- RAW and STATE at a power-up of PWR and after a reset: taken from the pins at once, without CHG and EV16 (R272). -/
def swiTake (s : State) : State :=
  (List.range 2).foldl (fun s w =>
    let raw : Word := BitVec.ofNat 32 (s.swiPins >>> (32 * w))
    let inv : Word := BitVec.ofNat 32 ((List.range 32).foldl (fun m b =>
      if cfgOn s 0x1C (R.SWI.CFG.INV (32 * w + b)) then m + 2 ^ b else m) 0)
    wr (wr s 0x1C (0x100 + 4 * w) raw) 0x1C (0x108 + 4 * w) (raw ^^^ inv)) s

/-- The consistency rules of SWI (R278). -/
def swiConsist (g : Fld → Nat) : Option Nat :=
  match (List.range 64).find? fun n =>
    g (R.SWI.CFG.CYC n) ≠ 0 && g (R.SWI.CFG.IWET n) = 0 && decide (g (R.SWI.CFG.TYPE n) < 2) with
  | some n => some (512 + n)
  | none =>
    match (List.range 16).find? fun k => decide (g (R.SWI.ATH.HI k) ≤ g (R.SWI.ATH.LO k)) with
    | some k => some (0x940 / 4 + k)
    | none => none

end Sys2Proof.Machine
end

