-- ==== Sys2Proof/Machine/Tbs.lean ====
section
/-! DEFINITION. The event fabric's software raises (13, R302 to R304) and the timebase: captures, compares, loads and the
discipline of a ring worker (R305 to R308). -/

namespace Sys2Proof.Machine

/-! ### EVF -/

/-- A raise of a hardware line is refused: SEVREJ with its fault source (R304). -/
def evfReject (s : State) : State := raiseP (setFlag s 0x0E R.EVF.STAT.SEVREJ true) 0x0E 1

/-- SEV of line `k` by a core (R304, R326). -/
def evfSev (s : State) (k : Nat) : State := if k < 16 then raiseLine s k else evfReject s

/-- A write of EVF.RAISE (R304). -/
def evfRaise (s : State) (v : Word) : State :=
  let s := if fget v R.EVF.RAISE.HWREQ ≠ 0 then evfReject s else s
  (List.range 16).foldl (fun s k => if bitOf v k then raiseLine s k else s) s

/-! ### Role on the ring -/

/-- The role in force: 0 SOLO, 1 MANAGER, 2 WORKER; a disabled JXR acts as SOLO (R509). -/
def jxrRole (s : State) : Nat := if blockOff s 0x0B then 0 else cfg s 0x0B R.JXR.ROLE.ROLE

/-- The device is its own manager at address 0, which it serves locally (R4, R32, R359). -/
def jxrOwn (s : State) : Bool := jxrRole s ≠ 2

/-- The device is an addressed worker (R306). -/
def tbsWorker (s : State) : Bool := jxrRole s = 2 && isSet s 0x0B R.JXR.ADDR.VALID

/-- Discipline acts, on any worker with DISC = 1 (R305, R509). -/
def tbsDisciplined (s : State) : Bool := jxrRole s = 2 && cfgOn s 0x0D R.TBS.CFG.DISC && !blockOff s 0x0D

/-! ### Captures and compares -/

/-- A write of TBS.CAP.REQ = 1 (R307). -/
def tbsCapture (s : State) : State :=
  let s := setF (setF s 0x0D R.TBS.CAPL.CNT (s.tbs % 2 ^ 32)) 0x0D R.TBS.CAPH.CNT (s.tbs / 2 ^ 32)
  setFlag s 0x0D R.TBS.CAP.VALID true

/-- The low 32 bits of TBS have reached `t`, in the wrap-safe signed compare (R308, R327). -/
def tbsReached (s : State) (t : Nat) : Bool := decide ((s.tbs + 2 ^ 32 - t % 2 ^ 32) % 2 ^ 32 < 2 ^ 31)

/-- A write of TBS.CMP[k] arms unit `k` (R308). -/
def tbsCmpWrite (s : State) (k : Nat) (v : Word) : State :=
  let s := setF s 0x0D (R.TBS.CMP.TIME k) v.toNat
  { s with tb := { s.tb with armed := if s.tb.armed.testBit k then s.tb.armed else s.tb.armed + 2 ^ k } }

/-- Unit `k` fires if it is armed and its target has been reached; it steps by CMPPER or disarms (R308). -/
def tbsFire (s : State) (k : Nat) : State :=
  if !s.tb.armed.testBit k || !tbsReached s (getF s 0x0D (R.TBS.CMP.TIME k)) then s
  else
    let per := cfg s 0x0D (R.TBS.CMPPER.PER k)
    let s :=
      if per ≠ 0 then setF s 0x0D (R.TBS.CMP.TIME k) (getF s 0x0D (R.TBS.CMP.TIME k) + per)
      else { s with tb := { s.tb with armed := s.tb.armed - 2 ^ k } }
    raiseLine s (20 + k)

/-- A load of TBS: the step event, every armed compare, and a frame boundary of every consumer of FRM (R19, R225, R308). The trigger of a
pending swap stays as long ago as it was (R244). -/
def tbsLoad (s : State) (v : Nat) : State :=
  let trig := (v + 2 ^ 64 - (s.tbs + 2 ^ 64 - s.frmc.trig) % 2 ^ 64) % 2 ^ 64
  let s := raiseLine { s with tbs := v % 2 ^ 64, frmc := { s.frmc with trig := trig } } 19
  let s := (List.range 4).foldl tbsFire s
  let s := lmxBoundary ((List.range 4).foldl lstBoundary s)
  (List.range 4).foldl (fun s c => lchBoundary s c none) s

/-! ### Discipline -/

/-- EXCL is set: its fault source on the change (R306, TBS fault sources). -/
def tbsExclude (s : State) : State :=
  let was := isSet s 0x0D R.TBS.STAT.EXCL
  let s := setFlag { s with tb := { s.tb with exclN := 0 } } 0x0D R.TBS.STAT.EXCL true
  if was then s else raiseP s 0x0D 1

/-- LOCK and EXCL at a beacon of offset `offs`; EXCL on an addressed worker only (R306). -/
def tbsStatus (s : State) (offs : Int) : State :=
  let m := offs.natAbs
  let n := if decide (m ≤ 8) then satInc 16 s.tb.lockN else 0
  let s := { s with tb := { s.tb with lockN := n } }
  let s := if n = 16 then setFlag s 0x0D R.TBS.STAT.LOCK true else s
  let s := if decide (16 < m) then setFlag s 0x0D R.TBS.STAT.LOCK false else s
  if !tbsWorker s then s
  else if decide (160 < m) then tbsExclude s
  else
    let x := if decide (m ≤ 80) then satInc 16 s.tb.exclN else 0
    let s := { s with tb := { s.tb with exclN := x } }
    if x = 16 then setFlag s 0x0D R.TBS.STAT.EXCL false else s

/-- A beacon of offset `offs`: OFFS, the trim, the integral and the status (R305, R306); units of the trim 1/64 ppm. -/
def tbsBeacon (s : State) (offs : Int) : State :=
  let s := setF s 0x0D R.TBS.OFFS.OFFS (twos 32 offs)
  if !tbsDisciplined s then setF s 0x0D R.TBS.TRIM.TRIM 0
  else
    let raw := s.tb.integ - 80 * offs
    let trim := clampInt (-16000) 16000 raw
    let i := if isSet s 0x0D R.TBS.STAT.LOCK then clampInt (-6400) 6400 (s.tb.integ - offs) else s.tb.integ
    let sat := if trim = 16000 || trim = -16000 then satInc 101 s.tb.satN else 0
    let s := setF s 0x0D R.TBS.TRIM.TRIM (twos 16 trim)
    let s := { s with tb := { s.tb with integ := i, satN := sat } }
    tbsStatus (if sat = 100 then raiseP s 0x0D 2 else s) offs

/-- 50 ms without a beacon on an addressed worker (R306). -/
def tbsNoBeacon (s : State) : State := if tbsWorker s then raiseP (tbsExclude s) 0x0D 0 else s

/-- The role, the address or the discipline has changed: EXCL clears on a device that is no addressed worker, and the trim is
0 where discipline does not act (R305, R306, R509). -/
def tbsRoleChanged (s : State) : State :=
  let s := if tbsDisciplined s then s
    else setF { s with tb := { s.tb with lockN := 0, exclN := 0, satN := 0 } } 0x0D R.TBS.TRIM.TRIM 0
  if tbsWorker s then s else setFlag s 0x0D R.TBS.STAT.EXCL false

/-- ECSEL, DISC and EN rules of the page hold no cross-field rule: only RANGE applies (13 Table 8). -/
def tbsConsist (_ : Fld → Nat) : Option Nat := none

end Sys2Proof.Machine
end

