-- ==== Sys2Proof/Machine/Rights.lean ====
section
/-! DEFINITION. Initiators and their rights: the manifest words, the fixed rights and the owner of a page (02, R50 to R53), and
where a page's interrupt goes (R300). -/

namespace Sys2Proof.Machine

/-- POWN coding of an initiator (02 Table 11). -/
def whoKind : Who → Nat
  | .app => 1 | .ec2 => 2 | .ec3 => 3 | .host => 4 | .sbp => 5 | .ring _ => 6

/-- Ring address of an initiator; 0 where it has none. -/
def whoAddr : Who → Nat
  | .ring d => d.toNat | _ => 0

/-- The right field of kind `k` in a manifest word: bit 0 R, 1 W, 2 C, 3 F (02 Table 10). -/
def manField (w : Word) (k : Nat) : Nat := if k = 0 then 0 else (w.toNat >>> (4 * (k - 1))) % 16

/-- A manifest word is valid (R50). -/
def manWordOk (w : Word) : Bool :=
  let fs := (List.range 6).map fun i => manField w (i + 1)
  decide ((fs.filter fun f => f.testBit 2).length ≤ 1) && fs.all (fun f => !f.testBit 2 || f % 4 = 3) && decide (w.toNat < 2 ^ 24)

/-- The manifest has been loaded since the last reset: PROT is configured (R51, R91). -/
def manifestLoaded (s : State) : Bool := configured s 5

/-- The rights of kind `k` on page `p`, with the fixed ones (R51); until the manifest is loaded EC3 owns every page. -/
def rightsOf (s : State) (k p : Nat) : Nat :=
  if !manifestLoaded s then (if k = 3 then 7 else 0) else
  let f := manField (rd s 0x05 (0x400 + 4 * p)) k
  let f := if k = 3 then f ||| 1 else f
  if p = 5 || p = 6 then (if k = 3 then f ||| 4 else if f.testBit 2 then f - 4 else f) else f

/-- The holder of the C right on page `p`, POWN coding (02 Table 11). -/
def pageOwner (s : State) (p : Nat) : Nat :=
  ((List.range 6).map (· + 1)).foldl (fun o k => if o = 0 && (rightsOf s k p).testBit 2 then k else o) 0

/-- Some page of the device whose owner is RING has an enabled interrupt cause pending (R374). -/
def ringIrq (s : State) : Bool := (List.range 0xB0).any fun p => pageOwner s p = 6 && pageIrq s p

/-- HIRQ takes the page interrupts of the pages that the host owns (R300). -/
def hostIrqPage (s : State) : Bool := (List.range 0xB0).any fun p => pageOwner s p = 4 && pageIrq s p

end Sys2Proof.Machine
end

