-- ==== Sys2Proof/Machine/Mbx.lean ====
section
/-! DEFINITION. The mailboxes (13, R312). -/

namespace Sys2Proof.Machine

/-- The initiator is outside the cores: host, side-band port or ring (R312). -/
def whoOutside : Who → Bool
  | .host | .sbp | .ring _ => true
  | _ => false

/-- Mailbox, out-box and offset in the box of live offset `off` of the MBX page (13 Table 11). -/
def mbxAt (off : Nat) : Nat × Bool × Nat := ((off - 0x100) / 0x100, decide (0x80 ≤ off % 0x100), off % 0x80)

/-- A write of data or BELL: none is a bus error (R312). -/
def mbxWrite (s : State) (who : Who) (off : Nat) (v : Word) : Option State :=
  let b := mbxAt off
  let base := off - b.2.2
  if 0x48 < b.2.2 || b.2.2 = 0x44 || b.2.2 = 0x48 then some s
  else if whoOutside who = b.2.1 then none
  else if blockOff s 0xB0 || !(cfg s 0xB0 R.MBX.CFG.EN).testBit b.1 then none
  else if bitOf (rd s 0xB0 (base + 0x48)) 31 then none
  else if b.2.2 < 0x40 then some (wr s 0xB0 off v)
  else
    let n := v.toNat % 32
    if n = 0 || 16 < n then some (werr s 0xB0 off)
    else
      let st := BitVec.ofNat 32 (2 ^ 31 + whoKind who * 2 ^ 20 + whoAddr who * 2 ^ 10 + n)
      some (raiseLine (wr s 0xB0 (base + 0x48) st) (52 + b.1))

/-- A refused write finds its box full: MREJ (R312, step 3). -/
def mbxRejects (s : State) (who : Who) (off : Nat) : Bool :=
  let b := mbxAt off
  whoOutside who ≠ b.2.1 && bitOf (rd s 0xB0 (off - b.2.2 + 0x48)) 31

/-- A read of TAKE: STAT, and the box is freed once per posting; none is a bus error (R312). -/
def mbxTake (s : State) (who : Who) (off : Nat) : Option (State × Word) :=
  let b := mbxAt off
  let st := rd s 0xB0 (off + 4)
  if whoOutside who ≠ b.2.1 then none
  else if bitOf st 31 then some (raiseLine (wr s 0xB0 (off + 4) (setBit st 31 false)) (52 + b.1), st) else some (s, st)

end Sys2Proof.Machine
end

