-- ==== Sys2Proof/Machine/Ring.lean ====
section
/-! DEFINITION. The ring port below the frames' effects on pages (15): link state, wraps, sequence numbers, duplicate windows,
own frames, event flags, hop delays; and the bridge (16): posting queue, error and orphan logs, split-read slots, semaphores,
poison, summaries, the rounds. -/

namespace Sys2Proof.Machine

def seqDefault (_ : Nat) : Nat := 0
def winDefault (_ : Nat) : DupWin := ⟨0, 0⟩
def bufDefault (_ : Nat) : CoreBuf := .idle

/-! ### Link and address (R336 to R340, R354) -/

/-- The causeways are open: the device forwards and originates frames (R336): after a reset from the end of the reflex loader on (R79),
after a wake, which is none, from the start of BOOT on (R355). -/
def jxrActive (s : State) : Bool :=
  running s && (s.rfxLoaded || getF s 0x03 R.RST.CAUSE.SRC = 8) && s.park ≠ .closing && jxrRole s ≠ 0

/-- The device's ring address. -/
def jxrSelf (s : State) : Nat := getF s 0x0B R.JXR.ADDR.ADDR

/-- JXR.STAT.RSTATE (15 Table 11). -/
def jxrStateCode (s : State) : Nat :=
  if !jxrActive s then 0
  else if s.jxr.conflict then 4
  else if !isSet s 0x0B R.JXR.STAT.LOCKA && !isSet s 0x0B R.JXR.STAT.LOCKB then 1
  else if !isSet s 0x0B R.JXR.ADDR.VALID then 2 else 3

/-- The heartbeat status byte on output `b`, lane B true (15 Table 2): RF names the lane that comes from the port which it goes to; WRAP
and NEEDENUM are the device's own, or as last received on either input. -/
def hbStatus (s : State) (b : Bool) : Byte :=
  let rf := if b then s.jxr.lostA else s.jxr.lostB
  let seen (i : Nat) : Bool := s.jxr.hbA.getLsbD i || s.jxr.hbB.getLsbD i
  let wrap := s.jxr.wrapUp || s.jxr.wrapDown || seen 1
  let need := (!isSet s 0x0B R.JXR.ADDR.VALID && !s.jxr.pinErr) || seen 2
  if jxrActive s then BitVec.ofNat 8 (rf.toNat + 2 * wrap.toNat + 4 * need.toNat) else 0

/-- The status bytes that the outputs send. -/
def hbSend (s : State) : State := { s with jxr := { s.jxr with stA := hbStatus s false, stB := hbStatus s true } }

/-- STAT follows the link: RSTATE, CWOPEN, RWRAP, WRAPN; leaving UP clears the flags of EFLOSS (R354); becoming a wrap point
counts and raises WRAP (R339, 15 Table 13); the heartbeats that are sent follow (R338). -/
def jxrStat (s : State) : State :=
  let old := getF s 0x0B R.JXR.STAT.RSTATE
  let new := jxrStateCode s
  let wasW := isSet s 0x0B R.JXR.STAT.WRAPN
  let isW := s.jxr.wrapUp || s.jxr.wrapDown
  let s := setFlag (setF (hbSend s) 0x0B R.JXR.STAT.RSTATE new) 0x0B R.JXR.STAT.CWOPEN (jxrActive s)
  let s := setFlag s 0x0B R.JXR.STAT.RWRAP (jxrActive s && (s.jxr.hbA.getLsbD 1 || s.jxr.hbB.getLsbD 1))
  let s := setFlag s 0x0B R.JXR.STAT.WRAPN isW
  let s :=
    if isW && !wasW then raiseP (setF s 0x0B R.JXR.WCNT.WRAPS (satInc 65535 (getF s 0x0B R.JXR.WCNT.WRAPS))) 0x0B 2 else s
  if old = 3 && new ≠ 3 then
    touch (setF s 0x0B R.JXR.EFLAG.FLAG (getF s 0x0B R.JXR.EFLAG.FLAG &&& (65535 - cfg s 0x0B R.JXR.EFLOSS.MASK)))
  else s

/-- A horn is sent on the lanes of a mask, bit 0 lane A (R355, R356). -/
def jxrHornOn (s : State) (m : Nat) : State :=
  { s with jxr := { s.jxr with outA := if m.testBit 0 then .horn else s.jxr.outA, outB := if m.testBit 1 then .horn else s.jxr.outB } }

/-- A horn is sent on both outputs (R356). -/
def jxrHorn (s : State) : State := jxrHornOn s 3

/-- The role or its gating has changed: a passive device drops its links but stays a wrap point (R340), the manager holds address 0, a
worker never does (R336, R348, R359). After a wake by another source than a horn the first links that train under JXR's
configuration send a horn if it says WHORN, once (R356). -/
def jxrRoleChanged (s : State) : State :=
  let s :=
    if jxrActive s then s
    else
      { setFlag (setFlag s 0x0B R.JXR.STAT.LOCKA false) 0x0B R.JXR.STAT.LOCKB false with
          jxr := { s.jxr with queue := [], evtCopy := [], outA := .idle, outB := .idle, lostA := false, lostB := false,
                              hbA := 0, hbB := 0, enumPh := 0, evtOne := false } }
  let s :=
    if jxrRole s = 1 then
      setFlag (setF (setF s 0x0B R.JXR.ADDR.ADDR 0) 0x0B R.JXR.ADDR.POS 0) 0x0B R.JXR.ADDR.VALID true
    else if jxrRole s = 2 && jxrSelf s = 0 then setFlag s 0x0B R.JXR.ADDR.VALID false else s
  let s := tbsRoleChanged (jxrStat s)
  if s.jxr.whorn && configured s 0x0B && jxrActive s then
    let s := { s with jxr := { s.jxr with whorn := false } }
    if cfgOn s 0x0B R.JXR.CFG.WHORN then jxrHorn s else s
  else s

/-- A JXR commit has applied: PINERR no longer holds an unaddressed device off (R348). -/
def jxrApplied (s : State) : State := jxrRoleChanged { s with jxr := { s.jxr with pinErr := false } }

/-- An input locks after 64 valid idle sets (R338); `b` is lane B. -/
def jxrLocked (s : State) (b : Bool) : State :=
  if !jxrActive s then s
  else
    let j := if b then { s.jxr with lostB := false } else { s.jxr with lostA := false }
    jxrStat (setFlag { s with jxr := j } 0x0B (if b then R.JXR.STAT.LOCKB else R.JXR.STAT.LOCKA) true)

/-- A hop is wrapped: the one lane left is its spare, whose use is logged with kind 5; with the other hop wrapped too no spare is left
(R339, R519). `old` is the state before. -/
def laneSpare (old s : State) : State :=
  let was := old.jxr.wrapUp || old.jxr.wrapDown
  let hop (s : State) (new : Bool) (k : Nat) : State :=
    if !new then s
    else if blockOff s 0x9A then sprDisabled s 5 k
    else if was then sprExhaust s 5
    else sprLog (setF s 0x9A R.SPR.STAT.EXH (getF s 0x9A R.SPR.STAT.EXH ||| 32)) 5 k
  hop (hop s (s.jxr.wrapUp && !old.jxr.wrapUp) 0) (s.jxr.wrapDown && !old.jxr.wrapDown) 1

/-- With no hop wrapped the spare lane is free again. -/
def laneFree (s : State) : State :=
  let e := getF s 0x9A R.SPR.STAT.EXH
  if s.jxr.wrapUp || s.jxr.wrapDown || !e.testBit 5 then s else setF s 0x9A R.SPR.STAT.EXH (e - 32)

/-- An input is lost, or has never shown a symbol: the device wraps the hop, once (R339). -/
def jxrLost (s : State) (b : Bool) : State :=
  let f := if b then R.JXR.STAT.LOCKB else R.JXR.STAT.LOCKA
  if !jxrActive s || (if b then s.jxr.lostB else s.jxr.lostA) then s
  else
    let s := raiseP (setFlag s 0x0B f false) 0x0B (if b then 1 else 0)
    let j := if b then { s.jxr with wrapDown := true, hbB := 0, lostB := true }
             else { s.jxr with wrapUp := true, hbA := 0, lostA := true }
    jxrStat (laneSpare s { s with jxr := j })

/-- A heartbeat's status byte: RF wraps the hop (15 Table 2, R339). -/
def jxrHeartbeat (s : State) (b : Bool) (st : Byte) : State :=
  if !jxrActive s then s
  else
    let j := if b then { s.jxr with hbB := st, wrapDown := s.jxr.wrapDown || st.getLsbD 0 }
             else { s.jxr with hbA := st, wrapUp := s.jxr.wrapUp || st.getLsbD 0 }
    jxrStat (laneSpare s { s with jxr := j })

/-- The wrap point unwraps each hop whose input is locked without remote fault (R340). -/
def jxrUnwrap (s : State) : State :=
  if !cfgOn s 0x0B R.JXR.CFG.AUTOUNW then s
  else
    let up := isSet s 0x0B R.JXR.STAT.LOCKA && !s.jxr.hbA.getLsbD 0
    let down := isSet s 0x0B R.JXR.STAT.LOCKB && !s.jxr.hbB.getLsbD 0
    jxrStat (laneFree { s with jxr := { s.jxr with wrapUp := s.jxr.wrapUp && !up, wrapDown := s.jxr.wrapDown && !down } })

/-- A horn received while the PHY runs is absorbed and counted (R355). -/
def jxrAbsorb (s : State) : State :=
  if jxrActive s then setF s 0x0B R.JXR.WCNT.HORNRX (satInc 65535 (getF s 0x0B R.JXR.WCNT.HORNRX)) else s

/-! ### Frames as bytes (R341) -/

/-- The 64-bit header (15 Table 3). -/
def frameHeader (f : RingFrame) : Nat :=
  f.dst.toNat * 2 ^ 54 + f.src.toNat * 2 ^ 44 + f.ty.toNat * 2 ^ 40 + f.bc.toNat * 2 ^ 39 + f.nb.toNat * 2 ^ 38 +
    f.wcnt.toNat * 2 ^ 36 + f.seq.toNat * 2 ^ 24 + f.data.length * 2 ^ 15 + f.hop.toNat * 2 ^ 4

/-- Header, most significant byte first, and payload. -/
def frameBody (f : RingFrame) : List Byte := (natToBytes 8 (frameHeader f)).reverse ++ f.data

/-- The bytes of a frame between SOF and its end: the CRC-32 over header and payload comes last. -/
def frameBytes (f : RingFrame) : List Byte := frameBody f ++ wordBytes (crc32 (frameBody f))

/-- A frame from its bytes: none where LEN is above 256 or disagrees with what was received, or the CRC fails (R342). -/
def frameRead (bs : List Byte) : Option RingFrame :=
  let h := bytesToNat (bs.take 8).reverse
  let len := h / 2 ^ 15 % 512
  if 256 < len || len + 12 ≠ bs.length || wordBytes (crc32 (bs.take (8 + len))) ≠ bs.drop (8 + len) then none
  else some
    { dst := BitVec.ofNat 10 (h / 2 ^ 54), src := BitVec.ofNat 10 (h / 2 ^ 44), ty := BitVec.ofNat 4 (h / 2 ^ 40),
      bc := h.testBit 39, nb := h.testBit 38, wcnt := BitVec.ofNat 2 (h / 2 ^ 36), seq := BitVec.ofNat 12 (h / 2 ^ 24),
      hop := BitVec.ofNat 11 (h / 2 ^ 4), data := (bs.drop 8).take len }

/-- `d` added to the four payload bytes at `i`. -/
def addAt (l : List Byte) (i d : Nat) : List Byte :=
  if l.length < i + 4 then l else l.take i ++ natToBytes 4 (bytesToNat ((l.drop i).take 4) + d) ++ l.drop (i + 4)

/-- DELAY of a beacon or an enumeration frame grows by `d`, in 0.125 ns; every other frame stays (R351, 15 Table 7). -/
def frameDelay (f : RingFrame) (d : Nat) : RingFrame :=
  if f.ty = 5 && f.data.head? = some 0 then { f with data := addAt f.data 12 d }
  else if f.ty = 5 && f.data.head? = some 3 then { f with data := addAt f.data 24 d } else f

/-- The LD of the hop that a lane's output sends on; 0 before a measurement. -/
def hopDelay (s : State) (b : Bool) : Nat := if b then getF s 0x0B { R.JXR.HOPA.LD with off := 0x10C } else getF s 0x0B R.JXR.HOPA.LD

/-- Output `b`, lane B true, sends `p`. -/
def txSet (s : State) (b : Bool) (p : TxPort) : State :=
  { s with jxr := if b then { s.jxr with outB := p } else { s.jxr with outA := p } }

/-- The hop that lane `b` goes out on is broken: it carries idles and heartbeats only (R340). -/
def hopBroken (s : State) (b : Bool) : Bool := if b then s.jxr.wrapUp else s.jxr.wrapDown

/-- A frame of this device goes out for lane `b`, `wait` after the clock of its MTIME (R351); what lane A or B would carry over a broken
hop goes back on the other lane, and a neighbour frame for it is not sent (R339, R340). -/
def jxrEmit (s : State) (b : Bool) (f : RingFrame) (wait : Nat) : State :=
  if hopBroken s b && (f.nb || hopBroken s (!b)) then s
  else
    let s := if f.ty = 5 && f.data.head? = some 0 then { s with jxr := { s.jxr with bcnWait := wait } } else s
    txSet s (b ^^ hopBroken s b) (.frame (frameBytes (frameDelay f wait)))

/-! ### Own frames (R341, R343, R347) -/

/-- The next SEQ for destination `key`; 1024 the broadcasts (R347). -/
def jxrSeq (s : State) (key : Nat) : State × Nat :=
  let q := storeGet seqDefault s.jxr.seqs key
  ({ s with jxr := { s.jxr with seqs := storeSet seqDefault s.jxr.seqs key ((q + 1) % 4096) } }, q)

/-- A frame of this device. -/
def jxrFrame (s : State) (dst ty seq : Nat) (bc nb : Bool) (data : List Byte) : RingFrame :=
  { dst := if bc then 0x3FF else BitVec.ofNat 10 dst, src := BitVec.ofNat 10 (jxrSelf s), ty := BitVec.ofNat 4 ty, bc := bc,
    nb := nb, wcnt := 0, seq := BitVec.ofNat 12 seq, hop := 0, data := data }

/-- A frame waits for a gap on a lane (R343). -/
def jxrQueue (s : State) (b : Bool) (f : RingFrame) : State :=
  if jxrActive s then { s with jxr := { s.jxr with queue := s.jxr.queue ++ [(b, f)] } } else s

/-- A broadcast of this device under its next SEQ (R347). -/
def jxrBroadcast (s : State) (ty : Nat) (data : List Byte) : State × RingFrame :=
  let r := jxrSeq s 1024
  let f := jxrFrame r.1 0 ty r.2 true false data
  (jxrQueue r.1 false f, f)

/-- The response to a request, kept for duplicates of it (R345, R347): `ty` 2 RDP, 3 ERR. -/
def jxrRespond (s : State) (src seq ty : Nat) (data : List Byte) : State :=
  let f := jxrFrame s src ty seq false false data
  jxrQueue { s with jxr := { s.jxr with resp := ((seq, f) :: s.jxr.resp).take 64 } } false f

/-- ERR payload (15 Table 5). -/
def errData (code addr : Nat) : List Byte := natToBytes 1 code ++ [0, 0, 0] ++ natToBytes 4 addr

/-- Outcome of a duplicate window for `q`: 0 new, 1 duplicate, 2 stale; and the window after it (15 Table 7a). -/
def dupStep (w : DupWin) (q : Nat) : Nat × DupWin :=
  if w.map = 0 then (0, ⟨q, 1⟩)
  else
    let d := sext 12 ((q + 4096 - w.top) % 4096)
    if 0 < d then (0, ⟨q, (w.map * 2 ^ d.toNat) % 2 ^ 64 ||| 1⟩)
    else if -63 ≤ d then
      (if w.map.testBit d.natAbs then (1, w) else (0, ⟨w.top, w.map + 2 ^ d.natAbs⟩))
    else (2, w)

/-- A frame of window `key` with sequence number `q` is accepted: the outcome, with the DUP count (R347). -/
def jxrDup (s : State) (key q : Nat) : State × Nat :=
  let r := dupStep (storeGet winDefault s.jxr.wins key) q
  let s := { s with jxr := { s.jxr with wins := storeSet winDefault s.jxr.wins key r.2 } }
  (if r.1 = 1 then setF s 0x0B R.JXR.ERRC.DUP (satInc 65535 (getF s 0x0B R.JXR.ERRC.DUP)) else s, r.1)

/-- A broadcast of source `src` is executed once (R347); the device's own copies are removed, never executed. -/
def jxrBcast (s : State) (src seq : Nat) (f : State → State) : State :=
  if !jxrActive s || (isSet s 0x0B R.JXR.ADDR.VALID && jxrSelf s = src) then s
  else
    let r := jxrDup s (1 + src) seq
    if r.2 = 0 then f r.1 else r.1

/-! ### Ring event flags (R353) -/

/-- The masks applied: a flag named in both is set. -/
def jxrApplyEvt (s : State) (set clr : Nat) : State :=
  touch (setF s 0x0B R.JXR.EFLAG.FLAG ((getF s 0x0B R.JXR.EFLAG.FLAG &&& (65535 - clr % 65536)) ||| set))

/-- A write of JXR.EVTX: the first copy is queued, the masks apply here, the second copy is due 10 µs later. -/
def jxrEvtx (s : State) (v : Word) : State :=
  if !jxrActive s || !isSet s 0x0B R.JXR.ADDR.VALID then s
  else
    let set := fget v R.JXR.EVTX.SET
    let clr := fget v R.JXR.EVTX.CLR
    let r := jxrBroadcast s 4 (natToBytes 2 set ++ natToBytes 2 clr)
    jxrApplyEvt { r.1 with jxr := { r.1.jxr with evtCopy := r.1.jxr.evtCopy ++ [r.2] } } set clr

/-- The oldest second copy, under the same SEQ. -/
def jxrEvtRepeat (s : State) : State :=
  match s.jxr.evtCopy with
  | f :: l => jxrQueue { s with jxr := { s.jxr with evtCopy := l } } false f
  | [] => s

/-! ### Hop delays and beacons (R350, R351) -/

/-- HOPREQ on both outgoing hops. -/
def jxrMeasure (s : State) : State :=
  let f := jxrFrame s 0x3FF 5 0 false true [1, 0, 0, 0]
  jxrQueue (jxrQueue s false f) true f

/-- HOPREQ received on lane `b`: answered on the other lane with the residence `res`. -/
def jxrHopReq (s : State) (b : Bool) (res : Nat) : State :=
  jxrQueue s (!b) (jxrFrame s 0x3FF 5 0 false true ([2, 0, 0, 0] ++ natToBytes 4 res))

/-- HOPRSP for lane `b`: the link delay of the outgoing hop; 16 bits, saturating. -/
def jxrHopRsp (s : State) (b : Bool) (round res : Nat) : State :=
  if !jxrActive s then s
  else
    let ld := min 65535 ((round - res) / 2)
    if b then wr s 0x0B 0x10C (BitVec.ofNat 32 (2 ^ 31 + ld))
    else setFlag (setF s 0x0B R.JXR.HOPA.LD ld) 0x0B R.JXR.HOPA.VALID true

/-- The manager sends a beacon where its TBS is a multiple of 80,000: MTIME is its TBS, DELAY counts from that clock (R351). -/
def jxrBeaconSend (s : State) : State :=
  if !jxrActive s || jxrRole s ≠ 1 || s.jxr.conflict || s.tbs % 80000 ≠ 0 then s
  else
    (jxrBroadcast s 5 ([0, 0, 0, 0] ++ natToBytes 8 s.tbs ++ natToBytes 4 0 ++
      natToBytes 2 (cfg s 0x0A R.BRG.SYSEP.SYSEP) ++ [0, 0])).1

/-- Three consecutive beacons that differ from, or agree with, RST.SETEP.EP (R376). -/
def brgEpoch (s : State) (ep : Nat) : State :=
  if ep = 0 then s
  else if ep = getF s 0x03 R.RST.SETEP.EP then
    let n := satInc 3 s.brg.epSame
    let s := { s with brg := { s.brg with epSame := n, epDiff := 0 } }
    if n = 3 then setFlag s 0x0A R.BRG.WSUM.EPMIS false else s
  else
    let n := satInc 3 s.brg.epDiff
    let s := { s with brg := { s.brg with epDiff := n, epSame := 0 } }
    if n = 3 then setFlag s 0x0A R.BRG.WSUM.EPMIS true else s

/-- A TIME beacon received at `s.tbs`: PATH, OFFS and the SYSEP comparison on a worker; on the manager LOOP, the time from its SOF out to
its return in TBS counts of 100 units of 0.125 ns (R351, R376, notes/assumptions/59). -/
def jxrBeacon (s : State) (src seq mtime delay ep : Nat) : State :=
  if jxrRole s = 1 then
    (if jxrActive s && src = jxrSelf s then setF s 0x0B R.JXR.LOOP.LOOP ((s.tbs - mtime) * 100 - s.jxr.bcnWait) else s)
  else
    jxrBcast s src seq fun s =>
      let s := setF s 0x0B R.JXR.PATH.DELAY delay
      brgEpoch (tbsBeacon s ((s.tbs : Int) - (mtime : Int) - ((delay / 100 : Nat) : Int))) ep

/-! ### Frames that go on (R339, R342, R351) -/

/-- The frame goes on: HOP and where it wraps WCNT are counted, DELAY grows by the residence `res` and the LD of the hop it leaves on, and
the CRC is that of the copy; `b` is the lane it came on. -/
def jxrPass (s : State) (b : Bool) (f : RingFrame) (res : Nat) : State :=
  let wrap := hopBroken s b
  let lane := b ^^ wrap
  let f := frameDelay { f with hop := f.hop + 1, wcnt := if wrap then f.wcnt + 1 else f.wcnt } (res + hopDelay s lane)
  txSet s lane (.frame (frameBytes f))

/-- The output copy of a frame from lane `b` ends with ABORT (R342). -/
def jxrAbort (s : State) (b : Bool) : State := txSet s (b ^^ hopBroken s b) .aborted

/-! ### Enumeration (R348, R349, R381) -/

/-- Requests of Table 4. -/
def isRequest (ty : Nat) : Bool := ty = 0 || ty = 1 || ty = 7 || ty = 8

/-- ENUM payload (15 Table 7). -/
def enumData (pass serial mtime delay pos map : Nat) : List Byte :=
  [3, 0, 0, 0] ++ natToBytes 1 pass ++ [0, 0, 0] ++ natToBytes 8 serial ++ natToBytes 8 mtime ++ natToBytes 4 delay ++
    natToBytes 2 pos ++ [0, 0] ++ natToBytes 128 map

/-- Pass 1 goes out; every per-destination counter restarts (R348, R381). A manager in CONFLICT sends none (R349). -/
def jxrPass1 (s : State) : State :=
  if s.jxr.conflict then { s with jxr := { s.jxr with enumPh := 0 } } else
  let q := storeGet seqDefault s.jxr.seqs 1024
  let s := { s with jxr := { s.jxr with seqs := storeSet seqDefault [] 1024 q, enumPh := 2 } }
  (jxrBroadcast s 5 (enumData 1 Config.serial.toNat s.tbs 0 0 1)).1

/-- A request is outstanding, the bridge's or the distribution's (R381). -/
def requestsOut (s : State) : Bool := !s.brg.outst.isEmpty || s.upd.await.isSome

/-- The manager enumerates, at once or when the outstanding requests have ended (R348, R381). -/
def jxrEnumStart (s : State) : State :=
  if !jxrActive s || jxrRole s ≠ 1 || s.jxr.conflict then s
  else if !requestsOut s then jxrPass1 s else { s with jxr := { s.jxr with enumPh := 1 } }

/-- AUTO_ENUM: with AUTOENUM, when both inputs are locked or NEEDENUM has been received (R348). -/
def jxrAutoEnum (s : State) : State :=
  let need := s.jxr.hbA.getLsbD 2 || s.jxr.hbB.getLsbD 2
  let both := isSet s 0x0B R.JXR.STAT.LOCKA && isSet s 0x0B R.JXR.STAT.LOCKB
  if cfgOn s 0x0B R.JXR.CFG.AUTOENUM && (need || both) then jxrEnumStart s else s

/-- Lowest clear address from 1 to 1023. -/
def lowestFree (map : Nat) : Option Nat := ((List.range 1023).map (· + 1)).find? fun a => !map.testBit a

/-- The device takes address `a`: its windows and its broadcast counter are emptied (R349). -/
def jxrTake (s : State) (a : Nat) (pinned : Bool) : State :=
  let s := setFlag (setFlag (setF s 0x0B R.JXR.ADDR.ADDR a) 0x0B R.JXR.ADDR.PINNED pinned) 0x0B R.JXR.ADDR.VALID true
  { s with jxr := { s.jxr with wins := [], seqs := storeSet seqDefault s.jxr.seqs 1024 0, took := true } }

/-- How an ENUM frame has come: its lane, HOP, WCNT and residence here. -/
structure EnumVia where
  laneB : Bool
  hop : BitVec 11
  wcnt : BitVec 2
  res : Nat

/-- The copy that goes on, with the payload `data`. -/
def jxrEnumOut (s : State) (v : EnumVia) (src seq : Nat) (data : List Byte) : State :=
  jxrPass s v.laneB { dst := 0x3FF, src := BitVec.ofNat 10 src, ty := 5, bc := true, nb := false, wcnt := v.wcnt,
                      seq := BitVec.ofNat 12 seq, hop := v.hop, data := data } v.res

/-- An ENUM pass on a device that is no manager (R348, R349); one that it has handled goes on as it is (R347). -/
def jxrEnumWorker (s : State) (v : EnumVia) (src seq pass serial mtime delay pos map : Nat) : State :=
  let tag := 4096 * pass + seq + 1
  if s.jxr.enumLast = tag then
    jxrEnumOut (setF s 0x0B R.JXR.ERRC.DUP (satInc 65535 (getF s 0x0B R.JXR.ERRC.DUP))) v src seq
      (enumData pass serial mtime delay pos map)
  else
    let s := { s with jxr := { s.jxr with enumLast := tag } }
    if pass = 1 then
      let s := setF s 0x0B R.JXR.ADDR.POS (pos + 1)
      let has := isSet s 0x0B R.JXR.ADDR.VALID
      let pin := cfg s 0x0B R.JXR.PIN.ADDR
      let s :=
        if has then
          { s with jxr := { s.jxr with wins := storeSet winDefault (storeSet winDefault s.jxr.wins 0 ⟨0, 0⟩) 1 ⟨0, 0⟩,
                                       took := false } }
        else if !cfgOn s 0x0B R.JXR.PIN.EN || s.jxr.pinErr then { s with jxr := { s.jxr with took := false } }
        else if map.testBit pin then raiseP { s with jxr := { s.jxr with pinErr := true, took := false } } 0x0B 3
        else jxrTake s pin true
      let map := if isSet s 0x0B R.JXR.ADDR.VALID then map ||| 2 ^ jxrSelf s else map
      tbsRoleChanged (jxrStat (jxrEnumOut s v src seq (enumData 1 serial mtime delay (pos + 1) map)))
    else
      let s :=
        if isSet s 0x0B R.JXR.ADDR.VALID || s.jxr.pinErr then s
        else match lowestFree map with
          | some a => jxrTake s a false
          | none => raiseP s 0x0B 5
      let map := if isSet s 0x0B R.JXR.ADDR.VALID then map ||| 2 ^ jxrSelf s else map
      let s := jxrStat (jxrEnumOut s v src seq (enumData 2 serial mtime delay pos map))
      let s := if s.jxr.took then tbsLoad { s with jxr := { s.jxr with took := false } } (mtime + delay / 100) else s
      tbsRoleChanged s

/-- JXR.MAP from a 1,024-bit map. -/
def jxrSetMap (s : State) (map : Nat) : State :=
  (List.range 32).foldl (fun s w => wr s 0x0B (0x200 + 4 * w) (BitVec.ofNat 32 (map >>> (32 * w)))) s

/-- Address `a` is assigned (R348). -/
def jxrAssigned (s : State) (a : Nat) : Bool := bitOf (rd s 0x0B (0x200 + 4 * (a / 32))) (a % 32)

/-- Own frames that a manager in CONFLICT does not send: requests, beacons and enumeration (R349). -/
def conflictBars (f : RingFrame) : Bool :=
  isRequest f.ty.toNat || (f.ty = 5 && (f.data.head? = some 0 || f.data.head? = some 3))

/-- The manager with the higher serial enters CONFLICT: what it has queued of such frames goes too. -/
def jxrConflict (s : State) : State :=
  jxrStat { s with jxr := { s.jxr with conflict := true, queue := s.jxr.queue.filter fun e => !conflictBars e.2 } }

/-- A frame of this device has been round the ring when it comes on lane `b` with WCNT `w`, and is removed (R342). -/
def jxrRound (s : State) (b : Bool) (w : BitVec 2) : Bool :=
  let rw := isSet s 0x0B R.JXR.STAT.RWRAP
  (w = 0 && !rw) || (w = 2 && rw) || hopBroken s b

/-- An ENUM pass on the manager: its own returns, or goes on where it has not been round the whole of a wrapped ring; another manager's
goes on (R342, R348, R349). -/
def jxrEnumManager (s : State) (v : EnumVia) (src seq pass serial mtime delay pos map : Nat) : State :=
  if serial ≠ Config.serial.toNat then
    let s := if serial < Config.serial.toNat then jxrConflict s else s
    raiseP (jxrEnumOut s v src seq (enumData pass serial mtime delay pos map)) 0x0B 4
  else if !jxrRound s v.laneB v.wcnt then jxrEnumOut s v src seq (enumData pass serial mtime delay pos map)
  else if pass = 1 && s.jxr.enumPh = 2 then
    if s.jxr.conflict then { s with jxr := { s.jxr with enumPh := 0 } } else
    let s := { s with jxr := { s.jxr with enumPh := 3, enumPos := pos, enumMap := map } }
    (jxrBroadcast s 5 (enumData 2 serial s.tbs 0 0 map)).1
  else if pass = 2 && s.jxr.enumPh = 3 then
    let s := setF (jxrSetMap s map) 0x0B R.JXR.NODES.N (s.jxr.enumPos + 1)
    let old := s.jxr.enumMap
    { s with jxr := { s.jxr with enumPh := 0,
                                 seqs := storeKeep (fun k => k = 1024 || old.testBit k || !map.testBit k) s.jxr.seqs } }
  else s

/-- An ENUM pass received. -/
def jxrEnum (s : State) (v : EnumVia) (src seq pass serial mtime delay pos map : Nat) : State :=
  if !jxrActive s then s
  else if jxrRole s = 1 then jxrEnumManager s v src seq pass serial mtime delay pos map
  else jxrEnumWorker s v src seq pass serial mtime delay pos map

/-! ### Bridge: logs (R365, R366, R372) -/

/-- TBS bits 43:12. -/
def brgTs (s : State) : Word := BitVec.ofNat 32 (s.tbs / 4096)

/-- Window address of offset `a` of device `d`. -/
def winAddr (d a : Nat) : Word := BitVec.ofNat 32 (0x80000000 + d * 0x100000 + a)

/-- An error log entry (R365, R366, 16 Table 1). -/
def brgLog (s : State) (addr : Word) (code kind : Nat) (wrt : Bool) (tag : Nat) (data : Word) : State :=
  let n := getF s 0x0A R.BRG.ELOGN.N
  if n = 16 then raiseP s 0x0A 5
  else
    let e := 0x400 + 16 * ((getF s 0x0A R.BRG.ELOGN.HEAD + n) % 16)
    let s := wr s 0x0A e addr
    let s := wr s 0x0A (e + 4) (BitVec.ofNat 32 (code * 2 ^ 24 + kind * 2 ^ 21 + wrt.toNat * 2 ^ 20 + tag))
    let s := wr (wr s 0x0A (e + 8) data) 0x0A (e + 12) (brgTs s)
    raiseP (setF s 0x0A R.BRG.ELOGN.N (n + 1)) 0x0A 0

/-- LOGPOP.ELOG removes the oldest entry (R366). -/
def brgPopE (s : State) : State :=
  let n := getF s 0x0A R.BRG.ELOGN.N
  if n = 0 then s
  else
    let h := getF s 0x0A R.BRG.ELOGN.HEAD
    let s := (List.range 4).foldl (fun s i => wr s 0x0A (0x400 + 16 * h + 4 * i) 0) s
    setF (setF s 0x0A R.BRG.ELOGN.N (n - 1)) 0x0A R.BRG.ELOGN.HEAD ((h + 1) % 16)

/-- An orphan-read entry (R372). -/
def brgOrphan (s : State) (addr : Word) (kind tag : Nat) (data : Word) : State :=
  let n := getF s 0x0A R.BRG.OLOGN.N
  if n = 8 then raiseP s 0x0A 5
  else
    let e := 0x500 + 16 * ((getF s 0x0A R.BRG.OLOGN.HEAD + n) % 8)
    let s := wr (wr s 0x0A e addr) 0x0A (e + 4) (BitVec.ofNat 32 (kind * 2 ^ 21 + tag))
    let s := wr (wr s 0x0A (e + 8) data) 0x0A (e + 12) (brgTs s)
    raiseP (setF s 0x0A R.BRG.OLOGN.N (n + 1)) 0x0A 1

/-- LOGPOP.OLOG removes the oldest entry (R372). -/
def brgPopO (s : State) : State :=
  let n := getF s 0x0A R.BRG.OLOGN.N
  if n = 0 then s
  else
    let h := getF s 0x0A R.BRG.OLOGN.HEAD
    let s := (List.range 4).foldl (fun s i => wr s 0x0A (0x500 + 16 * h + 4 * i) 0) s
    setF (setF s 0x0A R.BRG.OLOGN.N (n - 1)) 0x0A R.BRG.OLOGN.HEAD ((h + 1) % 8)

/-! ### Bridge: issue (R360 to R363, R368, R373) -/

/-- PCAP.RSE by page number (R361). -/
def rsePage (p : Nat) : Bool := (pageCap p).rse

/-- A held semaphore of another kind names the page (R373). -/
def semBlocks (s : State) (kind dev page : Nat) : Bool :=
  (List.range 64).any fun i =>
    isSet s 0x0A (R.BRG.SEM.HELD i) && getF s 0x0A (R.BRG.SEM.DEV i) = dev && getF s 0x0A (R.BRG.SEM.PAGE i) = page &&
      getF s 0x0A (R.BRG.SEM.OWNER i) ≠ kind

/-- An access of `n` words to offset `a` of device `dev` passes the checks at issue (R31, R360, R361, R373, R509). -/
def brgIssueOk (s : State) (kind dev a n : Nat) : Bool :=
  running s && jxrRole s = 1 && !blockOff s 0x0A && (kind = 1 || kind = 2 || kind = 3 || kind = 4) && dev ≠ 0 &&
    a % 4 = 0 && decide (1 ≤ n) && decide (n ≤ 8) && a / 4096 = (a + 4 * n - 1) / 4096 && (n = 1 || !rsePage (a / 4096)) &&
    !semBlocks s kind dev (a / 4096)

def brgPoisoned (s : State) (dev page : Nat) : Bool := s.brg.poison.contains (dev, page)

/-- Posted words discarded by poison (R368). -/
def brgDrop (s : State) (n : Nat) : State := setF s 0x0A R.BRG.STAT.PDROP (min 255 (getF s 0x0A R.BRG.STAT.PDROP + n))

/-- The request takes its place in issue order at the end of the queue (R362, R363). -/
def brgAppend (s : State) (r : BrgReq) : State :=
  { s with brg := { s.brg with queue := s.brg.queue ++ [{ r with no := s.brg.issued }], issued := s.brg.issued + 1 } }

/-- A request enters the queue; a write may join the one queued just before it (R362). -/
def brgEnqueue (s : State) (r : BrgReq) : State :=
  match s.brg.queue.getLast? with
  | some l =>
    if l.op = 0 && r.op = 0 && l.kind = r.kind && l.dev = r.dev && l.addr / 4096 = r.addr / 4096 &&
        !rsePage (r.addr / 4096) && r.addr = l.addr + 4 * l.words.length && l.words.length < 63 then
      { s with brg := { s.brg with queue := s.brg.queue.dropLast ++ [{ l with words := l.words ++ r.words }] } }
    else brgAppend s r
  | none => brgAppend s r

/-- A posted write: queued, or discarded where its page is poisoned (R362, R368). -/
def brgPost (s : State) (kind dev a : Nat) (w : Word) : State :=
  if brgPoisoned s dev (a / 4096) then brgDrop s 1
  else brgEnqueue s { kind := kind, dev := dev, addr := a, op := 0, words := [w], cnt := 0, dest := 32, live := true }

/-- A core's blocking read or LOCK of core page `c`: none is a bus error; the Word is the data once it has come; otherwise the
core stalls (R369). -/
def brgCore (s : State) (c kind dev a : Nat) (lock : Option Word) : Option (State × Option Word) :=
  let full := dev * 0x100000 + a
  match storeGet bufDefault s.brg.cores c with
  | .data x w =>
    if x = full then some ({ s with brg := { s.brg with cores := storeSet bufDefault s.brg.cores c .idle } }, some w)
    else issue full
  | .failed x => if x = full then none else issue full
  | .waiting _ => some (s, none)
  | .idle => issue full
where
  /-- The request goes into the queue and the core waits. -/
  issue (full : Nat) : Option (State × Option Word) :=
    if !brgIssueOk s kind dev a 1 then none
    else
      let r : BrgReq := { kind := kind, dev := dev, addr := a, op := if lock.isSome then 2 else 1,
                          words := lock.toList, cnt := 1, dest := c - 0xA0 + 16, live := true }
      let s := brgEnqueue s r
      some ({ s with brg := { s.brg with cores := storeSet bufDefault s.brg.cores c (.waiting full) } }, none)

/-- The buffer is emptied as the instruction that read through it ends with an exception, or gives way to an interrupt. -/
def brgCoreClear (s : State) (c : Nat) : State :=
  match storeGet bufDefault s.brg.cores c with
  | .failed _ | .data _ _ => { s with brg := { s.brg with cores := storeSet bufDefault s.brg.cores c .idle } }
  | _ => s

/-! ### Bridge: split reads (R370, R371) -/

/-- Slot `t` set, with SLOTBUSY. -/
def slotSet (s : State) (t st kind code drt cnt : Nat) : State :=
  let s := wr s 0x0A (0x180 + 4 * t) (BitVec.ofNat 32 (st * 2 ^ 30 + kind * 2 ^ 27 + code * 2 ^ 16 + drt * 2 ^ 8 + cnt))
  let b := getF s 0x0A R.BRG.STAT.SLOTBUSY
  setF s 0x0A R.BRG.STAT.SLOTBUSY (if st = 0 then (if b.testBit t then b - 2 ^ t else b) else b ||| 2 ^ t)

def slotState (s : State) (t : Nat) : Nat := getF s 0x0A (R.BRG.SLOT.STATE t)

/-- Slot `t` becomes FREE, its data gone. -/
def slotClear (s : State) (t : Nat) : State :=
  let s := (List.range 8).foldl (fun s i => wr s 0x0A (0x600 + 32 * t + 4 * i) 0) s
  slotSet s t 0 0 0 0 0

/-- A split read into the lowest free slot (R370): the slot, or none. -/
def brgSplit (s : State) (kind dev a n : Nat) : State × Option Nat :=
  match (List.range 16).find? fun t => slotState s t = 0 with
  | none => (s, none)
  | some t =>
    let s := slotSet s t 1 kind 0 0 n
    let s := { s with brg := { s.brg with slotAddr := storeSet seqDefault s.brg.slotAddr t (dev * 0x100000 + a) } }
    (brgEnqueue s { kind := kind, dev := dev, addr := a, op := 1, words := [], cnt := n, dest := t, live := true }, some t)

/-- A write of BRG.RDREQ: none is a bus error at issue (R361, R370). -/
def brgRdreq (s : State) (kind : Nat) (v : Word) : Option State :=
  let a := v.toNat
  let dev := (a - 0x80000000) / 0x100000 % 1024
  let n := storeGet (fun _ => 1) s.brg.rdcnt kind
  if a < 0x80000000 || 0xC0000000 ≤ a || !brgIssueOk s kind dev (a % 0x100000) n then none
  else
    let r := brgSplit s kind dev (a % 0x100000) n
    let tag := match r.2 with | some t => 2 ^ 31 + t | none => 0
    some { r.1 with brg := { r.1.brg with rdtag := storeSet seqDefault r.1.brg.rdtag kind tag } }

/-- Page of the read that slot `t` holds. -/
def slotPage (s : State) (t : Nat) : Nat := storeGet seqDefault s.brg.slotAddr t % 0x100000 / 4096

/-- A FREE of slot `t` by kind `kind` (R370, R371): a waiting read is cancelled. -/
def brgFree (s : State) (kind t : Nat) : State :=
  if slotState s t = 0 || getF s 0x0A (R.BRG.SLOT.KIND t) ≠ kind then s
  else
    let s :=
      if slotState s t = 1 then
        { s with brg := { s.brg with
            queue := s.brg.queue.filter fun r => r.op ≠ 1 || r.dest ≠ t,
            outst := s.brg.outst.map fun o => if o.req.op = 1 && o.req.dest = t then { o with req := { o.req with live := false } } else o } }
      else s
    slotClear s t

/-- The delayed-read timer of slot `t` expires (R371). -/
def brgExpire (s : State) (t : Nat) : State :=
  let st := slotState s t
  if st ≠ 2 && st ≠ 3 then s
  else
    let a := storeGet seqDefault s.brg.slotAddr t
    let s := if st = 2 && rsePage (slotPage s t)
      then brgOrphan s (BitVec.ofNat 32 (0x80000000 + a)) (getF s 0x0A (R.BRG.SLOT.KIND t)) t (rd s 0x0A (0x600 + 32 * t)) else s
    slotClear s t

/-! ### Poll rounds (R375 to R377) -/

/-- Status of worker `d` in a park round. -/
def parkMark (s : State) (d st : Nat) : State :=
  { s with brg := { s.brg with park := s.brg.park.map fun e => if e.1 = d then (d, st) else e } }

/-- A write of the bridge itself to worker `d` (KIND 0). -/
def brgOwn (s : State) (d a : Nat) (w : Word) : State := brgPost s 0 d a w

/-- A DISMAP bit is set; a rising one raises DISAGREE (R376). -/
def brgDis (s : State) (d : Nat) : State :=
  let off := 0x280 + 4 * (d / 32)
  let w := rd s 0x0A off
  if bitOf w (d % 32) then s else raiseP (wr s 0x0A off (setBit w (d % 32) true)) 0x0A 3

/-- IPEND of worker `d`; a rising one raises WIRQ and EV62 (R375). -/
def brgIpend (s : State) (d : Nat) (v : Bool) : State :=
  let off := 0x200 + 4 * (d / 32)
  let w := rd s 0x0A off
  let s' := wr s 0x0A off (setBit w (d % 32) v)
  if v && !bitOf w (d % 32) then raiseLine (raiseP s' 0x0A 2) 62 else s'

/-- The admission check of a worker in HOLD with WHY = WORKER (R376, R377). -/
def brgAdmit (s : State) (d : Nat) (wver wid : Word) : State :=
  let ep := wid.toNat / 65536
  let rev := wid.toNat % 65536
  let epOk := decide (ep = cfg s 0x0A R.BRG.SYSEP.SYSEP)
  let pass := epOk && decide (getF s 0x0A R.BRG.COMPVLO.VER ≤ wver.toNat) && decide (wver.toNat ≤ getF s 0x0A R.BRG.COMPVHI.VER) &&
    decide (getF s 0x0A R.BRG.COMPREV.LO ≤ rev) && decide (rev ≤ getF s 0x0A R.BRG.COMPREV.HI)
  let s := if epOk then s else brgDis s d
  if !cfgOn s 0x0A R.BRG.CFG.AUTOADM || s.mode ≠ .run then s
  else if !pass then brgDis s d
  else
    let last := storeGet seqDefault s.brg.adm d
    if last ≠ 0 && s.tbs < last - 1 + 8000000 then s
    else brgOwn { s with brg := { s.brg with adm := storeSet seqDefault s.brg.adm d (s.tbs + 1) } } d 0x114 1

/-- Workers of the ring, ascending. -/
def ringWorkers (s : State) : List Nat := (((List.range 1023).map (· + 1)).filter (jxrAssigned s))

/-- A worker's poll has answered (R375 to R377, R380). -/
def brgPollOk (s : State) (d : Nat) (wsum wver wid : Word) : State :=
  let s := brgIpend s d (fget wsum R.BRG.WSUM.IRQ ≠ 0)
  let s := { s with brg := { s.brg with polls := storeSet seqDefault s.brg.polls d (wsum.toNat + 1) } }
  let ps := fget wsum R.BRG.WSUM.PSTATE
  let s := if isSet s 0x0A R.BRG.STAT.PARKRND && ps = 2 then parkMark s d 1
    else if isSet s 0x0A R.BRG.STAT.PARKRND && ps = 3 then parkMark s d 2 else s
  let s := if fget wsum R.BRG.WSUM.EPMIS ≠ 0 || fget wsum R.BRG.WSUM.EXCL ≠ 0 then brgDis s d else s
  let md := fget wsum R.BRG.WSUM.MODE
  let s := if md = 6 && fget wsum R.BRG.WSUM.EPMIS ≠ 0 && cfgOn s 0x0A R.BRG.CFG.EPRST
    then brgOwn s d (0x3000 + R.RST.SWRST.KEY.off) 0xA5 else s
  if md = 5 && fget wsum R.BRG.WSUM.HOLDWHY = 7 then brgAdmit s d wver wid else s

/-- A worker's poll has ended in a final error, logged once (R375, R380). -/
def brgPollErr (s : State) (d code : Nat) : State :=
  let was := storeGet seqDefault s.brg.polls d ≠ 0
  let s := { s with brg := { s.brg with polls := storeSet seqDefault s.brg.polls d 0 } }
  let s := if code = 16 && s.brg.park.contains (d, 3) then parkMark s d 1 else s
  if was then raiseLine (brgDis (brgLog s (winAddr d 0xA100) code 0 false 0 0) d) 62 else s

/-- A poll round starts: an RDQ of WSUM, WVER and WID to every worker, ascending (R375). -/
def brgPollGo (s : State) : State :=
  setFlag ((ringWorkers s).foldl (fun s d =>
    brgAppend s { kind := 0, dev := d, addr := 0xA100, op := 1, words := [], cnt := 3, dest := 33, live := true }) s) 0x0A R.BRG.STAT.POLLRUN true

/-- The round ends when every read has ended; one that has fallen due meanwhile then starts late (R375). -/
def brgPollEnd (s : State) : State :=
  if !isSet s 0x0A R.BRG.STAT.POLLRUN || s.brg.queue.any (fun r => r.dest = 33) || s.brg.outst.any (fun o => o.req.dest = 33) then s
  else
    let s := setF s 0x0A R.BRG.POLLC.ROUNDS (getF s 0x0A R.BRG.POLLC.ROUNDS + 1)
    let s := setFlag s 0x0A R.BRG.STAT.POLLRUN false
    if !s.brg.pollDue then s
    else
      let s := setF { s with brg := { s.brg with pollDue := false } } 0x0A R.BRG.POLLC.LATE
        (satInc 65535 (getF s 0x0A R.BRG.POLLC.LATE))
      brgPollGo (raiseP s 0x0A 6)

/-- A poll round is due: it starts, or is delayed until the one that runs has ended (R375, R509). -/
def brgPoll (s : State) : State :=
  if !running s || jxrRole s ≠ 1 || blockOff s 0x0A || cfg s 0x0A R.BRG.CFG.POLL = 0 then s
  else if isSet s 0x0A R.BRG.STAT.POLLRUN then { s with brg := { s.brg with pollDue := true } }
  else brgPollEnd (brgPollGo s)

/-! ### Bridge: ends of requests (R365 to R371, R380) -/

/-- An enumeration that waits begins once no request is outstanding (R381). -/
def brgDrained (s : State) : State := if s.jxr.enumPh = 1 && !requestsOut s then jxrPass1 s else s

/-- The request is the park round's write of MREQ = PARK (R380). -/
def isParkWrite (r : BrgReq) : Bool := r.kind = 0 && r.op = 0 && r.addr = 0x114 && r.words = [2]

/-- A request ends with its data (R345, R369 to R371, R375). -/
def brgDone (s : State) (r : BrgReq) (ws : List Word) : State :=
  if r.dest = 33 then brgPollEnd (brgPollOk s r.dev (ws.getD 0 0) (ws.getD 1 0) (ws.getD 2 0))
  else if r.op = 0 then
    (if isParkWrite r && s.brg.park.contains (r.dev, 0) then parkMark s r.dev 3 else s)
  else if r.dest < 16 then
    if !r.live then
      (if rsePage (r.addr / 4096) then brgOrphan s (winAddr r.dev r.addr) r.kind r.dest (ws.headD 0) else s)
    else
      let s := (List.range 8).foldl (fun s i => wr s 0x0A (0x600 + 32 * r.dest + 4 * i) (ws.getD i 0)) s
      raiseLine (slotSet s r.dest 2 r.kind 0 (cfg s 0x0A R.BRG.TIMERS.DRT) r.cnt) 62
  else if r.dest < 32 then
    { s with brg := { s.brg with cores := storeSet bufDefault s.brg.cores (r.dest - 16 + 0xA0)
                                            (.data (r.dev * 0x100000 + r.addr) (ws.headD 0)) } }
  else s

/-- The page of a failed posted write is poisoned and what waits for it is discarded (R368). -/
def brgPoison (s : State) (dev page : Nat) : State :=
  if !cfgOn s 0x0A R.BRG.CFG.POISON || brgPoisoned s dev page || 16 ≤ s.brg.poison.length then s
  else
    let gone := s.brg.queue.filter fun r => r.op = 0 && r.dev = dev && r.addr / 4096 = page
    let s := brgDrop s (gone.foldl (fun n r => n + r.words.length) 0)
    { s with brg := { s.brg with poison := s.brg.poison ++ [(dev, page)],
                                 queue := s.brg.queue.filter fun r => !(r.op = 0 && r.dev = dev && r.addr / 4096 = page) } }

/-- A request ends in a final error (R365, R367 to R369, R375). -/
def brgFail (s : State) (r : BrgReq) (code : Nat) : State :=
  if r.dest = 33 then brgPollEnd (brgPollErr s r.dev code) else
  let tag := if r.op = 1 && r.dest < 16 then r.dest else 0
  let s := brgLog s (winAddr r.dev r.addr) code r.kind (r.op = 0) tag (if r.op = 0 then r.words.headD 0 else 0)
  let s := raiseLine s 62
  if r.op = 0 then
    let s := if isParkWrite r then parkMark s r.dev 2 else s
    brgPoison s r.dev (r.addr / 4096)
  else if r.dest < 16 then
    (if r.live then slotSet s r.dest 3 r.kind code (cfg s 0x0A R.BRG.TIMERS.DRT) r.cnt else s)
  else if r.dest < 32 then
    { s with brg := { s.brg with cores := storeSet bufDefault s.brg.cores (r.dest - 16 + 0xA0)
                                            (.failed (r.dev * 0x100000 + r.addr)) } }
  else s

/-- The outstanding request that a response matches (R345, R346). -/
def brgMatch (s : State) (dev seq : Nat) : Option BrgOut := s.brg.outst.find? fun o => o.req.dev = dev && o.seq = seq

/-- It leaves the outstanding ones. -/
def brgRemove (s : State) (dev seq : Nat) : State :=
  { s with brg := { s.brg with outst := s.brg.outst.filter fun o => !(o.req.dev = dev && o.seq = seq) } }

/-- A final error of the request to `dev` under `seq`. -/
def brgEndErr (s : State) (dev seq code : Nat) : State :=
  match brgMatch s dev seq with
  | some o => brgDrained (brgFail (brgRemove s dev seq) o.req code)
  | none => s

/-! ### Bridge: sending (R345, R363, R381) -/

/-- Type and payload of a request's frame (15 Table 5). -/
def brgFrame (s : State) (r : BrgReq) (seq : Nat) : RingFrame :=
  let adr := natToBytes 4 r.addr
  if r.op = 0 then jxrFrame s r.dev 0 seq false false (adr ++ r.words.flatMap wordBytes)
  else if r.op = 1 then jxrFrame s r.dev 1 seq false false (adr ++ natToBytes 4 r.cnt)
  else jxrFrame s r.dev 7 seq false false (adr ++ natToBytes 4 1 ++ r.words.flatMap wordBytes)

/-- Requests outstanding at `dev`, the distribution's among them (R345). -/
def jxrLoad (s : State) (dev : Nat) : Nat :=
  (s.brg.outst.filter fun o => o.req.dev = dev).length + (s.upd.await.any fun f => f.dst.toNat = dev).toNat

/-- Request `r`, behind the requests `before` in the queue, may be sent (R345, R363): a read or LOCK waits for the writes of its kind to
the device that were issued before it. -/
def brgMaySend (s : State) (before : List BrgReq) (r : BrgReq) : Bool :=
  let same (x : BrgReq) : Bool := x.dev = r.dev && x.addr / 4096 = r.addr / 4096
  let wsame (x : BrgReq) : Bool := x.op = 0 && x.kind = r.kind && x.dev = r.dev && decide (x.no < r.no)
  !before.any same && !s.brg.outst.any (fun o => same o.req) &&
    (r.op = 0 || (!before.any wsame && !s.brg.outst.any fun o => wsame o.req)) &&
    decide (jxrLoad s r.dev < 32)

/-- Index of the first request of the queue that may be sent. -/
def brgFirst (s : State) : List BrgReq → List BrgReq → Option Nat
  | _, [] => none
  | before, r :: rs => if brgMaySend s before r then some before.length else brgFirst s (before ++ [r]) rs

/-- The next request goes out, or ends with NOADDR where its address is not assigned (R348, R363). -/
def brgSend (s : State) : State :=
  if jxrRole s ≠ 1 || s.jxr.enumPh ≠ 0 || s.jxr.conflict || (hopBroken s false && hopBroken s true) then s
  else match brgFirst s [] s.brg.queue with
    | none => s
    | some i =>
      match s.brg.queue[i]? with
      | none => s
      | some r =>
        let s := { s with brg := { s.brg with queue := s.brg.queue.eraseIdx i } }
        if !jxrAssigned s r.dev then brgFail s r 16
        else
          let q := jxrSeq s r.dev
          let f := brgFrame q.1 r q.2
          let s := { q.1 with brg := { q.1.brg with outst := q.1.brg.outst ++ [(⟨r, q.2, 0⟩ : BrgOut)] } }
          jxrEmit s false f 0

/-- A gap in the traffic: the oldest own frame, else a request of the bridge, goes out; while the insertion buffer holds anything
(`gap` false) a single EVT frame (R343). `wait` is the time since the MTIME of a beacon or an enumeration frame (R351). -/
def jxrOriginate (s : State) (gap : Bool) (wait : Nat) : State :=
  if !jxrActive s || (!gap && s.jxr.evtOne) || (hopBroken s false && hopBroken s true) then s
  else
    let s := if gap then { s with jxr := { s.jxr with evtOne := false } } else s
    match s.jxr.queue.findIdx? fun e => gap || e.2.ty = 4 with
    | some i =>
      match s.jxr.queue[i]? with
      | some e => jxrEmit { s with jxr := { s.jxr with queue := s.jxr.queue.eraseIdx i, evtOne := !gap } } e.1 e.2 wait
      | none => s
    | none => if gap then brgSend s else s

/-! ### Forwarding (R342, R344) -/

/-- A unicast frame of this device has come round unclaimed (R342). -/
def jxrReturned (s : State) (b : Bool) (f : RingFrame) : Bool :=
  jxrActive s && f.hop ≠ 2047 && !f.bc && !f.nb && isSet s 0x0B R.JXR.ADDR.VALID &&
    f.dst.toNat ≠ jxrSelf s && f.src.toNat = jxrSelf s && jxrRound s b f.wcnt

/-- A frame that ends with ABORT, fails its CRC or is malformed: the outgoing copy is aborted, its own discarded (R342). -/
def jxrBad (s : State) (b : Bool) : State :=
  if !jxrActive s then s else jxrAbort (setF s 0x0B R.JXR.ERRC.CRC (satInc 65535 (getF s 0x0B R.JXR.ERRC.CRC))) b

/-- A good frame arrives on lane `b`: it is removed or forwarded; `room`: the FIFO can hold it, `res`: its residence (R342, R344). A unicast
frame of a reserved TYPE, 9 to 15, is discarded by its receiver and forwarded (15 Table 4). -/
def jxrForward (s : State) (b : Bool) (f : RingFrame) (room : Bool) (res : Nat) : State :=
  if !jxrActive s then s
  else if f.hop = 2047 then
    jxrAbort (setF s 0x0B R.JXR.ERRC2.TTL (satInc 65535 (getF s 0x0B R.JXR.ERRC2.TTL))) b
  else
    let valid := isSet s 0x0B R.JXR.ADDR.VALID
    let mine := valid && f.src.toNat = jxrSelf s
    let toMe := !f.bc && !f.nb && valid && f.dst.toNat = jxrSelf s && decide (f.ty.toNat < 9)
    let ovf (s : State) : State :=
      if room then s else setF s 0x0B R.JXR.ERRC2.RXOVF (satInc 65535 (getF s 0x0B R.JXR.ERRC2.RXOVF))
    if toMe then
      let s' := ovf s
      if !room && isRequest f.ty.toNat then
        jxrQueue s' false (jxrFrame s' f.src.toNat 3 f.seq.toNat false false (errData 4 (bytesToNat (f.data.take 4))))
      else s'
    else if f.nb then ovf s
    else if mine && jxrRound s b f.wcnt then
      (if f.bc then s else brgEndErr s f.dst.toNat f.seq.toNat 16)
    else jxrPass (if f.bc && decide (f.ty.toNat < 9) then ovf s else s) b f res

/-! ### Responses and retries (R345, R346) -/

/-- RDP of `src` under `seq`. -/
def jxrRdp (s : State) (src seq : Nat) (ws : List Word) : State :=
  match brgMatch s src seq with
  | some o => brgDrained (brgDone (brgRemove s src seq) o.req ws)
  | none => s

/-- The request is resent unchanged, or ends with TIMEOUT and RETRYX (R346); in CONFLICT the attempt counts and nothing is sent (R349). -/
def jxrResend (s : State) (dev seq : Nat) : State :=
  match brgMatch s dev seq with
  | none => s
  | some o =>
    if cfg s 0x0B R.JXR.CFG.RETRY ≤ o.resends then raiseP (brgEndErr s dev seq 17) 0x0B 6
    else
      let s := { s with brg := { s.brg with outst := s.brg.outst.map fun x =>
                   if x.req.dev = dev && x.seq = seq then { x with resends := x.resends + 1 } else x } }
      if s.jxr.conflict then s else jxrQueue s false (brgFrame s o.req seq)

/-- ERR of `src` under `seq`: BUSY is resent, any other code is final (R346, R365). -/
def jxrErr (s : State) (src seq code : Nat) : State := if code = 4 then jxrResend s src seq else brgEndErr s src seq code

/-! ### Semaphores and poison (R368, R373) -/

def brgSemAcq (s : State) (kind : Nat) (v : Word) : State :=
  let i := fget v R.BRG.SEMACQ.S
  let dev := fget v R.BRG.SEMACQ.DEV
  let page := fget v R.BRG.SEMACQ.PAGE
  let named := (List.range 64).any fun j => isSet s 0x0A (R.BRG.SEM.HELD j) && getF s 0x0A (R.BRG.SEM.DEV j) = dev &&
    getF s 0x0A (R.BRG.SEM.PAGE j) = page
  if isSet s 0x0A (R.BRG.SEM.HELD i) || named then s
  else
    wr s 0x0A (0x300 + 4 * i) (BitVec.ofNat 32 (2 ^ 31 + kind * 2 ^ 28 + dev * 2 ^ 18 + page * 2 ^ 10 +
      cfg s 0x0A R.BRG.TIMERS.SEMTO))

def brgSemRel (s : State) (kind i : Nat) : State :=
  if isSet s 0x0A (R.BRG.SEM.HELD i) && getF s 0x0A (R.BRG.SEM.OWNER i) = kind then wr s 0x0A (0x300 + 4 * i) 0 else s

/-- The hold limit of semaphore `i`: freed, logged, SEMTO. -/
def brgSemTimeout (s : State) (i : Nat) : State :=
  if !isSet s 0x0A (R.BRG.SEM.HELD i) then s
  else
    let a := winAddr (getF s 0x0A (R.BRG.SEM.DEV i)) (getF s 0x0A (R.BRG.SEM.PAGE i) * 4096)
    let k := getF s 0x0A (R.BRG.SEM.OWNER i)
    raiseP (brgLog (wr s 0x0A (0x300 + 4 * i) 0) a 32 k false 0 0) 0x0A 4

/-- A write of UNPOISON. -/
def brgUnpoison (s : State) (v : Word) : State :=
  if bitOf v 0 then { s with brg := { s.brg with poison := [] } }
  else
    { s with brg := { s.brg with
        poison := s.brg.poison.filter fun e => e ≠ (fget v R.BRG.UNPOISON.DEV, fget v R.BRG.UNPOISON.PAGE) } }

/-! ### Summaries and rounds (R374 to R380) -/

/-- BRG.WSUM as read, `ks` the active keep-awake sources (16 Table 6). -/
def brgWsum (s : State) (ks : Nat) : Word :=
  let ready := isSet s 0x0B R.JXR.ADDR.VALID && getF s 0x01 R.PMU.IDLECNT.CNT = 0 && ks = 0
  let w := rd s 0x0A 0x100
  let w := fset w R.BRG.WSUM.MODE (modeCode s.mode)
  let w := fset w R.BRG.WSUM.HOLDWHY (getF s 0x03 R.RST.HOLDWHY.WHY)
  let w := fset w R.BRG.WSUM.READY ready.toNat
  let w := fset w R.BRG.WSUM.EXCL (getF s 0x0D R.TBS.STAT.EXCL)
  fset w R.BRG.WSUM.IRQ (ringIrq s).toNat

/-- The device is a manager with workers (R380). -/
def hasWorkers (s : State) : Bool := jxrRole s = 1 && !blockOff s 0x0A && !(ringWorkers s).isEmpty

/-- The WORKER keep-awake source: some worker's last poll shows READY = 0 (R380). -/
def brgKeepAwake (s : State) : Bool :=
  hasWorkers s && (ringWorkers s).any fun d =>
    let w := storeGet seqDefault s.brg.polls d
    w ≠ 0 && !(w - 1).testBit 23

/-- A park round begins: MREQ = PARK to every worker, ascending (16 Table 4, p0). -/
def brgParkStart (s : State) : State :=
  if !hasWorkers s then s
  else
    let ws := ringWorkers s
    let s := setFlag { s with brg := { s.brg with park := ws.map fun d => (d, 0) } } 0x0A R.BRG.STAT.PARKRND true
    ws.foldl (fun s d => brgOwn s d 0x114 2) s

/-- The lowest worker that refuses or is unresolved (16 Table 4, p3′). -/
def brgParkRefuser (s : State) : Option Nat := (s.brg.park.find? fun e => e.2 ≠ 1).map Prod.fst

/-- The round is over. -/
def brgParkEnd (s : State) : State := setFlag { s with brg := { s.brg with park := [] } } 0x0A R.BRG.STAT.PARKRND false

/-- A manager that enters LIMP takes its workers with it (R378). -/
def brgLimp (s : State) : State :=
  if jxrRole s ≠ 1 || blockOff s 0x0A || !cfgOn s 0x0A R.BRG.CFG.LIMPFOL then s
  else
    (ringWorkers s).foldl (fun s d =>
      let w := storeGet seqDefault s.brg.polls d
      let m := (w - 1) / 2 ^ 28 % 8
      if w ≠ 0 && (m = 5 || m = 6) then brgOwn s d 0x114 3 else s) s

def jxrConsist (g : Fld → Nat) : Option Nat :=
  if g R.JXR.PIN.EN ≠ 0 && g R.JXR.ROLE.ROLE ≠ 2 then some 512
  else if g R.JXR.PIN.EN ≠ 0 && g R.JXR.PIN.ADDR = 0 then some 514 else none

def brgConsist (g : Fld → Nat) : Option Nat :=
  if (g R.BRG.CFG.AUTOADM ≠ 0 || g R.BRG.CFG.EPRST ≠ 0) && g R.BRG.SYSEP.SYSEP = 0 then some 512 else none

end Sys2Proof.Machine
end

