-- ==== Sys2Proof/Machine/Bus.lean ====
section
/-! DEFINITION. CAN and LIN controllers and network management (18). -/

namespace Sys2Proof.Machine

def canPage (n : Nat) : Nat := 0x10 + n
def linPage (n : Nat) : Nat := 0x14 + n
def canGet (s : State) (n : Nat) : CanSt := storeGet (fun _ => CanSt.init) s.can n
def canSet (s : State) (n : Nat) (c : CanSt) : State := { s with can := storeSet (fun _ => CanSt.init) s.can n c }
def linGet (s : State) (n : Nat) : LinSt := storeGet (fun _ => LinSt.init) s.lin n
def linSet (s : State) (n : Nat) (c : LinSt) : State := { s with lin := storeSet (fun _ => LinSt.init) s.lin n c }

/-! ### CAN (R404 to R411) -/

def canStateOf (s : State) (n : Nat) : Nat := getF s (canPage n) R.CAN.STAT.STATE

/-- The controller is on its bus: ACTIVE or PASSIVE. -/
def canOnBus (s : State) (n : Nat) : Bool := canStateOf s n = 1 || canStateOf s n = 2

/-- A change of STATE raises the controller's line; BUSOFF and PASSIVE raise their sources (R409, R410). -/
def canSetState (s : State) (n st : Nat) : State :=
  if canStateOf s n = st then s
  else
    let s := raiseLine (setF s (canPage n) R.CAN.STAT.STATE st) (56 + n)
    if st = 3 then raiseP s (canPage n) 0 else if st = 2 then raiseP s (canPage n) 1 else s

/-- Data bytes of a DLC; at most 8 in a classical frame (18 Table 1). -/
def dlcLen (fdf : Bool) (dlc : Nat) : Nat :=
  if dlc ≤ 8 then dlc
  else if !fdf then 8
  else match dlc with | 9 => 12 | 10 => 16 | 11 => 20 | 12 => 24 | 13 => 32 | 14 => 48 | _ => 64

/-- Element accesses of the page reach general SRAM under the committing initiator's rights (R17, R407). -/
def busReach (s : State) (p : Nat) : Bool :=
  let k := storeGet seqDefault s.committer p
  1 ≤ k && k ≤ 4

/-- Bus that NMG uses: 0–3 CAN, 4 RING. -/
def nmgMedium (s : State) : Nat := cfg s 0x0C R.NMG.CFG.MEDIUM

/-- NMG has been enabled (R509, 18 NMG page). -/
def nmgOn (s : State) : Bool := configured s 0x0C && enabled s 0x0C

/-- Controller `n` carries NMG's messages in place of buffer 31 (R421). -/
def canNm (s : State) (n : Nat) : Bool := nmgOn s && nmgMedium s = n

/-- Controller `n` carries IMM's release messages in place of buffer 30 (R443). -/
def canRel (s : State) (n : Nat) : Bool := cfgOn s 0x1A R.IMM.REL.EN && cfg s 0x1A R.IMM.REL.CAN = n

/-- Buffer `b` is an internal one: NMG's or IMM's. -/
def canInternal (s : State) (n b : Nat) : Bool := (b = 31 && canNm s n) || (b = 30 && canRel s n)

/-- A release message is not sent: LOST and RELFAIL (R446). -/
def relFail (s : State) : State :=
  raiseP (setF s 0x1A R.IMM.RSTAT.LOST (satInc 65535 (getF s 0x1A R.IMM.RSTAT.LOST))) 0x1A 4

/-- The oldest release message has ended unsent. -/
def relLost (s : State) : State := relFail { s with imm := { s.imm with rel := s.imm.rel.drop 1 } }

/-- The oldest release message has been sent (R446). -/
def relSent (s : State) : State :=
  let s := setF s 0x1A R.IMM.RSTAT.SENT (satInc 65535 (getF s 0x1A R.IMM.RSTAT.SENT))
  { s with imm := { s.imm with rel := s.imm.rel.drop 1 } }

/-- The oldest release message is in an attempt of its controller. -/
def relOnBus (s : State) : Bool :=
  let n := cfg s 0x1A R.IMM.REL.CAN
  canRel s n && (canGet s n).cur = some 30

/-- The release messages that wait are not sent; one in an attempt stays until its end (R444, R446; notes/assumptions/33). -/
def relDrop (s : State) : State :=
  let keep := if relOnBus s then 1 else 0
  (List.range (s.imm.rel.length - keep)).foldl (fun s _ => relFail s) { s with imm := { s.imm with rel := s.imm.rel.take keep } }

/-- Arbitration field of an element's first word: the lower one wins (R408). -/
def arbKey (w : Nat) : Nat :=
  let id := w % 2 ^ 29
  id / 2 ^ 18 * 2 ^ 19 + w / 2 ^ 31 * 2 ^ 18 + (if w / 2 ^ 31 = 1 then id % 2 ^ 18 else 0)

/-- The NM message at the head of NMG's queue, as an element (R421). -/
def nmElement (s : State) : List Byte :=
  let d := (s.nmg.tx.headD (0, [])).2
  natToBytes 4 ((cfg s 0x0C R.NMG.CANID.BASEID + cfg s 0x0C R.NMG.CFG.NODE) * 2 ^ 18) ++ natToBytes 4 (8 * 65536) ++
    natToBytes 8 0 ++ d ++ List.replicate 56 0

/-- The element of buffer `b`. -/
def canElement (s : State) (n b : Nat) : List Byte :=
  if b = 31 && canNm s n then nmElement s
  else if b = 30 && canRel s n then s.imm.rel.headD []
  else memGetList s.mem (cfg s (canPage n) R.CAN.TXBASE.ADDR + 80 * b) 80

/-- The requested buffers. -/
def canRequested (s : State) (n : Nat) : List Nat :=
  let req := getF s (canPage n) R.CAN.TXREQ.REQ
  (List.range 32).filter fun b =>
    if b = 31 && canNm s n then !s.nmg.tx.isEmpty
    else if b = 30 && canRel s n then !s.imm.rel.isEmpty
    else req.testBit b

/-- The requested buffer whose arbitration field is lowest; a tie goes to the lower number (R408). -/
def canBest (s : State) (n : Nat) : List Nat → Option (Nat × Nat) → Option (Nat × Nat)
  | [], best => best
  | b :: bs, best =>
    let k := arbKey (bytesToNat ((canElement s n b).take 4))
    match best with
    | some (b0, k0) => canBest s n bs (if k < k0 then some (b, k) else some (b0, k0))
    | none => canBest s n bs (some (b, k))

/-- The frame that the controller makes of an element: without MODE.FD a classical one, without MODE.BRS one rate (R412,
notes/assumptions/62). -/
def canShape (s : State) (n : Nat) (el : List Byte) : List Byte :=
  let w := bytesToNat (el.take 4)
  let fdf := w.testBit 30 && cfgOn s (canPage n) R.CAN.MODE.FD
  let brs := fdf && w.testBit 29 && cfgOn s (canPage n) R.CAN.MODE.BRS
  natToBytes 4 (w / 2 ^ 31 * 2 ^ 31 + fdf.toNat * 2 ^ 30 + brs.toNat * 2 ^ 29 + w % 2 ^ 29) ++ el.drop 4

/-- The controller selects and reads a buffer when it is free to transmit (R408). -/
def canSelect (s : State) (n : Nat) : State :=
  let c := canGet s n
  if !canOnBus s n || c.cur.isSome || cfg s (canPage n) R.CAN.MODE.OPM = 1 then s
  else match canBest s n (canRequested s n) none with
    | none => s
    | some (b, _) =>
      if !canInternal s n b && !busReach s (canPage n) then raiseP s (canPage n) 4
      else canSet s n { c with cur := some b, frame := canShape s n (canElement s n b), cancel := false }

/-- TXREQ (R408); the bits of the internal buffers are ignored (R421, R443). -/
def canTxReq (s : State) (n : Nat) (v : Word) : State :=
  let v := (List.range 32).foldl (fun a b => if bitOf v b && !canInternal s n b then a + 2 ^ b else a) 0
  canSelect (setF s (canPage n) R.CAN.TXREQ.REQ (getF s (canPage n) R.CAN.TXREQ.REQ ||| v)) n

/-- A buffer with its TXEV bit completes (R410). -/
def canTxEv (s : State) (n b : Nat) : State :=
  let p := canPage n
  if (cfg s p R.CAN.TXEV.EV).testBit b && !isSet s p R.CAN.EVT.TXEV then
    raiseLine (setFlag s p R.CAN.EVT.TXEV true) (56 + n) else s

/-- A request ends: done or abandoned. -/
def canReqEnd (s : State) (n b : Nat) (done : Bool) : State :=
  let p := canPage n
  let q := getF s p R.CAN.TXREQ.REQ
  let s := setF s p R.CAN.TXREQ.REQ (if q.testBit b then q - 2 ^ b else q)
  let f := if done then R.CAN.TXDONE.DONE else R.CAN.TXABT.ABT
  canTxEv (setF s p f (getF s p f ||| 2 ^ b)) n b

/-- TXCAN (R408). -/
def canTxCan (s : State) (n : Nat) (v : Word) : State :=
  (List.range 32).foldl (fun s b =>
    if !bitOf v b || canInternal s n b || !(getF s (canPage n) R.CAN.TXREQ.REQ).testBit b then s
    else if (canGet s n).cur = some b then canSet s n { canGet s n with cancel := true }
    else canReqEnd s n b false) s

/-- STATE of a controller on its bus, from its error counters (R409). -/
def canErrState (tec rec : Nat) : Nat := if 128 ≤ tec || 128 ≤ rec then 2 else 1

/-- Error counters and STATE after an error or a success (R409). -/
def canCount (s : State) (n tec rec : Nat) : State :=
  let p := canPage n
  let s := setF (setF s p R.CAN.ECNT.TEC (min 255 tec)) p R.CAN.ECNT.REC (min 255 rec)
  if !canOnBus s n then s
  else if 255 < tec then
    let s := canSet (canSetState s n 3) n CanSt.init
    canSetState (if canRel s n then relDrop s else s) n (if cfgOn s p R.CAN.CFG.BOAUTO then 4 else 3)
  else canSetState s n (canErrState tec rec)

/-- The last error code; it becomes non-zero while ACTIVE: LECERR (18 Table 4). -/
def canLec (s : State) (n code : Nat) : State :=
  let p := canPage n
  let was := getF s p R.CAN.LEC.CODE
  let s' := setF s p R.CAN.LEC.CODE code
  if was = 0 && code ≠ 0 && canStateOf s n = 1 then raiseP s' p 5 else s'

/-- A reception error: the receive counter rises by 1 or by 8 (R409). -/
def canRxError (s : State) (n code : Nat) (eight : Bool) : State :=
  if !canOnBus s n then s
  else
    let s := canLec s n code
    canCount s n (getF s (canPage n) R.CAN.ECNT.TEC) (getF s (canPage n) R.CAN.ECNT.REC + if eight then 8 else 1)

/-- A reception without error lowers the receive counter; above 127 it becomes a value from 119 to 127 that ISO 11898-1 leaves to
the controller. -/
def canRxGood (s : State) (n : Nat) : State :=
  let p := canPage n
  let rec' := getF s p R.CAN.ECNT.REC
  let r := if 127 < rec' then let f := freshNat s 9; (f.1, 119 + f.2) else (s, rec' - 1)
  canCount r.1 n (getF s p R.CAN.ECNT.TEC) r.2

/-- The frame matches filter `f` (R406). -/
def canMatches (s : State) (n : Nat) (f : CanFrame) (i : Nat) : Bool :=
  let p := canPage n
  cfgOn s p (R.CAN.FLTA.EN i) && ((f.id.toNat ^^^ cfg s p (R.CAN.FLTA.ID i)) &&& cfg s p (R.CAN.FLTB.MASK i)) = 0 &&
    (!cfgOn s p (R.CAN.FLTB.IDEM i) || f.ide = cfgOn s p (R.CAN.FLTB.IDE i))

/-- The bytes of a receive element; `sof` is TBS at the start of the frame (18 Table 1). -/
def canRxElement (f : CanFrame) (filt sof : Nat) : List Byte :=
  let len := dlcLen f.fdf f.dlc.toNat
  natToBytes 4 (f.ide.toNat * 2 ^ 31 + f.fdf.toNat * 2 ^ 30 + f.brs.toNat * 2 ^ 29 + f.id.toNat) ++
    natToBytes 4 (filt * 2 ^ 24 + f.esi.toNat * 2 ^ 23 + f.dlc.toNat * 2 ^ 16) ++ natToBytes 4 sof ++ natToBytes 4 0 ++
    ((f.data.take len ++ List.replicate 64 0).take 64)

/-- A frame enters the receive FIFO, or is dropped (R407). -/
def canFifo (s : State) (n : Nat) (f : CanFrame) (filt sof : Nat) : State × Bool :=
  let p := canPage n
  let wi := getF s p R.CAN.RXWI.IDX
  if (wi + 256 - getF s p R.CAN.RXRI.IDX) % 256 = 128 then (raiseP (setFlag s p R.CAN.STAT.RXOVF true) p 2, false)
  else if !busReach s p then (raiseP s p 4, false)
  else
    let a := cfg s p R.CAN.RXBASE.ADDR + 80 * (wi % 128)
    (setF { s with mem := memSetList s.mem a (canRxElement f filt sof) } p R.CAN.RXWI.IDX (wi + 1), true)

/-- Filtering of a good frame (R406). -/
def canFilter (s : State) (n : Nat) (f : CanFrame) (sof : Nat) : State :=
  let p := canPage n
  match (List.range 64).find? (canMatches s n f) with
  | none => if cfgOn s p R.CAN.CFG.NOMATCH then (canFifo s n f 255 sof).1 else s
  | some i =>
    let act := cfg s p (R.CAN.FLTA.ACT i)
    if act = 0 then s
    else
      let r := canFifo s n f i sof
      if act = 2 && r.2 && !isSet s p R.CAN.EVT.RXEV then raiseLine (setFlag r.1 p R.CAN.EVT.RXEV true) (56 + n) else r.1

/-- RXRI (R407). -/
def canRxri (s : State) (n : Nat) (v : Word) : State :=
  let p := canPage n
  let i := v.toNat % 256
  if 128 < (getF s p R.CAN.RXWI.IDX + 256 - i) % 256 then werr s p 0x110 else setF s p R.CAN.RXRI.IDX i

/-- CMD.RECOV (R409). -/
def canRecov (s : State) (n : Nat) : State := if canStateOf s n = 3 then canSetState s n 4 else s

/-- A commit of the page has applied: BOAUTO starts the recovery of a controller that waits for it (R409); the buffers are looked at
again (R408). -/
def canApplied (s : State) (n : Nat) : State :=
  if canStateOf s n = 3 && cfgOn s (canPage n) R.CAN.CFG.BOAUTO then canSetState s n 4 else canSelect s n

/-- 128 occurrences of 11 recessive bits have been counted: the counters restart (R409). -/
def canRecovered (s : State) (n : Nat) : State :=
  if canStateOf s n ≠ 4 then s
  else
    let s := setF (setF s (canPage n) R.CAN.ECNT.TEC 0) (canPage n) R.CAN.ECNT.REC 0
    canSelect (canSetState s n 1) n

/-- The page's ENABLE has changed: on the bus with counters of 0 (notes/assumptions/62), or off it at the end of the frame in progress
(18, CAN page; R509); release messages that wait are not sent (R446). -/
def canGate (s : State) (n : Nat) : State :=
  let p := canPage n
  if configured s p && enabled s p then
    (if canStateOf s n = 0 then canSelect (canSetState (setF (setF s p R.CAN.ECNT.TEC 0) p R.CAN.ECNT.REC 0) n 1) n else s)
  else
    let s := if canRel s n then relDrop s else s
    if canStateOf s n = 0 || canStateOf s n = 5 || (canGet s n).cur.isSome then s
    else canSetState s n 0

/-- t2 of Park entry: every pending request is abandoned without TXABT and the controller leaves the bus (R410). -/
def canShut (s : State) (n : Nat) : State :=
  canSetState (canSet (setF s (canPage n) R.CAN.TXREQ.REQ 0) n CanSt.init) n 0

/-- After an attempt the controller selects a buffer, or leaves the bus where its ENABLE is clear. -/
def canNext (s : State) (n : Nat) : State :=
  if configured s (canPage n) && enabled s (canPage n) then canSelect s n else canGate s n

/-! ### LIN (R414 to R418) -/

/-- The configuration that the slot in progress runs under (18, LIN page). -/
def linCfg (s : State) (n : Nat) (f : Fld) : Nat :=
  match (linGet s n).old with
  | some st => fget (storeGet regReset st (rkey (linPage n) f.off)) f
  | none => cfg s (linPage n) f

/-- The node acts: configured, enabled, and not shut down at t2 of Park entry. -/
def linOn (s : State) (n : Nat) : Bool := configured s (linPage n) && enabled s (linPage n) && s.park ≠ .closing
def linState (s : State) (n : Nat) : Nat := getF s (linPage n) R.LIN.STAT.STATE
def linSetState (s : State) (n st : Nat) : State := setF s (linPage n) R.LIN.STAT.STATE st
def linCommander (s : State) (n : Nat) : Bool := linCfg s n R.LIN.MODE.ROLE = 1

/-- The data of the go-to-sleep frame (R416). -/
def linSleepData : List Byte := [0x00, 0xFF, 0xFF, 0xFF, 0xFF, 0xFF, 0xFF, 0xFF]

/-- Protected identifier: the ID with its two parity bits (ISO 17987, R414). -/
def linPid (id : Nat) : Nat :=
  let b (k : Nat) : Bool := id.testBit k
  id % 64 + 64 * (b 0 ^^ b 1 ^^ b 2 ^^ b 4).toNat + 128 * (!(b 1 ^^ b 3 ^^ b 4 ^^ b 5)).toNat

/-- Inverted sum of the data with carry; the enhanced checksum takes the protected identifier in (ISO 17987, R414). -/
def linSum (enhanced : Bool) (id : Nat) (data : List Byte) : Byte :=
  let add (a b : Nat) : Nat := if 255 < a + b then a + b - 255 else a + b
  BitVec.ofNat 8 (255 - data.foldl (fun a b => add a b.toNat) (if enhanced then linPid id else 0))

/-- The checksum of frame `id`: FID.CSUM, which 0x3C to 0x3F ignore; `g` reads the configuration (18 Table 5). -/
def linCheck (g : Fld → Nat) (id : Nat) (data : List Byte) : Byte := linSum (id < 0x3C && g (R.LIN.FID.CSUM id) ≠ 0) id data

/-- STATE = SLEEP of a responder, with EV60 (R417). -/
def linToSleep (s : State) (n : Nat) : State := raiseLine (linSetState s n 3) 60

/-- CMD.SCHED (R416). -/
def linSched (s : State) (n : Nat) : State :=
  if !linCommander s n then werr s (linPage n) 0x10C
  else if !linOn s n then s
  else
    let s := linSet s n { linGet s n with halt := false }
    let s := setF s (linPage n) R.LIN.STAT.SLOT 0
    linSetState s n (if linCfg s n (R.LIN.SCH.EN 0) = 1 then 2 else 1)

/-- CMD.HALT (R416). -/
def linHalt (s : State) (n : Nat) : State := if linState s n = 2 then linSet s n { linGet s n with halt := true } else s

/-- CMD.SLEEP (R416): at the next slot, or at once where no schedule runs. -/
def linSleep (s : State) (n : Nat) : State :=
  if !linOn s n || !linCommander s n then s
  else linSet s n { linGet s n with sleep := if linState s n = 2 then 1 else 2 }

/-- CMD.WAKE: a dominant pulse (R416); a sleeping controller is awake again. -/
def linWake (s : State) (n : Nat) : State :=
  if !linOn s n then s
  else
    let s := linSet s n { linGet s n with pulse := true }
    if linState s n = 3 then linSetState s n 1 else s

/-- A slot's DLY expires (R416): a commit of the past slot takes effect, the schedule goes on, halts or sleeps; where that commit has
cleared slot 0 no slot is left and it ends. -/
def linSlotEnd (s : State) (n : Nat) : State :=
  if linState s n ≠ 2 then s
  else
    let c := linGet s n
    let on := linOn s n
    let s := linSet s n { c with old := none, halt := false, sleep := if !on then 0 else if c.sleep = 1 then 2 else c.sleep }
    if on && c.sleep = 1 then s
    else if c.halt || !on then linSetState s n (if on then 1 else 0)
    else
      let i := getF s (linPage n) R.LIN.STAT.SLOT + 1
      let i := if i ≤ 63 && linCfg s n (R.LIN.SCH.EN i) = 1 then i else 0
      let s := setF s (linPage n) R.LIN.STAT.SLOT i
      if linCfg s n (R.LIN.SCH.EN i) = 1 then s else linSetState s n 1

/-- Result of a frame in which the controller takes part: LAST, LERR, EV60, the fault sources (R415, 18 Table 6). -/
def linResult (s : State) (n id res dir : Nat) : State :=
  let p := linPage n
  let s := setF (setF s p R.LIN.LAST.ID id) p R.LIN.LAST.RES res
  let s := if res = 0 then s else setF (setF s p R.LIN.LERR.ID id) p R.LIN.LERR.RES res
  let s := if 2 ≤ res then raiseP s p 1 else if res = 1 && dir = 2 then raiseP s p 2 else s
  raiseLine s 60

/-- The data that the controller sends in frame `id`: the go-to-sleep data, or FD[id] as it stands at the end of the protected
identifier (R415, R416). -/
def linPublish (s : State) (n id : Nat) (own : Bool) : List Byte :=
  if own then linSleepData
  else
    let w (k : Nat) : List Byte := natToBytes 4 (rd s (linPage n) (0x400 + 8 * id + k)).toNat
    (w 0 ++ w 4).take (linCfg s n (R.LIN.FID.LEN id))

/-- A response without error goes into FD[id] and sets UPD (R415). -/
def linStore (s : State) (n id : Nat) (data : List Byte) : State :=
  let p := linPage n
  let d := (data.take (linCfg s n (R.LIN.FID.LEN id)) ++ List.replicate 8 0).take 8
  let s := wr s p (0x400 + 8 * id) (BitVec.ofNat 32 (bytesToNat (d.take 4)))
  let s := wr s p (0x404 + 8 * id) (BitVec.ofNat 32 (bytesToNat (d.drop 4)))
  let f := R.LIN.UPD.UPD (id / 32)
  setF s p f (getF s p f ||| 2 ^ (id % 32))

/-- A commander's frame is one whose header it sent: the slot in progress, or the go-to-sleep frame `own` (R416). -/
def linHeader (s : State) (n id : Nat) (own : Bool) : Bool :=
  !linCommander s n || own ||
    (linState s n = 2 && (linGet s n).sleep ≠ 2 && id = linCfg s n (R.LIN.SCH.ID (getF s (linPage n) R.LIN.STAT.SLOT)))

/-- A frame on the bus with its result and, where it was received, its data and checksum; a commander's own go-to-sleep frame is one it
publishes (R415 to R417). -/
def linFrame (s : State) (n id res : Nat) (data : List Byte) (csum : Byte) : State :=
  let p := linPage n
  let own := linCommander s n && (linGet s n).sleep = 2 && id = 0x3C
  if !linOn s n || 6 < res || !linHeader s n id own then s
  else
    let s := linSet s n { linGet s n with pulse := false }
    let s := if linState s n = 3 && !linCommander s n then linSetState s n 1 else s
    let dir := if own then 1 else linCfg s n (R.LIN.FID.DIR id)
    let res := if res = 0 && dir ≠ 1 && csum ≠ linCheck (linCfg s n) id data then 2 else res
    let s :=
      if dir = 0 then s
      else if dir = 1 then
        let d := linPublish s n id own
        linResult (linSet s n { linGet s n with sent := d ++ [linCheck (linCfg s n) id d] }) n id res dir
      else linResult (if res = 0 then linStore s n id data else s) n id res dir
    if own then linSetState (linSet s n { linGet s n with sleep := 0, halt := false }) n 3
    else if linCommander s n || id ≠ 0x3C || data ≠ linSleepData || res ≠ 0 then s
    else linToSleep (setFlag s p R.LIN.STAT.SLEEPCMD true) n

/-- A responder that has seen no traffic for 4 s (R417). -/
def linSilence (s : State) (n : Nat) : State :=
  if linOn s n && !linCommander s n && linState s n = 1 then linToSleep s n else s

/-- A wake pulse received in RUN (R417). -/
def linWakePulse (s : State) (n : Nat) : State :=
  if s.mode ≠ .run || !linOn s n then s
  else
    let s := raiseLine (setFlag s (linPage n) R.LIN.STAT.WAKEREQ true) 60
    if linState s n = 3 then linSetState s n 1 else s

/-- The page's ENABLE has changed: the schedule halts at the end of its slot (R509). -/
def linGate (s : State) (n : Nat) : State :=
  if linOn s n then (if linState s n = 0 then linSetState s n 1 else s)
  else if linState s n = 2 then linHalt s n else linSetState s n 0

/-- A commit has applied to a running schedule: the slot in progress keeps the old configuration. -/
def linApplied (old s : State) (n : Nat) : State :=
  if linState s n = 2 && (linGet s n).old.isNone then
    linSet s n { linGet s n with old := some (storeKeep (fun k => k / 1024 = linPage n) old.applied) }
  else s

/-! ### Network management (R421 to R429) -/

def nmgState (s : State) : Nat := getF s 0x0C R.NMG.STAT.STATE
def nmgNode (s : State) : Nat := cfg s 0x0C R.NMG.CFG.NODE

/-- Present nodes as a 256-bit map. -/
def nmgPres (s : State) : Nat := (List.range 8).foldl (fun a w => a + (rd s 0x0C (0x120 + 4 * w)).toNat * 2 ^ (32 * w)) 0

/-- The readiness in force (R423), taken at NM_READINESS_CHANGE and at the start. -/
def nmgReady (s : State) : Bool := isSet s 0x0C R.NMG.STAT.READY

/-- The present nodes replaced: PRES, NPRES and SUCC (R422). -/
def nmgSetPres (s : State) (m : Nat) : State :=
  let s := (List.range 8).foldl (fun s w => wr s 0x0C (0x120 + 4 * w) (BitVec.ofNat 32 (m >>> (32 * w)))) s
  let ids := (List.range 256).filter m.testBit
  let succ := match ids.find? fun i => nmgNode s < i with
    | some i => i
    | none => ids.headD (nmgNode s)
  setF (setF s 0x0C R.NMG.STAT.NPRES ids.length) 0x0C R.NMG.STAT.SUCC succ

/-- A change of STATE raises EV61; SLEEP puts the commanders with NMSLEEP to sleep; LIMPHOME raises LIMPH (R416, R425, R428). -/
def nmgSetState (s : State) (st : Nat) : State :=
  if nmgState s = st then s
  else
    let s := setFlag (setF s 0x0C R.NMG.STAT.STATE st) 0x0C R.NMG.STAT.CONS (st = 5)
    let s := raiseLine s 61
    let s := if st = 3 then raiseP s 0x0C 0 else s
    if st = 5 then
      (List.range 6).foldl (fun s n => if cfgOn s (linPage n) R.LIN.CFG.NMSLEEP then linSleep s n else s) s
    else s

/-- The messages that have not been sent are dropped, one that its controller has selected too (R425). -/
def nmgDrop (s : State) : State :=
  let s := { s with nmg := { s.nmg with tx := [], holds := false, await := false },
                    jxr := { s.jxr with queue := s.jxr.queue.filter fun e => e.2.ty ≠ 6 } }
  let n := nmgMedium s
  if n < 4 && (canGet s n).cur = some 31 then canSelect (canSet s n CanSt.init) n else s

/-- An own message has been sent (R422, R424): ALIVE counts (18 Table 9), the limp-home message of a ready node leads to WBS (R428). -/
def nmgSent (s : State) (kind : Nat) : State :=
  if kind = 0 then setF s 0x0C R.NMG.CNT2.RECONF (satInc 65535 (getF s 0x0C R.NMG.CNT2.RECONF))
  else if kind = 1 then
    let s := { s with nmg := { s.nmg with await := true } }
    if nmgState s = 1 then nmgSetState s 2 else s
  else if kind = 2 then nmgSetState (nmgDrop s) 4
  else if kind = 4 && nmgState s = 3 && nmgReady s then nmgSetState (nmgDrop s) 4
  else s

/-- A message goes to the medium (R421), on the ring only while the causeways are open; a limp-home message that still waits is not
queued twice. -/
def nmgPut (s : State) (kind : Nat) (d : List Byte) : State :=
  if nmgMedium s = 4 then (if jxrActive s then nmgSent (jxrBroadcast s 6 (natToBytes 4 (nmgNode s) ++ d)).1 kind else s)
  else if 3 ≤ kind && s.nmg.tx.any (fun m => m.1 = kind) then s
  else canSelect { s with nmg := { s.nmg with tx := s.nmg.tx ++ [(kind, d)] } } (nmgMedium s)

/-- Data of a message (18 Table 7). -/
def nmgData (s : State) (dest opc ferry : Nat) : List Byte :=
  let opc := if nmgReady s then opc ||| 16 else opc
  natToBytes 1 dest ++ natToBytes 1 opc ++ natToBytes 1 ferry ++ natToBytes 4 (getF s 0x0C R.NMG.UDL.UDATA) ++
    natToBytes 1 (getF s 0x0C R.NMG.UDH.UDATA)

/-- ALIVE (R422). -/
def nmgAlive (s : State) : State := nmgPut s 0 (nmgData s (nmgNode s) 2 0)

/-- A ring message to the successor; `wake` cancels a sleep (R422, R424, R426). -/
def nmgRing (s : State) (wake : Bool) : State :=
  let ferry := if nmgReady s && !wake then min 255 (s.nmg.ferryIn + 1) else 0
  let d := nmgData s (getF s 0x0C R.NMG.STAT.SUCC) (if wake then 65 else 1) ferry
  nmgPut { s with nmg := { s.nmg with holds := false } } 1 d

/-- STARTUP, with ALIVE (R422, R427). -/
def nmgStartup (s : State) : State :=
  nmgAlive (nmgSetState { s with nmg := { s.nmg with holds := false, await := false } } 1)

/-- A sleep is cancelled (R426). -/
def nmgCancel (s : State) : State :=
  let s := setF s 0x0C R.NMG.CNT.CANCEL (satInc 65535 (getF s 0x0C R.NMG.CNT.CANCEL))
  nmgRing (nmgSetState (raiseP s 0x0C 1) 2) true

/-- `x` lies strictly between `a` and `b` in ascending cyclic order (R422). -/
def nmgBetween (a x b : Nat) : Bool :=
  let span := (b + 256 - a) % 256
  let span := if span = 0 then 256 else span
  let d := (x + 256 - a) % 256
  0 < d && d < span

/-- A ring message of `src` (R422, R424). -/
def nmgOnRing (s : State) (src dest ferry : Nat) : State :=
  let s := if nmgState s = 1 then nmgSetState s 2 else s
  if dest = nmgNode s then
    let s := { s with nmg := { s.nmg with ferryIn := ferry } }
    if nmgReady s && getF s 0x0C R.NMG.STAT.NPRES ≤ ferry + 1 then
      let s := setF s 0x0C R.NMG.CNT.ROUNDS (satInc 65535 (getF s 0x0C R.NMG.CNT.ROUNDS))
      nmgPut s 2 (nmgData s (nmgNode s) 48 (min 255 (ferry + 1)))
    else { s with nmg := { s.nmg with holds := true } }
  else if nmgBetween src (nmgNode s) dest then nmgAlive s else s

/-- The medium is bad: the controller PASSIVE or BUSOFF, or JXR not UP (R428). -/
def nmgBad (s : State) : Bool :=
  if nmgMedium s = 4 then getF s 0x0B R.JXR.STAT.RSTATE ≠ 3
  else decide (2 ≤ canStateOf s (nmgMedium s)) && canStateOf s (nmgMedium s) ≠ 5

/-- LIMPHOME where the medium is bad; from LIMPHOME to STARTUP once it is good and another node has been heard (R428). -/
def nmgBusCheck (s : State) : State :=
  let st := nmgState s
  if nmgOn s && (st = 1 || st = 2) && nmgBad s then
    nmgSetState (nmgDrop { s with nmg := { s.nmg with limpHeard := false } }) 3
  else if nmgOn s && st = 3 && s.nmg.limpHeard && !nmgBad s then
    nmgStartup { s with nmg := { s.nmg with limpHeard := false } }
  else s

/-- An NM message of `src` with data `d` (R422 to R428). -/
def nmgReceive (s : State) (src : Nat) (d : List Byte) : State :=
  let st := nmgState s
  let s := { s with nmg := { s.nmg with heard := true } }
  if !nmgOn s || st = 0 || st = 6 || src = nmgNode s then s
  else
    let opc := (d.getD 1 0).toNat
    let s := if src = getF s 0x0C R.NMG.STAT.SUCC then { s with nmg := { s.nmg with await := false } } else s
    let s := nmgSetPres s (nmgPres s ||| 2 ^ (src % 256))
    if st = 5 then nmgStartup s
    else if st = 3 then nmgBusCheck { s with nmg := { s.nmg with limpHeard := true } }
    else
      let s := if st = 4 then nmgSetState s 2 else s
      if opc.testBit 5 then
        (if nmgReady s then nmgSetState (nmgDrop s) 4
         else nmgCancel s)
      else if opc.testBit 0 then nmgOnRing s src (d.getD 0 0).toNat (d.getD 2 0).toNat else s

/-- TTYP after a ring message to this node (R422). -/
def nmgHold (s : State) : State := if nmgState s = 2 && s.nmg.holds then nmgRing s false else s

/-- The successor has been silent for TMAX (R422). -/
def nmgSuccTimeout (s : State) : State :=
  let u := getF s 0x0C R.NMG.STAT.SUCC
  if nmgState s ≠ 2 || !s.nmg.await || u = nmgNode s then s
  else nmgRing (nmgSetPres s (if (nmgPres s).testBit u then nmgPres s - 2 ^ u else nmgPres s)) false

/-- No ring message for 2 × TMAX (R422, RECONF). -/
def nmgRingLoss (s : State) : State :=
  if nmgState s = 2 || nmgState s = 1 then nmgStartup (raiseP (nmgSetPres s (2 ^ nmgNode s)) 0x0C 2) else s

/-- TTYP in STARTUP without a ring message (R422). -/
def nmgStartTimeout (s : State) : State :=
  if nmgState s = 1 && nmgPres s % 2 ^ nmgNode s = 0 then nmgRing { s with nmg := { s.nmg with ferryIn := 0 } } false else s

/-- TWBS after the entry to WBS (R425). -/
def nmgWbsEnd (s : State) : State := if nmgState s = 4 then nmgSetState s 5 else s

/-- The readiness becomes `r` (R423, R426, R427). -/
def nmgReadiness (s : State) (r : Bool) : State :=
  let s := setFlag s 0x0C R.NMG.STAT.READY r
  if !nmgOn s || r then s
  else if nmgState s = 4 then nmgCancel s
  else if nmgState s = 5 then nmgStartup s else s

/-- TERR in LIMPHOME (R428): a limp-home message; that of a ready node leads to WBS once it is sent. -/
def nmgLimpTimer (s : State) : State :=
  if nmgState s ≠ 3 then s else nmgPut s (if nmgReady s then 4 else 3) (nmgData s (nmgNode s) 4 0)

/-- NMG acts only while its medium is up (18, NMG page). -/
def nmgMediumUp (s : State) : Bool :=
  if nmgMedium s = 4 then getF s 0x0B R.JXR.STAT.RSTATE = 3
  else configured s (canPage (nmgMedium s)) && enabled s (canPage (nmgMedium s))

/-- NMG starts, at the end of boot or when it or its medium is enabled (R427): `wake` says that a bus woke the device; `r` is its
readiness. -/
def nmgStart (s : State) (wake r : Bool) : State :=
  let s := setFlag s 0x0C R.NMG.STAT.READY r
  if !nmgOn s || !nmgMediumUp s || nmgState s ≠ 0 then s
  else
    let s := nmgSetPres s (2 ^ nmgNode s)
    if wake || s.nmg.heard || !r then nmgStartup s else nmgSetState s 5

/-- NMG or its medium is off: STATE = OFF (R509). -/
def nmgGate (s : State) : State :=
  let up := if nmgMedium s = 4 then jxrRole s ≠ 0 else nmgMediumUp s
  if (nmgOn s && up) || nmgState s = 6 then s
  else nmgSetState { nmgDrop s with nmg := { NmgSt.init with heard := s.nmg.heard } } 0

/-! ### CAN events that NMG shares -/

/-- A frame free of errors (R406, R421). A controller without MODE.FD takes no part in an FD frame (R412, notes/assumptions/62). -/
def canReceive (s : State) (n : Nat) (f : CanFrame) (sof : Nat) : State :=
  if !canOnBus s n || (f.fdf && !cfgOn s (canPage n) R.CAN.MODE.FD) then s
  else
    let s := canFilter (canRxGood s n) n f sof
    let std := f.id.toNat / 2 ^ 18
    let base := cfg s 0x0C R.NMG.CANID.BASEID
    let nm := canNm s n && !f.ide && !f.fdf && f.dlc = 8 && decide (base ≤ std) && decide (std < base + 256)
    nmgBusCheck (if nm then nmgReceive s (std - base) f.data else s)

/-- The end of a transmission attempt (R408, R409, R421). A release message that has failed is sent again, but with DAR, after a newer
one or in LIMP (R444, R446, notes/assumptions/33). -/
def canTxEnd (s : State) (n : Nat) (e : CanEnd) : State :=
  let c := canGet s n
  match c.cur with
  | none => s
  | some b =>
    let p := canPage n
    let nm := canInternal s n b
    let end_ (s : State) : State :=
      if !nm && (c.cancel || cfgOn s p R.CAN.CFG.DAR) then canReqEnd s n b false
      else if b = 30 && canRel s n &&
          (cfgOn s p R.CAN.CFG.DAR || decide (1 < s.imm.rel.length) || (s.mode ≠ .run && s.mode ≠ .hold)) && !s.imm.rel.isEmpty then relLost s
      else s
    let tec := getF s p R.CAN.ECNT.TEC
    let rec' := getF s p R.CAN.ECNT.REC
    let s := canSet s n CanSt.init
    let s := match e with
      | .sent =>
        let s := canCount s n (tec - 1) rec'
        if b = 30 && canRel s n then relSent s
        else if nm then nmgSent { s with nmg := { s.nmg with tx := s.nmg.tx.drop 1 } } (s.nmg.tx.headD (9, [])).1
        else canReqEnd s n b true
      | .lost => end_ s
      | .failed code free =>
        let uncounted := free && (code = 1 || (code = 3 && canStateOf s n = 2))
        end_ (canCount (canLec s n code.toNat) n (if uncounted then tec else tec + 8) rec')
    nmgBusCheck (canNext s n)

/-! ### Consistency rules -/

/-- Bits of a data phase shorter than `n` BUS clocks. -/
def canBit (g : Fld → Nat) (brp t1 t2 : Fld) : Nat := (g brp + 1) * (1 + g t1 + g t2)

def canConsist (g : Fld → Nat) (n : Nat) : Option Nat :=
  let fd := g R.CAN.MODE.FD ≠ 0
  let nb := canBit g R.CAN.NBT.BRP R.CAN.NBT.TSEG1 R.CAN.NBT.TSEG2
  let db := canBit g R.CAN.DBT.BRP R.CAN.DBT.TSEG1 R.CAN.DBT.TSEG2
  let rx := g R.CAN.RXBASE.ADDR
  let tx := g R.CAN.TXBASE.ADDR
  let out (a len : Nat) : Bool := decide (a < 0x20000000) || decide (0x20200000 < a + len)
  if g R.CAN.MODE.BRS ≠ 0 && !fd then some 512
  else if fd && decide (db < if n < 2 then 16 else 10) then some 512
  else if g R.CAN.MODE.BRS ≠ 0 && db < 80 && g R.CAN.TDC.EN = 0 then some 512
  else if 2 ≤ n && g R.CAN.MODE.SIC ≠ 0 then some 512
  else if g R.CAN.NBT.TSEG2 < g R.CAN.NBT.SJW || nb < 80 then some 513
  else if g R.CAN.DBT.TSEG2 < g R.CAN.DBT.SJW then some 514
  else if rx % 16 ≠ 0 || out rx 10240 || (rx < tx + 2560 && tx < rx + 10240) then some 517
  else if tx % 16 ≠ 0 || out tx 2560 then some 518
  else if 2 ≤ n then
    ((List.range 4).find? fun k => g (R.CAN.WKF.EN k) ≠ 0).map fun k => 704 + 4 * k
  else none

/-- Bit rate of LIN.CFG.BAUD (18 Table 5). -/
def linBaud (c : Nat) : Nat := match c with | 0 => 2400 | 1 => 9600 | 2 => 10417 | 3 => 19200 | _ => 20000

def linConsist (g : Fld → Nat) : Option Nat :=
  if g R.LIN.CFG.NMSLEEP ≠ 0 && g R.LIN.MODE.ROLE = 0 then some 512
  else
    let bad (s : Nat) : Bool :=
      g (R.LIN.SCH.EN s) ≠ 0 &&
        decide (g (R.LIN.SCH.DLY s) * linBaud (g R.LIN.CFG.BAUD) < 1400 * (34 + 10 * (g (R.LIN.FID.LEN (g (R.LIN.SCH.ID s))) + 1)))
    if (List.range 64).any bad then some 513 else none

def nmgConsist (g : Fld → Nat) : Option Nat :=
  if 0x7FF < g R.NMG.CANID.BASEID + 255 then some 513
  else if g R.NMG.TIM.TMAX ≤ g R.NMG.TIM.TTYP || g R.NMG.TIM.TTYP = 0 || g R.NMG.TIM.TERR = 0 then some 514
  else if g R.NMG.TWBS.TWBS = 0 then some 515 else none

end Sys2Proof.Machine
end

