-- ==== Sys2Proof/Machine/Vault.lean ====
section
/-! DEFINITION. The vault: OTP, lifecycle, key tree and key RAM (20, R455 to R466). -/

namespace Sys2Proof.Machine

/-- Exactly `n` bytes: cut, or filled with zeros. -/
def fit (n : Nat) (l : List Byte) : List Byte := (l ++ List.replicate n 0).take n

/-- A message under a key stream, from byte `i` of the stream. -/
def streamXor (f : Nat → Byte) : Nat → List Byte → List Byte
  | _, [] => []
  | i, b :: bs => (b ^^^ f i) :: streamXor f (i + 1) bs

/-! ### The KDF and the wrapping of records (R459) -/

/-- HMAC-SHA-256 (FIPS 198-1), with blocks of 64 bytes. -/
def hmac (key msg : List Byte) : List Byte :=
  let k := fit 64 (if 64 < key.length then Config.sha256 key else key)
  Config.sha256 (k.map (· ^^^ 0x5C) ++ Config.sha256 (k.map (· ^^^ 0x36) ++ msg))

/-- SP 800-108 in counter mode with HMAC-SHA-256: a 32-bit counter before the fixed input Label, 0x00, Context, L32, both numbers most
significant byte first (R459, notes/assumptions/3). -/
def kdf (key label ctx : List Byte) (bits : Nat) : List Byte :=
  let fixed := label ++ [0] ++ ctx ++ (natToBytes 4 bits).reverse
  fit (bits / 8) ((List.range ((bits + 255) / 256)).flatMap fun i => hmac key ((natToBytes 4 (i + 1)).reverse ++ fixed))

/-- A key under a wrap key: AES-256-GCM ciphertext and tag, with the record head as associated data. -/
def keyWrap (w head key : List Byte) : List Byte :=
  let nonce := Config.wrapNonce head
  let ct := streamXor (Config.gcmStream w nonce) 0 key
  ct ++ fit 16 (Config.gcmTag w nonce head ct)

/-- The key of a wrapped record. -/
def keyUnwrap (w head data : List Byte) : List Byte :=
  streamXor (Config.gcmStream w (Config.wrapNonce head)) 0 (data.take (data.length - 16))

/-! ### OTP and lifecycle -/

def otpWord (s : State) (w : Nat) : Nat := (storeGet (fun _ => (0 : Word)) s.vlt.otp w).toNat

/-- Bits of an OTP word set; none is ever cleared (R455). -/
def otpSet (s : State) (w m : Nat) : State :=
  { s with vlt := { s.vlt with otp := storeSet (fun _ => (0 : Word)) s.vlt.otp w (BitVec.ofNat 32 (otpWord s w ||| m)) } }

/-- The bytes of `n` OTP words. -/
def otpBytes (s : State) (w n : Nat) : List Byte := (List.range n).flatMap fun i => natToBytes 4 (otpWord s (w + i))

/-- A flag of three copies reads as set when at least two are 1 (R456). -/
def majority (v a b c : Nat) : Bool := 2 ≤ (v.testBit a).toNat + (v.testBit b).toNat + (v.testBit c).toNat

/-- The lifecycle state that the LCS bits give: the highest state whose bit reads as set (R458). -/
def lcsBits (s : State) : Nat :=
  let v := otpWord s 72
  ((List.range 5).filter fun st => st = 0 || majority v st (8 + st) (16 + st)).getLastD 0

/-- The lowest root copy whose SHA-256 begins with ROOTCHK (R456). -/
def rootCopy (s : State) : Option Nat :=
  (List.range 4).find? fun c => fit 16 (Config.sha256 (otpBytes s (8 * c) 8)) = otpBytes s 56 4

/-- The lifecycle state in force: SCRAPPED where no root copy matches (R456), BLANK before a root is written (R95,
notes/assumptions/31). -/
def lcs (s : State) : Nat := if lcsBits s = 0 then 0 else if (rootCopy s).isNone then 4 else lcsBits s

/-- The root secret: all zeros in BLANK (R95). -/
def rootSecret (s : State) : List Byte :=
  if lcsBits s = 0 then List.replicate 32 0
  else match rootCopy s with
    | some c => otpBytes s (8 * c) 8
    | none => List.replicate 32 0

/-- DBGDIS is blown (R456). -/
def dbgDis (s : State) : Bool := majority (otpWord s 73) 0 1 2

/-- TPINEN is blown. -/
def tpinEn (s : State) : Bool := majority (otpWord s 73) 3 4 5

/-- Number of ones among the 32 bits of a word. -/
def popcount (v : Nat) : Nat := ((List.range 32).filter fun b => v.testBit b).length

/-- Value of rollback counter `c`: how many of its 64 bits are set (R457). -/
def rollGet (s : State) (c : Nat) : Nat := popcount (otpWord s (64 + 2 * c)) + popcount (otpWord s (65 + 2 * c))

/-- UPD.ROLL shows counters 0 and 1 (21 Table 7). -/
def rollShow (s : State) : State := setF (setF s 0x07 R.UPD.ROLL.SET (rollGet s 1)) 0x07 R.UPD.ROLL.FW (rollGet s 0)

/-- Further bits of a counter set, from the lowest clear one, until it has the value (R457). -/
def rollSet (s : State) (c v : Nat) : State :=
  rollShow <| (List.range 64).foldl (fun s b =>
    if rollGet s c < v && !(otpWord s (64 + 2 * c + b / 32)).testBit (b % 32) then otpSet s (64 + 2 * c + b / 32) (2 ^ (b % 32))
    else s) s

/-- The serial of the unit, least significant byte first. -/
def serialBytes : List Byte := natToBytes 8 Config.serial.toNat

/-! ### Key records and keys -/

/-- ASCII names of the domain parents of slots 0 to 4 (R459). -/
def domainName : Nat → List Byte
  | 0 => [0x46, 0x57]
  | 1 => [0x43, 0x4F, 0x4D, 0x4D]
  | 2 => [0x49, 0x4D, 0x4D, 0x4F]
  | 3 => [0x41, 0x54, 0x54, 0x45, 0x53, 0x54]
  | _ => [0x52, 0x49, 0x4E, 0x47]

/-- The derived records that the vault keeps for itself, slots 5, 6, 8 and 9 (20 Table 4); their labels are the slot's number
(notes/assumptions/32). Every other slot is empty. -/
def keyDefault (k : Nat) : KeyRec :=
  let base := { KeyRec.none with held := true, users := 4, data := fit 16 [BitVec.ofNat 8 k] }
  if k = 5 then { base with typ := 2, usage := 3 }
  else if k = 6 then { base with typ := 1, usage := 4 }
  else if k = 8 then { base with typ := 4, parent := 3, usage := 64 }
  else if k = 9 then { base with typ := 1, parent := 2, usage := 48 }
  else KeyRec.none

/-- A substituted slot is held in its spare (R462, R519). -/
def keyPlace (s : State) (k : Nat) : Nat := ((s.spr.keys.find? fun e => e.1 = k).map Prod.snd).getD k

def keyGet (s : State) (k : Nat) : KeyRec := storeGet keyDefault s.vlt.keys k

/-- A record is written, in one step; its working key leaves key RAM (R460, R463). -/
def keySet (s : State) (k : Nat) (r : KeyRec) : State :=
  { s with vlt := { s.vlt with keys := storeSet keyDefault s.vlt.keys k r, kram := storeSet (fun _ => none) s.vlt.kram k none } }

/-- Tamper state: the AON latch or the MRAM record is set (R468). -/
def tamperState (s : State) : Bool := s.vlt.latch || s.vlt.mark

/-- Domain parent `k` has been derived at this boot without a tamper state (R461); SCRAPPED has no key (20 Table 2). -/
def parentUsable (s : State) (k : Nat) : Bool :=
  !tamperState s && !s.vlt.zeroised && !s.vlt.debug && (s.vlt.parents = 2 || (s.vlt.parents = 1 && k = 0)) && lcsBits s ≠ 4

/-- A slot is usable: every ancestor is, and its PGEN is its parent's GEN (R461); `n` bounds the depth. -/
def keyUsableN (s : State) : Nat → Nat → Bool
  | 0, _ => false
  | n + 1, k =>
    if k < 5 then parentUsable s k
    else
      let r := keyGet s k
      r.held && r.pgen = (keyGet s r.parent).gen && keyUsableN s n r.parent

def keyUsable (s : State) (k : Nat) : Bool := keyUsableN s 128 k

/-- The head of a record: associated data of its wrapping (R459). -/
def keyHead (k : Nat) (r : KeyRec) : List Byte :=
  natToBytes 1 k ++ natToBytes 1 r.typ ++ natToBytes 1 r.parent ++ natToBytes 2 r.pgen ++ natToBytes 1 r.usage ++ natToBytes 1 r.users

/-- The value of key `k` (R459); `n` bounds the depth. -/
def keyValueN (s : State) : Nat → Nat → List Byte
  | 0, _ => []
  | n + 1, k =>
    if k < 5 then kdf (rootSecret s) (domainName k) (serialBytes ++ natToBytes 2 (keyGet s k).gen) 256
    else
      let r := keyGet s k
      let par := keyValueN s n r.parent
      if r.imported then
        keyUnwrap (kdf par [0x57, 0x52, 0x41, 0x50] (natToBytes 2 r.pgen) 256) (keyHead k r) r.data
      else if k = 8 then kdf par r.data (otpBytes s 32 8 ++ natToBytes 1 k) 256
      else kdf par r.data (natToBytes 2 r.pgen ++ natToBytes 1 k) (if r.typ = 2 then 512 else 256)

def keyValue (s : State) (k : Nat) : List Byte := keyValueN s 128 k

/-- The service's key for a domain: what packages from it are wrapped under (R459). -/
def provKey (s : State) (d : Nat) : List Byte :=
  kdf (kdf (rootSecret s) [0x50, 0x52, 0x4F, 0x56] serialBytes 256) (domainName d) (natToBytes 2 (keyGet s d).gen) 256

/-- The domain that a slot descends from. -/
def keyDomainN (s : State) : Nat → Nat → Nat
  | 0, k => k
  | n + 1, k => if k < 5 then k else keyDomainN s n (keyGet s k).parent

/-- The shares of working key `k` in key RAM, K ⊕ M and M; none where no key is loaded (R463). -/
def keyShares (s : State) (k : Nat) : Option (Nat × Nat) := storeGet (fun _ => none) s.vlt.kram k

/-- Working key `k` in key RAM. -/
def kramSet (s : State) (k : Nat) (e : Option (Nat × Nat)) : State :=
  { s with vlt := { s.vlt with kram := storeSet (fun _ => none) s.vlt.kram k e } }

/-- Every usable key is in key RAM, a new one under a fresh mask, and no other (R463). -/
def keyLoad (s : State) : State :=
  (List.range 128).foldl (fun s k =>
    match keyUsable s k, keyShares s k with
    | true, none => let r := freshNat s (2 ^ 512); kramSet r.1 k (some (bytesToNat (fit 64 (keyValue s k)) ^^^ r.2, r.2))
    | false, some _ => kramSet s k none
    | _, _ => s) s

/-- A request to the DRBG, which reseeds after every 1,024 (R465). -/
def drbgRequest (s : State) : State :=
  { s with vlt := { s.vlt with drbg := if s.vlt.drbg + 1 < 1024 then s.vlt.drbg + 1 else 0 } }

/-- Fresh DRBG output replaces the mask of every working key; without the DRBG the masks stay (R463, R465). -/
def vltRemask (s : State) : State :=
  if !isSet s 0x06 R.VLT.STAT.RNGOK then s
  else
    (List.range 128).foldl (fun s k =>
      match keyShares s k with
      | none => s
      | some e => let r := freshNat s (2 ^ 512); kramSet r.1 k (some (e.1 ^^^ e.2 ^^^ r.2, r.2))) (drbgRequest s)

/-- VLT.STAT follows the lifecycle and the tamper state. -/
def vltStat (s : State) : State := setFlag (setF s 0x06 R.VLT.STAT.LCS (lcs s)) 0x06 R.VLT.STAT.TAMPER (tamperState s)

/-- `n` random bytes of the DRBG: free values (R465). -/
def randomBytes : Nat → State → State × List Byte
  | 0, s => (s, [])
  | n + 1, s =>
    let r := freshNat s 256
    let t := randomBytes n r.1
    (t.1, BitVec.ofNat 8 r.2 :: t.2)

/-- Keys zeroised: both shares of every working key are overwritten (R463, R468). -/
def vltZeroise (s : State) : State := { s with vlt := { s.vlt with zeroised := true, kram := [], parents := 0 } }

end Sys2Proof.Machine
end

