-- ==== Sys2Proof/Machine/Image.lean ====
section
/-! DEFINITION. Image containers, tokens, MRAM slots and settings generations as they lie in memory (04, R86 to R89; 21, R474 to
R478, R481). -/

namespace Sys2Proof.Machine

def slipBase : Nat := 0x10400000
def setsBase : Nat := 0x10600000

/-- A little-endian number of `n` bytes at address `a`. -/
def memNat (s : State) (a n : Nat) : Nat := bytesToNat (memGetList s.mem a n)

/-- The 4 KB chunks of a byte string; `k` bounds their number. -/
def chunks : Nat → List Byte → List (List Byte)
  | 0, _ => []
  | k + 1, l => if l.isEmpty then [] else l.take 4096 :: chunks k (l.drop 4096)

/-- The elements of a list whose position is `i` modulo 8. -/
def lane (l : List (List Byte)) (i : Nat) : List Byte :=
  (l.zipIdx.filter fun e => e.2 % 8 = i).flatMap Prod.fst

/-- The hash-tree digest of R475: eight lanes of 4 KB chunks, and the SHA-256 of their digests. -/
def treeDigest (l : List Byte) : List Byte :=
  let cs := chunks 512 l
  fit 32 (Config.sha256 ((List.range 8).flatMap fun i => fit 32 (Config.sha256 (lane cs i))))

/-! ### Containers (R474) -/

/-- Base address of the container in the slipway at offset `o`. -/
def ctn (o : Nat) : Nat := slipBase + o

def ctnPlen (s : State) (o : Nat) : Nat := memNat s (ctn o + 0x14) 4
def ctnType (s : State) (o : Nat) : Nat := memNat s (ctn o + 6) 1
def ctnEnc (s : State) (o : Nat) : Bool := memNat s (ctn o + 7) 1 = 1
def ctnVersion (s : State) (a : Nat) : Nat := memNat s (a + 8) 4
def ctnPhash (s : State) (o : Nat) : List Byte := memGetList s.mem (ctn o + 0x90) 32
def ctnPayload (s : State) (o : Nat) : List Byte := memGetList s.mem (ctn o + 0x100) (ctnPlen s o)

/-- Slipway word 0 reads "KIMG" (R481). -/
def slipPending (s : State) : Bool := memNat s slipBase 4 = 0x474D494B

/-- Check 1, FORMAT: the fields that 21 Table 3 names lie within Table 1, and every zero field is zero: AUX but in an OWN token. -/
def ctnFormatOk (s : State) (o : Nat) : Bool :=
  let a := ctn o
  let ty := ctnType s o
  let fl := memNat s (a + 7) 1
  let pl := ctnPlen s o
  let entry := memNat s (a + 0x18) 4
  memNat s a 4 = 0x474D494B && memNat s (a + 4) 2 = 1 && (ty = 1 || ty = 2) && fl < 2 && pl % 16 = 0 && (if ty = 1 then 16 ≤ pl && pl ≤ 2089040 else pl = 32) &&
    o + 0x100 + pl + 7856 ≤ 0x200000 &&
    entry % 2 = 0 && 0x100 ≤ entry && entry ≤ 0xFF + pl && memNat s (a + 0x3C) 4 = 0 && memNat s (a + 0xB0) 80 = 0 &&
    ((ty = 2 && memNat s (a + 0x100) 4 = 2) || memNat s (a + 0x70) 32 = 0) && (fl = 1 || (memNat s (a + 0x30) 12 = 0 && memNat s (a + 0x40) 16 = 0))

/-- Check 3, TARGET: part, revision 0x4201 and serial. -/
def ctnTargetOk (s : State) (a : Nat) : Bool :=
  let ser := memNat s (a + 0x28) 8
  memNat s (a + 0x0E) 2 = 0x7360 && memNat s (a + 0x10) 2 ≤ 0x4201 && 0x4201 ≤ memNat s (a + 0x12) 2 &&
    (ser = 0 || ser = Config.serial.toNat)

/-- Check 4, KEY: the signer and ENC for the lifecycle state; in SCRAPPED no container is accepted (R476). -/
def ctnKeyOk (s : State) (o : Nat) : Bool :=
  let hash := Config.sha256 (memGetList s.mem (ctn o + 0x50) 32)
  let image := ctnType s o = 1
  let l := lcs s
  if l ≤ 1 then hash = Config.randenoHash && !ctnEnc s o
  else l ≤ 3 && hash = otpBytes s 40 8 && ctnEnc s o = image

/-- Check 7, SIGNATURE, over the header. -/
def ctnSigOk (s : State) (o : Nat) : Bool :=
  Config.slhVerify (memGetList s.mem (ctn o + 0x50) 32) (memGetList s.mem (ctn o) 256)
    (memGetList s.mem (ctn o + 0x100 + ctnPlen s o) 7856)

/-- Check 5, ROLLBACK. -/
def ctnRollOk (s : State) (o : Nat) : Bool := rollGet s 0 ≤ memNat s (ctn o + 0x0C) 1

/-- Checks 1 to 7 on the container at slipway offset 0 (21 Table 3), DUP for an image alone (R481): 1 where all pass, else the code of
the first that fails. -/
def ctnCheck (s : State) : Nat :=
  if !ctnFormatOk s 0 then 2
  else if ctnType s 0 = 1 && ctnPhash s 0 = s.upd.insthash then 9
  else if !ctnTargetOk s (ctn 0) then 3
  else if !ctnKeyOk s 0 then 4
  else if !ctnRollOk s 0 then 7
  else if treeDigest (ctnPayload s 0) ≠ ctnPhash s 0 then 5
  else if !ctnSigOk s 0 then 6
  else 1

/-! ### Tokens (R470) -/

/-- Why a token at slipway offset `o` is refused: 0 accepted, 1 signature (with format, key, rollback and digest), 2 serial, 3 type,
4 CLRSEQ (R470, R481, 20 Table 12). -/
def tokenCheck (s : State) (o : Nat) : Nat :=
  let b := ctn o + 0x100
  let ty := memNat s b 4
  if !ctnFormatOk s o || ctnType s o ≠ 2 || !ctnKeyOk s o || !ctnRollOk s o || treeDigest (ctnPayload s o) ≠ ctnPhash s o ||
      !ctnSigOk s o then 1
  else if !ctnTargetOk s (ctn o) || memNat s (b + 4) 8 ≠ Config.serial.toNat then 2
  else if !(ty = 1 || (ty = 2 && lcs s = 1) || (ty = 3 && lcs s = 2) || (ty = 4 && lcs s = 3)) then 3
  else if ty = 2 && memNat s (b + 16) 16 ≠ memNat s (ctn o + 0x70) 16 then 3
  else if ty = 1 && memNat s (b + 12) 4 ≠ s.vlt.clears then 4
  else 0

/-- The lifecycle advance of an accepted token (R458, 20 Table 2): OWN writes OEMHASH, FIELD and SCRAP blow DBGDIS first, SCRAP
writes every ROOT word to ones. -/
def lcsAdvance (s : State) (o : Nat) : State :=
  let ty := memNat s (ctn o + 0x100) 4
  let put (s : State) (st : Nat) : State := otpSet s 72 (2 ^ st + 2 ^ (8 + st) + 2 ^ (16 + st))
  if ty = 2 then
    put ((List.range 8).foldl (fun s i =>
      let w := memNat s (ctn o + 0x70 + 4 * i) 4
      otpSet (otpSet s (40 + i) w) (48 + i) w) s) 2
  else if ty = 3 then put (otpSet s 73 7) 3
  else if ty = 4 then (List.range 32).foldl (fun s i => otpSet s i 0xFFFFFFFF) (put (otpSet s 73 7) 4)
  else s

/-- A lifecycle advance that a loss of power cuts short: from stage 1 on DBGDIS, which FIELD and SCRAP blow first (R458). -/
def lcsUntil (s : State) (o k : Nat) : State :=
  if 3 ≤ memNat s (ctn o + 0x100) 4 && k ≠ 0 then otpSet s 73 7 else s

/-- A refused token leaves its reason in TINFO.CLRRES (R470). -/
def tokenRefused (s : State) (why : Nat) : State := setF s 0x06 R.VLT.TINFO.CLRRES why

/-! ### Slots (R86, R477, R478) -/

def slotBase (x : Nat) : Nat := 0x10000000 + x * 0x200000

/-- The slot record: length, digest and tag at the start of the last 4 KB (notes/assumptions/36). -/
def slotRec (x : Nat) : Nat := slotBase x + 0x1FF000

def slotLen (s : State) (x : Nat) : Nat := memNat s (slotRec x) 4
def slotDigest (s : State) (x : Nat) : List Byte := memGetList s.mem (slotRec x + 4) 32

/-- CMAC over the length and the digest under FW.SLOTMAC (R86). -/
def slotTag (s : State) (len : Nat) (dig : List Byte) : List Byte := fit 16 (Config.cmac (keyValue s 6) (natToBytes 4 len ++ dig))

/-- The record of slot `x` passes R86. -/
def slotRecordOk (s : State) (x : Nat) : Bool :=
  let n := slotLen s x
  n ≠ 0 && n ≤ 0x1FF000 && memGetList s.mem (slotRec x + 36) 16 = slotTag s n (slotDigest s x) &&
    treeDigest (memGetList s.mem (slotBase x) n) = slotDigest s x

/-- A byte of a slot in clear: its 16-byte block deciphered under FW.SLOTXTS (R29). -/
def slotByte (s : State) (x a : Nat) : Byte :=
  let blk := a / 16 * 16
  (Config.xtsDec (keyValue s 5) blk (memGetList s.mem (slotBase x + blk) 16)).getD (a % 16) 0

/-- A number of `n` bytes of a slot in clear. -/
def slotNat (s : State) (x a n : Nat) : Nat := bytesToNat ((List.range n).map fun i => slotByte s x (a + i))

/-- The slot is valid at boot (R478). -/
def slotValid (s : State) (x : Nat) : Bool :=
  slotRecordOk s x && decide (rollGet s 0 ≤ slotNat s x 0x0C 1) && slotNat s x 0x0E 2 = 0x7360 &&
    decide (slotNat s x 0x10 2 ≤ 0x4201) && decide (0x4201 ≤ slotNat s x 0x12 2)

/-- VERA and VERB show the valid slots, at boot, after an installation and as counter 0 rises (R478, 21 Table 7). -/
def updVersions (s : State) : State :=
  let v (x : Nat) : Nat := if slotValid s x then slotNat s x 8 4 else 0
  setF (setF s 0x07 R.UPD.VERA.VER (v 0)) 0x07 R.UPD.VERB.VER (v 1)

/-- The blocks of an image enciphered from offset `o`; `k` bounds their number. -/
def xtsBlocks (key : List Byte) : Nat → Nat → List Byte → List Byte
  | 0, _, _ => []
  | k + 1, o, l => if l.isEmpty then [] else fit 16 (Config.xtsEnc key o (fit 16 (l.take 16))) ++ xtsBlocks key k (o + 16) (l.drop 16)

/-- The payload in clear (R476). -/
def ctnPlain (s : State) (o : Nat) : List Byte :=
  if ctnEnc s o then streamXor (Config.gcmStream (keyValue s 7) (memGetList s.mem (ctn o + 0x30) 12)) 0 (ctnPayload s o)
  else ctnPayload s o

/-- Check 8, TAG. -/
def ctnTagOk (s : State) (o : Nat) : Bool :=
  !ctnEnc s o ||
    fit 16 (Config.gcmTag (keyValue s 7) (memGetList s.mem (ctn o + 0x30) 12) (memGetList s.mem (ctn o) 0x30) (ctnPayload s o)) =
      memGetList s.mem (ctn o + 0x40) 16

/-- Slot `x` without a record (R482). -/
def slotErase (s : State) (x : Nat) : State := { s with mem := memSetList s.mem (slotRec x) (List.replicate 52 0) }

/-- Header and image into slot `x`, at most `n` bytes of them (R482). -/
def slotProgram (s : State) (x n : Nat) : State :=
  let img := memGetList s.mem (ctn 0) 256 ++ ctnPlain s 0
  { s with mem := memSetList s.mem (slotBase x) ((xtsBlocks (keyValue s 5) 131072 0 img).take n) }

def slotWriteRecord (s : State) (x : Nat) : State :=
  let n := 256 + ctnPlen s 0
  let dig := fit 32 (treeDigest (memGetList s.mem (slotBase x) n))
  { s with mem := memSetList s.mem (slotRec x) (natToBytes 4 n ++ dig ++ slotTag s n dig) }

/-- Slipway word 0 cleared. -/
def slipClear (s : State) : State := { s with mem := memSetWord s.mem slipBase 0 }

/-- An accepted CLEAR: latch and record go, the clear count rises, the slipway header is invalid (R470). -/
def tokenClear (s : State) : State :=
  slipClear { s with vlt := { s.vlt with latch := false, mark := false, clears := s.vlt.clears + 1 } }

/-! ### Settings generations (R88, R89) -/

/-- The CRC of directory copy `c` holds (R88). -/
def dirOk (s : State) (c : Nat) : Bool :=
  let a := setsBase + 0x800 * c
  (crc32 (memGetList s.mem a 12)).toNat = memNat s (a + 12) 4 && memNat s (a + 5) 7 = 0 && memNat s (a + 4) 1 ≤ 1

def dirSeq (s : State) (c : Nat) : Nat := memNat s (setsBase + 0x800 * c) 4

/-- The directory copy that names the generation: the valid one with the higher sequence number (R88). -/
def dirCopy (s : State) : Option Nat :=
  match dirOk s 0, dirOk s 1 with
  | true, true => some (if dirSeq s 0 < dirSeq s 1 then 1 else 0)
  | true, false => some 0
  | false, true => some 1
  | false, false => none

/-- The generation that the directory names. -/
def dirGen (s : State) : Option Nat := (dirCopy s).map fun c => memNat s (setsBase + 0x800 * c + 4) 1

/-- The directory copy to be written, the one with the lower sequence number, and its bytes with the next sequence and BOOTGEN `g`
(R487). -/
def dirNext (s : State) (g : Nat) : Nat × List Byte :=
  let c := match dirCopy s with | some c => 1 - c | none => 0
  let q := match dirCopy s with | some c => dirSeq s c + 1 | none => 0
  let body := natToBytes 4 q ++ natToBytes 1 g ++ natToBytes 7 0
  (setsBase + 0x800 * c, body ++ wordBytes (crc32 body))

/-- The directory names generation `g` (R487). -/
def dirWrite (s : State) (g : Nat) : State := { s with mem := memSetList s.mem (dirNext s g).1 (dirNext s g).2 }

/-- The writing of the directory ends after a free part of the copy (R488). -/
def dirTorn (s : State) (g : Nat) : State :=
  let r := freshNat s 16
  { r.1 with mem := memSetList s.mem (dirNext s g).1 ((dirNext s g).2.take r.2) }

/-- Base address of generation `g`. -/
def genBase (g : Nat) : Nat := if g = 0 then 0x10601000 else 0x10680000

def genNrec (s : State) (g : Nat) : Nat := memNat s (genBase g + 6) 2
def genEp (s : State) (g : Nat) : Nat := memNat s (genBase g + 8) 2
def genFlags (s : State) (g : Nat) : Nat := memNat s (genBase g + 0x0A) 2
def genVerlo (s : State) (g : Nat) : Nat := memNat s (genBase g + 0x0C) 4
def genVerhi (s : State) (g : Nat) : Nat := memNat s (genBase g + 0x10) 4
def genReq (s : State) (g p : Nat) : Bool := (memNat s (genBase g + 0x1C + p / 8) 1).testBit (p % 8)
def genManifest (s : State) (g p : Nat) : Nat := memNat s (genBase g + 0x40 + 4 * p) 4

/-- Address of the head of record `k`. -/
def recBase (g k : Nat) : Nat := genBase g + 0x480 + k * 0x810
def recPage (s : State) (g k : Nat) : Nat := memNat s (recBase g k) 1
def recFlags (s : State) (g k : Nat) : Nat := memNat s (recBase g k + 1) 1
def recCrc (s : State) (g k : Nat) : Nat := memNat s (recBase g k + 4) 4
def recImage (s : State) (g k : Nat) : List Byte := memGetList s.mem (recBase g k + 16) 2048

/-- Generation `g` is valid (R89). -/
def genOk (s : State) (g : Nat) : Bool :=
  let a := genBase g
  let n := genNrec s g
  let len := memNat s (a + 0x14) 4
  let pages := (List.range n).map (recPage s g)
  memNat s a 4 = 0x5445534B && memNat s (a + 4) 2 = 1 && decide (1 ≤ n) && decide (n ≤ 148) &&
    memNat s (a + 0x3C) 4 = (crc32 (memGetList s.mem a 0x3C)).toNat && len = 0x440 + n * 0x810 &&
    memNat s (a + 0x18) 4 = (crc32 (memGetList s.mem (a + 0x40) len)).toNat && recPage s g 0 = 0x1D && pages.Nodup &&
    pages.all fun p => p ≠ 0 && p ≠ 5 && p ≠ 6 && (blkOf p).isSome

end Sys2Proof.Machine
end

