-- ==== Sys2Proof/Machine/VltOps.lean ====
section
/-! DEFINITION. The commands of the vault that reach no other block, their results, and what the private path of IMM makes of a command
that runs (20, R459 to R466, R472). -/

namespace Sys2Proof.Machine

/-- What a vault command gives: the state, the result of Table 11, and its output bytes, none where BUF stays. -/
structure VltOut where
  s : State
  res : Nat
  out : Option (List Byte)

/-- The `n` first bytes of BUF. -/
def vltBuf (s : State) (n : Nat) : List Byte :=
  ((List.range 128).flatMap fun w => natToBytes 4 (getF s 0x06 (R.VLT.BUF.DATA w))).take n

/-- Output bytes into BUF, and their number into LEN (R472). -/
def vltPut (s : State) (l : List Byte) : State :=
  let s := (List.range 128).foldl (fun s w =>
    if 4 * w < l.length then setF s 0x06 (R.VLT.BUF.DATA w) (bytesToNat ((l.drop (4 * w)).take 4)) else s) s
  setF s 0x06 R.VLT.LEN.LEN l.length

def vltLen (s : State) : Nat := getF s 0x06 R.VLT.LEN.LEN
def vltArg (s : State) : Nat := getF s 0x06 R.VLT.ARG.ARG

/-- A slot that a command may name: a record that the issuer may use, with the usage bit; else the result (R461, R472, Table 11). -/
def vltSlot (s : State) (kind k usage : Nat) : Nat :=
  let r := keyGet s k
  if k < 20 && kind ≠ 3 then 1
  else if 112 ≤ k || (k < 5 && usage ≠ 4) then 4
  else if 5 ≤ k && !r.held then 4
  else if 5 ≤ k && !(r.users.testBit (kind - 1)) then 1
  else if 5 ≤ k && !(r.usage.testBit usage) then 2
  else if !keyUsable s k then 3 else 0

/-- A slot that a command writes: an application slot (R462). -/
def vltFree (k : Nat) : Bool := decide (20 ≤ k) && decide (k < 112)

/-- INFO: serial, lifecycle, clear count, identity public key, GEN of slots 0 to 4 and 9. -/
def vltInfo (s : State) : VltOut :=
  let pub := if keyUsable s 8 then fit 32 (Config.slhPublic (keyValue s 8)) else List.replicate 32 0
  let gens := [0, 1, 2, 3, 4, 9].flatMap fun k => natToBytes 2 (keyGet s k).gen
  ⟨s, 0, some (serialBytes ++ natToBytes 1 (lcs s) ++ natToBytes 4 s.vlt.clears ++ pub ++ gens)⟩

/-- RANDOM: LEN bytes, 1 to 512. -/
def vltRandom (s : State) : VltOut :=
  let n := vltLen s
  if n = 0 || 512 < n then ⟨s, 11, none⟩
  else if !isSet s 0x06 R.VLT.STAT.RNGOK then ⟨s, 6, none⟩
  else let r := randomBytes n (drbgRequest s); ⟨r.1, 0, some r.2⟩

/-- SEAL: AES-256-GCM of what follows nonce and associated data in BUF. -/
def vltSeal (s : State) (kind k : Nat) : VltOut :=
  let n := vltLen s
  let a := vltArg s
  let e := vltSlot s kind k 0
  if e ≠ 0 then ⟨s, e, none⟩
  else if (keyGet s k).typ ≠ 1 then ⟨s, 2, none⟩
  else if n < 12 + a || 512 < n + 4 - a then ⟨s, 11, none⟩
  else
    let b := vltBuf s n
    let key := keyValue s k
    let ct := streamXor (Config.gcmStream key (b.take 12)) 0 (b.drop (12 + a))
    ⟨s, 0, some (ct ++ fit 16 (Config.gcmTag key (b.take 12) ((b.drop 12).take a) ct))⟩

/-- OPEN: the inverse of SEAL; a tag that fails releases no plaintext. -/
def vltOpen (s : State) (kind k : Nat) : VltOut :=
  let n := vltLen s
  let a := vltArg s
  let e := vltSlot s kind k 1
  if e ≠ 0 then ⟨s, e, none⟩
  else if (keyGet s k).typ ≠ 1 then ⟨s, 2, none⟩
  else if n < 28 + a || 512 < n then ⟨s, 11, none⟩
  else
    let b := vltBuf s n
    let key := keyValue s k
    let ct := (b.drop (12 + a)).take (n - 28 - a)
    if fit 16 (Config.gcmTag key (b.take 12) ((b.drop 12).take a) ct) ≠ b.drop (n - 16) then ⟨s, 7, none⟩
    else ⟨s, 0, some (streamXor (Config.gcmStream key (b.take 12)) 0 ct)⟩

/-- CMAC of BUF, under an AES key. -/
def vltCmac (s : State) (kind k : Nat) : VltOut :=
  let n := vltLen s
  let e := vltSlot s kind k 2
  if e ≠ 0 then ⟨s, e, none⟩
  else if 2 ≤ (keyGet s k).typ then ⟨s, 2, none⟩
  else if 512 < n then ⟨s, 11, none⟩
  else ⟨s, 0, some (fit 16 (Config.cmac (keyValue s k) (vltBuf s n)))⟩

/-- VCMAC: the CMAC of all but the final 16 bytes against those. -/
def vltVcmac (s : State) (kind k : Nat) : VltOut :=
  let n := vltLen s
  let e := vltSlot s kind k 3
  if e ≠ 0 then ⟨s, e, none⟩
  else if 2 ≤ (keyGet s k).typ then ⟨s, 2, none⟩
  else if n < 16 || 512 < n then ⟨s, 11, none⟩
  else
    let b := vltBuf s n
    ⟨s, if fit 16 (Config.cmac (keyValue s k) (b.take (n - 16))) = b.drop (n - 16) then 0 else 7, none⟩

/-- The record that a command replaces lets the issuer name its slot (R472). -/
def vltMayReplace (s : State) (kind k : Nat) : Bool := !(keyGet s k).held || (keyGet s k).users.testBit (kind - 1)

/-- DERIVE: a derived child in an application slot (R459); a derived child is an AES-256 key (notes/assumptions/37). -/
def vltDerive (s : State) (kind k : Nat) : VltOut :=
  let par := vltArg s % 256
  let e := vltSlot s kind par 4
  if !vltFree k then ⟨s, 4, none⟩
  else if !vltMayReplace s kind k then ⟨s, 1, none⟩
  else if par = k || vltLen s ≠ 16 || 128 ≤ vltArg s / 2 ^ 8 % 256 then ⟨s, 11, none⟩
  else if e ≠ 0 then ⟨s, e, none⟩
  else
    ⟨keyLoad (keySet s k { held := true, typ := 1, imported := false, parent := par, pgen := (keyGet s par).gen, gen := 0,
                            usage := vltArg s / 2 ^ 8 % 256, users := vltArg s / 2 ^ 16 % 64, data := vltBuf s 16 }), 0, none⟩

/-- The slots that IMPORT writes: the imported ones of the vault, 7, 10 and 11, and the application's (20 Table 4). -/
def vltTakes (k : Nat) : Bool := k = 7 || k = 10 || k = 11 || vltFree k

/-- The domain parent under which 20 Table 4 names an imported key of the vault. -/
def vltHome (k : Nat) : Option Nat := if k = 7 then some 0 else if k = 10 || k = 11 then some 2 else none

/-- IMPORT: a wrapped record of the provisioning service, held again under its parent's wrap key (R459). Imported keys begin with OWNED
(20 Table 2); slots 0 to 19 are EC3's (R462). -/
def vltImport (s : State) (kind k : Nat) : VltOut :=
  if lcs s ≠ 2 && lcs s ≠ 3 then ⟨s, 9, none⟩
  else if !vltTakes k then ⟨s, 4, none⟩
  else if (k < 20 && kind ≠ 3) || !vltMayReplace s kind k then ⟨s, 1, none⟩
  else if 512 < vltLen s then ⟨s, 11, none⟩
  else match Config.importOpen ((List.range 5).flatMap (provKey s)) (vltBuf s (vltLen s)) with
    | none => ⟨s, 7, none⟩
    | some p =>
      let r := keyGet s p.parent
      if p.parent = k || 128 ≤ p.parent || 4 < p.typ || 128 ≤ p.usage || 64 ≤ p.users || (vltHome k).any (· ≠ p.parent) then ⟨s, 11, none⟩
      else if (p.parent < 20 && kind ≠ 3) || (5 ≤ p.parent && !(r.users.testBit (kind - 1))) then ⟨s, 1, none⟩
      else if 5 ≤ p.parent && !(r.usage.testBit 5) then ⟨s, 2, none⟩
      else if !keyUsable s p.parent then ⟨s, 3, none⟩
      else
        let q := { KeyRec.none with held := true, typ := p.typ, imported := true, parent := p.parent, pgen := r.gen,
                                    usage := p.usage, users := if k < 20 then 4 else p.users }
        let w := kdf (keyValue s p.parent) [0x57, 0x52, 0x41, 0x50] (natToBytes 2 r.gen) 256
        ⟨keyLoad (keySet s k { q with data := keyWrap w (keyHead k q) p.key }), 0, none⟩

/-- DELETE empties an application slot. -/
def vltDelete (s : State) (kind k : Nat) : VltOut :=
  let r := keyGet s k
  if !vltFree k || !r.held then ⟨s, 4, none⟩
  else if !(r.users.testBit (kind - 1)) then ⟨s, 1, none⟩
  else ⟨keyLoad (keySet s k KeyRec.none), 0, none⟩

/-- INVAL: the GEN of a parent rises by one and orphans its children (R461). -/
def vltInval (s : State) (kind k : Nat) : VltOut :=
  let r := keyGet s k
  if !vltFree k || !r.held then ⟨s, 4, none⟩
  else if !(r.users.testBit (kind - 1)) then ⟨s, 1, none⟩
  else if !(r.usage.testBit 4) && !(r.usage.testBit 5) then ⟨s, 2, none⟩
  else if !keyUsable s k then ⟨s, 3, none⟩
  else if r.gen = 0xFFFF then ⟨s, 8, none⟩
  else ⟨keyLoad (keySet s k { r with gen := r.gen + 1 }), 0, none⟩

/-- ATTRD: up to 512 bytes from report offset ARG. -/
def vltAttrd (s : State) : VltOut :=
  if s.vlt.report.isEmpty then ⟨s, 4, none⟩
  else if s.vlt.report.length ≤ vltArg s then ⟨s, 11, none⟩
  else ⟨s, 0, some ((s.vlt.report.drop (vltArg s)).take 512)⟩

/-- ROLLADV (R457): counters 0 and 1 for EC3, 2 and 3 for the application. -/
def vltRolladv (s : State) (kind : Nat) : VltOut :=
  let c := vltArg s % 4
  let v := vltArg s / 256 % 128
  if (c < 2 && kind ≠ 3) || (2 ≤ c && kind ≠ 1) then ⟨s, 1, none⟩
  else if v < rollGet s c || 64 < v then ⟨s, 11, none⟩
  else ⟨updVersions (rollSet s c v), 0, none⟩

/-- The operation names a key slot (20 Table 10). -/
def vltNames (op : Nat) : Bool := decide (0x10 ≤ op) && decide (op < 0x30)

/-- The initiator kinds that may issue an operation (20 Table 10). -/
def vltIssuer (op kind : Nat) : Bool :=
  match op with
  | 0x02 => kind = 1 || kind = 2 || kind = 4
  | 0x20 | 0x21 | 0x22 | 0x23 => kind = 1 || kind = 3
  | 0x30 | 0x40 | 0x41 => kind = 1 || kind = 4
  | 0x60 => kind = 4 || kind = 3
  | _ => true

/-- A command ends: BUSY clears, RESULT is set, LEN counts no output byte, EV63; a refusal raises REFUSE (R472, 20 Tables 12 and 13). -/
def vltFinish (s : State) (res : Nat) : State :=
  let s := setFlag (setF { s with vlt := { s.vlt with cmd := none } } 0x06 R.VLT.STAT.RESULT res) 0x06 R.VLT.STAT.BUSY false
  let s := setF s 0x06 R.VLT.LEN.LEN 0
  let s := if res = 1 || res = 2 || res = 3 then raiseP s 0x06 5 else s
  raiseLine s 63

/-- Slot `k` is slot 9 or descends from it; `n` bounds the depth. -/
def keyUnder9 (s : State) : Nat → Nat → Bool
  | 0, _ => false
  | n + 1, k => k = 9 || (decide (5 ≤ k) && (keyGet s k).held && keyUnder9 s n (keyGet s k).parent)

/-- The command would touch slot 9 or its children (R466): LEARN, and any that names such a slot. -/
def vltTouches9 (s : State) (c : VltCmd) : Bool :=
  let names := vltNames c.op && keyUnder9 s 128 c.slot
  let parent := match c.op with
    | 0x20 => keyUnder9 s 128 (vltArg s % 256)
    | 0x21 => match Config.importOpen ((List.range 5).flatMap (provKey s)) (vltBuf s (vltLen s)) with
      | some p => keyUnder9 s 128 p.parent
      | none => false
    | _ => false
  c.op = 0x30 || names || parent

/-- A command with its result and its output. -/
def vltEnd (r : VltOut) : State :=
  let s := vltFinish r.s r.res
  match r.out with
  | some l => vltPut s l
  | none => s

/-- The issuer may not issue the command, its operands are out of range, or no key is left: its result (R468, R472). -/
def vltBars (s : State) (c : VltCmd) : Option Nat :=
  if tamperState s || s.vlt.zeroised then some 5
  else if !vltIssuer c.op c.kind || !(rightsOf s c.kind 6).testBit 1 then some 1
  else if (vltNames c.op && 128 ≤ c.slot) || 512 < vltLen s then some 11 else none

/-- The operations that reach no other block; an OP outside Table 10 ends with ARG. -/
def vltPlain (s : State) (c : VltCmd) : VltOut :=
  match c.op with
  | 0x01 => vltInfo s
  | 0x02 => vltRandom s
  | 0x10 => vltSeal s c.kind c.slot
  | 0x11 => vltOpen s c.kind c.slot
  | 0x12 => vltCmac s c.kind c.slot
  | 0x13 => vltVcmac s c.kind c.slot
  | 0x20 => vltDerive s c.kind c.slot
  | 0x21 => vltImport s c.kind c.slot
  | 0x22 => vltDelete s c.kind c.slot
  | 0x23 => vltInval s c.kind c.slot
  | 0x41 => vltAttrd s
  | 0x50 => vltRolladv s c.kind
  | _ => ⟨s, 11, none⟩

/-- A command other than ATTEST, LEARN and LCADV that runs, and does not wait for the end of an IMM round. -/
def vltQuick (s : State) : Option VltCmd :=
  s.vlt.cmd.filter fun c => c.op ≠ 0x30 && c.op ≠ 0x40 && c.op ≠ 0x60 && !(s.imm.phase ≠ 0 && vltTouches9 s c)

/-- A request comes on the private path of IMM: ATTEST, LEARN and LCADV are interrupted and go on later, any other command that runs
completes first (R466). -/
def vltFirst (s : State) : State :=
  match vltQuick s with
  | none => s
  | some c => match vltBars s c with
    | some e => vltFinish s e
    | none => vltEnd (vltPlain s c)

end Sys2Proof.Machine
end

