-- ==== Sys2Proof/Machine/Imm.lean ====
section
/-! DEFINITION. The immobiliser: rounds, anticollision, sessions, the session lock, release messages and polling in WATCH; the
antenna drivers (19). -/

namespace Sys2Proof.Machine

/-! ### Token slots -/

/-- Slot `k` holds a valid key record (R433). -/
def immValid (s : State) (k : Nat) : Bool :=
  let r := keyGet s (12 + k)
  r.held && r.parent = 9 && r.pgen = (keyGet s 9).gen

/-- SLOTS, TKID and LGEN show the token set (R433, R434). -/
def immSlots (s : State) : State :=
  let v := (List.range 8).foldl (fun a k => if immValid s k then a + 2 ^ k else a) 0
  let s := setF s 0x1A R.IMM.SLOTS.VALID v
  let s := (List.range 8).foldl (fun s k => setF s 0x1A (R.IMM.TKID.ID k) (s.vlt.tkid.getD k 0)) s
  setF (setF s 0x1A R.IMM.LGEN.LCNT s.vlt.learned) 0x1A R.IMM.LGEN.GEN (keyGet s 9).gen

/-- The slot that an ID names: enabled by `en` and valid (R433). -/
def immSlotOf (s : State) (en id : Nat) : Option Nat :=
  (List.range 8).find? fun k => en.testBit k && immValid s k && getF s 0x1A (R.IMM.TKID.ID k) = id

/-! ### Release messages (R443 to R446) -/

/-- A fresh counter value: before the first message since the entry to BOOT, and at the mark, the mark rises first (R445). -/
def relCounter (s : State) : State × Nat :=
  let v := s.vlt
  let v := if v.relFresh then v else { v with relCnt := v.relMark, relFresh := true, relMark := v.relMark + 65536 }
  let v := if v.relCnt = v.relMark then { v with relMark := v.relMark + 65536 } else v
  ({ s with vlt := { v with relCnt := v.relCnt + 1 } }, v.relCnt)

/-- The release frame as a transmit element (R443, 19 Table 5). -/
def relElement (s : State) (auth : Bool) (cnt : Nat) : List Byte :=
  let id := cfg s 0x1A R.IMM.REL.ID
  let brs := cfg s (canPage (cfg s 0x1A R.IMM.REL.CAN)) R.CAN.MODE.BRS
  let key := keyValue s 11
  let nonce := natToBytes 8 cnt ++ serialBytes.take 4 ++ [1]
  let plain := natToBytes 1 auth.toNat ++ natToBytes 1 (getF s 0x1A R.IMM.STAT.SLOT) ++ natToBytes 2 (keyGet s 9).gen
  let aad := [BitVec.ofNat 8 (id / 256), BitVec.ofNat 8 id]
  natToBytes 4 (2 ^ 30 + brs * 2 ^ 29 + id * 2 ^ 18) ++ natToBytes 4 (11 * 65536) ++ natToBytes 8 0 ++
    natToBytes 8 cnt ++ streamXor (Config.ccmStream key nonce) 0 plain ++ fit 8 (Config.ccmTag key nonce aad plain) ++
    List.replicate 44 0

/-- A message is built and given to its controller, or is not sent: the page is disabled or without FD, the controller in BUSOFF, the key
missing (R443, R446). An older one still waiting is abandoned; one in an attempt goes first (notes/assumptions/33). The vault builds it on
its private path (R466). -/
def relSend (s : State) (auth : Bool) : State :=
  let s := relDrop (vltFirst s)
  let n := cfg s 0x1A R.IMM.REL.CAN
  let r := relCounter s
  let s := setF (setF r.1 0x1A R.IMM.RCNTL.CNT (r.2 % 2 ^ 32)) 0x1A R.IMM.RCNTH.CNT (r.2 / 2 ^ 32)
  if !configured s (canPage n) || !enabled s (canPage n) || canStateOf s n = 3 || !cfgOn s (canPage n) R.CAN.MODE.FD || !keyUsable s 11 then
    relFail s
  else canSelect { s with imm := { s.imm with rel := s.imm.rel ++ [relElement s auth r.2] } } n

/-- The periodic message: while authorised, in RUN, with REL.EN set (R443). -/
def relTick (s : State) : State :=
  if isSet s 0x1A R.IMM.STAT.AUTH && s.mode = .run && cfgOn s 0x1A R.IMM.REL.EN then relSend s true else s

/-! ### The field and the session -/

/-- Field of the session's configuration (19, IMM page). -/
def immCfg (s : State) (f : Fld) : Nat := fget (storeGet regReset s.imm.cfg (rkey 0x1A f.off)) f

/-- No antenna carries a field; the LF domain runs from its reference (R430). -/
def immFieldOff (s : State) : State :=
  let s := setFlag (setF { s with imm := { s.imm with meas := true } } 0x1B R.LFA.STAT.ACT 0) 0x1B R.LFA.STAT.LOCK false
  setFlag (setFlag s 0x02 R.CLK.STAT.LFREF true) 0x02 R.CLK.STAT.LFLOCK false

/-- A field that ends without a reply has been measured too: carrier frequency and antenna current are free (19 Table 10). -/
def immUnheard (s : State) : State :=
  if s.imm.phase = 0 || s.imm.meas then s
  else
    let f := freshNat s (2 ^ 16)
    let c := freshNat f.1 (2 ^ 12)
    setF (setF c.1 0x1B R.LFA.FREQ.FREQ f.2) 0x1B (R.LFA.IMEAS.CODE (s.imm.ants.headD 0)) c.2

/-- Antenna `a` carries the field; the LF clock locks to it (R430). -/
def immFieldOn (s : State) (a : Nat) : State :=
  let s := { s with imm := { s.imm with meas := false } }
  let s := setFlag (setF s 0x1B R.LFA.STAT.ACT (a + 1)) 0x1B R.LFA.STAT.LOCK true
  setFlag (setFlag s 0x02 R.CLK.STAT.LFREF false) 0x02 R.CLK.STAT.LFLOCK true

/-- STAT.SESS: a session runs or a token is authorised (R441). -/
def immSess (s : State) : State :=
  setFlag s 0x1A R.IMM.STAT.SESS (isSet s 0x1A R.IMM.STAT.BUSY || isSet s 0x1A R.IMM.STAT.AUTH)

/-- The result counts as a failed session (R442). -/
def immFails (res : Nat) : Bool := res = 3 || res = 4 || res = 5

/-- FAILS and the lock (R442). -/
def immCount (s : State) (res : Nat) : State :=
  if res = 1 then setF s 0x1A R.IMM.STAT.FAILS 0
  else if !immFails res then s
  else
    let n := min 255 (getF s 0x1A R.IMM.STAT.FAILS + 1)
    let s := setF s 0x1A R.IMM.STAT.FAILS n
    let lim := immCfg s R.IMM.CFG.FLIM
    if lim ≠ 0 && lim ≤ n && !isSet s 0x1A R.IMM.STAT.ALOCK then raiseP (setFlag s 0x1A R.IMM.STAT.ALOCK true) 0x1A 3 else s

/-- The session ends with a result of Table 3 (R440). -/
def immEnd (s : State) (res : Nat) : State :=
  let s := immUnheard s
  let s := immFieldOff { s with imm := { s.imm with phase := 0, ants := [], ids := [], rb := [], addressed := false } }
  let s := setFlag (setF s 0x1A R.IMM.STAT.RESULT res) 0x1A R.IMM.STAT.BUSY false
  let s := if res = 1
    then setF (setFlag s 0x1A R.IMM.STAT.AUTH true) 0x1A R.IMM.STAT.SLOT s.imm.slot else s
  let s := immCount (immSess s) res
  let s := if res = 3 || res = 4 then raiseP s 0x1A 0 else s
  raiseLine s 63

/-- A downlink frame: command byte, payload, CRC-8 over both (R431, 19 Table 2); frames by number: 0 IDREQ, 1 AUTH1, 2 AUTH1S, 3 AUTH2,
4 RDBLK, 5 SLOTREQ. -/
def lfFrame (k : Nat) (payload : List Byte) : List Byte :=
  let f := Config.lfCommand k :: payload
  f ++ [pec f]

/-- The next round, on the next antenna that is fitted and free of a latch or a forced fault; else the session ends with the last result (R440). -/
def immNext : List Nat → Nat → State → State
  | [], res, s => immEnd s res
  | a :: as, _, s =>
    if blockOff s 0x1B || !cfgOn s 0x1B (R.LFA.ANT.EN a) || s.imm.lfaT.testBit a || s.imm.lfaD.testBit a ||
        (getF s 0x1B H.PFORCE &&& 0x1F) ≠ 0 then immNext as 10 s
    else
      immFieldOn { s with imm := { s.imm with phase := 1, ants := a :: as, addressed := false, ids := [], acRes := 0, reqs := 0,
                                              again := false, blk := 0, tx := lfFrame 0 [] } } a

/-- AUTH clears; where it was set, one last message says so, if the mode still allows it (R444). -/
def immDrop (s : State) (msg : Bool) : State :=
  let was := isSet s 0x1A R.IMM.STAT.AUTH
  let s := setFlag s 0x1A R.IMM.STAT.AUTH false
  if was && msg && cfgOn s 0x1A R.IMM.REL.EN && (s.mode = .run || s.mode = .hold) then relSend s false else s

/-- A write of IMM.CMD.START (R440 to R442). -/
def immStart (s : State) : State :=
  if isSet s 0x1A R.IMM.STAT.BUSY || (s.mode ≠ .hold && s.mode ≠ .run) || blockOff s 0x1A then werr s 0x1A 0x100
  else
    let s := { s with imm := { s.imm with cfg := storeKeep (fun k => decide (k / 1024 = 0x1A)) s.applied, slot := 0 } }
    if isSet s 0x1A R.IMM.STAT.ALOCK then immEnd s 8
    else
      let s := setFlag (immDrop s true) 0x1A R.IMM.STAT.BUSY true
      immNext ((List.range 4).filter fun a => (immCfg s R.IMM.CFG.ANT).testBit a) 10 (immSess s)

/-- What clears AUTH; `msg`: the mode still allows one more message, and otherwise none that waits is sent (R441, R444). A session that
runs ends with ABORT. -/
def immClear (s : State) (msg : Bool) : State :=
  let s := immDrop s msg
  let s := if msg then s else relDrop s
  immSess (if isSet s 0x1A R.IMM.STAT.BUSY then immEnd s 9 else s)

/-! ### Antenna drivers (R453) -/

/-- A driver that stops ends its round; the session goes on with the next antenna (19, LFA page). -/
def lfaStop (s : State) (a : Nat) : State :=
  if s.imm.phase ≠ 0 && s.imm.ants.head? = some a then immNext (s.imm.ants.drop 1) 10 (immFieldOff (immUnheard s)) else s

/-- A forced driver fault: the round in progress ends (R55). -/
def lfaForced (s : State) : State := match s.imm.ants.head? with | some a => lfaStop s a | none => s

/-- OPEN, SHORT and NOLOCK (19 Table 11). -/
def lfaFault (s : State) (a : Nat) (f : LfFault) : State :=
  match f with
  | .isOpen => lfaStop (raiseP (setF s 0x1B R.LFA.STAT.OPEN (getF s 0x1B R.LFA.STAT.OPEN ||| 2 ^ a)) 0x1B 0) a
  | .short => lfaStop (raiseP (setF s 0x1B R.LFA.STAT.SHORT (getF s 0x1B R.LFA.STAT.SHORT ||| 2 ^ a)) 0x1B 1) a
  | .noLock => lfaStop (raiseP s 0x1B 2) a
  | .thermal => lfaStop (assertLevel { s with imm := { s.imm with lfaT := s.imm.lfaT ||| 2 ^ a } } (0x1B * 8 + 3)) a

/-- A driver exceeds the die reference by 60 K (R135). -/
def lfaDelta (s : State) (a : Nat) : State :=
  lfaStop (assertLevel { s with imm := { s.imm with lfaD := s.imm.lfaD ||| 2 ^ a } } (0x1B * 8 + 4)) a

/-- The release of a driver's latch: the level source ends with the last of them (R134, R135). -/
def lfaRelease (s : State) (a : Nat) (delta : Bool) : State :=
  let m := if delta then s.imm.lfaD else s.imm.lfaT
  let m := if m.testBit a then m - 2 ^ a else m
  let s := { s with imm := if delta then { s.imm with lfaD := m } else { s.imm with lfaT := m } }
  if m = 0 then releaseLevel s (0x1B * 8 + if delta then 4 else 3) else s

/-! ### Rounds -/

/-- AUTH1 or AUTH1S: the vault draws RB on its private path (R436, R465, R466); refused, the session ends with VAULT. -/
def immAuth1 (s : State) (k : Nat) : State :=
  let s := vltFirst s
  if tamperState s || !isSet s 0x06 R.VLT.STAT.RNGOK || !keyUsable s (12 + k) then immEnd s 7
  else
    let r := randomBytes 8 (drbgRequest s)
    let tx := if s.imm.addressed then lfFrame 2 ((natToBytes 4 (getF s 0x1A (R.IMM.TKID.ID k))).reverse ++ r.2) else lfFrame 1 r.2
    { r.1 with imm := { r.1.imm with phase := 2, slot := k, rb := r.2, tx := tx } }

/-- The slots that SLOTREQ announces (19 Table 8). -/
def acSlots (s : State) : Nat := match immCfg s R.IMM.AC.NSLOT with | 0 => 4 | 1 => 8 | _ => 16

/-- SLOTREQ (R438). -/
def acRequest (s : State) : State :=
  let n := acSlots s
  { s with imm := { s.imm with phase := 5, slotsLeft := n, reqs := s.imm.reqs + 1, again := false, addressed := false,
                               tx := lfFrame 5 [BitVec.ofNat 8 n] } }

/-- After the slots, and after each addressed round: the next ID alone, else SLOTREQ again where slots collided, else the end
(R438). -/
def acNext (s : State) : State :=
  match s.imm.ids with
  | k :: ks => immAuth1 { s with imm := { s.imm with ids := ks, addressed := true } } k
  | [] =>
    if s.imm.again && s.imm.reqs < immCfg s R.IMM.AC.MAXR then acRequest s
    else raiseP (immEnd s (if s.imm.acRes = 0 then 6 else s.imm.acRes)) 0x1A 2

/-- The round ends without an authorisation (R436 to R440). -/
def immFail (s : State) (res : Nat) : State :=
  let s := if res = 5 then
    raiseP (setF s 0x1A R.IMM.CNT.RELAY (satInc 65535 (getF s 0x1A R.IMM.CNT.RELAY))) 0x1A 1 else s
  if s.imm.addressed then acNext { s with imm := { s.imm with acRes := res } }
  else immNext (s.imm.ants.drop 1) res (immFieldOff (immUnheard s))

/-- A collided round (R438). -/
def immCollide (s : State) : State :=
  let s := setF s 0x1A R.IMM.CNT.COLL (satInc 65535 (getF s 0x1A R.IMM.CNT.COLL))
  if s.imm.addressed then immFail s 6 else acRequest s

/-- What every reply leaves: its measured start, the carrier frequency and the antenna current (R437, 19 Table 10). -/
def immMeasure (s : State) (r : LfReply) : State :=
  let s := { s with imm := { s.imm with meas := true } }
  let s := setF (setF s 0x1A R.IMM.TTAM.CYC r.start.toNat) 0x1B R.LFA.FREQ.FREQ r.freq.toNat
  setF s 0x1B (R.LFA.IMEAS.CODE (s.imm.ants.headD 0)) r.peak.toNat

/-- The reply starts within TTA ± 2 cycles (R437). -/
def immInWindow (s : State) (start : Nat) : Bool :=
  let tta := immCfg s R.IMM.CFG.TTA
  decide (tta ≤ start + 2) && decide (start ≤ tta + 2)

/-- What the carrier shows while the token replies: a resonance out of its range, or less than half the set current (R430,
19 Table 11). -/
def lfCarrier (s : State) (a : Nat) (r : LfReply) : Option LfFault :=
  if r.freq.toNat < 11875 || 13125 < r.freq.toNat then some .noLock
  else if 2 * r.peak.toNat < cfg s 0x1B (R.LFA.ANT.IPK a) then some .isOpen
  else none

/-- A reply of the phase awaited, with its bytes: the carrier, relay, collision and CRC come first (R431, R436 to R439), then `f`. -/
def immReply (s : State) (phase : Nat) (r : LfReply) (bytes : List Byte) (f : State → State) : State :=
  let a := s.imm.ants.headD 0
  if s.imm.phase ≠ phase then s
  else
    let s := immMeasure s r
    match lfCarrier s a r with
    | some e => lfaFault s a e
    | none =>
      if !immInWindow s r.start.toNat then immFail s 5
      else if r.coll then immCollide s
      else if r.crc ≠ pec bytes then immFail s 4
      else f s

/-- A slot of anticollision is over (R438). -/
def acSlotEnd (s : State) : State :=
  let n := s.imm.slotsLeft - 1
  let s := { s with imm := { s.imm with slotsLeft := n } }
  if n = 0 then acNext s else s

/-- A 32-bit reply as its bytes, most significant first (R431). -/
def lfIdBytes (id : Nat) : List Byte := (natToBytes 4 id).reverse

/-- An ID in a slot: received cleanly and named, it is authenticated later; a collision lets SLOTREQ be repeated (R438). -/
def acReply (s : State) (r : LfReply) (id : Nat) : State :=
  let a := s.imm.ants.headD 0
  let s := immMeasure s r
  match lfCarrier s a r with
  | some e => lfaFault s a e
  | none =>
    if !immInWindow s r.start.toNat then immFail s 5
    else if r.coll then acSlotEnd { s with imm := { s.imm with again := true } }
    else if r.crc ≠ pec (lfIdBytes id) then acSlotEnd s
    else
      let s := setF s 0x1A R.IMM.TID.ID id
      match immSlotOf s (immCfg s R.IMM.SLEN.EN) id with
      | some k => acSlotEnd (if s.imm.ids.contains k then s else { s with imm := { s.imm with ids := s.imm.ids ++ [k] } })
      | none => acSlotEnd s

/-- An ID reply (R436). -/
def immId (s : State) (r : LfReply) (id : Nat) : State :=
  if s.imm.phase = 5 then acReply s r id
  else immReply s 1 r (lfIdBytes id) fun s =>
    let s := setF s 0x1A R.IMM.TID.ID id
    match immSlotOf s (immCfg s R.IMM.SLEN.EN) id with
    | some k => immAuth1 s k
    | none => immFail s 3

/-- A C1 reply: the vault decrypts it, compares RB and answers C2 (R436), on its private path (R466). -/
def immC1 (s : State) (r : LfReply) (c1 : BitVec 128) : State :=
  immReply s 2 r ((natToBytes 16 c1.toNat).reverse) fun s =>
    let s := vltFirst s
    if tamperState s || !keyUsable s (12 + s.imm.slot) then immEnd s 7
    else
      let key := fit 16 (keyValue s (12 + s.imm.slot))
      let p := fit 16 (Config.aesDec key ((natToBytes 16 c1.toNat).reverse))
      if p.take 8 ≠ s.imm.rb then immFail s 4
      else { s with imm := { s.imm with phase := 3, tx := lfFrame 3 (fit 16 (Config.aesEnc key (p.drop 8 ++ s.imm.rb))) } }

/-- RDBLK of the next block (R436). -/
def immReadBlk (s : State) : State :=
  { s with imm := { s.imm with phase := 4, tx := lfFrame 4 [BitVec.ofNat 8 (immCfg s R.IMM.READ.ADDR + s.imm.blk)] } }

/-- An ACK: the round authorises, unless blocks are read first, whose replies belong to the round (R436, notes/assumptions/34). -/
def immAck (s : State) (r : LfReply) (b : Byte) : State :=
  immReply s 3 r [b] fun s => if immCfg s R.IMM.READ.NBLK = 0 then immEnd s 1 else immReadBlk { s with imm := { s.imm with blk := 0 } }

/-- A token block (R436). -/
def immBlk (s : State) (r : LfReply) (w : Word) : State :=
  immReply s 4 r (lfIdBytes w.toNat) fun s =>
    let s := setF s 0x1A (R.IMM.TMEM.DATA s.imm.blk) w.toNat
    let s := { s with imm := { s.imm with blk := s.imm.blk + 1 } }
    if s.imm.blk < immCfg s R.IMM.READ.NBLK then immReadBlk s else immEnd s 1

/-- No reply has started by TTA + 2: NOTOKEN, or RELAY where one starts later; a token that has named itself and falls silent fails
its authentication (R437, 19 Table 3, notes/assumptions/35). -/
def immExpiry (s : State) (late : Option Byte) : State :=
  if s.imm.phase = 0 then s
  else match late with
    | some c => immFail (setF s 0x1A R.IMM.TTAM.CYC c.toNat) 5
    | none => if s.imm.phase = 5 then acSlotEnd s else immFail s (if s.imm.phase = 1 then 2 else 4)

/-- The 60 s lock ends (R442). -/
def immLockEnd (s : State) : State :=
  if isSet s 0x1A R.IMM.STAT.ALOCK then setF (setFlag s 0x1A R.IMM.STAT.ALOCK false) 0x1A R.IMM.STAT.FAILS 0 else s

/-! ### Polling in WATCH (R447 to R449) -/

/-- The copy into AON at t2 of Park entry (R447). -/
def immPollCopy (s : State) : State :=
  let ants := (List.range 4).filter fun a => (cfg s 0x1A R.IMM.WPOLL.ANT).testBit a
  let en := cfg s 0x1A R.IMM.SLEN.EN
  let ids := ((List.range 8).filter fun k => en.testBit k && immValid s k).map fun k => getF s 0x1A (R.IMM.TKID.ID k)
  { s with imm := { s.imm with
      pollTab := (List.range 8).map fun i => (cfgW s 0x1A (0x840 + 4 * i)).toNat
      pollAnt := ants, pollIpk := ants.map fun a => cfg s 0x1B (R.LFA.ANT.IPK a)
      pollTset := cfg s 0x1A R.IMM.CFG.TSET, pollTta := cfg s 0x1A R.IMM.CFG.TTA, pollIds := ids
      pollOn := cfgOn s 0x1A R.IMM.WPOLL.EN, pollBad := false, step := 0, bursts := 0 } }

/-- Burst period of the step in force, 100 ms units; 0: polling has ended (R448). -/
def immPollPer (s : State) : Nat := if s.imm.pollOn then (s.imm.pollTab.getD s.imm.step 0) % 65536 else 0

/-- The end of a poll step: the next one applies; the first with PER = 0 ends polling (R448). -/
def immStepEnd (s : State) : State :=
  if immPollPer s = 0 || s.imm.pollTab.getD s.imm.step 0 / 65536 = 0xFFFF then s
  else
    let i := s.imm.step + 1
    if i < 8 && (s.imm.pollTab.getD i 0) % 65536 ≠ 0 then { s with imm := { s.imm with step := i } }
    else { s with imm := { s.imm with step := min i 7, pollOn := false } }

/-- A burst: what each antenna of the mask hears; the Bool asks for a wake. The first burst checks the copy (R447, R449). -/
def immBurst (s : State) (copyOk : Bool) (heard : List LfPoll) : State × Bool :=
  if immPollPer s = 0 then (s, false)
  else if s.imm.bursts = 0 && !copyOk then ({ s with imm := { s.imm with pollOn := false, pollBad := true } }, false)
  else
    let wake := (heard.take s.imm.pollAnt.length).any fun h =>
      match h with
      | .none => false
      | .id v => s.imm.pollIds.contains v.toNat
      | .collision => true
    ({ s with imm := { s.imm with bursts := satInc 65535 s.imm.bursts } }, wake)

/-- IMM commit rules (R452). -/
def immConsist (g : Fld → Nat) : Option Nat :=
  let first := ((List.range 8).find? fun i => g (R.IMM.POLL.PER i) = 0).getD 8
  if g R.IMM.CFG.ANT = 0 then some 512
  else if g R.IMM.REL.EN ≠ 0 && (g R.IMM.REL.PER < 20 || 1000 < g R.IMM.REL.PER) then some 514
  else if g R.IMM.WPOLL.EN ≠ 0 && (g R.IMM.WPOLL.ANT = 0 || g (R.IMM.POLL.PER 0) = 0) then some 517
  else ((List.range (first - 1)).find? fun i => g (R.IMM.POLL.UNTIL (i + 1)) ≤ g (R.IMM.POLL.UNTIL i)).map fun i => 528 + i

end Sys2Proof.Machine
end

