-- ==== Sys2Proof/Machine/VltCmd.lean ====
section
/-! DEFINITION. The command interface of the vault: claim, the commands that reach other blocks, completion (20, R472), tamper (R467,
R468). -/

namespace Sys2Proof.Machine

/-- An accepted learning package, in one step (R434): the IMM parent's GEN rises, the entries take slots 0 upwards. -/
def learnApply (s : State) (p : Config.LearnPkg) : State :=
  let g := (keyGet s 9).gen + 1
  let s := immClear s true
  let s := keySet s 9 { keyGet s 9 with gen := g }
  let s := (List.range 8).foldl (fun s i =>
    match p.tokens[i]? with
    | some t =>
      let q := { KeyRec.none with held := true, typ := 0, imported := true, parent := 9, pgen := g, usage := 3, users := 4 }
      let w := kdf (keyValue s 9) [0x57, 0x52, 0x41, 0x50] (natToBytes 2 g) 256
      keySet s (12 + i) { q with data := keyWrap w (keyHead (12 + i) q) t.2 }
    | none => keySet s (12 + i) KeyRec.none) s
  let ids := (List.range 8).map fun i => ((p.tokens[i]?).map Prod.fst).getD 0
  raiseP (immSlots (keyLoad { s with vlt := { s.vlt with learned := p.lcnt, tkid := ids } })) 0x1A 5

/-- LEARN: the package at slipway offset ARG (R434); its keys are imported ones, which begin with OWNED (20 Table 2). -/
def vltLearn (s : State) : VltOut :=
  let a := vltArg s
  if lcs s ≠ 2 && lcs s ≠ 3 then ⟨s, 9, none⟩
  else if 0x200000 ≤ a then ⟨s, 11, none⟩
  else if !keyUsable s 10 || !keyUsable s 9 then ⟨s, 3, none⟩
  else match Config.learnOpen (keyValue s 10) (provKey s 2) (memGetList s.mem (slipBase + a) (0x200000 - a)) with
    | none => ⟨s, 7, none⟩
    | some p =>
      if p.serial ≠ Config.serial || p.lcnt ≤ s.vlt.learned || 0xFFFF < p.lcnt || p.tokens.isEmpty || 8 < p.tokens.length then
        ⟨s, 11, none⟩
      else if (keyGet s 9).gen = 0xFFFF then ⟨s, 8, none⟩
      else ⟨learnApply s p, 0, none⟩

/-- The attestation report (R471, 20 Table 9). -/
def attReport (s : State) (nonce : List Byte) : List Byte :=
  let slot := getF s 0x03 R.RST.BOOT.SLOT
  let flags := slot + 2 * getF s 0x03 R.RST.BOOT.SLOTFB + (if s.upd.state = 1 && s.upd.trial = slot then 4 else 0)
  let epochs := (List.range 256).flatMap fun p => natToBytes 4 (if (blkOf p).isSome then (rd s p 0x010).toNat else 0)
  let body := [0x4B, 0x41, 0x54, 0x54] ++ natToBytes 2 1 ++ natToBytes 1 (lcs s) ++ natToBytes 1 flags ++ serialBytes ++
    fit 16 nonce ++ fit 32 Config.romHash ++ slotDigest s slot ++
    natToBytes 4 (if slot = 0 then getF s 0x07 R.UPD.VERA.VER else getF s 0x07 R.UPD.VERB.VER) ++
    ((List.range 4).flatMap fun c => natToBytes 1 (rollGet s c)) ++ natToBytes 2 (getF s 0x03 R.RST.SETEP.EP) ++
    natToBytes 2 (if jxrRole s = 2 then 0 else cfg s 0x0A R.BRG.SYSEP.SYSEP) ++ natToBytes 4 (getF s 0x01 R.PMU.RTCSEC.SEC) ++
    fit 32 (Config.sha256 epochs) ++ fit 32 (Config.slhPublic (keyValue s 8))
  body ++ fit 17088 (Config.slhSign (keyValue s 8) body)

/-- Why a report is refused: 5 TAMPER, 9 LCS, 3 ORPHAN, 0 it is built (R471); in recovery, BOOT.PHASE 5, always. -/
def attRefused (s : State) : Nat :=
  if tamperState s then 5 else if lcs s = 0 || lcs s = 4 then 9
  else if getF s 0x03 R.RST.BOOT.PHASE = 5 || !keyUsable s 8 then 3 else 0

def vltAttest (s : State) : VltOut :=
  let e := attRefused s
  if vltLen s < 16 then ⟨s, 11, none⟩
  else if e ≠ 0 then ⟨s, e, none⟩
  else ⟨{ s with vlt := { s.vlt with report := attReport s (vltBuf s 16) } }, 0, none⟩

/-- LCADV: the token at slipway offset ARG (R458, R470). An accepted CLEAR clears and counts, and a reset follows (vltResets). -/
def vltLcadv (s : State) : VltOut :=
  let a := vltArg s
  if 0x200000 ≤ a then ⟨s, 11, none⟩
  else
    let e := tokenCheck s a
    if e = 1 then ⟨tokenRefused s 1, 7, none⟩
    else if e = 2 then ⟨tokenRefused s 2, 11, none⟩
    else if e ≠ 0 then ⟨tokenRefused s e, 9, none⟩
    else if memNat s (ctn a + 0x100) 4 = 1 then ⟨vltStat (tokenClear s), 0, none⟩
    else ⟨vltStat (lcsAdvance s a), 0, none⟩

/-- The operation of a command (20 Table 10). -/
def vltRun (s : State) (c : VltCmd) : VltOut :=
  match vltBars s c with
  | some e => ⟨s, e, none⟩
  | none => match c.op with
    | 0x30 => vltLearn s
    | 0x40 => vltAttest s
    | 0x60 => vltLcadv s
    | _ => vltPlain s c

/-- The running command completes; one that would touch slot 9 or its children waits while an IMM round is in progress (R466). -/
def vltComplete (s : State) : State :=
  match s.vlt.cmd with
  | none => s
  | some c =>
    if s.imm.phase ≠ 0 && vltTouches9 s c then s
    else
      vltEnd (vltRun s c)

/-- The running command is an LCADV of a CLEAR token that is accepted, after which the device resets with cause VAULT (R470). -/
def vltResets (s : State) : Bool :=
  match s.vlt.cmd with
  | some c => c.op = 0x60 && (vltBars s c).isNone && decide (vltArg s < 0x200000) && tokenCheck s (vltArg s) = 0 &&
      memNat s (ctn (vltArg s) + 0x100) 4 = 1
  | none => false

/-- A loss of power while an LCADV to FIELD or SCRAPPED runs: whether DBGDIS, which comes first, has been blown is free (R458). -/
def vltTorn (s : State) : State :=
  match s.vlt.cmd with
  | some c =>
    let a := vltArg s
    if c.op = 0x60 && (vltBars s c).isNone && decide (a < 0x200000) && tokenCheck s a = 0 && decide (3 ≤ memNat s (ctn a + 0x100) 4) then
      let r := freshNat s 2
      if r.2 = 1 then otpSet r.1 73 7 else r.1
    else s
  | none => s

/-- A running command aborts and releases no result; an ATTEST leaves ATTSTAT REFUSED (R468, R472). -/
def vltAbort (s : State) : State :=
  match s.vlt.cmd with
  | none => s
  | some c =>
    let s := if c.op = 0x40 then { s with sbp := { s.sbp with attSt := 3 } } else s
    raiseP (vltFinish s 10) 0x06 4

/-- The interface is claimed by another kind: a bus error (R472). -/
def vltClaimed (s : State) (kind : Nat) : Bool :=
  let o := getF s 0x06 R.VLT.STAT.OWNER
  o ≠ 0 && o ≠ kind

/-- A write of VLT.CMD (R472). -/
def vltCommand (s : State) (kind : Nat) (v : Word) : State :=
  if isSet s 0x06 R.VLT.STAT.BUSY then werr s 0x06 0x100
  else
    let s := setF s 0x06 R.VLT.STAT.OWNER kind
    if s.park ≠ .none then vltFinish s 10
    else
      let c : VltCmd := { kind := kind, op := fget v R.VLT.CMD.OP, slot := fget v R.VLT.CMD.SLOT }
      setFlag { s with vlt := { s.vlt with cmd := some c } } 0x06 R.VLT.STAT.BUSY true

/-- A write of VLT.REL by the owner; 100 ms without an access by it (R472). -/
def vltRelease (s : State) : State := setF s 0x06 R.VLT.STAT.OWNER 0

/-- A failed health test of the entropy source (R465). -/
def vltRngFail (s : State) : State := raiseP (setFlag s 0x06 R.VLT.STAT.RNGOK false) 0x06 1

/-- The DRBG is instantiated at every boot (R465). -/
def vltSeed (s : State) : State := setFlag { s with vlt := { s.vlt with drbg := 0 } } 0x06 R.VLT.STAT.RNGOK true

/-- What the vault derives at a boot: 1 the FW parent only, 2 all (R95, R459); the usable keys go into key RAM (R463). -/
def vltUnwrap (s : State) (n : Nat) : State :=
  let s := { s with vlt := { s.vlt with parents := if lcs s = 4 then 0 else n, zeroised := false, kram := [] } }
  keyLoad (vltStat s)

/-- What every tamper event leaves: the latch, TCNT, the source, mode and time; the record follows within 120 µs (R467, R468). -/
def tamperRecord (s : State) (src : Nat) : State :=
  let s := { s with vlt := { s.vlt with latch := true, mark := true, debug := s.vlt.debug || src = 5 } }
  let s := setF s 0x06 R.VLT.TCNT.CNT (satInc 65535 (getF s 0x06 R.VLT.TCNT.CNT))
  let s := setF (setF s 0x06 R.VLT.TINFO.SRC (2 ^ src)) 0x06 R.VLT.TINFO.MODE (modeCode s.mode)
  vltStat (setF s 0x06 R.VLT.TTS.SEC (getF s 0x01 R.PMU.RTCSEC.SEC))

/-- The source is armed: not in OFF; PIN by TPINEN, DEBUG in PROVISIONED and OWNED (R467, 20 Table 6). -/
def tamperArmed (s : State) (src : Nat) : Bool :=
  s.mode ≠ .off && (src ≠ 4 || tpinEn s) && (src ≠ 5 || lcs s = 1 || lcs s = 2) && decide (src < 6)

/-- The response in HOLD, RUN and LIMP: the operation aborts, IMM builds its one last message, every key is zeroised (20 Table 7).
An ATTREQ that runs is REFUSED. -/
def tamperRespond (s : State) : State :=
  let s := immClear (vltAbort s) true
  let s := if s.sbp.attSt = 1 then { s with sbp := { s.sbp with attSt := 3 } } else s
  vltZeroise s

end Sys2Proof.Machine
end

