-- ==== Sys2Proof/Machine/Ext.lean ====
section
/-! DEFINITION. External memory, the journal and the spare manager (23). -/

namespace Sys2Proof.Machine

/-! ### Spares (R519) -/

/-- Spare rows of 256 bytes: 2 % of the 7 MB. -/
def mramSpares : Nat := 28672 * 2 / 100

/-- SPR.STAT.EXH of the kinds that have no spare left (23 Table 5). -/
def sprExh (s : State) : Nat :=
  let x := s.spr
  (decide (2 ^ 72 - 1 ≤ x.segs)).toNat + 2 * (decide (mramSpares ≤ x.rows.length)).toNat + 8 * x.slice.isSome.toNat +
    16 * x.rc.isSome.toNat + 64 * (decide (16 ≤ x.keys.length)).toNat + 128 * (decide (32 ≤ x.otp.length)).toNat

/-- SPR.STAT, AVAIL and SEGUSE follow the maps. -/
def sprShow (s : State) : State :=
  let s := setF s 0x9A R.SPR.STAT.EXH (getF s 0x9A R.SPR.STAT.EXH ||| sprExh s)
  let s := setF s 0x9A R.SPR.AVAIL.MROWS (mramSpares - s.spr.rows.length)
  let s := setF s 0x9A R.SPR.AVAIL.KEYS (16 - s.spr.keys.length)
  (List.range 3).foldl (fun s w => setF s 0x9A (R.SPR.SEGUSE.USE w) (s.spr.segs >>> (32 * w) % 2 ^ 32)) s

/-- The spare segment of channel `n` comes into use in place of the failed ones, which the record names (R115, R519). -/
def sprSegment (s : State) (n : Nat) : State :=
  if blockOff s 0x9A then sprDisabled s 0 n else
  let bad := storeSet (fun _ => 0) s.spr.segBad n (getF s (0x20 + n) R.HSC.SEG.FAILED)
  sprLog (sprShow { s with spr := { s.spr with segs := s.spr.segs ||| 2 ^ n, segBad := bad } }) 0 n

/-- The spare segment of channel `n` stands in for the segments that the record names (R115). -/
def segPlace (s : State) (n : Nat) : State :=
  let a := getF s (0x20 + n) R.HSC.SEG.ACTIVE
  setF s (0x20 + n) R.HSC.SEG.ACTIVE ((a ^^^ (a &&& storeGet (fun _ => 0) s.spr.segBad n)) ||| 0x100)

/-- An MRAM row is copied and replaced between two accesses: after MRTH corrected reads since boot, of which there have been `reads`, or,
`lost`, after an uncorrectable one, when it carries the data as read, which are free; a spare that fails in turn takes the next one
(R519, R520). -/
def sprRow (s : State) (row : Nat) (lost : Bool) (reads : Nat) : State :=
  if !lost && decide (reads < cfg s 0x9A R.SPR.CFG.MRTH) then s
  else if blockOff s 0x9A then sprDisabled s 1 row
  else if mramSpares ≤ s.spr.rows.length then sprExhaust s 1
  else
    let s := sprLog (sprShow { s with spr := { s.spr with rows := row :: s.spr.rows } }) 1 row
    if !lost then s
    else
      let r := randomBytes 256 s
      raiseP { r.1 with mem := memSetList r.1.mem (0x10000000 + 256 * row) r.2 } 0x9A 3

/-- Slot `k` is slot `j` or an ancestor of it; `n` bounds the depth. -/
def keyAbove (s : State) (k : Nat) : Nat → Nat → Bool
  | 0, _ => false
  | n + 1, j => k = j || (decide (5 ≤ j) && (keyGet s j).held && keyAbove s k n (keyGet s j).parent)

/-- The slots that the running vault command and the IMM round name (R462): of DERIVE its parent too, of IMPORT the parent in its record,
of LEARN the token set, the IMM parent and the dealer key, of ATTEST the identity key. -/
def keysNamed (s : State) : List Nat :=
  let cmd := match s.vlt.cmd with
    | some c =>
      match c.op with
      | 0x20 => [c.slot, vltArg s % 256]
      | 0x21 => c.slot :: (match Config.importOpen ((List.range 5).flatMap (provKey s)) (vltBuf s (vltLen s)) with
          | some p => [p.parent]
          | none => [])
      | 0x30 => [9, 10] ++ (List.range 8).map (· + 12)
      | 0x40 => [8]
      | _ => if vltNames c.op then [c.slot] else []
    | none => []
  let att := if s.sbp.attSt = 1 then [8] else []
  let imm := if s.imm.phase = 0 then [] else (List.range 8).map (· + 12)
  cmd ++ att ++ imm

/-- A spare key slot replaces a slot whose record fails ECC, while no operation uses it or a descendant of it; a spare that fails in turn
gives way to the next one (R462, R519). -/
def sprKey (s : State) (k : Nat) : State :=
  if (keysNamed s).any (keyAbove s k 128) then s
  else if blockOff s 0x9A then sprDisabled s 6 k
  else if 16 ≤ s.spr.keys.length then raiseP (sprExhaust s 6) 0x06 2
  else sprLog (sprShow { s with spr := { s.spr with keys := (k, 112 + s.spr.keys.length) :: s.spr.keys } }) 6 k

/-- An OTP word found uncorrectable at boot: its data are free (R455). -/
def sprOtp (s : State) (w : Nat) : State :=
  if s.spr.otp.contains w then s
  else
    let r := freshNat s (2 ^ 32)
    let s := raiseP { r.1 with vlt := { r.1.vlt with otp := storeSet (fun _ => (0 : Word)) r.1.vlt.otp w (BitVec.ofNat 32 r.2) } } 0x06 3
    if 32 ≤ s.spr.otp.length then sprExhaust s 7
    else sprLog (sprShow { s with spr := { s.spr with otp := s.spr.otp ++ [w] } }) 7 w

/-- The spare ADC slice replaces slice `k` at the next schedule boundary (R147). -/
def sprSlice (s : State) (k : Nat) : State :=
  if blockOff s 0x9A then sprDisabled s 3 k else sprLog (sprShow { s with spr := { s.spr with slice := some k } }) 3 k

/-- The spare RC replaces RC `k` (R520). -/
def sprRc (s : State) (k : Nat) : State :=
  if blockOff s 0x9A then sprDisabled s 4 k else sprLog (sprShow { s with spr := { s.spr with rc := some k } }) 4 k

/-! ### The xSPI port (R510 to R514) -/

def xspNand (s : State) (k : Nat) : Bool := cfgOn s 0x98 (R.XSP.CS.TYPE k)

/-- Page and erase unit in bytes. -/
def xspPage (s : State) (k : Nat) : Nat := if xspNand s k then 2 ^ (8 + cfg s 0x98 (R.XSP.GEO.PAGE k)) else 256
def xspUnit (s : State) (k : Nat) : Nat := 2 ^ (8 + cfg s 0x98 (R.XSP.GEO.PAGE k) + cfg s 0x98 (R.XSP.GEO.BLK k))

/-- Physical blocks, and the spare pool of a NAND (R513). -/
def xspBlocks (s : State) (k : Nat) : Nat := 2 ^ cfg s 0x98 (R.XSP.CS.SIZE k) / xspUnit s k
def xspPool (s : State) (k : Nat) : Nat := if xspNand s k then xspBlocks s k * 3 / 100 else 0

/-- Logical size of a chip-select (R511). -/
def xspSize (s : State) (k : Nat) : Nat :=
  if !cfgOn s 0x98 (R.XSP.CS.EN k) then 0
  else if xspNand s k then (xspBlocks s k - xspPool s k) * xspUnit s k
  else 2 ^ cfg s 0x98 (R.XSP.CS.SIZE k)

/-- Chip-select and offset of an external address; none: outside of the enabled ones (R511). -/
def xspAt (s : State) (a : Nat) : Option (Nat × Nat) :=
  if a < xspSize s 0 then some (0, a)
  else if a < xspSize s 0 + xspSize s 1 then some (1, a - xspSize s 0) else none

/-- The same where it can be read; none: XSP is disabled or not ready too (R509, R511). -/
def xspCs (s : State) (a : Nat) : Option (Nat × Nat) :=
  if blockOff s 0x98 || !running s then none else xspAt s a

/-- External address of the first byte of a chip-select. -/
def xspBase (s : State) (k : Nat) : Nat := if k = 0 then 0 else xspSize s 0

/-- The bank recorded for an initiator's read in progress, 0 where none is. -/
def winHeld (s : State) (k : Nat) : Nat := storeGet seqDefault s.winBank k

/-- Record `b` for an initiator's read in progress; 0 ends it. -/
def winSet (s : State) (k b : Nat) : State := { s with winBank := storeSet seqDefault s.winBank k b }

/-- The bank of a window access: the one under which a read still in progress was issued, else XSP.BANK (R30). -/
def winBankOf (s : State) (k : Nat) : Nat := if winHeld s k = 0 then getF s 0x98 R.XSP.BANK.BANK else winHeld s k - 1

/-- The chip-select is programming or erasing (R512). -/
def xspBusy (s : State) (k : Nat) : Bool := (getF s 0x98 R.XSP.STAT.BUSY).testBit k

/-- Bytes of external memory. -/
def extRead (s : State) (a n : Nat) : List Byte := memGetList s.mem (extBase + a) n
def extWrite (s : State) (a : Nat) (l : List Byte) : State := { s with mem := memSetList s.mem (extBase + a) l }

/-- A program clears bits of erased cells: the bytes that a page then holds (notes/assumptions/38). -/
def extProgram (s : State) (a : Nat) (l : List Byte) : State :=
  extWrite s a ((l.zip (extRead s a l.length)).map fun e => e.1 &&& e.2)

/-- A NAND chip-select has no spare block left. -/
def xspNoSpare (s : State) (k : Nat) : Bool :=
  cfgOn s 0x98 (R.XSP.CS.EN k) && xspNand s k && decide (xspPool s k ≤ s.xsp.used.getD k 0)

/-- SPLEFT and READY of the chip-selects, and EXH of the NAND blocks. -/
def xspShow (s : State) : State :=
  let s := if xspNoSpare s 0 || xspNoSpare s 1 then setF s 0x9A R.SPR.STAT.EXH (getF s 0x9A R.SPR.STAT.EXH ||| 4) else s
  let s := (List.range 2).foldl (fun s k => setF s 0x98 (R.XSP.SPLEFT.N k) (xspPool s k - s.xsp.used.getD k 0)) s
  setF s 0x98 R.XSP.STAT.READY ((cfgOn s 0x98 (R.XSP.CS.EN 0)).toNat + 2 * (cfgOn s 0x98 (R.XSP.CS.EN 1)).toNat)

/-- Chip-select `k` begins, or ends, a program or an erase (R512). -/
def xspSetBusy (s : State) (k : Nat) : State := setF s 0x98 R.XSP.STAT.BUSY (getF s 0x98 R.XSP.STAT.BUSY ||| 2 ^ k)
def xspClearBusy (s : State) (k : Nat) : State :=
  let busy := getF s 0x98 R.XSP.STAT.BUSY
  setF s 0x98 R.XSP.STAT.BUSY (if busy.testBit k then busy - 2 ^ k else busy)

/-- A write of XSP.CMD; none: a bus error, XSP is disabled (R512, R509). A command given while an operation of JRN runs begins after it. -/
def xspCommand (s : State) (v : Word) : Option State :=
  let k := fget v R.XSP.CMD.CS
  let op := fget v R.XSP.CMD.OP
  let a := getF s 0x98 R.XSP.CADDR.ADDR
  let b := getF s 0x98 R.XSP.CBUF.ADDR
  let base := xspBase s k
  if blockOff s 0x98 then none
  else if s.xsp.cmd.isSome then some (werr s 0x98 0x108)
  else if op = 0 then some s
  else if 2 ≤ k || xspSize s k = 0 || (op ≠ 3 && (a < base || base + xspSize s k ≤ a)) ||
      (op = 1 && (b < 0x20000000 || 0x20200000 < b + xspPage s k)) then some (setF s 0x98 R.XSP.CRES.RES 2)
  else if (op = 1 && ((a - base) % xspPage s k ≠ 0 || b % 4 ≠ 0)) || (op = 2 && (a - base) % xspUnit s k ≠ 0) then
    some (setF s 0x98 R.XSP.CRES.RES 1)
  else
    let s := setF s 0x98 R.XSP.CRES.RES 6
    let s := if s.jrn.op.isSome then s else xspSetBusy s k
    some { s with xsp := { s.xsp with cmd := some (op, k), addr := a, buf := b } }

/-- Block `b` of chip-select `k` is mapped to the next spare; none where no spare is left (R513). -/
def xspRemap (s : State) (k b : Nat) : Option State :=
  let u := s.xsp.used.getD k 0
  if xspPool s k ≤ u || blockOff s 0x9A then none
  else
    let x := { s.xsp with map := storeSet seqDefault s.xsp.map (2 ^ 20 * k + b) (u + 1), used := s.xsp.used.set k (u + 1) }
    some (sprLog (xspShow { s with xsp := x }) 2 (2 ^ 20 * k + b))

/-- What a program or an erase leaves in the memory. -/
def xspEffect (s : State) (op k a b : Nat) : State :=
  if op = 1 then extProgram s a (memGetList s.mem b (xspPage s k))
  else extWrite s a (List.replicate (xspUnit s k) 0xFF)

/-- What a program (1) or an erase (2) that failed for good leaves: free bytes. -/
def xspSpoil (s : State) (op k a : Nat) : State :=
  let r := randomBytes (if op = 1 then xspPage s k else xspUnit s k) s
  extWrite r.1 a r.2

/-- A failed block has no spare: NOSPARE; with SPR disabled none may be used (R509, R513, R519). -/
def xspSpareless (s : State) (k b : Nat) : State :=
  raiseP (if blockOff s 0x9A then sprDisabled s 2 (2 ^ 20 * k + b) else sprExhaust s 2) 0x98 2

/-- FORMAT: each factory-bad logical block that has no spare yet is mapped to one, whose bytes are free (R513). -/
def xspFormat (s : State) (k : Nat) : List Nat → State × Nat
  | [] => (s, 0)
  | b :: bs =>
    if storeGet seqDefault s.xsp.map (2 ^ 20 * k + b) ≠ 0 then xspFormat s k bs
    else match xspRemap s k b with
      | some s => xspFormat (xspSpoil s 2 k (xspBase s k + b * xspUnit s k)) k bs
      | none => (xspSpareless s k b, 5)

/-- A program (1) or an erase (2) at `a` ends, with its result: `effect` where it succeeds; a NAND block that fails is remapped, the
operation repeated on the spare (R513); without a spare, and on a NOR, the failure stands (R514). -/
def flashEnd (s : State) (op k a : Nat) (effect : State → State) (failed : Bool) : State × Nat :=
  let b := (a - xspBase s k) / xspUnit s k
  if !failed then (effect s, 0)
  else if !xspNand s k then (raiseP (xspSpoil s op k a) 0x98 3, 3)
  else match xspRemap s k b with
    | some s => (raiseP (effect s) 0x98 1, 4)
    | none => (xspSpareless (xspSpoil s op k a) k b, 5)

/-- The running command ends; `failed`: the device reports a failed program or erase, `bad`: the blocks whose factory marker is set
(R513, R514). -/
def xspDone (s : State) (failed : Bool) (bad : List Nat) : State :=
  match s.xsp.cmd with
  | none => s
  | some (op, k) =>
    if s.jrn.op.isSome then s
    else
    let a := s.xsp.addr
    let s := xspClearBusy { s with xsp := { s.xsp with cmd := none } } k
    let res (r : State × Nat) : State := setF r.1 0x98 R.XSP.CRES.RES r.2
    if op = 3 then
      if !xspNand s k then res (s, 0)
      else
        let n := xspBlocks s k - xspPool s k
        res (xspFormat (xspShow s) k (bad.filter fun b => decide (b < n)))
    else res (flashEnd s op k a (xspEffect · op k a s.xsp.buf) failed)

/-- A device busy for more than 100 ms (23 Table 3). -/
def xspTimeout (s : State) : State := if getF s 0x98 R.XSP.STAT.BUSY ≠ 0 then raiseP s 0x98 4 else s

/-- An uncorrectable read (R514). -/
def xspReadError (s : State) : State := raiseP s 0x98 0

def xspConsist (g : Fld → Nat) : Option Nat :=
  let size (k : Nat) : Nat :=
    let unit := 2 ^ (8 + g (R.XSP.GEO.PAGE k) + g (R.XSP.GEO.BLK k))
    let n := 2 ^ g (R.XSP.CS.SIZE k) / unit
    if g (R.XSP.CS.EN k) = 0 then 0
    else if g (R.XSP.CS.TYPE k) = 0 then 2 ^ g (R.XSP.CS.SIZE k) else (n - n * 3 / 100) * unit
  if 2 ^ 32 < size 0 + size 1 || (g (R.XSP.CS.EN 1) ≠ 0 && g (R.XSP.CS.EN 0) = 0) then some 512 else none

/-! ### The journal (R515 to R517) -/

/-- JRN copies: its page is on and its chip-select ready. -/
def jrnOn (s : State) : Bool :=
  cfgOn s 0x99 R.JRN.CFG.EN && !blockOff s 0x99 && enabled s 0x99 && (xspCs s (cfg s 0x99 R.JRN.BASE.ADDR)).isSome

/-- A record enters the staging ring; a full one overwrites its oldest (R515). The record of a C5 event, journalled after the boot
(R506), takes its place by its SEQ. -/
def jrnStage (s : State) (ws : List Word) : State :=
  let seq := (ws.headD 0).toNat
  let late := (ws.getD 1 0).getLsbD 26
  let head := getF s 0x99 R.JRN.HEAD.SEQ
  let before := s.jrn.ring.filter fun e => !late || decide (e.1 < seq)
  let ring := before ++ [(seq, ws)] ++ s.jrn.ring.filter fun e => late && decide (seq ≤ e.1)
  let s := setF (setF s 0x99 R.JRN.HEAD.SEQ (if late then max head seq else seq)) 0x99 R.JRN.TOTAL.CNT (satInc 65535 (getF s 0x99 R.JRN.TOTAL.CNT))
  if 64 < ring.length then
    let s := setF s 0x99 R.JRN.LOST.CNT (satInc 65535 (getF s 0x99 R.JRN.LOST.CNT))
    let s := { s with jrn := { s.jrn with ring := ring.drop 1 } }
    -- the loss that a record of LOST itself makes raises no further one
    if (ws.getD 1 0).toNat % 65536 = 1224 then s else raiseP s 0x99 0
  else { s with jrn := { s.jrn with ring := ring } }

/-- Chip-select of the journal's region, the bytes of an erase unit there, and the records that a unit holds. -/
def jrnCs (s : State) : Nat := ((xspAt s s.jrn.base).map Prod.fst).getD 0
def jrnUnitBytes (s : State) : Nat := xspUnit s (jrnCs s)
def jrnCap (s : State) : Nat := (jrnUnitBytes s - 64) / 64

/-- External address of unit `u`, and of place `i` in it. -/
def jrnAddr (s : State) (u : Nat) : Nat := s.jrn.base + u * jrnUnitBytes s
def jrnPlace (s : State) (u i : Nat) : Nat := jrnAddr s u + 64 + 64 * i

/-- TAIL is the first SEQ of the oldest unit that holds records (R516). -/
def jrnTail (s : State) : State :=
  match s.jrn.firsts with
  | [] => s
  | e :: es => setF s 0x99 R.JRN.TAIL.SEQ (es.foldl (fun m x => min m x.2) e.2 - 1)

/-- The unit that is erased next: the one in rotation, never the one written to (R516). -/
def jrnCand (s : State) : Nat := if s.jrn.cur = some s.jrn.next then (s.jrn.next + 1) % max 1 s.jrn.units else s.jrn.next

/-- What JRN does next for the oldest staged record: it erases the unit that follows before the one written to fills, writes the header of
the unit it begins, then the record (R516). -/
def jrnPlan (s : State) : Option JrnOp :=
  match s.jrn.ring with
  | [] => none
  | e :: _ =>
    match s.jrn.cur, s.jrn.ready with
    | none, none => some (.erase (jrnCand s))
    | none, some u => some (.header u e.1)
    | some _, none => some (if s.jrn.fill + 1 < jrnCap s then .record e.1 else .erase (jrnCand s))
    | some _, some _ => some (.record e.1)

/-- The 64-byte header of a unit (R516). -/
def jrnHeader (useq seq : Nat) : List Byte :=
  let head := [0x4B, 0x4A, 0x52, 0x4E] ++ natToBytes 4 useq ++ natToBytes 4 seq ++ List.replicate 48 0
  head ++ wordBytes (crc32 head)

/-- The external address at which an operation acts. -/
def jrnTarget (s : State) : JrnOp → Nat
  | .erase u => jrnAddr s u
  | .header u _ => jrnAddr s u
  | .record _ => jrnPlace s (s.jrn.cur.getD 0) s.jrn.fill

/-- The page at `a` that a program of 64 bytes takes: the bytes beside them are not programmed (R512). -/
def jrnPageAt (s : State) (a : Nat) : Nat := a - (a - xspBase s (jrnCs s)) % xspPage s (jrnCs s)
def jrnPage (s : State) (a : Nat) (l : List Byte) : List Byte :=
  fit (xspPage s (jrnCs s)) (List.replicate (a - jrnPageAt s a) 0xFF ++ l ++ List.replicate (xspPage s (jrnCs s)) 0xFF)

/-- The bytes of an operation in its buffer. -/
def jrnBuffer (s : State) : JrnOp → List Byte
  | .erase _ => []
  | .header u q => jrnPage s (jrnAddr s u) (jrnHeader s.jrn.useq q)
  | .record q =>
    jrnPage s (jrnTarget s (.record q)) (((s.jrn.ring.find? fun e => e.1 = q).map fun e => e.2.flatMap wordBytes).getD [])

/-- JRN begins its next operation, unless an XSP command came first (R512). -/
def jrnStart (s : State) : State :=
  match if jrnOn s && s.jrn.op.isNone && s.xsp.cmd.isNone && decide (0 < jrnCap s) then jrnPlan s else none with
  | none => s
  | some o => xspSetBusy { s with jrn := { s.jrn with op := some o, buf := jrnBuffer s o } } (jrnCs s)

/-- The erase of unit `u` ends; one that fails for good makes the unit skipped, with UNITFAIL; its records are gone in both cases (R516). -/
def jrnErased (s : State) (u : Nat) (failed : Bool) : State :=
  let a := jrnAddr s u
  let r := flashEnd s 2 (jrnCs s) a (fun s => extWrite s a (List.replicate (jrnUnitBytes s) 0xFF)) failed
  let done := decide (r.2 = 0 ∨ r.2 = 4)
  let s := jrnTail { r.1 with jrn := { r.1.jrn with firsts := storeSet seqDefault r.1.jrn.firsts u 0
                                                    ready := if done then some u else none
                                                    next := (u + 1) % max 1 r.1.jrn.units } }
  if done then s else raiseP s 0x99 1

/-- A program of JRN ends: the page of its buffer is written. -/
def jrnProgrammed (s : State) (o : JrnOp) (failed : Bool) : State :=
  let a := jrnPageAt s (jrnTarget s o)
  (flashEnd s 1 (jrnCs s) a (extProgram · a s.jrn.buf) failed).1

/-- The operation that runs ends (R512 to R516): an XSP command that waited for it begins. -/
def jrnEnd (s : State) (failed : Bool) : State :=
  match s.jrn.op with
  | none => s
  | some o =>
    let t := xspClearBusy { s with jrn := { s.jrn with op := none, buf := [] } } (jrnCs s)
    let t := match s.xsp.cmd with | some c => xspSetBusy t c.2 | none => t
    let keep (t : State) : State := { t with jrn := { t.jrn with buf := [] } }
    let prog : State := keep (jrnProgrammed { t with jrn := { t.jrn with buf := s.jrn.buf } } o failed)
    match o with
    | .erase u => jrnErased t u failed
    | .header u q =>
      jrnTail { prog with jrn := { prog.jrn with cur := some u, fill := 0, ready := none, useq := prog.jrn.useq + 1
                                                 firsts := storeSet seqDefault prog.jrn.firsts u (q + 1) } }
    | .record q =>
      let full := decide (jrnCap prog ≤ prog.jrn.fill + 1)
      { prog with jrn := { prog.jrn with ring := prog.jrn.ring.filter (·.1 ≠ q), fill := prog.jrn.fill + 1
                                         cur := if full then none else prog.jrn.cur } }

/-- A write of JRN.RSEQ starts a fetch (R517). -/
def jrnFetch (s : State) (v : Word) : State :=
  { setF (wr s 0x99 0x110 v) 0x99 R.JRN.RRES.RES 1 with jrn := { s.jrn with fetch := true } }

/-- The record of SEQ `q` in the staging ring. -/
def jrnStaged (s : State) (q : Nat) : Option (List Word) := (s.jrn.ring.find? fun e => e.1 = q).map Prod.snd

/-- The external address of the record of SEQ `q`. -/
def jrnFind (s : State) (q : Nat) : Option Nat :=
  s.jrn.firsts.findSome? fun e =>
    ((List.range (jrnCap s)).map (jrnPlace s e.1)).find? fun a => memWord s.mem (extBase + a) = BitVec.ofNat 32 q

/-- The 16 words of a record at an external address. -/
def jrnWords (s : State) (a : Nat) : List Word := (List.range 16).map fun i => memWord s.mem (extBase + a + 4 * i)

/-- The fetch ends: RDAT and RRES. -/
def jrnFetched (s : State) (res : Nat) (ws : List Word) : State :=
  let s := (List.range 16).foldl (fun s i => setF s 0x99 (R.JRN.RDAT.DATA i) (ws.getD i 0).toNat) s
  setF { s with jrn := { s.jrn with fetch := false } } 0x99 R.JRN.RRES.RES res

/-- The read of an external record meets a bus error: its data are zeros, and RRES is not stated (R514, notes/assumptions/47). -/
def jrnUnread (s : State) : State :=
  let r := freshNat s 2
  jrnFetched r.1 (2 * r.2) (List.replicate 16 0)

/-- The fetch ends with the record, or with NOTHELD (R517); a busy chip-select holds it up (R512), and a NAND page may be uncorrectable
(R514). -/
def jrnFetchDone (s : State) : State :=
  if !s.jrn.fetch then s
  else
    let q := getF s 0x99 R.JRN.RSEQ.SEQ
    let held := decide (getF s 0x99 R.JRN.TAIL.SEQ ≤ q) && decide (q ≤ getF s 0x99 R.JRN.HEAD.SEQ)
    let none' : State := setF { s with jrn := { s.jrn with fetch := false } } 0x99 R.JRN.RRES.RES 2
    if !held then none'
    else match jrnStaged s q with
      | some ws => jrnFetched s 0 ws
      | none =>
        match jrnFind s q with
        | none => none'
        | some a =>
          if (xspCs s a).isNone then jrnUnread s
          else if xspBusy s (jrnCs s) then s
          else
            let bad := if xspNand s (jrnCs s) then freshNat s 2 else (s, 0)
            if bad.2 = 1 then jrnUnread (xspReadError bad.1) else jrnFetched bad.1 0 (jrnWords bad.1 a)

/-- The region lies within one enabled chip-select (23, JRN page). -/
def jrnConsist (s : State) (g : Fld → Nat) : Option Nat :=
  if g R.JRN.CFG.EN = 0 then none
  else
    let a := g R.JRN.BASE.ADDR
    let ok : Bool := match xspCs s a with
      | some (k, o) => decide (o + g R.JRN.CFG.UNITS * xspUnit s k ≤ xspSize s k) && decide (o % xspUnit s k = 0)
      | none => false
    if ok then none else some 512

end Sys2Proof.Machine
end

