-- ==== Sys2Proof/Machine/Upd.lean ====
section
/-! DEFINITION. Installation, trial, confirmation, revert, settings selection and distribution (21), but for the resets they end
in. -/

namespace Sys2Proof.Machine

/-- UPD.STAT, TRUN and ROLL show the update record and the counters. -/
def updShow (s : State) : State :=
  let u := s.upd
  let st := if getF s 0x03 R.RST.BOOT.PHASE = 5 then 3 else u.state
  let s := setF (setF s 0x07 R.UPD.STAT.STATE st) 0x07 R.UPD.STAT.TBOOTS u.tboots
  let s := setF (setFlag s 0x07 R.UPD.STAT.PREVV u.prevv) 0x07 R.UPD.STAT.PREVGEN u.prevgen
  rollShow s

/-- Counters 0 and 1 rise to the header ROLL and SROLL of slot `x` (R485). -/
def updRolls (s : State) (x : Nat) : State :=
  let s := if rollGet s 0 < slotNat s x 0x0C 1 then rollSet s 0 (slotNat s x 0x0C 1) else s
  if rollGet s 1 < slotNat s x 0x0D 1 then rollSet s 1 (slotNat s x 0x0D 1) else s

/-- Confirmation of the trial slot, STATE = CONFIRMING (R485). -/
def updConfirm (s : State) : State :=
  let s := updRolls s s.upd.trial
  updVersions (updShow { s with upd := { s.upd with state := 0, conf := s.upd.trial, prevv := false, tboots := 0, revert := false } })

/-- The end of an installation that fails: its code, word 0 cleared, INSTFAIL (R481). -/
def instFail (s : State) (code : Nat) : State :=
  let s := slipClear (setF s 0x07 R.UPD.STAT.LAST code)
  if code = 9 then s else raiseP s 0x07 0

/-- The target slot: A where neither is valid, the trial slot of a trial, else the slot that is not confirmed (R482). -/
def instTarget (s : State) : Nat :=
  if !slotValid s 0 && !slotValid s 1 then 0 else if s.upd.state = 1 then s.upd.trial else 1 - s.upd.conf

/-- The target erased, programmed and given its record (R482, steps 2 to 5). -/
def instRecord (s : State) (x : Nat) : State := slotWriteRecord (slotProgram (slotErase s x) x 0x200000) x

/-- The update record names the target (R482, step 6). -/
def instNamed (s : State) (x : Nat) : State :=
  let rej := if s.upd.rejected.testBit x then s.upd.rejected - 2 ^ x else s.upd.rejected
  let u := { s.upd with insthash := ctnPhash s 0, rejected := rej, tboots := 0, trun := 600, revert := false }
  if slotValid s (1 - x) then { s with upd := { u with state := 1, trial := x } }
  else updRolls { s with upd := { u with state := 0, conf := x, prevv := false } } x

/-- The installation of a container that has passed checks 1 to 7 (R482). -/
def instCopy (s : State) : State :=
  let x := instTarget s
  if !ctnTagOk s 0 then instFail (slotProgram (slotErase s x) x 0x200000) 8
  else updVersions (updShow (setF (slipClear (instNamed (instRecord s x) x)) 0x07 R.UPD.STAT.LAST 1))

/-- What an installation leaves that ends at stage `k` (R488, 21 Table 5): 0 verification, 1 the copy, of which a free part has been
programmed, 2 the slot record written, 3 the update record written. An image whose TAG fails comes no further than the copy (R482). -/
def instUntil (s : State) (k : Nat) : State :=
  let x := instTarget s
  if k = 0 then s
  else if k = 1 || !ctnTagOk s 0 then
    let r := freshNat s (ctnPlen s 0 + 256)
    slotProgram (slotErase r.1 x) x r.2
  else if k = 2 then instRecord s x
  else instNamed (instRecord s x) x

/-- A pending image is checked and installed (R481, R482); with the tamper state set it is refused (R469). -/
def install (s : State) : State :=
  if !slipPending s then s
  else if tamperState s then raiseP (setF s 0x07 R.UPD.STAT.LAST 10) 0x07 0
  else
    let c := ctnCheck s
    if c = 1 then instCopy s else instFail s c

/-- A revert (R486). -/
def updRevert (s : State) : State :=
  let u := s.upd
  let s := if u.prevv then dirWrite s u.prevgen else s
  let s := { s with upd := { u with state := 0, rejected := u.rejected ||| 2 ^ u.trial, prevv := false, revert := false, tboots := 0 } }
  updShow (raiseP (setFlag s 0x07 R.UPD.STAT.REVERTED true) 0x07 1)

/-- A revert is due at boot: its time has run out, three trial boots have been taken, or the slot may not boot (R484, R486). -/
def revertDue (s : State) : Bool :=
  s.upd.state = 1 && (s.upd.revert || decide (3 ≤ s.upd.tboots) || !parentUsable s 0 || !slotValid s s.upd.trial || s.upd.rejected.testBit s.upd.trial)

/-- What a revert leaves that ends at stage `k` (R486, R488, 21 Table 5): 1 the rejection recorded, 2 the directory copy torn, 3 the
directory restored. -/
def revertUntil (s : State) (k : Nat) : State :=
  if k = 0 then s
  else
    let s := { s with upd := { s.upd with rejected := s.upd.rejected ||| 2 ^ s.upd.trial } }
    if !s.upd.prevv || k = 1 then s else if k = 2 then dirTorn s s.upd.prevgen else dirWrite s s.upd.prevgen

/-- What SETSEL answers: 0x21 BADGEN, 0x24 SAMEGEN, 0x22 GENVER, 0x23 GENROLL, 1 OK (R487). -/
def setselCheck (s : State) (g : Nat) : Nat :=
  let v := if getF s 0x03 R.RST.BOOT.SLOT = 0 then getF s 0x07 R.UPD.VERA.VER else getF s 0x07 R.UPD.VERB.VER
  if !genOk s g then 0x21
  else if dirGen s = some g then 0x24
  else if v < genVerlo s g || genVerhi s g < v then 0x22
  else if genEp s g / 1024 < rollGet s 1 then 0x23 else 1

/-- PREVGEN is recorded in a trial that has none yet (R487). -/
def setselNote (s : State) : State :=
  if s.upd.state = 1 && !s.upd.prevv then { s with upd := { s.upd with prevv := true, prevgen := (dirGen s).getD 0 } } else s

/-- SETSEL of a generation that passes: PREVGEN is recorded in a trial, the directory names the new one (R487). -/
def setselApply (s : State) (g : Nat) : State := updShow (dirWrite (setselNote s) g)

/-- Writes to the area of a generation are refused: the one that the directory names, and PREVGEN while it is recorded (R487). -/
def genProtected (s : State) (a : Nat) : Bool :=
  let area (g : Nat) : Bool := decide (genBase g ≤ a) && decide (a < genBase g + 0x7F000)
  (match dirGen s with | some g => area g | none => false) || (s.upd.prevv && area s.upd.prevgen)

/-- An accepted UPD.CMD starts to run; a confirmation first writes STATE = CONFIRMING into the update record, which a loss of power leaves
there (R485, R488, R491). -/
def updBegin (s : State) (op g : Nat) : State :=
  let s := setFlag (setF s 0x07 R.UPD.SRES.OP op) 0x07 R.UPD.SRES.BUSY true
  let trial := getF s 0x07 R.UPD.STAT.STATE = 1 && s.upd.state = 1
  let s := { s with upd := { s.upd with gen := g, asked := op = 1 && trial } }
  if op = 1 && trial then updShow { s with upd := { s.upd with state := 2 } } else s

/-- A running UPD command ends with a result (R491). -/
def updEnd (s : State) (res : Nat) : State := setFlag (setF s 0x07 R.UPD.SRES.RES res) 0x07 R.UPD.SRES.BUSY false

/-- The remaining trial time goes into the update record (R484); what has been counted since the last record of ten seconds is free. -/
def trialShut (s : State) : State :=
  if s.upd.state ≠ 1 then s
  else
    let r := freshNat s 10
    let sec := getF s 0x07 R.UPD.TRUN.SEC - r.2
    setF { r.1 with upd := { r.1.upd with trun := sec } } 0x07 R.UPD.TRUN.SEC sec

/-- The remaining trial time goes into the update record (R484). -/
def trialRecord (s : State) : State :=
  if s.upd.state = 1 then { s with upd := { s.upd with trun := getF s 0x07 R.UPD.TRUN.SEC } } else s

/-! ### Distribution (R490) -/

/-- Number of BULK frames, of 63 words but the last. -/
def distFrames (s : State) : Nat := (cfg s 0x07 R.UPD.DLEN.LEN + 251) / 252

/-- Index of the frame that is sent as the `i`-th: ascending, the frame of offset DOFF last. -/
def distIndex (s : State) (i : Nat) : Nat := if i + 1 < distFrames s then i + 1 else 0

/-- Payload of frame `j`. -/
def distData (s : State) (j : Nat) : List Byte :=
  let n := min 252 (cfg s 0x07 R.UPD.DLEN.LEN - 252 * j)
  let src := cfg s 0x07 R.UPD.DSRC.ADDR + 252 * j
  let ws := if cfgOn s 0x07 R.UPD.DDST.SEL then extRead s src n else memGetList s.mem (slipBase + src) n
  natToBytes 4 (cfg s 0x07 R.UPD.DOFF.OFFS + 252 * j) ++ ws

def distBusy (s : State) : Bool := isSet s 0x07 R.UPD.DSTAT.BUSY

/-- The engine's read of an external source: none is a bus error, at an address outside the chip-selects (R511); a busy chip-select
holds it up (R512). -/
def distSource (s : State) (j : Nat) : Option Bool :=
  if !cfgOn s 0x07 R.UPD.DDST.SEL then some true
  else
    let a := cfg s 0x07 R.UPD.DSRC.ADDR + 252 * j
    let n := min 252 (cfg s 0x07 R.UPD.DLEN.LEN - 252 * j)
    match xspCs s a, xspCs s (a + n - 1) with
    | some x, some y => some (!xspBusy s x.1 && !xspBusy s y.1)
    | _, _ => none

/-- A source that cannot be read stops the engine with ERR and DISTERR (notes/assumptions/89). -/
def distUnread (s : State) : State :=
  raiseP (setFlag (setFlag s 0x07 R.UPD.DSTAT.ERR true) 0x07 R.UPD.DSTAT.BUSY false) 0x07 2

/-- The engine's read of frame `j` of an external source; false: a NAND page cannot be corrected (R514). -/
def distFetch (s : State) (j : Nat) : State × Bool :=
  let a := cfg s 0x07 R.UPD.DSRC.ADDR + 252 * j
  if cfgOn s 0x07 R.UPD.DDST.SEL && xspNand s (((xspAt s a).map Prod.fst).getD 0) then
    let r := freshNat s 2
    if r.2 = 1 then (xspReadError r.1, false) else (r.1, true)
  else (s, true)

/-- The next BULK frame is queued, when none is waiting for its gap or its response; STOP ends the engine (R490, 21 Table 7). -/
def distStep (s : State) : State :=
  if !distBusy s || s.upd.await.isSome || s.jxr.queue.any (fun e => e.2.ty = 8) then s
  else if s.upd.stop || blockOff s 0x07 then setFlag { s with upd := { s.upd with stop := false } } 0x07 R.UPD.DSTAT.BUSY false
  else if s.jxr.enumPh ≠ 0 || s.jxr.conflict then s
  else if distFrames s ≤ s.upd.next then s
  else if !cfgOn s 0x07 R.UPD.DDST.BC && 32 ≤ jxrLoad s (cfg s 0x07 R.UPD.DDST.ADDR) then s
  else if distSource s (distIndex s s.upd.next) = none then distUnread s
  else if distSource s (distIndex s s.upd.next) = some false then s
  else
    let data := distData s (distIndex s s.upd.next)
    let got := distFetch s (distIndex s s.upd.next)
    let s := got.1
    if !got.2 then distUnread s
    else
    let s := { s with upd := { s.upd with next := s.upd.next + 1 } }
    let s := setF s 0x07 R.UPD.DSTAT.FRAMES (satInc 65535 (getF s 0x07 R.UPD.DSTAT.FRAMES))
    if cfgOn s 0x07 R.UPD.DDST.BC then (jxrBroadcast s 8 data).1
    else
      let d := cfg s 0x07 R.UPD.DDST.ADDR
      let q := jxrSeq s d
      let f := jxrFrame q.1 d 8 q.2 false false data
      jxrQueue { q.1 with upd := { q.1.upd with await := some f, resends := 0 } } false f

/-- DCTL.START (R490); while the engine runs it changes nothing. -/
def distStart (s : State) : State :=
  if jxrRole s ≠ 1 then werr s 0x07 0x140
  else if distBusy s || blockOff s 0x07 then s
  else
    let s := setF (setFlag s 0x07 R.UPD.DSTAT.BUSY true) 0x07 R.UPD.DSTAT.FRAMES 0
    distStep { s with upd := { s.upd with next := 0, await := none, resends := 0, stop := false } }

def distStop (s : State) : State :=
  if distBusy s then distStep { s with upd := { s.upd with stop := true } } else s

/-- A final error stops the engine: ERR, DISTERR, EV62 and an error log entry with KIND EC3 (R365, R490). -/
def distError (s : State) (code : Nat) : State :=
  match s.upd.await with
  | none => s
  | some f =>
    let s := setFlag (setFlag { s with upd := { s.upd with await := none } } 0x07 R.UPD.DSTAT.ERR true) 0x07 R.UPD.DSTAT.BUSY false
    brgDrained <| (raiseLine · 62) <| brgLog (raiseP s 0x07 2) (winAddr f.dst.toNat (bytesToNat (f.data.take 4))) code 3 true 0
      (BitVec.ofNat 32 (bytesToNat ((f.data.drop 4).take 4)))

/-- The BULK frame sent last is the request (dst, seq). -/
def distAwaits (s : State) (dst seq : Nat) : Bool :=
  match s.upd.await with | some f => f.dst.toNat = dst && f.seq.toNat = seq | none => false

/-- Its response has come. -/
def distAck (s : State) (src seq : Nat) : State :=
  if distAwaits s src seq then brgDrained (distStep { s with upd := { s.upd with await := none } }) else s

/-- It is resent, or ends with TIMEOUT and RETRYX (R346). -/
def distResend (s : State) (dst seq : Nat) : State :=
  match s.upd.await with
  | none => s
  | some f =>
    if f.dst.toNat ≠ dst || f.seq.toNat ≠ seq then s
    else if cfg s 0x0B R.JXR.CFG.RETRY ≤ s.upd.resends then raiseP (distError s 17) 0x0B 6
    else
      let s := { s with upd := { s.upd with resends := s.upd.resends + 1 } }
      if s.jxr.conflict then s else jxrQueue s false f

/-- ERR for it: BUSY is resent, any other code is final. -/
def distErr (s : State) (src seq code : Nat) : State :=
  if !distAwaits s src seq then s else if code = 4 then distResend s src seq else distError s code

/-- The last BULK frame has been sent, and where it is a unicast answered: DONE. -/
def distDone (s : State) : State :=
  if distBusy s && decide (distFrames s ≤ s.upd.next) && s.upd.await.isNone && !(s.jxr.queue.any fun e => e.2.ty = 8) then
    setFlag (setFlag s 0x07 R.UPD.DSTAT.DONE true) 0x07 R.UPD.DSTAT.BUSY false
  else s

/-- UPD commit rules (R492). -/
def updConsist (s : State) (g : Fld → Nat) : Option Nat :=
  let len := g R.UPD.DLEN.LEN
  if distBusy s || g R.UPD.DSRC.ADDR % 4 ≠ 0 then some 512
  else if g R.UPD.DDST.SEL = 0 && 2097152 < g R.UPD.DSRC.ADDR + len then some 512
  else if len % 4 ≠ 0 || 2097152 < g R.UPD.DOFF.OFFS + len then some 513
  else if g R.UPD.DDST.BC = 0 && g R.UPD.DDST.ADDR = 0 then some 514
  else if g R.UPD.DOFF.OFFS % 4 ≠ 0 then some 515 else none

end Sys2Proof.Machine
end

