-- ==== Sys2Proof/Machine/Commit.lean ====
section
/-! DEFINITION. Page header and commits: the check, the apply classes, ABORT, ENABLE, LOCK, and what each block does at its apply
edge and when its ENABLE changes (02, R38 to R49; R509). -/

namespace Sys2Proof.Machine

/-! ### The shadow and its check (R41, R42) -/

/-- The 2,048 bytes of a page's shadow region. -/
def shadowBytes (s : State) (p : Nat) : List Byte := (List.range 512).flatMap fun i => wordBytes (rd s p (0x800 + 4 * i))

/-- The 2,048 bytes of the configuration in force (R38). -/
def appliedBytes (s : State) (p : Nat) : List Byte := (List.range 512).flatMap fun i => wordBytes (cfgW s p (0x800 + 4 * i))

/-- PACRC (R38). -/
def pageCrc (s : State) (p : Nat) : Word := crc32 (appliedBytes s p)

/-- The shadow word at offset `off` breaks the range of a field or sets a reserved bit (R39, R42). -/
def wordOutOfRange (p off : Nat) (w : Word) : Bool :=
  let fs := fieldsAt p off
  let all := fs.foldl (fun m r => m ||| r.mask) 0
  (!fs.isEmpty && (w.toNat ||| all) ≠ all) ||
    fs.any (fun r => let v := (w.toNat >>> r.lo) % 2 ^ (r.hi + 1 - r.lo); decide (v < r.min) || decide (r.max < v)) ||
    (p = 4 && decide (0xC00 ≤ off) && (List.range 8).any fun i =>
      let c := (w.toNat >>> (4 * i)) % 16; decide (5 < c) && decide (c < 15)) ||
    (p = 0x1D && rfxRange off w)

/-- Step 3 of the check: the first word out of range. -/
def rangeFail (s : State) (p : Nat) : Option Nat :=
  ((List.range 512).find? fun i => wordOutOfRange p (0x800 + 4 * i) (rd s p (0x800 + 4 * i))).map fun i => 512 + i

/-- PMU's rules (R74). -/
def pmuConsist (g : Fld → Nat) : Option Nat :=
  let can := g R.PMU.WEN.CANW
  let lin := g R.PMU.WEN.LINW
  let rt := g R.PMU.WROUTE.LST
  if can = 0 && g R.PMU.WEN.LINW = 0 && g R.PMU.WEN.RINGW = 0 && g R.PMU.WEN.RTCW = 0 && g R.PMU.WEN.SBW = 0 && g R.PMU.SWW.EN = 0 then
    some 513
  else if (List.range 2).any (fun b => (g R.PMU.WEN.CANWUP).testBit b && !can.testBit b) then some 513
  else if (List.range 2).any (fun b => rt.testBit b && !can.testBit b) ||
      (List.range 6).any (fun b => rt.testBit (2 + b) && !lin.testBit b) then some 513
  else none

/-- MSQ's rules (R163). -/
def msqConsist (g : Fld → Nat) : Option Nat :=
  let on (i : Nat) : Bool := g (R.MSQ.SCFG.EN i) ≠ 0
  let base (i : Nat) : Nat := g (R.MSQ.SBASE.BASE i)
  let len (i : Nat) : Nat := 256 * 2 ^ g (R.MSQ.SCFG.LEN i)
  let bad (i : Nat) : Bool := on i &&
    (decide (base i < 0x20000000) || decide (0x20200000 < base i + len i) || base i % len i ≠ 0)
  let hit (i j : Nat) : Bool := i ≠ j && on i && on j && decide (base i < base j + len j) && decide (base j < base i + len i)
  if g R.MSQ.WEAR.WARN ≤ g R.MSQ.WEAR.FAILLO then some 513
  else match (List.range 4).find? fun i => bad i || (List.range 4).any (hit i) with
    | some i => some (516 + i)
    | none => none

/-- The fetchable regions of the core of page `p` (R29, R294, R299): of the slots only the active one. -/
def ecFetchable (s : State) (p a : Nat) : Bool :=
  (decide (0x10000000 ≤ a) && decide (a < 0x10400000) && p ≠ 0xA3 && activeSlot s = some ((a - 0x10000000) / 0x200000)) || (decide (0x01000000 ≤ a) && decide (a < 0x01010000)) ||
    (let t := 0x01100000 + (p - 0xA0) * 0x10000; decide (t ≤ a) && decide (a < t + 0x10000)) || (p = 0xA3 && (decide (a < 0x18000) || (decide (0x30000000 ≤ a) && decide (a < 0x30040000))))

/-- EC's rules (13, EC pages). -/
def ecConsist (s : State) (p : Nat) (g : Fld → Nat) : Option Nat :=
  let base := g R.EC.VBASE.BASE * 1024
  if p = 0xA1 then none
  else if base ≠ 0 && !(ecFetchable s p base && ecFetchable s p (base + 1023)) then some 512
  else if base = 0 && p ≠ 0xA3 then some 512
  else match (List.range 16).find? fun v => (v = 0 || 6 ≤ v) && g (R.EC.VPRI.EN (v / 8) (v % 8)) ≠ 0 with
    | some v => some (528 + v / 8)
    | none => none

/-- DMA's rule: no shadow word of a channel in progress changes (13, DMA page). -/
def dmaConsist (s : State) : Option Nat :=
  (List.range 64).findSome? fun i =>
    let c := i / 4
    if (isSet s 0x0F (R.DMA.STAT.BUSY c) || isSet s 0x0F (R.DMA.STAT.WAIT c)) &&
      rd s 0x0F (0x800 + 4 * i) ≠ cfgW s 0x0F (0x800 + 4 * i) then some (512 + i) else none

/-- The minimum classes (22 Table 4), by ID; source 39 stays DEFAULT. -/
def fltMinimum : List (Nat × Nat) := [(32, 4), (36, 4), (39, 15), (47, 3), (55, 3), (1283, 4), (1288, 4)]

/-- FLT's rules (22, FLT page). -/
def fltConsist (g : Fld → Nat) : Option Nat :=
  let tmin := g R.FLT.AWIN.TMIN
  let cls (id : Nat) : Nat := g (R.FLT.CLS.CLS (id / 8) (id % 8))
  if tmin = 0 || g R.FLT.AWIN.TMAX ≤ tmin then some 513
  else match fltMinimum.find? fun (e : Nat × Nat) => cls e.1 < e.2 with
    | some e => some (768 + e.1 / 8)
    | none => none

/-- PROT's rule: every word is valid (R50, R59). -/
def protConsist (s : State) : Option Nat :=
  ((List.range 256).find? fun i => !manWordOk (rd s 5 (0x800 + 4 * i))).map fun i => 512 + i

/-- Step 4 of the check: the consistency rules of the page's block, on the values of the shadow. -/
def consistFail (s : State) (p : Nat) : Option Nat :=
  let g : Fld → Nat := getF s p
  match blkOf p with
  | some (b, p0) =>
    let n := p - p0
    match b with
    | .PMU => pmuConsist g | .FLT => fltConsist g | .PROT => protConsist s | .UPD => updConsist s g | .BRG => brgConsist g
    | .JXR => jxrConsist g | .NMG => nmgConsist g | .DMA => dmaConsist s | .CAN => canConsist g n | .LIN => linConsist g
    | .IMM => immConsist g | .SWI => swiConsist g | .RFX => rfxConsist (rd s p) | .MSQ => msqConsist g
    | .HSC => hscConsist g n | .HB => hbConsist s g n | .SOL => solConsist g | .SBK => sbkConsist g | .LST => lstConsist g
    | .LMX => lmxConsist g | .LCH => lchConsist g | .FRMC => frmcConsist g | .XSP => xspConsist g | .JRN => jrnConsist s g
    | .EC => ecConsist s p g | .TBS => tbsConsist g
    | _ => none
  | none => none

/-- The apply class is supported: IMMEDIATE by every page, PERIOD and MODE by PCAP (02 Table 3). -/
def classOk (p c : Nat) : Bool := c = 0 || (c = 1 && (pageCap p).acper) || (c = 2 && (pageCap p).acmode)

/-- The apply class of the commit in progress of page `p`: the one its COMMIT was written with (R45). -/
def commitClass (s : State) (p : Nat) : Nat := storeGet seqDefault s.cmtClass p

/-- The result of the check and the word it names: 1 OK, 2 CRC, 3 RANGE, 4 CONSIST, 5 CLASS (R42). -/
def commitCheck (s : State) (p : Nat) : Nat × Nat :=
  if !classOk p (commitClass s p) then (5, 3)
  else if crc32 (shadowBytes s p) ≠ rd s p 0x014 then (2, 5)
  else match rangeFail s p with
    | some w => (3, w)
    | none => match consistFail s p with
      | some w => (4, w)
      | none => (1, 0)

/-! ### Apply edges -/

/-- Key of the first shadow word of a page. -/
def shadowLo (p : Nat) : Nat := p * 1024 + 512
def shadowHi (p : Nat) : Nat := p * 1024 + 1024

/-- The entries of a store from key `lo` on and below `hi`. -/
def storeCut {α : Type} (lo hi : Nat) (m : Store α) : Store α := m.filter fun e => lo ≤ e.1 && e.1 < hi

/-- The entries of `m` in the key range `lo` to `hi` replaced by those of `r` there. -/
def storePatch {α : Type} (lo hi : Nat) (m r : Store α) : Store α :=
  (m.filter fun e => e.1 < lo) ++ storeCut lo hi r ++ m.filter fun e => hi ≤ e.1

/-- The shadow is reloaded from the applied configuration (R46). -/
def shadowReload (s : State) (p : Nat) : State :=
  { s with regs := storePatch (shadowLo p) (shadowHi p) s.regs s.applied }

/-- The manifest in force shows in PROT.MAN, with the fixed rights (R51, 02 Table 13). -/
def manifestShow (s : State) : State :=
  (List.range 256).foldl (fun s q =>
    let w := (cfgW s 5 (0x800 + 4 * q)).toNat
    let w := if w.testBit 8 then w else w + 2 ^ 8
    let w := if q = 5 || q = 6 then
        (List.range 6).foldl (fun w i =>
          if i = 2 then (if w.testBit 10 then w else w + 2 ^ 10) else if w.testBit (4 * i + 2) then w - 2 ^ (4 * i + 2) else w) w
      else w
    wr s 5 (0x400 + 4 * q) (BitVec.ofNat 32 w)) s

/-- A DMA channel stops after the word in progress (13, DMA page). -/
def dmaStop (s : State) (c : Nat) : State :=
  let s := setFlag (setFlag s 0x0F (R.DMA.STAT.BUSY c) false) 0x0F (R.DMA.STAT.WAIT c) false
  { winSet s (17 + c) 0 with dmaHeld := if s.dmaHeld.testBit c then s.dmaHeld - 2 ^ c else s.dmaHeld
                             dmaLeft := storeSet seqDefault s.dmaLeft c 0 }

/-- Off-state checks and the results of MSQ stop while it is disabled (R509). -/
def msqStop (s : State) : State :=
  { s with hsc := s.hsc.filterMap fun e =>
      let c := { e.2 with phase := 0 }
      if c = HscSt.init then none else some (e.1, c) }

/-- The journal lies in another region than before: its units are taken as empty, and an operation of JRN on the old region no longer
counts (R516, notes/assumptions/47). The same region, as after a reset, keeps its units. -/
def jrnApplied (s : State) : State :=
  let a := cfg s 0x99 R.JRN.BASE.ADDR
  let n := cfg s 0x99 R.JRN.CFG.UNITS
  if !cfgOn s 0x99 R.JRN.CFG.EN || (a = s.jrn.base && n = s.jrn.units) then s
  else
    let t := if s.jrn.op.isSome then xspClearBusy s (jrnCs s) else s
    let t := match s.xsp.cmd with | some c => xspSetBusy t c.2 | none => t
    { t with jrn := { JrnSt.init with ring := s.jrn.ring, fetch := s.jrn.fetch, base := a, units := n } }

/-- A change of a channel's OLTH makes its diagnostic result PENDING (R157). -/
def msqApplied (old s : State) : State :=
  (List.range 72).foldl (fun s n =>
    if cfg old 0x1E (R.MSQ.OLTH.THR n) ≠ cfg s 0x1E (R.MSQ.OLTH.THR n) then diagSet s n 0 else s) s

/-- What a block does at its apply edge; `old` is the state before it. -/
def blockApplied (old s : State) (p : Nat) : State :=
  match blkOf p with
  | some (b, p0) =>
    let n := p - p0
    match b with
    | .PROT => manifestShow s
    | .JXR => jxrApplied s
    | .NMG => nmgGate s
    | .CAN => canApplied s n
    | .LIN => linApplied old s n
    | .TBS => tbsRoleChanged s
    | .SWI => swiApplied old s
    | .RFX => rfxFresh s (rfxChanged old s)
    | .HSC => hscApplied old s n
    | .HB => hbApplied old s n
    | .SOL => solApplied s n
    | .SBK => sbkApplied s
    | .MSQ => msqApplied old s
    | .XSP => xspShow s
    | .JRN => jrnApplied s
    | .CLK => s
    | .PMU => setFlag s 0x02 R.CLK.STAT.AONXTAL (cfgOn s 0x01 R.PMU.AONCLK.XTAL)
    | _ => s
  | none => s

/-- PCTL.ENABLE of page `p` has changed (R48, R509). -/
def blockGate (s : State) (p : Nat) : State :=
  let off := blockOff s p
  match blkOf p with
  | some (b, p0) =>
    let n := p - p0
    match b with
    | .CAN => nmgGate (canGate s n)
    | .LIN => linGate s n
    | .NMG => nmgGate s
    | .JXR => nmgGate (jxrRoleChanged s)
    | .TBS => tbsRoleChanged s
    | .IMM => if off then immClear s true else s
    | .LFA => if off && s.imm.phase ≠ 0 then immNext (s.imm.ants.drop 1) 10 (immFieldOff (immUnheard s)) else s
    | .FRMC => if off then frmcDisabled s else s
    | .LST | .LMX | .LCH => consEnable s (p - 0x88)
    | .DMA => if off then (List.range 16).foldl dmaStop s else s
    | .MSQ => if off then msqStop s else s
    | .SWI => if off then s else swiResume s
    | .UPD => if off then distStop s else s
    | _ => s
  | none => s

/-- A commit ends with a result (R45, R541). -/
def commitEnd (s : State) (p res : Nat) : State :=
  let s := setF (setF s p H.CRES res) p H.CST 0
  setFlag { s with pendKind := storeSet seqDefault s.pendKind p 0, cmtClass := storeSet seqDefault s.cmtClass p 0 } p H.CMTDONE true

/-- The edge at which a commit takes effect (R43, R45): the shadow becomes the configuration in force, PEPOCH counts, CFGECC of the
page is released (R543). -/
def applyPage (s : State) (p kind : Nat) : State :=
  let old := s
  let s := { s with applied := storePatch (shadowLo p) (shadowHi p) s.applied s.regs
                    committer := storeSet seqDefault s.committer p kind }
  let e := getF s p H.EPOCH
  let s := setF s p H.EPOCH (if e = 0xFFFF then 1 else e + 1)
  let s := releaseLevel (commitEnd s p 1) (p * 8 + 7)
  touch (blockApplied old s p)

/-- The next check ends: it is refused, applied, or waits for its period or mode (R42, R44, R45). -/
def commitCheckDone (s : State) : State :=
  match s.commits with
  | [] => s
  | (p, kind) :: rest =>
    let s := { s with commits := rest }
    let r := commitCheck s p
    if r.1 ≠ 1 then setF (commitEnd s p r.1) p H.FOFF r.2
    else if commitClass s p = 0 || !enabled s p then applyPage s p kind
    else setF { s with pendKind := storeSet seqDefault s.pendKind p kind } p H.CST 2

/-- The condition of a block for its boundary: a valve in OFF (R205), no valve in BOOST for the converter (09, SBK page). -/
def periodOk (s : State) (p : Nat) : Bool :=
  match blkOf p with
  | some (.SOL, b) => (solGet s (p - b)).phase = .off && !(solGet s (p - b)).deferred
  | some (.SBK, _) => (List.range 16).all fun n => (solGet s n).phase ≠ .boost
  | _ => true

/-- The block's period boundary: a pending PERIOD commit applies (R45). -/
def commitPeriod (s : State) (p : Nat) : State :=
  if periodOk s p && getF s p H.CST = 2 && commitClass s p = 1 then applyPage s p (storeGet seqDefault s.pendKind p) else s

/-- A boundary of page `p` that no tick is falls now: the start of a period of a running generator's group (R106, R171), the frame boundary
of a string, the matrix or a chain port (10, 11). The boundaries on the ticks of PWR come with the ticks (R545). -/
def periodEvent (s : State) (p : Nat) : Bool :=
  match blkOf p with
  | some (.HSC, b) => hscGenMode s (p - b) && grpStart s (cfg s p R.HSC.CFG.FGRP)
  | some (.HB, b) => (hbGet s (p - b)).gen && grpStart s (cfg s p R.HB.CFG.FGRP)
  | some (.LST, b) => frameStarts s (lstFrame s (p - b))
  | some (.LMX, _) => frameStarts s lmxFrameLen
  | some (.LCH, _) => frameStarts s (lchFrameLen (cfg s p R.LCH.CFG.FRATE))
  | _ => false

/-- PERIOD_BOUNDARY_APPLY. -/
def periodBoundary (s : State) (p : Nat) : State := if periodEvent s p then commitPeriod s p else s

/-- A new mode begins: every pending MODE commit applies, in page order (R45). -/
def commitMode (s : State) : State :=
  (s.pendKind.map Prod.fst).foldl (fun s p =>
    if getF s p H.CST = 2 && commitClass s p = 2 then applyPage s p (storeGet seqDefault s.pendKind p) else s) s

/-- A mode begins in which only AON has power: a pending MODE commit of PMU, the one page of AON, applies (R45, R62). -/
def commitSleep (s : State) : State :=
  if getF s 0x01 H.CST = 2 && commitClass s 0x01 = 2 then applyPage s 0x01 (storeGet seqDefault s.pendKind 0x01) else s

/-- A commit in progress is abandoned: CRES = ABORTED, the shadow reloaded (R46). -/
def commitAbort (s : State) (p : Nat) : State :=
  let busy := getF s p H.CST ≠ 0
  let s := shadowReload { s with commits := s.commits.filter fun e => e.1 ≠ p } p
  if busy then commitEnd s p 6 else s

/-! ### PCTL (02 Table 6, R48, R49) -/

/-- Pages whose C2 and C3 reactions are raised to C1 (R493). -/
def reactsC1 (p : Nat) : Bool :=
  p = 0 || p = 1 || p = 3 || p = 4 || p = 5 || p = 6 || p = 0x0E || p = 9 || (decide (0xA0 ≤ p) && decide (p < 0xA4))

/-- An open C3 event has cleared the page's ENABLE (R494), which it does on no page whose reactions are raised to C1 (R493). -/
def enableHeld (s : State) (p : Nat) : Bool :=
  (pageDie p).isNone && !reactsC1 p && s.flt.opened.any fun e => e.1 / 8 = p && decide (3 ≤ e.2)

/-- ENABLE = 1 is refused: PEPOCH = 0 (R48), an open C3 event (R494), a follower's page (R168). -/
def enableRefused (s : State) (p : Nat) : Bool :=
  !configured s p || enableHeld s p || (decide (0x68 ≤ p) && decide (p < 0x74) && hbFollower s (p - 0x68))

/-- ENABLE takes a value: clearing it abandons a commit in progress (R46) and puts the block into its disabled state. -/
def setEnable (s : State) (p : Nat) (v : Bool) : State :=
  if alwaysOn p || enabled s p = v then s
  else
    let s := setFlag s p H.ENABLE v
    let s := if !v && getF s p H.CST ≠ 0 then commitAbort s p else s
    touch (blockGate s p)

/-- A write of PCTL by the holder of the C right; a page that is always enabled takes no ENABLE. -/
def pctlWrite (s : State) (p kind : Nat) (v : Word) : State :=
  let commit := bitOf v 1
  let abort := bitOf v 2
  let en := bitOf v 0
  let change := !alwaysOn p && en ≠ enabled s p
  if (isSet s p H.LOCKED && (commit || abort || change)) || (change && (commit || abort)) || (commit && abort) ||
      (commit && (getF s p H.CST ≠ 0 || (p = 4 && s.flt.wired))) || (change && en && enableRefused s p) then
    werr s p 0x00C
  else
    let s := setF s p H.APPLY (fget v H.APPLY)
    let s := if bitOf v 4 then setFlag s p H.LOCKED true else s
    if commit then
      { setF s p H.CST 1 with commits := s.commits ++ [(p, kind)]
                              cmtClass := storeSet seqDefault s.cmtClass p (fget v H.APPLY) }
    else if abort then commitAbort s p
    else setEnable s p en

/-! ### Header registers as read -/

/-- PSTAT as read: DIRTY and STATE are computed (02 Table 4, R37). -/
def pstatWord (s : State) (p : Nat) : Word :=
  let w := rd s p 0x008
  let dirty : Bool := storeCut (shadowLo p) (shadowHi p) s.regs ≠ storeCut (shadowLo p) (shadowHi p) s.applied
  let st := if alwaysOn p then 2 else if !configured s p then 0 else if enabled s p then 2 else 1
  fset (fset (fset w ⟨8, 4, 4⟩ dirty.toNat) ⟨8, 1, 0⟩ st) ⟨8, 6, 6⟩ (p = 1 && !s.pmuPend.isEmpty : Bool).toNat

/-- PID, PCAP and POWN of a page (02 Tables 2, 3 and 7). -/
def pidWord (p : Nat) : Word :=
  let b := ((blkOf p).map Prod.snd).getD p
  BitVec.ofNat 32 (b * 2 ^ 24 + (p - b) * 2 ^ 16 + 0x100 + p)
def pcapWord (p : Nat) : Word :=
  let c := pageCap p
  BitVec.ofNat 32 (c.rse.toNat * 2 ^ 15 + c.acmode.toNat * 2 ^ 14 + c.acper.toNat * 2 ^ 13 + c.fsrc)

end Sys2Proof.Machine
end

