-- ==== Sys2Proof/Machine/Modes.lean ====
section
/-! DEFINITION. Modes, resets and wakes: what each domain keeps, what happens as a mode begins, and the evaluation of every output
after a change (03; 04, R77 to R79; 06, R127, R128). -/

namespace Sys2Proof.Machine

/-! ### Keep-awake sources and readiness -/

/-- Output page `p` is a STAYON source: commanded on with stay-on set (R101). -/
def stayOn (s : State) (p : Nat) : Bool :=
  let w := (rd s p 0x100).toNat
  match blkOf p with
  | some (.HB, _) =>
    let act := getF s p R.HB.CMD.ACT
    isSet s p R.HB.CMD.STAYON && (act = 1 || act = 2 || act = 5)
  | some (.SOL, _) => isSet s p R.SOL.CMD.ON && isSet s p R.SOL.CMD.STAYON
  | _ => w.testBit 0 && w.testBit 1

/-- The output pages in page order. -/
def outPages : List Nat := (List.range 0x64).map (· + 0x20) ++ [0x88, 0x89, 0x8A, 0x8B, 0x8C, 0x8D, 0x8E, 0x8F, 0x90]

/-- The NM keep-awake source (R425, R509). -/
def nmAwake (s : State) : Bool :=
  let st := nmgState s
  !blockOff s 0x0C && (decide (1 ≤ st) && decide (st ≤ 4))

/-- PMU.KSTAT: the active keep-awake sources (03 Table 6). -/
def kstat (s : State) : Nat :=
  (nmAwake s).toNat + 2 * (isSet s 0x01 R.PMU.KEEP.HOSTKA).toNat + 4 * (isSet s 0x1A R.IMM.STAT.SESS).toNat +
    8 * (outPages.any (stayOn s)).toNat +
    16 * (isSet s 0x07 R.UPD.SRES.BUSY || isSet s 0x07 R.UPD.DSTAT.BUSY).toNat + 32 * (brgKeepAwake s).toNat

/-- A node is ready to sleep (R423). -/
def nodeReady (s : State) : Bool :=
  kstat s / 2 = 0 && !isSet s 0x0C R.NMG.CMD.AWAKE && (s.mode = .run || s.mode = .hold)

/-- The idle count takes the configured time (R65). -/
def idleReload (s : State) : State := setF s 0x01 R.PMU.IDLECNT.CNT (cfg s 0x01 R.PMU.IDLET.TIMEOUT)

/-- The idle timer counts down: in RUN and HOLD while no keep-awake source is active and no Park entry is in progress (R65). -/
def idleRuns (s : State) : Bool := s.park = .none && (s.mode = .run || s.mode = .hold) && kstat s = 0

/-- A keep-awake source that becomes active reloads the idle count (R65), in a Park entry too; those that are active in the quiesce window
are noted for its end (R66). -/
def keepNote (s : State) : State :=
  let ks := kstat s
  let new := (s.mode = .run || s.mode = .hold) && (ks &&& s.wk.kaLast) ≠ ks
  let s := if s.wk.kaLast = ks then s else { s with wk := { s.wk with kaLast := ks } }
  let s := if new then idleReload s else s
  if s.park ≠ .quiesce then s
  else
    let page := if s.wk.kaPage = 0 then (outPages.find? (stayOn s)).getD 0 else s.wk.kaPage
    { s with wk := { s.wk with ka := s.wk.ka ||| ks, kaPage := page } }

/-! ### Evaluation of the outputs -/

/-- NMG starts where it acts and has no state: at the end of boot, and when it or its medium comes up later (R427). -/
def nmgWakes (s : State) : State :=
  if (s.mode = .run || s.mode = .hold || s.mode = .limp) && nmgOn s && nmgMediumUp s && nmgState s = 0 then
    let src := getF s 0x01 R.PMU.WAKESRC.SRC
    nmgStart s (getF s 0x03 R.RST.CAUSE.SRC = 8 && decide (1 ≤ src) && decide (src ≤ 3)) (nodeReady s)
  else s

/-- NMG's readiness or its medium has changed under it (R423, R428). -/
def nmgStale (s : State) : Bool :=
  running s && !busLost s && nmgOn s &&
    (nmgReady s ≠ nodeReady s || ((nmgState s = 1 || nmgState s = 2) && nmgBad s) || (nmgState s = 3 && s.nmg.limpHeard && !nmgBad s))

/-- NMG follows its readiness and its medium (R426 to R428). -/
def nmgFollow (s : State) : State := nmgBusCheck (nmgReadiness s (nodeReady s))

/-- Reflex rules, then every output that they name or that R14 gates. -/
def settleOnce (s : State) : State :=
  let s := rfxEval s
  let s := if holdActNew s then raiseP { s with holdAct := true } 0x1D 0 else s
  let s := (List.range 72).foldl hscUpdate s
  let s := (List.range 12).foldl (fun s n => hbUpdate (hbParkEnd s n) n) s
  let s := (List.range 16).foldl solUpdate s
  let s := sbkStat ((List.range 4).foldl bankUpdate s)
  let s := (List.range 4).foldl lstUpdate s
  (List.range 4).foldl lchUpdate (lmxUpdate s)

/-- Rules and outputs in turn until the terms that follow the outputs' states no longer change the rules, at most `fuel` times
(notes/assumptions/14). -/
def settleRules (s : State) : Nat → State
  | 0 => s
  | k + 1 => let t := settleOnce s; if rfxStale t then settleRules t k else t

/-- Reflex rules and every output, after anything that R14 looks at has changed. SAFE = LAST takes the demand of before the
rules (R116, R177). -/
def settleOutputs (s : State) : State :=
  if !running s then s
  else nmgWakes (settleRules ((List.range 12).foldl hbSafeLatch ((List.range 72).foldl hscSafeLatch s)) 16)

/-! ### What survives -/

/-- Addresses of MRAM and external memory: kept without any supply. -/
def nvAddr (a : Nat) : Bool := (decide (0x10000000 ≤ a) && decide (a < 0x10700000)) || decide (extBase ≤ a)

/-- Addresses of the vault SRAM, zeroised at every reset (R78). -/
def vaultAddr (a : Nat) : Bool := decide (0x30000000 ≤ a) && decide (a < 0x30040000)

/-- Register words held in MRAM: VLT.TCNT, TINFO and TTS (R467), JRN.HEAD, TAIL and TOTAL (R515). -/
def nvReg (k : Nat) : Bool :=
  let p := k / 1024
  let o := k % 1024 * 4
  (p = 0x06 && decide (0x114 ≤ o) && decide (o ≤ 0x11C)) || (p = 0x99 && decide (0x100 ≤ o) && decide (o ≤ 0x108))

/-- Register words held in AON: PMU's live region and PEPOCH, RST.CAUSE, COUNT and STRAP, FLT.RCNT, DEV.MODE, IMM.STAT (R78, R442,
R503). -/
def aonReg (k : Nat) : Bool :=
  let p := k / 1024
  let o := k % 1024 * 4
  (p = 0x01 && (o = 0x010 || (decide (0x100 ≤ o) && decide (o < 0x800)))) ||
    (p = 0x03 && (o = 0x100 || o = 0x104 || o = 0x11C)) || (p = 0x04 && o = 0x114) || (p = 0x00 && o = 0x110) ||
    (p = 0x1A && o = 0x104)

/-- Register words held in PWR retention cells: HB.POS, and HB.STAT for POSVALID (R185). -/
def pwrReg (k : Nat) : Bool :=
  let p := k / 1024
  let o := k % 1024 * 4
  decide (0x68 ≤ p) && decide (p < 0x74) && (o = 0x118 || o = 0x108)

/-- Protection state across a reset that leaves PWR powered: the retention cells and the analogue latches (R127, R134). -/
def protKept (c : Prot) : Prot := { c with slewOff := false }

/-- The device as it is with the supplies that the arguments name still up: OTP, MRAM and external memory always; AON; PWR
retention with SYS and its memories, TBS (R19) and the tick counter of PWR (R545). Everything else is at its reset value. -/
def carried (aon pwr : Bool) (s : State) : State :=
  let r := State.reset
  let v := s.vlt
  let u := s.upd
  let regs := storeKeep (fun k => nvReg k || (aon && aonReg k) || (pwr && pwrReg k)) s.regs
  let t : State :=
    { r with
      mode := s.mode, free := s.free, pending := s.pending, swiPins := s.swiPins, fuseRec := s.fuseRec, spr := s.spr,
      regs := if aon then storePatch (shadowLo 1) (shadowHi 1) regs s.applied else regs,
      applied := if aon then storeCut (shadowLo 1) (shadowHi 1) s.applied else [],
      mem := storeKeep (fun a => nvAddr a || (pwr && !vaultAddr a)) s.mem,
      vlt := { VltSt.init with otp := v.otp, keys := v.keys, clears := v.clears, mark := v.mark, relMark := v.relMark,
                               learned := v.learned, tkid := v.tkid, latch := aon && v.latch },
      upd := { UpdSt.init with state := u.state, conf := u.conf, trial := u.trial, tboots := u.tboots, trun := u.trun,
                               prevv := u.prevv, prevgen := u.prevgen, insthash := u.insthash, rejected := u.rejected,
                               revert := u.revert },
      xsp := { s.xsp with cmd := none },
      jrn := { s.jrn with fetch := false, op := none, buf := [] } }
  let t : State :=
    if aon then
      { setF t 0x07 R.UPD.STAT.LAST (getF s 0x07 R.UPD.STAT.LAST) with
        flt := { r.flt with held := s.flt.held, seq := s.flt.seq, cell := s.flt.cell, level := s.flt.level.filter (· = 15) },
        wk := s.wk, aonCopy := s.aonCopy, aonCopyOk := s.aonCopyOk,
        sbp := { SbpSt.init with limp := s.sbp.limp, recov := s.sbp.recov },
        imm := { ImmSt.init with pollTab := s.imm.pollTab, pollAnt := s.imm.pollAnt, pollIpk := s.imm.pollIpk,
                                 pollTset := s.imm.pollTset, pollTta := s.imm.pollTta, pollIds := s.imm.pollIds,
                                 pollOn := s.imm.pollOn, pollBad := s.imm.pollBad, step := s.imm.step, bursts := s.imm.bursts } }
    else t
  if pwr then
    { t with
      tbs := s.tbs, pwrTick := s.pwrTick, msDone := s.msDone, anaDone := s.anaDone,
      hsc := s.hsc.filterMap fun e =>
        let c := { HscSt.init with prot := protKept e.2.prot, theta := e.2.theta }
        if c = HscSt.init then none else some (e.1, c),
      hb := s.hb.filterMap fun e =>
        let c := { HbSt.init with prot := protKept e.2.prot }
        if c = HbSt.init then none else some (e.1, c),
      sol := s.sol.filterMap fun e =>
        let c := { SolSt.init with prot := protKept e.2.prot, thetaE := e.2.thetaE, slept := e.2.slept }
        if c = SolSt.init then none else some (e.1, c),
      lst := s.lst.filterMap fun e =>
        let c := { LstSt.init with prot := protKept e.2.prot }
        if c = LstSt.init then none else some (e.1, c),
      lmx := { LmxSt.init with prot := protKept s.lmx.prot },
      sbk := { SbkSt.init with latch := s.sbk.latch },
      imm := { t.imm with lfaT := s.imm.lfaT, lfaD := s.imm.lfaD } }
  else t

/-- HB.POS after a reset: POSVALID falls where the bridge was not at standstill; HB.STAT is otherwise at reset (R185). -/
def posKept (old s : State) : State :=
  (List.range 12).foldl (fun s n =>
    let p := 0x68 + n
    let ok := isSet old p R.HB.STAT.POSVALID && isSet old p R.HB.STAT.STILL
    setFlag (wr s p 0x108 (regReset (rkey p 0x108))) p R.HB.STAT.POSVALID ok) s

/-- IMM.STAT after a reset: FAILS and the lock remain (R442). -/
def immKept (old s : State) : State :=
  setFlag (setF (wr s 0x1A 0x104 0) 0x1A R.IMM.STAT.FAILS (getF old 0x1A R.IMM.STAT.FAILS)) 0x1A R.IMM.STAT.ALOCK
    (isSet old 0x1A R.IMM.STAT.ALOCK)

/-- The spares in use are put in place again (R519), and the registers that show MRAM and OTP are loaded. -/
def nvShown (s : State) : State :=
  let s := (List.range 72).foldl (fun s n =>
    if s.spr.segs.testBit n then segPlace s n else s) s
  let s := match s.spr.slice with | some k => setF s 0x1E R.MSQ.STAT.SUBST k | none => s
  let s := setFlag s 0x02 R.CLK.STAT.RCSPARE s.spr.rc.isSome
  let s := setFlag s 0x02 R.CLK.STAT.AONXTAL (cfgOn s 0x01 R.PMU.AONCLK.XTAL)
  let s := setFlag (setFlag s 0x09 R.SBP.STAT.LIMPL s.sbp.limp) 0x09 R.SBP.STAT.RECOVL s.sbp.recov
  let s := setF (setF s 0x1A R.IMM.PSTAT.STEP s.imm.step) 0x1A R.IMM.PSTAT.BURSTS (min 65535 s.imm.bursts)
  vltStat (sprShow (immSlots s))

/-! ### Fuse state across a loss of PWR (R128, R185, 09) -/

/-- The record's bytes, which its CRC-32 covers (R128; their order and widths are the model's, notes/assumptions/87). -/
def FuseRec.bytes (r : FuseRec) : List Byte :=
  r.hsc.flatMap (fun e => natToBytes 8 e.1 ++ natToBytes 1 (2 * e.2.1 + e.2.2.toNat)) ++
    r.pos.flatMap (fun e => natToBytes 4 e.1 ++ natToBytes 1 e.2.toNat) ++ r.sol.flatMap (natToBytes 8) ++ natToBytes 4 r.sec

/-- The record that the fuse engine writes between t1 and t2 of Park entry. -/
def fuseRecord (s : State) : FuseRec :=
  let r : FuseRec :=
    { hsc := (List.range 72).map fun n => let c := hscGet s n; (c.theta, c.prot.rused, c.prot.lockout)
      pos := (List.range 12).map fun n => (getF s (0x68 + n) R.HB.POS.POS, isSet s (0x68 + n) R.HB.STAT.POSVALID)
      sol := (List.range 16).map fun n => (solGet s n).thetaE
      sec := getF s 0x01 R.PMU.RTCSEC.SEC
      crc := 0 }
  { r with crc := crc32 r.bytes }

/-- The record passes its CRC (R128). -/
def FuseRec.good (r : FuseRec) : Bool := r.crc = crc32 r.bytes

/-- PWR powers up in BOOT without valid retention cells: a record is read and invalidated, and restored where it passes its CRC
(R128). τ_B is that of the WIRE in force then; the energy model of a valve decays once its TAU is loaded (DESIGN CHOICE,
notes/assumptions/5). -/
def fuseRestore (s : State) : State :=
  match s.fuseRec with
  | none => s
  | some r =>
    let ds := getF s 0x01 R.PMU.RTCSEC.SEC - r.sec
    let s := { s with fuseRec := none }
    if !r.good then s else
    let s := (List.range 72).foldl (fun s n =>
      match r.hsc[n]? with
      | none => s
      | some (th, used, lock) =>
        let tau := wireB (cfg s (0x20 + n) R.HSC.WIRE.BUNDLE) * wireTau (cfg s (0x20 + n) R.HSC.WIRE.XSEC)
        hscSet s n { hscGet s n with theta := decayed th ds tau,
                                     prot := { Prot.init with rused := used, lockout := lock, tripped := lock } }) s
    let s := (List.range 12).foldl (fun s n =>
      match r.pos[n]? with
      | none => s
      | some (v, ok) => setFlag (setF s (0x68 + n) R.HB.POS.POS v) (0x68 + n) R.HB.STAT.POSVALID ok) s
    (List.range 16).foldl (fun s n =>
      match r.sol[n]? with
      | none => s
      | some e => solSet s n { solGet s n with thetaE := e, slept := ds }) s

/-- Latches and an uncorrectable error of PMU's configuration, which AON keeps, stand across a reset and assert their level sources; a
lockout raises LOCKOUT again (R127, R134, R135, R543). -/
def protAgain (s : State) : State :=
  let one (s : State) (p : Nat) (c : Prot) (bt bd : Nat) : State :=
    let s := if c.latchT then assertLevel s (p * 8 + bt) else s
    let s := if c.latchD then assertLevel s (p * 8 + bd) else s
    if c.lockout then raiseP s p 6 else s
  let s := if s.flt.level.contains 15 then raise s 15 else s
  let s := (List.range 72).foldl (fun s n => one s (0x20 + n) (hscGet s n).prot 2 3) s
  let s := (List.range 12).foldl (fun s n => one s (0x68 + n) (hbGet s n).prot 2 3) s
  let s := (List.range 16).foldl (fun s n => one s (0x74 + n) (solGet s n).prot 2 3) s
  let s := (List.range 4).foldl (fun s n => one s (0x88 + n) (lstGet s n).prot 2 3) s
  let s := one s 0x8C s.lmx.prot 2 3
  let s := if s.sbk.latch then assertLevel s (0x84 * 8 + 4) else s
  let s := if s.imm.lfaT ≠ 0 then assertLevel s (0x1B * 8 + 3) else s
  if s.imm.lfaD ≠ 0 then assertLevel s (0x1B * 8 + 4) else s

/-! ### Modes -/

/-- DEV.MODE, PREV and CAUSE (R62). -/
def modeShow (s : State) (m : Mode) (cause : Nat) : State :=
  let s := setF s 0x00 R.DEV.MODE.PREV (modeCode s.mode)
  { setF (setF s 0x00 R.DEV.MODE.CAUSE cause) 0x00 R.DEV.MODE.MODE (modeCode m) with mode := m }

/-- FLT.SUM.ALIVE: the pin toggles in HOLD and RUN, after a first valid kick, without a kick error or a C4 event (R504). -/
def aliveShow (s : State) : State :=
  setFlag s 0x04 R.FLT.SUM.ALIVE ((s.mode = .hold || s.mode = .run) && s.flt.kicked && !s.flt.aliveStop)

/-- A transition between modes that all have every domain powered (R62): pending MODE commits apply, the idle timer reloads on entry
to RUN or HOLD (R65), HOLD takes a fresh HOLDACT (12), LIMP takes the workers along and clears its latch (R378, R400), leaving RUN and
HOLD ends authorisation (R441). LIMP ends a Park entry, with the horn of a park round (R380, notes/assumptions/40); after t2 the
causeways open again, the converter's status follows and the buses are joined again (R336, R410). -/
def setMode (s : State) (m : Mode) (cause : Nat) : State :=
  let ends := (s.mode = .run || s.mode = .hold) && m ≠ .run && m ≠ .hold
  let round := m = .limp && !s.brg.park.isEmpty
  let closing := s.park = .closing && m ≠ .run
  let s := modeShow { s with park := if m = .run then s.park else .none } m cause
  let s := if closing then
      (List.range 6).foldl linGate ((List.range 4).foldl canGate (sbkStat (jxrRoleChanged s))) else s
  let s := if round then jxrHorn (brgParkEnd s) else s
  let s := if m = .hold then { s with holdAct := false } else s
  let s := if m = .run || m = .hold then idleReload s else s
  let s := commitMode s
  let s := if ends then immClear s false else s
  let s := if m = .limp then brgLimp { s with sbp := { s.sbp with limp := false } } else s
  let s := if m = .limp then setFlag s 0x09 R.SBP.STAT.LIMPL false else s
  touch (raiseLine (aliveShow s) 17)

/-- The device enters BOOT with the given supplies still up: CAUSE, RST.CAUSE, the held fault sources, the latches that stand
(R77 to R79, R127, R241, R544). -/
def enterBoot (s : State) (aon pwr : Bool) (cause src fsid : Nat) : State :=
  let t := carried aon pwr s
  let t := if pwr then posKept s t else fuseRestore t
  let t := if aon then immKept s t else t
  let t := if pwr then setFlag t 0x02 R.CLK.STAT.BUSLOCK (isSet s 0x02 R.CLK.STAT.BUSLOCK) else t
  let t := frmcBoot (nvShown (modeShow t .boot cause))
  let t := setF (setF t 0x03 R.RST.CAUSE.SRC src) 0x03 R.RST.CAUSE.FSID fsid
  let t := if aon && src ≠ 8 then setF t 0x03 R.RST.COUNT.CNT (satInc 65535 (getF s 0x03 R.RST.COUNT.CNT)) else t
  let t := swiTake { t with due := t.flt.held.map fun e => ⟨e.1, false, []⟩ }
  touch (raiseLine (protAgain t) 17)

/-- A reset other than POWERON (R77, R78): a pending MODE commit of PMU, whose page AON keeps powered, applies as BOOT begins (R45, R62;
notes/assumptions/65). -/
def resetDevice (s : State) (src fsid : Nat) : State := enterBoot (commitSleep s) true true 5 src fsid

/-- POWERON: only OTP, MRAM and external memory hold their contents (R78, R530); no position is valid (R185). -/
def powerOn (s : State) : State :=
  (List.range 12).foldl (fun s n => setFlag s (0x68 + n) R.HB.STAT.POSVALID false) (enterBoot { s with mode := .off } false false 0 0 0)

/-- The supply is lost: nothing but OTP, MRAM and external memory remains. -/
def powerLoss (s : State) : State := { modeShow (carried false false s) .off 0 with mode := .off }

/-- t3 of Park entry: SYS, BUS, PWR, RING, HOST and LF power down (R62, R63). -/
def powerDown (s : State) (m : Mode) (cause : Nat) : State := modeShow (immKept s (carried true false s)) m cause

/-- A wake into BOOT (R70): the AON record names it. TBS starts at 0 at every wake, from LISTEN too (R19); what NMG has heard there
stays; the ring PHY is powered and the causeways open (R336, R355). -/
def wakeBoot (s : State) : State :=
  let heard := s.nmg.heard
  let s := enterBoot s true false 1 8 0
  let s := { s with nmg := { s.nmg with heard := heard } }
  jxrRoleChanged { s with jxr := { s.jxr with whorn := getF s 0x01 R.PMU.WAKESRC.SRC ≠ 4 } }

end Sys2Proof.Machine
end

