-- ==== Sys2Proof/Machine/View.lean ====
section
/-! DEFINITION. What a live register reads as: the words that the hardware computes, and the fields that count while the model keeps
no time. -/

namespace Sys2Proof.Machine

/-- EC.STAT of a core (13, EC pages): RP, I and STATE. -/
def coreStat (s : State) (p : Nat) : Word :=
  let c := storeGet (fun _ => CoreSt.init) s.ec (if p = 0xA1 then 0xA0 else p)
  let st := if c.st = 1 && c.wait ≠ .none then 2 else c.st
  BitVec.ofNat 32 (c.rp * 16 + c.i.toNat * 8 + st)

/-- HIRQ is asserted (R394). -/
def hirq (s : State) : Bool := (if blockOff s 0x08 then true else cfgOn s 0x08 R.HPT.CFG.IRQEN) && hostIrqPage s

/-- The status byte of the host port with result `res` (R387). -/
def hptStatus (s : State) (res : Nat) : Nat :=
  128 * (hirq s).toNat + 64 * s.hpt.rbuf.isSome.toNat + 32 * s.hpt.wbusy.toNat + res

/-- The side-band address (R396). -/
def sbpAddr : Nat := 0x58 + Config.sba.toNat

/-- A live register as read, without its side effect. -/
def liveView (s : State) (kind p off : Nat) : Word :=
  match blkOf p with
  | some (.DEV, _) =>
    if off = 0x104 then Config.serial.extractLsb' 0 32
    else if off = 0x108 then Config.serial.extractLsb' 32 32 else rd s p off
  | some (.PMU, _) => if off = 0x104 then BitVec.ofNat 32 (kstat s) else rd s p off
  | some (.HSC, _) => if off = 0x104 || off = 0x108 then rd s p 0x100 else rd s p off
  | some (.BRG, _) =>
    if off = 0x100 then brgWsum s (kstat s)
    else if off = 0x104 || off = 0x108 then rd s p off
    else if jxrRole s = 2 then 0
    else if off = 0x110 then BitVec.ofNat 32 (storeGet (fun _ => 1) s.brg.rdcnt kind)
    else if off = 0x118 then BitVec.ofNat 32 (storeGet seqDefault s.brg.rdtag kind)
    else rd s p off
  | some (.HPT, _) =>
    if off = 0x100 then fset (rd s p off) ⟨0x100, 7, 0⟩ (hptStatus s s.hpt.res)
    else if decide (0x120 ≤ off) && decide (off < 0x140) then
      BitVec.ofNat 32 (((List.range 32).filter fun b =>
        let q := (off - 0x120) / 4 * 32 + b
        decide (q < 0xB0) && pageOwner s q = 4 && pageIrq s q).foldl (fun m b => m + 2 ^ b) 0)
    else rd s p off
  | some (.JXR, _) =>
    -- LOOP, NODES and MAP read zero on a worker (R357)
    if jxrRole s = 2 && (off = 0x114 || off = 0x130 || (decide (0x200 ≤ off) && decide (off < 0x280))) then 0 else rd s p off
  | some (.LMX, _) => if off = 0x104 then fset (rd s p off) R.LMX.STAT.ROW (lmxRow s) else rd s p off
  | some (.LCH, b) => if off = 0x104 then lchShow s (p - b) else rd s p off
  | some (.MSQ, _) => if off = 0x130 then BitVec.ofNat 32 (openWindows s) else rd s p off
  | some (.SBP, _) => if off = 0x100 then fset (rd s p off) R.SBP.STAT.ADDR sbpAddr else rd s p off
  | some (.EC, _) => if off = 0x100 then coreStat s p else rd s (if p = 0xA1 then 0xA0 else p) off
  | _ => rd s p off

/-- The field of a register that counts down while the model keeps no time: the idle count, the delayed-read timer of a slot, the hold
time of a semaphore (R65, R371, R373). -/
def countFld (s : State) (p off : Nat) : Option Fld :=
  if p = 0x01 && off = 0x108 && idleRuns s then some R.PMU.IDLECNT.CNT
  else if p = 0x0A && decide (0x180 ≤ off) && decide (off < 0x1C0) && decide (2 ≤ slotState s ((off - 0x180) / 4)) then
    some (R.BRG.SLOT.DRTLEFT ((off - 0x180) / 4))
  else if p = 0x0A && decide (0x300 ≤ off) && decide (off < 0x400) && isSet s p (R.BRG.SEM.HELD ((off - 0x300) / 4)) then
    some (R.BRG.SEM.LEFT ((off - 0x300) / 4))
  else none

/-- A live register as seen by an initiator of kind `kind` or by FLT for a record, with the state after it: a count has come down since
it was loaded, by how much the commands do not say (notes/assumptions/27). -/
def liveSeen (s : State) (kind p off : Nat) : State × Word :=
  match countFld s p off with
  | some f =>
    let n := getF s p f
    let r := freshNat s n
    let t := if n = 0 then s else setF r.1 p f (r.2 + 1)
    (t, rd t p off)
  | none =>
    let v := liveView s kind p off
    if p = 0x07 && off = 0x104 && s.upd.state = 1 && s.mode = .run then
      -- TRUN has come down by less than the 10 s at which the update record takes it (R484, notes/assumptions/27)
      let r := freshNat s 10
      (r.1, fset v R.UPD.TRUN.SEC (getF s p R.UPD.TRUN.SEC - r.2))
    else (s, v)

end Sys2Proof.Machine
end

