-- ==== Sys2Proof/Machine/Flt.lean ====
section
/-! DEFINITION. Fault collection: classes, escalation, reactions, records, acknowledgement, ALIVE (22). -/

namespace Sys2Proof.Machine

/-- Bits of a block's fault sources wired C0 (22 Table 3): its own protection or a log counts them. -/
def wiredC0 : Blk → Nat
  | .HSC => 0b00101111
  | .HB => 0b00001111
  | .SOL => 0b00101101
  | .SBK => 0b00010000
  | .LST => 0b00001111
  | .LMX => 0b00001100
  | .LFA => 0b00011000
  | .GOV => 0b01100000
  | .MSQ => 0b00000010
  | .EVF => 0b00000011
  | .BRG => 0b01100000
  | .FRMC => 0b00000001
  | .SBP => 0b00000100
  | _ => 0

/-- Bits of a block's fault sources wired C2: LOCKOUT of every output page (22 Table 3). -/
def wiredC2 : Blk → Nat
  | .HSC | .HB | .SOL | .LST | .LMX => 0b01000000
  | _ => 0

/-- Bits of a block's fault sources wired C3, beside CFGECC (22 Table 3). -/
def wiredC3 : Blk → Nat
  | .MSQ => 0b00001101
  | .SBK => 0b00001110
  | .VLT => 0b00001100
  | .FLT => 0b00001100
  | _ => 0

/-- The wired class of source `id` (22 Table 3). -/
def wiredClass (id : Nat) : Nat :=
  let p := id / 8
  let b := id % 8
  if id = 1288 || id = 1283 || id = 1285 || id = 32 || id = 36 then 4
  else
    match blkOf p with
    | none => 1
    | some (k, _) =>
      if b = 7 then (if k = .FLT then 4 else 3)
      else if (wiredC0 k).testBit b then 0
      else if (wiredC2 k).testBit b then 2
      else if (wiredC3 k).testBit b then 3
      else 1

/-- The configured class of source `id`: its nibble of FLT.CLS, or the wired class where that is DEFAULT (R497). -/
def configuredClass (s : State) (id : Nat) : Nat :=
  let c := cfg s 0x04 (R.FLT.CLS.CLS (id / 8) (id % 8))
  if c = 15 then wiredClass id else c

/-- The effective class: one higher where another event of effective class `c` is open and escalation is on (R499). -/
def effectiveClass (s : State) (c : Nat) : Nat :=
  if cfgOn s 0x04 R.FLT.CFG.ESC && decide (1 ≤ c) && decide (c ≤ 4) && s.flt.opened.any (fun e => e.2 = c) then c + 1 else c

/-- The source is asserted: by its condition or by PFORCE (R543, R55). -/
def asserted (s : State) (id : Nat) : Bool :=
  s.flt.level.contains id || ((getF s (id / 8) H.PFORCE).testBit (id % 8) && (pageCap (id / 8)).fsrc.testBit (id % 8))

/-- FLT.SUM.NOPEN, HICLS and the OPEN bits follow the open sources (R500, 22 Table 8). -/
def fltSummary (s : State) : State :=
  let l := s.flt.opened
  let hi := l.foldl (fun m e => if m = 15 then e.2 else max m e.2) 15
  setF (setF s 0x04 R.FLT.SUM.NOPEN (min 255 l.length)) 0x04 R.FLT.SUM.HICLS hi

/-- Source `id` opens at class `c`, or takes the higher class (R500). -/
def openSource (s : State) (id c : Nat) : State :=
  let old := storeGet (fun _ => 15) s.flt.opened id
  let new := if old = 15 then c else max old c
  let s := { s with flt := { s.flt with opened := storeSet (fun _ => 15) s.flt.opened id new } }
  let w := rd s 0x04 (0x200 + 4 * (id / 32))
  let s := wr s 0x04 (0x200 + 4 * (id / 32)) (setBit w (id % 32) true)
  if decide (2 ≤ c) then touch (fltSummary s) else fltSummary s

/-- Source `id` leaves the open ones and gives up its share of SAFE values (R494, R501). -/
def closeSource (s : State) (id : Nat) : State :=
  let s := { s with flt := { s.flt with opened := storeSet (fun _ => 15) s.flt.opened id 15 } }
  let w := rd s 0x04 (0x200 + 4 * (id / 32))
  touch (fltSummary (wr s 0x04 (0x200 + 4 * (id / 32)) (setBit w (id % 32) false)))

/-- The words that bytes spell, least significant byte first, `n` of them. -/
def bytesWords : Nat → List Byte → List Word
  | 0, _ => []
  | n + 1, bs => BitVec.ofNat 32 (bytesToNat (bs.take 4)) :: bytesWords n (bs.drop 4)

/-- The first six live words of page `p` as its owner would read them, without a side effect of the reads (22 Table 6,
notes/assumptions/84). -/
def sixLive (s : State) (p : Nat) : State × List Byte :=
  (List.range 6).foldl (fun r i =>
    let q := liveSeen r.1 (pageOwner s p) p (0x100 + 4 * i)
    (q.1, r.2 ++ natToBytes 4 q.2.toNat)) (s, [])

/-- DETAIL of a record: the bytes the source's chapter states, else PFLT, PSTAT and the first six live words (22 Table 6). -/
def recordDetail (s : State) (p : Nat) (det : List Byte) : State × List Byte :=
  if det.isEmpty then
    let r := sixLive s p
    (r.1, natToBytes 4 (rd s p 0x018).toNat ++ natToBytes 4 (pstatWord s p).toNat ++ r.2)
  else (s, (det ++ List.replicate 32 0).take 32)

/-- The 64 bytes of a fault record with the DETAIL `det` (22 Table 6). -/
def recordBytes (s : State) (id cls eff flags rtc : Nat) (det : List Byte) : List Byte :=
  let body := natToBytes 4 (s.flt.seq + 1) ++ natToBytes 2 id ++ natToBytes 1 (cls * 16 + eff) ++ natToBytes 1 flags ++
    natToBytes 8 s.tbs ++ natToBytes 4 rtc ++
    natToBytes 1 (modeCode s.mode + 16 * getF s 0 R.DEV.MODE.PREV) ++ [0] ++ natToBytes 2 (min 65535 s.flt.dropped) ++
    det ++ natToBytes 4 0
  body ++ natToBytes 4 (crc32 body).toNat

/-- A record: FLT.LAST, EV31, and the queue to JRN, which NEWCNT counts; a full queue drops it (R506). -/
def putRecord (s : State) (ws : List Word) : State :=
  let f := s.flt
  let s := (List.range 16).foldl (fun s i => wr s 0x04 (0x140 + 4 * i) (ws.getD i 0)) s
  let s :=
    if decide (32 ≤ f.queue.length) then
      let s := setF s 0x04 R.FLT.DROP.CNT (satInc 65535 (getF s 0x04 R.FLT.DROP.CNT))
      let s := { s with flt := { f with seq := (f.seq + 1) % 2 ^ 32, dropped := f.dropped + 1 } }
      -- a dropped record of RECDROP itself raises no further one
      if (ws.getD 1 0).toNat % 65536 = 37 then s else raiseP s 0x04 5
    else
      setF { s with flt := { f with seq := (f.seq + 1) % 2 ^ 32, dropped := 0, queue := f.queue ++ [ws] } } 0x04 R.FLT.NEWCNT.CNT
        (satInc 65535 (getF s 0x04 R.FLT.NEWCNT.CNT))
  raiseLine s 31

/-- ALIVE stops until the next reset (R504). -/
def stopAlive (s : State) : State :=
  setFlag { s with flt := { s.flt with aliveStop := true } } 0x04 R.FLT.SUM.ALIVE false

/-- Frequency of the square wave on the ALIVE pin, in Hz; 0: the pin is held low (R504, 22 Table 5). -/
def aliveHz (s : State) : Nat := if isSet s 0x04 R.FLT.SUM.ALIVE then 250 * 2 ^ cfg s 0x04 R.FLT.CFG.AFREQ else 0

/-- The device enters LIMP for a fault, from RUN and HOLD (R493, R495). -/
def faultLimp (s : State) : State :=
  if s.mode = .run || s.mode = .hold then setMode s .limp 4 else s

/-- FLT's own configuration is replaced by the reset values, which releases its level; no commit is taken until the next reset, and
one that is being checked or waits is abandoned (R502, R543, notes/assumptions/84). -/
def fltToReset (s : State) : State :=
  let s := releaseLevel
    { s with applied := storeKeep (fun k => decide (k < 0x04 * 1024) || decide (0x05 * 1024 ≤ k)) s.applied
             flt := { s.flt with wired := true } } 39
  if getF s 0x04 H.CST = 0 then s else commitAbort s 0x04

/-- Collection of one asserted source: its flag, class, record and reaction (R493 to R506, R544). -/
def collect (s : State) (d : Due) : State :=
  let id := d.id
  let p := id / 8
  let b := id % 8
  if !(pageCap p).fsrc.testBit b then s
  else if !running s then
    -- R544: held in AON, with the seconds of the first occurrence
    if s.mode = .off || storeGet (fun _ => 0) s.flt.held id ≠ 0 then s
    else { s with flt := { s.flt with
             held := storeSet (fun _ => 0) s.flt.held id (getF s 0x01 R.PMU.RTCSEC.SEC + 1) } }
  else
    let rtc := let h := storeGet (fun _ => 0) s.flt.held id
               if h ≠ 0 then h - 1 else getF s 0x01 R.PMU.RTCSEC.SEC
    let s := { s with flt := { s.flt with held := storeSet (fun _ => 0) s.flt.held id 0 } }
    let s := setF s p H.PFLT (getF s p H.PFLT ||| 2 ^ b)
    let forced := if d.forced then 1 else 0
    let seen := recordDetail s p d.detail
    let s := seen.1
    if id = 39 then
      let ws := bytesWords 16 (recordBytes s 39 4 4 (forced + 8) rtc seen.2)
      let s := faultLimp (openSource (stopAlive s) 39 4)
      touch (putRecord (fltToReset s) ws)
    else
      let c := configuredClass s id
      let e := effectiveClass s c
      let rlim := cfg s 0x04 R.FLT.CFG.RLIM
      let esc := if e ≠ c then 2 else 0
      let limited := e = 5 && rlim ≠ 0 && getF s 0x04 R.FLT.RCNT.CNT = rlim
      let s := if limited then setFlag s 0x04 R.FLT.SUM.RLIMHIT true else s
      let e := if limited then 4 else e
      let ws := bytesWords 16 (recordBytes s id c e (forced + esc) rtc seen.2)
      let s := putRecord s ws
      let s := if e = 0 then s else openSource s id e
      let s := if decide (3 ≤ e) && (pageDie p).isNone && !reactsC1 p && !(s.mode = .limp && e = 4)
        then setEnable s p false else s
      if decide (e < 4) then s
      else
        let s := faultLimp (stopAlive s)
        if e = 5 then
          let s := { s with flt := { s.flt with cell := ws } }
          let n := min 7 (getF s 0x04 R.FLT.RCNT.CNT + 1)
          setF (resetDevice s 4 id) 0x04 R.FLT.RCNT.CNT n
        else s

/-- The oldest waiting record crosses to JRN, which stages it (R506); the crossing stands while the SYS clock does (R26). -/
def recordOut (s : State) : Option State :=
  match s.flt.queue with
  | [] => none
  | ws :: rest =>
    if s.flt.level.contains 32 || !running s then none else some (jrnStage { s with flt := { s.flt with queue := rest } } ws)

/-- Everything that follows within the command: the asserted sources are collected one after the other, then the reflex rules
and the outputs are evaluated again, the records go to JRN, and NMG follows its readiness and its medium, until nothing is due. -/
def finishN : Nat → State → State
  | 0, s => s
  | n + 1, s =>
    match s.due with
    | d :: ds => finishN n (collect { s with due := ds } d)
    | [] =>
      if s.dirty then finishN n (settleOutputs { s with dirty := false })
      else match recordOut s with
        | some t => finishN n t
        | none =>
          if nmgStale s then finishN n (nmgFollow s) else s

/-- A source takes its place by its ID among those of one clock. -/
def dueInsert (d : Due) : List Due → List Due
  | [] => [d]
  | e :: l => if d.id < e.id then d :: e :: l else e :: dueInsert d l

/-- The sources that a command asserts at one time, lowest ID first (R499). -/
def dueSort (l : List Due) : List Due := l.foldl (fun a d => dueInsert d a) []

/-- `finishN` with fuel for every source a command can assert (notes/assumptions/15). -/
def finish (s : State) : State := keepNote (finishN 4096 { s with due := dueSort s.due })

/-! ### Acknowledgement, kicks and the count of C5 resets -/

/-- Acknowledgement of source `id`: taken only if open and no longer asserted (R501). -/
def fltAckOne (s : State) (id : Nat) : State :=
  if storeGet (fun _ => 15) s.flt.opened id = 15 then setF s 0x04 R.FLT.SUM.ACKRES 1
  else if asserted s id then setF s 0x04 R.FLT.SUM.ACKRES 2
  else setF (closeSource s id) 0x04 R.FLT.SUM.ACKRES 0

/-- ID 0x7FF: every source that may be acknowledged, in one clock (R501). -/
def fltAckAll (s : State) : State :=
  let l := s.flt.opened.map Prod.fst
  let ok := l.filter fun id => !asserted s id
  let res := if !ok.isEmpty then 0 else if l.any (asserted s) then 2 else 1
  setF (ok.foldl closeSource s) 0x04 R.FLT.SUM.ACKRES res

/-- A write of FLT.ACK: another KEY is rejected with WERR (R501). -/
def fltAck (s : State) (v : Word) : State :=
  if fget v R.FLT.ACK.KEY ≠ 0x3C then werr s 0x04 0x104
  else if fget v R.FLT.ACK.ID = 0x7FF then fltAckAll s else fltAckOne s (fget v R.FLT.ACK.ID)

/-- A kick error: AKICK is raised once, ALIVE stops, kicks are no longer checked (R505). -/
def kickError (s : State) : State :=
  raiseP (stopAlive { s with flt := { s.flt with kickOff := true } }) 0x04 4

/-- A kick of the pair, `dt` (0.1 ms) after the previous kick or after the window opened (R505). In BOOT, LIMP and below it is
ignored. -/
def fltKick (s : State) (key dt : Nat) : State :=
  if (s.mode ≠ .hold && s.mode ≠ .run) || s.flt.kickOff then s
  else
    let want := if s.flt.nextA5 then 0xA5 else 0x5A
    let early := s.flt.kicked && decide (dt < cfg s 0x04 R.FLT.AWIN.TMIN)
    if key ≠ want || early || decide (cfg s 0x04 R.FLT.AWIN.TMAX < dt) then kickError s
    else
      let s := { s with flt := { s.flt with kicked := true, nextA5 := !s.flt.nextA5 } }
      setFlag s 0x04 R.FLT.SUM.ALIVE (!s.flt.aliveStop)

/-- No kick by TMAX (R505). -/
def kickTimeout (s : State) : State :=
  if (s.mode = .hold || s.mode = .run) && !s.flt.kickOff then kickError s else s

end Sys2Proof.Machine
end

