-- ==== Sys2Proof/Machine/Trips.lean ====
section
/-! DEFINITION. Trip and latch events of the protected outputs, restart, retry and lockout (06, R136 to R143; 08, R181; 09, R212;
10, R233, R239), and the 100 µs tick of the fuse engine (R123 to R130). -/

namespace Sys2Proof.Machine

/-! ### The outputs with the protection of 06 -/

/-- The output that owns the retry state: a paired bridge is one channel, the primary's (R181). -/
def protOwner (s : State) : ProtOut → ProtOut
  | .hb n => if hbPair s n ≠ 0 then .hb ⟨n.val - n.val % 2, by omega⟩ else .hb n
  | o => o

/-- Page of a protected output. -/
def protPage : ProtOut → Nat
  | .hsc n => 0x20 + n.val | .hb n => 0x68 + n.val | .sol n => 0x74 + n.val | .sbk => 0x84 | .lst n => 0x88 + n.val
  | .lmx => 0x8C | .lfa _ => 0x1B

/-- Retry state of an output with retries; SBK and LFA have none. -/
def protGet (s : State) : ProtOut → Prot
  | .hsc n => (hscGet s n).prot | .hb n => (hbGet s n).prot | .sol n => (solGet s n).prot | .lst n => (lstGet s n).prot
  | .lmx => s.lmx.prot | _ => Prot.init

/-- The retry state replaced. -/
def protSet (s : State) (o : ProtOut) (c : Prot) : State :=
  match o with
  | .hsc n => hscSet s n { hscGet s n with prot := c }
  | .hb n => hbSet s n { hbGet s n with prot := c }
  | .sol n => solSet s n { solGet s n with prot := c }
  | .lst n => lstSet s n { lstGet s n with prot := c }
  | .lmx => { s with lmx := { s.lmx with prot := c } }
  | _ => s

/-- Retries allowed (R139). -/
def protRetry (s : State) (o : ProtOut) : Nat :=
  let p := protPage o
  match o with
  | .hsc _ => cfg s p R.HSC.WIRE.RETRY | .hb _ => cfg s p R.HB.PROT.RETRY | .sol _ => cfg s p R.SOL.PROT.RETRY
  | .lst _ => cfg s p R.LST.PROT.RETRY | .lmx => cfg s p R.LMX.PROT.RETRY | _ => 0

/-- The output after anything that R14 looks at has changed. -/
def protUpdate (s : State) : ProtOut → State
  | .hsc n => hscUpdate s n | .hb n => hbUpdate s n | .sol n => bankUpdate (solUpdate s n) (solBank n)
  | .lst n => lstUpdate s n | .lmx => lmxUpdate s | .sbk => sbkStat s | .lfa _ => s

/-- The bits of the page's fault sources that are trip events (R136, R181, R212, R233). -/
def protTripBits : ProtOut → List Nat
  | .hsc _ => [0, 1, 5] | .hb _ => [0, 1] | .sol _ => [0, 5] | .lst _ => [0, 1] | _ => []

/-- The halves that an output's switches belong to: both of a pair (R180). -/
def protHalves (s : State) : ProtOut → List ProtOut
  | .hb n => (hbHalves s n).map fun m => .hb (Fin.ofNat 12 m)
  | o => [o]

/-- A latch of the output holds, or of either half of its pair (R134, R135, R180). -/
def protLatched (s : State) (o : ProtOut) : Bool := (protHalves s o).any fun h => (protGet s h).latchT || (protGet s h).latchD

/-- PFORCE of the output's page, or of both pages of a pair (R15, R55). -/
def protForce (s : State) (o : ProtOut) : Nat := (protHalves s o).foldl (fun m h => m ||| getF s (protPage h) H.PFORCE) 0

/-- Every protection source of the page: while PFORCE holds one, the output may not conduct (R15, R55). -/
def protMask (o : ProtOut) : Nat :=
  match o with
  | .hsc _ => 0x6F | .hb _ => 0x4F | .sol _ => 0x6D | .lst _ => 0x4F | .lmx => 0x4C | _ => 0

/-- A trip turns off under the configured slew: FUSE and CHGTO of a channel, STALL of a bridge (R137). -/
def protSlew (o : ProtOut) (b : Nat) : Bool :=
  match o with | .hsc _ => b ≠ 0 | .hb _ => b = 1 | _ => false

/-- An event of R136 has begun: lockout where RUSED has reached RETRY, else the restart delay; the channel's inrush
window ends, its diagnostic result is UNAVAIL (R130, R137, R139, R157). Only a gate that conducts has a slew-controlled turn-off. -/
def protEvent (s : State) (o : ProtOut) (slew : Bool) : State :=
  let c := protGet s o
  let lock := decide (protRetry s o ≤ c.rused)
  let s := protSet s o { c with lockout := c.lockout || lock, tripped := true, rdly := true, slewOff := slew && !c.tripped }
  let s := match o with
    | .hsc n => diagSet (hscSet s n { hscGet s n with window := false, wlast := false, onFirst := true, phase := 0 }) n 4
    | .sol n => bankUnqueue s n
    | _ => s
  let s := if lock && !c.lockout then raiseP s (protPage o) 6 else s
  touch (protUpdate s o)

/-- An event of output `o` begins. One that comes during a slew-controlled turn-off is no new event and makes the turn-off a full-current
one; whether the driver has reported the gate discharged by then is a free value (R142, notes/assumptions/16), until the restart delay
ends, which outlasts every turn-off. -/
def protNew (s : State) (o : ProtOut) (slew : Bool) : State :=
  let c := protGet s o
  if !c.slewOff then protEvent s o slew
  else
    let r := freshNat s 2
    if r.2 = 0 then protEvent r.1 o slew else touch (protUpdate (protSet r.1 o { c with slewOff := false }) o)

/-- A trip event with source bit `b` (R136, R137). -/
def protTrip (s : State) (o : ProtOut) (b : Nat) (det : List Byte) : State :=
  let o := protOwner s o
  protNew (raiseDetail s (protPage o * 8 + b) det) o (protSlew o b)

/-- A latch event: bit `b` 2 TLATCH or 3 DTEMP; a second one while the first holds is no new event (R134 to R136). Each half of a pair
keeps the latch of its own sensor, and the latch of either holds the pair (R180). -/
def protLatch (s : State) (o : ProtOut) (b : Nat) : State :=
  let was := protLatched s o || (protForce s o &&& 0x0C) ≠ 0
  let c := protGet s o
  let s := protSet s o (if b = 2 then { c with latchT := true } else { c with latchD := true })
  let s := assertLevel s (protPage o * 8 + b)
  let o := protOwner s o
  if was then protUpdate s o else protNew s o false

/-- The release of a latch (R134, R135). -/
def protRelease (s : State) (o : ProtOut) (b : Nat) : State :=
  let c := protGet s o
  let s := protSet s o (if b = 2 then { c with latchT := false } else { c with latchD := false })
  touch (protUpdate (releaseLevel s (protPage o * 8 + b)) (protOwner s o))

/-- The LOCKOUT flag of the output's page is cleared: the lockout ends and RUSED returns to 0; a channel's result is PENDING (R141,
R157). A pair's lockout ends with the flag of its primary (R181). -/
def protUnlock (s : State) (o0 : ProtOut) : State :=
  let o := protOwner s o0
  let c := protGet s o
  if !c.lockout || (getF s (protPage o) H.PFLT).testBit 6 then s
  else
    let s := protSet s o { c with lockout := false, rused := 0 }
    let s := match o with | .hsc n => diagSet s n 0 | _ => s
    touch (protUpdate s o)

/-- The rising PFORCE bits `rise` create the events that their sources stand for, all of one write being one event (R136, R141, R142);
`old` is PFORCE before the write. A latch that holds already, forced or not, makes it no new event. -/
def protForced (s : State) (o0 : ProtOut) (old : Nat) (rise : List Nat) : State :=
  let o := protOwner s o0
  let trips := (protTripBits o).filter rise.contains
  let latch := (rise.contains 2 || rise.contains 3) && !protLatched s o0 && (old &&& 0x0C) = 0
  let s := if !trips.isEmpty || latch then protNew s o (!latch && trips.all (protSlew o)) else s
  let s := if rise.contains 6 then protSet s o { protGet s o with lockout := true, tripped := true } else s
  touch (protUpdate s o)

/-- There is demand, and the mode and the governor permit it (R138); a valve that would ignore it does not restart (R216). -/
def protWanted (s : State) (o : ProtOut) : Bool :=
  match o with
  | .hsc n => let d := hscDemand s n; d.1 ≠ .none && modePermits s d.2 && !shed s n
  | .hb n => let d := hbDemand s n; d.1 ≠ 0 && modePermits s d.2.2 && !shed s (72 + n)
  | .sol n => let d := solDemand s n; d.1 && modePermits s d.2 && !shed s (84 + n) && !solRefuses s n
  | .lst n => let d := lstDemand s n; d.1 && modePermits s d.2.2 && !shed s (100 + n)
  | .lmx => let d := lmxDemand s; d.1 && modePermits s d.2 && !shed s 104
  | _ => false

/-- Every condition of R138 but the demand holds. -/
def protReady (s : State) (o : ProtOut) : Bool :=
  let c := protGet s o
  let cool := match o with | .hsc n => decide (2 * (hscGet s n).theta ≤ thetaTrip s n) | _ => true
  c.tripped && !protLatched s o && !c.rdly && !c.lockout && cool && (protForce s o &&& protMask o) = 0

/-- A restart: one retry is consumed (R139). -/
def protStart (s : State) (o : ProtOut) : State :=
  let c := protGet s o
  let s := protSet s o { c with tripped := false, slewOff := false, rused := satInc 15 c.rused }
  let s := protUpdate s o
  touch (match o with | .hsc n => diagSet s n 0 | _ => s)

/-- The restart of an output with demand (R138). -/
def protRestart (s : State) (o0 : ProtOut) : State :=
  let o := protOwner s o0
  if protReady s o && protWanted s o then protStart s o else s

/-- A write of SOL.CMD on a valve whose restart is due: a TRIG is the new command that restarts it (R138, R202, R212). -/
def solCommand (s : State) (n : Fin 16) (v : Word) : State :=
  let due := solTrigOpen s n v && protReady s (.sol n)
  solCmd (if due then protStart s (.sol n) else s) n v

/-- The restart delay elapses (R137). -/
def protDelayEnd (s : State) (o0 : ProtOut) : State :=
  let o := protOwner s o0
  let c := protGet s o
  if c.rdly then touch (protUpdate (protSet s o { c with rdly := false, slewOff := false }) o) else s

/-- Ten seconds of conduction without an event: RUSED returns to 0 (R140). -/
def protRetryClear (s : State) (o0 : ProtOut) : State :=
  let o := protOwner s o0
  let c := protGet s o
  if c.tripped || c.lockout then s else protUpdate (protSet s o { c with rused := 0 }) o

/-! ### Latches of the converter and of the antenna drivers -/

/-- The converter's latch: it stops until release (09 Table 8). -/
def sbkLatch (s : State) (v : Bool) : State :=
  let s := { s with sbk := { s.sbk with latch := v } }
  let s := if v then assertLevel s (0x84 * 8 + 4) else releaseLevel s (0x84 * 8 + 4)
  touch (sbkStat s)

/-! ### The fuse engine -/

/-- DETAIL of the record of a FUSE event (R144). -/
def fuseDetail (s : State) (n theta qs stage : Nat) : List Byte :=
  natToBytes 4 (theta / 2 ^ 40) ++ natToBytes 4 (thetaTrip s n / 2 ^ 40) ++ natToBytes 4 (qs * 1024 / (8000 * 10 ^ 6)) ++
    natToBytes 2 (taCode s) ++ natToBytes 1 stage ++ List.replicate 17 0

/-- Σ I² c of the protection samples of a tick, in mA² × clocks, and the latest code (R123). A part has at most 1,600 clocks; one shorter
than 2 µs, and every part while the slice is dead, uses the latest sample; the parts fill at most the 8,000 clocks of the tick, and all
of them where the gate is on throughout (`full`), the latest sample standing for a part that brings none; a code above full scale reads
as full scale. -/
def sampleQ (n : Nat) (dead full : Bool) (last : Nat) (l : List (BitVec 12 × Nat)) : Nat × Nat :=
  let r := l.foldl (fun (a : Nat × Nat × Nat) x =>
    let c := min (min x.2 1600) (8000 - a.2.2)
    let code := if dead || decide (x.2 < 160) then a.2.1 else x.1.toNat
    (a.1 + (code * hscProtLsb n) ^ 2 * c, code, a.2.2 + c)) (0, last, 0)
  (r.1 + (if full then (r.2.1 * hscProtLsb n) ^ 2 * (8000 - r.2.2) else 0), r.2.1)

/-- One 100 µs tick of the fuse engine on channel `n` (R123 to R125, R129, R130): a gate that was off throughout contributes nothing and
never trips. Where both stages trip, the record names the wire model (DESIGN CHOICE, notes/assumptions/87). -/
def hscTick (s : State) (n : Fin 72) (l : List (BitVec 12 × Nat)) : State :=
  let p := hscPage n
  let c := hscGet s n
  let gate := hscGate s n
  let ran := c.ran || gate
  let q := if ran then sampleQ n (!msqFresh s .protSense) (gate && !c.edge) c.lastProt l else (0, c.lastProt)
  let th := thetaNext s n q.1 c.theta
  let m := if c.window || c.wlast then (inrush (cfg s p R.HSC.WIRE.INRA)).2 else 1
  let ovc := if decide (iovSq s n m * 8000 < q.1) then c.ovc + 1 else 0
  let tau : Int := (10 * 4 ^ cfg s p R.HSC.CFG.CTAU : Nat)
  let vf : Int := (hscVf s n : Int) + (((hscVdie s n * 65536 : Nat) : Int) - (hscVf s n : Int)) / tau
  let wire := decide (thetaTrip s n ≤ th) && ran
  let trips := wire || decide (10 ≤ ovc)
  let s := hscSet s n { c with theta := th, ovc := ovc, edge := false,
                               offTicks := if gate then 0 else min 1000 (c.offTicks + 1), ran := gate && !trips, vf := vf.toNat,
                               wlast := false, qAcc := c.qAcc + q.1, lastProt := q.2 }
  if trips then protTrip s (.hsc n) 1 (fuseDetail s n th q.1 (!wire).toNat) else s

/-- One tick on bridge `n`: the supply filter of its compensation takes the sample of die B (R173). -/
def hbTick (s : State) (n : Nat) : State :=
  let c := hbGet s n
  let vf : Int := (c.vf : Int) + (((hbVdie s * 65536 : Nat) : Int) - (c.vf : Int)) / 40
  if c.gen then hbSet s n { c with vf := vf.toNat } else s

/-- The latest codes of the sequencer that the tick brings: voltages, temperatures, currents, supplies (07 Table 1); a slice that has
failed, and for which the spare does not stand in, brings none (R147). -/
def tickSamples (s : State) (m : TickSamples) : State :=
  let s := m.vout.foldl (fun s e =>
    let n := e.1.val
    if n < 72 then
      (if msqFresh s .hscVout then setFlag (setF s (0x20 + n) R.HSC.VOUT.CODE e.2.toNat) (0x20 + n) R.HSC.VOUT.VALID true else s)
    else setF s (0x68 + (n - 72)) R.HB.VOUT.CODE e.2.toNat) s
  let s := (if msqFresh s .temperature then m.temp else []).foldl (fun s e =>
    let o := e.1.val
    if o < 72 then setF s (outPage o) R.HSC.TEMP.CODE e.2.toNat
    else if o < 84 then setF s (outPage o) R.HB.TEMP.CODE e.2.toNat
    else if o < 100 then setF s (outPage o) R.SOL.TEMP.CODE e.2.toNat
    else if o < 104 then setF s (outPage o) R.LST.TEMP.CODE e.2.toNat else s) s
  let s := (if msqFresh s .hbCurrent then m.hbi else []).foldl (fun s e =>
    let p := 0x68 + e.1.val
    setFlag (setFlag (setF s p R.HB.IMEAS.CODE e.2.2.toNat) p R.HB.IMEAS.NEG e.2.1) p R.HB.IMEAS.VALID true) s
  let s := (if msqFresh s .led then m.lst else []).foldl (fun s e =>
    let p := 0x88 + e.1.val
    let s := setFlag (setF s p R.LST.IMEAS.CODE e.2.1.toNat) p R.LST.IMEAS.VALID true
    setFlag (setF s p R.LST.VOUT.CODE e.2.2.toNat) p R.LST.VOUT.VALID true) s
  let s :=
    if !msqFresh s .supply then s
    else
      let s := (List.range 4).foldl (fun s d => setF s 0x1E (R.MSQ.VDIE.CODE d) (m.vdie.getD d 0).toNat) s
      setF (setF s 0x1E R.MSQ.VBAT.CODE m.vbat.toNat) 0x84 R.SBK.BSTAT.VBST m.vbst.toNat
  setFlag s 0x84 R.SBK.BSTAT.ILIMACT m.bstLim

/-- VOUT of a string is at or above OVP: a trip (R233). -/
def lstOver (s : State) (n : Fin 4) (vout : Nat) : State :=
  let s := setFlag (setF s (lstPage n) R.LST.VOUT.CODE vout) (lstPage n) R.LST.VOUT.VALID true
  if decide (cfg s (lstPage n) R.LST.OVP.OVP ≤ vout) then protTrip s (.lst n) 1 [] else s

/-- The voltages of the strings in the samples of a tick: one whose converter runs trips at OVP (R233). -/
def lstSampled (s : State) (n : Fin 4) : State :=
  if (lstGet s n).phase = 0 || !isSet s (lstPage n) R.LST.VOUT.VALID then s else lstOver s n (getF s (lstPage n) R.LST.VOUT.CODE)

/-- The tick counter of PWR counts; the work of the 1 ms tick is open again in the next one (R545). -/
def tickCount (s : State) : State :=
  { s with pwrTick := s.pwrTick + 1, msDone := if s.pwrTick % 10 = 0 then s.msDone else 0, anaDone := 0 }

/-- The 1 ms work of bit `b` falls on this tick, the first of ten, and has not been done (R545): the T_A refresh (0), the governor's
tick (1). It may come before or after the fuse engine's part of the tick (notes/assumptions/83). -/
def msTick (s : State) (b : Nat) : Bool := decide (s.pwrTick % 10 < 2) && !s.msDone.testBit b

/-- That work is done in this tick. -/
def msMark (s : State) (b : Nat) : State := { s with msDone := s.msDone ||| 2 ^ b }

/-- The 100 µs tick is the period boundary of page `p`: STATIC and CAP channels and those whose generator does not run (R106), idle
bridges (R171), SWI, SOL and SBK (R545). -/
def tickBoundary (s : State) (p : Nat) : Bool :=
  match blkOf p with
  | some (.HSC, b) => !hscGenMode s (p - b)
  | some (.HB, b) => !(hbGet s (p - b)).gen
  | some (.SWI, _) | some (.SOL, _) | some (.SBK, _) => true
  | _ => false

/-- Pending PERIOD commits apply where their boundary falls on this tick, in page order (R45, R545). -/
def tickCommits (s : State) : State :=
  (s.pendKind.map Prod.fst).foldl (fun s p => if tickBoundary s p then commitPeriod s p else s) s

/-- One 100 µs tick (R124, R545): the sequencer's codes, the samples of channels that are statically on (R149), every channel's fuse
engine, and the PERIOD commits that the tick applies. -/
def fuseTick (s : State) (m : TickSamples) : State :=
  if !running s then s
  else
    let s := (m.lst.map Prod.fst).foldl lstSampled (tickSamples (tickCount (setNow s m.now.toNat)) m)
    let s := m.imeas.foldl (fun s e =>
      if (hscGet s e.1).gen || !hscGate s e.1 then s else hscSample s e.1 0 e.2.1 e.2.2) s
    let s := (List.finRange 72).foldl (fun s n => hscTick s n ((m.prot.find? fun e => e.1 = n).map Prod.snd |>.getD [])) s
    tickCommits ((List.range 12).foldl hbTick s)

/-! ### Diagnostics that the sequencer times (07) -/

/-- No check starts or runs (R153). -/
def offCheckBarred (s : State) (n : Nat) : Bool :=
  let st := hscStateCode s n
  let v := hscVf s n * 15
  blockOff s 0x1E || hscGate s n || (decide (4 ≤ st) && decide (st ≤ 6)) || decide (v < 6000 * 65536) ||
    (hscMode s n = 3 && decide (v ≤ (2000 + cfg s (hscPage n) R.HSC.COMP.VFWD * 10) * 65536))

/-- An off-state check starts on a channel that is off, or under OFFSTATE in the off-time of a generated one (R152, R153, R156). -/
def offCheckStart (s : State) (n : Nat) : State :=
  let lds := cfg s (hscPage n) R.HSC.DIAG.LDS
  if cfg s (hscPage n) R.HSC.DIAG.OLPU = 0 || offCheckBarred s n || (hscGet s n).phase ≠ 0 || ((hscGet s n).gen && lds ≠ 3) then s
  else hscSet s n { hscGet s n with phase := 1 }

/-- A phase reaches t_OS without a break: phase 1 below V_f − 2.0 V is PASS, else phase 2 follows, in this off-time where t_OS remains
(`room`), else in the next; phase 2 gives OPENLOAD or STB (R152). -/
def offCheckPhase (s : State) (n : Nat) (vout : Nat) (room : Bool) : State :=
  let c := hscGet s n
  let p := hscPage n
  if (c.phase ≠ 1 && c.phase ≠ 2) || hscGate s n || blockOff s 0x1E || !msqFresh s .hscVout then s
  else
    let s := setFlag (setF s p R.HSC.VOUT.CODE vout) p R.HSC.VOUT.VALID true
    let below := decide ((vout * 15 + 2000) * 65536 < hscVf s n * 15)
    if c.phase = 1 then
      (if below then diagResult (hscSet s n { c with phase := 0 }) n 3 1
       else hscSet s n { c with phase := if room then 2 else 3 })
    else diagResult (hscSet s n { c with phase := 0 }) n 3 (if below then 2 else 3)

end Sys2Proof.Machine
end

