-- ==== Sys2Proof/Machine/Park.lean ====
section
/-! DEFINITION. Mode requests, Park entry and its refusal, wakes, LISTEN and the bursts of WATCH (03; 12, R273, R274; 16, R379, R380;
18, R419, R420; 19, R447 to R449). -/

namespace Sys2Proof.Machine

/-! ### Park entry -/

/-- t0 of Park entry (03 Table 7): outputs are held off, EV18, and a manager starts its park round (16 Table 4). -/
def parkStart (s : State) (req : Bool) : State :=
  let s := setF s 0x0A R.BRG.WSUM.PSTATE 1
  let s := if s.sbp.attSt = 2 then { s with sbp := { s.sbp with attSt := 0 } } else s
  let s := { s with park := .quiesce, wk := { s.wk with fired := false, latched := [], req := req, ka := 0, kaPage := 0 } }
  touch (brgParkStart (raiseLine s 18))

/-- The worker holds a ring address and hears the manager: its idle timer starts no Park entry (R379). -/
def parkByManager (s : State) (noBeacon : Bool) : Bool := jxrRole s = 2 && isSet s 0x0B R.JXR.ADDR.VALID && !noBeacon

/-- The idle count reaches zero (R65, R379). -/
def idleExpiry (s : State) (noBeacon : Bool) : State :=
  if (s.mode ≠ .run && s.mode ≠ .hold) || s.park ≠ .none || kstat s ≠ 0 then s
  else
    let s := setF s 0x01 R.PMU.IDLECNT.CNT 0
    if parkByManager s noBeacon then s else parkStart s false

/-- Page that a keep-awake source names, by its bit of KSTAT (03 Table 6). -/
def keepPage (s : State) : Nat → Nat
  | 0 => 0x0C | 1 => 0x01 | 2 => 0x1A | 3 => s.wk.kaPage | 4 => 0x07 | _ => 0x0A

/-- A keep-awake source that refuses; in a park round the workers are judged by the round itself (R380). -/
def parkKeep (s : State) : Option (Nat × Nat) :=
  let ks := if s.brg.park.isEmpty then s.wk.ka else s.wk.ka % 32
  ((List.range 6).find? fun b => ks.testBit b).map fun b => (1, keepPage s b)

/-- The first block that cannot quiesce, in page order (03 Table 8): reason and page. -/
def parkBlock (s : State) (updBusy jrnBusy : Bool) : Option (Nat × Nat) :=
  (List.range 0xB1).findSome? fun p =>
    if p = 0x07 && updBusy || p = 0x99 && jrnBusy then some (3, p)
    else if p = 0x0A && (brgParkRefuser s).isSome then some (6, p)
    else if getF s p H.CST = 1 then some (7, p)
    else if decide (0x68 ≤ p) && decide (p < 0x74) && !isSet s p R.HB.STAT.STILL then some (5, p)
    else if decide (0x74 ≤ p) && decide (p < 0x84) &&
        ((solGet s (p - 0x74)).phase ≠ .off || (solGet s (p - 0x74)).deferred) then some (4, p)
    else none

/-- A refused Park entry (R66, R68; 16 Table 4, p3′). -/
def parkRefuse (s : State) (reason page dev : Nat) : State :=
  let s := setF s 0x01 R.PMU.REFUSE.COUNT (satInc 65535 (getF s 0x01 R.PMU.REFUSE.COUNT))
  let s := setF (setF (setF s 0x01 R.PMU.REFWHO.DEVADDR dev) 0x01 R.PMU.REFWHO.PAGE page) 0x01 R.PMU.REFWHO.REASON reason
  let s := setF (setF (setF s 0x0A R.BRG.WSUM.PSTATE 3) 0x0A R.BRG.WSUM.REFREASON reason) 0x0A R.BRG.WSUM.REFPAGE page
  let s := if s.brg.park.isEmpty then s else jxrHorn (brgParkEnd s)
  touch (idleReload { s with park := .none })

/-- t1 of Park entry: keep-awake sources, blocks and wake sources are checked, in this order (R66). -/
def parkQuiesceEnd (s : State) (updBusy jrnBusy : Bool) : State :=
  if s.park ≠ .quiesce then s
  else
    match (parkKeep (keepNote s)).orElse fun _ => parkBlock s updBusy jrnBusy with
    | some (reason, page) => parkRefuse s reason page (if reason = 6 then (brgParkRefuser s).getD 0 else 0)
    | none =>
      if s.wk.fired then parkRefuse s 2 0x01 0
      else setF { brgParkEnd s with park := .committed } 0x0A R.BRG.WSUM.PSTATE 2

/-- The words of the bus copy in AON (R419). -/
def aonCopied (k : Nat) : Bool :=
  let p := k / 1024
  let o := k % 1024 * 4
  ((p = 0x10 || p = 0x11) && ((decide (0x800 ≤ o) && decide (o < 0x810)) || (decide (0xB00 ≤ o) && decide (o < 0xB40)))) ||
    (decide (0x14 ≤ p) && decide (p < 0x1A) &&
      ((decide (0x800 ≤ o) && decide (o < 0x810)) || (decide (0x900 ≤ o) && decide (o < 0xA00)))) ||
    (p = 0x0C && (o = 0x800 || o = 0x804))

/-- The cyclic inputs of SWI's configuration with their present levels (R274). -/
def cycInputs (s : State) : List (Nat × Bool) :=
  ((List.range 64).filter fun n => cfgOn s 0x1C (R.SWI.CFG.CYC n)).map fun n => (n, swiRaw s n)

/-- TYPE, THR and IWET of the cyclic inputs, with which a burst wets and compares them (R274). -/
def cycWetting (s : State) : List (Nat × Nat × Nat) :=
  (cycInputs s).map fun e => (cfg s 0x1C (R.SWI.CFG.TYPE e.1), cfg s 0x1C (R.SWI.CFG.THR e.1), cfg s 0x1C (R.SWI.CFG.IWET e.1))

/-- t2 of Park entry: the fuse-state record, the copies in AON, gates and transmitters off, causeways closed; a vault command still running
aborts (03 Table 7, R128, R274, R410, R419, R447, R472); `sec` is the RTC. -/
def parkT2 (s : State) (sec : Nat) : State :=
  if s.park ≠ .committed then s
  else
    let s := setF s 0x01 R.PMU.RTCSEC.SEC sec
    let s := trialShut s
    let s := immPollCopy { s with park := .closing, fuseRec := some (fuseRecord s),
                                  aonCopy := storeKeep aonCopied s.applied, aonCopyOk := true }
    let s := { s with wk := { s.wk with cyc := cycInputs s, cycCfg := cycWetting s, conf := cfgOn s 0x1C R.SWI.CYC.CONF, diff := [],
                                        per := cfg s 0x1C R.SWI.CYC.PER } }
    let s := (List.range 6).foldl (fun s n => linSetState s n 0) ((List.range 4).foldl canShut s)
    touch (jxrRoleChanged (sbkStat (vltAbort s)))

/-! ### Wakes -/

/-- The RTC, as a command brings it; it never runs back. -/
def rtcSet (s : State) (sec : Nat) : State :=
  if getF s 0x01 R.PMU.RTCSEC.SEC ≤ sec then setF s 0x01 R.PMU.RTCSEC.SEC sec else s

/-- Priority of a wake source, 0 the first (R70). -/
def wakeRank : Nat → Nat
  | 8 => 0 | 5 => 1 | 4 => 2 | 7 => 3 | 2 => 4 | 3 => 5 | 1 => 6 | _ => 7

/-- Source `src` is armed for `det` (R69, R73). -/
def wakeArmed (s : State) (src det : Nat) : Bool :=
  let masked := (getF s 0x01 R.PMU.FWAKE.MASK).testBit det
  let canw := (cfg s 0x01 R.PMU.WEN.CANW).testBit det
  let wup := (cfg s 0x01 R.PMU.WEN.CANWUP).testBit det
  let linw := (cfg s 0x01 R.PMU.WEN.LINW).testBit (det - 2)
  match src with
  | 1 => !masked && (if det < 2 then canw && !wup else decide (det < 8) && linw)
  | 2 => !masked && decide (det < 2) && canw && wup
  | 3 => !masked && decide (2 ≤ det) && decide (det < 8) && linw
  | 4 => (cfg s 0x01 R.PMU.WEN.RINGW).testBit det
  | 5 => (cfg s 0x01 R.PMU.SWW.EN).testBit det
  | 6 => det ≠ 0 || cfgOn s 0x01 R.PMU.WEN.RTCW
  | 7 => cfgOn s 0x01 R.PMU.WEN.SBW
  | 8 => true
  | _ => false

/-- LISTEN is entered by bus `bus` (R72, R419): routed CAN controllers monitor, NMG listens, TBS starts again (R19). Where a LIN woke the
device, its first wake pulse did (R420). -/
def enterListen (s : State) (bus : Nat) : State :=
  let s := { s with wk := { s.wk with left := modeCode s.mode, bus := bus, pulses := if 2 ≤ bus then 2 ^ (bus - 2) else 0 }, tbs := 0 }
  let s := (List.range 2).foldl (fun s n =>
    if (cfg s 0x01 R.PMU.WROUTE.LST).testBit n then setF s (canPage n) R.CAN.STAT.STATE 5 else s) s
  modeShow (setF s 0x0C R.NMG.STAT.STATE 6) .listen 1

/-- A wake ends PARK, WATCH or LISTEN (R69, R70, R73): its record, every mask bit, then LISTEN or BOOT. `also`: the other sources
that qualified on the same edge; one that is no bus source takes the device to BOOT, so that its wake is not lost (R67;
DESIGN CHOICE, notes/assumptions/66). -/
def wakeTake (s : State) (src det also sec sub : Nat) : State :=
  let others := ((List.range 8).filter fun b => also.testBit b && decide (wakeRank src < wakeRank (b + 1))).foldl (fun m b => m + 2 ^ b) 0
  let s := setF (setF s 0x01 R.PMU.WAKESRC.SUBSEC sub) 0x01 R.PMU.WAKESRC.ALSO others
  let s := setF (setF s 0x01 R.PMU.WAKESRC.DETAIL det) 0x01 R.PMU.WAKESRC.SRC src
  let s := setF (setF s 0x01 R.PMU.WAKETS.SEC sec) 0x01 R.PMU.FWAKE.MASK 0
  let bad := s.imm.pollBad
  let cycBad := s.wk.cycBad
  let s := { s with imm := { s.imm with pollBad := false }, wk := { s.wk with cycBad := false } }
  let s :=
    if s.mode ≠ .listen && decide (1 ≤ src) && decide (src ≤ 3) && (cfg s 0x01 R.PMU.WROUTE.LST).testBit det && others / 8 = 0 then enterListen s det
    else
      let s := wakeBoot s
      if src = 4 then jxrHornOn s (2 ^ det) else s
  let s := if cycBad then raiseP s 0x1C 2 else s
  if bad then raiseP s 0x1A 6 else s

/-- A wake source fires (R66, R67, R69): in the quiesce window it refuses Park entry, between t1 and t3 it is latched, in PARK, WATCH
and LISTEN it ends the mode. In LISTEN a routed bus is heard by its controller instead (R72). A lane whose horn qualified beside or after
the wake is regenerated too (R355). -/
def wakeFire (s : State) (src det also sec sub : Nat) : State :=
  let s := rtcSet s sec
  if !wakeArmed s src det then s
  else match s.park with
  | .quiesce => { s with wk := { s.wk with fired := true } }
  | .committed | .closing => { s with wk := { s.wk with latched := s.wk.latched ++ [(src, det, also, sec * 65536 + sub)] } }
  | .none =>
    match s.mode with
    | .park | .watch => wakeTake s src det also sec sub
    | .listen =>
      if decide (1 ≤ src) && decide (src ≤ 3) && (cfg s 0x01 R.PMU.WROUTE.LST).testBit det then s
      else wakeTake s src det also sec sub
    | .boot =>
      if src = 4 && (getF s 0x01 R.PMU.WAKESRC.SRC = 4 || (getF s 0x01 R.PMU.WAKESRC.ALSO).testBit 3) then jxrHornOn s (2 ^ det) else s
    | _ => s

/-- The latched wake that ends the mode at once, with the sources that qualified on its AON edge: the oldest edge, and of its sources the
first in R70's order (R67, notes/assumptions/66). -/
def wakeFirst : List (Nat × Nat × Nat × Nat) → Option (Nat × Nat × Nat × Nat)
  | [] => none
  | e :: l =>
    some (l.foldl (fun (a : Nat × Nat × Nat × Nat) e =>
      if e.2.2.2 ≠ a.2.2.2 then a
      else
        let also := a.2.2.1 ||| e.2.2.1 ||| 2 ^ (a.1 - 1) ||| 2 ^ (e.1 - 1)
        if wakeRank e.1 < wakeRank a.1 then (e.1, e.2.1, also, a.2.2.2) else (a.1, a.2.1, also, a.2.2.2)) e)

/-- t3 of Park entry: PARK or WATCH, a pending MODE commit of PMU applies, the domains power down, the strong-wake levels are latched;
a wake latched since t1 is then taken, and the others follow in the mode that it leads to, so that none is lost (R62, R63, R67, R273). -/
def parkT3 (s : State) (levels : Nat) : State :=
  if s.park ≠ .closing then s
  else
    let m := if s.wk.cyc ≠ [] || s.imm.pollOn then Mode.watch else .park
    let latched := s.wk.latched
    let s := powerDown (commitSleep s) m (if s.wk.req then 3 else 2)
    let s := pinsSet { s with wk := { s.wk with level := levels, latched := [] } } 0xFF levels
    match wakeFirst latched with
    | none => s
    | some (src, det, also, t) =>
      (latched.filter fun e => e.1 ≠ src || e.2.1 ≠ det || e.2.2.2 ≠ t).foldl (fun s e => wakeFire s e.1 e.2.1 e.2.2.1 (e.2.2.2 / 65536) (e.2.2.2 % 65536))
        (wakeTake s src det also (t / 65536) (t % 65536))

/-- A strong-wake input has stood beyond the fixed threshold, away from its latched level, for the filter time; a change between t2 and
t3 does not wake (R273). -/
def wakeStrong (s : State) (n : Nat) (high : Bool) (also sec sub : Nat) : State :=
  if s.park = .none && s.wk.level.testBit n = high then s
  else if s.park = .closing then pinsSet (rtcSet s sec) (2 ^ n) (if high then 2 ^ n else 0)
  else wakeFire (if running s then s else pinsSet s (2 ^ n) (if high then 2 ^ n else 0)) 5 n also sec sub

/-- The RTC reaches the alarm (R69). -/
def wakeAlarm (s : State) (also sec sub : Nat) : State :=
  let a := getF s 0x01 R.PMU.RTCALM.SEC
  if a = 0 || a ≠ sec then rtcSet s sec else wakeFire s 6 0 also sec sub

/-- The listen timeout (R72, R73). -/
def listenTimeout (s : State) : State :=
  if s.mode ≠ .listen then s
  else
    let b := s.wk.bus
    let cnt := s.wk.fw.getD b 0 + 1
    let lim := cfg s 0x01 R.PMU.LISTEN.FWLIM
    let full := lim ≠ 0 && decide (lim ≤ cnt)
    let s := setF s 0x01 R.PMU.FWAKE.COUNT (satInc 65535 (getF s 0x01 R.PMU.FWAKE.COUNT))
    let s := setF s 0x01 R.PMU.FWAKE.LAST b
    let s := if full then setF s 0x01 R.PMU.FWAKE.MASK (getF s 0x01 R.PMU.FWAKE.MASK ||| 2 ^ b) else s
    let s := { s with wk := { s.wk with fw := s.wk.fw.set b (if full then 0 else cnt) } }
    powerDown s (if s.wk.left = 2 then .watch else .park) 6

/-! ### Qualifying traffic (R419, R420) -/

/-- A field of the bus copy. -/
def aonF (s : State) (p : Nat) (f : Fld) : Nat := fget (storeGet regReset s.aonCopy (rkey p f.off)) f

/-- Wake filter `k` of CAN `n` matches the frame: ID under MASK with IDE, and some data bit under DMASK, where it is not zero. -/
def wakeFilter (s : State) (n : Nat) (f : CanFrame) (k : Nat) : Bool :=
  let p := canPage n
  let mask := (storeGet regReset s.aonCopy (rkey p (0xB04 + 16 * k))).toNat % 2 ^ 29
  let dm := (storeGet regReset s.aonCopy (rkey p (0xB08 + 16 * k))).toNat +
    2 ^ 32 * (storeGet regReset s.aonCopy (rkey p (0xB0C + 16 * k))).toNat
  aonF s p (R.CAN.WKF.EN k) ≠ 0 && ((f.id.toNat ^^^ aonF s p (R.CAN.WKF.ID k)) &&& mask) = 0 &&
    f.ide = (aonF s p (R.CAN.WKF.IDE k) ≠ 0) && (dm = 0 || (dm &&& bytesToNat (f.data.take 8)) ≠ 0)

/-- The frame is an NM message on the bus that NMG uses (R421). -/
def wakeNm (s : State) (n : Nat) (f : CanFrame) : Bool :=
  let std := f.id.toNat / 2 ^ 18
  let base := aonF s 0x0C R.NMG.CANID.BASEID
  aonF s 0x0C R.NMG.CFG.MEDIUM = n && !f.ide && !f.fdf && f.dlc = 8 && decide (base ≤ std) && decide (std < base + 256)

/-- Bus of the traffic, in DETAIL order. -/
def trafficBus : ListenTraffic → Nat
  | .can n _ => n.val
  | .lin n .. => n.val + 2
  | .linWake n => n.val + 2

/-- The traffic qualifies (R420); with a bad copy every frame does. -/
def qualifies (s : State) : ListenTraffic → Bool
  | .can n f =>
    !s.aonCopyOk || wakeNm s n f || (List.range 4).any (wakeFilter s n f) ||
      (List.range 4).all fun k => aonF s (canPage n) (R.CAN.WKF.EN k) = 0
  | .lin n id data csum =>
    !s.aonCopyOk ||
      (csum = linCheck (aonF s (linPage n)) id.toNat data && (aonF s (linPage n) (R.LIN.WKID.WK (id.toNat / 32))).testBit (id.toNat % 32))
  | .linWake n => aonF s (linPage n) R.LIN.MODE.ROLE = 1 && s.wk.pulses.testBit n

/-- A wake pulse heard on LIN `n` since the device left PARK or WATCH. -/
def linPulse (s : State) (n : Nat) : State := { s with wk := { s.wk with pulses := s.wk.pulses ||| 2 ^ n } }

/-- Traffic on a routed bus in LISTEN (R72, R73, R420); `whole` says that it began after the entry to LISTEN, `copyOk` that the copy
passes its check. -/
def listenTraffic (s : State) (t : ListenTraffic) (whole copyOk : Bool) : State :=
  let b := trafficBus t
  let s := { s with aonCopyOk := s.aonCopyOk && copyOk }
  if s.mode ≠ .listen || !whole || !(cfg s 0x01 R.PMU.WROUTE.LST).testBit b then s
  else if !qualifies s t then (match t with | .linWake n => linPulse s n | _ => s)
  else
    let nm := match t with | .can n f => wakeNm s n f | _ => false
    let s := { s with nmg := { s.nmg with heard := s.nmg.heard || nm } }
    let s := if b = s.wk.bus then { s with wk := { s.wk with fw := s.wk.fw.set b 0 } } else s
    wakeBoot s

/-! ### WATCH (R274, R448, R449) -/

/-- Every burst schedule has ended. -/
def scheduleEnd (s : State) : State :=
  if s.mode = .watch && s.wk.cyc = [] && immPollPer s = 0 then modeShow s .park 7 else s

/-- The inputs whose sample differs from their reference. -/
def cycDiff (s : State) (levels : Nat) : List (Nat × Bool) :=
  (s.wk.cyc.filter fun e => levels.testBit e.1 ≠ e.2).map fun e => (e.1, levels.testBit e.1)

/-- A burst in WATCH powers PWR, whose tick counter starts at 0 (R19, R545); the fuse engine does not start (R128). -/
def watchPower (s : State) : State := if s.mode = .watch then { s with pwrTick := 0, msDone := 0, anaDone := 0 } else s

/-- A cyclic-sensing burst (R274). A copy that fails its check makes every burst wake, and CYCREF is raised then (R278). -/
def cycBurst (s : State) (levels : Nat) (copyOk : Bool) (also sec sub : Nat) : State :=
  let s := watchPower (rtcSet s sec)
  if s.mode ≠ .watch || s.wk.cyc = [] then s
  else if !copyOk then wakeFire { s with wk := { s.wk with cycBad := true } } 6 1 also sec sub
  else if cycDiff s levels = [] then s
  else if s.wk.conf then { s with wk := { s.wk with diff := cycDiff s levels } }
  else wakeFire s 6 1 also sec sub

/-- The confirming burst (R274). -/
def cycConfirm (s : State) (levels also sec sub : Nat) : State :=
  let s := rtcSet s sec
  if s.mode ≠ .watch || s.wk.diff = [] then s
  else
    let same := s.wk.diff.any fun e => levels.testBit e.1 = e.2
    let s := { s with wk := { s.wk with diff := [] } }
    if same then wakeFire s 6 1 also sec sub else s

/-- An LF polling burst (R449). -/
def pollBurst (s : State) (copyOk : Bool) (heard : List LfPoll) (also sec sub : Nat) : State :=
  let s := watchPower (rtcSet s sec)
  if s.mode ≠ .watch then s
  else
    let r := immBurst s copyOk heard
    if r.2 then wakeFire r.1 6 2 also sec sub else r.1

/-- The end of a poll step in WATCH (R448). -/
def pollStepEnd (s : State) : State := if s.mode = .watch then immStepEnd s else s

/-! ### DEV.MREQ (R61, R94) -/

/-- The lowest required page that is not configured or is dirty (R94). -/
def reqPageFails (s : State) : Option Nat :=
  (List.range 256).find? fun p =>
    genReq s (getF s 0x03 R.RST.SETEP.GEN) p && (!configured s p || bitOf (pstatWord s p) 4)

/-- MREQ = RUN: accepted in HOLD for RECORD, HOSTCFG, and for WORKER from ring source 0, with every required page configured. -/
def mreqRunOk (s : State) (who : Who) : Bool :=
  let why := getF s 0x03 R.RST.HOLDWHY.WHY
  s.mode = .hold && (why = 5 || why = 6 || (why = 7 && who = .ring 0))

def mreqRun (s : State) (who : Who) : State :=
  if !mreqRunOk s who then werr s 0x00 0x114
  else match reqPageFails s with
    | some p => werr (setF s 0x03 R.RST.HOLDWHY.PAGE p) 0x00 0x114
    | none => setMode (setF s 0x03 R.RST.HOLDWHY.WHY 0) .run 3

def mreqPark (s : State) : State :=
  if (s.mode ≠ .run && s.mode ≠ .hold) || s.park ≠ .none then werr s 0x00 0x114 else parkStart s true

def mreqLimp (s : State) : State := if s.mode ≠ .run && s.mode ≠ .hold then werr s 0x00 0x114 else setMode s .limp 3

/-- A write of DEV.MREQ (03 Table 4). -/
def mreqWrite (s : State) (who : Who) (v : Nat) : State :=
  match v % 4 with
  | 1 => mreqRun s who
  | 2 => mreqPark s
  | 3 => mreqLimp s
  | _ => s

/-! ### RST and PMU -/

/-- A write of RST.SWRST (R77, R378): from the manager the cause is RING. -/
def swrst (s : State) (who : Who) (v : Nat) : State :=
  if v % 256 ≠ 0xA5 then s else resetDevice s (if who = .ring 0 then 6 else 2) 0

/-- The watchdog counts (R80): after the end of boot, in RUN and HOLD, with a period. -/
def watchdogRuns (s : State) : Bool := (s.mode = .run || s.mode = .hold) && cfgOn s 0x03 R.RST.WDOG.PERIOD

def watchdogExpiry (s : State) : State := if watchdogRuns s then resetDevice s 3 0 else s

/-- A write of RST.CLR. -/
def rstClr (s : State) (v : Word) : State := if bitOf v 0 then setF s 0x03 R.RST.COUNT.CNT 0 else s

/-- A write to PMU's live region (R25): on its way to AON; a second one to the same register meanwhile is rejected. -/
def pmuWrite (s : State) (off : Nat) (v : Word) : State :=
  if off ≠ 0x100 && off ≠ 0x120 && off ≠ 0x128 then s
  else if s.pmuPend.any fun e => e.1 = off then werr s 0x01 off
  else { s with pmuPend := s.pmuPend ++ [(off, v)] }

/-- The oldest write reaches AON (R25; 03 Table 11). -/
def pmuApply (s : State) : State :=
  match s.pmuPend with
  | [] => s
  | (off, v) :: l =>
    let s := { s with pmuPend := l }
    if off = 0x100 then
      let s := setFlag s 0x01 R.PMU.KEEP.HOSTKA (bitOf v 0)
      if bitOf v 0 then idleReload s else s
    else if off = 0x128 then wr s 0x01 0x128 v
    else
      let s := if bitOf v 0 then wr (setF s 0x01 R.PMU.REFUSE.COUNT 0) 0x01 0x118 0 else s
      let s := if bitOf v 1 then setF (setF s 0x01 R.PMU.FWAKE.COUNT 0) 0x01 R.PMU.FWAKE.LAST 0 else s
      if bitOf v 2 then setF s 0x01 R.PMU.FWAKE.MASK 0 else s

end Sys2Proof.Machine
end

