-- ==== Sys2Proof/Machine/Fabric.lean ====
section
/-! DEFINITION. Accesses by initiators: the address map (01, R28 to R33, R542), the rights and refusals of register pages (02, R35 to
R59), and what a read or a write of each register does. -/

namespace Sys2Proof.Machine

/-- A read: the state after it and the value, none for a bus error (R28). -/
abbrev RdRes := State × Option Word

/-- A write: the state after it, and whether it was taken; false is a bus error. -/
abbrev WrRes := State × Bool

/-! ### Refusals (R53, R59) -/

/-- An access without the right: PROT records the first one and counts. -/
def protRefuse (s : State) (who : Who) (wrt : Bool) (page : Nat) (addr : Nat) : State :=
  let s := setF s 0x05 R.PROT.RCNT.CNT (satInc 65535 (getF s 0x05 R.PROT.RCNT.CNT))
  if isSet s 0x05 R.PROT.RSTAT.VALID then s
  else
    let w := 2 ^ 31 + whoKind who * 2 ^ 28 + wrt.toNat * 2 ^ 27 + whoAddr who * 2 ^ 10 + page
    raiseP (wr (wr s 0x05 0x100 (BitVec.ofNat 32 w)) 0x05 0x104 (BitVec.ofNat 32 addr)) 0x05 0

/-- A write of PROT.CLR. -/
def protClear (s : State) (v : Word) : State :=
  if bitOf v 0 then setF (wr s 0x05 0x100 0) 0x05 R.PROT.RCNT.CNT 0 else s

/-- The fields of a word that a read clears, returned to 0 (00 Table 4, RC). -/
def rcClear (s : State) (p off : Nat) : State :=
  let m := accMask p off (· == .rc)
  if m = 0 then s else wr s p off (rd s p off &&& ~~~ BitVec.ofNat 32 m)

/-- A read of a live register with its side effect. -/
def liveRead (s : State) (who : Who) (p off : Nat) : RdRes :=
  if p = 0x1F && off = 0x144 then let r := govPop s; (r.1, some r.2)
  else if p = 0xB0 && decide (off < 0x500) && (off % 0x80 = 0x44) then
    match mbxTake s who off with
    | some r => (r.1, some r.2)
    | none => (s, none)
  else
    let r := liveSeen s (whoKind who) p off
    (rcClear r.1 p off, some r.2)

/-- A header register as read (02 Table 1). -/
def headRead (s : State) (p off : Nat) : Word :=
  if off = 0x000 then pidWord p
  else if off = 0x004 then pcapWord p
  else if off = 0x008 then pstatWord s p
  else if off = 0x00C then fset (fset (fset (rd s p off) ⟨12, 0, 0⟩ (enabled s p).toNat) ⟨12, 1, 1⟩ (getF s p H.CST ≠ 0 : Bool).toNat) ⟨12, 4, 4⟩
    (getF s p H.LOCKED)
  else if off = 0x024 then BitVec.ofNat 32 (pageOwner s p)
  else if off = 0x028 then pageCrc s p
  else if 0x02C ≤ off then 0
  else rd s p off

/-- Offsets of the vault's command interface: CMD, STAT, LEN, ARG, REL and BUF (R51, R472). -/
def vltIface (off : Nat) : Bool :=
  (decide (0x100 ≤ off) && decide (off ≤ 0x110)) || (decide (0x200 ≤ off) && decide (off < 0x400))

/-- The vault's command interface is open to the initiator: to EC3 always, to the others from the load of the manifest on (R51). -/
def vltReach (s : State) (who : Who) : Bool := who = .ec3 || manifestLoaded s

/-- A read of page `p` at `off`, granted. -/
def pageReadGo (s : State) (who : Who) (p off : Nat) : RdRes :=
  if off < 0x100 then (s, some (headRead s p off))
  else if off < 0x800 then liveRead s who p off
  else (s, some (rd s p off))

/-- A read of a register page by an initiator (R35, R53). -/
def pageRead (s : State) (who : Who) (p off : Nat) (addr : Nat) : RdRes :=
  if !running s || (blkOf p).isNone || off % 4 ≠ 0 then (s, none)
  else if p = 0x06 && vltIface off && vltReach s who then
    if off ≠ 0x104 && vltClaimed s (whoKind who) then (s, none) else pageReadGo s who p off
  else if !(rightsOf s (whoKind who) p).testBit 0 || (p = 0x06 && who ≠ .ec3) then (protRefuse s who false p addr, none)
  else pageReadGo s who p off

/-! ### Live registers as written -/

/-- RW bits of a word take the written value, W1C bits written as 1 clear, all others stay (00 Table 4). -/
def plainWrite (s : State) (p off : Nat) (v : Word) : State :=
  let rw := BitVec.ofNat 32 (accMask p off (· == .rw))
  let wc := BitVec.ofNat 32 (accMask p off (· == .w1c))
  let w := rd s p off
  wr s p off ((w &&& ~~~ rw &&& ~~~ (wc &&& v)) ||| (v &&& rw))

/-- A write of an output's CMD that holds ON and STAYON (05, 10, 11). -/
def cmdWrite (s : State) (p : Nat) (v : Word) : State := touch (plainWrite s p 0x100 v)

/-- A write of UPD.CMD (R480, R491, R509): it starts to run, or is rejected. -/
def updCmdWrite (s : State) (v : Word) : State :=
  let op := fget v R.UPD.CMD.OP
  let recov := s.mode = .boot && getF s 0x03 R.RST.BOOT.PHASE = 5
  let modeOk := op ≠ 5 || s.mode = .hold || s.mode = .run || s.mode = .limp || recov
  if fget v R.UPD.CMD.KEY ≠ 0xC3 || op = 0 || 5 < op || isSet s 0x07 R.UPD.SRES.BUSY || !modeOk || (blockOff s 0x07 && op ≠ 1) then
    werr s 0x07 0x114
  else updBegin s op (fget v R.UPD.CMD.GEN)

/-- A write of DMA.CTL (R309, R310; R509 while DMA is disabled). -/
def dmaCtl (s : State) (c : Nat) (v : Word) : State :=
  let s := if bitOf v 1 then dmaStop s c else s
  if !bitOf v 0 then s
  else if blockOff s 0x0F || !cfgOn s 0x0F (R.DMA.CFG.EN c) then werr s 0x0F (0x100 + 16 * c)
  else dmaTrigger s c

/-- A write of a register of the bridge (16). -/
def brgWrite (s : State) (kind off : Nat) (v : Word) : WrRes :=
  if jxrRole s = 2 then (s, true)
  else if off = 0x110 then
    let n := v.toNat % 16
    if n = 0 || 8 < n then (werr s 0x0A off, true)
    else ({ s with brg := { s.brg with rdcnt := storeSet (fun _ => 1) s.brg.rdcnt kind n } }, true)
  else if off = 0x114 then
    match (if kind = 5 || kind = 6 then none else brgRdreq s kind v) with
    | some t => (t, true)
    | none => (s, false)
  else if off = 0x11C then
    ((List.range 16).foldl (fun s t => if bitOf v t then brgFree s kind t else s) s, true)
  else if off = 0x128 then
    let s := if bitOf v 0 then brgPopE s else s
    (if bitOf v 1 then brgPopO s else s, true)
  else if off = 0x12C then (brgSemAcq s kind v, true)
  else if off = 0x130 then (brgSemRel s kind (v.toNat % 64), true)
  else if off = 0x134 then (brgUnpoison s v, true)
  else (plainWrite s 0x0A off v, true)

/-- A write of JXR's live region (15): ENUM is rejected unless the role is MANAGER. -/
def jxrWrite (s : State) (off : Nat) (v : Word) : State :=
  if off = 0x11C then jxrEvtx s v
  else if off = 0x120 then
    let s := if bitOf v 0 then (if jxrRole s = 1 then jxrEnumStart s else werr s 0x0B off) else s
    let s := if bitOf v 1 && jxrActive s then jxrHorn s else s
    if bitOf v 2 && jxrActive s then jxrMeasure s else s
  else if off = 0x134 then
    if bitOf v 0 then wr (wr (wr s 0x0B 0x124 0) 0x0B 0x128 0) 0x0B 0x12C 0 else s
  else plainWrite s 0x0B off v

/-- A write of a LIN page's live region (R416). -/
def linWrite (s : State) (n off : Nat) (v : Word) : State :=
  if off ≠ 0x10C then plainWrite s (linPage n) off v
  else
    let s := if bitOf v 0 then linSched s n else s
    let s := if bitOf v 1 then linHalt s n else s
    let s := if bitOf v 2 then linSleep s n else s
    if bitOf v 3 then linWake s n else s

/-- A write of a CAN page's live region (18). -/
def canWrite (s : State) (n off : Nat) (v : Word) : State :=
  let p := canPage n
  if off = 0x110 then canRxri s n v
  else if off = 0x114 then canTxReq s n v
  else if off = 0x118 then canTxCan s n v
  else if off = 0x128 then (if bitOf v 0 then canRecov s n else s)
  else plainWrite s p off v

/-- A write of FLT's live region (R501, R505): AKICK is the pair's. A kick's spacing is the environment's, `dt` (0.1 ms). -/
def fltWrite (s : State) (who : Who) (off : Nat) (v : Word) (dt : Nat) : WrRes :=
  if off = 0x104 then (fltAck s v, true)
  else if off = 0x108 then (if who = .app then (fltKick s (v.toNat % 256) dt, true) else (s, false))
  else (plainWrite s 0x04 off v, true)

/-- MSQ.WSEL: the wear records that WSTAT and WSEG show follow (R159). -/
def wselShow (s : State) : State :=
  let n := getF s 0x1E R.MSQ.WSEL.CH
  let c := if n < 72 then hscGet s n else HscSt.init
  let s := setFlag (setF s 0x1E R.MSQ.WSTAT.NMEAS (min 65535 c.nmeas)) 0x1E R.MSQ.WSTAT.VALID (c.nmeas ≠ 0)
  (List.range 9).foldl (fun s k => setF s 0x1E (R.MSQ.WSEG.SHARE k) (c.wear.getD k 0)) s

/-- A write of FRMC's live region (10). -/
def frmcWrite (s : State) (off : Nat) (v : Word) : State :=
  if off = 0x100 then (if bitOf v 0 then frmcArm s else s)
  else if off = 0x11C then
    let s := if bitOf v 0 then playStart s else s
    if bitOf v 1 then playStop s else s
  else if off = 0x120 then (if bitOf v 0 then wr s 0x91 0x10C 0 else s)
  else plainWrite s 0x91 off v

/-- A write of a live register, granted. -/
def liveWrite (s : State) (who : Who) (p off : Nat) (v : Word) : WrRes :=
  let kind := whoKind who
  let ok (t : State) : WrRes := (t, true)
  match blkOf p with
  | some (.DEV, _) => ok (if off = 0x114 then mreqWrite s who v.toNat else s)
  | some (.PMU, _) => ok (pmuWrite s off v)
  | some (.RST, _) =>
    ok (if off = 0x114 then swrst s who v.toNat else if off = 0x120 then rstClr s v else s)
  | some (.FLT, _) =>
    if off = 0x108 && who = .app then
      let r := freshNat s 65536
      fltWrite r.1 who off v r.2
    else fltWrite s who off v 0
  | some (.PROT, _) => ok (if off = 0x10C then protClear s v else s)
  | some (.VLT, _) =>
    if off = 0x100 then ok (vltCommand s kind v)
    else if off = 0x110 then ok (if bitOf v 0 then vltRelease s else s)
    else ok (plainWrite s p off v)
  | some (.UPD, _) =>
    ok (if off = 0x114 then updCmdWrite s v
        else if off = 0x140 then
          let s := if bitOf v 0 then distStart s else s
          if bitOf v 1 then distStop s else s
        else plainWrite s p off v)
  | some (.HPT, _) => ok (if off = 0x110 && bitOf v 0 then wr (wr s p 0x108 0) p 0x10C 0 else s)
  | some (.SBP, _) => ok (if off = 0x10C && bitOf v 0 then wr (wr s p 0x104 0) p 0x108 0 else s)
  | some (.BRG, _) => brgWrite s kind off v
  | some (.JXR, _) => ok (jxrWrite s off v)
  | some (.TBS, _) =>
    ok (if off = 0x100 then (if bitOf v 0 then tbsCapture s else s)
        else if decide (0x120 ≤ off) && decide (off < 0x130) then tbsCmpWrite s ((off - 0x120) / 4) v
        else plainWrite s p off v)
  | some (.EVF, _) => ok (if off = 0x100 then evfRaise s v else plainWrite s p off v)
  | some (.DMA, _) =>
    ok (if off % 16 = 0 && decide (off < 0x200) then dmaCtl s ((off - 0x100) / 16) v else plainWrite s p off v)
  | some (.CAN, b) => ok (canWrite s (p - b) off v)
  | some (.LIN, b) => ok (linWrite s (p - b) off v)
  | some (.IMM, _) =>
    ok (if off = 0x100 then
          let s := if bitOf v 0 then immStart s else s
          if bitOf v 1 then immClear s true else s
        else plainWrite s p off v)
  | some (.RFX, _) => ok (touch (plainWrite s p off v))
  | some (.MSQ, _) => ok (let t := plainWrite s p off v; if off = 0x134 then wselShow t else t)
  | some (.HSC, _) =>
    ok (if off = 0x104 then cmdWrite s p (rd s p 0x100 ||| v)
        else if off = 0x108 then cmdWrite s p (rd s p 0x100 &&& ~~~ v)
        else if off = 0x100 then cmdWrite s p v else touch (plainWrite s p off v))
  | some (.HB, b) =>
    ok (if off = 0x100 then hbCmd s (p - b) v
        else if off = 0x104 then hbDutyWrite s (p - b) v
        else if off = 0x118 then hbPosWrite s (p - b) v
        else if off = 0x124 then
          let s := plainWrite s p off v
          touch (setFlag s p R.HB.STAT.PINCH (isSet s p R.HB.EVT.PINCH))
        else plainWrite s p off v)
  | some (.SOL, b) => ok (if off = 0x100 then solCommand s (Fin.ofNat 16 (p - b)) v else plainWrite s p off v)
  | some (.LST, _) => ok (touch (plainWrite s p off v))
  | some (.LMX, _) => ok (touch (plainWrite s p off v))
  | some (.LCH, _) => ok (touch (plainWrite s p off v))
  | some (.FRMC, _) => ok (frmcWrite s off v)
  | some (.XSP, _) =>
    if off = 0x108 then
      match xspCommand s v with
      | some t => (t, true)
      | none => (s, false)
    else ok (plainWrite s p off v)
  | some (.JRN, _) =>
    ok (if off = 0x110 then jrnFetch s v
        else if off = 0x118 && bitOf v 0 then wr s p 0x108 0 else plainWrite s p off v)
  | some (.EC, _) => ok (plainWrite s (if p = 0xA1 then 0xA0 else p) off v)
  | some (.MBX, _) =>
    match mbxWrite s who off v with
    | some t => (t, true)
    | none => (if mbxRejects s who off then raiseP s 0xB0 0 else s, false)
  | _ => ok (plainWrite s p off v)

/-! ### Header and shadow as written -/

/-- The protected output of a page. -/
def pageProt (p : Nat) : Option ProtOut :=
  if h : 0x20 ≤ p ∧ p < 0x68 then some (.hsc ⟨p - 0x20, by omega⟩)
  else if h : 0x68 ≤ p ∧ p < 0x74 then some (.hb ⟨p - 0x68, by omega⟩)
  else if h : 0x74 ≤ p ∧ p < 0x84 then some (.sol ⟨p - 0x74, by omega⟩)
  else if h : 0x88 ≤ p ∧ p < 0x8C then some (.lst ⟨p - 0x88, by omega⟩)
  else if p = 0x8C then some .lmx else none

/-- A W1C of PFLT (R56): flags of sources still asserted stay; LOCKOUT ends the output's lockout (R141), LINESC lets a chain transmit
again (R267). -/
def pfltWrite (s : State) (p : Nat) (v : Word) : State :=
  let clr := ((List.range 8).filter fun b => bitOf v b && (getF s p H.PFLT).testBit b && !asserted s (p * 8 + b))
  let s := setF s p H.PFLT (clr.foldl (fun m b => m - 2 ^ b) (getF s p H.PFLT))
  let s := match pageProt p with
    | some o => if clr.contains 6 then protUnlock s o else s
    | none => s
  if decide (0x8D ≤ p) && decide (p < 0x91) && clr.contains 0 then lchUnfault s (p - 0x8D) else s

/-- The reaction that a block's chapter ties to a forced source, as to a real one (R55): a driver fault of LFA ends the round in progress
(R453), LINESC stops a chain (R267), a lockstep mismatch halts the pair (R298). The converter looks at PFORCE itself (`sbkRuns`). -/
def forcedReact (s : State) (p : Nat) (rise : List Nat) : State :=
  if p = 0x1B && rise.any (· < 5) then lfaForced s
  else if decide (0x8D ≤ p) && decide (p < 0x91) && rise.contains 0 then lchFault s (p - 0x8D)
  else if p = 0xA1 && rise.contains 0 then coreSet s .app { coreGet s .app with st := 3 }
  else s

/-- A write of PFORCE (R54, R55): each rising bit of an implemented source asserts it, with the event it stands for. -/
def pforceApply (s : State) (p : Nat) (v : Word) : State :=
  let old := getF s p H.PFORCE
  let new := v.toNat % 256 &&& (pageCap p).fsrc
  let rise := (List.range 8).filter fun b => new.testBit b && !old.testBit b
  let s := setF s p H.PFORCE new
  let s := rise.foldl (fun s b => { s with due := s.due ++ [⟨p * 8 + b, true, []⟩] }) s
  let s := match pageProt p with
    | some o => if rise.isEmpty then s else protForced s o old rise
    | none => forcedReact s p rise
  touch s

/-- Bits of a shadow word that hold RWL fields. -/
def rwlMask (p off : Nat) : Word := BitVec.ofNat 32 (accMask p off (· == .rwl))

/-- A write of a shadow word by the holder of C (R36, R39, R44, R49). -/
def shadowWrite (s : State) (p off : Nat) (v : Word) : State :=
  if isSet s p H.LOCKED || getF s p H.CST ≠ 0 then werr s p off
  else if (fieldsAt p off).isEmpty then s
  else if enabled s p && ((rd s p off ^^^ v) &&& rwlMask p off) ≠ 0 then werr s p off
  else wr s p off v

/-- The right that a write of a header register needs: bit of the right field (02 Table 10, R35, R40). -/
def headRight (off : Nat) : Nat :=
  if off = 0x008 || off = 0x00C || off = 0x014 then 2 else if off = 0x01C then 3 else 1

/-- A write of a header register, granted. -/
def headWrite (s : State) (kind p off : Nat) (v : Word) : State :=
  if off = 0x008 then
    let s := if bitOf v 5 then setFlag s p H.WERR false else s
    if bitOf v 12 then setFlag s p H.CMTDONE false else s
  else if off = 0x00C then pctlWrite s p kind v
  else if off = 0x014 then (if isSet s p H.LOCKED || getF s p H.CST ≠ 0 then werr s p off else wr s p off v)
  else if off = 0x018 then pfltWrite s p v
  else if off = 0x01C then pforceApply s p v
  else if off = 0x020 then setF s p H.PIRQ v.toNat
  else s

/-- A write of page `p` at `off`, granted. -/
def pageWriteGo (s : State) (who : Who) (p off : Nat) (v : Word) : WrRes :=
  if off < 0x100 then (headWrite s (whoKind who) p off v, true)
  else if off < 0x800 then liveWrite s who p off v
  else (shadowWrite s p off v, true)

/-- The right bit that a write at `off` needs. -/
def writeRight (off : Nat) : Nat := if off < 0x100 then headRight off else if off < 0x800 then 1 else 2

/-- A write of a register page by an initiator (R35, R40, R53, R472). -/
def pageWrite (s : State) (who : Who) (p off : Nat) (addr : Nat) (v : Word) : WrRes :=
  if !running s || (blkOf p).isNone || off % 4 ≠ 0 then (s, false)
  else if p = 0x06 && vltIface off && vltReach s who then
    if off ≠ 0x104 && vltClaimed s (whoKind who) then (s, false) else pageWriteGo s who p off v
  else if p = 0x04 && off = 0x108 && who = .app then pageWriteGo s who p off v
  else if !(rightsOf s (whoKind who) p).testBit (writeRight off) || (p = 0x06 && who ≠ .ec3) then
    (protRefuse s who true p addr, false)
  else pageWriteGo s who p off v

/-! ### The address map (01 Table 6) -/

/-- What an address of Table 6 is to an initiator. -/
inductive Place where
  | rom
  | tcm (n : Nat) (a : Nat)   -- TCM of core `n`, byte address of its home copy
  | slot (x : Nat)
  | slipway
  | sets
  | sram
  | frm
  | vault
  | page (p off : Nat)
  | window (w : Nat)
  | ring (dev a : Nat)
  | nowhere
  deriving DecidableEq, Repr

/-- Number of a core by its initiator; the pair is core 0. -/
def whoCore : Who → Option Nat
  | .app => some 0 | .ec2 => some 2 | .ec3 => some 3 | _ => none

/-- The place of address `a` (01 Table 6; R297 for the pair's TCM). -/
def place (who : Who) (a : Nat) : Place :=
  if a < 0x18000 then .rom
  else if 0x01000000 ≤ a ∧ a < 0x01010000 then
    match whoCore who with
    | some n => .tcm n (0x01100000 + n * 0x10000 + a % 0x10000)
    | none => .nowhere
  else if 0x01100000 ≤ a ∧ a < 0x01140000 then
    let n := (a - 0x01100000) / 0x10000
    if n = 1 then (if who = .app then .tcm 0 (a - 0x10000) else .nowhere) else .tcm n a
  else if 0x10000000 ≤ a ∧ a < 0x10200000 then .slot 0
  else if 0x10200000 ≤ a ∧ a < 0x10400000 then .slot 1
  else if 0x10400000 ≤ a ∧ a < 0x10600000 then .slipway
  else if 0x10600000 ≤ a ∧ a < 0x10700000 then .sets
  else if 0x20000000 ≤ a ∧ a < 0x20200000 then .sram
  else if 0x20200000 ≤ a ∧ a < 0x20280000 then .frm
  else if 0x30000000 ≤ a ∧ a < 0x30040000 then .vault
  else if 0x40000000 ≤ a ∧ a < 0x40100000 then .page ((a - 0x40000000) / 4096) (a % 4096)
  else if 0x60000000 ≤ a ∧ a < 0x80000000 then .window (a - 0x60000000)
  else if 0x80000000 ≤ a ∧ a < 0xC0000000 then .ring ((a - 0x80000000) / 0x100000) (a % 0x100000)
  else .nowhere

/-- The initiator is a core. -/
def whoIsCore (who : Who) : Bool := (whoCore who).isSome

/-- The initiator holds right bit `b` on page `p`. -/
def whoHas (s : State) (who : Who) (p b : Nat) : Bool := (rightsOf s (whoKind who) p).testBit b

/-- An answer of the memory map: granted, a bus error, or a refusal that PROT records under a page. -/
inductive Grant where
  | ok | bad | refused (page : Nat)
  deriving DecidableEq, Repr

/-- The host, once the manifest is loaded; before it every access of the host is refused (R51, R384). -/
def hostMay (s : State) (who : Who) : Bool := who = .host && manifestLoaded s

/-- The right of an access to a memory (01 Table 6, R52, R297, R487, R542); EC3 writes the slots but the active one: an
installation, in which R29 lets it write that one too, ends before a slot becomes active (R84, R482); `dma`: the access is a DMA transfer under the rights of
`who` (R17). -/
def memGrant (s : State) (who : Who) (dma wrt : Bool) (a : Nat) : Place → Grant
  | .rom => if who = .ec3 && !dma && !wrt then .ok else .bad
  | .tcm n _ =>
    if dma then .bad
    else if whoIsCore who then .ok
    else if who = .host || who = .sbp then (if whoHas s who (0xA0 + n) wrt.toNat then .ok else .refused (0xA0 + n))
    else .bad
  | .slot x =>
    if dma || !whoIsCore who then .bad
    else if !wrt then .ok
    else if who = .ec3 && activeSlot s ≠ some x then .ok else .bad
  | .slipway =>
    if dma then .bad
    else if who = .ec3 then .ok
    else if !wrt then .bad
    else if whoIsCore who then .ok
    else if whoHas s who 0x07 1 then .ok else .refused 0x07
  | .sets =>
    if dma || who = .ec2 then .bad
    else if wrt && genProtected s a then .bad
    else if who = .ec3 then .ok
    else if wrt && decide (a < 0x10601000) then .bad -- the directory is written only by EC3 (R88)
    else match who with
      | .ring _ => .bad
      | _ => if whoHas s who 0x07 wrt.toNat then .ok else .refused 0x07
  | .sram => if whoIsCore who || hostMay s who || dma then .ok else .bad
  | .frm => if whoIsCore who || hostMay s who || dma then .ok else .bad
  | .vault => if who = .ec3 && !dma then .ok else .bad
  | _ => .bad

/-- Bytes of memory as the initiator reads them: the ROM's content, the active slot deciphered (R29), all else as stored. -/
def memBytes (s : State) (a n : Nat) : Place → List Byte
  | .rom => (List.range n).map fun i => Config.romByte (a + i)
  | .slot x =>
    (List.range n).map fun i =>
      if activeSlot s = some x then slotByte s x (a + i - slotBase x) else memGet s.mem (a + i)
  | .tcm _ b => memGetList s.mem b n
  | _ => memGetList s.mem a n

/-- A refused page names PROT's record. -/
def grantRefuse (s : State) (who : Who) (wrt : Bool) (a : Nat) : Grant → State
  | .refused p => protRefuse s who wrt p a
  | _ => s

/-- Page of a core. -/
def corePage (who : Who) : Nat := 0xA0 + (whoCore who).getD 0

/-- Key of an initiator in `winBank`: its kind; 16 stands for the DMA channel that runs. -/
def winKey (who : Who) (dma : Bool) : Nat := if dma then 16 else whoKind who

/-- A read through the external window in bank `b` (R30, R511, R512, R509): a busy chip-select stalls. Whether a NAND reports the read as
uncorrectable is a free value (R514). -/
def windowRead (s : State) (b w n : Nat) : State × Answer :=
  let a := b * 0x20000000 + w
  if blockOff s 0x98 then (s, .err)
  else match xspCs s a with
    | none => (s, .err)
    | some (k, _) =>
      if xspBusy s k then (s, .stall)
      else
        let bad := if xspNand s k then freshNat s 2 else (s, 0)
        if bad.2 = 1 then (xspReadError bad.1, .err) else (bad.1, .val (BitVec.ofNat 32 (bytesToNat (extRead s a n))))

/-- A window read of an initiator; one that stalls keeps the bank under which it was issued (R30), the host's until its frame's last
word. -/
def windowReadBy (s : State) (k w n : Nat) : State × Answer :=
  let b := winBankOf s k
  let r := windowRead s b w n
  if r.2 = .stall then (winSet r.1 k (b + 1), r.2) else if k = 4 then r else (winSet r.1 k 0, r.2)

/-- The access of a page at `a` stands: its clock has stopped (R26). -/
def accessStands (s : State) (who : Who) (a : Nat) : Bool :=
  sysLost s ||
    match place who a with
    | .page p _ => pageStands s p
    | .ring dev off => dev = 0 && jxrOwn s && pageStands s (off / 4096)
    | _ => false

/-- A read of `n` bytes (1, 2 or 4) at an aligned address by an initiator. Halves of the host and the side-band port are words. A read
that a stopped clock holds up stalls (R26). The read that meets a double-bit error of a TCM gets a bus error (R296). -/
def busRead (s : State) (who : Who) (dma : Bool) (a n : Nat) : State × Answer :=
  if accessStands s who a then (s, .stall) else
  match place who a with
  | .page p off =>
    if n ≠ 4 then (s, .err)
    else
      let r := pageRead s who p off a
      (r.1, match r.2 with | some v => .val v | none => .err)
  | .window w => if whoIsCore who || hostMay s who || dma then windowReadBy s (winKey who dma) w n else (s, .err)
  | .ring dev off =>
    if n ≠ 4 || dma || !(whoIsCore who) then (s, .err)
    else if dev = 0 && jxrOwn s then
      let r := pageRead s who (off / 4096) (off % 4096) a
      (r.1, match r.2 with | some v => .val v | none => .err)
    else
      match brgCore s (corePage who) (whoKind who) dev off none with
      | none => (brgCoreClear s (corePage who), .err)
      | some (t, some v) => (t, .val v)
      | some (t, none) => (t, .stall)
  | .nowhere => (s, .err)
  | .tcm x b =>
    match memGrant s who dma false a (.tcm x b) with
    | .ok =>
      if s.tcmBad.testBit x then ({ s with tcmBad := s.tcmBad - 2 ^ x }, .err)
      else (s, .val (BitVec.ofNat 32 (bytesToNat (memBytes s a n (.tcm x b)))))
    | g => (grantRefuse s who false a g, .err)
  | pl =>
    match memGrant s who dma false a pl with
    | .ok => (s, .val (BitVec.ofNat 32 (bytesToNat (memBytes s a n pl))))
    | g => (grantRefuse s who false a g, .err)

/-- A write has to wait: it goes to the ring window and the posting queue has no room (R362), or a clock stands (R26). -/
def writeWaits (s : State) (who : Who) (a : Nat) : Bool :=
  accessStands s who a ||
    match place who a with
    | .ring dev _ => !(dev = 0 && jxrOwn s) && decide (64 ≤ (s.brg.queue.filter (·.kind ≠ 0)).length)
    | _ => false

/-- A posted write of the window is stalled while the posting queue is full (R362): the 65th entry is the stalled one. -/
def windowWrite (s : State) (who : Who) (dev a : Nat) (v : Word) : State × Bool :=
  if !brgIssueOk s (whoKind who) dev a 1 then (s, false) else (brgPost s (whoKind who) dev a v, true)

/-- A write of `n` bytes (1, 2 or 4) at an aligned address. -/
def busWrite (s : State) (who : Who) (dma : Bool) (a n : Nat) (v : Word) : WrRes :=
  let bytes := (wordBytes v).take n
  match place who a with
  | .page p off => if n ≠ 4 then (s, false) else pageWrite s who p off a v
  | .ring dev off =>
    if n ≠ 4 || dma || !(whoIsCore who || hostMay s who) then (s, false)
    else if dev = 0 && jxrOwn s then pageWrite s who (off / 4096) (off % 4096) a v
    else windowWrite s who dev off v
  | .window _ => (s, false)
  | .nowhere => (s, false)
  | .frm =>
    match memGrant s who dma true a .frm with
    | .ok => if frmRefused s a then (frmReject s, false) else (frmStore s a bytes, true)
    | g => (grantRefuse s who true a g, false)
  | .tcm n b =>
    match memGrant s who dma true a (.tcm n b) with
    | .ok => ({ s with mem := memSetList s.mem b bytes }, true)
    | g => (grantRefuse s who true a g, false)
  | pl =>
    match memGrant s who dma true a pl with
    | .ok => ({ s with mem := memSetList s.mem a bytes }, true)
    | g => (grantRefuse s who true a g, false)

end Sys2Proof.Machine
end

