-- ==== Sys2Proof/Machine/Flags.lean ====
section
/-! DEFINITION. Arithmetic and flags of the Elroth cores (14, Tables 2, 6 and 7). -/

namespace Sys2Proof.Machine

/-- Z and N of a 32-bit result. -/
def flagsZN (c : CoreSt) (r : Word) : CoreSt := { c with z := decide (r = 0), n := r.msb }

/-- A 32-bit result into A, with AG its sign (R315). -/
def setA (c : CoreSt) (r : Word) : CoreSt := { c with a := r, ag := if r.msb then 0xFF else 0 }

/-- A and its Z and N. -/
def setAZN (c : CoreSt) (r : Word) : CoreSt := flagsZN (setA c r) r

/-- The 40-bit accumulator AG:A. -/
def a40 (c : CoreSt) : BitVec 40 := c.ag ++ c.a

/-- A40 replaced. -/
def setA40 (c : CoreSt) (v : BitVec 40) : CoreSt := { c with a := v.extractLsb' 0 32, ag := v.extractLsb' 32 8 }

/-- Sum of two words and a carry: result, carry, signed overflow. -/
def addWord (x y : Word) (cin : Nat) : Word × Bool × Bool :=
  let r := BitVec.ofNat 32 (x.toNat + y.toNat + cin)
  (r, decide (2 ^ 32 ≤ x.toNat + y.toNat + cin), decide (x.toInt + y.toInt + (cin : Int) ≠ r.toInt))

/-- Difference of two words and a borrow: result, borrow, signed overflow (R320). -/
def subWord (x y : Word) (bin : Nat) : Word × Bool × Bool :=
  let r := x - y - BitVec.ofNat 32 bin
  (r, decide (x.toNat < y.toNat + bin), decide (x.toInt - y.toInt - (bin : Int) ≠ r.toInt))

/-- C, V, Z and N of a sum or a difference. -/
def flagsArith (c : CoreSt) (r : Word × Bool × Bool) : CoreSt := { flagsZN c r.1 with c := r.2.1, v := r.2.2 }

/-- A condition code holds (14 Table 6). -/
def condHolds (c : CoreSt) (cc : BitVec 4) : Bool :=
  match cc.toNat with
  | 0 => true
  | 1 => c.z
  | 2 => !c.z
  | 3 => c.c
  | 4 => !c.c
  | 5 => c.n
  | 6 => !c.n
  | 7 => c.v
  | 8 => !c.t
  | 9 => !c.c && !c.z
  | 10 => c.c || c.z
  | 11 => c.n == c.v
  | 12 => c.n != c.v
  | 13 => !c.z && (c.n == c.v)
  | 14 => c.z || (c.n != c.v)
  | _ => c.t

/-- F (14 Table 2). -/
def coreF (c : CoreSt) : Nat :=
  c.c.toNat + 2 * c.v.toNat + 4 * c.n.toNat + 8 * c.z.toNat + 16 * c.i.toNat + 32 * c.t.toNat + 64 * c.e.toNat + 256 * c.rp

/-- The status word SW: K in bits 24:16 and F (R331). -/
def coreSW (c : CoreSt) : Word := BitVec.ofNat 32 (coreF c + 65536 * c.k)

/-- C, V, N, Z, I and T from a word (R314). -/
def setFlags (c : CoreSt) (w : Word) : CoreSt :=
  { c with c := bitOf w 0, v := bitOf w 1, n := bitOf w 2, z := bitOf w 3, i := bitOf w 4, t := bitOf w 5 }

/-- F in full, and K, from a popped SW (R331). -/
def setSW (c : CoreSt) (w : Word) : CoreSt :=
  { setFlags c w with e := bitOf w 6, rp := (w.toNat / 256) % 16, k := (w.toNat / 65536) % 512 }

/-- A register by its code (14 Table 5), as PUSH and MVR read it; none: a code from 8 on (R319). -/
def regRead (c : CoreSt) (r : Nat) : Option Word :=
  match r with
  | 0 => some c.a
  | 1 => some c.x
  | 2 => some c.y
  | 3 => some c.s
  | 4 => some c.b
  | 5 => some (BitVec.ofNat 32 c.k)
  | 6 => some (coreSW c)
  | 7 => some (c.ag.signExtend 32)
  | _ => none

/-- A register by its code, as POP and MVR write it (R314, R315). -/
def regWrite (c : CoreSt) (r : Nat) (v : Word) : CoreSt :=
  match r with
  | 0 => setA c v
  | 1 => { c with x := v }
  | 2 => { c with y := v }
  | 3 => { c with s := v }
  | 4 => { c with b := v &&& 0xFFFFF000 }
  | 5 => { c with k := min v.toNat 256 }
  | 6 => setFlags c v
  | _ => { c with ag := v.extractLsb' 0 8 }

/-- The last bit out of a right shift of a 40-bit value by `n` > 0. -/
def lastOut (v n : Nat) : Bool := v.testBit (n - 1)

end Sys2Proof.Machine
end

