-- ==== Sys2Proof/Machine/Operands.lean ====
section
/-! DEFINITION. Operand forms of the Elroth cores (14, Table 3, R316 to R319), the accesses of a core, exceptions, interrupts and
the frame that runs one instruction (13, R299 to R302; 14, R330 to R332). -/

namespace Sys2Proof.Machine

/-- What an instruction comes to: done with the new registers, an exception by its vector, or a stall. -/
inductive CoreOut where
  | done (s : State) (c : CoreSt)
  | exc (s : State) (vec : Nat)
  | stall (s : State)

/-- What an instruction runs in: its core, the state, the registers, its length, and whether it is under a repeat. -/
structure CoreCtx where
  core : EcCore
  s : State
  c : CoreSt
  len : Nat
  rept : Bool

/-- The instruction ends with the registers `c` at the next instruction. -/
def CoreCtx.next (x : CoreCtx) (s : State) (c : CoreSt) : CoreOut := .done s { c with p := x.c.p + BitVec.ofNat 32 x.len }

/-! ### Accesses -/

/-- Under a repeat only TCM, SRAM, FRM and MRAM may be reached (R332). -/
def reptPlace (k : EcCore) (a : Nat) : Bool :=
  match place (coreWho k) a with
  | .tcm _ _ | .sram | .frm | .slot _ | .slipway | .sets => true
  | _ => false

/-- An access is misaligned (R316). -/
def misaligned (a : Word) (n : Nat) : Bool := a.toNat % n ≠ 0

/-- A data read of `n` bytes: ALIGN, then BUSERR, else the value; a stall leaves the instruction to be run again. -/
def CoreCtx.read (x : CoreCtx) (s : State) (a : Word) (n : Nat) (f : State → Word → CoreOut) : CoreOut :=
  if misaligned a n then .exc s 4
  else if x.rept && !reptPlace x.core a.toNat then .exc s 2
  else
    let r := busRead s (coreWho x.core) false a.toNat n
    match r.2 with
    | .val v => f r.1 v
    | .err => .exc r.1 2
    | .stall => .stall r.1

/-- A core's write has to wait: the posting queue has no room for it (R362), or a clock stands (R26). -/
def postFull (s : State) (k : EcCore) (a : Nat) : Bool := writeWaits s (coreWho k) a

/-- A data write of `n` bytes. -/
def CoreCtx.write (x : CoreCtx) (s : State) (a : Word) (n : Nat) (v : Word) (f : State → CoreOut) : CoreOut :=
  if misaligned a n then .exc s 4
  else if x.rept && !reptPlace x.core a.toNat then .exc s 2
  else if postFull s x.core a.toNat then .stall s
  else
    let r := busWrite s (coreWho x.core) false a.toNat n v
    if r.2 then f r.1 else .exc r.1 2

/-- The place of an access that BRG carries out for the core. -/
def overRing (s : State) (k : EcCore) (a : Nat) : Bool :=
  match place (coreWho k) a with
  | .ring dev _ => !(dev = 0 && jxrOwn s)
  | _ => false

/-- The data of the first read of an instruction whose second is awaited. -/
def firstHeld (s : State) (k : EcCore) : Option Word :=
  match storeGet seqDefault s.brg.first (corePg k) with
  | 0 => none
  | n + 1 => some (BitVec.ofNat 32 n)

/-- That data kept (its value + 1), or gone (0). -/
def firstSet (s : State) (k : EcCore) (n : Nat) : State :=
  if storeGet seqDefault s.brg.first (corePg k) = n then s
  else { s with brg := { s.brg with first := storeSet seqDefault s.brg.first (corePg k) n } }

/-- Two data reads of `n` bytes, at `a` and then at `b`. Both are checked for alignment and place before either is made; where the second
fails or waits, the first has not been made (R316), but for two reads over the ring, whose first data is kept until the second's has come. -/
def CoreCtx.read2 (x : CoreCtx) (a b : Word) (n : Nat) (f : State → Word → Word → CoreOut) : CoreOut :=
  let who := coreWho x.core
  if misaligned a n || misaligned b n then .exc x.s 4
  else if x.rept && !(reptPlace x.core a.toNat && reptPlace x.core b.toNat) then .exc x.s 2
  else
    let r := match firstHeld x.s x.core with
      | some v => (x.s, Answer.val v)
      | none => busRead x.s who false a.toNat n
    match r.2 with
    | .err => .exc r.1 2
    | .stall => .stall r.1
    | .val v =>
      let q := busRead r.1 who false b.toNat n
      match q.2 with
      | .val w => f (firstSet q.1 x.core 0) v w
      | .err => .exc (busRead x.s who false b.toNat n).1 2
      | .stall =>
        if overRing x.s x.core a.toNat && overRing x.s x.core b.toNat then .stall (firstSet q.1 x.core (v.toNat + 1))
        else .stall (busRead x.s who false b.toNat n).1

/-! ### Operand forms (14 Table 3) -/

/-- Length of a G-format instruction by its M. -/
def modeLen (m : Nat) : Nat := if m = 3 ∨ m = 4 then 6 else if m = 2 ∨ m = 7 ∨ m = 8 ∨ m = 13 ∨ m = 14 ∨ m = 15 then 4 else 2

/-- Length of an instruction. -/
def formLen : Form → Nat
  | .g f => modeLen f.m.toNat
  | .p _ => 2

/-- The operand of an instruction: a value, or an address. -/
inductive Loc where
  | val (v : Word)
  | mem (ea : Word)
  deriving DecidableEq, Repr

/-- ext16 sign-extended. -/
def ext16 (f : GForm) : Word := (f.ext.extractLsb' 0 16).signExtend 32

/-- The operand that M, SH and the extension select; none: ILLEGAL (R317, R319). -/
def gLoc (c : CoreSt) (f : GForm) : Option Loc :=
  let sh4 : Word := f.sh.zeroExtend 32 <<< 2
  let plain (l : Loc) : Option Loc := if f.sh = 0 then some l else none
  match f.m.toNat with
  | 0 => none
  | 1 => some (.val (f.sh.signExtend 32))
  | 2 => plain (.val (ext16 f))
  | 3 => plain (.val f.ext)
  | 4 => plain (.mem f.ext)
  | 5 => some (.mem (c.x + sh4))
  | 6 => some (.mem (c.y + sh4))
  | 7 => plain (.mem (c.x + ext16 f))
  | 8 => plain (.mem (c.y + ext16 f))
  | 9 => plain (.mem (c.x + c.y))
  | 10 => plain (.mem c.x)
  | 11 => plain (.mem c.y)
  | 12 => some (.mem (c.s + sh4))
  | 13 => plain (.mem (c.s + ext16 f))
  | 14 => plain (.mem (c.p + 4 + ext16 f))
  | _ => if f.ext.extractLsb' 12 4 = 0 then plain (.mem (c.b + (f.ext.extractLsb' 0 12).zeroExtend 32)) else none

/-- The operand of either format; P: EA = B + 4 W (R318). -/
def formLoc (c : CoreSt) : Form → Option Loc
  | .g f => gLoc c f
  | .p w => some (.mem (c.b + (w.zeroExtend 32 <<< 2)))

/-- The address of an operand that must be one: modes 4 to 15, or P format. -/
def formEa (c : CoreSt) (f : Form) : Option Word :=
  match formLoc c f with
  | some (.mem ea) => some ea
  | _ => none

/-- Post-increment of the index by the operand size (R317). -/
def bumped (c : CoreSt) (f : Form) (size : Nat) : CoreSt :=
  match f with
  | .g g => if g.m = 10 then { c with x := c.x + BitVec.ofNat 32 size } else if g.m = 11 then { c with y := c.y + BitVec.ofNat 32 size } else c
  | .p _ => c

/-- The operand m of a word instruction, any mode but 0. -/
def CoreCtx.operand (x : CoreCtx) (f : Form) (k : State → CoreSt → Word → CoreOut) : CoreOut :=
  match formLoc x.c f with
  | none => .exc x.s 3
  | some (.val v) => k x.s x.c v
  | some (.mem ea) => x.read x.s ea 4 fun s v => k s (bumped x.c f 4) v

/-- A narrow operand of `n` bytes in memory. -/
def CoreCtx.narrow (x : CoreCtx) (f : Form) (n : Nat) (k : State → CoreSt → Word → CoreOut) : CoreOut :=
  match formEa x.c f with
  | none => .exc x.s 3
  | some ea => x.read x.s ea n fun s v => k s (bumped x.c f n) v

/-- A store of `n` bytes of `v`. -/
def CoreCtx.store (x : CoreCtx) (f : Form) (n : Nat) (v : Word) : CoreOut :=
  match formEa x.c f with
  | none => .exc x.s 3
  | some ea => x.write x.s ea n v fun s => x.next s (bumped x.c f n)

/-- M must be 0, as in the instructions whose M is fixed (R318, R319). -/
def CoreCtx.fixed (x : CoreCtx) (m : BitVec 4) (k : CoreOut) : CoreOut := if m = 0 then k else .exc x.s 3

/-! ### The stack -/

/-- S after a push lies below EC.SLIM (13 Table 3, vector 5). -/
def stackLow (s : State) (k : EcCore) (sp : Word) : Bool :=
  let lim := cfg s (corePg k) R.EC.SLIM.LIM * 4
  lim ≠ 0 && decide (sp.toNat < lim)

/-- A push of `v`, then the rest with S lowered. -/
def CoreCtx.push (x : CoreCtx) (s : State) (v : Word) (f : State → Word → CoreOut) : CoreOut :=
  let sp := x.c.s - 4
  if stackLow s x.core sp then .exc s 5 else x.write s sp 4 v fun s => f s sp

/-! ### Exceptions and interrupts (R299 to R301, R331) -/

/-- Vector 1 FETCH: the instruction at `p` may be fetched (R29, R294). -/
def fetchOk (s : State) (k : EcCore) (p : Word) (len : Nat) : Bool :=
  ecFetchable s (corePg k) p.toNat && ecFetchable s (corePg k) (p.toNat + len - 1)

/-- Entry to vector `v` with running priority `rp`: P and SW are pushed, E clears, P takes the handler's address. The Nat: the
vector of what stopped it. -/
def coreEnter (s : State) (k : EcCore) (c : CoreSt) (v rp : Nat) (exception : Bool) : Except Nat State :=
  let s1 := c.s - 4
  let s2 := c.s - 8
  let low := stackLow s k s2 && (!exception || !stackLow s k c.s)
  if low then .error 5
  else if misaligned s1 4 then .error 4
  else
    let w1 := busWrite s (coreWho k) false s1.toNat 4 c.p
    let w2 := busWrite w1.1 (coreWho k) false s2.toNat 4 (coreSW c)
    let h := busRead w2.1 (coreWho k) false (cfg s (corePg k) R.EC.VBASE.BASE * 1024 + 4 * v) 4
    if !w1.2 || !w2.2 then .error 2
    else match h.2 with
      | .val a =>
        .ok (coreSet (firstSet h.1 k 0) k
          { c with s := s2, p := a &&& 0xFFFFFFFE, e := false, rep := false, repNew := false, repIns := none, rp := rp, wait := .none })
      | _ => .error 2

/-- The core halts with a double fault (R301). -/
def coreHalt (s : State) (k : EcCore) (c : CoreSt) : State := raiseP (coreSet s k { c with st := 3, wait := .none }) (corePg k) 3

/-- Exception `v`, 1 to 5, with the registers `c` as before the instruction (R301, R316, R332); what the instruction had read over the
ring is gone (R369). -/
def coreExc (s : State) (k : EcCore) (c : CoreSt) (v : Nat) : State :=
  let p := corePg k
  let s := firstSet (brgCoreClear s p) k 0
  let s := setF (wr s p 0x118 c.p) p R.EC.FCODE.VEC v
  let s := if v = 1 then raiseP s p 1 else if v = 2 then raiseP s p 2 else if v = 5 then raiseP s p 4 else s
  if c.rp = 9 then coreHalt s k c
  else match coreEnter s k c v 9 true with
    | .ok t => t
    | .error _ => coreHalt s k c

/-- Level and enable of vector `v` (R301). -/
def vecLevel (s : State) (k : EcCore) (v : Nat) : Option Nat :=
  let w := (cfgW s (corePg k) (0x840 + 4 * (v / 8))).toNat / 2 ^ (4 * (v % 8))
  if w.testBit 3 then some (w % 8) else none

/-- Owner code of a core (02 Table 11). -/
def coreKind (k : EcCore) : Nat := whoKind (coreWho k)

/-- Vector `v` is pending for the core (13 Table 3, R300, R302). -/
def vecPending (s : State) (k : EcCore) (v : Nat) : Bool :=
  if v < 16 then false
  else if v < 80 then bitOf (rd s (corePg k) (0x108 + 4 * ((v - 16) / 32))) ((v - 16) % 32)
  else pageOwner s (v - 80) = coreKind k && pageIrq s (v - 80)

/-- The vector that may be taken: the highest level wins, a tie goes to the lower number (R301). -/
def vecTaken (s : State) (k : EcCore) (c : CoreSt) : Option (Nat × Nat) :=
  if !c.i then none
  else
    (List.range 256).foldl (fun best v =>
      match (if vecPending s k v then vecLevel s k v else none) with
      | none => best
      | some l =>
        if l + 1 ≤ c.rp then best
        else match best with
          | some (_, bl) => if bl < l then some (v, l) else best
          | none => some (v, l)) none

/-- A pending line is consumed (R302). -/
def eventTake (s : State) (k : EcCore) (line : Nat) : State :=
  let off := 0x108 + 4 * (line / 32)
  wr s (corePg k) off (setBit (rd s (corePg k) off) (line % 32) false)

/-- An interrupt is pending that may be taken: not during a REP, or between a REPI and its first iteration (R301, R330, R331). -/
def interruptOpen (s : State) (k : EcCore) : Bool :=
  let c := coreGet s k
  running s && !sysLost s && c.st = 1 && !c.rep && !c.repNew && (vecTaken s k c).isSome

/-- It may be taken between two instructions: not in a read of the ring window (R369). -/
def interruptDue (s : State) (k : EcCore) : Bool :=
  interruptOpen s k && storeGet bufDefault s.brg.cores (corePg k) = .idle

/-- INTERRUPT_ENTRY: a wait is left and runs again after RTI (R301, R329, R331). -/
def coreInterrupt (s : State) (k : EcCore) : State :=
  let c := coreGet s k
  if !interruptDue s k then s
  else match vecTaken s k c with
    | none => s
    | some (v, l) =>
      let t := if v < 80 then eventTake s k (v - 16) else s
      match coreEnter (winSet t (coreKind k) 0) k c v (l + 1) false with
      | .ok t => t
      | .error x => coreExc s k c x

/-! ### One instruction -/

/-- The core executes: it is released, does not wait, and its clock runs. -/
def coreGoes (s : State) (k : EcCore) : Bool :=
  running s && !sysLost s && (coreGet s k).st = 1 && (coreGet s k).wait = .none

/-- The command of instruction `ins`, whose effect is `f`: under a repeat only the one instruction fetched at its first iteration runs
(R330). -/
def coreStep (s : State) (k : EcCore) (ins : Instr) (f : State → State) : State :=
  let c := coreGet s k
  if !(c.rep || c.e) then f s
  else if !coreGoes s k then s
  else match c.repIns with
    | some i => if i = ins then f s else s
    | none =>
      let t := f s
      let d := coreGet t k
      if d.rep || d.e then coreSet t k { d with repIns := some ins } else t

/-- One instruction of a core, or one iteration under a repeat, fetched at the first (R330 to R332). An instruction after a REP that may
not be repeated raises ILLEGAL at the REP, one at which a restored repeat would resume at its own address; a held, halted or waiting core
executes nothing. -/
def coreRun (s : State) (k : EcCore) (len : Nat) (repeatable : Bool) (f : CoreCtx → CoreOut) : State :=
  let c := coreGet s k
  let rept := c.rep || c.e
  if !coreGoes s k then s
  else if c.repNew && !repeatable then
    coreExc s k { c with p := c.repP, k := c.repK, x := c.repX, y := c.repY, rep := false, repNew := false, e := false } 3
  else if rept && !repeatable then coreExc s k c 3
  else if (!rept || c.repIns.isNone) && !fetchOk s k c.p len then coreExc s k c 1
  else match f ⟨k, s, c, len, rept⟩ with
    | .done t d =>
      if !rept then coreSet t k d
      else if c.k ≤ 1 then
        coreSet t k { d with k := 0, rep := false, e := false, repNew := false, repIns := none, p := c.p + BitVec.ofNat 32 len }
      else coreSet t k { d with k := c.k - 1, repNew := false, p := c.p }
    | .exc t v => coreExc t k c v
    | .stall t => t

end Sys2Proof.Machine
end

