-- ==== Sys2Proof/Machine/Elroth.lean ====
section
/-! DEFINITION. The Elroth instructions (14, Table 7), each once over the operand forms. -/

namespace Sys2Proof.Machine

/-! ### Loads, stores and moves -/

def ecLd (s : State) (k : EcCore) (f : Form) : State :=
  coreRun s k (formLen f) (match f with | .g _ => true | .p _ => false) fun x => x.operand f fun s c v => x.next s (setAZN c v)

def ecSt (s : State) (k : EcCore) (f : Form) : State :=
  coreRun s k (formLen f) (match f with | .g _ => true | .p _ => false) fun x => x.store f 4 x.c.a

/-- LDX and LDY. -/
def ecLdIdx (s : State) (k : EcCore) (f : Form) (y : Bool) : State :=
  coreRun s k (formLen f) (match f with | .g _ => true | .p _ => false) fun x =>
    x.operand f fun s c v => x.next s (if y then { c with y := v } else { c with x := v })

/-- STX and STY. -/
def ecStIdx (s : State) (k : EcCore) (f : Form) (y : Bool) : State :=
  coreRun s k (formLen f) (match f with | .g _ => true | .p _ => false) fun x => x.store f 4 (if y then x.c.y else x.c.x)

/-- ADRX and ADRY: the operand's address; modes 10 and 11 are refused (R317). -/
def ecAdr (s : State) (k : EcCore) (f : GForm) (y : Bool) : State :=
  coreRun s k (modeLen f.m.toNat) false fun x =>
    match (if f.m = 10 || f.m = 11 then none else formEa x.c (.g f)) with
    | none => .exc x.s 3
    | some ea => x.next x.s (if y then { x.c with y := ea } else { x.c with x := ea })

/-- LD16 and LD8: zero-extended. -/
def ecLdNarrow (s : State) (k : EcCore) (f : GForm) (n : Nat) : State :=
  coreRun s k (modeLen f.m.toNat) true fun x => x.narrow (.g f) n fun s c v => x.next s (setAZN c v)

/-- ST16 and ST8. -/
def ecStNarrow (s : State) (k : EcCore) (f : GForm) (n : Nat) : State :=
  coreRun s k (modeLen f.m.toNat) true fun x => x.store (.g f) n x.c.a

def ecStz (s : State) (k : EcCore) (w : BitVec 10) : State := coreRun s k 2 false fun x => x.store (.p w) 4 0

/-- SWAP on a local page: R and W, and the right that a write of the register needs, else nothing is read or written (R322). -/
def swapPage (x : CoreCtx) (f : Form) (p off : Nat) (a : Nat) : CoreOut :=
  let who := coreWho x.core
  let r := rightsOf x.s (whoKind who) p
  if pageStands x.s p then .stall x.s
  else if (blkOf p).isSome && !(r.testBit 0 && r.testBit 1 && (r.testBit (writeRight off) || (p = 0x06 && vltIface off))) then
    .exc (protRefuse x.s who (r.testBit 0) p a) 2
  else
    let r := pageRead x.s who p off a
    match r.2 with
    | none => .exc r.1 2
    | some v =>
      let w := pageWrite r.1 who p off a x.c.a
      if w.2 then x.next w.1 (setAZN (bumped x.c f 4) v) else .exc (pageWrite x.s who p off a x.c.a).1 2

/-- SWAP (R322): TCM, SRAM, FRM, local pages, and the ring window as a LOCK. -/
def ecSwap (s : State) (k : EcCore) (f : Form) : State :=
  coreRun s k (formLen f) false fun x =>
    match formEa x.c f with
    | none => .exc x.s 3
    | some ea =>
      if misaligned ea 4 then .exc x.s 4
      else match place (coreWho k) ea.toNat with
        | .page p off => swapPage x f p off ea.toNat
        | .ring dev off =>
          if dev = 0 && jxrOwn x.s then swapPage x f (off / 4096) (off % 4096) ea.toNat
          else match brgCore x.s (corePg k) (coreKind k) dev off (some x.c.a) with
            | none => .exc (brgCoreClear x.s (corePg k)) 2
            | some (t, some v) => x.next t (setAZN (bumped x.c f 4) v)
            | some (t, none) => .stall t
        | .tcm _ _ | .sram | .frm =>
          x.read x.s ea 4 fun _ v => x.write x.s ea 4 x.c.a fun t => x.next t (setAZN (bumped x.c f 4) v)
        | _ => .exc x.s 2

def ecPush (s : State) (k : EcCore) (m : BitVec 4) (r : BitVec 5) : State :=
  coreRun s k 2 false fun x => x.fixed m
    (match regRead x.c r.toNat with
     | none => .exc x.s 3
     | some v => x.push x.s v fun t sp => x.next t { x.c with s := sp })

/-- POP; POP S loads S without increment (14 Table 5). -/
def ecPop (s : State) (k : EcCore) (m : BitVec 4) (r : BitVec 5) : State :=
  coreRun s k 2 false fun x => x.fixed m
    (if 7 < r.toNat then .exc x.s 3
     else x.read x.s x.c.s 4 fun t v => x.next t (regWrite { x.c with s := x.c.s + 4 } r.toNat v))

def ecMvr (s : State) (k : EcCore) (d : BitVec 4) (r : BitVec 5) : State :=
  coreRun s k 2 false fun x =>
    match regRead x.c r.toNat with
    | none => .exc x.s 3
    | some v => if 7 < d.toNat then .exc x.s 3 else x.next x.s (regWrite x.c d.toNat v)

/-- MOVB: [Y] is looked at before [X] is read; where its write is refused, [X] has not been read (R35, R316). -/
def ecMovb (s : State) (k : EcCore) (g : BitVec 4 × BitVec 5) : State :=
  coreRun s k 2 true fun x => x.fixed g.1
    (if g.2 ≠ 0 then .exc x.s 3
     else if misaligned x.c.y 4 then .exc x.s 4
     else if postFull x.s x.core x.c.y.toNat then .stall x.s
     else x.read x.s x.c.x 4 fun t v =>
      match x.write t x.c.y 4 v fun t => x.next t { x.c with x := x.c.x + 4, y := x.c.y + 4 } with
      | .exc _ _ => x.write x.s x.c.y 4 v fun u => .exc u 2
      | o => o)

/-! ### Arithmetic and logic -/

/-- ADD, ADC, SUB, SBC: `sub` and whether the carry takes part. -/
def ecArith (s : State) (k : EcCore) (f : Form) (sub carry : Bool) : State :=
  coreRun s k (formLen f) true fun x => x.operand f fun s c v =>
    let cin := if carry then c.c.toNat else 0
    let r := if sub then subWord c.a v cin else addWord c.a v cin
    x.next s (flagsArith (setA c r.1) r)

/-- CMP, CPX and CPY: a difference, flags only. -/
def ecCompare (s : State) (k : EcCore) (f : Form) (reg : CoreSt → Word) : State :=
  coreRun s k (formLen f) false fun x => x.operand f fun s c v => x.next s (flagsArith c (subWord (reg c) v 0))

/-- AND, OR and XOR. -/
def ecLogic (s : State) (k : EcCore) (f : Form) (op : Word → Word → Word) : State :=
  coreRun s k (formLen f) true fun x => x.operand f fun s c v => x.next s (setAZN c (op c.a v))

def ecTst (s : State) (k : EcCore) (f : Form) : State :=
  coreRun s k (formLen f) false fun x => x.operand f fun s c v =>
    x.next s { flagsZN c (c.a &&& v) with t := decide (c.a &&& v ≠ 0) }

/-- ADDX and ADDY. -/
def ecAddIdx (s : State) (k : EcCore) (f : GForm) (y : Bool) : State :=
  coreRun s k (modeLen f.m.toNat) true fun x => x.operand (.g f) fun s c v =>
    x.next s (if y then { c with y := c.y + v } else { c with x := c.x + v })

def ecAdds (s : State) (k : EcCore) (f : GForm) : State :=
  coreRun s k (modeLen f.m.toNat) false fun x => x.operand (.g f) fun s c v => x.next s { c with s := (c.s + v) &&& 0xFFFFFFFC }

def ecLdb (s : State) (k : EcCore) (f : GForm) : State :=
  coreRun s k (modeLen f.m.toNat) false fun x => x.operand (.g f) fun s c v => x.next s { c with b := v &&& 0xFFFFF000 }

def ecMul (s : State) (k : EcCore) (f : GForm) : State :=
  coreRun s k (modeLen f.m.toNat) true fun x => x.operand (.g f) fun s c v =>
    let r := BitVec.ofInt 32 (c.a.toInt * v.toInt)
    x.next s { setAZN c r with v := decide (r.toInt ≠ c.a.toInt * v.toInt) }

/-- MAC: V is sticky (14 Table 7). -/
def ecMac (s : State) (k : EcCore) (m : BitVec 4) (sh : BitVec 5) : State :=
  coreRun s k 2 true fun x => x.fixed m
    (if sh ≠ 0 then .exc x.s 3
     else x.read2 x.c.x x.c.y 2 fun t u w =>
      let sum := (a40 x.c).toInt + (u.extractLsb' 0 16).toInt * (w.extractLsb' 0 16).toInt
      let r := BitVec.ofInt 40 sum
      x.next t { setA40 x.c r with x := x.c.x + 2, y := x.c.y + 2, v := x.c.v || decide (r.toInt ≠ sum) })

/-- SAT and SAT12: A40 clamped, V = clamped. -/
def ecSat (s : State) (k : EcCore) (m : BitVec 4) (sh : BitVec 5) (lo hi : Int) : State :=
  coreRun s k 2 true fun x => x.fixed m
    (if sh ≠ 0 then .exc x.s 3
     else
      let v := clampInt lo hi (a40 x.c).toInt
      x.next x.s { setAZN x.c (BitVec.ofInt 32 v) with v := decide (v ≠ (a40 x.c).toInt) })

/-- C of a shift: the last bit out; for a shift by 0 no bit leaves, and the value is free (14 Table 7; notes/assumptions/41). -/
def shiftC (s : State) (n : Nat) (out : Bool) : State × Bool :=
  if n = 0 then let r := freshNat s 2; (r.1, decide (r.2 = 1)) else (s, out)

/-- SHL and SHR by m AND 31. -/
def ecShift (s : State) (k : EcCore) (f : GForm) (left : Bool) : State :=
  coreRun s k (modeLen f.m.toNat) true fun x => x.operand (.g f) fun s c v =>
    let n := v.toNat % 32
    let out := if left then c.a.toNat.testBit (32 - n) else lastOut c.a.toNat n
    let q := shiftC s n out
    x.next q.1 { setAZN c (if left then c.a <<< n else c.a >>> n) with c := q.2 }

/-- ASR of A40. -/
def ecAsr (s : State) (k : EcCore) (f : GForm) : State :=
  coreRun s k (modeLen f.m.toNat) true fun x => x.operand (.g f) fun s c v =>
    let n := v.toNat % 32
    let r := (a40 c).sshiftRight n
    let q := shiftC s n (lastOut (a40 c).toNat n)
    x.next q.1 { setA40 c r with z := decide (r = 0), n := r.getLsbD 31, c := q.2 }

/-- The SH functions of OP 0x24 that use A alone. -/
def ecUnary (s : State) (k : EcCore) (m : BitVec 4) (f : CoreSt → CoreSt) : State :=
  coreRun s k 2 true fun x => x.fixed m (x.next x.s (f x.c))

def negFn (c : CoreSt) : CoreSt := let r := subWord 0 c.a 0; flagsArith (setA c r.1) r
def notFn (c : CoreSt) : CoreSt := setAZN c (~~~ c.a)
def clrFn (c : CoreSt) : CoreSt := { setAZN c 0 with v := false }
def exthFn (c : CoreSt) : CoreSt := setAZN c ((c.a.extractLsb' 0 16).signExtend 32)
def extbFn (c : CoreSt) : CoreSt := setAZN c ((c.a.extractLsb' 0 8).signExtend 32)
def incFn (c : CoreSt) : CoreSt := { setAZN c (c.a + 1) with v := (addWord c.a 1 0).2.2 }
/-- |A|; 0x8000_0000 is its own, with V set (14 Table 7). -/
def absFn (c : CoreSt) : CoreSt := { setAZN c (if c.a.msb then 0 - c.a else c.a) with v := c.a = 0x80000000 }
def decFn (c : CoreSt) : CoreSt := { setAZN c (c.a - 1) with v := (subWord c.a 1 0).2.2 }

/-! ### Twelve-bit data (R323, R324) -/

def ecLds12 (s : State) (k : EcCore) (f : GForm) : State :=
  coreRun s k (modeLen f.m.toNat) true fun x => x.narrow (.g f) 2 fun s c v => x.next s (setAZN c (v &&& 0xFFF))

def ecSts12 (s : State) (k : EcCore) (f : GForm) : State :=
  coreRun s k (modeLen f.m.toNat) true fun x => x.store (.g f) 2 (x.c.a &&& 0xFFF)

/-- The pair of v0 and v1 in A, as 3 bytes of a 24-bit number, and back. -/
def packPair (a : Word) : Nat := a.toNat % 4096 + a.toNat / 65536 % 4096 * 4096
def unpackPair (n : Nat) : Word := BitVec.ofNat 32 (n % 4096 + n / 4096 % 4096 * 65536)

/-- Byte writes of PK12; the first that fails leaves memory as it was. -/
def pkWrite (x : CoreCtx) (ea : Word) : List Byte → Nat → State → CoreOut
  | [], _, t => .done t x.c
  | b :: bs, i, t =>
    let a := (ea + BitVec.ofNat 32 i).toNat
    if x.rept && !reptPlace x.core a then .exc x.s 2
    else
      let r := busWrite t (coreWho x.core) false a 1 (b.zeroExtend 32)
      if r.2 then pkWrite x ea bs (i + 1) r.1 else .exc (busWrite x.s (coreWho x.core) false a 1 (b.zeroExtend 32)).1 2

def ecPk12 (s : State) (k : EcCore) (f : GForm) : State :=
  coreRun s k (modeLen f.m.toNat) true fun x =>
    match formEa x.c (.g f) with
    | none => .exc x.s 3
    | some ea =>
      match pkWrite x ea (natToBytes 3 (packPair x.c.a)) 0 x.s with
      | .done t _ => x.next t (bumped x.c (.g f) 3)
      | o => o

/-- UNPK12 reads each aligned word that the 3 bytes touch. -/
def ecUnpk12 (s : State) (k : EcCore) (f : GForm) : State :=
  coreRun s k (modeLen f.m.toNat) true fun x =>
    match formEa x.c (.g f) with
    | none => .exc x.s 3
    | some ea =>
      let base := ea &&& 0xFFFFFFFC
      let sh := 8 * (ea.toNat % 4)
      if ea.toNat % 4 < 2 then
        x.read x.s base 4 fun t lo => x.next t (setAZN (bumped x.c (.g f) 3) (unpackPair (lo.toNat >>> sh)))
      else x.read2 base (base + 4) 4 fun t lo hi =>
          x.next t (setAZN (bumped x.c (.g f) 3) (unpackPair ((lo.toNat + 2 ^ 32 * hi.toNat) >>> sh)))

/-! ### Control flow -/

/-- P takes a computed target; bit 0 set is FETCH (14, after Table 7). -/
def CoreCtx.goto (x : CoreCtx) (s : State) (c : CoreSt) (t : Word) : CoreOut :=
  if t.getLsbD 0 then .exc s 1 else .done s { c with p := t }

def ecJmp (s : State) (k : EcCore) (f : GForm) : State :=
  coreRun s k (modeLen f.m.toNat) false fun x =>
    match formEa x.c (.g f) with
    | none => .exc x.s 3
    | some ea => x.goto x.s (bumped x.c (.g f) 4) ea

def ecJsr (s : State) (k : EcCore) (f : GForm) : State :=
  coreRun s k (modeLen f.m.toNat) false fun x =>
    match formEa x.c (.g f) with
    | none => .exc x.s 3
    | some ea =>
      if ea.getLsbD 0 then .exc x.s 1
      else x.push x.s (x.c.p + BitVec.ofNat 32 x.len) fun t sp => .done t { bumped x.c (.g f) 4 with s := sp, p := ea }

def ecRts (s : State) (k : EcCore) (m : BitVec 4) (sh : BitVec 5) : State :=
  coreRun s k 2 false fun x => x.fixed m
    (if sh ≠ 0 then .exc x.s 3 else x.read x.s x.c.s 4 fun t v => x.goto t { x.c with s := x.c.s + 4 } v)

/-- RTI: SW, then P; a restored E resumes the repeat (R331). -/
def ecRti (s : State) (k : EcCore) (m : BitVec 4) (sh : BitVec 5) : State :=
  coreRun s k 2 false fun x => x.fixed m
    (if sh ≠ 0 then .exc x.s 3
     else x.read2 x.c.s (x.c.s + 4) 4 fun t sw p =>
      x.goto t (setSW { x.c with s := x.c.s + 8 } sw) p)

def ecBccShort (s : State) (k : EcCore) (cc : BitVec 4) (d : BitVec 10) : State :=
  coreRun s k 2 false fun x =>
    if condHolds x.c cc then .done x.s { x.c with p := x.c.p + 2 + (d.signExtend 32 <<< 1) } else x.next x.s x.c

def ecBccLong (s : State) (k : EcCore) (cc : BitVec 4) (sh : BitVec 5) (d : BitVec 16) : State :=
  coreRun s k 4 false fun x =>
    if sh ≠ 0 then .exc x.s 3
    else if condHolds x.c cc then .done x.s { x.c with p := x.c.p + 4 + (d.signExtend 32 <<< 1) } else x.next x.s x.c

/-! ### Waits (R325 to R329) -/

/-- The lowest pending line of the mask. -/
def waitLine (s : State) (k : EcCore) (high : Bool) (mask : Word) : Option Nat :=
  let w := rd s (corePg k) (if high then 0x10C else 0x108)
  ((List.range 32).find? fun b => bitOf w b && bitOf mask b).map fun b => b + 32 * high.toNat

/-- A wait completes on a line: the line is consumed, A names it, T clears. -/
def waitDone (s : State) (k : EcCore) (c : CoreSt) (line : Nat) : State × CoreSt :=
  (eventTake s k line, { setA c (BitVec.ofNat 32 line) with t := false })

/-- The core waits: P stays at the instruction; what its operand changed counts when it completes (R329). -/
def CoreCtx.wait (x : CoreCtx) (s : State) (c : CoreSt) (w : CoreWait) : CoreOut :=
  .done s { x.c with wait := w, wlen := x.len, wx := c.x, wy := c.y }

/-- A wait instruction: an interrupt that may be taken is taken before it can complete, and it runs again after RTI and reads its operand
again (R329); one that comes while its operand is read over the ring is taken once the data has come (R369). -/
def ecWait (s : State) (k : EcCore) (f : GForm) (g : CoreCtx → CoreOut) : State :=
  let came := match storeGet bufDefault s.brg.cores (corePg k) with | .data _ _ => true | _ => false
  if interruptDue s k || (interruptOpen s k && came) then coreInterrupt (brgCoreClear s (corePg k)) k
  else coreRun s k (modeLen f.m.toNat) false g

def ecWfe (s : State) (k : EcCore) (f : GForm) (high : Bool) : State :=
  ecWait s k f fun x => x.operand (.g f) fun s c m =>
    if m = 0 then x.next s { c with t := true }
    else match waitLine s k high m with
      | some l => let r := waitDone s k c l; x.next r.1 r.2
      | none => x.wait s c (.wfe high m)

def ecSev (s : State) (k : EcCore) (f : GForm) : State :=
  coreRun s k (modeLen f.m.toNat) false fun x => x.operand (.g f) fun s c v => x.next (evfSev s (v.toNat % 64)) c

def ecWtu (s : State) (k : EcCore) (f : GForm) : State :=
  ecWait s k f fun x => x.operand (.g f) fun s c v =>
    if tbsReached s v.toNat then x.next s c else x.wait s c (.wtu v)

def ecWtx (s : State) (k : EcCore) (f : GForm) (high : Bool) : State :=
  ecWait s k f fun x => x.operand (.g f) fun s c m =>
    match waitLine s k high m with
    | some l => let r := waitDone s k c l; x.next r.1 r.2
    | none => if tbsReached s x.c.x.toNat then x.next s { c with t := true } else x.wait s c (.wtx high m x.c.x)

/-- A wait has ended with the registers `c`. -/
def waitEnd (s : State) (k : EcCore) (c : CoreSt) : State :=
  coreSet s k { c with wait := .none, x := c.wx, y := c.wy, p := c.p + BitVec.ofNat 32 c.wlen }

/-- WAIT_COMPLETE, WTU_COMPLETE and WTX_COMPLETE: what the core waits for has come; an interrupt that may be taken goes first (R329). -/
def ecWaitCheck (s : State) (k : EcCore) : State :=
  let c := coreGet s k
  if !running s || sysLost s || c.st ≠ 1 then s
  else if interruptDue s k then coreInterrupt s k
  else match c.wait with
    | .none => s
    | .wfe high m =>
      match waitLine s k high m with
      | some l => let r := waitDone s k c l; waitEnd r.1 k r.2
      | none => s
    | .wtu t => if tbsReached s t.toNat then waitEnd s k c else s
    | .wtx high m t =>
      match waitLine s k high m with
      | some l => let r := waitDone s k c l; waitEnd r.1 k r.2
      | none => if tbsReached s t.toNat then waitEnd s k { c with t := true } else s

/-! ### Repeats, NOP, EI, DI -/

/-- REP and REPI: K = 1 + ((v − 1) AND 0xFF) iterations of the next instruction (R330, R331). -/
def ecRep (s : State) (k : EcCore) (f : GForm) (intr : Bool) : State :=
  coreRun s k (modeLen f.m.toNat) false fun x => x.operand (.g f) fun s c v =>
    x.next s { c with k := 1 + (v - 1).toNat % 256, rep := !intr, e := intr, repNew := true,
                      repP := x.c.p, repK := x.c.k, repX := x.c.x, repY := x.c.y }

/-- NOP, EI and DI: `f` is what becomes of the registers. -/
def ecPlain (s : State) (k : EcCore) (m : BitVec 4) (f : CoreSt → CoreSt) : State :=
  coreRun s k 2 false fun x => x.fixed m (x.next x.s (f x.c))

end Sys2Proof.Machine
end

