-- ==== Sys2Proof/Machine/Msq.lean ====
section
/-! DEFINITION. What the clock monitors (01, Table 3) and the measuring sequencer (07) find, and the DMA engine (13). -/

namespace Sys2Proof.Machine

/-! ### Clock monitors (R16, R34, R520) -/

/-- No SYS heartbeat for 160 PWR clocks (R16): a level source (R543). -/
def clkSysLoss (s : State) : State := if running s then assertLevel s 32 else s


/-- On an RC disagreement SPR compares the spare with both running RCs; the flags say which of them differ from it by more than 1 %
(R520). -/
def clkSpare (s : State) (aBad bBad : Bool) : State :=
  if aBad == bBad then raiseP s 0x9A 2
  else if s.spr.rc.isSome && !blockOff s 0x9A then sprExhaust s 4
  else
    let s := sprRc s bBad.toNat
    setFlag s 0x02 R.CLK.STAT.RCSPARE s.spr.rc.isSome

/-- The end of a 100 µs window (R34): BUS clocks outside ±1 % raise BUSCLK, RCs beyond 1 % raise PWRRC. -/
def clkWindow (s : State) (cnt diff : BitVec 16) (aBad bBad : Bool) : State :=
  if !running s then s
  else
    let busBad := decide (cnt.toNat < 7920) || decide (8080 < cnt.toNat)
    let rcBad := decide (80 < diff.toInt.natAbs)
    let s := setFlag (setF s 0x02 R.CLK.BUSCNT.CNT cnt.toNat) 0x02 R.CLK.STAT.BUSFAIL busBad
    let s := setFlag (setF s 0x02 R.CLK.RCDIFF.DIFF diff.toNat) 0x02 R.CLK.STAT.RCFAIL rcBad
    let s := if busBad then raise s 34 else s
    if rcBad then clkSpare (raise s 33) aBad bBad else s

/-! ### The sequencer (07) -/

/-- VCOIL of the valves whose latest window was on a slice (R206, R220). -/
def windowsInvalid (s : State) (on3 : Bool) : State :=
  (List.range 16).foldl (fun s n => if (solGet s n).win3 == on3 then setFlag s (solPage n) R.SOL.VCOIL.VALID false else s) s

/-- The VALID flags of the sources of slice `k` fall (07 Table 1): what a failed slice has delivered since its last good reference check
has VALID = 0 (R147), and a mean that holds such samples is not valid (R156). Protection and temperature codes of slice 1 show no such
flag. -/
def sliceInvalid (s : State) (k : Nat) : State :=
  match k with
  | 0 => (List.range 72).foldl (fun s n =>
      let c := hscGet s n
      let s := if c.avgClk = 0 then s else hscSet s n { c with avgBad := true }
      setFlag (setFlag s (hscPage n) R.HSC.IMEAS.VALID false) (hscPage n) R.HSC.VOUT.VALID false) s
  | 2 =>
    let s := (List.range 12).foldl (fun s n => setFlag s (hbPage n) R.HB.IMEAS.VALID false) s
    let s := (List.range 4).foldl (fun s n =>
      setFlag (setFlag s (lstPage n) R.LST.IMEAS.VALID false) (lstPage n) R.LST.VOUT.VALID false) s
    windowsInvalid ((List.range 16).foldl (fun s j => setFlag s 0x1C (R.SWI.AVAL.VALID j) false) s) false
  | 3 => windowsInvalid s true
  | _ => s

/-- A slice's reference conversion, `dev` codes off (R147). -/
def sliceCheck (s : State) (k : Nat) (dev : Int) : State :=
  if !running s || dev.natAbs ≤ 8 then s
  else
    let s := if s.spr.slice = some k then s else sliceInvalid s k
    raiseP (setF s 0x1E R.MSQ.STAT.SFAIL (getF s 0x1E R.MSQ.STAT.SFAIL ||| 2 ^ k)) 0x1E 0

/-- The spare slice takes the place of failed slice `k` (R147); a second one finds no spare (R519). -/
def sliceSpare (s : State) (k : Nat) : State :=
  if !(getF s 0x1E R.MSQ.STAT.SFAIL).testBit k then s
  else if blockOff s 0x9A then sprSlice s k
  else if s.spr.slice.isSome then sprExhaust s 3
  else
    let s := sprSlice s k
    if s.spr.slice.isSome then setF s 0x1E R.MSQ.STAT.SUBST k else s

/-- The 1 ms refresh of T_A on the first of ten PWR ticks, with MSQ's PERIOD commit (R545, 07 MSQ page; 07, after R148; R125): a base sensor more than 40 K from the mean of the die references raises TBASE, and
T_A takes the highest of them. A failed slice 1 without the spare leaves all of them as they are (R147). -/
def baseTemp (s : State) (base : Nat) (refs : List Nat) : State :=
  if !running s || !msTick s 0 then s
  else
    let s := msMark s 0
    if !msqFresh s .temperature then commitPeriod s 0x1E else
    let r := (List.range 4).map fun d => refs.getD d 0
    let sum := r.foldl (· + ·) 0
    let off := decide (2560 < ((4 * base : Nat) - (sum : Nat) : Int).natAbs)
    let t := max 240 (min 2880 (if off then r.foldl max 0 else base))
    let s := (List.range 4).foldl (fun s d => setF s 0x1E (R.MSQ.TREF.CODE d) (r.getD d 0)) s
    let s := setFlag (setF s 0x1E R.MSQ.TBASE.CODE t) 0x1E R.MSQ.TBASE.SUBD off
    commitPeriod (if off then assertLevel s 242 else releaseLevel s 242) 0x1E

/-- The governor's part of the 1 ms tick, and the PERIOD commit of GOV on it (R288, R545). -/
def govMs (s : State) (m : LossSamples) : State := if msTick s 1 then commitPeriod (govTick (msMark s 1) m) 0x1F else s

/-- Share of a segment in 1/2048 of an equal one (R159). -/
def segShare (n i sum : Nat) : Nat := roundDiv (2048 * n * i) sum

/-- A wear measurement of a conducting channel: the current of each segment in mA, where they make at least 25 % of the class's nominal
current (R159, R115). -/
def wearMeasure (s : State) (n : Nat) (currents : List Nat) : State :=
  let p := hscPage n
  let act := getF s p R.HSC.SEG.ACTIVE
  let segs := (List.range 9).filter fun k => act.testBit k
  let sum := segs.foldl (fun a k => a + currents.getD k 0) 0
  if blockOff s 0x1E || !hscGate s n || decide (4 * sum < hscNominal n) || !msqFresh s .wear then s
  else
    let share (k : Nat) : Nat := if act.testBit k then segShare segs.length (currents.getD k 0) sum else 0
    let lo := cfg s 0x1E R.MSQ.WEAR.FAILLO
    let bad := segs.filter fun k => decide (share k < lo) || decide (4096 - lo < share k)
    let badBits := bad.foldl (fun a k => a + 2 ^ k) 0
    let c := hscGet s n
    let s := hscSet s n { c with wear := (List.range 9).map fun k => min 4095 (share k), nmeas := c.nmeas + 1 }
    let s := if segs.any (fun k => decide (share k < cfg s 0x1E R.MSQ.WEAR.WARN)) then raiseP s 0x1E 5 else s
    let s := setF s p R.HSC.SEG.FAILED (getF s p R.HSC.SEG.FAILED ||| badBits)
    wselShow (setF s p R.HSC.SEG.ACTIVE (act - badBits))

/-- The spare segment of a channel takes the place of a failed one, with the gate off, where segment substitution is on
(R115, R519). -/
def segSpare (s : State) (n : Nat) : State :=
  let p := hscPage n
  if getF s p R.HSC.SEG.FAILED = 0 || hscGate s n || !cfgOn s 0x9A R.SPR.CFG.SEGEN then s
  else if blockOff s 0x9A then sprSegment s n
  else if s.spr.segs.testBit n then sprExhaust s 0
  else
    let s := sprSegment s n
    if s.spr.segs.testBit n then segPlace s n else s

/-- A stream word (07 Table 6). -/
def streamWord (s : State) (src idx code : Nat) : Word :=
  BitVec.ofNat 32 (src * 2 ^ 28 + idx * 2 ^ 20 + s.tbs / 8 % 256 * 2 ^ 12 + code)

/-- A sample for stream `j`, as its stream word: written into its ring, or dropped where the next write would reach SRP or the committing initiator does not
reach SRAM (R17, R160). A commit leaves SWP as it is; a ring that has become shorter takes it modulo its length (DESIGN CHOICE,
notes/assumptions/87). -/
def streamPut (s : State) (j src : Nat) (w : Word) : State :=
  if !cfgOn s 0x1E (R.MSQ.SCFG.EN j) || cfg s 0x1E (R.MSQ.SCFG.SRC j) ≠ src then s
  else
    let len := 256 * 2 ^ cfg s 0x1E (R.MSQ.SCFG.LEN j)
    let wp := getF s 0x1E (R.MSQ.SWP.OFF j) % len
    let next := (wp + 4) % len
    if next = getF s 0x1E (R.MSQ.SRP.OFF j) || !busReach s 0x1E then raiseP (setFlag s 0x1E R.MSQ.STAT.OVF true) 0x1E 1
    else
      let a := cfg s 0x1E (R.MSQ.SBASE.BASE j) + wp
      setF { s with mem := memSetWord s.mem a w } 0x1E (R.MSQ.SWP.OFF j) next

/-- A stream word goes to every stream that selects its class. -/
def streamOut (s : State) (src : Nat) (w : Word) : State := (List.range 4).foldl (fun s j => streamPut s j src w) s

/-- A source class of 07 Table 5 has fresh samples (R147); of SUPTEMP, whose IDX Table 6 does not number, `Config.idxSupply` says which
are supplies (notes/assumptions/87). -/
def streamFresh (s : State) (src idx : Nat) : Bool :=
  msqFresh s (match src with
    | 0 => .hscCurrent
    | 1 => .hbCurrent
    | 2 => .window (solGet s idx).win3
    | 3 => .switchAnalog
    | 4 => if Config.idxSupply idx then .supply else .temperature
    | _ => .led)

/-- A valid sample crosses from PWR to SYS through a FIFO of 64 entries (01 Table 5, R23); it waits there while SYS stands (R26), and a
full FIFO drops the newest one with OVF. A failed slice without the spare gives none (R147). -/
def streamSample (s : State) (src idx code : Nat) : State :=
  let w := streamWord s src idx code
  if blockOff s 0x1E || !running s || !streamFresh s src idx then s
  else if !sysLost s then streamOut s src w
  else if decide (64 ≤ s.msqFifo.length) then raiseP (setFlag s 0x1E R.MSQ.STAT.OVF true) 0x1E 1
  else { s with msqFifo := s.msqFifo ++ [(src, w)] }

/-- The heartbeat is back: what waited in the crossings is delivered (R26). -/
def clkSysBack (s : State) : State :=
  if !sysLost s then s
  else
    let s := releaseLevel s 32
    let held := s.lineHeld
    let fifo := s.msqFifo
    let s := (List.range 64).foldl (fun s k => if held.testBit k then raiseLine s k else s) { s with lineHeld := 0, msqFifo := [] }
    fifo.foldl (fun s e => streamOut s e.1 e.2) s

/-! ### DMA (R309 to R311) -/

/-- The initiator whose rights a page's transfers carry, by POWN coding (R17). -/
def kindWho : Nat → Option Who
  | 1 => some .app | 2 => some .ec2 | 3 => some .ec3 | 4 => some .host | 5 => some .sbp | 6 => some (.ring 0) | _ => none

/-- How the words of a block end: moved, stopped by a bus error at an address, or still waiting, with the words left. -/
inductive DmaEnd where
  | moved (src dst : Nat)
  | err (a : Nat)
  | stall (left src dst : Nat)
  deriving DecidableEq, Repr

/-- `n` words moved from `src` to `dst`, which advance as SINC and DINC say (R309); one word per access, in order (R310). -/
def dmaWords (who : Who) (sinc dinc : Nat) : Nat → State → Nat → Nat → State × DmaEnd
  | 0, s, src, dst => (s, .moved src dst)
  | n + 1, s, src, dst =>
    let r := busRead s who true src 4
    match r.2 with
    | .err => (r.1, .err src)
    | .stall => (r.1, .stall (n + 1) src dst)
    | .val v =>
      if writeWaits s who dst then (s, .stall (n + 1) src dst) else
      let w := busWrite r.1 who true dst 4 v
      if w.2 then dmaWords who sinc dinc n w.1 ((src + sinc) % 2 ^ 32) ((dst + dinc) % 2 ^ 32) else (w.1, .err dst)

/-- A bus error on a channel stops it, with the channel's line (R311, 13 Table 4). -/
def dmaError (s : State) (c a : Nat) : State :=
  let s := setFlag (dmaStop s c) 0x0F (R.DMA.STAT.ERR c) true
  raiseP (raiseLine (setF s 0x0F (R.DMA.EADDR.ADDR c) a) (48 + c / 4)) 0x0F 0

/-- A block of channel `c` has been moved: the next one waits for its trigger, or DONE and the channel's line (R309); a held trigger
starts a block at once (R310). -/
def dmaBlockEnd (s : State) (c src dst : Nat) : State :=
  let left := getF s 0x0F (R.DMA.STAT.BLEFT c) - 1
  let circ := cfgOn s 0x0F (R.DMA.CFG.CIRC c)
  let held := s.dmaHeld.testBit c
  let again := left = 0 && circ
  let s := { s with
    dmaSrc := storeSet (fun _ => 0) s.dmaSrc c (if again then cfg s 0x0F (R.DMA.SRC.ADDR c) else src)
    dmaDst := storeSet (fun _ => 0) s.dmaDst c (if again then cfg s 0x0F (R.DMA.DST.ADDR c) else dst)
    dmaHeld := if held then s.dmaHeld - 2 ^ c else s.dmaHeld
    dmaLeft := storeSet seqDefault s.dmaLeft c 0 }
  let s := setF s 0x0F (R.DMA.STAT.BLEFT c) (if again then cfg s 0x0F (R.DMA.CNT.NBLK c) else left)
  let s := setFlag (setFlag s 0x0F (R.DMA.STAT.BUSY c) false) 0x0F (R.DMA.STAT.WAIT c) (left ≠ 0 || circ)
  let s := if left = 0 then raiseLine (setFlag s 0x0F (R.DMA.STAT.DONE c) true) (48 + c / 4) else s
  if held then dmaTrigger s c else s

/-- A running channel moves its block (R309 to R311) under the rights of the page's owner (R17); a device that is busy holds up the word
in turn, which keeps its bank (R30), and the block goes on from there. -/
def dmaBlock (s : State) (c : Nat) : State :=
  if !isSet s 0x0F (R.DMA.STAT.BUSY c) || !running s || sysLost s then s
  else
    let src := storeGet (fun _ => 0) s.dmaSrc c
    let dst := storeGet (fun _ => 0) s.dmaDst c
    let inc (b : Bool) : Nat := if b then 4 else 0
    match kindWho (storeGet seqDefault s.committer 0x0F) with
    | none => dmaError s c src
    | some who =>
      let left := storeGet seqDefault s.dmaLeft c
      let r := dmaWords who (inc (cfgOn s 0x0F (R.DMA.CFG.SINC c))) (inc (cfgOn s 0x0F (R.DMA.CFG.DINC c)))
        (if left = 0 then cfg s 0x0F (R.DMA.CNT.BLK c) else left) (winSet s 16 (winHeld s (17 + c))) src dst
      let t := winSet (winSet r.1 (17 + c) (winHeld r.1 16)) 16 0
      match r.2 with
      | .moved a b => if isSet t 0x0F (R.DMA.STAT.BUSY c) then dmaBlockEnd t c a b else t
      | .err a => dmaError t c a
      | .stall n a b =>
        { t with dmaSrc := storeSet (fun _ => 0) t.dmaSrc c a, dmaDst := storeSet (fun _ => 0) t.dmaDst c b,
                 dmaLeft := storeSet seqDefault t.dmaLeft c n }

end Sys2Proof.Machine
end

