-- ==== Sys2Proof/Machine/RingRx.lean ====
section
/-! DEFINITION. Requests that reach a device over the ring (15, R345 to R347; 21, R490): what a worker does with WR, RDQ, LOCK and
BULK. -/

namespace Sys2Proof.Machine

/-- The device can be addressed: its causeways are open and it holds an address. -/
def ringAddressed (s : State) : Bool := jxrActive s && isSet s 0x0B R.JXR.ADDR.VALID

/-- The ERR code of an access that the page refused: RIGHTS where the manifest does, else BUSERR (15 Table 6). -/
def ringCode (s : State) (who : Who) (p b : Nat) : Nat :=
  if running s && (blkOf p).isSome && !(p = 0x06) && !whoHas s who p b then 1 else 2

/-- A response, kept for duplicates of the request (R347). -/
def ringErr (s : State) (src seq code addr : Nat) : State := jxrRespond s src seq 3 (errData code addr)

/-- An answer that no duplicate repeats. -/
def ringTurn (s : State) (src seq code addr : Nat) : State :=
  jxrQueue s false (jxrFrame s src 3 seq false false (errData code addr))

/-- A unicast request: only source 0 is served (R345), each SEQ once (R347); a duplicate gets the original response, a stale one
STALE. While a clock that its access needs stands (`held`) the ring port delivers nothing and answers nothing (R26); the request's next
attempt is then a new one (notes/assumptions/58). -/
def ringRequest (s : State) (held : Bool) (src seq addr : Nat) (f : State → State) : State :=
  if !ringAddressed s then s
  else if src ≠ 0 then ringTurn s src seq 6 addr
  else if held then s
  else
    let r := jxrDup s 0 seq
    match r.2 with
    | 0 => f r.1
    | 1 =>
      match r.1.jxr.resp.find? (fun e => e.1 = seq) with
      | some e => jxrQueue r.1 false e.2
      | none => r.1
    | _ => ringTurn r.1 src seq 5 addr

/-- `n` words at offset `addr` lie in one page and are counted as Table 5 of 15 says: else BOUND; an offset outside the slot, or
between words, is a bus error. -/
def ringBound (n addr : Nat) : Option Nat :=
  if n = 0 || 63 < n || addr / 4096 ≠ (addr + 4 * n - 1) / 4096 then some 3
  else if addr % 4 ≠ 0 || 0x100000 ≤ addr then some 2 else none

/-- The words of a WR in order; the first that is refused ends it with its code. -/
def ringWords (who : Who) (addr : Nat) : List Word → State → State × Option Nat
  | [], s => (s, none)
  | w :: ws, s =>
    let p := addr / 4096
    let r := pageWrite s who p (addr % 4096) (0x40000000 + addr) w
    if r.2 then ringWords who (addr + 4) ws r.1 else (r.1, some (ringCode s who p (writeRight (addr % 4096))))

/-- A WR frame (15 Table 5). -/
def ringWr (s : State) (src seq addr : Nat) (ws : List Word) : State :=
  ringRequest s (pageStands s (addr / 4096)) src seq addr fun s =>
    match ringBound ws.length addr with
    | some c => ringErr s src seq c addr
    | none =>
      let r := ringWords (.ring (BitVec.ofNat 10 src)) addr ws s
      match r.2 with
      | some c => ringErr r.1 src seq c addr
      | none => jxrRespond r.1 src seq 2 []

/-- The words of an RDQ in order, `n` of them. -/
def ringReads (who : Who) : Nat → Nat → State → List Byte → State × Except Nat (List Byte)
  | 0, _, s, l => (s, .ok l)
  | n + 1, addr, s, l =>
    let p := addr / 4096
    let r := pageRead s who p (addr % 4096) (0x40000000 + addr)
    match r.2 with
    | some v => ringReads who n (addr + 4) r.1 (l ++ wordBytes v)
    | none => (r.1, .error (ringCode s who p 0))

/-- An RDQ frame. -/
def ringRdq (s : State) (src seq addr n : Nat) : State :=
  ringRequest s (pageStands s (addr / 4096)) src seq addr fun s =>
    match ringBound n addr with
    | some c => ringErr s src seq c addr
    | none =>
      let r := ringReads (.ring (BitVec.ofNat 10 src)) n addr s []
      match r.2 with
      | .ok l => jxrRespond r.1 src seq 2 l
      | .error c => ringErr r.1 src seq c addr

/-- A LOCK frame: one SWAP on a local page, which needs both rights (R322); OP 1 only, and a target without SWAP is LOCKBAD. -/
def ringLock (s : State) (src seq addr op : Nat) (v : Word) : State :=
  ringRequest s (pageStands s (addr / 4096)) src seq addr fun s =>
    let who : Who := .ring (BitVec.ofNat 10 src)
    let p := addr / 4096
    let off := addr % 4096
    let abs := 0x40000000 + addr
    if op ≠ 1 then ringErr s src seq 7 addr
    else match ringBound 1 addr with
      | some c => ringErr s src seq c addr
      | none =>
        if ringCode s who p 0 = 1 then ringErr (protRefuse s who false p abs) src seq 1 addr
        else if ringCode s who p (writeRight off) = 1 then ringErr (protRefuse s who true p abs) src seq 1 addr
        else
          let r := pageRead s who p off abs
          match r.2 with
          | none => ringErr r.1 src seq 7 addr
          | some old =>
            let w := pageWrite r.1 who p off abs v
            if w.2 then jxrRespond w.1 src seq 2 (wordBytes old) else ringErr s src seq 7 addr

/-- A BULK's words into the slipway. -/
def bulkStore (s : State) (offs : Nat) (ws : List Word) : State :=
  { s with mem := memSetList s.mem (slipBase + offs) (ws.flatMap wordBytes) }

/-- Why a BULK is refused: BOUND, BUSERR between words, or RIGHTS where the RING field of UPD's manifest word lacks W; 0: accepted. -/
def bulkCode (s : State) (offs n : Nat) : Nat :=
  if n = 0 || 63 < n || 0x200000 < offs + 4 * n then 3
  else if offs % 4 ≠ 0 then 2
  else if (rightsOf s 6 0x07).testBit 1 then 0 else 1

/-- A BULK frame: a unicast one is a request with its response; a broadcast one from the manager is executed once, without one
(R347, R490). -/
def ringBulk (s : State) (src seq : Nat) (bc : Bool) (offs : Nat) (ws : List Word) : State :=
  let refuse (s : State) : State :=
    if bulkCode s offs ws.length = 1 then protRefuse s (.ring (BitVec.ofNat 10 src)) true 0x07 (slipBase + offs) else s
  if bc then
    (if src ≠ 0 || sysLost s then s
     else jxrBcast s src seq fun s => if bulkCode s offs ws.length = 0 then bulkStore s offs ws else refuse s)
  else
    ringRequest s (sysLost s) src seq offs fun s =>
      match bulkCode s offs ws.length with
      | 0 => jxrRespond (bulkStore s offs ws) src seq 2 []
      | c => ringErr (refuse s) src seq c offs

end Sys2Proof.Machine
end

