-- ==== Sys2Proof/Machine/Ports.lean ====
section
/-! DEFINITION. The host port and the side-band port (17): frames and commands as a whole, with what the port sends back. -/

namespace Sys2Proof.Machine

/-! ### Host port (R384 to R395) -/

/-- One byte of the CRC-16 of R386: polynomial 0x1021, not reflected. -/
def crc16Byte (c : Nat) (b : Byte) : Nat :=
  (List.range 8).foldl (fun c _ => if c.testBit 15 then (2 * c % 65536) ^^^ 0x1021 else 2 * c) (c ^^^ (b.toNat * 256))

/-- The CRC-16 of R386: initial value all ones, no final XOR. -/
def crc16 (l : List Byte) : Nat := l.foldl crc16Byte 0xFFFF

/-- A number sent most significant byte first. -/
def bytesBe (n v : Nat) : List Byte := (natToBytes n v).reverse

/-- The port runs while the HOST domain has power (R384). -/
def hostRuns (s : State) : Bool := running s

/-- A frame's command byte: width in bits 7:6, OP in bits 5:0 (R385). -/
def hostCmdByte (width : BitVec 2) (op : Nat) : Nat := width.toNat * 64 + op

/-- The command byte has been received: the status byte with the RES of the frame before has gone out (R385, R387). -/
def hostBegin (s : State) (cmd : Nat) : State :=
  let s := { s with hpt := { s.hpt with out := [BitVec.ofNat 8 (hptStatus s s.hpt.res)] } }
  setF s 0x08 R.HPT.STAT.LASTCMD cmd

/-- RES of the frame. -/
def hostRes (s : State) (r : Nat) : State := { s with hpt := { s.hpt with res := r } }

/-- The response phase: the status with this frame's RES, the data, and the CRC over both, most significant byte first
(notes/assumptions/43). -/
def hostReply (s : State) (r : Nat) (data : List Byte) : State :=
  let s := hostRes s r
  let body := BitVec.ofNat 8 (hptStatus s r) :: data
  { s with hpt := { s.hpt with out := s.hpt.out ++ body ++ bytesBe 2 (crc16 body) } }

/-- A saturating 16-bit count of HPT. -/
def hostCount (s : State) (f : Fld) : State := setF s 0x08 f (satInc 65535 (getF s 0x08 f))

/-- A word got a bus error: ERRADDR names it (17 Table 2). -/
def hostErrAddr (s : State) (a : Nat) : State := setF s 0x08 R.HPT.ERRADDR.ADDR a

/-- A frame that ends with RES = BUSERR. -/
def hostBusErr (s : State) (a : Nat) : State := raiseP (hostErrAddr s a) 0x08 2

/-- The request's CRC fails: nothing is executed (R386). -/
def hostCrcFail (s : State) : State := raiseP (hostCount s R.HPT.ERRC.CRC) 0x08 0

/-- A frame refused while a write is still being issued (R389). -/
def hostBusy (s : State) : State := raiseP (hostCount s R.HPT.ERRC2.BUSY) 0x08 3

/-- A reserved WIDTH: the frame is ignored (R385, 17 Table 2). -/
def hostWidthBad (width : BitVec 2) : Bool := width = 3

/-- NOP, and frames with a reserved OP or WIDTH (17 Table 1). A frame of another OP that ends after its command byte is another row. -/
def hostNop (s : State) (cmd : Byte) : State :=
  let op := cmd.toNat % 64
  if !hostRuns s then s
  else if cmd.toNat / 64 = 3 || 3 < op then hostRes (hostBegin s cmd.toNat) 2
  else if op = 0 then hostRes (hostBegin s cmd.toNat) 0 else s

/-- The words of a write in order (R388), at most `n` of them now; the rest are still stalled (R389). -/
def hostIssue : Nat → State → List (Nat × Word) → State
  | _, s, [] => { s with hpt := { s.hpt with wait := [], wbusy := false } }
  | 0, s, l => { s with hpt := { s.hpt with wait := l, wbusy := true } }
  | n + 1, s, (a, w) :: l =>
    if writeWaits s .host a then { s with hpt := { s.hpt with wait := (a, w) :: l, wbusy := true } }
    else
      let r := busWrite s .host false a 4 w
      if r.2 then hostIssue n r.1 l
      else hostRes (hostBusErr { r.1 with hpt := { r.1.hpt with wait := [], wbusy := false } } a) 5

/-- The words of a frame with their addresses. -/
def wordsAt (addr : Nat) (ws : List Word) : List (Nat × Word) :=
  (List.range ws.length).map fun i => ((addr + 4 * i) % 2 ^ 32, ws.getD i 0)

/-- The request bytes of a WRITE or a READ, up to its CRC (R385, R386). -/
def hostRequest (cmd addr len : Nat) (ws : List Word) : List Byte :=
  natToBytes 1 cmd ++ bytesBe 4 addr ++ bytesBe 2 len ++ ws.flatMap wordBytes

/-- A WRITE frame whose request phase has ended (R388, R389): the words issued before the port has to wait are `n`. -/
def hostWrite (s : State) (width : BitVec 2) (addr len : Nat) (ws : List Word) (crc n : Nat) : State :=
  let cmd := hostCmdByte width 1
  if !hostRuns s then s
  else
    let s := hostBegin s cmd
    if hostWidthBad width then hostRes s 2
    else if crc16 (hostRequest cmd addr len ws) ≠ crc then hostRes (hostCrcFail s) 1
    else if len = 0 || 32 < len || ws.length ≠ len then hostRes s 3
    else if s.hpt.wbusy then hostRes (hostBusy s) 6
    else if addr % 4 ≠ 0 then hostRes (hostBusErr s addr) 5
    else hostIssue n (hostRes s 0) (wordsAt addr ws)

/-- The words that were stalled are issued (R389). -/
def hostWriteIssued (s : State) : State :=
  if s.hpt.wbusy && hostRuns s then hostIssue s.hpt.wait.length s s.hpt.wait else s

/-- One word for the host: a local page through the manager's own window too (R32). -/
def hostReadWord (s : State) (a : Nat) : State × Answer :=
  match place .host a with
  | .ring dev off =>
    if accessStands s .host a then (s, .stall)
    else if dev = 0 && jxrOwn s then
      let r := pageRead s .host (off / 4096) (off % 4096) a
      (r.1, match r.2 with | some v => .val v | none => .err)
    else (s, .err)
  | _ => busRead s .host false a 4

/-- `n` words from `a` into the read buffer (R390); a busy device holds the read up. The flag says how it stands: 0 complete, 1 stopped
by a bus error, 2 still completing. -/
def hostReads : Nat → State → Nat → List Word → State × Nat
  | 0, s, _, l => ({ winSet s 4 0 with hpt := { s.hpt with rbuf := some l, reading := none } }, 0)
  | n + 1, s, a, l =>
    let r := hostReadWord s a
    match r.2 with
    | .val v => hostReads n r.1 ((a + 4) % 2 ^ 32) (l ++ [v])
    | .err => (hostErrAddr { winSet r.1 4 0 with hpt := { r.1.hpt with rbuf := none, reading := none } } a, 1)
    | .stall => ({ r.1 with hpt := { r.1.hpt with reading := some (a, n + 1, l) } }, 2)

/-- NOTREADY: the data is sent as zeros (R390). -/
def hostNotReady (s : State) (n : Nat) : State :=
  hostReply (hostCount s R.HPT.ERRC2.NOTRDY) 7 (List.replicate (4 * n) 0)

/-- A READ in the ring window: a split read on the host's behalf (R392). -/
def hostSplit (s : State) (dev off addr len : Nat) : State :=
  if jxrRole s ≠ 1 || !manifestLoaded s then hostReply (hostBusErr s addr) 5 []
  else if 8 < len || off / 4096 ≠ (off + 4 * len - 1) / 4096 || (len ≠ 1 && rsePage (off / 4096)) then hostReply s 3 []
  else if !brgIssueOk s 4 dev off len then hostReply (hostBusErr s addr) 5 []
  else
    let r := brgSplit s 4 dev off len
    match r.2 with
    | none => hostReply { r.1 with brg := { r.1.brg with rdtag := storeSet seqDefault r.1.brg.rdtag 4 0 } } 9 (natToBytes 4 0)
    | some t =>
      let tag := 2 ^ 31 + t
      hostReply { r.1 with brg := { r.1.brg with rdtag := storeSet seqDefault r.1.brg.rdtag 4 tag } } 8 (natToBytes 4 tag)

/-- A READ frame (R390 to R392), which keeps the bank under which it was issued (R30); `late`: not every word is in the buffer when the status byte is due. -/
def hostRead (s : State) (width : BitVec 2) (addr len crc : Nat) (late : Bool) : State :=
  let cmd := hostCmdByte width 2
  if !hostRuns s then s
  else
    let s := hostBegin s cmd
    if hostWidthBad width then hostRes s 2
    else if crc16 (hostRequest cmd addr len []) ≠ crc then hostReply (hostCrcFail s) 1 []
    else if len = 0 || 32 < len then hostReply s 3 []
    else if s.hpt.wbusy then hostReply (hostBusy s) 6 (List.replicate (4 * len) 0)
    else if addr % 4 ≠ 0 then hostReply (hostBusErr { s with hpt := { s.hpt with rbuf := none, reading := none } } addr) 5 (List.replicate (4 * len) 0)
    else
      let own := match place .host addr with | .ring dev _ => dev = 0 && jxrOwn s | _ => false
      match place .host addr, own with
      | .ring dev off, false => hostSplit s dev off addr len
      | _, _ =>
        let s := { winSet s 4 (getF s 0x98 R.XSP.BANK.BANK + 1) with hpt := { s.hpt with rbuf := none, reading := some (addr, len, []) } }
        if late then hostNotReady s len
        else
          let r := hostReads len s addr []
          if r.2 = 0 then hostReply r.1 0 ((r.1.hpt.rbuf.getD []).flatMap wordBytes)
          else if r.2 = 1 then hostReply (raiseP r.1 0x08 2) 5 (List.replicate (4 * len) 0)
          else hostNotReady r.1 len

/-- A read that was still completing goes on; a bus error stops it with BUSERR (R390). -/
def hostReadGo (s : State) : State :=
  match s.hpt.reading with
  | some (a, n, l) =>
    if hostRuns s then
      let r := hostReads n s a l
      if r.2 = 1 then hostRes (raiseP r.1 0x08 2) 5 else r.1
    else s
  | none => s

/-- An RDBUF frame (R391). -/
def hostRdbuf (s : State) (width : BitVec 2) : State :=
  if !hostRuns s then s
  else
    let s := hostBegin s (hostCmdByte width 3)
    if hostWidthBad width then hostRes s 2
    else match s.hpt.reading with
      | some (_, n, l) => hostNotReady s (n + l.length)
      | none => hostReply s 0 ((s.hpt.rbuf.getD []).flatMap wordBytes)

/-- HCSN has risen in the request phase of a frame with this command byte (R393). -/
def hostAbort (s : State) (cmd : Byte) : State :=
  if !hostRuns s then s
  else hostRes (raiseP (hostCount (hostBegin s cmd.toNat) R.HPT.ERRC.ABORT) 0x08 1) 4

/-! ### Side-band port (R396 to R403) -/

/-- A saturating 16-bit count of SBP: it runs while SYS has power. -/
def sbpCount (s : State) (f : Fld) : State := if running s then setF s 0x09 f (satInc 65535 (getF s 0x09 f)) else s

/-- A command is not acknowledged. -/
def sbpNack (s : State) : State := sbpCount s R.SBP.CNT.NACK

/-- A command is served. -/
def sbpServed (s : State) (code : Nat) : State :=
  let s := sbpCount s R.SBP.CNT.SERVED
  if running s then setF s 0x09 R.SBP.STAT.LASTCMD code else s

/-- The response bytes with their PEC: over the address, the code and its parameters, the address again, and the data (R397). -/
def sbpReply (s : State) (code : Nat) (par data : List Byte) : State :=
  let a := sbpAddr * 2
  let all := natToBytes 1 a ++ natToBytes 1 code ++ par ++ natToBytes 1 (a + 1) ++ data
  { sbpServed s code with sbp := { (sbpServed s code).sbp with out := data ++ [pec all] } }

/-- A command that is served while SYS has power; in PARK, WATCH and LISTEN it is not acknowledged (R399). -/
def sbpAwake (s : State) (f : State → State) : State :=
  if running s then f s else s

/-- GETMODE (17 Table 7), in every mode but OFF. -/
def sbpGetMode (s : State) : State :=
  if s.mode = .off then s
  else
    let latch := s.sbp.limp.toNat + 2 * s.sbp.recov.toNat + 4 * s.vlt.latch.toNat
    sbpReply s 0x01 []
      (natToBytes 2 (rd s 0x00 0x110).toNat ++ natToBytes 1 (getF s 0x03 R.RST.CAUSE.SRC) ++ natToBytes 1 latch ++
        wordBytes (rd s 0x01 0x10C) ++ wordBytes (rd s 0x01 0x110) ++ natToBytes 2 (getF s 0x03 R.RST.COUNT.CNT) ++ [0, 0])

/-- GETFAULT. -/
def sbpGetFault (s : State) : State :=
  sbpAwake s fun s =>
    let hi := getF s 0x04 R.FLT.SUM.HICLS
    sbpReply s 0x02 []
      (natToBytes 1 (if hi = 15 then 255 else hi) ++ natToBytes 1 (getF s 0x04 R.FLT.SUM.NOPEN) ++
        natToBytes 2 (rd s 0x04 0x144).toNat ++ wordBytes (rd s 0x99 0x100) ++ wordBytes (rd s 0x04 0x150) ++
        natToBytes 2 (getF s 0x99 R.JRN.TOTAL.CNT) ++ [0, 0])

/-- A wrong PEC: PECERR (R398), whose source is held while SYS has no power (R544). -/
def sbpPecFail (s : State) : State := raiseP (sbpCount (sbpNack s) R.SBP.ERRC.PEC) 0x09 0

/-- ATTREQ (R401): refused while a report is being built. -/
def sbpAttReq (s : State) (nonce : List Byte) (pecOk : Bool) : State :=
  sbpAwake s fun s =>
    if !pecOk then sbpPecFail s
    else if s.sbp.attSt = 1 then sbpNack s
    else { sbpServed s 0x10 with sbp := { (sbpServed s 0x10).sbp with attSt := 1, nonce := nonce } }

/-- The vault finishes the report, or refuses it; in BOOT the request waits until the cores are released, which recovery does not do, so
that it is answered there (R401, R471). -/
def sbpAttReady (s : State) : State :=
  if s.sbp.attSt ≠ 1 || (s.mode = .boot && getF s 0x03 R.RST.BOOT.PHASE ≠ 5) || !running s then s
  else if attRefused s ≠ 0 then { s with sbp := { s.sbp with attSt := 3 } }
  else { s with sbp := { s.sbp with attSt := 2 }, vlt := { s.vlt with report := attReport s s.sbp.nonce } }

/-- Bytes of a READY report. -/
def sbpReport (s : State) : List Byte := if s.sbp.attSt = 2 then s.vlt.report else []

/-- ATTSTAT. -/
def sbpAttStat (s : State) : State :=
  sbpAwake s fun s => sbpReply s 0x11 [] (natToBytes 1 s.sbp.attSt ++ [0] ++ natToBytes 2 (sbpReport s).length)

/-- ATTRD: 32 report bytes from an offset, zeros beyond the length. -/
def sbpAttRd (s : State) (offs : Nat) : State :=
  sbpAwake s fun s => sbpReply s 0x12 (natToBytes 2 offs) (fit 32 ((sbpReport s).drop offs))

/-- A request command with its KEY and PEC (R398): a wrong one is discarded; an accepted one raises REQ. -/
def sbpKeyed (s : State) (code : Nat) (key : Byte) (pecOk : Bool) (f : State → State) : State :=
  if s.mode = .off then s
  else if !pecOk then sbpPecFail s
  else if key.toNat ≠ 255 - code then sbpNack s
  else f (raiseP (sbpServed s code) 0x09 2)

/-- The AON latches show in SBP.STAT while SYS has power. -/
def sbpLatches (s : State) : State :=
  if running s then setFlag (setFlag s 0x09 R.SBP.STAT.LIMPL s.sbp.limp) 0x09 R.SBP.STAT.RECOVL s.sbp.recov else s

/-- REQLIMP (R400). -/
def sbpReqLimp (s : State) (key : Byte) (pecOk : Bool) : State :=
  sbpKeyed s 0x20 key pecOk fun s =>
    match s.mode with
    | .hold | .run => setMode s .limp 9
    | .limp => sbpLatches { s with sbp := { s.sbp with limp := false } }
    | _ => sbpLatches { s with sbp := { s.sbp with limp := true } }

/-- REQRESET (R400): in BOOT, HOLD, RUN and LIMP a reset, whose request is recorded first. -/
def sbpReqReset (s : State) (key : Byte) (pecOk : Bool) : State :=
  sbpKeyed s 0x21 key pecOk fun s => if running s then resetDevice (finish s) 5 0 else s

/-- REQRECOV (R400). -/
def sbpReqRecov (s : State) (key : Byte) (pecOk : Bool) : State :=
  sbpKeyed s 0x22 key pecOk fun s =>
    let s := sbpLatches { s with sbp := { s.sbp with recov := true } }
    if running s then resetDevice (finish s) 5 0 else s

/-- The reads of a MEMRD in order; from a failing word on they read as zero (R402). The last says how it stands: 0 complete, 1 stopped
by a bus error, 2 a read has to wait. -/
def sbpReads : Nat → State → Nat → State × List Word × Nat
  | 0, s, _ => (s, [], 0)
  | n + 1, s, a =>
    let r := busRead s .sbp false a 4
    match r.2 with
    | .val v =>
      let t := sbpReads n r.1 ((a + 4) % 2 ^ 32)
      (t.1, v :: t.2.1, t.2.2)
    | .err => (r.1, List.replicate (n + 1) 0, 1)
    | .stall => (r.1, [], 2)

/-- The words that a MEMRD of these parameters has read while it holds SCL. -/
def sbpHeld (s : State) (addr count : Nat) : List Word :=
  match s.sbp.mrd with
  | some (a, c, l) => if a = addr && c = count then l else []
  | none => []

/-- MEMRD (R402). While a read has to wait SCL is held; the command then goes on where it has stopped when it is given again
(notes/assumptions/86). -/
def sbpMemRd (s : State) (addr count : Nat) : State :=
  sbpAwake s fun s =>
    let par := natToBytes 4 addr ++ natToBytes 1 count
    if count = 0 || 8 < count || addr % 4 ≠ 0 then sbpReply s 0x30 par (2 :: List.replicate (4 * count) 0)
    else
      let l := sbpHeld s addr count
      let r := sbpReads (count - l.length) s ((addr + 4 * l.length) % 2 ^ 32)
      let ws := l ++ r.2.1
      if r.2.2 = 2 then { r.1 with sbp := { r.1.sbp with mrd := some (addr, count, ws) } }
      else sbpReply { r.1 with sbp := { r.1.sbp with mrd := none } } 0x30 par (natToBytes 1 r.2.2 ++ ws.flatMap wordBytes)

/-- The words of a MEMWR in order, at most `n` of them now; a bus error stops it (R402). -/
def sbpIssue : Nat → State → List (Nat × Word) → State
  | _, s, [] => { s with sbp := { s.sbp with memWait := [], memBusy := false } }
  | 0, s, l => { s with sbp := { s.sbp with memWait := l, memBusy := true } }
  | n + 1, s, (a, w) :: l =>
    if writeWaits s .sbp a then { s with sbp := { s.sbp with memWait := (a, w) :: l, memBusy := true } } else
    let r := busWrite s .sbp false a 4 w
    if r.2 then sbpIssue n { r.1 with sbp := { r.1.sbp with memN := r.1.sbp.memN + 1 } } l
    else { r.1 with sbp := { r.1.sbp with memWait := [], memBusy := false, memRes := 1 } }

/-- MEMWR (R402): the words issued before the port has to wait are `n`. -/
def sbpMemWr (s : State) (key : Byte) (addr count : Nat) (ws : List Word) (pecOk : Bool) (n : Nat) : State :=
  sbpAwake s fun s =>
    if !pecOk then sbpPecFail s
    else if key ≠ 0xCE || s.sbp.memBusy then sbpNack s
    else
      let s := sbpServed s 0x31
      if count = 0 || 8 < count || addr % 4 ≠ 0 || ws.length ≠ count then { s with sbp := { s.sbp with memRes := 2, memN := 0 } }
      else sbpIssue n { s with sbp := { s.sbp with memRes := 0, memN := 0 } } (wordsAt addr ws)

/-- The rest of a MEMWR is issued. -/
def sbpMemWrDone (s : State) : State :=
  if s.sbp.memBusy && running s then sbpIssue s.sbp.memWait.length s s.sbp.memWait else s

/-- MEMST. -/
def sbpMemSt (s : State) : State :=
  sbpAwake s fun s => sbpReply s 0x32 [] (natToBytes 1 (if s.sbp.memBusy then 3 else s.sbp.memRes) ++ natToBytes 1 s.sbp.memN ++ [0, 0])

/-- SCL held low for more than 25 ms (R397), in every mode in which the port serves commands; the transaction is abandoned. -/
def sbpTimeout (s : State) : State :=
  if s.mode = .off then s else raiseP (sbpCount { s with sbp := { s.sbp with mrd := none } } R.SBP.ERRC.TMO) 0x09 1

end Sys2Proof.Machine
end

