-- ==== Sys2Proof/Machine/Boot.lean ====
section
/-! DEFINITION. The reflex load, the boot ROM's sequence and its end (04), recovery (04, 21), the ends of UPD commands and of a trial
(21), and tamper events (20). -/

namespace Sys2Proof.Machine

/-! ### Reflex preload (R81, R82) -/

/-- Little-endian words of a byte string. -/
def wordsOf (l : List Byte) : List Word :=
  (List.range (l.length / 4)).map fun i => BitVec.ofNat 32 (bytesToNat ((l.drop (4 * i)).take 4))

/-- The words of an image as the shadow region of page `p` holds them: a word without a field stores nothing and counts zero (R39). -/
def fieldWords (p : Nat) (ws : List Word) : List Word :=
  (List.range 512).map fun i => if (fieldsAt p (0x800 + 4 * i)).isEmpty then 0 else ws.getD i 0

/-- A page's shadow region replaced by an image, word for word. -/
def shadowPut (s : State) (p : Nat) (ws : List Word) : State :=
  (List.range 512).foldl (fun s i => wr s p (0x800 + 4 * i) (ws.getD i 0)) s

/-- RFLAGS after a load: ENABLE, then LOCK (R82, R90). -/
def loadFlags (s : State) (p flags : Nat) : State :=
  let s := if flags.testBit 0 && !enabled s p then (if enableRefused s p then werr s p 0x00C else setEnable s p true) else s
  if flags.testBit 1 then setFlag s p H.LOCKED true else s

/-- The reflex loader ends after `time` µs: record 0 of the generation that the directory names is applied to RFX, or refused with
CFGECC. Without a directory there is no record. It ends once for each entry to BOOT, which may be after a short boot's end (R81, R82,
R88); with its end gates may turn on and causeways open (R79, R336). -/
def rfxLoad (s : State) (time : Nat) : State :=
  if s.rfxLoaded then s
  else
    let s := jxrRoleChanged (touch { s with rfxLoaded := true })
    match dirGen s with
    | none => s
    | some g =>
      let ws := fieldWords 0x1D (wordsOf (recImage s g 0))
      let s := setF (setFlag s 0x1D R.RFX.LOAD.OK false) 0x1D R.RFX.LOAD.TIME time
      let t := wr (shadowPut s 0x1D ws) 0x1D 0x014 (BitVec.ofNat 32 (recCrc s g 0))
      if (crc32 (ws.flatMap wordBytes)).toNat ≠ recCrc s g 0 || (rangeFail t 0x1D).isSome then assertLevel s (0x1D * 8 + 7)
      else loadFlags (setFlag (setFlag (applyPage t 0x1D 3) 0x1D H.CMTDONE false) 0x1D R.RFX.LOAD.OK true) 0x1D (recFlags s g 0)

/-! ### Configuration and manifest (R88 to R92) -/

/-- One WHY is shown: the lowest code that applies (notes/assumptions/44). -/
def holdWhy (s : State) (why : Nat) : State :=
  let w := getF s 0x03 R.RST.HOLDWHY.WHY
  if w = 0 || why < w then setF s 0x03 R.RST.HOLDWHY.WHY why else s

/-- The ROM commits record `k` as EC3 (R90). -/
def romRecord (s : State) (g k : Nat) : State :=
  let p := recPage s g k
  let ws := wordsOf (recImage s g k)
  let s := (List.range 512).foldl (fun s i => shadowWrite s p (0x800 + 4 * i) (ws.getD i 0)) s
  let s := wr s p 0x014 (BitVec.ofNat 32 (recCrc s g k))
  let r := commitCheck s p
  let barred : Bool := p = 4 && s.flt.wired
  if r.1 = 1 && !barred then loadFlags (applyPage s p 3) p (recFlags s g k)
  else
    -- FLT takes no commit over its wired configuration (R502)
    let s := if barred then werr s p 0x00C else setF (commitEnd s p r.1) p H.FOFF r.2
    let s := if getF s 0x03 R.RST.HOLDWHY.PAGE = 0 then setF s 0x03 R.RST.HOLDWHY.PAGE p else s
    holdWhy s 5

/-- The manifest words go into PROT, which is committed, enabled and locked (R91). -/
def protLoad (s : State) (word : Nat → Nat) (fallback : Bool) : State :=
  let s := (List.range 256).foldl (fun s p => wr s 0x05 (0x800 + 4 * p) (BitVec.ofNat 32 (word p))) s
  let s := applyPage (wr s 0x05 0x014 (crc32 (shadowBytes s 0x05))) 0x05 3
  let s := setFlag (setFlag s 0x05 H.ENABLE true) 0x05 H.LOCKED true
  setFlag s 0x05 R.PROT.MSTAT.FALLBACK fallback

/-- The words of the fallback manifest (04 Table 5). -/
def fallbackWord (p : Nat) : Nat :=
  if (blkOf p).isNone then 0
  else if p = 0x07 then 0x00317100
  else if p = 0x00 || p = 0x03 || p = 0x04 || p = 0x0A then 0x00111700
  else if p = 0x06 then 0x00000700 else 0x00011700

def fallbackManifest (s : State) : State := protLoad s fallbackWord true

/-- The generation's manifest, or the fallback one where a word is invalid (R50, R91). -/
def loadManifest (s : State) (g : Nat) : State :=
  if (List.range 256).all fun p => manWordOk (BitVec.ofNat 32 (genManifest s g p)) then protLoad s (genManifest s g) false
  else fallbackManifest (holdWhy s 2)

/-- The generation to load: named, valid, and with a SETEP that rollback counter 1 admits (R88, R89, R487). -/
def bootGen (s : State) : Option Nat :=
  match dirGen s with
  | some g => if genOk s g && decide (rollGet s 1 ≤ genEp s g / 1024) then some g else none
  | none => none

/-- Configuration and manifest for the image of version `ver` (R84, R90 to R93); a version outside the generation's range still loads
it, and ends in HOLD (R487). -/
def romConfig (s : State) (ver : Nat) : State :=
  let s := setF s 0x03 R.RST.BOOT.PHASE 3
  match bootGen s with
  | none => fallbackManifest (holdWhy s 1)
  | some g =>
    let s := setF (setF (setF s 0x03 R.RST.SETEP.EP (genEp s g)) 0x03 R.RST.SETEP.GEN g) 0x0A R.BRG.WID.EP (genEp s g)
    let s := if ver < genVerlo s g || genVerhi s g < ver then holdWhy s 4 else s
    let s := if (genFlags s g).testBit 0 then holdWhy s 6 else s
    let s := if (genFlags s g).testBit 1 then holdWhy s 7 else s
    let s := (List.range (genNrec s g - 1)).foldl (fun s k => romRecord s g (k + 1)) s
    let s := loadManifest s g
    if getF s 0x03 R.RST.HOLDWHY.WHY = 6 then setF s 0x03 R.RST.HOLDWHY.PAGE ((reqPageFails s).getD 0) else s

/-! ### Slot choice (R87, R484 to R486) -/

/-- Slot `x` may boot: valid under usable keys, and not rejected (R478, R486). -/
def slotBoots (s : State) (x : Nat) : Bool := parentUsable s 0 && slotValid s x && !s.upd.rejected.testBit x

/-- The slot of a boot without a trial: the confirmed one, else the other with SLOTFB (R87). -/
def confirmedSlot (s : State) : State × Option Nat :=
  let c := s.upd.conf
  if slotBoots s c then (s, some c)
  else if slotBoots s (1 - c) then (setFlag s 0x03 R.RST.BOOT.SLOTFB true, some (1 - c)) else (s, none)

/-- After a revert only the confirmed slot boots (R486). -/
def revertSlot (s : State) : State × Option Nat :=
  let s := updRevert s
  (s, if slotBoots s s.upd.conf then some s.upd.conf else none)

/-- A confirmation that a loss of power has left is completed (R485). -/
def confirmFound (s : State) : State := if s.upd.state = 2 then updConfirm s else s

/-- The slot that boots: a trial goes on or is reverted, with SLOTFB where its slot is not valid (R478, R484). -/
def chooseSlot (s : State) : State × Option Nat :=
  if s.upd.state ≠ 1 then confirmedSlot s
  else if revertDue s then
    revertSlot (if parentUsable s 0 && slotValid s s.upd.trial then s else setFlag s 0x03 R.RST.BOOT.SLOTFB true)
  else (updShow { s with upd := { s.upd with tboots := s.upd.tboots + 1 } }, some s.upd.trial)

/-! ### The sequence (R84) -/

/-- Recovery is entered (R95): the RECOV latch clears (R400), the fallback manifest applies. -/
def enterRecovery (s : State) : State :=
  let s := setF { s with sbp := { s.sbp with recov := false } } 0x03 R.RST.BOOT.PHASE 5
  updShow (fallbackManifest (sbpLatches s))

/-- Recovery with the FW keys derived, where no tamper state stands, a confirmation found completed and the versions shown (R95, R485,
R491). -/
def recoveryKeys (s : State) : State := enterRecovery (if tamperState s then s else updVersions (confirmFound (vltUnwrap s 1)))

/-- The tamper hold: no key, no core and so no active slot, HOLDWHY = TAMPER whatever the boot had found before, the fallback manifest,
the update record shown (R84, R91, R93, R468, R491). -/
def tamperHold (s : State) : State :=
  let s := setF { s with upd := { s.upd with chosen := false } } 0x03 R.RST.HOLDWHY.WHY 3
  let s := if s.upd.state = 1 then setF s 0x07 R.UPD.TRUN.SEC s.upd.trun else s
  fallbackManifest (updShow (setF s 0x03 R.RST.BOOT.PHASE 3))

/-- A token that waits in the slipway is checked and applied, or refused (R84, R470, R481). The Bool: a CLEAR was accepted, which ends
in a reset. -/
def romToken (s : State) : State × Bool :=
  if !slipPending s || ctnType s 0 ≠ 2 then (s, false)
  else match tokenCheck s 0 with
    | 0 =>
      if memNat s (ctn 0 + 0x100) 4 = 1 then
        (tokenClear s, true)
      else (vltStat (lcsAdvance s 0), false)
    | c => (tokenRefused s c, false)

/-- The ROM would examine a pending image: an installation is in progress where its checks pass (R481). -/
def imagePends (s : State) : Bool := slipPending s && ctnType s 0 ≠ 2

/-- An installation, or a revert where no image is pending, is cut short (R468, R488): by a loss of VBAT, or by a tamper, after which the
ROM enters the tamper hold. -/
def bootCut (s : State) (c : BootCut) : State :=
  let left (k : Nat) : State := if imagePends s then instUntil s k else revertUntil s k
  match c with
  | .power k => powerLoss (left k)
  | .tamper k src => raiseP (tamperHold (vltZeroise (tamperRecord (left k) src))) 0x06 0

/-- A loss of power during the advance that an accepted token in the slipway makes (R458). -/
def tokenCut (s : State) (cut : Option BootCut) : Option State :=
  match cut with
  | some (.power k) =>
    if slipPending s && ctnType s 0 = 2 && tokenCheck s 0 = 0 && memNat s (ctn 0 + 0x100) 4 ≠ 1 then some (powerLoss (lcsUntil s 0 k)) else none
  | _ => none

/-- There is something that `c` can cut short: an image that passes checks 1 to 7, or a revert; and a source that is armed. -/
def bootCuts (s : State) (c : BootCut) : Bool :=
  (if imagePends s then ctnCheck s = 1 else revertDue s) && (match c with | .power _ => true | .tamper _ src => tamperArmed s src)

/-- After the keys and a confirmation found: a pending image, the slot, the configuration. -/
def romBootKeyed (s : State) : State :=
  let s := if ctnType s 0 = 2 then s else install s
  let c := chooseSlot (updVersions (updShow s))
  match c.2 with
  | none => enterRecovery c.1
  | some x =>
    let s := setF (setF { c.1 with upd := { c.1.upd with chosen := true } } 0x03 R.RST.BOOT.SLOT x) 0x07 R.UPD.STAT.SLOT x
    let s := wr s 0x0A 0x104 (BitVec.ofNat 32 (slotNat s x 8 4))
    let s := if s.upd.state = 1 then setF s 0x07 R.UPD.TRUN.SEC s.upd.trun else s
    romConfig s (slotNat s x 8 4)

/-- The AON check of a wake: PWR clocks in 64 AON periods, ±5 % of 156,250 (R34). A count that the command does not bring is a free
value. -/
def aonCheck (s : State) (cnt : Option Word) : State :=
  let r := match cnt with
    | some c => (s, c.toNat)
    | none => freshNat s (2 ^ 32)
  let s := setF r.1 0x02 R.CLK.AONCNT.CNT r.2
  if r.2 * 20 < 156250 * 19 || 156250 * 21 < r.2 * 20 then raise s 35 else s

/-- The ROM's sequence up to the release of the cores (R84): `recov` is the strap, `otpBad` the OTP words found uncorrectable, `aonCnt`
the AON measurement of a wake, `cut` what ends an installation before its end. -/
def romBoot (s : State) (recov : Bool) (otpBad : List Nat) (aonCnt : Option Word) (cut : Option BootCut) : State :=
  if s.mode ≠ .boot || getF s 0x03 R.RST.BOOT.PHASE ≠ 0 then s
  else
    let s := setFlag (setF s 0x03 R.RST.BOOT.PHASE 1) 0x03 R.RST.STRAP.RECOV recov
    let s := vltSeed (setFlag (setFlag s 0x02 R.CLK.STAT.SYSLOCK true) 0x02 R.CLK.STAT.BUSLOCK true)
    let s := if getF s 0x03 R.RST.CAUSE.SRC = 8 then aonCheck s aonCnt else s
    let s := coreSet s .ec3 { CoreSt.init with st := 1 }
    let s := otpBad.foldl sprOtp s
    let s := if lcsBits s ≠ 0 && (rootCopy s).isNone then raiseP s 0x06 3 else s
    match tokenCut s cut with
    | some t => t
    | none =>
    let t := romToken s
    if t.2 then resetDevice (finish t.1) 7 0
    else
      let s := t.1
      if lcs s = 4 then tamperHold s
      else if lcs s = 0 || recov || s.sbp.recov then recoveryKeys s
      else if tamperState s then tamperHold s
      else
        let s := confirmFound (vltUnwrap s 2)
        match cut.filter (bootCuts s) with
        | some c => bootCut s c
        | none => romBootKeyed s

/-! ### End of boot (R93) -/

/-- The record of a C5 event, kept in AON, is journalled with flag RESET (R506). -/
def cellOut (s : State) : State :=
  match s.flt.cell with
  | [] => s
  | ws =>
    let body := ((List.range 15).map fun i => if i = 1 then ws.getD 1 0 ||| 0x04000000 else ws.getD i 0)
    let rec' := body ++ [crc32 (body.flatMap wordBytes)]
    { s with flt := { s.flt with cell := [], queue := s.flt.queue ++ [rec'] } }

/-- The cores start at the slot entry vector, EC2 first; BRG takes the admission bounds of the image (R84, R477). -/
def releaseCores (s : State) : State :=
  let x := getF s 0x03 R.RST.BOOT.SLOT
  let c := { CoreSt.init with st := 1, p := BitVec.ofNat 32 (slotBase x + slotNat s x 0x18 4) }
  let s := coreSet (coreSet s .ec2 c) .app c
  let s := setF (setF s 0x0A R.BRG.COMPVLO.VER (slotNat s x 0x1C 4)) 0x0A R.BRG.COMPVHI.VER (slotNat s x 0x20 4)
  setF (setF s 0x0A R.BRG.COMPREV.LO (slotNat s x 0x24 2)) 0x0A R.BRG.COMPREV.HI (slotNat s x 0x26 2)

/-- The cores are released where the ROM has chosen a slot, which it has not in the tamper hold, and the device takes its mode (R93); an event of class C4 or above that is still open then takes it into LIMP (R495). -/
def bootEnd (s : State) : State :=
  if s.mode ≠ .boot || getF s 0x03 R.RST.BOOT.PHASE ≠ 3 then s
  else
    let why := getF s 0x03 R.RST.HOLDWHY.WHY
    let s := if s.upd.chosen then releaseCores s else s
    let s := setF (setFlag (cellOut s) 0x0A R.BRG.WSUM.VALID true) 0x03 R.RST.BOOT.PHASE 4
    let m := if s.sbp.limp then Mode.limp else if why ≠ 0 then .hold else .run
    let s := setMode s m 8
    if s.flt.opened.any (fun e => decide (4 ≤ e.2)) then faultLimp s else s

/-! ### Recovery over CAN0 (R489) -/

/-- The device is in recovery. -/
def inRecovery (s : State) : Bool := s.mode = .boot && getF s 0x03 R.RST.BOOT.PHASE = 5

/-- A message of the download: a slipway offset and 1 to 4,091 data bytes. -/
def recoveryMessage (s : State) (l : List Byte) : State :=
  let o := bytesToNat (l.take 4)
  let d := l.drop 4
  if !inRecovery s || l.length < 5 || 4095 < l.length || 0x200000 < o + d.length then s
  else { s with mem := memSetList s.mem (slipBase + o) d }

/-- A classical frame on identifier 0x6F9 with the bytes `d`, in CAN0's last frame. -/
def recoverySend (s : State) (d : List Byte) : State :=
  let el := natToBytes 4 (0x6F9 * 2 ^ 18) ++ natToBytes 4 (d.length * 65536) ++ natToBytes 8 0 ++ fit 64 d
  canSet s 0 { canGet s 0 with frame := el }

/-- The single frame that answers the end of a download: LAST on identifier 0x6F9. -/
def recoveryReply (s : State) : State := recoverySend s [1, BitVec.ofNat 8 (getF s 0x07 R.UPD.STAT.LAST)]

/-- A whole message of the receiver: download data, or the end message, after which the ROM installs. -/
def recoveryWhole (s : State) (l : List Byte) : State :=
  let s := { s with upd := { s.upd with iso := none } }
  if l = [0xFF, 0xFF, 0xFF, 0xFF] then { s with upd := { s.upd with ending := true } } else recoveryMessage s l

/-- The ISO 15765-2 receiver on CAN0: single frames; first frames, answered with a flow control of block size 0 and STmin 0; consecutive
frames in sequence, of which one out of sequence ends the message (R489, notes/assumptions/64). -/
def recoveryFrame (s : State) (f : CanFrame) : State :=
  let pci := (f.data.headD 0).toNat
  if !inRecovery s || s.upd.ending || f.ide || f.fdf || f.id.toNat ≠ 0x6F8 * 2 ^ 18 then s
  else match pci / 16 with
    | 0 => if pci = 0 || 7 < pci || f.data.length < 1 + pci then s else recoveryWhole s ((f.data.drop 1).take pci)
    | 1 =>
      let n := pci % 16 * 256 + (f.data.getD 1 0).toNat
      if n < 8 || f.data.length < 8 then s
      else recoverySend { s with upd := { s.upd with iso := some (n, 1, (f.data.drop 2).take 6) } } [0x30, 0, 0]
    | 2 =>
      match s.upd.iso with
      | none => s
      | some (n, sn, l) =>
        let l := (l ++ f.data.drop 1).take n
        if pci % 16 ≠ sn then { s with upd := { s.upd with iso := none } }
        else if l.length < n then { s with upd := { s.upd with iso := some (n, (sn + 1) % 16, l) } }
        else recoveryWhole s l
    | _ => s

/-- The end message: the ROM installs an image, or checks a token (R470), replies, and resets on success. -/
def recoveryEnd (s : State) : State :=
  if !inRecovery s then s
  else
    let s := { s with upd := { s.upd with ending := false } }
    let t := if slipPending s && ctnType s 0 = 2 then romToken s else (install s, false)
    let s := recoveryReply t.1
    if t.2 || getF s 0x07 R.UPD.STAT.LAST = 1 then resetDevice (finish s) 7 0 else s

/-- A loss of power during an installation in recovery, or while a SETSEL writes the directory: how far it has come is free (R488). -/
def updTorn (s : State) : State :=
  let busy := isSet s 0x07 R.UPD.SRES.BUSY
  let op := getF s 0x07 R.UPD.SRES.OP
  if inRecovery s && (s.upd.ending || (busy && op = 5)) && imagePends s && !tamperState s && ctnCheck s = 1 then
    let r := freshNat s 4
    instUntil r.1 r.2
  else if busy && (op = 2 || op = 3) && setselCheck s s.upd.gen = 1 then
    let r := freshNat s 2
    if r.2 = 1 then dirTorn (setselNote r.1) s.upd.gen else r.1
  else s

/-! ### UPD commands and trials (R480, R484, R485, R487, R490, R491) -/

/-- What PRECHK and INSTALL find; with nothing pending no container is examined. -/
def updCheck (s : State) : Nat := if slipPending s then ctnCheck s else 0

/-- The running UPD command ends. -/
def updComplete (s : State) : State :=
  if !isSet s 0x07 R.UPD.SRES.BUSY then s
  else
    let g := s.upd.gen
    match getF s 0x07 R.UPD.SRES.OP with
    | 1 => if !s.upd.asked || s.upd.state ≠ 2 then updEnd s 0x20 else updEnd (updConfirm s) 1
    | 2 =>
      let c := setselCheck s g
      if c = 1 then updEnd (setselApply s g) 1 else updEnd s c
    | 3 =>
      let c := setselCheck s g
      if c = 1 then resetDevice (finish (updEnd (setselApply s g) 1)) 7 0 else updEnd s c
    | 4 => updEnd s (updCheck s)
    | _ =>
      if inRecovery s then
        let pend := slipPending s
        let token := pend && decide (ctnType s 0 = 2)
        let t := if token then (romToken s).1 else install s
        let r := if token then ctnCheck s else if pend then getF t 0x07 R.UPD.STAT.LAST else 0
        if r = 1 then resetDevice (finish (updEnd t 1)) 7 0
        else if (pend && !token) || r = 9 then updEnd t r else raiseP (updEnd t r) 0x07 0
      else
        let c := updCheck s
        if c = 1 then resetDevice (finish (updEnd s 1)) 7 0
        else
          let s := updEnd s c
          if c = 9 then s else raiseP s 0x07 0

/-- Ten seconds of a trial in RUN: TRUN, and the update record (R484). -/
def trialTick (s : State) : State :=
  if s.upd.state ≠ 1 || s.mode ≠ .run then s
  else trialRecord (setF s 0x07 R.UPD.TRUN.SEC (getF s 0x07 R.UPD.TRUN.SEC - 10))

/-- TRUN reaches 0 without confirmation: the revert is marked and the device resets (R484). -/
def trialExpiry (s : State) : State :=
  if s.upd.state ≠ 1 || s.mode ≠ .run then s
  else
    let s := setF s 0x07 R.UPD.TRUN.SEC 0
    resetDevice (finish { s with upd := { s.upd with revert := true, trun := 0 } }) 7 0

/-! ### Tamper (R467, R468) -/

/-- A tamper in BOOT: before the key unwrap the hold follows; after it the operation aborts, the keys are zeroised and the ROM enters
the hold, from recovery too (20 Table 7). -/
def tamperBoot (s : State) (src : Nat) : State :=
  let ph := getF s 0x03 R.RST.BOOT.PHASE
  let s := tamperRecord s src
  if ph = 0 then s
  else
    tamperHold (vltZeroise (vltAbort s))

/-- A tamper event; in PARK, WATCH and LISTEN it wakes the device with source 8 (R468). -/
def tamperEvent (s : State) (src also sec sub : Nat) : State :=
  if !tamperArmed s src then s
  else
    let s := rtcSet s sec
    let s := match s.mode with
      | .off => s
      | .park | .watch | .listen => wakeFire (tamperRecord s src) 8 0 also sec sub
      | .boot => tamperBoot s src
      | _ =>
        let s := tamperRecord (tamperRespond s) src
        if s.park = .none then s else wakeFire s 8 0 also sec sub
    raiseP s 0x06 0

end Sys2Proof.Machine
end

