-- ==== Sys2Proof/Machine/Late.lean ====
section
/-! DEFINITION. The short events of the outputs and buses, one operation each: charge phases, inrush windows, hard shorts, latches and
their release, converter and bank faults, line faults, and the worker's summary in a park round (05 to 12, 16, 18). -/

namespace Sys2Proof.Machine

/-- An event that can occur only while SYS, PWR and BUS have power (R60 Table 1); in another mode nothing happens. -/
def powered (s : State) (f : State → State) : State := if running s then f s else s

/-- BUS has power and its clock runs (R26, R34). -/
def busRuns (s : State) : Bool := running s && !busLost s

/-- An event of the BUS domain, which stands while its clock does (R26). -/
def bused (s : State) (f : State → State) : State := if busRuns s then f s else s

/-! ### High-side channels -/

/-- HSC.VOUT, in a valid sample, is within 1.0 V of V_f (R110). -/
def hscNearVf (s : State) (n : Nat) : Bool :=
  let diff : Int := ((hscVf s n * 15 : Nat) : Int) - ((getF s (hscPage n) R.HSC.VOUT.CODE * 15 * 65536 : Nat) : Int)
  isSet s (hscPage n) R.HSC.VOUT.VALID && decide (diff.natAbs ≤ 1000 * 65536)

/-- VOUT has come within 1 V of V_f: the channel is fully on, as in STATIC (R110). -/
def hscCharged (s : State) (n : Nat) : State :=
  let c := hscGet s n
  if c.charging && hscNearVf s n then touch (hscStat (hscSet s n { c with charging := false }) n) else s

/-- The charge phase has lasted CAPT: the channel turns off with CHGTO (R110, R136). -/
def hscChargeTimeout (s : State) (n : Fin 72) : State :=
  if (hscGet s n).charging then protTrip s (.hsc n) 5 [] else s

/-- The inrush window closes; the tick in which it does keeps the raised level (R130). -/
def hscWindowEnd (s : State) (n : Nat) : State :=
  let c := hscGet s n
  hscSet s n { c with window := false, wlast := c.window || c.wlast }

/-- 200 ms without a valid result, with MSQ disabled too (R157, R509): RESULT is UNAVAIL; the results counted so far stay, so that the
next one can bring the value back (R158). -/
def hscDiagTimeout (s : State) (n : Nat) : State := setF s (hscPage n) R.HSC.DRES.RESULT 4

/-! ### Hard shorts and latches (R133 to R135) -/

/-- A hard short: an output with a hard-short comparator trips (R133, R180, R212, R233); the matrix, the converter and the antenna
drivers have none. -/
def protShort (s : State) (o : ProtOut) : State :=
  match o with
  | .hsc _ | .hb _ | .sol _ | .lst _ => protTrip s o 0 []
  | .sbk | .lmx | .lfa _ => s

/-- A junction reaches its latch temperature (R134). -/
def thermalLatch (s : State) (o : ProtOut) : State :=
  match o with
  | .sbk => sbkLatch s true
  | .lfa a => lfaFault s a .thermal
  | _ => if (protGet s o).latchT then s else protLatch s o 2

/-- The junction has fallen by the hysteresis (R134). -/
def thermalRelease (s : State) (o : ProtOut) : State :=
  match o with
  | .sbk => sbkLatch s false
  | .lfa a => lfaRelease s a false
  | _ => if (protGet s o).latchT then protRelease s o 2 else s

/-- An output exceeds its die reference by the ΔT limit (R135); the converter has no such limit. -/
def deltaLatch (s : State) (o : ProtOut) : State :=
  match o with
  | .sbk => s
  | .lfa a => lfaDelta s a
  | _ => if (protGet s o).latchD then s else protLatch s o 3

/-- The difference has fallen by the hysteresis (R135). -/
def deltaRelease (s : State) (o : ProtOut) : State :=
  match o with
  | .sbk => s
  | .lfa a => lfaRelease s a true
  | _ => if (protGet s o).latchD then protRelease s o 3 else s

/-! ### Half-bridges and valves -/

/-- The stall condition has held for STIME while the bridge drives; STIME = 0 switches the detection off (R179). -/
def hbStall (s : State) (n : Fin 12) : State :=
  let c := hbGet s n
  if c.on && hbDrives c.act && cfg s (hbPage n) R.HB.STALL.STIME ≠ 0 then protTrip s (.hb n) 1 [] else s

/-- A deferral reaches its limit (R211). -/
def solDeferEnd (s : State) (n : Fin 16) : State := if (solGet s n).deferred then protTrip s (.sol n) 5 [] else s

/-- The coil model of every valve, each 1 ms: the pair of coil voltage and current that a valve in HOLD gives, and its mean power in mW
(R215). -/
def solTick (s : State) (pairs : List (Fin 16 × BitVec 12 × BitVec 12)) (power : List (Fin 16 × Nat)) : State :=
  (List.finRange 16).foldl (fun s (n : Fin 16) =>
    solCoil s n (((if msqFresh s .coil then pairs else []).find? fun e => e.1 = n).map fun e => (e.2.1.toNat, e.2.2.toNat))
      (((power.find? fun e => e.1 = n).map Prod.snd).getD 0)) s

/-! ### Boost converter and banks (R198, R219) -/

/-- VBST falls below VMIN: UV, and the level source BSTUV. -/
def sbkUv (s : State) (vbst : Nat) : State :=
  let s := setF s 0x84 R.SBK.BSTAT.VBST vbst
  if decide (vbst < cfg s 0x84 R.SBK.BSTUV.VMIN) then assertLevel (setFlag s 0x84 R.SBK.BSTAT.UV true) 0x420 else s

/-- VBST is back above VMIN. -/
def sbkUvEnd (s : State) (vbst : Nat) : State :=
  let s := setF s 0x84 R.SBK.BSTAT.VBST vbst
  if decide (vbst < cfg s 0x84 R.SBK.BSTUV.VMIN) then s else releaseLevel (setFlag s 0x84 R.SBK.BSTAT.UV false) 0x420

/-- VBST has exceeded 1.1 VSET for 10 µs: the converter stops, with BSTOV. -/
def sbkOv (s : State) (vbst : Nat) : State :=
  let s := setF s 0x84 R.SBK.BSTAT.VBST vbst
  if decide (10 * vbst ≤ 11 * cfg s 0x84 R.SBK.BST.VSET) then s
  else raiseP (sbkStat { s with sbk := { s.sbk with ovStop := true } }) 0x84 1

/-- VBST is below VSET again: the converter switches. -/
def sbkOvEnd (s : State) (vbst : Nat) : State :=
  let s := setF s 0x84 R.SBK.BSTAT.VBST vbst
  if decide (vbst < cfg s 0x84 R.SBK.BST.VSET) then sbkStat { s with sbk := { s.sbk with ovStop := false } } else s

/-! ### Reflex, swaps, ports and the worker -/

/-- The player's copy of a library frame can be read: the initiator that committed FRMC reaches the external window (R17, R247), and the
frame lies in enabled chip-selects (R511). -/
def playReadable (s : State) (src len : Nat) : Bool :=
  busReach s 0x91 && (xspCs s src).isSome && (xspCs s (src + len - 1)).isSome

/-- The copy ends: FLEN bytes of the library frame are in the back buffer and the player arms; a failed read stops it with AERR, and a
NAND's with NANDECC (R246, R247, R514). A busy chip-select holds it up (R512). -/
def playCopyDone (s : State) (ok : Bool) : State :=
  let src := (cfg s 0x91 R.FRMC.ASRC.ADDR + getF s 0x91 R.FRMC.AFRM.IDX * cfg s 0x91 R.FRMC.ASTR.STRIDE) % 2 ^ 32
  let len := cfg s 0x91 R.FRMC.ALEN.FLEN
  let cs := ((xspCs s src).map Prod.fst).getD 0
  if s.frmc.play ≠ 2 then s
  else if !playReadable s src len then raiseP (playSet s 0) 0x91 1
  else if xspBusy s cs then s
  else if !ok then raiseP (playSet (if xspNand s cs then xspReadError s else s) 0) 0x91 1
  else
    let dst := frmBase (!isSet s 0x91 R.FRMC.STAT.FRONT) + cfg s 0x91 R.FRMC.ADST.DOFF
    let s' := { s with mem := memSetList s.mem dst (extRead s src len) }
    if s.frmc.stop then playSet s' 0 else armSet (playSet s' 3) true

/-- A trigger of FRMC (R243): NEXT (0) exists only while FRMC is armed, TBS (2) once TBS has reached SWTIME. -/
def swapEvent (s : State) (kind : Nat) (rise : Bool) : State :=
  if (kind = 0 && !isSet s 0x91 R.FRMC.CTL.ARM) || (kind = 2 && !swapTimeReached s) then s else swapTrigger s kind rise

/-- The timer of a PULSE rule expires (R281). -/
def rfxPulseEnd (s : State) (r : Nat) : State :=
  if s.rfxRun.testBit r && !rfxInhibited s r then touch { s with rfxRun := s.rfxRun - 2 ^ r } else s

/-- TXD dominant for too long: the transceiver cuts it off (18, R409 and Table 6; CAN0, CAN1 and the LINs have the timeout). -/
def txdTimeout (s : State) : TxdPort → State
  | .can n => raiseP s (canPage n) 3
  | .lin n => raiseP s (linPage n) 3

/-- 100 ms after a refused Park entry PSTATE returns to NONE (16 Table 6). -/
def pstateClear (s : State) : State :=
  if getF s 0x0A R.BRG.WSUM.PSTATE = 3 then setF s 0x0A R.BRG.WSUM.PSTATE 0 else s

/-- A horn reaches a device whose PHY runs: it is absorbed and counted; between t0 and t3 of Park entry it is also a wake source that
fires (R355). -/
def hornHeard (s : State) (laneB : Bool) (sec sub : Nat) : State :=
  let s := jxrAbsorb s
  if s.park = .none then s else wakeFire s 4 laneB.toNat 0 sec sub

/-- A worker that has heard no beacon for 10 s: an idle count that has reached zero starts Park entry after all (R379). -/
def beaconLoss (s : State) : State := if getF s 0x01 R.PMU.IDLECNT.CNT = 0 then idleExpiry s true else s

/-! ### Fault sources that the device itself finds (22) -/

/-- 60 s in RUN: the count of consecutive C5 resets returns to 0 (R503). -/
def resetCountClear (s : State) : State := if s.mode = .run then setF s 0x04 R.FLT.RCNT.CNT 0 else s

/-- A fault source that is implemented asserts (R54, R493), SWI's and LFA's in a WATCH burst too (R544): CFGECC and SYSCLK as levels (R543), a lockstep mismatch with the halt of
the pair (R298), a double-bit TCM error with the bus error of the read that meets it (R296), a protection source of an output with the event it stands for (R136). -/
def faultEvent (s : State) (id : Nat) : State :=
  let p := id / 8
  let b := id % 8
  let burst := s.mode = .watch && (p = 0x1B || p = 0x1C)
  if (!domOn s (pageCap p).dom && !burst) || !(pageCap p).fsrc.testBit b || (blkOf p).isNone then s
  else if b = 7 then assertLevel s id
  else if id = 32 then clkSysLoss s
  else if b = 5 && (p = 0xA0 || p = 0xA2 || p = 0xA3) then raise { s with tcmBad := s.tcmBad ||| 2 ^ (p - 0xA0) } id
  else if id = 1288 then raise (coreSet s .app { coreGet s .app with st := 3 }) id
  else match pageProt p with
    | some o =>
      if (protTripBits o).contains b then protTrip s o b []
      else if b = 2 then thermalLatch s o
      else if b = 3 then deltaLatch s o
      else if b = 6 then raise (protForced s o 0 [6]) id
      else raise s id
    | none => raise s id

end Sys2Proof.Machine
end

