-- ==== Sys2Proof/Machine/Run.lean ====
section
/-! DEFINITION. How a command is carried out: the accesses of the bus initiators to registers and memories with their answers, and
the end of every command (R28, R35; 22). -/

namespace Sys2Proof.Machine

/-- What a command answers. -/
abbrev Res := Host.Outcome State Fault Refusal

/-- The state after everything that follows a command within its step, from its own effect `t`: the fault sources that have asserted
are collected, outputs and reflex rules settle; the queue stays as it was in `s`, and the crossings of the command are over (R24). -/
def settled (s t : State) : State := { finish t with pending := s.pending, crossed := 0 }

/-- The command ends with the effect `t`. -/
def done (s t : State) : Res := .next (settled s t)

/-- Local address of a register (02, R35). -/
def pageAddr (p off : Nat) : Nat := 0x40000000 + p * 4096 + off

/-- The answer of a write: a bus error, or none. -/
def answerW (r : WrRes) : State := { r.1 with ans := if r.2 then none else some .err }

/-- The answer of a read of a register: the value, or a bus error. -/
def answerR (r : RdRes) : State :=
  { r.1 with ans := some (match r.2 with | some v => .val v | none => .err) }

/-- An access to page `p` stalls where its clock stands (R26), else `f` carries it out. Without SYS, PWR and BUS no initiator runs. -/
def crossing (s : State) (p : Nat) (f : State → State) : State :=
  powered s fun s => if pageStands s p then { s with ans := some .stall } else f s

/-- A write of the register at offset `off` of page `p`. -/
def writeReg (s : State) (who : Who) (p off : Nat) (v : Word) : State :=
  crossing s p fun s => answerW (pageWrite s who p off (pageAddr p off) v)

/-- A read of a register with its side effect. -/
def readReg (s : State) (who : Who) (p off : Nat) : State :=
  crossing s p fun s => answerR (pageRead s who p off (pageAddr p off))

/-- Bytes of an access. -/
def accBytes : AccSize → Nat
  | .byte => 1 | .half => 2 | .word => 4

/-- A write at a bus address; a misaligned one gets a bus error (R35). -/
def storeAccess (s : State) (who : Who) (a : Nat) (size : AccSize) (v : Word) : State :=
  powered s fun s =>
    if a % accBytes size ≠ 0 then { s with ans := some .err }
    else if writeWaits s who a then { s with ans := some .stall } else answerW (busWrite s who false a (accBytes size) v)

/-- A read at a bus address. -/
def loadAccess (s : State) (who : Who) (a : Nat) (size : AccSize) : State :=
  powered s fun s =>
    if a % accBytes size ≠ 0 then { s with ans := some .err }
    else let r := busRead s who false a (accBytes size); { r.1 with ans := some r.2 }

/-- The word of a PCTL write: ENABLE, the class in APPLY, and COMMIT (1), ABORT (2) or LOCK (4) (02 Table 5). -/
def pctlValue (apply : BitVec 2) (enable : Bool) (act : Nat) : Word :=
  BitVec.ofNat 32 (apply.toNat * 64 + (if act = 4 then 16 else act * 2) + enable.toNat)

/-- The word of a VLT.CMD write (20). -/
def vltValue (slot : Byte) (op : Nat) : Word := BitVec.ofNat 32 (slot.toNat * 256 + op)

/-- The word of a UPD.CMD write (21 Table 7). -/
def updValue (key : Byte) (gen : Bool) (op : Nat) : Word := BitVec.ofNat 32 (key.toNat * 2 ^ 24 + gen.toNat * 2 ^ 16 + op)

/-- The word of an FLT.ACK write (22 Table 8). -/
def ackValue (key : Byte) (id : BitVec 11) : Word := BitVec.ofNat 32 (key.toNat * 2 ^ 24 + id.toNat)

/-- The word of an XSP.CMD write (23). -/
def xspValue (cs : BitVec 2) (op : Nat) : Word := BitVec.ofNat 32 (cs.toNat * 256 + op)

/-- A kick of ALIVE with its spacing `dt`, in 0.1 ms: the pair's whatever the manifest grants, a bus error to any other
initiator (R505). -/
def kickWrite (s : State) (who : Who) (key : Byte) (dt : Nat) : State :=
  crossing s 0x04 fun s =>
    let v : Word := key.setWidth 32
    if who = .app then answerW (fltWrite s who 0x108 v dt)
    else answerW (pageWrite s who 0x04 0x108 (pageAddr 0x04 0x108) v)

end Sys2Proof.Machine
end

