-- ==== Sys2Proof/Machine/CmdBoot.lean ====
section
/-! DEFINITION. The commands of resets, the watchdog, boot and recovery (04, 21): one meaning a command. -/

namespace Sys2Proof.Machine

/-- SWRST (R77). -/
def execSwrst (who : Who) (v : Word) (s : State) : Res := done s (writeReg s who 0x03 0x114 v)

/-- WDKICK (R80). -/
def execWdkick (who : Who) (v : Word) (s : State) : Res := done s (writeReg s who 0x03 0x118 v)

/-- WATCHDOG_EXPIRY (R80). -/
def execWatchdogExpiry (s : State) : Res := done s (watchdogExpiry s)

/-- RST_CLR_COUNT (R77). -/
def execRstClrCount (who : Who) (s : State) : Res := done s (writeReg s who 0x03 0x120 1)

/-- REFLEX_LOAD_COMPLETE (R81). -/
def execReflexLoadComplete (time : BitVec 16) (s : State) : Res := done s (powered s fun s => rfxLoad s time.toNat)

/-- ROM_BOOT (R84). -/
def execRomBoot (recov : Bool) (otpBad : List (Fin 512)) (run : BootRun) (s : State) : Res :=
  done s (powered s fun s => romBoot s recov (otpBad.map Fin.val) run.aonCnt run.cut)

/-- END_OF_BOOT (R93). -/
def execEndOfBoot (s : State) : Res := done s (powered s fun s => bootEnd s)

/-- RECOVERY_DOWNLOAD_MESSAGE (R489). -/
def execRecoveryDownloadMessage (data : List Byte) (s : State) : Res := done s (powered s fun s => recoveryMessage s data)

/-- RECOVERY_DOWNLOAD_END (R489). -/
def execRecoveryDownloadEnd (s : State) : Res := done s (powered s fun s => recoveryEnd s)

end Sys2Proof.Machine
end

