-- ==== Sys2Proof/Machine/CmdBridge.lean ====
section
/-! DEFINITION. The commands of the bridge (16): one meaning a command. -/

namespace Sys2Proof.Machine

/-- WINDOW_WRITE (R362). -/
def execWindowWrite (who : Who) (offs : BitVec 30) (v : Word) (s : State) : Res :=
  done s (storeAccess s who (0x80000000 + offs.toNat) .word v)

/-- WINDOW_READ (R369). -/
def execWindowRead (core : EcCore) (offs : BitVec 30) (s : State) : Res :=
  done s (loadAccess s (coreWho core) (0x80000000 + offs.toNat) .word)

/-- SPLIT_READ_REQUEST (R370). -/
def execSplitReadRequest (who : Who) (v : Word) (s : State) : Res := done s (writeReg s who 0x0A 0x114 v)

/-- SLOT_FREE (R370). -/
def execSlotFree (who : Who) (v : Word) (s : State) : Res := done s (writeReg s who 0x0A 0x11C v)

/-- DELAYED_READ_EXPIRY (R371). -/
def execDelayedReadExpiry (t : Fin 16) (s : State) : Res := done s (powered s fun s => brgExpire s t)

/-- LOGPOP_ELOG (R366). -/
def execLogpopElog (who : Who) (s : State) : Res := done s (writeReg s who 0x0A 0x128 1)

/-- LOGPOP_OLOG (R372). -/
def execLogpopOlog (who : Who) (s : State) : Res := done s (writeReg s who 0x0A 0x128 2)

/-- SEMACQ (R373). -/
def execSemacq (who : Who) (v : Word) (s : State) : Res := done s (writeReg s who 0x0A 0x12C v)

/-- SEMREL (R373). -/
def execSemrel (who : Who) (v : Word) (s : State) : Res := done s (writeReg s who 0x0A 0x130 v)

/-- SEMAPHORE_TIMEOUT (R373). -/
def execSemaphoreTimeout (n : Fin 64) (s : State) : Res := done s (powered s fun s => brgSemTimeout s n)

/-- UNPOISON (R368). -/
def execUnpoison (who : Who) (dev : BitVec 10) (page : Byte) (s : State) : Res :=
  done s (writeReg s who 0x0A 0x134 (BitVec.ofNat 32 (dev.toNat * 2 ^ 22 + page.toNat * 2 ^ 14)))

/-- UNPOISON_ALL (R368). -/
def execUnpoisonAll (who : Who) (s : State) : Res := done s (writeReg s who 0x0A 0x134 1)

/-- POLL_ROUND (R375), with the time of TBS and of the RTC, whose sub-second count no register but WAKESRC shows. -/
def execPollRound (now : BitVec 64) (sec : Word) (_ : BitVec 16) (s : State) : Res :=
  done s (powered s fun s => brgPoll (rtcSet (setNow s now.toNat) sec.toNat))

/-- WORKER_BEACON_LOSS (R379). -/
def execWorkerBeaconLoss (s : State) : Res := done s (powered s fun s => beaconLoss s)

/-- PSTATE_REFUSED_CLEAR (R382). -/
def execPstateRefusedClear (s : State) : Res := done s (powered s fun s => pstateClear s)

end Sys2Proof.Machine
end

