-- ==== Sys2Proof/Machine/CmdBus.lean ====
section
/-! DEFINITION. The commands of CAN, LIN and network management (18): one meaning a command. -/

namespace Sys2Proof.Machine

/-- CAN_FRAME_RECEIVED (R406). -/
def execCanFrameReceived (n : Fin 4) (f : CanFrame) (now : BitVec 64) (s : State) : Res :=
  done s (bused s fun s =>
    if n = 0 && inRecovery s then recoveryFrame (setNow s now.toNat) f else canReceive (setNow s now.toNat) n f now.toNat)

/-- CAN_TXREQ (R408). -/
def execCanTxreq (who : Who) (n : Fin 4) (v : Word) (s : State) : Res := done s (writeReg s who (canPage n) 0x114 v)

/-- CAN_TXCAN (R408). -/
def execCanTxcan (who : Who) (n : Fin 4) (v : Word) (s : State) : Res := done s (writeReg s who (canPage n) 0x118 v)

/-- CAN_TRANSMIT_DONE (R408). -/
def execCanTransmitDone (n : Fin 4) (e : CanEnd) (s : State) : Res := done s (bused s fun s => canTxEnd s n e)

/-- CAN_RXRI_WRITE (R407). -/
def execCanRxriWrite (who : Who) (n : Fin 4) (v : Word) (s : State) : Res := done s (writeReg s who (canPage n) 0x110 v)

/-- CAN_RECOV (R409). -/
def execCanRecov (who : Who) (n : Fin 4) (s : State) : Res := done s (writeReg s who (canPage n) 0x128 1)

/-- BUSOFF_RECOVERY_DONE (R409). -/
def execBusoffRecoveryDone (n : Fin 4) (s : State) : Res := done s (bused s fun s => nmgBusCheck (canRecovered s n))

/-- TXD_DOMINANT_TIMEOUT (R409). -/
def execTxdDominantTimeout (p : TxdPort) (s : State) : Res := done s (powered s fun s => txdTimeout s p)

/-- CAN_LEC_READ (R411). -/
def execCanLecRead (who : Who) (n : Fin 4) (s : State) : Res := done s (readReg s who (canPage n) 0x108)

/-- CAN_RECEIVE_ERROR (R409). -/
def execCanReceiveError (n : Fin 4) (code : BitVec 3) (eight : Bool) (s : State) : Res :=
  done s (bused s fun s => nmgBusCheck (canRxError s n code.toNat eight))

/-- LIN_FRAME (R415). -/
def execLinFrame (n : Fin 6) (id : BitVec 6) (res : BitVec 4) (m : LinResp) (s : State) : Res :=
  done s (bused s fun s => linFrame s n id.toNat res.toNat m.data m.csum)

/-- LIN_SCHED (R416). -/
def execLinSched (who : Who) (n : Fin 6) (s : State) : Res := done s (writeReg s who (linPage n) 0x10C 1)

/-- LIN_HALT (R416). -/
def execLinHalt (who : Who) (n : Fin 6) (s : State) : Res := done s (writeReg s who (linPage n) 0x10C 2)

/-- LIN_SLEEP (R416). -/
def execLinSleep (who : Who) (n : Fin 6) (s : State) : Res := done s (writeReg s who (linPage n) 0x10C 4)

/-- LIN_WAKE (R416). -/
def execLinWake (who : Who) (n : Fin 6) (s : State) : Res := done s (writeReg s who (linPage n) 0x10C 8)

/-- LIN_SLOT_END (R416). -/
def execLinSlotEnd (n : Fin 6) (s : State) : Res := done s (bused s fun s => linSlotEnd s n)

/-- LIN_SILENCE_TIMEOUT (R417). -/
def execLinSilenceTimeout (n : Fin 6) (s : State) : Res := done s (bused s fun s => linSilence s n)

/-- LIN_WAKE_PULSE (R417). -/
def execLinWakePulse (n : Fin 6) (s : State) : Res := done s (bused s fun s => linWakePulse s n)

/-- LIN_BUS_SHORT (R418). -/
def execLinBusShort (n : Fin 6) (s : State) : Res := done s (powered s fun s => raiseP s (linPage n) 0)

/-- LIN_LERR_READ (R418). -/
def execLinLerrRead (who : Who) (n : Fin 6) (s : State) : Res := done s (readReg s who (linPage n) 0x108)

/-- NM_MESSAGE_RECEIVED (R422). -/
def execNmMessageReceived (src : Byte) (data : List Byte) (s : State) : Res :=
  done s (bused s fun s => nmgReceive s src.toNat data)

/-- NM_RING_HOLD_EXPIRY (R422). -/
def execNmRingHoldExpiry (s : State) : Res := done s (bused s fun s => nmgHold s)

/-- NM_SUCCESSOR_TIMEOUT (R422). -/
def execNmSuccessorTimeout (s : State) : Res := done s (bused s fun s => nmgSuccTimeout s)

/-- NM_RING_LOSS (R422). -/
def execNmRingLoss (s : State) : Res := done s (bused s fun s => nmgRingLoss s)

/-- NM_STARTUP_TIMEOUT (R422). -/
def execNmStartupTimeout (s : State) : Res := done s (bused s fun s => nmgStartTimeout s)

/-- WBS_EXPIRY (R425, R426): a loss of readiness on the same clock counts as a cancel. An expiry within a message's frame is not given:
the frame has come in WBS and decides (DESIGN CHOICE, notes/assumptions/61). -/
def execWbsExpiry (s : State) : Res :=
  done s (bused s fun s => if nodeReady s then nmgWbsEnd s else nmgReadiness s false)

/-- NM_READINESS_CHANGE (R426). -/
def execNmReadinessChange (s : State) : Res := done s (bused s fun s => nmgReadiness s (nodeReady s))

/-- LIMPHOME_TIMER (R428). -/
def execLimphomeTimer (s : State) : Res := done s (bused s fun s => nmgLimpTimer s)

end Sys2Proof.Machine
end

