-- ==== Sys2Proof/Machine/CmdClock.lean ====
section
/-! DEFINITION. The commands of AON writes and the clock monitors (01, 03): one meaning a command. -/

namespace Sys2Proof.Machine

/-- PMU_WRITE_APPLY (R25). -/
def execPmuWriteApply (s : State) : Res := done s (if s.mode = .off then s else pmuApply s)

/-- ACCTCLR_MASK (R73). -/
def execAcctclrMask (who : Who) (s : State) : Res := done s (writeReg s who 0x01 0x120 4)

/-- ACCTCLR_FWAKE (R72). -/
def execAcctclrFwake (who : Who) (s : State) : Res := done s (writeReg s who 0x01 0x120 2)

/-- ACCTCLR_REFUSE (R68). -/
def execAcctclrRefuse (who : Who) (s : State) : Res := done s (writeReg s who 0x01 0x120 1)

/-- SYS_CLOCK_LOSS (R16). -/
def execSysClockLoss (s : State) : Res := done s (powered s fun s => clkSysLoss s)

/-- CLOCK_MONITOR_WINDOW (R34). -/
def execClockMonitorWindow (busCnt rcDiff : BitVec 16) (aBad bBad : Bool) (s : State) : Res :=
  done s (powered s fun s => clkWindow s busCnt rcDiff aBad bBad)

/-- SYS_CLOCK_RETURN (R543). -/
def execSysClockReturn (s : State) : Res := done s (powered s fun s => clkSysBack s)

end Sys2Proof.Machine
end

