-- ==== Sys2Proof/Machine/CmdCore.lean ====
section
/-! DEFINITION. The commands of the Elroth cores (13, 14): one meaning a command. -/

namespace Sys2Proof.Machine

/-- INTERRUPT_ENTRY (R301). -/
def execInterruptEntry (core : EcCore) (s : State) : Res := done s (coreInterrupt s core)

/-- LD (R320). -/
def execLd (core : EcCore) (f : Form) (s : State) : Res :=
  done s (coreStep s core (.ld core f) fun s => ecLd s core f)

/-- ST (R320). -/
def execSt (core : EcCore) (f : Form) (s : State) : Res :=
  done s (coreStep s core (.st core f) fun s => ecSt s core f)

/-- LDX (R320). -/
def execLdx (core : EcCore) (f : Form) (s : State) : Res :=
  done s (coreStep s core (.ldx core f) fun s => ecLdIdx s core f false)

/-- LDY (R320). -/
def execLdy (core : EcCore) (f : Form) (s : State) : Res :=
  done s (coreStep s core (.ldy core f) fun s => ecLdIdx s core f true)

/-- STX (R320). -/
def execStx (core : EcCore) (f : Form) (s : State) : Res :=
  done s (coreStep s core (.stx core f) fun s => ecStIdx s core f false)

/-- STY (R320). -/
def execSty (core : EcCore) (f : Form) (s : State) : Res :=
  done s (coreStep s core (.sty core f) fun s => ecStIdx s core f true)

/-- ADRX (R320). -/
def execAdrx (core : EcCore) (f : GForm) (s : State) : Res :=
  done s (coreStep s core (.adrx core f) fun s => ecAdr s core f false)

/-- ADRY (R320). -/
def execAdry (core : EcCore) (f : GForm) (s : State) : Res :=
  done s (coreStep s core (.adry core f) fun s => ecAdr s core f true)

/-- LD16 (R320). -/
def execLd16 (core : EcCore) (f : GForm) (s : State) : Res :=
  done s (coreStep s core (.ld16 core f) fun s => ecLdNarrow s core f 2)

/-- LD8 (R320). -/
def execLd8 (core : EcCore) (f : GForm) (s : State) : Res :=
  done s (coreStep s core (.ld8 core f) fun s => ecLdNarrow s core f 1)

/-- ST16 (R320). -/
def execSt16 (core : EcCore) (f : GForm) (s : State) : Res :=
  done s (coreStep s core (.st16 core f) fun s => ecStNarrow s core f 2)

/-- ST8 (R320). -/
def execSt8 (core : EcCore) (f : GForm) (s : State) : Res :=
  done s (coreStep s core (.st8 core f) fun s => ecStNarrow s core f 1)

/-- SWAP (R322). -/
def execSwap (core : EcCore) (f : Form) (s : State) : Res :=
  done s (coreStep s core (.swap core f) fun s => ecSwap s core f)

/-- STZ (R320). -/
def execStz (core : EcCore) (w : BitVec 10) (s : State) : Res :=
  done s (coreStep s core (.stz core w) fun s => ecStz s core w)

/-- PUSH (R320). -/
def execPush (core : EcCore) (m : BitVec 4) (r : BitVec 5) (s : State) : Res :=
  done s (coreStep s core (.push core m r) fun s => ecPush s core m r)

/-- POP (R314). -/
def execPop (core : EcCore) (m : BitVec 4) (r : BitVec 5) (s : State) : Res :=
  done s (coreStep s core (.pop core m r) fun s => ecPop s core m r)

/-- MVR (R314). -/
def execMvr (core : EcCore) (d : BitVec 4) (r : BitVec 5) (s : State) : Res :=
  done s (coreStep s core (.mvr core d r) fun s => ecMvr s core d r)

/-- ADD (R320). -/
def execAdd (core : EcCore) (f : Form) (s : State) : Res :=
  done s (coreStep s core (.add core f) fun s => ecArith s core f false false)

/-- ADC (R320). -/
def execAdc (core : EcCore) (f : GForm) (s : State) : Res :=
  done s (coreStep s core (.adc core f) fun s => ecArith s core (.g f) false true)

/-- SUB (R320). -/
def execSub (core : EcCore) (f : Form) (s : State) : Res :=
  done s (coreStep s core (.sub core f) fun s => ecArith s core f true false)

/-- SBC (R320). -/
def execSbc (core : EcCore) (f : GForm) (s : State) : Res :=
  done s (coreStep s core (.sbc core f) fun s => ecArith s core (.g f) true true)

/-- CMP (R320). -/
def execCmp (core : EcCore) (f : Form) (s : State) : Res :=
  done s (coreStep s core (.cmp core f) fun s => ecCompare s core f CoreSt.a)

/-- AND (R320). -/
def execAnd (core : EcCore) (f : Form) (s : State) : Res :=
  done s (coreStep s core (.and core f) fun s => ecLogic s core f (· &&& ·))

/-- OR (R320). -/
def execOr (core : EcCore) (f : Form) (s : State) : Res :=
  done s (coreStep s core (.or core f) fun s => ecLogic s core f (· ||| ·))

/-- XOR (R320). -/
def execXor (core : EcCore) (f : Form) (s : State) : Res :=
  done s (coreStep s core (.xor core f) fun s => ecLogic s core f (· ^^^ ·))

/-- TST (R320). -/
def execTst (core : EcCore) (f : Form) (s : State) : Res :=
  done s (coreStep s core (.tst core f) fun s => ecTst s core f)

/-- CPX (R320). -/
def execCpx (core : EcCore) (f : GForm) (s : State) : Res :=
  done s (coreStep s core (.cpx core f) fun s => ecCompare s core (.g f) CoreSt.x)

/-- CPY (R320). -/
def execCpy (core : EcCore) (f : GForm) (s : State) : Res :=
  done s (coreStep s core (.cpy core f) fun s => ecCompare s core (.g f) CoreSt.y)

/-- ADDX (R320). -/
def execAddx (core : EcCore) (f : GForm) (s : State) : Res :=
  done s (coreStep s core (.addx core f) fun s => ecAddIdx s core f false)

/-- ADDY (R320). -/
def execAddy (core : EcCore) (f : GForm) (s : State) : Res :=
  done s (coreStep s core (.addy core f) fun s => ecAddIdx s core f true)

/-- ADDS (R320). -/
def execAdds (core : EcCore) (f : GForm) (s : State) : Res :=
  done s (coreStep s core (.adds core f) fun s => ecAdds s core f)

/-- LDB (R320). -/
def execLdb (core : EcCore) (f : GForm) (s : State) : Res :=
  done s (coreStep s core (.ldb core f) fun s => ecLdb s core f)

/-- MUL (R320). -/
def execMul (core : EcCore) (f : GForm) (s : State) : Res :=
  done s (coreStep s core (.mul core f) fun s => ecMul s core f)

/-- MAC (R320). -/
def execMac (core : EcCore) (m : BitVec 4) (sh : BitVec 5) (s : State) : Res :=
  done s (coreStep s core (.mac core m sh) fun s => ecMac s core m sh)

/-- SAT (R320). -/
def execSat (core : EcCore) (m : BitVec 4) (sh : BitVec 5) (s : State) : Res :=
  done s (coreStep s core (.sat core m sh) fun s => ecSat s core m sh (-2147483648) 2147483647)

/-- SAT12 (R323). -/
def execSat12 (core : EcCore) (m : BitVec 4) (sh : BitVec 5) (s : State) : Res :=
  done s (coreStep s core (.sat12 core m sh) fun s => ecSat s core m sh 0 4095)

/-- SHL (R320). -/
def execShl (core : EcCore) (f : GForm) (s : State) : Res :=
  done s (coreStep s core (.shl core f) fun s => ecShift s core f true)

/-- SHR (R320). -/
def execShr (core : EcCore) (f : GForm) (s : State) : Res :=
  done s (coreStep s core (.shr core f) fun s => ecShift s core f false)

/-- ASR (R320). -/
def execAsr (core : EcCore) (f : GForm) (s : State) : Res :=
  done s (coreStep s core (.asr core f) fun s => ecAsr s core f)

/-- NEG (R320). -/
def execNeg (core : EcCore) (m : BitVec 4) (s : State) : Res :=
  done s (coreStep s core (.neg core m) fun s => ecUnary s core m negFn)

/-- NOT (R320). -/
def execNot (core : EcCore) (m : BitVec 4) (s : State) : Res :=
  done s (coreStep s core (.not core m) fun s => ecUnary s core m notFn)

/-- CLR (R320). -/
def execClr (core : EcCore) (m : BitVec 4) (s : State) : Res :=
  done s (coreStep s core (.clr core m) fun s => ecUnary s core m clrFn)

/-- EXTH (R320). -/
def execExth (core : EcCore) (m : BitVec 4) (s : State) : Res :=
  done s (coreStep s core (.exth core m) fun s => ecUnary s core m exthFn)

/-- EXTB (R320). -/
def execExtb (core : EcCore) (m : BitVec 4) (s : State) : Res :=
  done s (coreStep s core (.extb core m) fun s => ecUnary s core m extbFn)

/-- INC (R320). -/
def execInc (core : EcCore) (m : BitVec 4) (s : State) : Res :=
  done s (coreStep s core (.inc core m) fun s => ecUnary s core m incFn)

/-- DEC (R320). -/
def execDec (core : EcCore) (m : BitVec 4) (s : State) : Res :=
  done s (coreStep s core (.dec core m) fun s => ecUnary s core m decFn)

/-- ABS (R320). -/
def execAbs (core : EcCore) (m : BitVec 4) (s : State) : Res :=
  done s (coreStep s core (.abs core m) fun s => ecUnary s core m absFn)

/-- LDS12 (R323). -/
def execLds12 (core : EcCore) (f : GForm) (s : State) : Res :=
  done s (coreStep s core (.lds12 core f) fun s => ecLds12 s core f)

/-- STS12 (R323). -/
def execSts12 (core : EcCore) (f : GForm) (s : State) : Res :=
  done s (coreStep s core (.sts12 core f) fun s => ecSts12 s core f)

/-- PK12 (R324). -/
def execPk12 (core : EcCore) (f : GForm) (s : State) : Res :=
  done s (coreStep s core (.pk12 core f) fun s => ecPk12 s core f)

/-- UNPK12 (R324). -/
def execUnpk12 (core : EcCore) (f : GForm) (s : State) : Res :=
  done s (coreStep s core (.unpk12 core f) fun s => ecUnpk12 s core f)

/-- MOVB (R320). -/
def execMovb (core : EcCore) (m : BitVec 4) (sh : BitVec 5) (s : State) : Res :=
  done s (coreStep s core (.movb core m sh) fun s => ecMovb s core (m, sh))

/-- JMP (R320). -/
def execJmp (core : EcCore) (f : GForm) (s : State) : Res :=
  done s (coreStep s core (.jmp core f) fun s => ecJmp s core f)

/-- JSR (R320). -/
def execJsr (core : EcCore) (f : GForm) (s : State) : Res :=
  done s (coreStep s core (.jsr core f) fun s => ecJsr s core f)

/-- RTS (R320). -/
def execRts (core : EcCore) (m : BitVec 4) (sh : BitVec 5) (s : State) : Res :=
  done s (coreStep s core (.rts core m sh) fun s => ecRts s core m sh)

/-- RTI (R331). -/
def execRti (core : EcCore) (m : BitVec 4) (sh : BitVec 5) (s : State) : Res :=
  done s (coreStep s core (.rti core m sh) fun s => ecRti s core m sh)

/-- BCC_SHORT (R318). -/
def execBccShort (core : EcCore) (cc : BitVec 4) (d : BitVec 10) (s : State) : Res :=
  done s (coreStep s core (.bccShort core cc d) fun s => ecBccShort s core cc d)

/-- BCC_LONG (R320). -/
def execBccLong (core : EcCore) (cc : BitVec 4) (sh : BitVec 5) (d : BitVec 16) (s : State) : Res :=
  done s (coreStep s core (.bccLong core cc sh d) fun s => ecBccLong s core cc sh d)

/-- WFE_L (R325). -/
def execWfeL (core : EcCore) (f : GForm) (s : State) : Res :=
  done s (coreStep s core (.wfeL core f) fun s => ecWfe s core f false)

/-- WFE_H (R325). -/
def execWfeH (core : EcCore) (f : GForm) (s : State) : Res :=
  done s (coreStep s core (.wfeH core f) fun s => ecWfe s core f true)

/-- WAIT_COMPLETE (R325). -/
def execWaitComplete (core : EcCore) (s : State) : Res := done s (ecWaitCheck s core)

/-- SEV (R326). -/
def execSev (core : EcCore) (f : GForm) (s : State) : Res :=
  done s (coreStep s core (.sev core f) fun s => ecSev s core f)

/-- WTU (R327). -/
def execWtu (core : EcCore) (f : GForm) (now : BitVec 64) (s : State) : Res :=
  done s (coreStep (setNow s now.toNat) core (.wtu core f 0) fun s => ecWtu s core f)

/-- WTU_COMPLETE (R327). -/
def execWtuComplete (core : EcCore) (now : BitVec 64) (s : State) : Res := done s (ecWaitCheck (setNow s now.toNat) core)

/-- WTX_L (R328). -/
def execWtxL (core : EcCore) (f : GForm) (now : BitVec 64) (s : State) : Res :=
  done s (coreStep (setNow s now.toNat) core (.wtxL core f 0) fun s => ecWtx s core f false)

/-- WTX_H (R328). -/
def execWtxH (core : EcCore) (f : GForm) (now : BitVec 64) (s : State) : Res :=
  done s (coreStep (setNow s now.toNat) core (.wtxH core f 0) fun s => ecWtx s core f true)

/-- WTX_COMPLETE (R328). -/
def execWtxComplete (core : EcCore) (now : BitVec 64) (s : State) : Res := done s (ecWaitCheck (setNow s now.toNat) core)

/-- REP (R330). -/
def execRep (core : EcCore) (f : GForm) (s : State) : Res :=
  done s (coreStep s core (.rep core f) fun s => ecRep s core f false)

/-- REPI (R331). -/
def execRepi (core : EcCore) (f : GForm) (s : State) : Res :=
  done s (coreStep s core (.repi core f) fun s => ecRep s core f true)

/-- NOP (R320). -/
def execNop (core : EcCore) (m : BitVec 4) (s : State) : Res :=
  done s (coreStep s core (.nop core m) fun s => ecPlain s core m id)

/-- EI (R320). -/
def execEi (core : EcCore) (m : BitVec 4) (s : State) : Res :=
  done s (coreStep s core (.ei core m) fun s => ecPlain s core m fun c => { c with i := true })

/-- DI (R320). -/
def execDi (core : EcCore) (m : BitVec 4) (s : State) : Res :=
  done s (coreStep s core (.di core m) fun s => ecPlain s core m fun c => { c with i := false })

end Sys2Proof.Machine
end

