-- ==== Sys2Proof/Machine/CmdEvent.lean ====
section
/-! DEFINITION. The commands of events, timebase, DMA, mailboxes (13): one meaning a command. -/

namespace Sys2Proof.Machine

/-- EVF_RAISE (R304). -/
def execEvfRaise (who : Who) (v : Word) (s : State) : Res := done s (writeReg s who 0x0E 0x100 v)

/-- EVF_OVR_READ (R302). -/
def execEvfOvrRead (who : Who) (k : Fin 2) (s : State) : Res := done s (readReg s who 0x0E (0x108 + 4 * k.val))

/-- TBS_CAPTURE (R307). -/
def execTbsCapture (who : Who) (now : BitVec 64) (s : State) : Res := done s (writeReg (setNow s now.toNat) who 0x0D 0x100 1)

/-- TBS_CMP_WRITE (R308). -/
def execTbsCmpWrite (who : Who) (k : Fin 4) (v : Word) (s : State) : Res := done s (writeReg s who 0x0D (0x120 + 4 * k.val) v)

/-- TBS_COMPARE (R308). -/
def execTbsCompare (k : Fin 4) (now : BitVec 64) (s : State) : Res :=
  done s (bused s fun s => tbsFire (setNow s now.toNat) k)

/-- BEACON_TIMEOUT (R306). -/
def execBeaconTimeout (s : State) : Res := done s (bused s fun s => tbsNoBeacon s)

/-- DMA_START (R309). -/
def execDmaStart (who : Who) (c : Fin 16) (s : State) : Res := done s (writeReg s who 0x0F (0x100 + 16 * c.val) 1)

/-- DMA_STOP (R309). -/
def execDmaStop (who : Who) (c : Fin 16) (s : State) : Res := done s (writeReg s who 0x0F (0x100 + 16 * c.val) 2)

/-- DMA_TRIGGER (R310). -/
def execDmaTrigger (c : Fin 16) (s : State) : Res := done s (powered s fun s => dmaTrigger s c)

/-- DMA_BLOCK_DONE (R309). -/
def execDmaBlockDone (c : Fin 16) (s : State) : Res := done s (powered s fun s => dmaBlock s c)

/-- MBX_BELL (R312). -/
def execMbxBell (who : Who) (m : Fin 4) (out : Bool) (v : Word) (s : State) : Res :=
  done s (writeReg s who 0xB0 (0x140 + 256 * m.val + 128 * out.toNat) v)

/-- MBX_TAKE (R312). -/
def execMbxTake (who : Who) (m : Fin 4) (out : Bool) (s : State) : Res :=
  done s (readReg s who 0xB0 (0x144 + 256 * m.val + 128 * out.toNat))

end Sys2Proof.Machine
end

