-- ==== Sys2Proof/Machine/CmdFault.lean ====
section
/-! DEFINITION. The commands of fault collection (22): one meaning a command. -/

namespace Sys2Proof.Machine

/-- FAULT_EVENT (R493). -/
def execFaultEvent (id : BitVec 11) (s : State) : Res := done s (faultEvent s id.toNat)

/-- FLT_ACK (R501). -/
def execFltAck (who : Who) (id : BitVec 11) (key : Byte) (s : State) : Res :=
  done s (writeReg s who 0x04 0x104 (ackValue key id))

/-- FLT_ACK_ALL (R501). -/
def execFltAckAll (who : Who) (key : Byte) (s : State) : Res := done s (writeReg s who 0x04 0x104 (ackValue key 0x7FF))

/-- FLT_AKICK (R505). -/
def execFltAkick (who : Who) (key : Byte) (dt : BitVec 16) (s : State) : Res := done s (kickWrite s who key dt.toNat)

/-- KICK_TIMEOUT (R505). -/
def execKickTimeout (s : State) : Res := done s (powered s fun s => kickTimeout s)

/-- RESET_COUNT_CLEAR (R503). -/
def execResetCountClear (s : State) : Res := done s (resetCountClear s)

/-- FLT_NEWCNT_READ (R507). -/
def execFltNewcntRead (who : Who) (s : State) : Res := done s (readReg s who 0x04 0x10C)

end Sys2Proof.Machine
end

