-- ==== Sys2Proof/Machine/CmdHb.lean ====
section
/-! DEFINITION. The commands of half-bridges (08): one meaning a command. -/

namespace Sys2Proof.Machine

/-- HB_CMD_WRITE (R169). -/
def execHbCmdWrite (who : Who) (n : Fin 12) (v : Word) (s : State) : Res := done s (writeReg s who (hbPage n) 0x100 v)

/-- HB_DUTY_WRITE (R171). -/
def execHbDutyWrite (who : Who) (n : Fin 12) (v : Word) (s : State) : Res := done s (writeReg s who (hbPage n) 0x104 v)

/-- HB_POS_WRITE (R184). -/
def execHbPosWrite (who : Who) (n : Fin 12) (v : Word) (s : State) : Res := done s (writeReg s who (hbPage n) 0x118 v)

/-- REVERSAL_PAUSE_END (R174). -/
def execReversalPauseEnd (n : Fin 12) (s : State) : Res := done s (powered s fun s => hbReversalEnd s n)

/-- CURRENT_LIMIT_ACT (R178). -/
def execCurrentLimitAct (n : Fin 12) (s : State) : Res := done s (powered s fun s => hbLimit s n)

/-- STALL_TRIP (R179). -/
def execStallTrip (n : Fin 12) (s : State) : Res := done s (powered s fun s => hbStall s n)

/-- RIPPLE_ACCEPTED (R184). -/
def execRippleAccepted (n : Fin 12) (per : BitVec 16) (mean : BitVec 12) (s : State) : Res :=
  done s (powered s fun s => hbAccept s n per.toNat mean.toNat)

/-- RIPPLE_INSERTED (R184). -/
def execRippleInserted (n : Fin 12) (s : State) : Res := done s (powered s fun s => hbInsert s n)

/-- STANDSTILL (R184). -/
def execStandstill (n : Fin 12) (s : State) : Res := done s (powered s fun s => hbStill s n)

/-- PARK_TIMEOUT (R187). -/
def execParkTimeout (n : Fin 12) (s : State) : Res := done s (powered s fun s => hbParkTimeout s n)

/-- LIMITER_TURN_ON_AGAIN (R178). -/
def execLimiterTurnOnAgain (n : Fin 12) (s : State) : Res := done s (powered s fun s => hbLimitAgain s n)

end Sys2Proof.Machine
end

