-- ==== Sys2Proof/Machine/CmdHsc.lean ====
section
/-! DEFINITION. The commands of high-side channels, protection, diagnostics (05, 06, 07): one meaning a command. -/

namespace Sys2Proof.Machine

/-- HSC_CMD_WRITE (R99). -/
def execHscCmdWrite (who : Who) (n : Fin 72) (v : Word) (s : State) : Res := done s (writeReg s who (hscPage n) 0x100 v)

/-- HSC_CMDS (R117). -/
def execHscCmds (who : Who) (n : Fin 72) (v : Word) (s : State) : Res := done s (writeReg s who (hscPage n) 0x104 v)

/-- HSC_CMDC (R117). -/
def execHscCmdc (who : Who) (n : Fin 72) (v : Word) (s : State) : Res := done s (writeReg s who (hscPage n) 0x108 v)

/-- HSC_DUTY_WRITE (R105). -/
def execHscDutyWrite (who : Who) (n : Fin 72) (v : Word) (s : State) : Res := done s (writeReg s who (hscPage n) 0x10C v)

/-- PULSE_START (R103). -/
def execPulseStart (o : GenOut) (s : State) : Res :=
  done s (powered s fun s => match o with | .hsc n => hscPulseStart s n | .hb n => hbPulseStart s n)

/-- PULSE_END (R103). -/
def execPulseEnd (o : GenOut) (m : PulseSample) (enh neg : Bool) (s : State) : Res :=
  done s (powered s fun s => match o with
    | .hsc n => hscPulseEnd s n m.code enh m.served | .hb n => hbPulseEnd s n m.code neg m.served)

/-- CHARGE_COMPLETE (R110). -/
def execChargeComplete (n : Fin 72) (s : State) : Res := done s (powered s fun s => hscCharged s n)

/-- CHARGE_TIMEOUT (R110). -/
def execChargeTimeout (n : Fin 72) (s : State) : Res := done s (powered s fun s => hscChargeTimeout s n)

/-- FUSE_ENGINE_TICK (R124). -/
def execFuseEngineTick (m : TickSamples) (s : State) : Res := done s (fuseTick s m)

/-- HARD_SHORT_TRIP (R133). -/
def execHardShortTrip (o : ProtOut) (s : State) : Res := done s (powered s fun s => protShort s o)

/-- THERMAL_LATCH (R134). -/
def execThermalLatch (o : ProtOut) (s : State) : Res := done s (powered s fun s => thermalLatch s o)

/-- LATCH_RELEASE (R134). -/
def execLatchRelease (o : ProtOut) (s : State) : Res := done s (powered s fun s => thermalRelease s o)

/-- DELTA_T_LATCH (R135). -/
def execDeltaTLatch (o : ProtOut) (s : State) : Res := done s (powered s fun s => deltaLatch s o)

/-- DELTA_T_RELEASE (R135). -/
def execDeltaTRelease (o : ProtOut) (s : State) : Res := done s (powered s fun s => deltaRelease s o)

/-- RESTART_DELAY_EXPIRY (R137). -/
def execRestartDelayExpiry (o : ProtOut) (s : State) : Res := done s (powered s fun s => protDelayEnd s o)

/-- RESTART (R138). -/
def execRestart (o : ProtOut) (s : State) : Res := done s (powered s fun s => protRestart s o)

/-- RETRY_COUNT_CLEAR (R140). -/
def execRetryCountClear (o : ProtOut) (s : State) : Res := done s (powered s fun s => protRetryClear s o)

/-- INRUSH_WINDOW_END (R130). -/
def execInrushWindowEnd (n : Fin 72) (s : State) : Res := done s (powered s fun s => hscWindowEnd s n)

/-- SEGMENT_SUBSTITUTE (R115). -/
def execSegmentSubstitute (n : Fin 72) (s : State) : Res := done s (powered s fun s => segSpare s n)

/-- OFF_STATE_CHECK_START (R153). -/
def execOffStateCheckStart (n : Fin 72) (s : State) : Res := done s (powered s fun s => offCheckStart s n)

/-- OFF_STATE_PHASE_END (R152). -/
def execOffStatePhaseEnd (n : Fin 72) (vout : BitVec 12) (room : Bool) (s : State) : Res :=
  done s (powered s fun s => offCheckPhase s n vout.toNat room)

/-- DIAG_RESULT_TIMEOUT (R157). -/
def execDiagResultTimeout (n : Fin 72) (s : State) : Res := done s (powered s fun s => hscDiagTimeout s n)

/-- SLICE_REFERENCE_CHECK (R147). -/
def execSliceReferenceCheck (k : Fin 4) (dev : Int) (s : State) : Res := done s (powered s fun s => sliceCheck s k dev)

/-- SLICE_SUBSTITUTE (R147). -/
def execSliceSubstitute (k : Fin 4) (s : State) : Res := done s (powered s fun s => sliceSpare s k)

/-- BASE_TEMP_REFRESH (R125). -/
def execBaseTempRefresh (base : BitVec 12) (refs : List (BitVec 12)) (s : State) : Res :=
  done s (powered s fun s => baseTemp s base.toNat (refs.map BitVec.toNat))

/-- WEAR_MEASUREMENT (R159). -/
def execWearMeasurement (n : Fin 72) (currents : List Nat) (s : State) : Res :=
  done s (powered s fun s => wearMeasure s n currents)

/-- STREAM_SAMPLE_WRITE (R160). -/
def execStreamSampleWrite (src : Fin 6) (idx : Byte) (code : BitVec 12) (s : State) : Res :=
  done s (powered s fun s => streamSample s src idx.toNat code.toNat)

/-- BAND_GAP_REFERENCE_MISMATCH (R164). -/
def execBandGapReferenceMismatch (s : State) : Res :=
  done s (powered s fun s => if blockOff s 0x1E then s else raiseP s 0x1E 3)

end Sys2Proof.Machine
end

