-- ==== Sys2Proof/Machine/CmdImm.lean ====
section
/-! DEFINITION. The commands of immobiliser (19): one meaning a command. -/

namespace Sys2Proof.Machine

/-- IMM_START (R440). -/
def execImmStart (who : Who) (s : State) : Res := done s (writeReg s who 0x1A 0x100 1)

/-- DEAUTH (R441). -/
def execDeauth (who : Who) (s : State) : Res := done s (writeReg s who 0x1A 0x100 2)

/-- LF_ID (R436). -/
def execLfId (r : LfReply) (id : Word) (s : State) : Res := done s (powered s fun s => immId s r id.toNat)

/-- LF_C1 (R436). -/
def execLfC1 (r : LfReply) (c1 : BitVec 128) (s : State) : Res := done s (powered s fun s => immC1 s r c1)

/-- LF_ACK (R436). -/
def execLfAck (a : LfAckIn) (s : State) : Res := done s (powered s fun s => immAck s a.r a.b)

/-- LF_BLK (R436). -/
def execLfBlk (r : LfReply) (data : Word) (s : State) : Res := done s (powered s fun s => immBlk s r data)

/-- REPLY_WINDOW_EXPIRY (R437). -/
def execReplyWindowExpiry (late : Option Byte) (s : State) : Res := done s (powered s fun s => immExpiry s late)

/-- SESSION_LOCK_EXPIRY: the lock is held in AON and timed by the RTC (R442). -/
def execSessionLockExpiry (s : State) : Res := done s (if s.mode = .off then s else immLockEnd s)

/-- RELEASE_MESSAGE (R443). -/
def execReleaseMessage (s : State) : Res := done s (powered s fun s => relTick s)

/-- LF_DRIVER_FAULT (R453). -/
def execLfDriverFault (a : Fin 4) (f : LfFault) (s : State) : Res := done s (powered s fun s => lfaFault s a f)

end Sys2Proof.Machine
end

