-- ==== Sys2Proof/Machine/CmdInput.lean ====
section
/-! DEFINITION. The commands of inputs, reflex rules, governor (12): one meaning a command. -/

namespace Sys2Proof.Machine

/-- SWITCH_INPUT_RAW_CHANGE (R272): the pin's level; RAW follows while PWR runs. -/
def execSwitchInputRawChange (n : Fin 64) (level : Bool) (s : State) : Res :=
  done s (powered (pinsSet s (2 ^ n.val) (if level then 2 ^ n.val else 0)) fun s => swiRawChange s n level)

/-- DEBOUNCE_EXPIRY (R272). -/
def execDebounceExpiry (n : Fin 64) (s : State) : Res := done s (powered s fun s => swiDebounce s n)

/-- CLEANING_PULSE_END (R271). -/
def execCleaningPulseEnd (n : Fin 64) (ok : Bool) (s : State) : Res := done s (powered s fun s => swiCleanEnd s n ok)

/-- ANALOGUE_COMPARATOR_SAMPLE (R275). -/
def execAnalogueComparatorSample (k : Fin 16) (code : BitVec 12) (s : State) : Res :=
  done s (powered s fun s => swiAnalogue s k code.toNat)

/-- INPUT_OVERVOLTAGE (R278); the comparators run in WATCH too, where the source is held in AON (R544). -/
def execInputOvervoltage (n : Fin 64) (s : State) : Res :=
  done s (if running s || s.mode = .watch then raiseP s 0x1C 0 else s)

/-- REFLEX_PULSE_EXPIRY (R281). -/
def execReflexPulseExpiry (r : Fin 128) (s : State) : Res := done s (powered s fun s => rfxPulseEnd s r)

/-- RFX_TGL_CLEAR (R287). -/
def execRfxTglClear (who : Who) (w : Fin 4) (v : Word) (s : State) : Res := done s (writeReg s who 0x1D (0x110 + 4 * w.val) v)

/-- RFX_INH_WRITE (R284). -/
def execRfxInhWrite (who : Who) (w : Fin 4) (v : Word) (s : State) : Res := done s (writeReg s who 0x1D (0x120 + 4 * w.val) v)

/-- GOVERNOR_TICK (R289). -/
def execGovernorTick (m : LossSamples) (s : State) : Res := done s (powered s fun s => govMs s m)

/-- GOV_LOG_POP (R291). -/
def execGovLogPop (who : Who) (s : State) : Res := done s (readReg s who 0x1F 0x144)

end Sys2Proof.Machine
end

