-- ==== Sys2Proof/Machine/CmdLight.lean ====
section
/-! DEFINITION. The commands of strings, matrix, frames, chains (10, 11): one meaning a command. -/

namespace Sys2Proof.Machine

/-- LST_CMD_WRITE (R231). -/
def execLstCmdWrite (who : Who) (n : Fin 4) (v : Word) (s : State) : Res := done s (writeReg s who (lstPage n) 0x100 v)

/-- STRING_FRAME_BOUNDARY (R230), the period boundary of the page. -/
def execStringFrameBoundary (n : Fin 4) (now : BitVec 64) (s : State) : Res :=
  done s (bused s fun s => lstBoundaryAt (periodBoundary (setNow s now.toNat) (lstPage n)) n)

/-- SOFT_START_END (R231). -/
def execSoftStartEnd (n : Fin 4) (s : State) : Res := done s (bused s fun s => lstSoftEnd s n)

/-- LED_OPEN_DETECT (R232). -/
def execLedOpenDetect (n : Fin 4) (k : Fin 16) (s : State) : Res := done s (powered s fun s => lstOpen s n k)

/-- LED_SHORT_DETECT (R232). -/
def execLedShortDetect (n : Fin 4) (k : Fin 16) (s : State) : Res := done s (powered s fun s => lstShort s n k)

/-- STRING_OVP (R233). -/
def execStringOvp (n : Fin 4) (vout : BitVec 12) (s : State) : Res := done s (powered s fun s => lstOver s n vout.toNat)

/-- STRING_SHORT_TRIP (R233). -/
def execStringShortTrip (n : Fin 4) (s : State) : Res := done s (powered s fun s => protTrip s (.lst n) 0 [])

/-- LMX_CMD_WRITE (R239). -/
def execLmxCmdWrite (who : Who) (v : Word) (s : State) : Res := done s (writeReg s who 0x8C 0x100 v)

/-- MATRIX_FRAME_BOUNDARY (R236), the period boundary of the page. -/
def execMatrixFrameBoundary (now : BitVec 64) (s : State) : Res :=
  done s (bused s fun s => lmxBoundaryAt (periodBoundary (setNow s now.toNat) 0x8C))

/-- MATRIX_LED_OPEN (R238). -/
def execMatrixLedOpen (r : Fin 12) (k : Fin 24) (s : State) : Res := done s (powered s fun s => lmxOpen s r k)

/-- MATRIX_ROW_SHORT (R238). -/
def execMatrixRowShort (r : Fin 12) (s : State) : Res := done s (powered s fun s => lmxRowShort s r)

/-- MATRIX_COLUMN_STB (R238). -/
def execMatrixColumnStb (k : Fin 24) (s : State) : Res := done s (powered s fun s => lmxColStb s k)

/-- FRM_WRITE (R242). -/
def execFrmWrite (who : Who) (offs : BitVec 19) (size : AccSize) (v : Word) (s : State) : Res :=
  done s (storeAccess s who (0x20200000 + offs.toNat) size v)

/-- FRMC_ARM (R243). -/
def execFrmcArm (who : Who) (s : State) : Res := done s (writeReg s who 0x91 0x100 1)

/-- SWAP_TRIGGER (R243). -/
def execSwapTrigger (c : SwapCause) (now : BitVec 64) (s : State) : Res :=
  done s (bused s fun s => swapEvent (setNow s now.toNat) c.kind c.rise)

/-- MIRROR_COPY_DONE (R244). -/
def execMirrorCopyDone (s : State) : Res := done s (bused s fun s => mirrorDone s)

/-- PLAYER_START (R246). -/
def execPlayerStart (who : Who) (s : State) : Res := done s (writeReg s who 0x91 0x11C 1)

/-- PLAYER_STOP (R246). -/
def execPlayerStop (who : Who) (s : State) : Res := done s (writeReg s who 0x91 0x11C 2)

/-- PLAYER_COPY_DONE (R246). -/
def execPlayerCopyDone (ok : Bool) (s : State) : Res := done s (bused s fun s => playCopyDone s ok)

/-- FRMC_CLR_MISS (R253). -/
def execFrmcClrMiss (who : Who) (s : State) : Res := done s (writeReg s who 0x91 0x120 1)

/-- LCH_CMD_WRITE (R261). -/
def execLchCmdWrite (who : Who) (n : Fin 4) (v : Word) (s : State) : Res := done s (writeReg s who (lchPage n) 0x100 v)

/-- CHAIN_FRAME_BOUNDARY (R259), the period boundary of the page. -/
def execChainFrameBoundary (n : Fin 4) (late : Option (Fin 1024)) (now : BitVec 64) (s : State) : Res :=
  done s (bused s fun s => lchBoundaryAt (periodBoundary (setNow s now.toNat) (lchPage n)) n (late.map Fin.val))

/-- CHAIN_FRAME_LATCH (R259). -/
def execChainFrameLatch (n : Fin 4) (s : State) : Res := done s (bused s fun s => lchLatch s n)

/-- CHAIN_LINE_SHORT (R267). -/
def execChainLineShort (n : Fin 4) (s : State) : Res := done s (powered s fun s => lchLineShort s n)

end Sys2Proof.Machine
end

