-- ==== Sys2Proof/Machine/CmdMemory.lean ====
section
/-! DEFINITION. The commands of external memory, journal, spares (23): one meaning a command. -/

namespace Sys2Proof.Machine

/-- PROG (R512). -/
def execProg (who : Who) (cs : BitVec 2) (s : State) : Res := done s (writeReg s who 0x98 0x108 (xspValue cs 1))

/-- ERASE (R512). -/
def execErase (who : Who) (cs : BitVec 2) (s : State) : Res := done s (writeReg s who 0x98 0x108 (xspValue cs 2))

/-- FORMAT (R513). -/
def execFormat (who : Who) (cs : BitVec 2) (s : State) : Res := done s (writeReg s who 0x98 0x108 (xspValue cs 3))

/-- XSP_COMMAND_DONE (R513). -/
def execXspCommandDone (failed : Bool) (bad : List Nat) (s : State) : Res :=
  done s (powered s fun s => distStep (xspDone s failed bad))

/-- XSP_BUSY_TIMEOUT (R521). -/
def execXspBusyTimeout (s : State) : Res := done s (powered s fun s => xspTimeout s)

/-- JOURNAL_COPY (R515, R516): JRN begins its next operation on the flash, or the one that runs ends, `ok` or failed; reads that stalled on
the chip-select come after its end (R512). -/
def execJournalCopy (ok : Bool) (s : State) : Res :=
  done s (powered s fun s => if s.jrn.op.isSome then distStep (jrnEnd s (!ok)) else jrnStart s)

/-- JRN_RSEQ_WRITE (R517). -/
def execJrnRseqWrite (who : Who) (v : Word) (s : State) : Res := done s (writeReg s who 0x99 0x110 v)

/-- JRN_FETCH_DONE (R517). -/
def execJrnFetchDone (s : State) : Res := done s (powered s fun s => jrnFetchDone s)

/-- JRN_CLR_TOTAL (R522). -/
def execJrnClrTotal (who : Who) (s : State) : Res := done s (writeReg s who 0x99 0x118 1)

/-- JRN_LOST_READ (R522). -/
def execJrnLostRead (who : Who) (s : State) : Res := done s (readReg s who 0x99 0x10C)

/-- MRAM_ROW_SUBSTITUTE (R519). -/
def execMramRowSubstitute (m : RowReads) (lost : Bool) (s : State) : Res :=
  done s (powered s fun s => sprRow s m.row lost m.reads.toNat)

/-- KEY_SLOT_SUBSTITUTE (R462). -/
def execKeySlotSubstitute (slot : Fin 112) (s : State) : Res := done s (powered s fun s => sprKey s slot)

end Sys2Proof.Machine
end

