-- ==== Sys2Proof/Machine/CmdMode.lean ====
section
/-! DEFINITION. The commands of mode requests, Park entry, wakes, LISTEN and WATCH (03): one meaning a command. -/

namespace Sys2Proof.Machine

/-- MREQ_RUN (R94). -/
def execMreqRun (who : Who) (s : State) : Res := done s (writeReg s who 0x00 0x114 1)

/-- MREQ_PARK (R61). -/
def execMreqPark (who : Who) (s : State) : Res := done s (writeReg s who 0x00 0x114 2)

/-- MREQ_LIMP (R62). -/
def execMreqLimp (who : Who) (s : State) : Res := done s (writeReg s who 0x00 0x114 3)

/-- IDLE_TIMER_EXPIRY (R65). -/
def execIdleTimerExpiry (noBeacon : Bool) (s : State) : Res := done s (idleExpiry s noBeacon)

/-- PARK_QUIESCE_END (R66). -/
def execParkQuiesceEnd (updBusy jrnBusy : Bool) (s : State) : Res := done s (parkQuiesceEnd s updBusy jrnBusy)

/-- PARK_T2 (R128). -/
def execParkT2 (sec : Word) (s : State) : Res := done s (parkT2 s sec.toNat)

/-- PARK_T3 (R67). -/
def execParkT3 (levels : Byte) (s : State) : Res := done s (parkT3 s levels.toNat)

/-- WAKE_BUS_ACTIVITY (R69). -/
def execWakeBusActivity (bus : Fin 8) (also : Byte) (sec : Word) (sub : BitVec 16) (s : State) : Res :=
  done s (wakeFire s 1 bus also.toNat sec.toNat sub.toNat)

/-- WAKE_CAN_PATTERN (R69). -/
def execWakeCanPattern (bus : Fin 2) (also : Byte) (sec : Word) (sub : BitVec 16) (s : State) : Res :=
  done s (wakeFire s 2 bus also.toNat sec.toNat sub.toNat)

/-- WAKE_LIN_PULSE (R69). -/
def execWakeLinPulse (n : Fin 6) (also : Byte) (sec : Word) (sub : BitVec 16) (s : State) : Res :=
  done s (wakeFire s 3 (n.val + 2) also.toNat sec.toNat sub.toNat)

/-- WAKE_HORN (R355). -/
def execWakeHorn (laneB : Bool) (also : Byte) (sec : Word) (sub : BitVec 16) (s : State) : Res :=
  done s (wakeFire s 4 laneB.toNat also.toNat sec.toNat sub.toNat)

/-- WAKE_STRONG_INPUT (R273). -/
def execWakeStrongInput (n : Fin 8) (high : Bool) (also : Byte) (sec : Word) (sub : BitVec 16) (s : State) : Res :=
  done s (wakeStrong s n high also.toNat sec.toNat sub.toNat)

/-- WAKE_RTC_ALARM (R69). -/
def execWakeRtcAlarm (also : Byte) (sec : Word) (sub : BitVec 16) (s : State) : Res :=
  done s (wakeAlarm s also.toNat sec.toNat sub.toNat)

/-- WAKE_SIDEBAND (R71). -/
def execWakeSideband (also : Byte) (sec : Word) (sub : BitVec 16) (s : State) : Res :=
  done s (wakeFire s 7 0 also.toNat sec.toNat sub.toNat)

/-- LISTEN_TIMEOUT (R72). -/
def execListenTimeout (s : State) : Res := done s (listenTimeout s)

/-- QUALIFYING_TRAFFIC (R420). -/
def execQualifyingTraffic (h : Heard) (copyOk : Bool) (s : State) : Res := done s (listenTraffic s h.t h.whole copyOk)

/-- SCHEDULE_END (R63). -/
def execScheduleEnd (s : State) : Res := done s (scheduleEnd s)

/-- CYCLIC_SENSE_BURST (R274). -/
def execCyclicSenseBurst (b : CycSample) (also : Byte) (sec : Word) (sub : BitVec 16) (s : State) : Res :=
  done s (cycBurst s b.levels.toNat b.copyOk also.toNat sec.toNat sub.toNat)

/-- CYCLIC_CONFIRM_BURST (R274). -/
def execCyclicConfirmBurst (levels : BitVec 64) (also : Byte) (sec : Word) (sub : BitVec 16) (s : State) : Res :=
  done s (cycConfirm s levels.toNat also.toNat sec.toNat sub.toNat)

/-- POLL_BURST (R449). -/
def execPollBurst (copyOk : Bool) (heard : List LfPoll) (also : Byte) (sec : Word) (sub : BitVec 16) (s : State) : Res :=
  done s (pollBurst s copyOk heard also.toNat sec.toNat sub.toNat)

/-- POLL_STEP_END (R448). -/
def execPollStepEnd (s : State) : Res := done s (pollStepEnd s)

end Sys2Proof.Machine
end

