-- ==== Sys2Proof/Machine/CmdPage.lean ====
section
/-! DEFINITION. The commands of register writes and the header of every page (02): one meaning a command. -/

namespace Sys2Proof.Machine

/-- REGISTER_WRITE (R36). -/
def execRegisterWrite (who : Who) (addr : Word) (size : AccSize) (v : Word) (s : State) : Res :=
  done s (storeAccess s who addr.toNat size v)

/-- PAGE_COMMIT (R44). -/
def execPageCommit (who : Who) (page : Byte) (apply : BitVec 2) (enable : Bool) (s : State) : Res :=
  done s (writeReg s who page.toNat 0x00C (pctlValue apply enable 1))

/-- COMMIT_CHECK_DONE (R42). -/
def execCommitCheckDone (s : State) : Res := done s (powered s fun s => commitCheckDone s)

/-- PERIOD_BOUNDARY_APPLY (R45). -/
def execPeriodBoundaryApply (page : Byte) (s : State) : Res := done s (powered s fun s => periodBoundary s page.toNat)

/-- PAGE_ABORT (R46). -/
def execPageAbort (who : Who) (page : Byte) (apply : BitVec 2) (enable : Bool) (s : State) : Res :=
  done s (writeReg s who page.toNat 0x00C (pctlValue apply enable 2))

/-- PAGE_ENABLE (R48). -/
def execPageEnable (who : Who) (page : Byte) (apply : BitVec 2) (enable : Bool) (s : State) : Res :=
  done s (writeReg s who page.toNat 0x00C (pctlValue apply enable 0))

/-- PAGE_LOCK (R49). -/
def execPageLock (who : Who) (page : Byte) (apply : BitVec 2) (enable : Bool) (s : State) : Res :=
  done s (writeReg s who page.toNat 0x00C (pctlValue apply enable 4))

/-- PFORCE_WRITE (R55). -/
def execPforceWrite (who : Who) (page : Byte) (v : Word) (s : State) : Res := done s (writeReg s who page.toNat 0x01C v)

/-- PFLT_CLEAR (R56). -/
def execPfltClear (who : Who) (page : Byte) (v : Word) (s : State) : Res := done s (writeReg s who page.toNat 0x018 v)

/-- PSTAT_CLEAR (R541). -/
def execPstatClear (who : Who) (page : Byte) (v : Word) (s : State) : Res := done s (writeReg s who page.toNat 0x008 v)

/-- PROT_CLR (R59). -/
def execProtClr (who : Who) (s : State) : Res := done s (writeReg s who 0x05 0x10C 1)

end Sys2Proof.Machine
end

