-- ==== Sys2Proof/Machine/CmdPort.lean ====
section
/-! DEFINITION. The commands of host port and side-band port (17): one meaning a command. -/

namespace Sys2Proof.Machine

/-- HOST_NOP (R385). -/
def execHostNop (cmd : Byte) (s : State) : Res := done s (hostNop s cmd)

/-- HOST_WRITE (R388). -/
def execHostWrite (width : BitVec 2) (addr : Word) (len : BitVec 16) (ws : List Word) (crc : BitVec 16) (n : Nat)
    (s : State) : Res :=
  done s (hostWrite s width addr.toNat len.toNat ws crc.toNat n)

/-- HOST_READ (R390). -/
def execHostRead (width : BitVec 2) (addr : Word) (len : BitVec 16) (crc : BitVec 16) (late : Bool) (s : State) : Res :=
  done s (hostRead s width addr.toNat len.toNat crc.toNat late)

/-- RDBUF (R391). -/
def execRdbuf (width : BitVec 2) (s : State) : Res := done s (hostRdbuf s width)

/-- HOST_READ_COMPLETE (R390). -/
def execHostReadComplete (s : State) : Res := done s (hostReadGo s)

/-- HOST_WRITE_ISSUED (R389). -/
def execHostWriteIssued (s : State) : Res := done s (hostWriteIssued s)

/-- HOST_FRAME_ABORT (R393). -/
def execHostFrameAbort (cmd : Byte) (s : State) : Res := done s (hostAbort s cmd)

/-- HPT_CLR (R395). -/
def execHptClr (who : Who) (s : State) : Res := done s (writeReg s who 0x08 0x110 1)

/-- GETMODE (R398). -/
def execGetmode (s : State) : Res := done s (sbpGetMode s)

/-- GETFAULT (R398). -/
def execGetfault (s : State) : Res := done s (sbpGetFault s)

/-- ATTREQ (R401). -/
def execAttreq (nonce : List Byte) (pecOk : Bool) (s : State) : Res := done s (sbpAttReq s nonce pecOk)

/-- ATTSTAT (R401). -/
def execAttstat (s : State) : Res := done s (sbpAttStat s)

/-- ATTRD (R398). -/
def execAttrd (offs : BitVec 16) (s : State) : Res := done s (sbpAttRd s offs.toNat)

/-- REQLIMP (R400). -/
def execReqlimp (key : Byte) (pecOk : Bool) (s : State) : Res := done s (sbpReqLimp s key pecOk)

/-- REQRESET (R400). -/
def execReqreset (key : Byte) (pecOk : Bool) (s : State) : Res := done s (sbpReqReset s key pecOk)

/-- REQRECOV (R400). -/
def execReqrecov (key : Byte) (pecOk : Bool) (s : State) : Res := done s (sbpReqRecov s key pecOk)

/-- MEMRD (R402). -/
def execMemrd (addr : Word) (count : Byte) (s : State) : Res := done s (sbpMemRd s addr.toNat count.toNat)

/-- MEMWR (R402). -/
def execMemwr (key : Byte) (addr : Word) (count : Byte) (ws : List Word) (pecOk : Bool) (n : Nat) (s : State) : Res :=
  done s (sbpMemWr s key addr.toNat count.toNat ws pecOk n)

/-- MEMST (R402). -/
def execMemst (s : State) : Res := done s (sbpMemSt s)

/-- SMBUS_TIMEOUT (R397). -/
def execSmbusTimeout (s : State) : Res := done s (sbpTimeout s)

/-- SBP_CLR (R403). -/
def execSbpClr (who : Who) (s : State) : Res := done s (writeReg s who 0x09 0x10C 1)

/-- MEMWR_ISSUE_COMPLETE (R402). -/
def execMemwrIssueComplete (s : State) : Res := done s (sbpMemWrDone s)

/-- ATTREQ_REPORT_READY (R401). -/
def execAttreqReportReady (s : State) : Res := done s (sbpAttReady s)

end Sys2Proof.Machine
end

