-- ==== Sys2Proof/Machine/CmdPower.lean ====
section
/-! DEFINITION. The commands of supply and reset pin (04, 24): one meaning a command. -/

namespace Sys2Proof.Machine

/-- POWER_ON (R530). -/
def execPowerOn (s : State) : Res := done s (if s.mode = .off then powerOn s else s)

/-- POWER_LOSS (R530). -/
def execPowerLoss (s : State) : Res := done s (powerLoss (updTorn (vltTorn s)))

/-- RESET_PIN (R77): in PARK, WATCH and LISTEN the pin is ignored (24 Table 6). -/
def execResetPin (s : State) : Res := done s (powered s fun s => resetDevice s 1 0)

end Sys2Proof.Machine
end

