-- ==== Sys2Proof/Machine/CmdRing.lean ====
section
/-! DEFINITION. The commands of the ring (15): one meaning a command. -/

namespace Sys2Proof.Machine

/-- FRAME_FORWARD (R342); a unicast frame of the distribution engine that comes back ends it with NOADDR (R342, R490). -/
def execFrameForward (laneB : Bool) (bytes : List Byte) (e : FrameEnd) (res : Word) (s : State) : Res :=
  done s (powered s fun s =>
    match (if e.eof then frameRead bytes else none) with
    | none => jxrBad s laneB
    | some f =>
      let t := jxrForward s laneB f e.room res.toNat
      if jxrReturned s laneB f then distErr t f.dst.toNat f.seq.toNat 16 else t)

/-- FRAME_ORIGINATE (R343); the distribution's next frame then waits for its gap (R490). -/
def execFrameOriginate (o : OwnSlot) (s : State) : Res :=
  done s (powered s fun s => distStep (jxrOriginate s o.gap o.wait.toNat))

/-- WR (R341). -/
def execWr (src : BitVec 10) (seq : BitVec 12) (addr : BitVec 20) (ws : List Word) (s : State) : Res :=
  done s (powered s fun s => ringWr s src.toNat seq.toNat addr.toNat ws)

/-- RDQ (R341). -/
def execRdq (src : BitVec 10) (seq : BitVec 12) (addr : BitVec 20) (n : Byte) (s : State) : Res :=
  done s (powered s fun s => ringRdq s src.toNat seq.toNat addr.toNat n.toNat)

/-- RDP (R345). -/
def execRdp (src : BitVec 10) (seq : BitVec 12) (ws : List Word) (s : State) : Res :=
  done s (powered s fun s => distAck (jxrRdp s src.toNat seq.toNat ws) src.toNat seq.toNat)

/-- ERR (R345). -/
def execErr (src : BitVec 10) (seq : BitVec 12) (code : Byte) (s : State) : Res :=
  done s (powered s fun s => distErr (jxrErr s src.toNat seq.toNat code.toNat) src.toNat seq.toNat code.toNat)

/-- LOCK (R322). -/
def execRingLock (src : BitVec 10) (seq : BitVec 12) (addr : BitVec 20) (op : Byte) (v : Word) (s : State) : Res :=
  done s (powered s fun s => ringLock s src.toNat seq.toNat addr.toNat op.toNat v)

/-- BULK (R341). -/
def execBulk (src : BitVec 10) (seq : BitVec 12) (bc : Bool) (offs : Word) (ws : List Word) (s : State) : Res :=
  done s (powered s fun s => ringBulk s src.toNat seq.toNat bc offs.toNat ws)

/-- EVT (R353). -/
def execEvt (src : BitVec 10) (seq : BitVec 12) (set clr : BitVec 16) (s : State) : Res :=
  done s (powered s fun s => jxrBcast s src.toNat seq.toNat fun s => jxrApplyEvt s set.toNat clr.toNat)

/-- BEACON (R351). -/
def execBeacon (src : BitVec 10) (seq : BitVec 12) (mtime : BitVec 64) (delay : Word) (ep : BitVec 16) (now : BitVec 64)
    (s : State) : Res :=
  done s (powered s fun s => jxrBeacon (setNow s now.toNat) src.toNat seq.toNat mtime.toNat delay.toNat ep.toNat)

/-- HOPREQ (R350). -/
def execHopreq (laneB : Bool) (res : Word) (s : State) : Res := done s (powered s fun s => jxrHopReq s laneB res.toNat)

/-- HOPRSP (R350). -/
def execHoprsp (laneB : Bool) (round res : Word) (s : State) : Res :=
  done s (powered s fun s => jxrHopRsp s laneB round.toNat res.toNat)

/-- ENUM (R348). -/
def execEnum (v : EnumFrom) (seq : BitVec 12) (pass : Byte) (serial mtime : BitVec 64) (delay : Word) (pos : BitVec 16) (map : BitVec 1024) (now : BitVec 64) (s : State) : Res :=
  done s (powered s fun s =>
    jxrEnum (setNow s now.toNat) ⟨v.laneB, v.hop, v.wcnt, v.res.toNat⟩ v.src.toNat seq.toNat pass.toNat serial.toNat mtime.toNat delay.toNat pos.toNat map.toNat)

/-- HEARTBEAT (R338). -/
def execHeartbeat (laneB : Bool) (status : Byte) (s : State) : Res := done s (powered s fun s => jxrHeartbeat s laneB status)

/-- INPUT_LOCKED (R338). -/
def execInputLocked (laneB : Bool) (s : State) : Res := done s (powered s fun s => nmgBusCheck (jxrLocked s laneB))

/-- INPUT_LOST (R339). -/
def execInputLost (laneB : Bool) (s : State) : Res := done s (powered s fun s => nmgBusCheck (jxrLost s laneB))

/-- UNWRAP (R340). -/
def execUnwrap (s : State) : Res := done s (powered s fun s => jxrUnwrap s)

/-- REQUEST_TIMEOUT (R346). -/
def execRequestTimeout (dst : BitVec 10) (seq : BitVec 12) (s : State) : Res :=
  done s (powered s fun s => distResend (jxrResend s dst.toNat seq.toNat) dst.toNat seq.toNat)

/-- JXR_CTL_ENUM (R348). -/
def execJxrCtlEnum (who : Who) (s : State) : Res := done s (writeReg s who 0x0B 0x120 1)

/-- AUTO_ENUM (R348). -/
def execAutoEnum (s : State) : Res := done s (powered s fun s => jxrAutoEnum s)

/-- JXR_CTL_HORN (R356). -/
def execJxrCtlHorn (who : Who) (s : State) : Res := done s (writeReg s who 0x0B 0x120 2)

/-- JXR_CTL_MEAS (R350). -/
def execJxrCtlMeas (who : Who) (s : State) : Res := done s (writeReg s who 0x0B 0x120 4)

/-- HOP_MEASUREMENT (R350). -/
def execHopMeasurement (s : State) : Res := done s (powered s fun s => if jxrActive s then jxrMeasure s else s)

/-- BEACON_SEND (R351). -/
def execBeaconSend (now : BitVec 64) (s : State) : Res := done s (powered s fun s => jxrBeaconSend (setNow s now.toNat))

/-- JXR_EVTX (R353). -/
def execJxrEvtx (who : Who) (v : Word) (s : State) : Res := done s (writeReg s who 0x0B 0x11C v)

/-- EVT_REPEAT (R353). -/
def execEvtRepeat (s : State) : Res := done s (powered s fun s => jxrEvtRepeat s)

/-- HORN_ABSORBED (R355). -/
def execHornAbsorbed (laneB : Bool) (sec : Word) (sub : BitVec 16) (s : State) : Res :=
  done s (powered s fun s => hornHeard s laneB sec.toNat sub.toNat)

/-- JXR_CLR (R357). -/
def execJxrClr (who : Who) (s : State) : Res := done s (writeReg s who 0x0B 0x134 1)

end Sys2Proof.Machine
end

