-- ==== Sys2Proof/Machine/CmdSol.lean ====
section
/-! DEFINITION. The commands of valves, boost converter and banks (09): one meaning a command. -/

namespace Sys2Proof.Machine

/-- SOL_CMD_WRITE (R202). -/
def execSolCmdWrite (who : Who) (n : Fin 16) (v : Word) (s : State) : Res := done s (writeReg s who (solPage n) 0x100 v)

/-- SOL_TRIG (R202). -/
def execSolTrig (who : Who) (n : Fin 16) (v : Word) (s : State) : Res := done s (writeReg s who (solPage n) 0x100 (v ||| 2))

/-- BOOST_PEAK_REACHED (R201). -/
def execBoostPeakReached (n : Fin 16) (dur : BitVec 16) (ipk : BitVec 12) (s : State) : Res :=
  done s (powered s fun s => solPeak s n dur.toNat ipk.toNat)

/-- BOOST_TIMEOUT (R201). -/
def execBoostTimeout (n : Fin 16) (dur : BitVec 16) (ipk : BitVec 12) (s : State) : Res :=
  done s (powered s fun s => solBoostTimeout s n dur.toNat ipk.toNat)

/-- HOLD_CHOP (R201). -/
def execHoldChop (n : Fin 16) (off : Bool) (m : ChopSample) (s : State) : Res :=
  done s (powered s fun s => solChop s n off m.code.toNat m.long)

/-- TRIG_HOLD_EXPIRY (R202). -/
def execTrigHoldExpiry (n : Fin 16) (s : State) : Res := done s (powered s fun s => solHoldExpiry s n)

/-- DECAY_END (R201). -/
def execDecayEnd (n : Fin 16) (s : State) : Res := done s (powered s fun s => solDecayEnd s n)

/-- DECAY_NOZERO_TIMEOUT (R207). -/
def execDecayNozeroTimeout (n : Fin 16) (s : State) : Res := done s (powered s fun s => solNoZero s n)

/-- CLOSING_DETECTED (R206). -/
def execClosingDetected (n : Fin 16) (tdec : Nat) (v : List (BitVec 12)) (s : State) : Res :=
  done s (powered s fun s => solClosing s n tdec v)

/-- CLOSING_WINDOW_EXPIRY (R207). -/
def execClosingWindowExpiry (w : WindowEnd) (s : State) : Res :=
  done s (powered s fun s => solWindowExpiry s w.n w.code.toNat)

/-- DEFERRAL_TIMEOUT (R211). -/
def execDeferralTimeout (n : Fin 16) (s : State) : Res := done s (powered s fun s => solDeferEnd s n)

/-- COIL_MODEL_UPDATE (R215). -/
def execCoilModelUpdate (pairs : List (Fin 16 × BitVec 12 × BitVec 12)) (power : List (Fin 16 × Nat)) (s : State) : Res :=
  done s (powered s fun s => solTick s pairs power)

/-- BOOST_UNDERVOLTAGE (R198). -/
def execBoostUndervoltage (vbst : BitVec 12) (s : State) : Res := done s (powered s fun s => sbkUv s vbst.toNat)

/-- BOOST_OVERVOLTAGE (R198). -/
def execBoostOvervoltage (vbst : BitVec 12) (s : State) : Res := done s (powered s fun s => sbkOv s vbst.toNat)

/-- BOOST_OVERCURRENT (R219). -/
def execBoostOvercurrent (s : State) : Res := done s (powered s fun s => raiseP s 0x84 2)

/-- BANK_SWITCH_FAULT (R219). -/
def execBankSwitchFault (s : State) : Res := done s (powered s fun s => raiseP s 0x84 3)

/-- BANK_SEL_APPLY (R219). -/
def execBankSelApply (b : Fin 4) (s : State) : Res := done s (powered s fun s => bankSelApply s b)

/-- BOOST_UNDERVOLTAGE_END (R198). -/
def execBoostUndervoltageEnd (vbst : BitVec 12) (s : State) : Res := done s (powered s fun s => sbkUvEnd s vbst.toNat)

/-- BOOST_OVERVOLTAGE_END (R198). -/
def execBoostOvervoltageEnd (vbst : BitVec 12) (s : State) : Res := done s (powered s fun s => sbkOvEnd s vbst.toNat)

/-- MINIMUM_HOLD_EXPIRY (R216). -/
def execMinimumHoldExpiry (n : Fin 16) (s : State) : Res := done s (powered s fun s => solMinHold s n)

end Sys2Proof.Machine
end

