-- ==== Sys2Proof/Machine/CmdUpdate.lean ====
section
/-! DEFINITION. The commands of firmware update (21): one meaning a command. -/

namespace Sys2Proof.Machine

/-- CONFIRM (R485). -/
def execConfirm (who : Who) (key : Byte) (s : State) : Res := done s (writeReg s who 0x07 0x114 (updValue key false 1))

/-- SETSEL (R487). -/
def execSetsel (who : Who) (key : Byte) (gen : Bool) (s : State) : Res :=
  done s (writeReg s who 0x07 0x114 (updValue key gen 2))

/-- SETSELRST (R487). -/
def execSetselrst (who : Who) (key : Byte) (gen : Bool) (s : State) : Res :=
  done s (writeReg s who 0x07 0x114 (updValue key gen 3))

/-- PRECHK (R490). -/
def execPrechk (who : Who) (key : Byte) (s : State) : Res := done s (writeReg s who 0x07 0x114 (updValue key false 4))

/-- INSTALL (R480). -/
def execInstall (who : Who) (key : Byte) (s : State) : Res := done s (writeReg s who 0x07 0x114 (updValue key false 5))

/-- DISTRIBUTION_START (R490). -/
def execDistributionStart (who : Who) (s : State) : Res := done s (writeReg s who 0x07 0x140 1)

/-- DISTRIBUTION_STOP (R490). -/
def execDistributionStop (who : Who) (s : State) : Res := done s (writeReg s who 0x07 0x140 2)

/-- DISTRIBUTION_DONE (R490). -/
def execDistributionDone (s : State) : Res := done s (powered s fun s => distDone s)

/-- TRIAL_RECORD_WRITE (R484). -/
def execTrialRecordWrite (s : State) : Res := done s (powered s fun s => trialTick s)

/-- TRIAL_EXPIRY (R484). -/
def execTrialExpiry (s : State) : Res := done s (powered s fun s => trialExpiry s)

/-- UPD_COMMAND_COMPLETE (R491). -/
def execUpdCommandComplete (s : State) : Res := done s (powered s fun s => updComplete s)

end Sys2Proof.Machine
end

