-- ==== Sys2Proof/Machine/CmdVault.lean ====
section
/-! DEFINITION. The commands of vault (20): one meaning a command. -/

namespace Sys2Proof.Machine

/-- INFO (R472). -/
def execInfo (who : Who) (slot : Byte) (s : State) : Res := done s (writeReg s who 0x06 0x100 (vltValue slot 0x01))

/-- RANDOM (R472). -/
def execRandom (who : Who) (slot : Byte) (s : State) : Res := done s (writeReg s who 0x06 0x100 (vltValue slot 0x02))

/-- SEAL (R472). -/
def execSeal (who : Who) (slot : Byte) (s : State) : Res := done s (writeReg s who 0x06 0x100 (vltValue slot 0x10))

/-- OPEN (R472). -/
def execVltOpen (who : Who) (slot : Byte) (s : State) : Res := done s (writeReg s who 0x06 0x100 (vltValue slot 0x11))

/-- CMAC (R472). -/
def execCmac (who : Who) (slot : Byte) (s : State) : Res := done s (writeReg s who 0x06 0x100 (vltValue slot 0x12))

/-- VCMAC (R472). -/
def execVcmac (who : Who) (slot : Byte) (s : State) : Res := done s (writeReg s who 0x06 0x100 (vltValue slot 0x13))

/-- DERIVE (R472). -/
def execDerive (who : Who) (slot : Byte) (s : State) : Res := done s (writeReg s who 0x06 0x100 (vltValue slot 0x20))

/-- IMPORT (R472). -/
def execVltImport (who : Who) (slot : Byte) (s : State) : Res := done s (writeReg s who 0x06 0x100 (vltValue slot 0x21))

/-- DELETE (R472). -/
def execDelete (who : Who) (slot : Byte) (s : State) : Res := done s (writeReg s who 0x06 0x100 (vltValue slot 0x22))

/-- INVAL (R461). -/
def execInval (who : Who) (slot : Byte) (s : State) : Res := done s (writeReg s who 0x06 0x100 (vltValue slot 0x23))

/-- LEARN (R434). -/
def execLearn (who : Who) (slot : Byte) (s : State) : Res := done s (writeReg s who 0x06 0x100 (vltValue slot 0x30))

/-- ATTEST (R471). -/
def execAttest (who : Who) (slot : Byte) (s : State) : Res := done s (writeReg s who 0x06 0x100 (vltValue slot 0x40))

/-- VLT_ATTRD (R472). -/
def execVltAttrd (who : Who) (slot : Byte) (s : State) : Res := done s (writeReg s who 0x06 0x100 (vltValue slot 0x41))

/-- ROLLADV (R457). -/
def execRolladv (who : Who) (slot : Byte) (s : State) : Res := done s (writeReg s who 0x06 0x100 (vltValue slot 0x50))

/-- LCADV (R458). -/
def execLcadv (who : Who) (slot : Byte) (s : State) : Res := done s (writeReg s who 0x06 0x100 (vltValue slot 0x60))

/-- VLT_COMMAND_COMPLETE (R472); an accepted CLEAR ends in a reset with cause VAULT (R470). -/
def execVltCommandComplete (s : State) : Res :=
  done s (powered s fun s => if vltResets s then resetDevice (finish (vltComplete s)) 7 0 else vltComplete s)

/-- VLT_REL (R472). -/
def execVltRel (who : Who) (s : State) : Res := done s (writeReg s who 0x06 0x110 1)

/-- VLT_CLAIM_TIMEOUT (R472). -/
def execVltClaimTimeout (s : State) : Res := done s (powered s fun s => vltRelease s)

/-- REMASK (R463). -/
def execRemask (s : State) : Res := done s (powered s fun s => vltRemask s)

/-- RNG_HEALTH_FAIL (R465). -/
def execRngHealthFail (s : State) : Res := done s (powered s fun s => vltRngFail s)

/-- TAMPER_EVENT (R467). -/
def execTamperEvent (src : Fin 6) (also : Byte) (sec : Word) (sub : BitVec 16) (s : State) : Res :=
  done s (tamperEvent s src also.toNat sec.toNat sub.toNat)

end Sys2Proof.Machine
end

