-- ==== Sys2Proof/Machine/Dispatch.lean ====
section
/-! DEFINITION. The dispatch: one arm per command, each one call of its meaning. -/

namespace Sys2Proof.Machine

/-- The effect of a command on everything but the queue. -/
def exec (i : Instr) (s : State) : Host.Outcome State Fault Refusal :=
  match i with
  | .powerOn => Sys2Proof.Machine.execPowerOn s
  | .powerLoss => Sys2Proof.Machine.execPowerLoss s
  | .resetPin => Sys2Proof.Machine.execResetPin s
  | .registerWrite who addr size v => Sys2Proof.Machine.execRegisterWrite who addr size v s
  | .pageCommit who page apply enable => Sys2Proof.Machine.execPageCommit who page apply enable s
  | .commitCheckDone => Sys2Proof.Machine.execCommitCheckDone s
  | .periodBoundaryApply page => Sys2Proof.Machine.execPeriodBoundaryApply page s
  | .pageAbort who page apply enable => Sys2Proof.Machine.execPageAbort who page apply enable s
  | .pageEnable who page apply enable => Sys2Proof.Machine.execPageEnable who page apply enable s
  | .pageLock who page apply enable => Sys2Proof.Machine.execPageLock who page apply enable s
  | .pforceWrite who page v => Sys2Proof.Machine.execPforceWrite who page v s
  | .pfltClear who page v => Sys2Proof.Machine.execPfltClear who page v s
  | .pstatClear who page v => Sys2Proof.Machine.execPstatClear who page v s
  | .protClr who => Sys2Proof.Machine.execProtClr who s
  | .pmuWriteApply => Sys2Proof.Machine.execPmuWriteApply s
  | .acctclrMask who => Sys2Proof.Machine.execAcctclrMask who s
  | .acctclrFwake who => Sys2Proof.Machine.execAcctclrFwake who s
  | .acctclrRefuse who => Sys2Proof.Machine.execAcctclrRefuse who s
  | .sysClockLoss => Sys2Proof.Machine.execSysClockLoss s
  | .clockMonitorWindow busCnt rcDiff aBad bBad => Sys2Proof.Machine.execClockMonitorWindow busCnt rcDiff aBad bBad s
  | .mreqRun who => Sys2Proof.Machine.execMreqRun who s
  | .mreqPark who => Sys2Proof.Machine.execMreqPark who s
  | .mreqLimp who => Sys2Proof.Machine.execMreqLimp who s
  | .idleTimerExpiry noBeacon => Sys2Proof.Machine.execIdleTimerExpiry noBeacon s
  | .parkQuiesceEnd updBusy jrnBusy => Sys2Proof.Machine.execParkQuiesceEnd updBusy jrnBusy s
  | .parkT2 sec => Sys2Proof.Machine.execParkT2 sec s
  | .parkT3 levels => Sys2Proof.Machine.execParkT3 levels s
  | .wakeBusActivity bus also sec sub => Sys2Proof.Machine.execWakeBusActivity bus also sec sub s
  | .wakeCanPattern bus also sec sub => Sys2Proof.Machine.execWakeCanPattern bus also sec sub s
  | .wakeLinPulse n also sec sub => Sys2Proof.Machine.execWakeLinPulse n also sec sub s
  | .wakeHorn laneB also sec sub => Sys2Proof.Machine.execWakeHorn laneB also sec sub s
  | .wakeStrongInput n high also sec sub => Sys2Proof.Machine.execWakeStrongInput n high also sec sub s
  | .wakeRtcAlarm also sec sub => Sys2Proof.Machine.execWakeRtcAlarm also sec sub s
  | .wakeSideband also sec sub => Sys2Proof.Machine.execWakeSideband also sec sub s
  | .listenTimeout => Sys2Proof.Machine.execListenTimeout s
  | .qualifyingTraffic h copyOk => Sys2Proof.Machine.execQualifyingTraffic h copyOk s
  | .scheduleEnd => Sys2Proof.Machine.execScheduleEnd s
  | .cyclicSenseBurst b also sec sub => Sys2Proof.Machine.execCyclicSenseBurst b also sec sub s
  | .cyclicConfirmBurst levels also sec sub => Sys2Proof.Machine.execCyclicConfirmBurst levels also sec sub s
  | .pollBurst copyOk heard also sec sub => Sys2Proof.Machine.execPollBurst copyOk heard also sec sub s
  | .pollStepEnd => Sys2Proof.Machine.execPollStepEnd s
  | .swrst who v => Sys2Proof.Machine.execSwrst who v s
  | .wdkick who v => Sys2Proof.Machine.execWdkick who v s
  | .watchdogExpiry => Sys2Proof.Machine.execWatchdogExpiry s
  | .rstClrCount who => Sys2Proof.Machine.execRstClrCount who s
  | .reflexLoadComplete time => Sys2Proof.Machine.execReflexLoadComplete time s
  | .romBoot recov otpBad run => Sys2Proof.Machine.execRomBoot recov otpBad run s
  | .endOfBoot => Sys2Proof.Machine.execEndOfBoot s
  | .recoveryDownloadMessage data => Sys2Proof.Machine.execRecoveryDownloadMessage data s
  | .recoveryDownloadEnd => Sys2Proof.Machine.execRecoveryDownloadEnd s
  | .hscCmdWrite who n v => Sys2Proof.Machine.execHscCmdWrite who n v s
  | .hscCmds who n v => Sys2Proof.Machine.execHscCmds who n v s
  | .hscCmdc who n v => Sys2Proof.Machine.execHscCmdc who n v s
  | .hscDutyWrite who n v => Sys2Proof.Machine.execHscDutyWrite who n v s
  | .pulseStart o => Sys2Proof.Machine.execPulseStart o s
  | .pulseEnd o m enh neg => Sys2Proof.Machine.execPulseEnd o m enh neg s
  | .chargeComplete n => Sys2Proof.Machine.execChargeComplete n s
  | .chargeTimeout n => Sys2Proof.Machine.execChargeTimeout n s
  | .fuseEngineTick m => Sys2Proof.Machine.execFuseEngineTick m s
  | .hardShortTrip o => Sys2Proof.Machine.execHardShortTrip o s
  | .thermalLatch o => Sys2Proof.Machine.execThermalLatch o s
  | .latchRelease o => Sys2Proof.Machine.execLatchRelease o s
  | .deltaTLatch o => Sys2Proof.Machine.execDeltaTLatch o s
  | .deltaTRelease o => Sys2Proof.Machine.execDeltaTRelease o s
  | .restartDelayExpiry o => Sys2Proof.Machine.execRestartDelayExpiry o s
  | .restart o => Sys2Proof.Machine.execRestart o s
  | .retryCountClear o => Sys2Proof.Machine.execRetryCountClear o s
  | .inrushWindowEnd n => Sys2Proof.Machine.execInrushWindowEnd n s
  | .segmentSubstitute n => Sys2Proof.Machine.execSegmentSubstitute n s
  | .offStateCheckStart n => Sys2Proof.Machine.execOffStateCheckStart n s
  | .offStatePhaseEnd n vout room => Sys2Proof.Machine.execOffStatePhaseEnd n vout room s
  | .diagResultTimeout n => Sys2Proof.Machine.execDiagResultTimeout n s
  | .sliceReferenceCheck k dev => Sys2Proof.Machine.execSliceReferenceCheck k dev s
  | .sliceSubstitute k => Sys2Proof.Machine.execSliceSubstitute k s
  | .baseTempRefresh base refs => Sys2Proof.Machine.execBaseTempRefresh base refs s
  | .wearMeasurement n currents => Sys2Proof.Machine.execWearMeasurement n currents s
  | .streamSampleWrite src idx code => Sys2Proof.Machine.execStreamSampleWrite src idx code s
  | .hbCmdWrite who n v => Sys2Proof.Machine.execHbCmdWrite who n v s
  | .hbDutyWrite who n v => Sys2Proof.Machine.execHbDutyWrite who n v s
  | .hbPosWrite who n v => Sys2Proof.Machine.execHbPosWrite who n v s
  | .reversalPauseEnd n => Sys2Proof.Machine.execReversalPauseEnd n s
  | .currentLimitAct n => Sys2Proof.Machine.execCurrentLimitAct n s
  | .stallTrip n => Sys2Proof.Machine.execStallTrip n s
  | .rippleAccepted n per mean => Sys2Proof.Machine.execRippleAccepted n per mean s
  | .rippleInserted n => Sys2Proof.Machine.execRippleInserted n s
  | .standstill n => Sys2Proof.Machine.execStandstill n s
  | .parkTimeout n => Sys2Proof.Machine.execParkTimeout n s
  | .solCmdWrite who n v => Sys2Proof.Machine.execSolCmdWrite who n v s
  | .solTrig who n v => Sys2Proof.Machine.execSolTrig who n v s
  | .boostPeakReached n dur ipk => Sys2Proof.Machine.execBoostPeakReached n dur ipk s
  | .boostTimeout n dur ipk => Sys2Proof.Machine.execBoostTimeout n dur ipk s
  | .holdChop n off m => Sys2Proof.Machine.execHoldChop n off m s
  | .trigHoldExpiry n => Sys2Proof.Machine.execTrigHoldExpiry n s
  | .decayEnd n => Sys2Proof.Machine.execDecayEnd n s
  | .decayNozeroTimeout n => Sys2Proof.Machine.execDecayNozeroTimeout n s
  | .closingDetected n tdec v => Sys2Proof.Machine.execClosingDetected n tdec v s
  | .closingWindowExpiry w => Sys2Proof.Machine.execClosingWindowExpiry w s
  | .deferralTimeout n => Sys2Proof.Machine.execDeferralTimeout n s
  | .coilModelUpdate pairs power => Sys2Proof.Machine.execCoilModelUpdate pairs power s
  | .boostUndervoltage vbst => Sys2Proof.Machine.execBoostUndervoltage vbst s
  | .boostOvervoltage vbst => Sys2Proof.Machine.execBoostOvervoltage vbst s
  | .boostOvercurrent => Sys2Proof.Machine.execBoostOvercurrent s
  | .bankSwitchFault => Sys2Proof.Machine.execBankSwitchFault s
  | .bankSelApply b => Sys2Proof.Machine.execBankSelApply b s
  | .lstCmdWrite who n v => Sys2Proof.Machine.execLstCmdWrite who n v s
  | .stringFrameBoundary n now => Sys2Proof.Machine.execStringFrameBoundary n now s
  | .softStartEnd n => Sys2Proof.Machine.execSoftStartEnd n s
  | .ledOpenDetect n k => Sys2Proof.Machine.execLedOpenDetect n k s
  | .ledShortDetect n k => Sys2Proof.Machine.execLedShortDetect n k s
  | .stringOvp n vout => Sys2Proof.Machine.execStringOvp n vout s
  | .stringShortTrip n => Sys2Proof.Machine.execStringShortTrip n s
  | .lmxCmdWrite who v => Sys2Proof.Machine.execLmxCmdWrite who v s
  | .matrixFrameBoundary now => Sys2Proof.Machine.execMatrixFrameBoundary now s
  | .matrixLedOpen r k => Sys2Proof.Machine.execMatrixLedOpen r k s
  | .matrixRowShort r => Sys2Proof.Machine.execMatrixRowShort r s
  | .matrixColumnStb k => Sys2Proof.Machine.execMatrixColumnStb k s
  | .frmWrite who offs size v => Sys2Proof.Machine.execFrmWrite who offs size v s
  | .frmcArm who => Sys2Proof.Machine.execFrmcArm who s
  | .swapTrigger c now => Sys2Proof.Machine.execSwapTrigger c now s
  | .mirrorCopyDone => Sys2Proof.Machine.execMirrorCopyDone s
  | .playerStart who => Sys2Proof.Machine.execPlayerStart who s
  | .playerStop who => Sys2Proof.Machine.execPlayerStop who s
  | .playerCopyDone ok => Sys2Proof.Machine.execPlayerCopyDone ok s
  | .frmcClrMiss who => Sys2Proof.Machine.execFrmcClrMiss who s
  | .lchCmdWrite who n v => Sys2Proof.Machine.execLchCmdWrite who n v s
  | .chainFrameBoundary n late now => Sys2Proof.Machine.execChainFrameBoundary n late now s
  | .chainFrameLatch n => Sys2Proof.Machine.execChainFrameLatch n s
  | .chainLineShort n => Sys2Proof.Machine.execChainLineShort n s
  | .switchInputRawChange n level => Sys2Proof.Machine.execSwitchInputRawChange n level s
  | .debounceExpiry n => Sys2Proof.Machine.execDebounceExpiry n s
  | .cleaningPulseEnd n ok => Sys2Proof.Machine.execCleaningPulseEnd n ok s
  | .analogueComparatorSample k code => Sys2Proof.Machine.execAnalogueComparatorSample k code s
  | .inputOvervoltage n => Sys2Proof.Machine.execInputOvervoltage n s
  | .reflexPulseExpiry r => Sys2Proof.Machine.execReflexPulseExpiry r s
  | .rfxTglClear who w v => Sys2Proof.Machine.execRfxTglClear who w v s
  | .rfxInhWrite who w v => Sys2Proof.Machine.execRfxInhWrite who w v s
  | .governorTick m => Sys2Proof.Machine.execGovernorTick m s
  | .govLogPop who => Sys2Proof.Machine.execGovLogPop who s
  | .interruptEntry core => Sys2Proof.Machine.execInterruptEntry core s
  | .ld core f => Sys2Proof.Machine.execLd core f s
  | .st core f => Sys2Proof.Machine.execSt core f s
  | .ldx core f => Sys2Proof.Machine.execLdx core f s
  | .ldy core f => Sys2Proof.Machine.execLdy core f s
  | .stx core f => Sys2Proof.Machine.execStx core f s
  | .sty core f => Sys2Proof.Machine.execSty core f s
  | .adrx core f => Sys2Proof.Machine.execAdrx core f s
  | .adry core f => Sys2Proof.Machine.execAdry core f s
  | .ld16 core f => Sys2Proof.Machine.execLd16 core f s
  | .ld8 core f => Sys2Proof.Machine.execLd8 core f s
  | .st16 core f => Sys2Proof.Machine.execSt16 core f s
  | .st8 core f => Sys2Proof.Machine.execSt8 core f s
  | .swap core f => Sys2Proof.Machine.execSwap core f s
  | .stz core w => Sys2Proof.Machine.execStz core w s
  | .push core m r => Sys2Proof.Machine.execPush core m r s
  | .pop core m r => Sys2Proof.Machine.execPop core m r s
  | .mvr core d r => Sys2Proof.Machine.execMvr core d r s
  | .add core f => Sys2Proof.Machine.execAdd core f s
  | .adc core f => Sys2Proof.Machine.execAdc core f s
  | .sub core f => Sys2Proof.Machine.execSub core f s
  | .sbc core f => Sys2Proof.Machine.execSbc core f s
  | .cmp core f => Sys2Proof.Machine.execCmp core f s
  | .and core f => Sys2Proof.Machine.execAnd core f s
  | .or core f => Sys2Proof.Machine.execOr core f s
  | .xor core f => Sys2Proof.Machine.execXor core f s
  | .tst core f => Sys2Proof.Machine.execTst core f s
  | .cpx core f => Sys2Proof.Machine.execCpx core f s
  | .cpy core f => Sys2Proof.Machine.execCpy core f s
  | .addx core f => Sys2Proof.Machine.execAddx core f s
  | .addy core f => Sys2Proof.Machine.execAddy core f s
  | .adds core f => Sys2Proof.Machine.execAdds core f s
  | .ldb core f => Sys2Proof.Machine.execLdb core f s
  | .mul core f => Sys2Proof.Machine.execMul core f s
  | .mac core m sh => Sys2Proof.Machine.execMac core m sh s
  | .sat core m sh => Sys2Proof.Machine.execSat core m sh s
  | .sat12 core m sh => Sys2Proof.Machine.execSat12 core m sh s
  | .shl core f => Sys2Proof.Machine.execShl core f s
  | .shr core f => Sys2Proof.Machine.execShr core f s
  | .asr core f => Sys2Proof.Machine.execAsr core f s
  | .neg core m => Sys2Proof.Machine.execNeg core m s
  | .not core m => Sys2Proof.Machine.execNot core m s
  | .clr core m => Sys2Proof.Machine.execClr core m s
  | .exth core m => Sys2Proof.Machine.execExth core m s
  | .extb core m => Sys2Proof.Machine.execExtb core m s
  | .inc core m => Sys2Proof.Machine.execInc core m s
  | .dec core m => Sys2Proof.Machine.execDec core m s
  | .abs core m => Sys2Proof.Machine.execAbs core m s
  | .lds12 core f => Sys2Proof.Machine.execLds12 core f s
  | .sts12 core f => Sys2Proof.Machine.execSts12 core f s
  | .pk12 core f => Sys2Proof.Machine.execPk12 core f s
  | .unpk12 core f => Sys2Proof.Machine.execUnpk12 core f s
  | .movb core m sh => Sys2Proof.Machine.execMovb core m sh s
  | .jmp core f => Sys2Proof.Machine.execJmp core f s
  | .jsr core f => Sys2Proof.Machine.execJsr core f s
  | .rts core m sh => Sys2Proof.Machine.execRts core m sh s
  | .rti core m sh => Sys2Proof.Machine.execRti core m sh s
  | .bccShort core cc d => Sys2Proof.Machine.execBccShort core cc d s
  | .bccLong core cc sh d => Sys2Proof.Machine.execBccLong core cc sh d s
  | .wfeL core f => Sys2Proof.Machine.execWfeL core f s
  | .wfeH core f => Sys2Proof.Machine.execWfeH core f s
  | .waitComplete core => Sys2Proof.Machine.execWaitComplete core s
  | .sev core f => Sys2Proof.Machine.execSev core f s
  | .wtu core f now => Sys2Proof.Machine.execWtu core f now s
  | .wtuComplete core now => Sys2Proof.Machine.execWtuComplete core now s
  | .wtxL core f now => Sys2Proof.Machine.execWtxL core f now s
  | .wtxH core f now => Sys2Proof.Machine.execWtxH core f now s
  | .wtxComplete core now => Sys2Proof.Machine.execWtxComplete core now s
  | .rep core f => Sys2Proof.Machine.execRep core f s
  | .repi core f => Sys2Proof.Machine.execRepi core f s
  | .nop core m => Sys2Proof.Machine.execNop core m s
  | .ei core m => Sys2Proof.Machine.execEi core m s
  | .di core m => Sys2Proof.Machine.execDi core m s
  | .evfRaise who v => Sys2Proof.Machine.execEvfRaise who v s
  | .evfOvrRead who k => Sys2Proof.Machine.execEvfOvrRead who k s
  | .tbsCapture who now => Sys2Proof.Machine.execTbsCapture who now s
  | .tbsCmpWrite who k v => Sys2Proof.Machine.execTbsCmpWrite who k v s
  | .tbsCompare k now => Sys2Proof.Machine.execTbsCompare k now s
  | .beaconTimeout => Sys2Proof.Machine.execBeaconTimeout s
  | .dmaStart who c => Sys2Proof.Machine.execDmaStart who c s
  | .dmaStop who c => Sys2Proof.Machine.execDmaStop who c s
  | .dmaTrigger c => Sys2Proof.Machine.execDmaTrigger c s
  | .dmaBlockDone c => Sys2Proof.Machine.execDmaBlockDone c s
  | .mbxBell who m out v => Sys2Proof.Machine.execMbxBell who m out v s
  | .mbxTake who m out => Sys2Proof.Machine.execMbxTake who m out s
  | .frameForward laneB bytes e res => Sys2Proof.Machine.execFrameForward laneB bytes e res s
  | .frameOriginate o => Sys2Proof.Machine.execFrameOriginate o s
  | .wr src seq addr ws => Sys2Proof.Machine.execWr src seq addr ws s
  | .rdq src seq addr n => Sys2Proof.Machine.execRdq src seq addr n s
  | .rdp src seq ws => Sys2Proof.Machine.execRdp src seq ws s
  | .err src seq code => Sys2Proof.Machine.execErr src seq code s
  | .ringLock src seq addr op v => Sys2Proof.Machine.execRingLock src seq addr op v s
  | .bulk src seq bc offs ws => Sys2Proof.Machine.execBulk src seq bc offs ws s
  | .evt src seq set clr => Sys2Proof.Machine.execEvt src seq set clr s
  | .beacon src seq mtime delay ep now => Sys2Proof.Machine.execBeacon src seq mtime delay ep now s
  | .hopreq laneB res => Sys2Proof.Machine.execHopreq laneB res s
  | .hoprsp laneB round res => Sys2Proof.Machine.execHoprsp laneB round res s
  | .enum v seq pass serial mtime delay pos map now => Sys2Proof.Machine.execEnum v seq pass serial mtime delay pos map now s
  | .heartbeat laneB status => Sys2Proof.Machine.execHeartbeat laneB status s
  | .inputLocked laneB => Sys2Proof.Machine.execInputLocked laneB s
  | .inputLost laneB => Sys2Proof.Machine.execInputLost laneB s
  | .unwrap => Sys2Proof.Machine.execUnwrap s
  | .requestTimeout dst seq => Sys2Proof.Machine.execRequestTimeout dst seq s
  | .jxrCtlEnum who => Sys2Proof.Machine.execJxrCtlEnum who s
  | .autoEnum => Sys2Proof.Machine.execAutoEnum s
  | .jxrCtlHorn who => Sys2Proof.Machine.execJxrCtlHorn who s
  | .jxrCtlMeas who => Sys2Proof.Machine.execJxrCtlMeas who s
  | .hopMeasurement => Sys2Proof.Machine.execHopMeasurement s
  | .beaconSend now => Sys2Proof.Machine.execBeaconSend now s
  | .jxrEvtx who v => Sys2Proof.Machine.execJxrEvtx who v s
  | .evtRepeat => Sys2Proof.Machine.execEvtRepeat s
  | .hornAbsorbed laneB sec sub => Sys2Proof.Machine.execHornAbsorbed laneB sec sub s
  | .jxrClr who => Sys2Proof.Machine.execJxrClr who s
  | .windowWrite who offs v => Sys2Proof.Machine.execWindowWrite who offs v s
  | .windowRead core offs => Sys2Proof.Machine.execWindowRead core offs s
  | .splitReadRequest who v => Sys2Proof.Machine.execSplitReadRequest who v s
  | .slotFree who v => Sys2Proof.Machine.execSlotFree who v s
  | .delayedReadExpiry t => Sys2Proof.Machine.execDelayedReadExpiry t s
  | .logpopElog who => Sys2Proof.Machine.execLogpopElog who s
  | .logpopOlog who => Sys2Proof.Machine.execLogpopOlog who s
  | .semacq who v => Sys2Proof.Machine.execSemacq who v s
  | .semrel who v => Sys2Proof.Machine.execSemrel who v s
  | .semaphoreTimeout n => Sys2Proof.Machine.execSemaphoreTimeout n s
  | .unpoison who dev page => Sys2Proof.Machine.execUnpoison who dev page s
  | .unpoisonAll who => Sys2Proof.Machine.execUnpoisonAll who s
  | .pollRound now sec sub => Sys2Proof.Machine.execPollRound now sec sub s
  | .workerBeaconLoss => Sys2Proof.Machine.execWorkerBeaconLoss s
  | .hostNop cmd => Sys2Proof.Machine.execHostNop cmd s
  | .hostWrite width addr len ws crc n => Sys2Proof.Machine.execHostWrite width addr len ws crc n s
  | .hostRead width addr len crc late => Sys2Proof.Machine.execHostRead width addr len crc late s
  | .rdbuf width => Sys2Proof.Machine.execRdbuf width s
  | .hostReadComplete => Sys2Proof.Machine.execHostReadComplete s
  | .hostWriteIssued => Sys2Proof.Machine.execHostWriteIssued s
  | .hostFrameAbort cmd => Sys2Proof.Machine.execHostFrameAbort cmd s
  | .hptClr who => Sys2Proof.Machine.execHptClr who s
  | .getmode => Sys2Proof.Machine.execGetmode s
  | .getfault => Sys2Proof.Machine.execGetfault s
  | .attreq nonce pecOk => Sys2Proof.Machine.execAttreq nonce pecOk s
  | .attstat => Sys2Proof.Machine.execAttstat s
  | .attrd offs => Sys2Proof.Machine.execAttrd offs s
  | .reqlimp key pecOk => Sys2Proof.Machine.execReqlimp key pecOk s
  | .reqreset key pecOk => Sys2Proof.Machine.execReqreset key pecOk s
  | .reqrecov key pecOk => Sys2Proof.Machine.execReqrecov key pecOk s
  | .memrd addr count => Sys2Proof.Machine.execMemrd addr count s
  | .memwr key addr count ws pecOk n => Sys2Proof.Machine.execMemwr key addr count ws pecOk n s
  | .memst => Sys2Proof.Machine.execMemst s
  | .smbusTimeout => Sys2Proof.Machine.execSmbusTimeout s
  | .sbpClr who => Sys2Proof.Machine.execSbpClr who s
  | .canFrameReceived n f now => Sys2Proof.Machine.execCanFrameReceived n f now s
  | .canTxreq who n v => Sys2Proof.Machine.execCanTxreq who n v s
  | .canTxcan who n v => Sys2Proof.Machine.execCanTxcan who n v s
  | .canTransmitDone n e => Sys2Proof.Machine.execCanTransmitDone n e s
  | .canRxriWrite who n v => Sys2Proof.Machine.execCanRxriWrite who n v s
  | .canRecov who n => Sys2Proof.Machine.execCanRecov who n s
  | .busoffRecoveryDone n => Sys2Proof.Machine.execBusoffRecoveryDone n s
  | .txdDominantTimeout p => Sys2Proof.Machine.execTxdDominantTimeout p s
  | .canLecRead who n => Sys2Proof.Machine.execCanLecRead who n s
  | .linFrame n id res m => Sys2Proof.Machine.execLinFrame n id res m s
  | .linSched who n => Sys2Proof.Machine.execLinSched who n s
  | .linHalt who n => Sys2Proof.Machine.execLinHalt who n s
  | .linSleep who n => Sys2Proof.Machine.execLinSleep who n s
  | .linWake who n => Sys2Proof.Machine.execLinWake who n s
  | .linSlotEnd n => Sys2Proof.Machine.execLinSlotEnd n s
  | .linSilenceTimeout n => Sys2Proof.Machine.execLinSilenceTimeout n s
  | .linWakePulse n => Sys2Proof.Machine.execLinWakePulse n s
  | .linBusShort n => Sys2Proof.Machine.execLinBusShort n s
  | .linLerrRead who n => Sys2Proof.Machine.execLinLerrRead who n s
  | .nmMessageReceived src data => Sys2Proof.Machine.execNmMessageReceived src data s
  | .nmRingHoldExpiry => Sys2Proof.Machine.execNmRingHoldExpiry s
  | .nmSuccessorTimeout => Sys2Proof.Machine.execNmSuccessorTimeout s
  | .nmRingLoss => Sys2Proof.Machine.execNmRingLoss s
  | .nmStartupTimeout => Sys2Proof.Machine.execNmStartupTimeout s
  | .wbsExpiry => Sys2Proof.Machine.execWbsExpiry s
  | .nmReadinessChange => Sys2Proof.Machine.execNmReadinessChange s
  | .limphomeTimer => Sys2Proof.Machine.execLimphomeTimer s
  | .immStart who => Sys2Proof.Machine.execImmStart who s
  | .deauth who => Sys2Proof.Machine.execDeauth who s
  | .lfId r id => Sys2Proof.Machine.execLfId r id s
  | .lfC1 r c1 => Sys2Proof.Machine.execLfC1 r c1 s
  | .lfAck a => Sys2Proof.Machine.execLfAck a s
  | .lfBlk r data => Sys2Proof.Machine.execLfBlk r data s
  | .replyWindowExpiry late => Sys2Proof.Machine.execReplyWindowExpiry late s
  | .sessionLockExpiry => Sys2Proof.Machine.execSessionLockExpiry s
  | .releaseMessage => Sys2Proof.Machine.execReleaseMessage s
  | .lfDriverFault a f => Sys2Proof.Machine.execLfDriverFault a f s
  | .info who slot => Sys2Proof.Machine.execInfo who slot s
  | .random who slot => Sys2Proof.Machine.execRandom who slot s
  | .seal who slot => Sys2Proof.Machine.execSeal who slot s
  | .vltOpen who slot => Sys2Proof.Machine.execVltOpen who slot s
  | .cmac who slot => Sys2Proof.Machine.execCmac who slot s
  | .vcmac who slot => Sys2Proof.Machine.execVcmac who slot s
  | .derive who slot => Sys2Proof.Machine.execDerive who slot s
  | .vltImport who slot => Sys2Proof.Machine.execVltImport who slot s
  | .delete who slot => Sys2Proof.Machine.execDelete who slot s
  | .inval who slot => Sys2Proof.Machine.execInval who slot s
  | .learn who slot => Sys2Proof.Machine.execLearn who slot s
  | .attest who slot => Sys2Proof.Machine.execAttest who slot s
  | .vltAttrd who slot => Sys2Proof.Machine.execVltAttrd who slot s
  | .rolladv who slot => Sys2Proof.Machine.execRolladv who slot s
  | .lcadv who slot => Sys2Proof.Machine.execLcadv who slot s
  | .vltCommandComplete => Sys2Proof.Machine.execVltCommandComplete s
  | .vltRel who => Sys2Proof.Machine.execVltRel who s
  | .vltClaimTimeout => Sys2Proof.Machine.execVltClaimTimeout s
  | .remask => Sys2Proof.Machine.execRemask s
  | .rngHealthFail => Sys2Proof.Machine.execRngHealthFail s
  | .tamperEvent src also sec sub => Sys2Proof.Machine.execTamperEvent src also sec sub s
  | .confirm who key => Sys2Proof.Machine.execConfirm who key s
  | .setsel who key gen => Sys2Proof.Machine.execSetsel who key gen s
  | .setselrst who key gen => Sys2Proof.Machine.execSetselrst who key gen s
  | .prechk who key => Sys2Proof.Machine.execPrechk who key s
  | .install who key => Sys2Proof.Machine.execInstall who key s
  | .distributionStart who => Sys2Proof.Machine.execDistributionStart who s
  | .distributionStop who => Sys2Proof.Machine.execDistributionStop who s
  | .distributionDone => Sys2Proof.Machine.execDistributionDone s
  | .trialRecordWrite => Sys2Proof.Machine.execTrialRecordWrite s
  | .trialExpiry => Sys2Proof.Machine.execTrialExpiry s
  | .faultEvent id => Sys2Proof.Machine.execFaultEvent id s
  | .fltAck who id key => Sys2Proof.Machine.execFltAck who id key s
  | .fltAckAll who key => Sys2Proof.Machine.execFltAckAll who key s
  | .fltAkick who key dt => Sys2Proof.Machine.execFltAkick who key dt s
  | .kickTimeout => Sys2Proof.Machine.execKickTimeout s
  | .resetCountClear => Sys2Proof.Machine.execResetCountClear s
  | .fltNewcntRead who => Sys2Proof.Machine.execFltNewcntRead who s
  | .prog who cs => Sys2Proof.Machine.execProg who cs s
  | .erase who cs => Sys2Proof.Machine.execErase who cs s
  | .format who cs => Sys2Proof.Machine.execFormat who cs s
  | .xspCommandDone failed bad => Sys2Proof.Machine.execXspCommandDone failed bad s
  | .xspBusyTimeout => Sys2Proof.Machine.execXspBusyTimeout s
  | .journalCopy ok => Sys2Proof.Machine.execJournalCopy ok s
  | .jrnRseqWrite who v => Sys2Proof.Machine.execJrnRseqWrite who v s
  | .jrnFetchDone => Sys2Proof.Machine.execJrnFetchDone s
  | .jrnClrTotal who => Sys2Proof.Machine.execJrnClrTotal who s
  | .jrnLostRead who => Sys2Proof.Machine.execJrnLostRead who s
  | .mramRowSubstitute m lost => Sys2Proof.Machine.execMramRowSubstitute m lost s
  | .keySlotSubstitute slot => Sys2Proof.Machine.execKeySlotSubstitute slot s
  | .sysClockReturn => Sys2Proof.Machine.execSysClockReturn s
  | .boostUndervoltageEnd vbst => Sys2Proof.Machine.execBoostUndervoltageEnd vbst s
  | .boostOvervoltageEnd vbst => Sys2Proof.Machine.execBoostOvervoltageEnd vbst s
  | .bandGapReferenceMismatch => Sys2Proof.Machine.execBandGapReferenceMismatch s
  | .canReceiveError n code eight => Sys2Proof.Machine.execCanReceiveError n code eight s
  | .updCommandComplete => Sys2Proof.Machine.execUpdCommandComplete s
  | .memwrIssueComplete => Sys2Proof.Machine.execMemwrIssueComplete s
  | .attreqReportReady => Sys2Proof.Machine.execAttreqReportReady s
  | .pstateRefusedClear => Sys2Proof.Machine.execPstateRefusedClear s
  | .limiterTurnOnAgain n => Sys2Proof.Machine.execLimiterTurnOnAgain n s
  | .minimumHoldExpiry n => Sys2Proof.Machine.execMinimumHoldExpiry n s

end Sys2Proof.Machine
end

