-- ==== Sys2Proof/Safety.lean ====
section
/-! DEFINITION. What the statements about runs and commands speak of: stores in canonical form, a state in which nothing is left
to follow a command, how a command ends, and an access that the manifest grants. -/

namespace Sys2Proof.Machine

/-- Every store of the device is in its canonical form: keys strictly rising, no value equal to its default. -/
structure Canon (s : State) : Prop where
  regs : storeWf regReset s.regs = true
  applied : storeWf regReset s.applied = true
  mem : Memory.wf s.mem = true
  ec : storeWf coreDefault s.ec = true
  can : storeWf (fun _ => CanSt.init) s.can = true
  lin : storeWf (fun _ => LinSt.init) s.lin = true
  hsc : storeWf (fun _ => HscSt.init) s.hsc = true
  hb : storeWf (fun _ => HbSt.init) s.hb = true
  sol : storeWf (fun _ => SolSt.init) s.sol = true
  lst : storeWf (fun _ => LstSt.init) s.lst = true
  lch : storeWf (fun _ => LchSt.init) s.lch = true
  opened : storeWf (fun _ => 15) s.flt.opened = true
  otp : storeWf (fun _ => (0 : Word)) s.vlt.otp = true
  keys : storeWf keyDefault s.vlt.keys = true
  kram : storeWf (fun _ => none) s.vlt.kram = true

/-- Nothing is left to follow a command: no source to collect, no output to evaluate, no record on its way to JRN, no readiness
for NMG to follow, and no keep-awake note to take. -/
structure Quiet (s : State) : Prop where
  due : s.due = []
  clean : s.dirty = false
  records : recordOut s = none
  network : nmgStale s = false
  note : keepNote s = s

/-- Command `c` completes at `s`: exec answers a next state, the one that settling leaves of an effect `u` of which `P` holds. -/
def Answers (c : Instr) (s : State) (P : State → Prop) : Prop := ∃ u, exec c s = .next (settled s u) ∧ P u

/-- Initiator `who` may write offset `off` of page `p`: the device and the clocks of the access run, the page is one of its
pages, and the manifest grants the right that the offset needs; the vault's page is EC3's beside its command interface (R53, 02 Table 10, R51). -/
structure MayWrite (s : State) (who : Who) (p off : Nat) : Prop where
  runs : running s = true
  clocks : pageStands s p = false
  page : (blkOf p).isSome = true
  right : (rightsOf s (whoKind who) p).testBit (writeRight off) = true
  vault : p = 6 → who = .ec3

/-- Initiator `who` may read page `p` (R53). -/
structure MayRead (s : State) (who : Who) (p : Nat) : Prop where
  runs : running s = true
  clocks : pageStands s p = false
  page : (blkOf p).isSome = true
  right : (rightsOf s (whoKind who) p).testBit 0 = true
  vault : p = 6 → who = .ec3

/-- The vault's command interface is open to `who`, and no other initiator's claim of it stands against it (R51, R472). -/
structure MayCommand (s : State) (who : Who) : Prop where
  runs : running s = true
  clocks : pageStands s 6 = false
  reach : vltReach s who = true
  free : vltClaimed s (whoKind who) = false

/-- Source `id` asserts with the effect `u`: it waits for FLT to collect it (R493). -/
def Raises (u : State) (id : Nat) : Prop := ∃ d ∈ u.due, d.id = id

/-- An access of `who` to address `a` of page `p` is refused with the effect `u` (R53, R59): a bus error, counted; the first one since
PROT was last cleared is recorded and raises source 40, a later one leaves the record; no other register and nothing else changes. -/
structure Refused (s u : State) (who : Who) (wrt : Bool) (p a : Nat) : Prop where
  error : u.ans = some .err
  count : getF u 5 R.PROT.RCNT.CNT = satInc 65535 (getF s 5 R.PROT.RCNT.CNT)
  first : isSet s 5 R.PROT.RSTAT.VALID = false →
    isSet u 5 R.PROT.RSTAT.VALID = true ∧ getF u 5 R.PROT.RSTAT.KIND = whoKind who ∧ isSet u 5 R.PROT.RSTAT.WR = wrt ∧
      getF u 5 R.PROT.RSTAT.RADDR = whoAddr who ∧ getF u 5 R.PROT.RSTAT.PAGE = p ∧ getF u 5 R.PROT.RADDR.ADDR = a ∧ Raises u 40
  later : isSet s 5 R.PROT.RSTAT.VALID = true → rd u 5 0x100 = rd s 5 0x100 ∧ rd u 5 0x104 = rd s 5 0x104 ∧ u.due = s.due
  words : ∀ q o, o < 4096 → (q ≠ 5 ∨ o / 4 ≠ 0x40 ∧ o / 4 ≠ 0x41 ∧ o / 4 ≠ 0x42) → rd u q o = rd s q o
  rest : u = { s with regs := u.regs, due := u.due, ans := u.ans }

/-- With the effect `u` registers of page `p` may differ, and PROT's record of a refusal; every other register, the configuration in
force, the memory and the mode are as in `s`. -/
structure OnlyPage (s u : State) (p : Nat) : Prop where
  words : ∀ q o, o < 4096 → q ≠ p → q ≠ 5 → rd u q o = rd s q o
  config : u.applied = s.applied
  memory : u.mem = s.mem
  mode : u.mode = s.mode

/-! ### Instructions of the Elroth cores (14) -/

/-- Core `k` executes an instruction of `len` bytes: it is released, neither waits nor repeats, and may fetch at P. -/
structure CoreReady (s : State) (k : EcCore) (len : Nat) : Prop where
  runs : running s = true
  clock : sysLost s = false
  released : (coreGet s k).st = 1
  awake : (coreGet s k).wait = .none
  single : (coreGet s k).rep = false ∧ (coreGet s k).e = false ∧ (coreGet s k).repNew = false
  fetch : fetchOk s k (coreGet s k).p len = true

/-- The operand `f` of core `k` has the value `v`, as an immediate or read at its address, which leaves the device `t` and the core's
registers `d` (14 Table 3, R317). -/
def OperandIs (s : State) (k : EcCore) (f : Form) (t : State) (d : CoreSt) (v : Word) : Prop :=
  (formLoc (coreGet s k) f = some (.val v) ∧ t = s ∧ d = coreGet s k) ∨
    ∃ ea, formLoc (coreGet s k) f = some (.mem ea) ∧ misaligned ea 4 = false ∧
      busRead s (coreWho k) false ea.toNat 4 = (t, .val v) ∧ d = bumped (coreGet s k) f 4

/-- A narrow operand of `n` bytes is read as `v` at its address. -/
def NarrowIs (s : State) (k : EcCore) (f : Form) (n : Nat) (t : State) (d : CoreSt) (v : Word) : Prop :=
  ∃ ea, formEa (coreGet s k) f = some ea ∧ misaligned ea n = false ∧
    busRead s (coreWho k) false ea.toNat n = (t, .val v) ∧ d = bumped (coreGet s k) f n

/-- A store of the `n` low bytes of `v` at the operand's address is taken, which leaves the device `t` and the registers `d`. -/
def StoreIs (s : State) (k : EcCore) (f : Form) (n : Nat) (v : Word) (t : State) (d : CoreSt) : Prop :=
  ∃ ea, formEa (coreGet s k) f = some ea ∧ misaligned ea n = false ∧ postFull s k ea.toNat = false ∧
    busWrite s (coreWho k) false ea.toNat n v = (t, true) ∧ d = bumped (coreGet s k) f n

/-- A word is read at address `a` by core `k`. -/
def ReadIs (s : State) (k : EcCore) (a : Word) (n : Nat) (t : State) (v : Word) : Prop :=
  misaligned a n = false ∧ busRead s (coreWho k) false a.toNat n = (t, .val v)

/-- `n` bytes of `v` are written at address `a` by core `k`. -/
def WriteIs (s : State) (k : EcCore) (a : Word) (n : Nat) (v : Word) (t : State) : Prop :=
  misaligned a n = false ∧ postFull s k a.toNat = false ∧ busWrite s (coreWho k) false a.toNat n v = (t, true)

/-- AG after a 32-bit result: copies of its sign (R315). -/
def signByte (r : Word) : BitVec 8 := if r.msb then 0xFF else 0

/-- A and AG hold `r`; Z and N follow it (14 Table 7). -/
def withA (d : CoreSt) (r : Word) : CoreSt := { d with a := r, ag := signByte r, z := decide (r = 0), n := r.msb }

/-- AG:A holds `r`; Z is that of the 40 bits, N bit 31 (14 Table 7, ASR). -/
def withA40 (d : CoreSt) (r : BitVec 40) : CoreSt :=
  { d with a := r.extractLsb' 0 32, ag := r.extractLsb' 32 8, z := decide (r = 0), n := r.getLsbD 31 }

end Sys2Proof.Machine
end

