-- ==== Sys2Proof/Certificates/Slice0/Obligations.lean ====
section
/-! DEFINITION. The statements for the provers: what each command does, what it leaves alone, and what holds of every run. -/

open Sys2Proof Sys2Proof.Machine

/-- Sums, differences and compares of the cores (14 Table 7): any operand form; the borrow is C (R320). CPX and CPY compare the index as its post-increment has left it: the model's choice (notes/assumptions/49). -/
def Obligations.CoreArithmetic : Prop :=
  ∀ (s t : State) (k : EcCore) (f : Form) (g : GForm) (d : CoreSt) (v : Word),
    (CoreReady s k (formLen f) → OperandIs s k f t d v → Answers (.add k f) s fun u => u = coreSet t k
      { withA d (d.a + v) with c := decide (2 ^ 32 ≤ d.a.toNat + v.toNat), v := decide (d.a.toInt + v.toInt ≠ (d.a + v).toInt), p := d.p + BitVec.ofNat 32 (formLen f) }) ∧
    (CoreReady s k (formLen f) → OperandIs s k f t d v → Answers (.sub k f) s fun u => u = coreSet t k
      { withA d (d.a - v) with c := decide (d.a.toNat < v.toNat), v := decide (d.a.toInt - v.toInt ≠ (d.a - v).toInt), p := d.p + BitVec.ofNat 32 (formLen f) }) ∧
    (CoreReady s k (formLen f) → OperandIs s k f t d v → Answers (.cmp k f) s fun u => u = coreSet t k
      { d with z := decide (d.a - v = 0), n := (d.a - v).msb, c := decide (d.a.toNat < v.toNat), v := decide (d.a.toInt - v.toInt ≠ (d.a - v).toInt), p := d.p + BitVec.ofNat 32 (formLen f) }) ∧
    (CoreReady s k (modeLen g.m.toNat) → OperandIs s k (.g g) t d v → Answers (.adc k g) s fun u => u = coreSet t k
      { withA d (d.a + v + BitVec.ofNat 32 d.c.toNat) with c := decide (2 ^ 32 ≤ d.a.toNat + v.toNat + d.c.toNat), v := decide (d.a.toInt + v.toInt + (d.c.toNat : Int) ≠ (d.a + v + BitVec.ofNat 32 d.c.toNat).toInt), p := d.p + BitVec.ofNat 32 (modeLen g.m.toNat) }) ∧
    (CoreReady s k (modeLen g.m.toNat) → OperandIs s k (.g g) t d v → Answers (.sbc k g) s fun u => u = coreSet t k
      { withA d (d.a - v - BitVec.ofNat 32 d.c.toNat) with c := decide (d.a.toNat < v.toNat + d.c.toNat), v := decide (d.a.toInt - v.toInt - (d.c.toNat : Int) ≠ (d.a - v - BitVec.ofNat 32 d.c.toNat).toInt), p := d.p + BitVec.ofNat 32 (modeLen g.m.toNat) }) ∧
    (CoreReady s k (modeLen g.m.toNat) → OperandIs s k (.g g) t d v → Answers (.cpx k g) s fun u => u = coreSet t k
      { d with z := decide (d.x - v = 0), n := (d.x - v).msb, c := decide (d.x.toNat < v.toNat), v := decide (d.x.toInt - v.toInt ≠ (d.x - v).toInt), p := d.p + BitVec.ofNat 32 (modeLen g.m.toNat) }) ∧
    (CoreReady s k (modeLen g.m.toNat) → OperandIs s k (.g g) t d v → Answers (.cpy k g) s fun u => u = coreSet t k
      { d with z := decide (d.y - v = 0), n := (d.y - v).msb, c := decide (d.y.toNat < v.toNat), v := decide (d.y.toInt - v.toInt ≠ (d.y - v).toInt), p := d.p + BitVec.ofNat 32 (modeLen g.m.toNat) })

/-- Loads, logic, index arithmetic and MUL of the cores (14 Table 7): any operand form. LDX, LDY, ADDX and ADDY write their register after the operand's post-increment: the model's choice (notes/assumptions/49). -/
def Obligations.CoreLoads : Prop :=
  ∀ (s t : State) (k : EcCore) (f : Form) (g : GForm) (d : CoreSt) (v : Word),
    (CoreReady s k (formLen f) → OperandIs s k f t d v → Answers (.ld k f) s fun u => u = coreSet t k
      { withA d v with p := d.p + BitVec.ofNat 32 (formLen f) }) ∧
    (CoreReady s k (formLen f) → OperandIs s k f t d v → Answers (.and k f) s fun u => u = coreSet t k
      { withA d (d.a &&& v) with p := d.p + BitVec.ofNat 32 (formLen f) }) ∧
    (CoreReady s k (formLen f) → OperandIs s k f t d v → Answers (.or k f) s fun u => u = coreSet t k
      { withA d (d.a ||| v) with p := d.p + BitVec.ofNat 32 (formLen f) }) ∧
    (CoreReady s k (formLen f) → OperandIs s k f t d v → Answers (.xor k f) s fun u => u = coreSet t k
      { withA d (d.a ^^^ v) with p := d.p + BitVec.ofNat 32 (formLen f) }) ∧
    (CoreReady s k (formLen f) → OperandIs s k f t d v → Answers (.tst k f) s fun u => u = coreSet t k
      { d with z := decide (d.a &&& v = 0), n := (d.a &&& v).msb, t := decide (d.a &&& v ≠ 0), p := d.p + BitVec.ofNat 32 (formLen f) }) ∧
    (CoreReady s k (formLen f) → OperandIs s k f t d v → Answers (.ldx k f) s fun u => u = coreSet t k
      { d with x := v, p := d.p + BitVec.ofNat 32 (formLen f) }) ∧
    (CoreReady s k (formLen f) → OperandIs s k f t d v → Answers (.ldy k f) s fun u => u = coreSet t k
      { d with y := v, p := d.p + BitVec.ofNat 32 (formLen f) }) ∧
    (CoreReady s k (modeLen g.m.toNat) → OperandIs s k (.g g) t d v → Answers (.ldb k g) s fun u => u = coreSet t k
      { d with b := v &&& 0xFFFFF000, p := d.p + BitVec.ofNat 32 (modeLen g.m.toNat) }) ∧
    (CoreReady s k (modeLen g.m.toNat) → OperandIs s k (.g g) t d v → Answers (.addx k g) s fun u => u = coreSet t k
      { d with x := d.x + v, p := d.p + BitVec.ofNat 32 (modeLen g.m.toNat) }) ∧
    (CoreReady s k (modeLen g.m.toNat) → OperandIs s k (.g g) t d v → Answers (.addy k g) s fun u => u = coreSet t k
      { d with y := d.y + v, p := d.p + BitVec.ofNat 32 (modeLen g.m.toNat) }) ∧
    (CoreReady s k (modeLen g.m.toNat) → OperandIs s k (.g g) t d v → Answers (.adds k g) s fun u => u = coreSet t k
      { d with s := (d.s + v) &&& 0xFFFFFFFC, p := d.p + BitVec.ofNat 32 (modeLen g.m.toNat) }) ∧
    (CoreReady s k (modeLen g.m.toNat) → OperandIs s k (.g g) t d v → Answers (.mul k g) s fun u => u = coreSet t k
      { withA d (BitVec.ofInt 32 (d.a.toInt * v.toInt)) with v := decide ((BitVec.ofInt 32 (d.a.toInt * v.toInt)).toInt ≠ d.a.toInt * v.toInt), p := d.p + BitVec.ofNat 32 (modeLen g.m.toNat) })

/-- Narrow loads, addresses and the unpacking of 12-bit pairs (14 Table 7, R323, R324). -/
def Obligations.CoreNarrowLoads : Prop :=
  ∀ (s t t' : State) (k : EcCore) (g : GForm) (d : CoreSt) (a v v' : Word),
    (CoreReady s k (modeLen g.m.toNat) → NarrowIs s k (.g g) 2 t d v → Answers (.ld16 k g) s fun u => u = coreSet t k
      { withA d v with p := d.p + BitVec.ofNat 32 (modeLen g.m.toNat) }) ∧
    (CoreReady s k (modeLen g.m.toNat) → NarrowIs s k (.g g) 1 t d v → Answers (.ld8 k g) s fun u => u = coreSet t k
      { withA d v with p := d.p + BitVec.ofNat 32 (modeLen g.m.toNat) }) ∧
    (CoreReady s k (modeLen g.m.toNat) → NarrowIs s k (.g g) 2 t d v → Answers (.lds12 k g) s fun u => u = coreSet t k
      { withA d (v &&& 0xFFF) with p := d.p + BitVec.ofNat 32 (modeLen g.m.toNat) }) ∧
    (CoreReady s k (modeLen g.m.toNat) → g.m ≠ 10 → g.m ≠ 11 → formEa (coreGet s k) (.g g) = some a →
      Answers (.adrx k g) s fun u => u = coreSet s k { coreGet s k with x := a, p := (coreGet s k).p + BitVec.ofNat 32 (modeLen g.m.toNat) }) ∧
    (CoreReady s k (modeLen g.m.toNat) → g.m ≠ 10 → g.m ≠ 11 → formEa (coreGet s k) (.g g) = some a →
      Answers (.adry k g) s fun u => u = coreSet s k { coreGet s k with y := a, p := (coreGet s k).p + BitVec.ofNat 32 (modeLen g.m.toNat) }) ∧
    (CoreReady s k (modeLen g.m.toNat) → formEa (coreGet s k) (.g g) = some a → a.toNat % 4 < 2 → ReadIs s k (a &&& 0xFFFFFFFC) 4 t v →
      Answers (.unpk12 k g) s fun u => u = coreSet t k
        { withA (bumped (coreGet s k) (.g g) 3) (unpackPair (v.toNat / 2 ^ (8 * (a.toNat % 4)))) with
          p := (coreGet s k).p + BitVec.ofNat 32 (modeLen g.m.toNat) }) ∧
    (CoreReady s k (modeLen g.m.toNat) → formEa (coreGet s k) (.g g) = some a → 2 ≤ a.toNat % 4 → firstHeld s k = none → ReadIs s k (a &&& 0xFFFFFFFC) 4 t v →
      ReadIs t k ((a &&& 0xFFFFFFFC) + 4) 4 t' v' → Answers (.unpk12 k g) s fun u => u = coreSet (firstSet t' k 0) k
        { withA (bumped (coreGet s k) (.g g) 3) (unpackPair ((v.toNat + 2 ^ 32 * v'.toNat) / 2 ^ (8 * (a.toNat % 4)))) with
          p := (coreGet s k).p + BitVec.ofNat 32 (modeLen g.m.toNat) })

/-- Stores of the cores (14 Table 7): the address stored to is the operand address of the form, applied to the registers before. -/
def Obligations.CoreStores : Prop :=
  ∀ (s t t' t'' : State) (k : EcCore) (f : Form) (g : GForm) (w : BitVec 10) (r : BitVec 5) (d : CoreSt) (a v : Word),
    (CoreReady s k (formLen f) → StoreIs s k f 4 (coreGet s k).a t d → Answers (.st k f) s fun u => u = coreSet t k { d with p := d.p + BitVec.ofNat 32 (formLen f) }) ∧
    (CoreReady s k (formLen f) → StoreIs s k f 4 (coreGet s k).x t d → Answers (.stx k f) s fun u => u = coreSet t k { d with p := d.p + BitVec.ofNat 32 (formLen f) }) ∧
    (CoreReady s k (formLen f) → StoreIs s k f 4 (coreGet s k).y t d → Answers (.sty k f) s fun u => u = coreSet t k { d with p := d.p + BitVec.ofNat 32 (formLen f) }) ∧
    (CoreReady s k (modeLen g.m.toNat) → StoreIs s k (.g g) 2 (coreGet s k).a t d → Answers (.st16 k g) s fun u => u = coreSet t k { d with p := d.p + BitVec.ofNat 32 (modeLen g.m.toNat) }) ∧
    (CoreReady s k (modeLen g.m.toNat) → StoreIs s k (.g g) 1 (coreGet s k).a t d → Answers (.st8 k g) s fun u => u = coreSet t k { d with p := d.p + BitVec.ofNat 32 (modeLen g.m.toNat) }) ∧
    (CoreReady s k (modeLen g.m.toNat) → StoreIs s k (.g g) 2 ((coreGet s k).a &&& 0xFFF) t d → Answers (.sts12 k g) s fun u => u = coreSet t k { d with p := d.p + BitVec.ofNat 32 (modeLen g.m.toNat) }) ∧
    (CoreReady s k 2 → StoreIs s k (.p w) 4 0 t d → Answers (.stz k w) s fun u => u = coreSet t k { d with p := d.p + 2 }) ∧
    (CoreReady s k 2 → regRead (coreGet s k) r.toNat = some v → stackLow s k ((coreGet s k).s - 4) = false →
      WriteIs s k ((coreGet s k).s - 4) 4 v t →
      Answers (.push k 0 r) s fun u => u = coreSet t k { coreGet s k with s := (coreGet s k).s - 4, p := (coreGet s k).p + 2 }) ∧
    (CoreReady s k 2 → postFull s k (coreGet s k).y.toNat = false → ReadIs s k (coreGet s k).x 4 t v → WriteIs t k (coreGet s k).y 4 v t' →
      Answers (.movb k 0 0) s fun u => u = coreSet t' k
        { coreGet s k with x := (coreGet s k).x + 4, y := (coreGet s k).y + 4, p := (coreGet s k).p + 2 }) ∧
    (CoreReady s k (modeLen g.m.toNat) → formEa (coreGet s k) (.g g) = some a →
            busWrite s (coreWho k) false a.toNat 1 ((BitVec.ofNat 8 ((coreGet s k).a.toNat % 4096 + (coreGet s k).a.toNat / 65536 % 4096 * 4096)).zeroExtend 32) = (t, true) →
        busWrite t (coreWho k) false (a + 1).toNat 1 ((BitVec.ofNat 8 (((coreGet s k).a.toNat % 4096 + (coreGet s k).a.toNat / 65536 % 4096 * 4096) / 256)).zeroExtend 32) = (t', true) →
        busWrite t' (coreWho k) false (a + 2).toNat 1 ((BitVec.ofNat 8 (((coreGet s k).a.toNat % 4096 + (coreGet s k).a.toNat / 65536 % 4096 * 4096) / 65536)).zeroExtend 32) = (t'', true) →
        Answers (.pk12 k g) s fun u => u = coreSet t'' k
          { bumped (coreGet s k) (.g g) 3 with p := (coreGet s k).p + BitVec.ofNat 32 (modeLen g.m.toNat) })

/-- The functions of OP 0x24 on A alone, NOP, EI, DI and MVR (14 Table 7). ABS of 0x8000_0000 (notes/assumptions/42), and MVR that writes S unmasked and reads F as the status word (notes/assumptions/49), are the model's choices. -/
def Obligations.CoreUnary : Prop :=
  ∀ (s : State) (k : EcCore) (q : BitVec 4) (r : BitVec 5) (v : Word),
    (CoreReady s k 2 → Answers (.neg k 0) s fun u => u = coreSet s k { withA (coreGet s k) (0 - (coreGet s k).a) with c := decide ((coreGet s k).a ≠ 0), v := decide ((coreGet s k).a = 0x80000000), p := (coreGet s k).p + 2 }) ∧
    (CoreReady s k 2 → Answers (.not k 0) s fun u => u = coreSet s k { withA (coreGet s k) (~~~ (coreGet s k).a) with p := (coreGet s k).p + 2 }) ∧
    (CoreReady s k 2 → Answers (.clr k 0) s fun u => u = coreSet s k { withA (coreGet s k) (0) with v := false, p := (coreGet s k).p + 2 }) ∧
    (CoreReady s k 2 → Answers (.exth k 0) s fun u => u = coreSet s k { withA (coreGet s k) (((coreGet s k).a.extractLsb' 0 16).signExtend 32) with p := (coreGet s k).p + 2 }) ∧
    (CoreReady s k 2 → Answers (.extb k 0) s fun u => u = coreSet s k { withA (coreGet s k) (((coreGet s k).a.extractLsb' 0 8).signExtend 32) with p := (coreGet s k).p + 2 }) ∧
    (CoreReady s k 2 → Answers (.inc k 0) s fun u => u = coreSet s k { withA (coreGet s k) ((coreGet s k).a + 1) with v := decide ((coreGet s k).a = 0x7FFFFFFF), p := (coreGet s k).p + 2 }) ∧
    (CoreReady s k 2 → Answers (.dec k 0) s fun u => u = coreSet s k { withA (coreGet s k) ((coreGet s k).a - 1) with v := decide ((coreGet s k).a = 0x80000000), p := (coreGet s k).p + 2 }) ∧
    (CoreReady s k 2 → Answers (.abs k 0) s fun u => u = coreSet s k
      { withA (coreGet s k) (BitVec.ofNat 32 (coreGet s k).a.toInt.natAbs) with v := decide ((coreGet s k).a = 0x80000000), p := (coreGet s k).p + 2 }) ∧
    (CoreReady s k 2 → Answers (.sat k 0 0) s fun u => u = coreSet s k
      { withA (coreGet s k) (BitVec.ofInt 32 (max (-2147483648) (min 2147483647 ((coreGet s k).ag ++ (coreGet s k).a).toInt))) with
        v := decide (((coreGet s k).ag ++ (coreGet s k).a).toInt < -2147483648 ∨ 2147483647 < ((coreGet s k).ag ++ (coreGet s k).a).toInt), p := (coreGet s k).p + 2 }) ∧
    (CoreReady s k 2 → Answers (.sat12 k 0 0) s fun u => u = coreSet s k
      { withA (coreGet s k) (BitVec.ofInt 32 (max 0 (min 4095 ((coreGet s k).ag ++ (coreGet s k).a).toInt))) with v := decide (((coreGet s k).ag ++ (coreGet s k).a).toInt < 0 ∨ 4095 < ((coreGet s k).ag ++ (coreGet s k).a).toInt), p := (coreGet s k).p + 2 }) ∧
    (CoreReady s k 2 → Answers (.nop k 0) s fun u => u = coreSet s k { coreGet s k with p := (coreGet s k).p + 2 }) ∧
    (CoreReady s k 2 → Answers (.ei k 0) s fun u => u = coreSet s k { coreGet s k with i := true, p := (coreGet s k).p + 2 }) ∧
    (CoreReady s k 2 → Answers (.di k 0) s fun u => u = coreSet s k { coreGet s k with i := false, p := (coreGet s k).p + 2 }) ∧
    (CoreReady s k 2 → regRead (coreGet s k) r.toNat = some v → q.toNat ≤ 7 →
      Answers (.mvr k q r) s fun u => u = coreSet s k { regWrite (coreGet s k) q.toNat v with p := (coreGet s k).p + 2 })

/-- Shifts, multiply-accumulate and POP (14 Table 7). C of a shift by 0 is free (notes/assumptions/41), Z of ASR is taken over the 40 bits and POP writes S unmasked (notes/assumptions/49): the model's readings. -/
def Obligations.CoreShifts : Prop :=
  ∀ (s t t' : State) (k : EcCore) (g : GForm) (r : BitVec 5) (d : CoreSt) (v v' : Word),
    (CoreReady s k (modeLen g.m.toNat) → OperandIs s k (.g g) t d v → v.toNat % 32 ≠ 0 → Answers (.shl k g) s fun u => u = coreSet t k
      { withA d (d.a <<< (v.toNat % 32)) with c := d.a.getLsbD (32 - v.toNat % 32), p := d.p + BitVec.ofNat 32 (modeLen g.m.toNat) }) ∧
    (CoreReady s k (modeLen g.m.toNat) → OperandIs s k (.g g) t d v → v.toNat % 32 = 0 → ∃ b : Bool, Answers (.shl k g) s fun u => u = coreSet { t with free := t.free + 1 } k
      { withA d (d.a <<< (v.toNat % 32)) with c := b, p := d.p + BitVec.ofNat 32 (modeLen g.m.toNat) }) ∧
    (CoreReady s k (modeLen g.m.toNat) → OperandIs s k (.g g) t d v → v.toNat % 32 ≠ 0 → Answers (.shr k g) s fun u => u = coreSet t k
      { withA d (d.a >>> (v.toNat % 32)) with c := d.a.getLsbD (v.toNat % 32 - 1), p := d.p + BitVec.ofNat 32 (modeLen g.m.toNat) }) ∧
    (CoreReady s k (modeLen g.m.toNat) → OperandIs s k (.g g) t d v → v.toNat % 32 = 0 → ∃ b : Bool, Answers (.shr k g) s fun u => u = coreSet { t with free := t.free + 1 } k
      { withA d (d.a >>> (v.toNat % 32)) with c := b, p := d.p + BitVec.ofNat 32 (modeLen g.m.toNat) }) ∧
    (CoreReady s k (modeLen g.m.toNat) → OperandIs s k (.g g) t d v → v.toNat % 32 ≠ 0 → Answers (.asr k g) s fun u => u = coreSet t k
      { withA40 d ((d.ag ++ d.a).sshiftRight (v.toNat % 32)) with c := (d.ag ++ d.a).getLsbD (v.toNat % 32 - 1), p := d.p + BitVec.ofNat 32 (modeLen g.m.toNat) }) ∧
    (CoreReady s k (modeLen g.m.toNat) → OperandIs s k (.g g) t d v → v.toNat % 32 = 0 → ∃ b : Bool, Answers (.asr k g) s fun u => u = coreSet { t with free := t.free + 1 } k
      { withA40 d ((d.ag ++ d.a).sshiftRight (v.toNat % 32)) with c := b, p := d.p + BitVec.ofNat 32 (modeLen g.m.toNat) }) ∧
    (CoreReady s k 2 → firstHeld s k = none → ReadIs s k (coreGet s k).x 2 t v → ReadIs t k (coreGet s k).y 2 t' v' →
      Answers (.mac k 0 0) s fun u => u = coreSet (firstSet t' k 0) k
        (let sum := ((coreGet s k).ag ++ (coreGet s k).a).toInt + (v.extractLsb' 0 16).toInt * (v'.extractLsb' 0 16).toInt
         { coreGet s k with
            a := (BitVec.ofInt 40 sum).extractLsb' 0 32, ag := (BitVec.ofInt 40 sum).extractLsb' 32 8,
            v := (coreGet s k).v || decide ((BitVec.ofInt 40 sum).toInt ≠ sum),
            x := (coreGet s k).x + 2, y := (coreGet s k).y + 2, p := (coreGet s k).p + 2 })) ∧
    (CoreReady s k 2 → r.toNat ≤ 7 → ReadIs s k (coreGet s k).s 4 t v →
      Answers (.pop k 0 r) s fun u => u = coreSet t k
        { regWrite { coreGet s k with s := (coreGet s k).s + 4 } r.toNat v with p := (coreGet s k).p + 2 })

/-- Control flow of the cores (14 Table 7, R330, R331). -/
def Obligations.CoreControl : Prop :=
  ∀ (s t t' : State) (k : EcCore) (g : GForm) (cc : BitVec 4) (d10 : BitVec 10) (d16 : BitVec 16) (d : CoreSt) (a v : Word),
    (CoreReady s k (modeLen g.m.toNat) → formEa (coreGet s k) (.g g) = some a → a.getLsbD 0 = false →
      Answers (.jmp k g) s fun u => u = coreSet s k { bumped (coreGet s k) (.g g) 4 with p := a }) ∧
    (CoreReady s k (modeLen g.m.toNat) → formEa (coreGet s k) (.g g) = some a → a.getLsbD 0 = false → stackLow s k ((coreGet s k).s - 4) = false →
      WriteIs s k ((coreGet s k).s - 4) 4 ((coreGet s k).p + BitVec.ofNat 32 (modeLen g.m.toNat)) t →
      Answers (.jsr k g) s fun u => u = coreSet t k { bumped (coreGet s k) (.g g) 4 with s := (coreGet s k).s - 4, p := a }) ∧
    (CoreReady s k 2 → ReadIs s k (coreGet s k).s 4 t v → v.getLsbD 0 = false →
      Answers (.rts k 0 0) s fun u => u = coreSet t k { (coreGet s k) with s := (coreGet s k).s + 4, p := v }) ∧
    (CoreReady s k 2 → firstHeld s k = none → ReadIs s k (coreGet s k).s 4 t a → ReadIs t k ((coreGet s k).s + 4) 4 t' v → v.getLsbD 0 = false →
      Answers (.rti k 0 0) s fun u => u = coreSet (firstSet t' k 0) k { (coreGet s k) with
        c := a.getLsbD 0, v := a.getLsbD 1, n := a.getLsbD 2, z := a.getLsbD 3, i := a.getLsbD 4, t := a.getLsbD 5, e := a.getLsbD 6,
        rp := (a.extractLsb' 8 4).toNat, k := (a.extractLsb' 16 9).toNat, s := (coreGet s k).s + 8, p := v }) ∧
    (CoreReady s k 2 → condHolds (coreGet s k) cc = true →
      Answers (.bccShort k cc d10) s fun u => u = coreSet s k { (coreGet s k) with p := (coreGet s k).p + 2 + (d10.signExtend 32 <<< 1) }) ∧
    (CoreReady s k 2 → condHolds (coreGet s k) cc = false → Answers (.bccShort k cc d10) s fun u => u = coreSet s k { (coreGet s k) with p := (coreGet s k).p + 2 }) ∧
    (CoreReady s k 4 → condHolds (coreGet s k) cc = true →
      Answers (.bccLong k cc 0 d16) s fun u => u = coreSet s k { (coreGet s k) with p := (coreGet s k).p + 4 + (d16.signExtend 32 <<< 1) }) ∧
    (CoreReady s k 4 → condHolds (coreGet s k) cc = false → Answers (.bccLong k cc 0 d16) s fun u => u = coreSet s k { (coreGet s k) with p := (coreGet s k).p + 4 }) ∧
    (CoreReady s k (modeLen g.m.toNat) → OperandIs s k (.g g) t d v → Answers (.rep k g) s fun u => u = coreSet t k
      { d with k := 1 + (v - 1).toNat % 256, rep := true, e := false, repNew := true, repP := (coreGet s k).p, repK := (coreGet s k).k, repX := (coreGet s k).x,
               repY := (coreGet s k).y, p := d.p + BitVec.ofNat 32 (modeLen g.m.toNat) }) ∧
    (CoreReady s k (modeLen g.m.toNat) → OperandIs s k (.g g) t d v → Answers (.repi k g) s fun u => u = coreSet t k
      { d with k := 1 + (v - 1).toNat % 256, rep := false, e := true, repNew := true, repP := (coreGet s k).p, repK := (coreGet s k).k, repX := (coreGet s k).x,
               repY := (coreGet s k).y, p := d.p + BitVec.ofNat 32 (modeLen g.m.toNat) })

/-- Waits of the cores as they are executed (14, R325 to R329), and SEV. WTX takes its time from X before the increment (notes/assumptions/49), and a wait keeps the post-increment of its operand for its end (notes/assumptions/50): the model's choices. -/
def Obligations.CoreWaits : Prop :=
  ∀ (s t : State) (k : EcCore) (g : GForm) (now : BitVec 64) (d : CoreSt) (v : Word),
    (CoreReady s k (modeLen g.m.toNat) → OperandIs s k (.g g) t d v → Answers (.sev k g) s fun u => u = coreSet (evfSev t (v.toNat % 64)) k { d with p := d.p + BitVec.ofNat 32 (modeLen g.m.toNat) }) ∧
    (CoreReady s k (modeLen g.m.toNat) → interruptOpen s k = false → OperandIs s k (.g g) t d v → v = 0 → Answers (.wfeL k g) s fun u => u = coreSet t k { d with t := true, p := d.p + BitVec.ofNat 32 (modeLen g.m.toNat) }) ∧
    (∀ l, CoreReady s k (modeLen g.m.toNat) → interruptOpen s k = false → OperandIs s k (.g g) t d v → v ≠ 0 → waitLine t k false v = some l → Answers (.wfeL k g) s fun u =>
        u = coreSet (eventTake t k l) k { d with a := BitVec.ofNat 32 l, ag := signByte (BitVec.ofNat 32 l), t := false, p := d.p + BitVec.ofNat 32 (modeLen g.m.toNat) }) ∧
    (CoreReady s k (modeLen g.m.toNat) → interruptOpen s k = false → OperandIs s k (.g g) t d v → v ≠ 0 → waitLine t k false v = none → Answers (.wfeL k g) s fun u =>
        u = coreSet t k { (coreGet s k) with wait := .wfe false v, wlen := modeLen g.m.toNat, wx := d.x, wy := d.y }) ∧
    (CoreReady s k (modeLen g.m.toNat) → interruptOpen s k = false → OperandIs s k (.g g) t d v → v = 0 → Answers (.wfeH k g) s fun u => u = coreSet t k { d with t := true, p := d.p + BitVec.ofNat 32 (modeLen g.m.toNat) }) ∧
    (∀ l, CoreReady s k (modeLen g.m.toNat) → interruptOpen s k = false → OperandIs s k (.g g) t d v → v ≠ 0 → waitLine t k true v = some l → Answers (.wfeH k g) s fun u =>
        u = coreSet (eventTake t k l) k { d with a := BitVec.ofNat 32 l, ag := signByte (BitVec.ofNat 32 l), t := false, p := d.p + BitVec.ofNat 32 (modeLen g.m.toNat) }) ∧
    (CoreReady s k (modeLen g.m.toNat) → interruptOpen s k = false → OperandIs s k (.g g) t d v → v ≠ 0 → waitLine t k true v = none → Answers (.wfeH k g) s fun u =>
        u = coreSet t k { (coreGet s k) with wait := .wfe true v, wlen := modeLen g.m.toNat, wx := d.x, wy := d.y }) ∧
    (CoreReady (setNow s now.toNat) k (modeLen g.m.toNat) → interruptOpen (setNow s now.toNat) k = false → OperandIs (setNow s now.toNat) k (.g g) t d v → tbsReached t v.toNat = true → Answers (.wtu k g now) s fun u => u = coreSet t k { d with p := d.p + BitVec.ofNat 32 (modeLen g.m.toNat) }) ∧
    (CoreReady (setNow s now.toNat) k (modeLen g.m.toNat) → interruptOpen (setNow s now.toNat) k = false → OperandIs (setNow s now.toNat) k (.g g) t d v → tbsReached t v.toNat = false → Answers (.wtu k g now) s fun u =>
        u = coreSet t k { coreGet (setNow s now.toNat) k with wait := .wtu v, wlen := modeLen g.m.toNat, wx := d.x, wy := d.y }) ∧
    (∀ l, CoreReady (setNow s now.toNat) k (modeLen g.m.toNat) → interruptOpen (setNow s now.toNat) k = false → OperandIs (setNow s now.toNat) k (.g g) t d v → waitLine t k false v = some l → Answers (.wtxL k g now) s fun u =>
        u = coreSet (eventTake t k l) k { d with a := BitVec.ofNat 32 l, ag := signByte (BitVec.ofNat 32 l), t := false, p := d.p + BitVec.ofNat 32 (modeLen g.m.toNat) }) ∧
    (CoreReady (setNow s now.toNat) k (modeLen g.m.toNat) → interruptOpen (setNow s now.toNat) k = false → OperandIs (setNow s now.toNat) k (.g g) t d v → waitLine t k false v = none → tbsReached t (coreGet (setNow s now.toNat) k).x.toNat = true → Answers (.wtxL k g now) s fun u =>
        u = coreSet t k { d with t := true, p := d.p + BitVec.ofNat 32 (modeLen g.m.toNat) }) ∧
    (CoreReady (setNow s now.toNat) k (modeLen g.m.toNat) → interruptOpen (setNow s now.toNat) k = false → OperandIs (setNow s now.toNat) k (.g g) t d v → waitLine t k false v = none → tbsReached t (coreGet (setNow s now.toNat) k).x.toNat = false → Answers (.wtxL k g now) s fun u =>
        u = coreSet t k { coreGet (setNow s now.toNat) k with wait := .wtx false v (coreGet (setNow s now.toNat) k).x, wlen := modeLen g.m.toNat, wx := d.x, wy := d.y }) ∧
    (∀ l, CoreReady (setNow s now.toNat) k (modeLen g.m.toNat) → interruptOpen (setNow s now.toNat) k = false → OperandIs (setNow s now.toNat) k (.g g) t d v → waitLine t k true v = some l → Answers (.wtxH k g now) s fun u =>
        u = coreSet (eventTake t k l) k { d with a := BitVec.ofNat 32 l, ag := signByte (BitVec.ofNat 32 l), t := false, p := d.p + BitVec.ofNat 32 (modeLen g.m.toNat) }) ∧
    (CoreReady (setNow s now.toNat) k (modeLen g.m.toNat) → interruptOpen (setNow s now.toNat) k = false → OperandIs (setNow s now.toNat) k (.g g) t d v → waitLine t k true v = none → tbsReached t (coreGet (setNow s now.toNat) k).x.toNat = true → Answers (.wtxH k g now) s fun u =>
        u = coreSet t k { d with t := true, p := d.p + BitVec.ofNat 32 (modeLen g.m.toNat) }) ∧
    (CoreReady (setNow s now.toNat) k (modeLen g.m.toNat) → interruptOpen (setNow s now.toNat) k = false → OperandIs (setNow s now.toNat) k (.g g) t d v → waitLine t k true v = none → tbsReached t (coreGet (setNow s now.toNat) k).x.toNat = false → Answers (.wtxH k g now) s fun u =>
        u = coreSet t k { coreGet (setNow s now.toNat) k with wait := .wtx true v (coreGet (setNow s now.toNat) k).x, wlen := modeLen g.m.toNat, wx := d.x, wy := d.y })

/-- The ends of the waits and the entry of an interrupt (13, R301, R302; 14, R325 to R331). X and Y take the post-increment of the operand at the end of the wait: the model's choice (notes/assumptions/50). -/
def Obligations.CoreWaitEnds : Prop :=
  ∀ (s : State) (k : EcCore) (now : BitVec 64),
    (∀ l h m, running (s) = true → sysLost (s) = false → interruptDue (s) k = false → (coreGet (s) k).st = 1 → ((coreGet (s) k).wait = .wfe h m ∨ ∃ x, (coreGet (s) k).wait = .wtx h m x) →
      waitLine (s) k h m = some l → Answers (.waitComplete k) s fun u => u = coreSet (eventTake (s) k l) k
        { coreGet (s) k with
          a := BitVec.ofNat 32 l, ag := signByte (BitVec.ofNat 32 l), t := false, wait := .none,
          x := (coreGet (s) k).wx, y := (coreGet (s) k).wy, p := (coreGet (s) k).p + BitVec.ofNat 32 (coreGet (s) k).wlen }) ∧
    (∀ x, running (setNow s now.toNat) = true → sysLost (setNow s now.toNat) = false → interruptDue (setNow s now.toNat) k = false → (coreGet (setNow s now.toNat) k).st = 1 → (coreGet (setNow s now.toNat) k).wait = .wtu x → tbsReached (setNow s now.toNat) x.toNat = true →
      Answers (.wtuComplete k now) s fun u => u = coreSet (setNow s now.toNat) k
        { coreGet (setNow s now.toNat) k with
          wait := .none, x := (coreGet (setNow s now.toNat) k).wx, y := (coreGet (setNow s now.toNat) k).wy,
          p := (coreGet (setNow s now.toNat) k).p + BitVec.ofNat 32 (coreGet (setNow s now.toNat) k).wlen }) ∧
    (∀ l h m, running (setNow s now.toNat) = true → sysLost (setNow s now.toNat) = false → interruptDue (setNow s now.toNat) k = false → (coreGet (setNow s now.toNat) k).st = 1 → ((coreGet (setNow s now.toNat) k).wait = .wfe h m ∨ ∃ x, (coreGet (setNow s now.toNat) k).wait = .wtx h m x) →
      waitLine (setNow s now.toNat) k h m = some l → Answers (.wtxComplete k now) s fun u => u = coreSet (eventTake (setNow s now.toNat) k l) k
        { coreGet (setNow s now.toNat) k with
          a := BitVec.ofNat 32 l, ag := signByte (BitVec.ofNat 32 l), t := false, wait := .none,
          x := (coreGet (setNow s now.toNat) k).wx, y := (coreGet (setNow s now.toNat) k).wy, p := (coreGet (setNow s now.toNat) k).p + BitVec.ofNat 32 (coreGet (setNow s now.toNat) k).wlen }) ∧
    (∀ h m x, running (setNow s now.toNat) = true → sysLost (setNow s now.toNat) = false → interruptDue (setNow s now.toNat) k = false → (coreGet (setNow s now.toNat) k).st = 1 → (coreGet (setNow s now.toNat) k).wait = .wtx h m x → waitLine (setNow s now.toNat) k h m = none →
      tbsReached (setNow s now.toNat) x.toNat = true → Answers (.wtxComplete k now) s fun u => u = coreSet (setNow s now.toNat) k
        { coreGet (setNow s now.toNat) k with
          t := true, wait := .none, x := (coreGet (setNow s now.toNat) k).wx, y := (coreGet (setNow s now.toNat) k).wy,
          p := (coreGet (setNow s now.toNat) k).p + BitVec.ofNat 32 (coreGet (setNow s now.toNat) k).wlen }) ∧
    (∀ vec l t1 t2 t3 a, interruptDue s k = true → vecTaken s k (coreGet s k) = some (vec, l) →
      let t := winSet (if vec < 80 then eventTake s k (vec - 16) else s) (coreKind k) 0
      stackLow t k ((coreGet s k).s - 8) = false → misaligned ((coreGet s k).s - 4) 4 = false →
      busWrite t (coreWho k) false ((coreGet s k).s - 4).toNat 4 (coreGet s k).p = (t1, true) →
      busWrite t1 (coreWho k) false ((coreGet s k).s - 8).toNat 4 (coreSW (coreGet s k)) = (t2, true) →
      busRead t2 (coreWho k) false (cfg t (corePg k) R.EC.VBASE.BASE * 1024 + 4 * vec) 4 = (t3, .val a) →
      Answers (.interruptEntry k) s fun u => u = coreSet (firstSet t3 k 0) k
        { (coreGet s k) with
          s := (coreGet s k).s - 8, p := a &&& 0xFFFFFFFE, e := false, rep := false, repNew := false, repIns := none, rp := l + 1, wait := .none })

/-- SWAP (14, R322): the three kinds of place that it reaches. -/
def Obligations.CoreSwap : Prop :=
  ∀ (s t t' : State) (k : EcCore) (f : Form) (a v : Word), CoreReady s k (formLen f) → formEa (coreGet s k) f = some a →
    (place (coreWho k) a.toNat = .sram ∨ place (coreWho k) a.toNat = .frm ∨ (∃ n b, place (coreWho k) a.toNat = .tcm n b) →
      ReadIs s k a 4 t v → WriteIs s k a 4 (coreGet s k).a t' → Answers (.swap k f) s fun u => u = coreSet t' k
        { withA (bumped (coreGet s k) f 4) v with p := (coreGet s k).p + BitVec.ofNat 32 (formLen f) }) ∧
    (∀ p off, (place (coreWho k) a.toNat = .page p off ∨ place (coreWho k) a.toNat = .ring 0 (p * 4096 + off) ∧ off < 4096 ∧ jxrOwn s = true) →
      misaligned a 4 = false → MayWrite s (coreWho k) p off → (rightsOf s (whoKind (coreWho k)) p).testBit 0 = true →
      (rightsOf s (whoKind (coreWho k)) p).testBit 1 = true → pageRead s (coreWho k) p off a.toNat = (t, some v) →
      pageWrite t (coreWho k) p off a.toNat (coreGet s k).a = (t', true) → Answers (.swap k f) s fun u => u = coreSet t' k
        { withA (bumped (coreGet s k) f 4) v with p := (coreGet s k).p + BitVec.ofNat 32 (formLen f) }) ∧
    (∀ dev off, place (coreWho k) a.toNat = .ring dev off → ¬ (dev = 0 ∧ jxrOwn s = true) → misaligned a 4 = false →
      brgCore s (corePg k) (coreKind k) dev off (some (coreGet s k).a) = some (t, some v) → Answers (.swap k f) s fun u => u = coreSet t k
        { withA (bumped (coreGet s k) f 4) v with p := (coreGet s k).p + BitVec.ofNat 32 (formLen f) })

/-- Writes of a page header by an initiator that holds the right (02, R45 to R56). -/
def Obligations.PageCommands : Prop :=
  ∀ (s : State) (who : Who) (page : Byte) (apply : BitVec 2) (enable : Bool) (v : Word), Canon s →
    (MayWrite s who page.toNat 0x00C → (alwaysOn page.toNat = true ∨ enable = enabled s page.toNat) → isSet s page.toNat H.LOCKED = false → getF s page.toNat H.CST = 0 → (page.toNat = 4 → s.flt.wired = false) →
      Answers (.pageCommit who page apply enable) s fun u => u.commits = s.commits ++ [(page.toNat, whoKind who)] ∧ getF u page.toNat H.CST = 1 ∧
        getF u page.toNat H.APPLY = apply.toNat ∧ commitClass u page.toNat = apply.toNat ∧ u.applied = s.applied ∧ u.mem = s.mem) ∧
    (MayWrite s who page.toNat 0x00C → (alwaysOn page.toNat = true ∨ enable = enabled s page.toNat) → isSet s page.toNat H.LOCKED = false → getF s page.toNat H.CST ≠ 0 →
      Answers (.pageAbort who page apply enable) s fun u => u.commits = s.commits.filter (fun e => e.1 ≠ page.toNat) ∧ getF u page.toNat H.CST = 0 ∧
        getF u page.toNat H.CRES = 6 ∧ u.applied = s.applied ∧ ∀ i, i < 512 → rd u page.toNat (0x800 + 4 * i) = cfgW s page.toNat (0x800 + 4 * i)) ∧
    (MayWrite s who page.toNat 0x00C → alwaysOn page.toNat = false → enable = !enabled s page.toNat → isSet s page.toNat H.LOCKED = false →
      (enable = true → enableRefused s page.toNat = false) →
      Answers (.pageEnable who page apply enable) s fun u => enabled u page.toNat = enable) ∧
    (MayWrite s who page.toNat 0x00C → (alwaysOn page.toNat = true ∨ enable = enabled s page.toNat) →
      Answers (.pageLock who page apply enable) s fun u => isSet u page.toNat H.LOCKED = true ∧ u.applied = s.applied) ∧
    (MayWrite s who page.toNat 0x01C →
      Answers (.pforceWrite who page v) s fun u => getF u page.toNat H.PFORCE = v.toNat % 256 &&& (pageCap page.toNat).fsrc ∧
        ∀ b, b < 8 → v.getLsbD b = true → (pageCap page.toNat).fsrc.testBit b = true → (getF s page.toNat H.PFORCE).testBit b = false →
          Raises u (page.toNat * 8 + b)) ∧
    (MayWrite s who page.toNat 0x018 →
      Answers (.pfltClear who page v) s fun u => ∀ b, b < 8 → (getF u page.toNat H.PFLT).testBit b =
        ((getF s page.toNat H.PFLT).testBit b && !(v.getLsbD b && !asserted s (page.toNat * 8 + b)))) ∧
    (MayWrite s who page.toNat 0x008 →
      Answers (.pstatClear who page v) s fun u => isSet u page.toNat H.WERR = (isSet s page.toNat H.WERR && !v.getLsbD 5) ∧
        isSet u page.toNat H.CMTDONE = (isSet s page.toNat H.CMTDONE && !v.getLsbD 12) ∧ u.applied = s.applied ∧ u.mem = s.mem)

/-- The end of a check and the edge of a PERIOD commit (02, R42 to R45). -/
def Obligations.CommitEnds : Prop :=
  ∀ (s : State) (who : Who) (pg : Byte) (p kind : Nat) (rest : List (Nat × Nat)), Canon s → running s = true →
    (s.commits = (p, kind) :: rest → (commitCheck s p).1 ≠ 1 → Answers .commitCheckDone s fun u =>
      u.commits = rest ∧ getF u p H.CRES = (commitCheck s p).1 % 16 ∧ getF u p H.FOFF = (commitCheck s p).2 % 1024 ∧ getF u p H.CST = 0 ∧
        isSet u p H.CMTDONE = true ∧ u.applied = s.applied ∧ u.mem = s.mem) ∧
    (s.commits = (p, kind) :: rest → (commitCheck s p).1 = 1 → (commitClass s p = 0 ∨ enabled s p = false) →
      Answers .commitCheckDone s fun u => u.commits = rest ∧ u.applied = storePatch (shadowLo p) (shadowHi p) s.applied s.regs ∧
        getF u p H.EPOCH = (if getF s p H.EPOCH = 65535 then 1 else getF s p H.EPOCH + 1) ∧ getF u p H.CRES = 1 ∧ getF u p H.CST = 0 ∧
        isSet u p H.CMTDONE = true) ∧
    (s.commits = (p, kind) :: rest → (commitCheck s p).1 = 1 → commitClass s p ≠ 0 → enabled s p = true →
      Answers .commitCheckDone s fun u => u.commits = rest ∧ getF u p H.CST = 2 ∧ u.applied = s.applied ∧ u.mem = s.mem) ∧
    (getF s pg.toNat H.CST = 2 → commitClass s pg.toNat = 1 → periodOk s pg.toNat = true → periodEvent s pg.toNat = true →
      Answers (.periodBoundaryApply pg) s fun u => u.applied = storePatch (shadowLo pg.toNat) (shadowHi pg.toNat) s.applied s.regs ∧
        getF u pg.toNat H.EPOCH = (if getF s pg.toNat H.EPOCH = 65535 then 1 else getF s pg.toNat H.EPOCH + 1) ∧
        getF u pg.toNat H.CRES = 1 ∧ getF u pg.toNat H.CST = 0 ∧ isSet u pg.toNat H.CMTDONE = true) ∧
    (periodEvent s pg.toNat = false → Answers (.periodBoundaryApply pg) s fun u => u = s) ∧
    (MayWrite s who 0x00 0x114 → mreqRunOk s who = true → reqPageFails s = none → s.pendKind = [(p, kind)] → getF s p H.CST = 2 → commitClass s p = 2 →
      Answers (.mreqRun who) s fun u => u.mode = .run ∧ u.applied = storePatch (shadowLo p) (shadowHi p) s.applied s.regs ∧
        getF u p H.EPOCH = (if getF s p H.EPOCH = 65535 then 1 else getF s p H.EPOCH + 1) ∧ getF u p H.CRES = 1 ∧ getF u p H.CST = 0 ∧
        isSet u p H.CMTDONE = true)

/-- The writes that cross to AON, the clock monitors, and PROT.CLR (01, R34; 02, R59; 03, R25). -/
def Obligations.ClockAndPmu : Prop :=
  ∀ (s : State) (who : Who) (bus rc : BitVec 16) (aBad bBad : Bool), Canon s →
    (MayWrite s who 0x01 0x120 → s.pmuPend.any (fun e => e.1 = 0x120) = false → Answers (.acctclrMask who) s fun u =>
      u.pmuPend = s.pmuPend ++ [(0x120, 4)] ∧ u.regs = s.regs ∧ u.mem = s.mem) ∧
    (MayWrite s who 0x01 0x120 → s.pmuPend.any (fun e => e.1 = 0x120) = false → Answers (.acctclrFwake who) s fun u =>
      u.pmuPend = s.pmuPend ++ [(0x120, 2)] ∧ u.regs = s.regs ∧ u.mem = s.mem) ∧
    (MayWrite s who 0x01 0x120 → s.pmuPend.any (fun e => e.1 = 0x120) = false → Answers (.acctclrRefuse who) s fun u =>
      u.pmuPend = s.pmuPend ++ [(0x120, 1)] ∧ u.regs = s.regs ∧ u.mem = s.mem) ∧
    (∀ v rest, s.mode ≠ .off → s.pmuPend = (0x120, v) :: rest → Answers .pmuWriteApply s fun u => u.pmuPend = rest ∧
      (v.getLsbD 0 = true → getF u 0x01 R.PMU.REFUSE.COUNT = 0) ∧ (v.getLsbD 1 = true → getF u 0x01 R.PMU.FWAKE.COUNT = 0) ∧
      (v.getLsbD 2 = true → getF u 0x01 R.PMU.FWAKE.MASK = 0)) ∧
    (∀ v rest, s.mode ≠ .off → s.pmuPend = (0x100, v) :: rest → Answers .pmuWriteApply s fun u => u.pmuPend = rest ∧
      isSet u 0x01 R.PMU.KEEP.HOSTKA = v.getLsbD 0) ∧
    (running s = true → s.flt.level.contains 32 = false → Answers .sysClockLoss s fun u => u.flt.level = s.flt.level ++ [32] ∧ Raises u 32 ∧ u.regs = s.regs) ∧
    (running s = true → Answers .sysClockReturn s fun u => u.flt.level.contains 32 = false ∧ u.applied = s.applied) ∧
    (running s = true → s.lineHeld = 0 → s.msqFifo = [] → Answers .sysClockReturn s fun u => u.flt.level.contains 32 = false ∧ u.due = s.due ∧
      u.regs = s.regs ∧ u.mem = s.mem) ∧
    (running s = true → Answers (.clockMonitorWindow bus rc aBad bBad) s fun u => getF u 0x02 R.CLK.BUSCNT.CNT = bus.toNat ∧
      getF u 0x02 R.CLK.RCDIFF.DIFF = rc.toNat ∧ (isSet u 0x02 R.CLK.STAT.BUSFAIL = true ↔ bus.toNat < 7920 ∨ 8080 < bus.toNat) ∧
      (isSet u 0x02 R.CLK.STAT.RCFAIL = true ↔ 80 < rc.toInt.natAbs) ∧ (bus.toNat < 7920 ∨ 8080 < bus.toNat → Raises u 34) ∧
      (80 < rc.toInt.natAbs → Raises u 33)) ∧
    (MayWrite s who 0x05 0x10C → Answers (.protClr who) s fun u => rd u 0x05 0x100 = 0 ∧ getF u 0x05 R.PROT.RCNT.CNT = 0 ∧
      u.applied = s.applied ∧ u.mem = s.mem)

/-- Power, resets, the watchdog and the reset count (03, R62, R77 to R80). -/
def Obligations.PowerAndResets : Prop :=
  ∀ (s : State) (who : Who) (v : Word), Canon s →
    (s.mode = .off → Answers .powerOn s fun u => u.mode = .boot ∧ u.park = .none ∧ (∀ a, nvAddr a = true → memGet u.mem a = memGet s.mem a) ∧ ∀ a, nvAddr a = false → memGet u.mem a = memDefault a) ∧
    (Answers .powerLoss s fun u => u.mode = .off ∧ u.park = .none ∧ ∀ a, nvAddr a = false → memGet u.mem a = memDefault a) ∧
    (isSet s 0x07 R.UPD.SRES.BUSY = false → s.upd.ending = false → s.vlt.cmd = none → Answers .powerLoss s fun u => (∀ a, nvAddr a = true → memGet u.mem a = memGet s.mem a) ∧ u.vlt.otp = s.vlt.otp) ∧
    (running s = false → Answers .resetPin s fun u => u = s) ∧
    (running s = true → Answers .resetPin s fun u => u.mode = .boot ∧ getF u 0x03 R.RST.CAUSE.SRC = 1 ∧ (∀ a, nvAddr a = true → memGet u.mem a = memGet s.mem a) ∧ ∀ a, vaultAddr a = true → memGet u.mem a = memDefault a) ∧
    (MayWrite s who 0x03 0x114 → v.toNat % 256 = 0xA5 → Answers (.swrst who v) s fun u => u.mode = .boot ∧
      getF u 0x03 R.RST.CAUSE.SRC = (if who = .ring 0 then 6 else 2) ∧ (∀ a, nvAddr a = true → memGet u.mem a = memGet s.mem a) ∧ ∀ a, vaultAddr a = true → memGet u.mem a = memDefault a) ∧
    ((s.mode = .run ∨ s.mode = .hold) → cfgOn s 0x03 R.RST.WDOG.PERIOD = true → Answers .watchdogExpiry s fun u => u.mode = .boot ∧ getF u 0x03 R.RST.CAUSE.SRC = 3 ∧ (∀ a, nvAddr a = true → memGet u.mem a = memGet s.mem a)) ∧
    (MayWrite s who 0x03 0x118 → Answers (.wdkick who v) s fun u => u = { s with ans := none }) ∧
    (MayWrite s who 0x03 0x120 → Answers (.rstClrCount who) s fun u => getF u 0x03 R.RST.COUNT.CNT = 0 ∧ u.applied = s.applied ∧ u.mem = s.mem)

/-- DEV.MREQ and the steps of Park entry (03, R61 to R67; 16, R379). -/
def Obligations.ModeRequests : Prop :=
  ∀ (s : State) (who : Who) (noBeacon upd jrn : Bool) (sec : Word) (levels : Byte), Canon s →
    (MayWrite s who 0x00 0x114 → mreqRunOk s who = true → reqPageFails s = none →
      Answers (.mreqRun who) s fun u => u.mode = .run ∧ getF u 0x00 R.DEV.MODE.CAUSE = 3) ∧
    (MayWrite s who 0x00 0x114 → (s.mode = .run ∨ s.mode = .hold) → s.park = .none →
      Answers (.mreqPark who) s fun u => u.mode = s.mode ∧ u.park = .quiesce ∧ u.wk.req = true ∧ u.mem = s.mem) ∧
    (MayWrite s who 0x00 0x114 → (s.mode = .run ∨ s.mode = .hold) →
      Answers (.mreqLimp who) s fun u => u.mode = .limp ∧ u.park = .none ∧ getF u 0x00 R.DEV.MODE.CAUSE = 3) ∧
    ((s.mode = .run ∨ s.mode = .hold) → s.park = .none → kstat s = 0 →
      Answers (.idleTimerExpiry noBeacon) s fun u => getF u 0x01 R.PMU.IDLECNT.CNT = 0 ∧ u.mode = s.mode ∧
        u.park = (if parkByManager s noBeacon then .none else .quiesce)) ∧
    (s.park = .quiesce → parkKeep (keepNote s) = none → parkBlock s upd jrn = none → s.wk.fired = false →
      Answers (.parkQuiesceEnd upd jrn) s fun u => u.park = .committed ∧ u.mode = s.mode) ∧
    (∀ r pg, s.park = .quiesce → parkKeep (keepNote s) = some (r, pg) → r ≠ 6 →
      Answers (.parkQuiesceEnd upd jrn) s fun u => u.park = .none ∧ u.mode = s.mode ∧ getF u 0x01 R.PMU.REFWHO.REASON = r % 256 ∧
        getF u 0x01 R.PMU.REFWHO.PAGE = pg % 256 ∧ getF u 0x01 R.PMU.REFUSE.COUNT = satInc 65535 (getF s 0x01 R.PMU.REFUSE.COUNT)) ∧
    (s.park = .committed → Answers (.parkT2 sec) s fun u => u.park = .closing ∧ u.fuseRec.isSome = true ∧ u.aonCopyOk = true ∧
      u.aonCopy = storeKeep aonCopied s.applied ∧ u.mode = s.mode) ∧
    (s.park = .closing → s.wk.latched = [] → Answers (.parkT3 levels) s fun u => u.park = .none ∧ u.wk.level = levels.toNat ∧
      u.mode = (if s.wk.cyc ≠ [] || s.imm.pollOn then .watch else .park))

/-- Wakes by bus activity, CAN pattern, LIN pulse, horn, strong input, RTC alarm and side band (03, R69 to R73). That a routed bus and a wake of another kind on one edge lead to BOOT is the model's choice (notes/assumptions/66). -/
def Obligations.Wakes : Prop :=
  ∀ (s : State) (b8 : Fin 8) (b2 : Fin 2) (b6 : Fin 6) (laneB high : Bool) (also : Byte) (sec : Word) (sub : BitVec 16), Canon s →
    ((s.mode = .park ∨ s.mode = .watch) → s.park = .none → wakeArmed s 1 b8.val = true → ((cfg s 0x01 R.PMU.WROUTE.LST).testBit b8.val = false ∨ also.getLsbD 5 = true) →
      Answers (.wakeBusActivity b8 also sec sub) s fun u => u.mode = .boot ∧ getF u 0x03 R.RST.CAUSE.SRC = 8 ∧
        getF u 0x01 R.PMU.WAKESRC.SRC = 1 ∧ getF u 0x01 R.PMU.WAKESRC.DETAIL = b8.val) ∧
    ((s.mode = .park ∨ s.mode = .watch) → s.park = .none → wakeArmed s 1 b8.val = true → (cfg s 0x01 R.PMU.WROUTE.LST).testBit b8.val = true → also.getLsbD 5 = false →
      Answers (.wakeBusActivity b8 also sec sub) s fun u => u.mode = .listen ∧ u.wk.bus = b8.val ∧ u.wk.left = modeCode s.mode) ∧
    ((s.mode = .park ∨ s.mode = .watch) → s.park = .none → wakeArmed s 2 b2.val = true → ((cfg s 0x01 R.PMU.WROUTE.LST).testBit b2.val = false ∨ also.getLsbD 5 = true) →
      Answers (.wakeCanPattern b2 also sec sub) s fun u => u.mode = .boot ∧ getF u 0x03 R.RST.CAUSE.SRC = 8 ∧
        getF u 0x01 R.PMU.WAKESRC.SRC = 2 ∧ getF u 0x01 R.PMU.WAKESRC.DETAIL = b2.val) ∧
    ((s.mode = .park ∨ s.mode = .watch) → s.park = .none → wakeArmed s 2 b2.val = true → (cfg s 0x01 R.PMU.WROUTE.LST).testBit b2.val = true → also.getLsbD 5 = false →
      Answers (.wakeCanPattern b2 also sec sub) s fun u => u.mode = .listen ∧ u.wk.bus = b2.val ∧ u.wk.left = modeCode s.mode) ∧
    ((s.mode = .park ∨ s.mode = .watch) → s.park = .none → wakeArmed s 3 (b6.val + 2) = true → ((cfg s 0x01 R.PMU.WROUTE.LST).testBit (b6.val + 2) = false ∨ also.getLsbD 5 = true) →
      Answers (.wakeLinPulse b6 also sec sub) s fun u => u.mode = .boot ∧ getF u 0x03 R.RST.CAUSE.SRC = 8 ∧
        getF u 0x01 R.PMU.WAKESRC.SRC = 3 ∧ getF u 0x01 R.PMU.WAKESRC.DETAIL = (b6.val + 2)) ∧
    ((s.mode = .park ∨ s.mode = .watch) → s.park = .none → wakeArmed s 3 (b6.val + 2) = true → (cfg s 0x01 R.PMU.WROUTE.LST).testBit (b6.val + 2) = true → also.getLsbD 5 = false →
      Answers (.wakeLinPulse b6 also sec sub) s fun u => u.mode = .listen ∧ u.wk.bus = (b6.val + 2) ∧ u.wk.left = modeCode s.mode) ∧
    ((s.mode = .park ∨ s.mode = .watch) → s.park = .none → wakeArmed s 4 laneB.toNat = true → 
      Answers (.wakeHorn laneB also sec sub) s fun u => u.mode = .boot ∧ getF u 0x03 R.RST.CAUSE.SRC = 8 ∧
        getF u 0x01 R.PMU.WAKESRC.SRC = 4 ∧ getF u 0x01 R.PMU.WAKESRC.DETAIL = laneB.toNat) ∧
    ((s.mode = .park ∨ s.mode = .watch) → s.park = .none → wakeArmed s 5 b8.val = true → s.wk.level.testBit b8.val ≠ high →
      Answers (.wakeStrongInput b8 high also sec sub) s fun u => u.mode = .boot ∧ getF u 0x03 R.RST.CAUSE.SRC = 8 ∧
        getF u 0x01 R.PMU.WAKESRC.SRC = 5 ∧ getF u 0x01 R.PMU.WAKESRC.DETAIL = b8.val) ∧
    ((s.mode = .park ∨ s.mode = .watch) → s.park = .none → wakeArmed s 6 0 = true → sec ≠ 0 → getF s 0x01 R.PMU.RTCALM.SEC = sec.toNat →
      Answers (.wakeRtcAlarm also sec sub) s fun u => u.mode = .boot ∧ getF u 0x03 R.RST.CAUSE.SRC = 8 ∧
        getF u 0x01 R.PMU.WAKESRC.SRC = 6 ∧ getF u 0x01 R.PMU.WAKESRC.DETAIL = 0) ∧
    ((s.mode = .park ∨ s.mode = .watch) → s.park = .none → wakeArmed s 7 0 = true → 
      Answers (.wakeSideband also sec sub) s fun u => u.mode = .boot ∧ getF u 0x03 R.RST.CAUSE.SRC = 8 ∧
        getF u 0x01 R.PMU.WAKESRC.SRC = 7 ∧ getF u 0x01 R.PMU.WAKESRC.DETAIL = 0)

/-- What ends LISTEN and WATCH (03, R72, R73; 12, R274; 18, R420; 19, R448, R449). -/
def Obligations.ListenAndWatch : Prop :=
  ∀ (s : State) (t : ListenTraffic) (k : Fin 6) (whole ok : Bool) (levels : BitVec 64) (heard : List LfPoll) (also : Byte) (sec : Word) (sub : BitVec 16),
    Canon s →
    (s.mode = .listen → Answers .listenTimeout s fun u => u.mode = (if s.wk.left = 2 then .watch else .park) ∧
      getF u 0x01 R.PMU.FWAKE.COUNT = satInc 65535 (getF s 0x01 R.PMU.FWAKE.COUNT)) ∧
    (s.mode = .listen → (cfg s 0x01 R.PMU.WROUTE.LST).testBit (trafficBus t) = true →
      qualifies { s with aonCopyOk := s.aonCopyOk && ok } t = true →
      Answers (.qualifyingTraffic ⟨t, true⟩ ok) s fun u => u.mode = .boot ∧ getF u 0x03 R.RST.CAUSE.SRC = 8) ∧
    (Answers (.qualifyingTraffic ⟨t, false⟩ ok) s fun u => u = { s with aonCopyOk := s.aonCopyOk && ok }) ∧
    (s.mode = .listen → s.wk.pulses.testBit k.val = false → Answers (.qualifyingTraffic ⟨.linWake k, whole⟩ ok) s fun u => u.mode = .listen ∧
      (whole = true → (cfg s 0x01 R.PMU.WROUTE.LST).testBit (k.val + 2) = true → u.wk.pulses.testBit k.val = true)) ∧
    (s.mode = .watch → s.wk.cyc = [] → immPollPer s = 0 → Answers .scheduleEnd s fun u => u.mode = .park ∧ getF u 0x00 R.DEV.MODE.CAUSE = 7) ∧
    (s.mode = .watch → s.park = .none → cycDiff s levels.toNat ≠ [] →
      Answers (.cyclicSenseBurst ⟨levels, true⟩ also sec sub) s fun u => u.mode = (if s.wk.conf then .watch else .boot) ∧
        (s.wk.conf = true → u.wk.diff = cycDiff s levels.toNat)) ∧
    (s.mode = .watch → s.park = .none → s.wk.cyc ≠ [] →
      Answers (.cyclicSenseBurst ⟨levels, false⟩ also sec sub) s fun u => u.mode = .boot ∧ Raises u 226) ∧
    (s.mode = .watch → s.park = .none → s.wk.diff ≠ [] →
      Answers (.cyclicConfirmBurst levels also sec sub) s fun u =>
        u.mode = (if s.wk.diff.any fun e => levels.toNat.testBit e.1 = e.2 then .boot else .watch)) ∧
    (s.mode = .watch → s.park = .none →
      Answers (.pollBurst ok heard also sec sub) s fun u => u.mode = (if (immBurst (watchPower (rtcSet s sec.toNat)) ok heard).2 then .boot else .watch)) ∧
    (s.mode = .watch → immPollPer s ≠ 0 → s.imm.pollTab.getD s.imm.step 0 / 65536 ≠ 0xFFFF → Answers .pollStepEnd s fun u => u.mode = .watch ∧
      (s.imm.step + 1 < 8 → s.imm.pollTab.getD (s.imm.step + 1) 0 % 65536 ≠ 0 → u.imm = { s.imm with step := s.imm.step + 1 }) ∧
      (s.imm.step + 1 < 8 → s.imm.pollTab.getD (s.imm.step + 1) 0 % 65536 = 0 → u.imm.pollOn = false))

/-- The reflex load, the boot ROM, its end and recovery (04, R82 to R95; 21, R489). -/
def Obligations.BootSequence : Prop :=
  ∀ (s : State) (time : BitVec 16) (recov : Bool) (bad : List (Fin 512)) (cnt : Option Word) (data : List Byte), Canon s →
    (∀ g, s.mode = .boot → s.rfxLoaded = false → configured s 0x1D = false → dirGen s = some g → (crc32 ((fieldWords 0x1D (wordsOf (recImage s g 0))).flatMap wordBytes)).toNat ≠ recCrc s g 0 →
      Answers (.reflexLoadComplete time) s fun u => configured u 0x1D = false ∧ isSet u 0x1D R.RFX.LOAD.OK = false ∧
        u.flt.level.contains 0xEF = true ∧ u.applied = s.applied) ∧
    (∀ g, s.mode = .boot → s.rfxLoaded = false → configured s 0x1D = false → dirGen s = some g → (crc32 ((fieldWords 0x1D (wordsOf (recImage s g 0))).flatMap wordBytes)).toNat = recCrc s g 0 →
      rangeFail (shadowPut s 0x1D (fieldWords 0x1D (wordsOf (recImage s g 0)))) 0x1D = none →
      Answers (.reflexLoadComplete time) s fun u => getF u 0x1D H.EPOCH = 1 ∧ getF u 0x1D H.CRES = 1 ∧ isSet u 0x1D R.RFX.LOAD.OK = true) ∧
    (s.mode = .boot → getF s 0x03 R.RST.BOOT.PHASE = 0 → slipPending s = false →
      Answers (.romBoot recov bad ⟨cnt, none⟩) s fun u => u.mode = .boot ∧ isSet u 0x03 R.RST.STRAP.RECOV = recov ∧
        (getF u 0x03 R.RST.BOOT.PHASE = 3 ∨ getF u 0x03 R.RST.BOOT.PHASE = 5)) ∧
    (s.mode = .boot → getF s 0x03 R.RST.BOOT.PHASE = 0 → slipPending s = false → lcs s ≠ 4 → (recov = true ∨ s.sbp.recov = true) →
      Answers (.romBoot recov [] ⟨cnt, none⟩) s fun u => getF u 0x03 R.RST.BOOT.PHASE = 5 ∧ u.sbp.recov = false) ∧
    (s.mode = .boot → getF s 0x03 R.RST.BOOT.PHASE = 0 → slipPending s = false → lcs s = 4 →
      Answers (.romBoot recov [] ⟨cnt, none⟩) s fun u => getF u 0x03 R.RST.BOOT.PHASE = 3 ∧ getF u 0x03 R.RST.HOLDWHY.WHY = 3) ∧
    (s.mode = .boot → getF s 0x03 R.RST.BOOT.PHASE = 3 → s.flt.opened.any (fun e => decide (4 ≤ e.2)) = false →
      Answers .endOfBoot s fun u => u.mode = (if s.sbp.limp then .limp else if getF s 0x03 R.RST.HOLDWHY.WHY ≠ 0 then .hold else .run) ∧
        getF u 0x00 R.DEV.MODE.CAUSE = 8 ∧ getF u 0x03 R.RST.BOOT.PHASE = 4) ∧
    (inRecovery s = true → 5 ≤ data.length → data.length ≤ 4095 → bytesToNat (data.take 4) + (data.drop 4).length ≤ 0x200000 →
      Answers (.recoveryDownloadMessage data) s fun u =>
        u = { s with mem := memSetList s.mem (slipBase + bytesToNat (data.take 4)) (data.drop 4) }) ∧
    (inRecovery s = true → (slipPending s = false ∨ ctnType s 0 ≠ 2) → Answers .recoveryDownloadEnd s fun u =>
      (getF (recoveryReply (install { s with upd := { s.upd with ending := false } })) 0x07 R.UPD.STAT.LAST ≠ 1 →
        u = recoveryReply (install { s with upd := { s.upd with ending := false } })) ∧
      (getF (recoveryReply (install { s with upd := { s.upd with ending := false } })) 0x07 R.UPD.STAT.LAST = 1 → u.mode = .boot ∧ getF u 0x03 R.RST.CAUSE.SRC = 7))

/-- The command registers of the channels and the pulses of the generators (05, R99 to R103; 08, R171). -/
def Obligations.HscWrites : Prop :=
  ∀ (s : State) (who : Who) (n : Fin 72) (b : Fin 12) (v : Word) (code : BitVec 12) (enh neg served : Bool), Canon s →
    (MayWrite s who (hscPage n.val) 0x100 → Answers (.hscCmdWrite who n v) s fun u => isSet u (hscPage n.val) R.HSC.CMD.ON = v.getLsbD 0 ∧
      isSet u (hscPage n.val) R.HSC.CMD.STAYON = v.getLsbD 1 ∧ u.applied = s.applied ∧ u.mem = s.mem) ∧
    (MayWrite s who (hscPage n.val) 0x104 → Answers (.hscCmds who n v) s fun u => isSet u (hscPage n.val) R.HSC.CMD.ON = (isSet s (hscPage n.val) R.HSC.CMD.ON || v.getLsbD 0) ∧
      isSet u (hscPage n.val) R.HSC.CMD.STAYON = (isSet s (hscPage n.val) R.HSC.CMD.STAYON || v.getLsbD 1) ∧ u.applied = s.applied ∧ u.mem = s.mem) ∧
    (MayWrite s who (hscPage n.val) 0x108 → Answers (.hscCmdc who n v) s fun u => isSet u (hscPage n.val) R.HSC.CMD.ON = (isSet s (hscPage n.val) R.HSC.CMD.ON && !v.getLsbD 0) ∧
      isSet u (hscPage n.val) R.HSC.CMD.STAYON = (isSet s (hscPage n.val) R.HSC.CMD.STAYON && !v.getLsbD 1) ∧ u.applied = s.applied ∧ u.mem = s.mem) ∧
    (MayWrite s who (hscPage n.val) 0x10C → Answers (.hscDutyWrite who n v) s fun u => getF u (hscPage n.val) R.HSC.DUTY.DUTY = v.toNat % 4096 ∧ u.applied = s.applied ∧ u.mem = s.mem) ∧
    (∀ d o, running s = true → (hscGet s n).gen = true → hscDemand s n = (.gen d, o) →
      grpClock s (cfg s (hscPage n.val) R.HSC.CFG.FGRP) (cfg s (hscPage n.val) R.HSC.CFG.PHASE * grpClocks (cfg s (hscPage n.val) R.HSC.CFG.FGRP) / 4096) = true →
      Answers (.pulseStart (.hsc n)) s fun u =>
        let dt := (hscDeffOf s n d).1 * hscG s n / 4096
        getF u (hscPage n.val) R.HSC.STAT.DEFF = dt % 4096 ∧ (dt = 0 → hscGate u n = false) ∧ (dt = 4095 → hscGate u n = true) ∧
          (dt ≠ 0 → dt ≠ 4095 → (hscGet u n).rem = (dt * grpClocks (cfg s (hscPage n.val) R.HSC.CFG.FGRP) + (hscGet s n).rem) % 4096)) ∧
    (running s = true → (hscGet s n).gen = true → hscGate s n = true → getF s (hscPage n.val) R.HSC.STAT.DEFF ≠ 4095 →
      Answers (.pulseEnd (.hsc n) ⟨code, served⟩ enh neg) s fun u => hscGate u n = false ∧ u.applied = s.applied ∧ u.mem = s.mem) ∧
    (running s = true → (hbGet s b).gen = true →
      grpClock s (cfg s (hbPage b.val) R.HB.CFG.FGRP) (cfg s (hbPage b.val) R.HB.CFG.PHASE * grpClocks (cfg s (hbPage b.val) R.HB.CFG.FGRP) / 4096) = true → Answers (.pulseStart (.hb b)) s fun u =>
        let d := hbDeffOf s b (hbDemand s b).2.1
        getF u (hbPage b.val) R.HB.STAT.DEFF = d % 4096 ∧ (d = 0 → (hbGet u b).gate = false) ∧ (d = 4095 → (hbGet u b).gate =
          ((hbGet s b).gate || !(isSet s (hbPage b.val) R.HB.STAT.CLIM && getF s (hbPage b.val) R.HB.STAT.DEFF = 4095))) ∧
          (d ≠ 0 → d ≠ 4095 → (hbGet u b).rem = (d * grpClocks (cfg s (hbPage b.val) R.HB.CFG.FGRP) + (hbGet s b).rem) % 4096)) ∧
    (running s = true → (hbGet s b).gen = true → (hbGet s b).gate = true → getF s (hbPage b.val) R.HB.STAT.DEFF ≠ 4095 →
      Answers (.pulseEnd (.hb b) ⟨code, served⟩ enh neg) s fun u => (hbGet u b).gate = false ∧ (served = true → msqFresh s .hbCurrent = true →
        getF u (hbPage b.val) R.HB.IMEAS.CODE = code.toNat ∧ isSet u (hbPage b.val) R.HB.IMEAS.NEG = neg) ∧ u.applied = s.applied ∧ u.mem = s.mem) ∧
    (grpClock s (cfg s (hscPage n.val) R.HSC.CFG.FGRP) (cfg s (hscPage n.val) R.HSC.CFG.PHASE * grpClocks (cfg s (hscPage n.val) R.HSC.CFG.FGRP) / 4096) = false → Answers (.pulseStart (.hsc n)) s fun u => u = s) ∧
    (grpClock s (cfg s (hbPage b.val) R.HB.CFG.FGRP) (cfg s (hbPage b.val) R.HB.CFG.PHASE * grpClocks (cfg s (hbPage b.val) R.HB.CFG.FGRP) / 4096) = false → Answers (.pulseStart (.hb b)) s fun u => u = s)

/-- Trips, latches, retries and restarts of the protected outputs (06, R133 to R141). -/
def Obligations.Protection : Prop :=
  ∀ (s : State) (o : ProtOut) (n : Fin 72), Canon s → running s = true →
    ((∀ a, o ≠ .lfa a) → o ≠ .sbk → o ≠ .lmx → (protGet s (protOwner s o)).slewOff = false → Answers (.hardShortTrip o) s fun u =>
      Raises u (protPage (protOwner s o) * 8 + 0) ∧ (protGet u (protOwner s o)).tripped = true ∧ (protGet u (protOwner s o)).rdly = true) ∧
    ((o = .sbk ∨ o = .lmx ∨ ∃ a, o = .lfa a) → Answers (.hardShortTrip o) s fun u => u = s) ∧
    ((∀ a, o ≠ .lfa a) → o ≠ .sbk → (protGet s o).latchT = false → s.flt.level.contains (protPage o * 8 + 2) = false → Answers (.thermalLatch o) s fun u => (protGet u o).latchT = true ∧
      u.flt.level.contains (protPage o * 8 + 2) = true ∧ Raises u (protPage o * 8 + 2) ∧
        (protLatched s o = false → (protForce s o &&& 0x0C) = 0 → (protGet s (protOwner s o)).slewOff = false → (protGet u (protOwner s o)).tripped = true)) ∧
    (o = .sbk → s.flt.level.contains 1060 = false → Answers (.thermalLatch o) s fun u => u.sbk.latch = true ∧ u.flt.level.contains 1060 = true ∧ Raises u 1060) ∧
    ((∀ a, o ≠ .lfa a) → o ≠ .sbk → (protGet s o).latchT = true → Answers (.latchRelease o) s fun u => (protGet u o).latchT = false ∧ u.flt.level.contains (protPage o * 8 + 2) = false) ∧
    (o = .sbk → Answers (.latchRelease o) s fun u => u.sbk.latch = false ∧ u.flt.level.contains 1060 = false) ∧
    ((∀ a, o ≠ .lfa a) → o ≠ .sbk → (protGet s o).latchD = false → s.flt.level.contains (protPage o * 8 + 3) = false → Answers (.deltaTLatch o) s fun u => (protGet u o).latchD = true ∧
      u.flt.level.contains (protPage o * 8 + 3) = true ∧ Raises u (protPage o * 8 + 3) ∧
        (protLatched s o = false → (protForce s o &&& 0x0C) = 0 → (protGet s (protOwner s o)).slewOff = false → (protGet u (protOwner s o)).tripped = true)) ∧
    ((∀ a, o ≠ .lfa a) → o ≠ .sbk → (protGet s o).latchD = true → Answers (.deltaTRelease o) s fun u => (protGet u o).latchD = false ∧ u.flt.level.contains (protPage o * 8 + 3) = false) ∧
    ((protGet s (protOwner s o)).rdly = true → Answers (.restartDelayExpiry o) s fun u => (protGet u (protOwner s o)).rdly = false) ∧
    (protReady s (protOwner s o) = true → protWanted s (protOwner s o) = true → Answers (.restart o) s fun u => (protGet u (protOwner s o)).tripped = false ∧
      (protGet u (protOwner s o)).rused = satInc 15 (protGet s (protOwner s o)).rused) ∧
    ((protGet s (protOwner s o)).tripped = false → (protGet s (protOwner s o)).lockout = false →
      Answers (.retryCountClear o) s fun u => (protGet u (protOwner s o)).rused = 0) ∧
    (hscNearVf s n = false → Answers (.chargeComplete n) s fun u => u = s) ∧
    ((hscGet s n).charging = true → hscNearVf s n = true → Answers (.chargeComplete n) s fun u => (hscGet u n).charging = false ∧ u.dirty = true) ∧
    ((hscGet s n).charging = true → (hscGet s n).on = true → (hscGet s n).prot.slewOff = false → Answers (.chargeTimeout n) s fun u =>
      Raises u ((0x20 + n.val) * 8 + 5) ∧ (hscGet u n).prot.tripped = true ∧ (hscGet u n).charging = false) ∧
    (Answers (.inrushWindowEnd n) s fun u => (hscGet u n).window = false ∧ u.regs = s.regs ∧ u.mem = s.mem ∧ u.due = s.due)

/-- What the load sequencer times and measures, and its substitutions (06, R124, R125; 07, R147 to R160; 23, R519). -/
def Obligations.Sequencer : Prop :=
  ∀ (s : State) (n : Fin 72) (m : TickSamples) (base : BitVec 12) (refs : List (BitVec 12)) (currents : List Nat) (src : Fin 6) (idx : Byte)
    (code : BitVec 12) (k : Fin 4) (dev : Int), Canon s → running s = true →
    (Answers (.fuseEngineTick m) s fun u => (msqFresh s .supply = true → getF u 0x1E R.MSQ.VBAT.CODE = m.vbat.toNat) ∧
      (busLost s = false → u.tbs = max s.tbs m.now.toNat) ∧
      ∀ c : Fin 72, (hscGet u c).theta = thetaNext s c (if (hscGet s c).ran || hscGate s c then
          (sampleQ c (!msqFresh s .protSense) (hscGate s c && !(hscGet s c).edge) (hscGet s c).lastProt ((m.prot.find? fun e => e.1 = c).map Prod.snd |>.getD [])).1 else 0)
        (hscGet s c).theta) ∧
    (msTick s 0 = false → Answers (.baseTempRefresh base refs) s fun u => u = s) ∧
    (msTick s 0 = true → msqFresh s .temperature = true → refs.length = 4 → Answers (.baseTempRefresh base refs) s fun u =>
      let off := decide (2560 < ((4 * base.toNat : Nat) - (((refs.map BitVec.toNat).sum : Nat) : Int)).natAbs)
      isSet u 0x1E R.MSQ.TBASE.SUBD = off ∧ u.flt.level.contains 242 = off ∧
        getF u 0x1E R.MSQ.TBASE.CODE = max 240 (min 2880 (if off then (refs.map BitVec.toNat).foldl max 0 else base.toNat))) ∧
    (blockOff s 0x1E = false → hscGate s n = true →
      msqFresh s .wear = true → hscNominal n ≤
        4 * (((List.range 9).filter fun j => (getF s (hscPage n.val) R.HSC.SEG.ACTIVE).testBit j).map fun j => currents.getD j 0).sum →
      Answers (.wearMeasurement n currents) s fun u => (hscGet u n).nmeas = (hscGet s n).nmeas + 1 ∧ (hscGet u n).wear.length = 9 ∧
        ∀ j, j < 9 → (getF s (hscPage n.val) R.HSC.SEG.ACTIVE).testBit j = false → (hscGet u n).wear.getD j 0 = 0) ∧
    (∀ j, j < 4 → blockOff s 0x1E = false → sysLost s = false → cfgOn s 0x1E (R.MSQ.SCFG.EN j) = true → cfg s 0x1E (R.MSQ.SCFG.SRC j) = src.val →
      (∀ i, i < 4 → i ≠ j → cfgOn s 0x1E (R.MSQ.SCFG.EN i) = false ∨ cfg s 0x1E (R.MSQ.SCFG.SRC i) ≠ src.val) → busReach s 0x1E = true →
      streamFresh s src.val idx.toNat = true →
      let wp := getF s 0x1E (R.MSQ.SWP.OFF j)
      let next := (wp + 4) % (256 * 2 ^ cfg s 0x1E (R.MSQ.SCFG.LEN j))
      next ≠ getF s 0x1E (R.MSQ.SRP.OFF j) →
      Answers (.streamSampleWrite src idx code) s fun u =>
        u.mem = memSetWord s.mem (cfg s 0x1E (R.MSQ.SBASE.BASE j) + wp) (streamWord s src.val idx.toNat code.toNat) ∧
        getF u 0x1E (R.MSQ.SWP.OFF j) = next % 65536 ∧ u.due = s.due) ∧
    (8 < dev.natAbs → Answers (.sliceReferenceCheck k dev) s fun u => (getF u 0x1E R.MSQ.STAT.SFAIL).testBit k.val = true ∧ Raises u 240) ∧
    ((getF s 0x1E R.MSQ.STAT.SFAIL).testBit k.val = true → s.spr.slice = none → blockOff s 0x9A = false →
      Answers (.sliceSubstitute k) s fun u => u.spr.slice = some k.val ∧ getF u 0x1E R.MSQ.STAT.SUBST = k.val ∧ Raises u 1232) ∧
    (getF s (hscPage n.val) R.HSC.SEG.FAILED ≠ 0 → hscGate s n = false → cfgOn s 0x9A R.SPR.CFG.SEGEN = true →
      s.spr.segs.testBit n.val = false → blockOff s 0x9A = false →
      Answers (.segmentSubstitute n) s fun u => u.spr.segs.testBit n.val = true ∧ (getF u (hscPage n.val) R.HSC.SEG.ACTIVE).testBit 8 = true ∧
        Raises u 1232) ∧
    (blockOff s 0x1E = false → Answers .bandGapReferenceMismatch s fun u => Raises u 243 ∧ u.regs = s.regs ∧ u.mem = s.mem)

/-- Off-state checks of the channels and the events of the bridges (07, R152 to R157; 08, R174 to R192). -/
def Obligations.Diagnostics : Prop :=
  ∀ (s : State) (n : Fin 72) (b : Fin 12) (vout : BitVec 12) (room : Bool) (per : BitVec 16) (mean : BitVec 12), Canon s → running s = true →
    (cfg s (hscPage n.val) R.HSC.DIAG.OLPU ≠ 0 → offCheckBarred s n = false → (hscGet s n).phase = 0 →
      ((hscGet s n).gen = false ∨ cfg s (hscPage n.val) R.HSC.DIAG.LDS = 3) →
      Answers (.offStateCheckStart n) s fun u => (hscGet u n).phase = 1 ∧ u.regs = s.regs ∧ u.mem = s.mem) ∧
    ((hscGet s n).phase = 1 → hscGate s n = false → blockOff s 0x1E = false → msqFresh s .hscVout = true →
      Answers (.offStatePhaseEnd n vout room) s fun u => getF u (hscPage n.val) R.HSC.VOUT.CODE = vout.toNat ∧
        (hscGet u n).phase = (if (vout.toNat * 15 + 2000) * 65536 < hscVf s n * 15 then 0 else if room then 2 else 3)) ∧
    ((hscGet s n).phase = 2 → hscGate s n = false → blockOff s 0x1E = false → msqFresh s .hscVout = true → cfg s 0x1E R.MSQ.CFG.OLCNT ≤ 1 →
      Answers (.offStatePhaseEnd n vout room) s fun u => (hscGet u n).phase = 0 ∧
        getF u (hscPage n.val) R.HSC.DRES.RESULT = (if (vout.toNat * 15 + 2000) * 65536 < hscVf s n * 15 then 2 else 3)) ∧
    (Answers (.diagResultTimeout n) s fun u => getF u (hscPage n.val) R.HSC.DRES.RESULT = 4) ∧
    ((hbGet s b).rev = true → (hbGet s b).gen = false → hbAmps s b < 100 → (safeInForce s (72 + b.val) = true → isSet s (hbPage b.val) R.HB.STAT.SAFEACT = true) →
      (hbDemand s b).1 ≠ 0 → modePermits s (hbDemand s b).2.2 = true → shed s (72 + b.val) = false → hbProtPermits s b = true → hbFollower s b = false →
      Answers (.reversalPauseEnd b) s fun u => (hbGet u b).rev = false ∧ (hbGet u b).act = (hbDemand s b).1) ∧
    ((hbGet s b).gen = true → (hbGet s b).gate = true → cfg s (hbPage b.val) R.HB.LIM.ILIM ≠ 0 →
      Answers (.currentLimitAct b) s fun u => (hbGet u b).gate = false ∧ isSet u (hbPage b.val) R.HB.STAT.CLIM = true) ∧
    ((hbGet s b).gen = true → (hbGet s b).gate = false → getF s (hbPage b.val) R.HB.STAT.DEFF = 4095 →
      Answers (.limiterTurnOnAgain b) s fun u => (hbGet u b).gate = true ∧ u.regs = s.regs) ∧
    ((hbGet s b).on = true → hbDrives (hbGet s b).act = true → cfg s (hbPage b.val) R.HB.STALL.STIME ≠ 0 →
      (protGet s (protOwner s (.hb b))).slewOff = false → Answers (.stallTrip b) s fun u =>
      Raises u (protPage (protOwner s (.hb b)) * 8 + 1) ∧ (protGet u (protOwner s (.hb b))).tripped = true) ∧
    (hbRippleRuns s b = true → hbTexp s b ≤ 2 * per.toNat → Answers (.rippleAccepted b per mean) s fun u =>
      getF u (hbPage b.val) R.HB.RPER.PER = per.toNat ∧ (hbGet u b).insRun = 0 ∧ (hbGet u b).pers = (per.toNat :: (hbGet s b).pers).take 4 ∧
        isSet u (hbPage b.val) R.HB.STAT.STILL = false) ∧
    (hbRippleRuns s b = true → (hbGet s b).insRun < 2 → Answers (.rippleInserted b) s fun u => (hbGet u b).insRun = (hbGet s b).insRun + 1 ∧
      getF u (hbPage b.val) R.HB.RPER.INS = satInc 255 (getF s (hbPage b.val) R.HB.RPER.INS) ∧ ((hbGet s b).insRun = 1 → Raises u ((0x68 + b.val) * 8 + 5))) ∧
    ((hbDrives (hbGet s b).act && (hbGet s b).on) = false → hbDrives (getF s (hbPage b.val) R.HB.CMD.ACT) = false → hbAmps s b < 20 →
      Answers (.standstill b) s fun u => isSet u (hbPage b.val) R.HB.STAT.STILL = true ∧ (hbGet u b).pers = []) ∧
    ((hbGet s b).on = true → (hbGet s b).act = 5 → cfg s (hbPage b.val) R.HB.PARK.PTO ≠ 0 → (hbRawDemand s b).1 = 5 →
      (safeInForce s (72 + b.val) = true → isSet s (hbPage b.val) R.HB.STAT.SAFEACT = true) → Answers (.parkTimeout b) s fun u =>
        hbDrives (hbGet u b).act = false ∧ (cfgOn s (hbPage b.val) R.HB.CFG.STOP = false → (hbGet u b).on = false) ∧ Raises u ((0x68 + b.val) * 8 + 4))

/-- The command registers of the bridges (08, R168, R169, R184). -/
def Obligations.HbWrites : Prop :=
  ∀ (s : State) (who : Who) (b : Fin 12) (v : Word), Canon s →
    (MayWrite s who (hbPage b.val) 0x100 → hbFollower s b = false → hbActOk s b (v.toNat % 16) = true →
      Answers (.hbCmdWrite who b v) s fun u => getF u (hbPage b.val) R.HB.CMD.ACT = v.toNat % 16 ∧
        isSet u (hbPage b.val) R.HB.CMD.STAYON = v.getLsbD 4 ∧ u.applied = s.applied ∧ u.mem = s.mem) ∧
    (MayWrite s who (hbPage b.val) 0x100 → (hbFollower s b = true ∨ hbActOk s b (v.toNat % 16) = false) →
      Answers (.hbCmdWrite who b v) s fun u => u = { werr s (hbPage b.val) 0x100 with ans := none }) ∧
    (MayWrite s who (hbPage b.val) 0x104 → hbFollower s b = false →
      Answers (.hbDutyWrite who b v) s fun u => getF u (hbPage b.val) R.HB.DUTY.DUTY = v.toNat % 4096 ∧ u.applied = s.applied ∧ u.mem = s.mem ∧ u.due = s.due) ∧
    (MayWrite s who (hbPage b.val) 0x118 →
      Answers (.hbPosWrite who b v) s fun u => getF u (hbPage b.val) R.HB.POS.POS = v.toNat ∧ getF u (hbPage b.val) R.HB.RPER.INS = 0 ∧
        isSet u (hbPage b.val) R.HB.STAT.POSVALID = true ∧ u.applied = s.applied ∧ u.mem = s.mem ∧ u.due = s.due)

/-- The phases of a valve, its closing detection and its deferral (09, R201 to R211). -/
def Obligations.ValveProfiles : Prop :=
  ∀ (s : State) (who : Who) (n : Fin 16) (v : Word) (dur : BitVec 16) (ipk code : BitVec 12) (off long : Bool) (tdec : Nat) (l : List (BitVec 12)),
    Canon s →
    (MayWrite s who (solPage n.val) 0x100 → Answers (.solCmdWrite who n v) s fun u => isSet u (solPage n.val) R.SOL.CMD.ON = v.getLsbD 0 ∧
      isSet u (solPage n.val) R.SOL.CMD.STAYON = v.getLsbD 2 ∧ u.applied = s.applied ∧ u.mem = s.mem) ∧
    (MayWrite s who (solPage n.val) 0x100 → enabled s (solPage n.val) = true → safeInForce s (84 + n.val) = false → rfxOn s (84 + n.val) = false → rfxOff s (84 + n.val) = false →
      modePermits s .cmd = true → shed s (84 + n.val) = false → solProtPermits s n.val = true → (isSet s (solPage n.val) R.SOL.STAT.COILLIM && cfgOn s (solPage n.val) R.SOL.THM.ACT) = false →
      solShares s n.val = false → (solGet s n.val).deferred = false →
      Answers (.solTrig who n v) s fun u => (solGet u n.val).phase = .boost ∧ ((solGet s n.val).phase ≠ .boost → (solGet u n.val).gate = true) ∧
        (solGet u n.val).trig = true ∧ u.applied = s.applied ∧ u.mem = s.mem) ∧
    (MayWrite s who (solPage n.val) 0x100 → enabled s (solPage n.val) = true → safeInForce s (84 + n.val) = false → rfxOn s (84 + n.val) = false → rfxOff s (84 + n.val) = false →
      modePermits s .cmd = true → shed s (84 + n.val) = false → (isSet s (solPage n.val) R.SOL.STAT.COILLIM && cfgOn s (solPage n.val) R.SOL.THM.ACT) = false →
      solShares s n.val = false → (solGet s n.val).deferred = false → protReady s (.sol n) = true → (solGet s n.val).phase ≠ .boost →
      Answers (.solTrig who n v) s fun u => (solGet u n.val).phase = .boost ∧ (solGet u n.val).prot.tripped = false ∧
        (solGet u n.val).prot.rused = satInc 15 (solGet s n.val).prot.rused ∧ u.applied = s.applied ∧ u.mem = s.mem) ∧
    (running s = true → (solGet s n.val).phase = .boost → bankQueue s (solBank n.val) = [] →
      Answers (.boostPeakReached n dur ipk) s fun u => (solGet u n.val).phase = .hold ∧ (solGet u n.val).gate = false ∧
        getF u (solPage n.val) R.SOL.BOOST.TBST = dur.toNat ∧ getF u (solPage n.val) R.SOL.BOOST.IPKR = ipk.toNat ∧ isSet u (solPage n.val) R.SOL.EVT.BDONE = true ∧ u.applied = s.applied ∧ u.mem = s.mem) ∧
    (running s = true → (solGet s n.val).phase = .boost → bankQueue s (solBank n.val) = [] →
      Answers (.boostTimeout n dur ipk) s fun u => (solGet u n.val).phase = .hold ∧ (solGet u n.val).gate = false ∧
        getF u (solPage n.val) R.SOL.STAT.FCODE = 1 ∧ Raises u ((solPage n.val) * 8 + 1) ∧ u.applied = s.applied ∧ u.mem = s.mem) ∧
    (running s = true → (solGet s n.val).phase = .hold → Answers (.holdChop n off ⟨code, long⟩) s fun u =>
        (solGet u n.val).phase = .hold ∧ (solGet u n.val).gate = !off ∧
        getF u (solPage n.val) R.SOL.IMEAS.CODE = (if off = true then code.toNat else getF s (solPage n.val) R.SOL.IMEAS.CODE) ∧
        isSet u (solPage n.val) R.SOL.IMEAS.VALID = (if off = true then long else isSet s (solPage n.val) R.SOL.IMEAS.VALID) ∧ u.applied = s.applied ∧ u.mem = s.mem ∧ u.due = s.due) ∧
    (running s = true → (solGet s n.val).phase = .hold → (solGet s n.val).trig = true → (solGet s n.val).deferred = false →
      Answers (.trigHoldExpiry n) s fun u => (solGet u n.val).phase = .decay ∧ (solGet u n.val).gate = false ∧ u.applied = s.applied ∧ u.mem = s.mem) ∧
    (running s = true → (solGet s n.val).phase = .decay → Answers (.decayEnd n) s fun u =>
        (solGet u n.val).phase = (if cfgOn s (solPage n.val) R.SOL.CLDC.EN = true ∧ (solGet s n.val).fast = false ∧ openWindows s < 6 then .window else .off) ∧
        (cfgOn s (solPage n.val) R.SOL.CLDC.EN = true → (solGet s n.val).fast = true → getF u (solPage n.val) R.SOL.CLD.RES = 3) ∧
        (cfgOn s (solPage n.val) R.SOL.CLDC.EN = true → (solGet s n.val).fast = false → 6 ≤ openWindows s →
          getF u (solPage n.val) R.SOL.CLD.RES = 4 ∧ Raises u 244)) ∧
    (running s = true → (solGet s n.val).phase = .decay → cfgOn s (solPage n.val) R.SOL.CLDC.EN = true →
      Answers (.decayNozeroTimeout n) s fun u => getF u (solPage n.val) R.SOL.CLD.RES = 6 ∧ u.sol = s.sol ∧ u.applied = s.applied ∧ u.mem = s.mem) ∧
    (∀ k, running s = true → (solGet s n.val).phase = .window → msqFresh s (.window (solGet s n.val).win3) = true →
      cldClosing (cfg s (solPage n.val) R.SOL.CLDC.BLK * 10) (cfg s (solPage n.val) R.SOL.CLDC.STEP) (cfg s (solPage n.val) R.SOL.CLDC.TH) (l.map BitVec.toInt) = some k →
      Answers (.closingDetected n tdec l) s fun u => getF u (solPage n.val) R.SOL.CLD.RES = 1 ∧
        getF u (solPage n.val) R.SOL.CLD.TCLOSE = (tdec + k - cfg s (solPage n.val) R.SOL.CLDC.STEP) % 65536 ∧ getF u (solPage n.val) R.SOL.CLD.MISS = 0 ∧
        isSet u (solPage n.val) R.SOL.EVT.CLOSED = true ∧ (solGet u n.val).phase = .off ∧ u.applied = s.applied ∧ u.mem = s.mem) ∧
    (running s = true → (solGet s n.val).phase = .window → msqFresh s (.window (solGet s n.val).win3) = true → Answers (.closingWindowExpiry ⟨n, code⟩) s fun u =>
        getF u (solPage n.val) R.SOL.VCOIL.CODE = code.toNat ∧ isSet u (solPage n.val) R.SOL.VCOIL.VALID = true ∧ getF u (solPage n.val) R.SOL.CLD.RES = 2 ∧ getF u (solPage n.val) R.SOL.CLD.MISS = satInc 255 (getF s (solPage n.val) R.SOL.CLD.MISS) ∧ (solGet u n.val).phase = .off ∧
        (cfg s (solPage n.val) R.SOL.CLDC.MISS ≠ 0 → satInc 255 (getF s (solPage n.val) R.SOL.CLD.MISS) = cfg s (solPage n.val) R.SOL.CLDC.MISS →
          getF u (solPage n.val) R.SOL.STAT.FCODE = 2 ∧ Raises u ((solPage n.val) * 8 + 1)) ∧ u.applied = s.applied ∧ u.mem = s.mem) ∧
    (running s = true → (solGet s n.val).deferred = true → (solGet s n.val).prot.slewOff = false → Answers (.deferralTimeout n) s fun u =>
        Raises u ((solPage n.val) * 8 + 5) ∧ (solGet u n.val).prot.tripped = true ∧ (solGet u n.val).prot.rdly = true ∧ (solGet u n.val).deferred = false)

/-- The coil model, the minimum hold, the banks and the boost converter (09, R198, R215 to R219). -/
def Obligations.BoostAndBanks : Prop :=
  ∀ (s : State) (n : Fin 16) (b : Fin 4) (pairs : List (Fin 16 × BitVec 12 × BitVec 12)) (power : List (Fin 16 × Nat)) (vbst : BitVec 12),
    Canon s → running s = true →
    (cfgOn s (solPage n.val) R.SOL.THM.EN = true → Answers (.coilModelUpdate pairs power) s fun u =>
      let mw := ((power.find? fun e => e.1 = n).map Prod.snd).getD 0
      let steady : Int := ((cfg s (solPage n.val) R.SOL.THM2.RTH * mw * 2 ^ 50 / 2000 : Nat) : Int)
      let old : Int := ((solGet s n.val).thetaE : Int)
      ((solGet u n.val).thetaE : Int) = max 0 (old + (steady - old) / ((cfg s (solPage n.val) R.SOL.THM2.TAU * 1000 : Nat) : Int)) ∧ u.applied = s.applied ∧ u.mem = s.mem) ∧
    (cfgOn s (solPage n.val) R.SOL.THM.EN = false → Answers (.coilModelUpdate pairs power) s fun u =>
      isSet u (solPage n.val) R.SOL.STAT.COILLIM = false ∧ isSet u (solPage n.val) R.SOL.TCOIL.SRC = false ∧ (solGet u n.val).thetaE = (solGet s n.val).thetaE) ∧
    (isSet s (solPage n.val) R.SOL.STAT.COILLIM = true → cfgOn s (solPage n.val) R.SOL.THM.ACT = false → (solGet s n.val).phase = .hold → (solGet s n.val).deferred = false →
      Answers (.minimumHoldExpiry n) s fun u => (solGet u n.val).phase = .decay ∧ (solGet u n.val).gate = false ∧ u.applied = s.applied ∧ u.mem = s.mem) ∧
    (s.sbk.sel.length = 4 → (∀ m ∈ bankValves b.val, (solGet s m).phase ≠ .boost) →
      Answers (.bankSelApply b) s fun u => bankSel u b.val = cfg s 0x84 (R.SBK.SEL.SEL b.val) ∧
        isSet u 0x84 (R.SBK.BANK.POS b.val) = decide (2 ≤ cfg s 0x84 (R.SBK.SEL.SEL b.val)) ∧ u.applied = s.applied ∧ u.mem = s.mem) ∧
    (vbst.toNat < cfg s 0x84 R.SBK.BSTUV.VMIN → s.flt.level.contains 1056 = false → Answers (.boostUndervoltage vbst) s fun u =>
      isSet u 0x84 R.SBK.BSTAT.UV = true ∧ getF u 0x84 R.SBK.BSTAT.VBST = vbst.toNat ∧ u.flt.level.contains 1056 = true ∧ Raises u 1056) ∧
    (cfg s 0x84 R.SBK.BSTUV.VMIN ≤ vbst.toNat → Answers (.boostUndervoltageEnd vbst) s fun u =>
      isSet u 0x84 R.SBK.BSTAT.UV = false ∧ getF u 0x84 R.SBK.BSTAT.VBST = vbst.toNat ∧ u.flt.level.contains 1056 = false) ∧
    (11 * cfg s 0x84 R.SBK.BST.VSET < 10 * vbst.toNat → Answers (.boostOvervoltage vbst) s fun u =>
      u.sbk.ovStop = true ∧ isSet u 0x84 R.SBK.BSTAT.RUN = false ∧ getF u 0x84 R.SBK.BSTAT.VBST = vbst.toNat ∧ Raises u 1057) ∧
    (vbst.toNat < cfg s 0x84 R.SBK.BST.VSET → Answers (.boostOvervoltageEnd vbst) s fun u =>
      u.sbk.ovStop = false ∧ getF u 0x84 R.SBK.BSTAT.VBST = vbst.toNat ∧ u.due = s.due) ∧
    (Answers .boostOvercurrent s fun u => Raises u 1058 ∧ u.regs = s.regs ∧ u.mem = s.mem) ∧
    (Answers .bankSwitchFault s fun u => Raises u 1059 ∧ u.regs = s.regs ∧ u.mem = s.mem)

/-- The events of a string (10, R230 to R233). -/
def Obligations.StringEvents : Prop :=
  ∀ (s : State) (who : Who) (n : Fin 4) (v : Word) (k : Fin 16) (vout : BitVec 12) (now : BitVec 64), Canon s →
    (MayWrite s who (lstPage n.val) 0x100 → Answers (.lstCmdWrite who n v) s fun u => isSet u (lstPage n.val) R.LST.CMD.ON = v.getLsbD 0 ∧
      isSet u (lstPage n.val) R.LST.CMD.STAYON = v.getLsbD 1 ∧ u.applied = s.applied ∧ u.mem = s.mem ∧ u.lst = s.lst) ∧
    (busRuns s = true → getF s (lstPage n.val) H.CST ≠ 2 → (lstGet s n.val).phase = 3 → isSet s 0x91 R.FRMC.STAT.SWPEND = false → safeInForce s (100 + n.val) = false →
      rfxOn s (100 + n.val) = false → frameStarts (setNow s now.toNat) (lstFrame s n.val) = true → Answers (.stringFrameBoundary n now) s fun u =>
        let a := frmBase (isSet s (lstPage n.val) R.LST.STAT.FRONT) + 64 * n.val
        let l := frmCode s a * trimB s (cfg s (lstPage n.val) R.LST.CFG.PRIO) / 4096
        getF u (lstPage n.val) R.LST.STAT.LEFF = l % 4096 ∧ isSet u (lstPage n.val) R.LST.STAT.FLOOR = decide (l < 256) ∧
          (lstGet u n.val).phase = (if l = 0 then 4 else 3) ∧
          (∀ i, i < 16 → (lstGet u n.val).frame.getD (i + 1) 0 = frmCode s (a + 4 + 2 * i)) ∧
          (∀ i, i < 16 → (lstGet u n.val).carry.getD i 0 = lstCarry s n.val i) ∧ u.applied = s.applied ∧ u.mem = s.mem) ∧
    (busRuns s = true → (lstGet s n.val).phase = 1 → Answers (.softStartEnd n) s fun u => (lstGet u n.val).phase = 2 ∧ u.applied = s.applied ∧ u.mem = s.mem) ∧
    (running s = true → lstJudged s n.val k.val = true → Answers (.ledOpenDetect n k) s fun u =>
      getF u (lstPage n.val) R.LST.LOPEN.OPEN = getF s (lstPage n.val) R.LST.LOPEN.OPEN ||| 2 ^ k.val ∧ Raises u ((lstPage n.val) * 8 + 4) ∧ u.lst = s.lst) ∧
    (running s = true → lstJudged s n.val k.val = true → cfg s (lstPage n.val) R.LST.DIAG.VSHT ≠ 0 →
      Answers (.ledShortDetect n k) s fun u =>
        getF u (lstPage n.val) R.LST.LSHORT.SHORT = getF s (lstPage n.val) R.LST.LSHORT.SHORT ||| 2 ^ k.val ∧ Raises u ((lstPage n.val) * 8 + 5) ∧ u.lst = s.lst) ∧
    (lstJudged s n.val k.val = false → Answers (.ledOpenDetect n k) s fun u => u = s) ∧
    (lstJudged s n.val k.val = false → Answers (.ledShortDetect n k) s fun u => u = s) ∧
    (running s = true → cfg s (lstPage n.val) R.LST.OVP.OVP ≤ vout.toNat → (lstGet s n.val).prot.slewOff = false → Answers (.stringOvp n vout) s fun u =>
      getF u (lstPage n.val) R.LST.VOUT.CODE = vout.toNat ∧ Raises u ((lstPage n.val) * 8 + 1) ∧ (lstGet u n.val).prot.tripped = true) ∧
    (running s = true → (lstGet s n.val).prot.slewOff = false → Answers (.stringShortTrip n) s fun u =>
      Raises u ((lstPage n.val) * 8) ∧ (lstGet u n.val).prot.tripped = true ∧ (lstGet u n.val).prot.rdly = true)

/-- The events of the matrix (10, R236 to R239). -/
def Obligations.MatrixEvents : Prop :=
  ∀ (s : State) (who : Who) (r : Fin 12) (k : Fin 24) (v : Word) (now : BitVec 64), Canon s →
    (MayWrite s who 0x8C 0x100 → Answers (.lmxCmdWrite who v) s fun u => isSet u 0x8C R.LMX.CMD.ON = v.getLsbD 0 ∧
      isSet u 0x8C R.LMX.CMD.STAYON = v.getLsbD 1 ∧ u.applied = s.applied ∧ u.mem = s.mem ∧ u.lmx = s.lmx) ∧
    (busRuns s = true → getF s 0x8C H.CST ≠ 2 → s.lmx.on = true → isSet s 0x91 R.FRMC.STAT.SWPEND = false → lmxHolds s = false →
      frameStarts (setNow s now.toNat) lmxFrameLen = true →
      Answers (.matrixFrameBoundary now) s fun u => u.lmx.pw.length = 288 ∧ u.lmx.raw = lmxRecord s (isSet s 0x8C R.LMX.STAT.FRONT) ∧ u.applied = s.applied ∧ u.mem = s.mem ∧
        ∀ i, i < 288 → u.lmx.pw.getD i 0 =
          frmCode s (frmBase (isSet s 0x8C R.LMX.STAT.FRONT) + 256 + 2 * i) * trimB s (cfg s 0x8C R.LMX.CFG.PRIO) / 4096) ∧
    (running s = true → lmxRowOn s r.val = true → lmxColOn s k.val = true → 960 ≤ s.lmx.pw.getD (24 * r.val + k.val) 0 * 27696 / 4095 →
      Answers (.matrixLedOpen r k) s fun u => Raises u 1124 ∧
        (getF u 0x8C (R.LMX.OPEN.OPEN ((24 * r.val + k.val) / 32))).testBit ((24 * r.val + k.val) % 32) = true ∧ u.lmx = s.lmx) ∧
    (running s = true → lmxRowOn s r.val = true → Answers (.matrixRowShort r) s fun u =>
      getF u 0x8C R.LMX.ROWSC.ROW = getF s 0x8C R.LMX.ROWSC.ROW ||| 2 ^ r.val ∧ Raises u 1120 ∧ u.lmx = s.lmx) ∧
    (running s = true → lmxColOn s k.val = true → Answers (.matrixColumnStb k) s fun u =>
      getF u 0x8C R.LMX.COLSTB.COL = getF s 0x8C R.LMX.COLSTB.COL ||| 2 ^ k.val ∧ Raises u 1121 ∧ u.lmx = s.lmx)

/-- Frame memory, its swap and the player (10, R242 to R247, R253). -/
def Obligations.FrameMemory : Prop :=
  ∀ (s : State) (who : Who) (offs : BitVec 19) (size : AccSize) (v : Word) (kind : Fin 3) (rise : Bool) (now : BitVec 64), Canon s →
    (running s = true → (whoIsCore who = true ∨ who = .host ∧ manifestLoaded s = true) → offs.toNat % accBytes size = 0 → sysLost s = false → frmRefused s (0x20200000 + offs.toNat) = false →
      Answers (.frmWrite who offs size v) s fun u => u.regs = s.regs ∧ u.ans = none ∧ ∀ a, memGet u.mem a =
        if 0x20200000 + offs.toNat ≤ a ∧ a < 0x20200000 + offs.toNat + accBytes size then (wordBytes v).getD (a - (0x20200000 + offs.toNat)) 0
        else memGet s.mem a) ∧
    (running s = true → (whoIsCore who = true ∨ who = .host ∧ manifestLoaded s = true) → offs.toNat % accBytes size = 0 → sysLost s = false → frmRefused s (0x20200000 + offs.toNat) = true →
      Answers (.frmWrite who offs size v) s fun u => u.mem = s.mem ∧ u.ans = some .err ∧ Raises u 1162 ∧
        getF u 0x91 R.FRMC.MISS.WREJ = satInc 65535 (getF s 0x91 R.FRMC.MISS.WREJ)) ∧
    (MayWrite s who 0x91 0x100 → isSet s 0x91 R.FRMC.STAT.SWPEND = false → isSet s 0x91 R.FRMC.STAT.MIRR = false → s.frmc.play = 0 →
      Answers (.frmcArm who) s fun u => isSet u 0x91 R.FRMC.CTL.ARM = true ∧ isSet u 0x91 R.FRMC.STAT.ARMED = true ∧ u.applied = s.applied ∧ u.mem = s.mem ∧ u.due = s.due) ∧
    (busRuns s = true → cfg s 0x91 R.FRMC.CFG.TRIG = kind.val → (kind.val = 2 → swapTimeReached (setNow s now.toNat) = true ∧ isSet s 0x0D R.TBS.STAT.EXCL = false) → blockOff s 0x91 = false → isSet s 0x91 R.FRMC.CTL.ARM = true →
      isSet s 0x91 R.FRMC.STAT.SWPEND = false → (∀ k, k < 9 → enabled s (consPage k) = true) → (kind.val = 1 → cfgOn s 0x91 R.FRMC.CFG.MPOL = !rise) →
      Answers (.swapTrigger ⟨kind, rise⟩ now) s fun u => isSet u 0x91 R.FRMC.STAT.SWPEND = true ∧ getF u 0x91 R.FRMC.STAT.PEND = 0x1FF ∧
        isSet u 0x91 R.FRMC.CTL.ARM = false ∧ u.frmc.target = !isSet s 0x91 R.FRMC.STAT.FRONT ∧ u.frmc.trig = max s.tbs now.toNat ∧ u.applied = s.applied ∧ u.mem = s.mem) ∧
    (busRuns s = true → cfg s 0x91 R.FRMC.CFG.TRIG = kind.val → kind.val = 1 → cfgOn s 0x91 R.FRMC.CFG.MPOL = (!rise) →
      isSet s 0x91 R.FRMC.CTL.ARM = false → s.frmc.play = 0 →
      Answers (.swapTrigger ⟨kind, rise⟩ now) s fun u => getF u 0x91 R.FRMC.MISS.LATE = satInc 65535 (getF s 0x91 R.FRMC.MISS.LATE) ∧
        u.frmc = s.frmc ∧ u.due = s.due ∧ u.mem = s.mem) ∧
    (busRuns s = true → swapTimeReached (setNow s now.toNat) = false → Answers (.swapTrigger ⟨2, rise⟩ now) s fun u => u = setNow s now.toNat) ∧
    (busRuns s = true → cfg s 0x91 R.FRMC.CFG.TRIG = 2 → swapTimeReached (setNow s now.toNat) = true →
      Answers (.swapTrigger ⟨2, rise⟩ now) s fun u => isSet u 0x91 R.FRMC.STAT.EXCL = isSet s 0x0D R.TBS.STAT.EXCL ∧
        getF u 0x91 R.FRMC.SWTIME.TIME = (if cfg s 0x91 R.FRMC.SWPER.PER = 0 then getF s 0x91 R.FRMC.SWTIME.TIME
          else (getF s 0x91 R.FRMC.SWTIME.TIME + cfg s 0x91 R.FRMC.SWPER.PER) % 2 ^ 32) ∧
        (isSet s 0x0D R.TBS.STAT.EXCL = true → isSet u 0x91 R.FRMC.STAT.SWPEND = isSet s 0x91 R.FRMC.STAT.SWPEND)) ∧
    (running s = true → cfg s 0x91 R.FRMC.CFG.TRIG = 1 → cfgOn s 0x91 R.FRMC.CFG.MPOL = rise → Answers (.swapTrigger ⟨1, rise⟩ now) s fun u =>
      u.regs = s.regs ∧ u.frmc = s.frmc ∧ u.due = s.due ∧ u.mem = s.mem) ∧
    (busRuns s = true → isSet s 0x91 R.FRMC.STAT.MIRR = true → Answers .mirrorCopyDone s fun u =>
      isSet u 0x91 R.FRMC.STAT.MIRR = false ∧ ∀ a, memGet u.mem a =
        let back := frmBase (!isSet s 0x91 R.FRMC.STAT.FRONT)
        if back ≤ a ∧ a < back + 0x9000 then memGet s.mem (a - back + frmBase (isSet s 0x91 R.FRMC.STAT.FRONT)) else memGet s.mem a) ∧
    (MayWrite s who 0x91 0x11C → cfg s 0x91 R.FRMC.ALEN.NFRM ≠ 0 → blockOff s 0x91 = false → isSet s 0x91 R.FRMC.STAT.SWPEND = false →
      isSet s 0x91 R.FRMC.STAT.MIRR = false → Answers (.playerStart who) s fun u => u.frmc.play = 2 ∧
        getF u 0x91 R.FRMC.AFRM.IDX = 0 ∧ isSet u 0x91 R.FRMC.STAT.PLAY = true ∧ u.mem = s.mem) ∧
    (MayWrite s who 0x91 0x11C → Answers (.playerStop who) s fun u =>
      (s.frmc.play = 2 → u.frmc = { s.frmc with stop := true } ∧ u.regs = s.regs) ∧
        (s.frmc.play ≠ 2 → u.frmc.play = 0 ∧ isSet u 0x91 R.FRMC.STAT.PLAY = false) ∧ u.mem = s.mem) ∧
    (busRuns s = true → s.frmc.play = 2 → s.frmc.stop = false →
      playReadable s ((cfg s 0x91 R.FRMC.ASRC.ADDR + getF s 0x91 R.FRMC.AFRM.IDX * cfg s 0x91 R.FRMC.ASTR.STRIDE) % 2 ^ 32) (cfg s 0x91 R.FRMC.ALEN.FLEN) = true →
      (∀ c, xspCs s ((cfg s 0x91 R.FRMC.ASRC.ADDR + getF s 0x91 R.FRMC.AFRM.IDX * cfg s 0x91 R.FRMC.ASTR.STRIDE) % 2 ^ 32) = some c → xspBusy s c.1 = false) →
      Answers (.playerCopyDone true) s fun u =>
      u.frmc.play = 3 ∧ isSet u 0x91 R.FRMC.CTL.ARM = true ∧
        let src := extBase + (cfg s 0x91 R.FRMC.ASRC.ADDR + getF s 0x91 R.FRMC.AFRM.IDX * cfg s 0x91 R.FRMC.ASTR.STRIDE) % 2 ^ 32
        let dst := frmBase (!isSet s 0x91 R.FRMC.STAT.FRONT) + cfg s 0x91 R.FRMC.ADST.DOFF
        ∀ a, memGet u.mem a =
          if dst ≤ a ∧ a < dst + cfg s 0x91 R.FRMC.ALEN.FLEN then memGet s.mem (src + (a - dst)) else memGet s.mem a) ∧
    (busRuns s = true → s.frmc.play = 2 → (∀ c, xspCs s ((cfg s 0x91 R.FRMC.ASRC.ADDR + getF s 0x91 R.FRMC.AFRM.IDX * cfg s 0x91 R.FRMC.ASTR.STRIDE) % 2 ^ 32) = some c → xspBusy s c.1 = false) →
      Answers (.playerCopyDone false) s fun u =>
      u.frmc.play = 0 ∧ Raises u 1161 ∧ u.mem = s.mem) ∧
    (MayWrite s who 0x91 0x120 → Answers (.frmcClrMiss who) s fun u => rd u 0x91 0x10C = 0 ∧ u.applied = s.applied ∧ u.mem = s.mem ∧ u.due = s.due)

/-- The ports of the pixel chains (11, R257 to R267). -/
def Obligations.PixelChains : Prop :=
  ∀ (s : State) (who : Who) (n : Fin 4) (v : Word) (late : Option (Fin 1024)) (now : BitVec 64), Canon s →
    (MayWrite s who (lchPage n.val) 0x100 → Answers (.lchCmdWrite who n v) s fun u => isSet u (lchPage n.val) R.LCH.CMD.ON = v.getLsbD 0 ∧
      isSet u (lchPage n.val) R.LCH.CMD.STAYON = v.getLsbD 1 ∧ u.applied = s.applied ∧ u.mem = s.mem ∧ u.lch = s.lch) ∧
    (busRuns s = true → getF s (lchPage n.val) H.CST ≠ 2 → ((lchGet s n.val).phase = 1 ∨ (lchGet s n.val).phase = 3) → (lchGet s n.val).blank = false →
      isSet s 0x91 R.FRMC.STAT.SWPEND = false → safeInForce s (105 + n.val) = false → ((lchGet s n.val).blanking && !lchWants s n.val) = false →
      frameStarts (setNow s now.toNat) (lchFrameLen (cfg s (lchPage n.val) R.LCH.CFG.FRATE)) = true →
      Answers (.chainFrameBoundary n late now) s fun u => (lchGet u n.val).phase = 2 ∧
        (lchGet u n.val).frame.length = 3 * cfg s (lchPage n.val) R.LCH.CFG.NPIX ∧
        (∀ l, late = some l → (∀ i, 3 * l.val ≤ i → (lchGet u n.val).frame.getD i 0 = 0) ∧
          (l.val < cfg s (lchPage n.val) R.LCH.CFG.NPIX → Raises u ((lchPage n.val) * 8 + 1))) ∧ u.applied = s.applied ∧ u.mem = s.mem) ∧
    (busRuns s = true → getF s (lchPage n.val) H.CST ≠ 2 → ((lchGet s n.val).phase = 1 ∨ (lchGet s n.val).phase = 3) → (lchGet s n.val).blank = true →
      isSet s 0x91 R.FRMC.STAT.SWPEND = false →
      frameStarts (setNow s now.toNat) (lchFrameLen (cfg s (lchPage n.val) R.LCH.CFG.FRATE)) = true →
      Answers (.chainFrameBoundary n late now) s fun u => (lchGet u n.val).blanking = true ∧
        (lchGet u n.val).frame = List.replicate (3 * cfg s (lchPage n.val) R.LCH.CFG.NPIX) 0 ∧ u.applied = s.applied ∧ u.mem = s.mem) ∧
    (busRuns s = true → (lchGet s n.val).phase = 2 → Answers (.chainFrameLatch n) s fun u =>
      getF u (lchPage n.val) R.LCH.FCNT.CNT = (getF s (lchPage n.val) R.LCH.FCNT.CNT + 1) % 2 ^ 32 ∧ isSet u (lchPage n.val) R.LCH.EVT.FDONE = true ∧
        ((lchGet s n.val).blanking = true → (lchGet u n.val).phase ≠ 2 ∧ (lchGet u n.val).phase ≠ 3) ∧ u.applied = s.applied ∧ u.mem = s.mem) ∧
    (running s = true → ((lchGet s n.val).phase = 1 ∨ (lchGet s n.val).phase = 2 ∨ (lchGet s n.val).phase = 3) →
      Answers (.chainLineShort n) s fun u => (lchGet u n.val).phase = 4 ∧ getF u (lchPage n.val) R.LCH.STAT.STATE = 4 ∧ Raises u ((lchPage n.val) * 8))

/-- The events of the inputs (12, R271 to R278). -/
def Obligations.InputEvents : Prop :=
  ∀ (s : State) (n : Fin 64) (k : Fin 16) (level ok : Bool) (code : BitVec 12), Canon s →
    (running s = true → swiRaw s n.val ≠ level → Answers (.switchInputRawChange n level) s fun u => swiRaw u n.val = level ∧
      u.swiPins.testBit n.val = level ∧ (cfg s 0x1C (R.SWI.CFG.DEB n.val) ≠ 0 → u.swiDeb.testBit n.val = true ∧ swiState u n.val = swiState s n.val) ∧
      (cfg s 0x1C (R.SWI.CFG.DEB n.val) = 0 → blockOff s 0x1C = false → swiState u n.val = (level ^^ cfgOn s 0x1C (R.SWI.CFG.INV n.val))) ∧ u.applied = s.applied ∧ u.mem = s.mem) ∧
    (running s = false → Answers (.switchInputRawChange n level) s fun u => u.swiPins.testBit n.val = level ∧ u.regs = s.regs ∧ u.due = s.due) ∧
    (running s = true → s.swiDeb.testBit n.val = true → blockOff s 0x1C = false → Answers (.debounceExpiry n) s fun u =>
      let v := swiRaw s n.val ^^ cfgOn s 0x1C (R.SWI.CFG.INV n.val)
      swiState u n.val = v ∧ u.swiDeb.testBit n.val = false ∧
        (v ≠ swiState s n.val → (rd u 0x1C (0x110 + 4 * (n.val / 32))).getLsbD (n.val % 32) = true) ∧ u.applied = s.applied ∧ u.mem = s.mem) ∧
    (running s = true → s.swiClean.testBit n.val = true → Answers (.cleaningPulseEnd n ok) s fun u => u.swiClean.testBit n.val = false ∧
      (ok = false → Raises u 225) ∧ (ok = true → u.due = s.due) ∧ u.regs = s.regs) ∧
    (running s = true → msqFresh s .switchAnalog = false → Answers (.analogueComparatorSample k code) s fun u => u = s) ∧
    (running s = true → msqFresh s .switchAnalog = true → s.anaDone.testBit k.val = false → Answers (.analogueComparatorSample k code) s fun u => getF u 0x1C (R.SWI.AVAL.CODE k.val) = code.toNat ∧
      isSet u 0x1C (R.SWI.AVAL.VALID k.val) = true ∧ u.anaDone.testBit k.val = true ∧ u.applied = s.applied ∧ u.mem = s.mem ∧ (rd u 0x1C 0x118).getLsbD k.val =
        if cfg s 0x1C (R.SWI.ATH.HI k.val) ≤ code.toNat then true
        else if code.toNat ≤ cfg s 0x1C (R.SWI.ATH.LO k.val) then false else (rd s 0x1C 0x118).getLsbD k.val) ∧
    (running s = true → s.anaDone.testBit k.val = true → Answers (.analogueComparatorSample k code) s fun u => u = s) ∧
    ((running s = true ∨ s.mode = .watch) → Answers (.inputOvervoltage n) s fun u => Raises u 224 ∧ u.regs = s.regs ∧ u.mem = s.mem)

/-- Reflex timers and latches, the governor and its log (12, R281 to R291). -/
def Obligations.ReflexAndGovernor : Prop :=
  ∀ (s : State) (who : Who) (r : Fin 128) (w : Fin 4) (v : Word) (m : LossSamples), Canon s →
    (running s = true → s.rfxRun.testBit r.val = true → rfxInhibited s r.val = false → Answers (.reflexPulseExpiry r) s fun u => u.rfxRun.testBit r.val = false ∧ u.dirty = true ∧ u.regs = s.regs) ∧
    (MayWrite s who 0x1D (0x110 + 4 * w.val) → Answers (.rfxTglClear who w v) s fun u =>
      rd u 0x1D (0x110 + 4 * w.val) = rd s 0x1D (0x110 + 4 * w.val) &&& ~~~ v ∧ u.dirty = true ∧ u.applied = s.applied ∧ u.mem = s.mem) ∧
    (MayWrite s who 0x1D (0x120 + 4 * w.val) → Answers (.rfxInhWrite who w v) s fun u =>
      rd u 0x1D (0x120 + 4 * w.val) = v ∧ u.dirty = true ∧ u.applied = s.applied ∧ u.mem = s.mem) ∧
    (running s = true → msTick s 1 = false → Answers (.governorTick m) s fun u => u = s) ∧
    (running s = true → msTick s 1 = true → getF s 0x1F H.CST ≠ 2 → Answers (.governorTick m) s fun u => getF u 0x1F R.GOV.PPKG.P = min 4095 (pkgLoss s m / 10000) ∧
      isSet u 0x1F R.GOV.STAT.PKG = decide (govCfg s R.GOV.BUDP.BUDPKG * 10000 < pkgLoss s m) ∧
      (∀ d, d < 4 → getF u 0x1F (R.GOV.PDIE.P d) = min 4095 (dieLoss s d (govTrim s d) m / 10000)) ∧
      (∀ n, (hscGet u n).qAcc = 0) ∧ u.applied = s.applied ∧ u.mem = s.mem) ∧
    (∀ e rest, MayRead s who 0x1F → s.govLog = e :: rest → rest.length < 64 → Answers (.govLogPop who) s fun u =>
      u.govLog = rest ∧ u.ans = some (.val e.2) ∧ getF u 0x1F R.GOV.LOGN.N = rest.length) ∧
    (MayRead s who 0x1F → s.govLog = [] → Answers (.govLogPop who) s fun u => u = { s with ans := some (.val 0) })

/-- The event fabric and the timebase (13, R302 to R308). -/
def Obligations.EventsAndTimebase : Prop :=
  ∀ (s : State) (who : Who) (v : Word) (k : Fin 4) (j : Fin 2) (now : BitVec 64), Canon s →
    (MayWrite s who 0x0E 0x100 → Answers (.evfRaise who v) s fun u =>
      (∀ i, i < 16 → v.getLsbD i = true → ∀ p ∈ corePages, (rd u p 0x108).getLsbD i = true) ∧
      (v.toNat / 65536 ≠ 0 → isSet u 0x0E R.EVF.STAT.SEVREJ = true ∧ Raises u 113) ∧ u.applied = s.applied ∧ u.mem = s.mem) ∧
    (MayRead s who 0x0E → Answers (.evfOvrRead who j) s fun u => u.ans = some (.val (rd s 0x0E (0x108 + 4 * j.val))) ∧
      rd u 0x0E (0x108 + 4 * j.val) = 0 ∧ u.applied = s.applied ∧ u.mem = s.mem ∧ u.due = s.due) ∧
    (busLost s = false → MayWrite s who 0x0D 0x100 → Answers (.tbsCapture who now) s fun u => u.tbs = max s.tbs now.toNat ∧
      getF u 0x0D R.TBS.CAPL.CNT = u.tbs % 2 ^ 32 ∧ getF u 0x0D R.TBS.CAPH.CNT = u.tbs / 2 ^ 32 % 2 ^ 32 ∧ isSet u 0x0D R.TBS.CAP.VALID = true ∧ u.applied = s.applied ∧ u.mem = s.mem) ∧
    (MayWrite s who 0x0D (0x120 + 4 * k.val) → Answers (.tbsCmpWrite who k v) s fun u => getF u 0x0D (R.TBS.CMP.TIME k.val) = v.toNat ∧
      u.tb.armed.testBit k.val = true ∧ u.applied = s.applied ∧ u.mem = s.mem) ∧
    (busRuns s = true → sysLost s = false → s.crossed.testBit (20 + k.val) = false → s.tb.armed.testBit k.val = true → tbsReached (setNow s now.toNat) (getF s 0x0D (R.TBS.CMP.TIME k.val)) = true →
      Answers (.tbsCompare k now) s fun u => (∀ p ∈ corePages, (rd u p 0x108).getLsbD (20 + k.val) = true) ∧
        (cfg s 0x0D (R.TBS.CMPPER.PER k.val) = 0 → u.tb.armed.testBit k.val = false) ∧
        (cfg s 0x0D (R.TBS.CMPPER.PER k.val) ≠ 0 → u.tb = s.tb ∧ getF u 0x0D (R.TBS.CMP.TIME k.val) =
          (getF s 0x0D (R.TBS.CMP.TIME k.val) + cfg s 0x0D (R.TBS.CMPPER.PER k.val)) % 2 ^ 32)) ∧
    (busRuns s = false → Answers (.tbsCompare k now) s fun u => u = s) ∧
    (busRuns s = false → Answers .beaconTimeout s fun u => u = s) ∧
    (busRuns s = true → tbsWorker s = true → Answers .beaconTimeout s fun u => isSet u 0x0D R.TBS.STAT.EXCL = true ∧ Raises u 104 ∧ u.mem = s.mem)

/-- DMA and the mailboxes (13, R309 to R312). -/
def Obligations.DmaAndMailboxes : Prop :=
  ∀ (s : State) (who : Who) (c : Fin 16) (m : Fin 4) (out : Bool) (v : Word), Canon s →
    (MayWrite s who 0x0F (0x100 + 16 * c.val) → blockOff s 0x0F = false → cfgOn s 0x0F (R.DMA.CFG.EN c.val) = true →
      isSet s 0x0F (R.DMA.STAT.BUSY c.val) = false → Answers (.dmaStart who c) s fun u => isSet u 0x0F (R.DMA.STAT.BUSY c.val) = true ∧
        isSet u 0x0F (R.DMA.STAT.WAIT c.val) = false ∧ (isSet s 0x0F (R.DMA.STAT.WAIT c.val) = false →
          getF u 0x0F (R.DMA.STAT.BLEFT c.val) = cfg s 0x0F (R.DMA.CNT.NBLK c.val)) ∧ u.mem = s.mem) ∧
    (MayWrite s who 0x0F (0x100 + 16 * c.val) → Answers (.dmaStop who c) s fun u => isSet u 0x0F (R.DMA.STAT.BUSY c.val) = false ∧
      isSet u 0x0F (R.DMA.STAT.WAIT c.val) = false ∧ u.dmaHeld.testBit c.val = false ∧ u.mem = s.mem) ∧
    (running s = true → isSet s 0x0F (R.DMA.STAT.BUSY c.val) = true → s.dmaHeld.testBit c.val = false → Answers (.dmaTrigger c) s fun u =>
      u.dmaHeld.testBit c.val = true ∧ u.regs = s.regs ∧ u.mem = s.mem ∧ u.due = s.due) ∧
    (running s = true → isSet s 0x0F (R.DMA.STAT.BUSY c.val) = true → s.dmaHeld.testBit c.val = true → Answers (.dmaTrigger c) s fun u =>
      isSet u 0x0F (R.DMA.STAT.TOVR c.val) = true ∧ Raises u 121 ∧ u.mem = s.mem) ∧
    (running s = true → isSet s 0x0F (R.DMA.STAT.BUSY c.val) = false → blockOff s 0x0F = false → cfgOn s 0x0F (R.DMA.CFG.EN c.val) = true →
      Answers (.dmaTrigger c) s fun u => isSet u 0x0F (R.DMA.STAT.BUSY c.val) = true ∧ isSet u 0x0F (R.DMA.STAT.WAIT c.val) = false ∧ u.mem = s.mem) ∧
    (∀ w t a b, running s = true → sysLost s = false → isSet s 0x0F (R.DMA.STAT.BUSY c.val) = true → kindWho (storeGet seqDefault s.committer 0x0F) = some w →
      dmaWords w (if cfgOn s 0x0F (R.DMA.CFG.SINC c.val) then 4 else 0) (if cfgOn s 0x0F (R.DMA.CFG.DINC c.val) then 4 else 0)
        (if storeGet seqDefault s.dmaLeft c.val = 0 then cfg s 0x0F (R.DMA.CNT.BLK c.val) else storeGet seqDefault s.dmaLeft c.val)
        (winSet s 16 (winHeld s (17 + c.val))) (storeGet (fun _ => 0) s.dmaSrc c.val) (storeGet (fun _ => 0) s.dmaDst c.val) = (t, .moved a b) →
      isSet t 0x0F (R.DMA.STAT.BUSY c.val) = true → storeWf regReset t.regs = true → t.applied = s.applied → t.dmaHeld.testBit c.val = false →
      Answers (.dmaBlockDone c) s fun u =>
        (getF t 0x0F (R.DMA.STAT.BLEFT c.val) - 1 ≠ 0 → getF u 0x0F (R.DMA.STAT.BLEFT c.val) = getF t 0x0F (R.DMA.STAT.BLEFT c.val) - 1 ∧
          isSet u 0x0F (R.DMA.STAT.BUSY c.val) = false ∧ isSet u 0x0F (R.DMA.STAT.WAIT c.val) = true) ∧
        (getF t 0x0F (R.DMA.STAT.BLEFT c.val) - 1 = 0 → isSet u 0x0F (R.DMA.STAT.DONE c.val) = true) ∧ u.mem = t.mem) ∧
    (MayWrite s who 0xB0 (0x140 + 256 * m.val + 128 * out.toNat) → whoOutside who = !out → blockOff s 0xB0 = false →
      (cfg s 0xB0 R.MBX.CFG.EN).testBit m.val = true → (rd s 0xB0 (0x148 + 256 * m.val + 128 * out.toNat)).getLsbD 31 = false →
      v.toNat % 32 ≠ 0 → v.toNat % 32 ≤ 16 → Answers (.mbxBell who m out v) s fun u =>
        rd u 0xB0 (0x148 + 256 * m.val + 128 * out.toNat) =
          BitVec.ofNat 32 (2 ^ 31 + whoKind who * 2 ^ 20 + whoAddr who * 2 ^ 10 + v.toNat % 32) ∧ u.mem = s.mem) ∧
    (MayRead s who 0xB0 → whoOutside who = out → (rd s 0xB0 (0x148 + 256 * m.val + 128 * out.toNat)).getLsbD 31 = true →
      Answers (.mbxTake who m out) s fun u => u.ans = some (.val (rd s 0xB0 (0x148 + 256 * m.val + 128 * out.toNat))) ∧
        (rd u 0xB0 (0x148 + 256 * m.val + 128 * out.toNat)).getLsbD 31 = false ∧ u.mem = s.mem)

/-- The links and lanes of the ring (15, R338 to R357). -/
def Obligations.RingLink : Prop :=
  ∀ (s : State) (who : Who) (b eof room : Bool) (f : RingFrame) (bytes : List Byte) (st : Byte) (res round v : Word) (sub : BitVec 16), Canon s →
    (jxrActive s = true → (eof = false ∨ frameRead bytes = none) → Answers (.frameForward b bytes ⟨eof, room⟩ res) s fun u =>
      getF u 0x0B R.JXR.ERRC.CRC = satInc 65535 (getF s 0x0B R.JXR.ERRC.CRC) ∧
        (if b ^^ hopBroken s b then u.jxr.outB else u.jxr.outA) = .aborted ∧ u.applied = s.applied ∧ u.mem = s.mem) ∧
    (jxrActive s = true → frameRead bytes = some f → f.hop = 2047 → Answers (.frameForward b bytes ⟨true, room⟩ res) s fun u =>
      getF u 0x0B R.JXR.ERRC2.TTL = satInc 65535 (getF s 0x0B R.JXR.ERRC2.TTL) ∧
        (if b ^^ hopBroken s b then u.jxr.outB else u.jxr.outA) = .aborted ∧ u.applied = s.applied ∧ u.mem = s.mem) ∧
    (jxrActive s = true → frameRead bytes = some f → f.hop ≠ 2047 → f.nb = false → f.bc = false →
      (isSet s 0x0B R.JXR.ADDR.VALID = true → f.dst.toNat ≠ jxrSelf s ∨ 9 ≤ f.ty.toNat) →
      (isSet s 0x0B R.JXR.ADDR.VALID = true → f.src.toNat ≠ jxrSelf s ∨ jxrRound s b f.wcnt = false) → hopBroken s b = false →
      Answers (.frameForward b bytes ⟨true, room⟩ res) s fun u => (if b then u.jxr.outB else u.jxr.outA) =
        .frame (frameBytes (frameDelay { f with hop := f.hop + 1 } (res.toNat + hopDelay s b))) ∧ u.regs = s.regs ∧ u.applied = s.applied ∧ u.mem = s.mem) ∧
    (jxrActive s = true → frameRead bytes = some f → f.hop ≠ 2047 → f.nb = false → f.bc = false →
      (isSet s 0x0B R.JXR.ADDR.VALID = true → f.dst.toNat ≠ jxrSelf s ∨ 9 ≤ f.ty.toNat) →
      (isSet s 0x0B R.JXR.ADDR.VALID = true → f.src.toNat ≠ jxrSelf s ∨ jxrRound s b f.wcnt = false) → hopBroken s b = true →
      Answers (.frameForward b bytes ⟨true, room⟩ res) s fun u => (if b then u.jxr.outA else u.jxr.outB) =
        .frame (frameBytes (frameDelay { f with hop := f.hop + 1, wcnt := f.wcnt + 1 } (res.toNat + hopDelay s (!b)))) ∧ u.regs = s.regs ∧ u.applied = s.applied ∧ u.mem = s.mem) ∧
    (jxrActive s = true → frameRead bytes = some f → f.hop ≠ 2047 → f.nb = false → f.bc = true →
      (isSet s 0x0B R.JXR.ADDR.VALID = true → f.src.toNat ≠ jxrSelf s ∨ jxrRound s b f.wcnt = false) → hopBroken s b = false →
      Answers (.frameForward b bytes ⟨true, room⟩ res) s fun u => (if b then u.jxr.outB else u.jxr.outA) =
        .frame (frameBytes (frameDelay { f with hop := f.hop + 1 } (res.toNat + hopDelay s b))) ∧
        ((room = true ∨ 9 ≤ f.ty.toNat) → u.regs = s.regs) ∧
        (room = false → f.ty.toNat < 9 → getF u 0x0B R.JXR.ERRC2.RXOVF = satInc 65535 (getF s 0x0B R.JXR.ERRC2.RXOVF)) ∧ u.applied = s.applied ∧ u.mem = s.mem) ∧
    (jxrActive s = true → frameRead bytes = some f → f.hop ≠ 2047 → f.nb = false → f.bc = true → isSet s 0x0B R.JXR.ADDR.VALID = true →
      f.src.toNat = jxrSelf s → jxrRound s b f.wcnt = true → Answers (.frameForward b bytes ⟨true, room⟩ res) s fun u => u = s) ∧
    (∀ (o : BrgOut), jxrActive s = true → frameRead bytes = some f → f.hop ≠ 2047 → f.nb = false → f.bc = false → isSet s 0x0B R.JXR.ADDR.VALID = true →
      f.dst.toNat ≠ jxrSelf s → f.src.toNat = jxrSelf s → jxrRound s b f.wcnt = true → s.upd.await = none → s.jxr.enumPh ≠ 1 →
      brgMatch s f.dst.toNat f.seq.toNat = some o → o.req.dest ≠ 33 → getF s 0x0A R.BRG.ELOGN.N < 16 →
      Answers (.frameForward b bytes ⟨true, room⟩ res) s fun u => getF u 0x0A R.BRG.ELOGN.N = getF s 0x0A R.BRG.ELOGN.N + 1 ∧ Raises u 80 ∧
        u.brg.outst = s.brg.outst.filter (fun e => !(e.req.dev = f.dst.toNat && e.seq = f.seq.toNat)) ∧ u.jxr = s.jxr ∧ u.applied = s.applied ∧ u.mem = s.mem) ∧
    (jxrActive s = true → frameRead bytes = some f → f.hop ≠ 2047 → f.nb = false → f.bc = false → isSet s 0x0B R.JXR.ADDR.VALID = true →
      f.dst.toNat ≠ jxrSelf s → f.src.toNat = jxrSelf s → jxrRound s b f.wcnt = true → s.upd.await = none →
      brgMatch s f.dst.toNat f.seq.toNat = none → Answers (.frameForward b bytes ⟨true, room⟩ res) s fun u => u = s) ∧
    (jxrActive s = true → frameRead bytes = some f → f.hop ≠ 2047 → f.nb = false → f.bc = false → isSet s 0x0B R.JXR.ADDR.VALID = true →
      f.dst.toNat = jxrSelf s → f.ty.toNat < 9 → room = true → Answers (.frameForward b bytes ⟨true, room⟩ res) s fun u => u = s) ∧
    (jxrActive s = true → frameRead bytes = some f → f.hop ≠ 2047 → f.nb = false → f.bc = false → isSet s 0x0B R.JXR.ADDR.VALID = true →
      f.dst.toNat = jxrSelf s → isRequest f.ty.toNat = true → room = false → Answers (.frameForward b bytes ⟨true, room⟩ res) s fun u =>
        u.jxr.queue = s.jxr.queue ++ [(false, jxrFrame s f.src.toNat 3 f.seq.toNat false false (errData 4 (bytesToNat (f.data.take 4))))] ∧
        getF u 0x0B R.JXR.ERRC2.RXOVF = satInc 65535 (getF s 0x0B R.JXR.ERRC2.RXOVF) ∧ u.applied = s.applied ∧ u.mem = s.mem) ∧
    (f.data.length ≤ 256 → frameRead (frameBytes f) = some f) ∧
    (∀ (g : RingFrame) (rest : List (Bool × RingFrame)), jxrActive s = true → distBusy s = false → s.jxr.queue = (b, g) :: rest → hopBroken s b = false →
      Answers (.frameOriginate ⟨true, res⟩) s fun u => u.jxr.queue = rest ∧
        (if b then u.jxr.outB else u.jxr.outA) = .frame (frameBytes (frameDelay g res.toNat)) ∧ u.regs = s.regs ∧ u.applied = s.applied ∧ u.mem = s.mem) ∧
    (∀ (g : RingFrame) (rest : List (Bool × RingFrame)), jxrActive s = true → distBusy s = false → s.jxr.queue = (b, g) :: rest → hopBroken s b = true →
      hopBroken s (!b) = false → g.nb = false → Answers (.frameOriginate ⟨true, res⟩) s fun u => u.jxr.queue = rest ∧
        (if b then u.jxr.outA else u.jxr.outB) = .frame (frameBytes (frameDelay g res.toNat)) ∧ u.regs = s.regs ∧ u.applied = s.applied ∧ u.mem = s.mem) ∧
    (jxrActive s = true → distBusy s = false → (s.jxr.evtOne = true ∨ ∀ e ∈ s.jxr.queue, e.2.ty ≠ 4) → Answers (.frameOriginate ⟨false, res⟩) s fun u => u = s) ∧
    (jxrActive s = true → nmgOn s = false → Answers (.inputLocked b) s fun u => isSet u 0x0B (if b then R.JXR.STAT.LOCKB else R.JXR.STAT.LOCKA) = true ∧ u.applied = s.applied ∧ u.mem = s.mem) ∧
    (jxrActive s = true → nmgOn s = false → (if b then s.jxr.lostB else s.jxr.lostA) = false → Answers (.inputLost b) s fun u => isSet u 0x0B (if b then R.JXR.STAT.LOCKB else R.JXR.STAT.LOCKA) = false ∧
      Raises u (0x0B * 8 + b.toNat) ∧ (if b then u.jxr.wrapDown else u.jxr.wrapUp) = true ∧ (if b then u.jxr.stA else u.jxr.stB).getLsbD 0 = true ∧
      isSet u 0x0B R.JXR.STAT.WRAPN = true ∧ u.applied = s.applied ∧ u.mem = s.mem) ∧
    (jxrActive s = true → Answers (.heartbeat b st) s fun u => (if b then u.jxr.hbB else u.jxr.hbA) = st ∧
      (st.getLsbD 0 = true → (if b then u.jxr.wrapDown else u.jxr.wrapUp) = true ∧ isSet u 0x0B R.JXR.STAT.WRAPN = true) ∧ u.applied = s.applied ∧ u.mem = s.mem) ∧
    (jxrActive s = true → cfgOn s 0x0B R.JXR.CFG.AUTOUNW = true → isSet s 0x0B R.JXR.STAT.LOCKA = true → s.jxr.hbA.getLsbD 0 = false →
      Answers .unwrap s fun u => u.jxr.wrapUp = false ∧ u.applied = s.applied ∧ u.mem = s.mem) ∧
    (jxrActive s = true → Answers (.hopreq b res) s fun u =>
      u.jxr.queue = s.jxr.queue ++ [(!b, jxrFrame s 0x3FF 5 0 false true ([2, 0, 0, 0] ++ natToBytes 4 res.toNat))] ∧ u.regs = s.regs ∧ u.applied = s.applied ∧ u.mem = s.mem) ∧
    (jxrActive s = true → Answers (.hoprsp b round res) s fun u =>
      (rd u 0x0B (if b then 0x10C else 0x108)).getLsbD 31 = true ∧
      fget (rd u 0x0B (if b then 0x10C else 0x108)) R.JXR.HOPA.LD = min 65535 ((round.toNat - res.toNat) / 2) ∧ u.applied = s.applied ∧ u.mem = s.mem ∧ u.due = s.due) ∧
    (jxrActive s = true → Answers .hopMeasurement s fun u =>
      u.jxr.queue = s.jxr.queue ++ [(false, jxrFrame s 0x3FF 5 0 false true [1, 0, 0, 0]), (true, jxrFrame s 0x3FF 5 0 false true [1, 0, 0, 0])] ∧
      u.regs = s.regs ∧ u.applied = s.applied ∧ u.mem = s.mem) ∧
    (MayWrite s who 0x0B 0x120 → jxrActive s = true → Answers (.jxrCtlMeas who) s fun u =>
      u.jxr.queue = s.jxr.queue ++ [(false, jxrFrame s 0x3FF 5 0 false true [1, 0, 0, 0]), (true, jxrFrame s 0x3FF 5 0 false true [1, 0, 0, 0])] ∧
      u.regs = s.regs ∧ u.applied = s.applied ∧ u.mem = s.mem) ∧
    (MayWrite s who 0x0B 0x120 → jxrActive s = true → Answers (.jxrCtlHorn who) s fun u => u.jxr.outA = .horn ∧ u.jxr.outB = .horn ∧ u.regs = s.regs ∧ u.applied = s.applied ∧ u.mem = s.mem) ∧
    (jxrActive s = true → s.park = .none → Answers (.hornAbsorbed b v sub) s fun u =>
      getF u 0x0B R.JXR.WCNT.HORNRX = satInc 65535 (getF s 0x0B R.JXR.WCNT.HORNRX) ∧ u.applied = s.applied ∧ u.mem = s.mem ∧ u.due = s.due) ∧
    (MayWrite s who 0x0B 0x134 → Answers (.jxrClr who) s fun u => rd u 0x0B 0x124 = 0 ∧ rd u 0x0B 0x128 = 0 ∧ rd u 0x0B 0x12C = 0 ∧ u.applied = s.applied ∧ u.mem = s.mem ∧ u.due = s.due)

/-- Requests that reach a device over the ring (15, R341 to R347; 21, R490); `jxrDup s 0 q = (t, 0)` says that the request is new. -/
def Obligations.RingRequests : Prop :=
  ∀ (s t t1 t2 : State) (seq : BitVec 12) (src : BitVec 10) (addr : BitVec 20) (offs : Word) (ws : List Word) (l : List Byte) (n op : Byte) (c : Nat) (v x : Word), Canon s →
    (ringAddressed s = true → pageStands s (addr.toNat / 4096) = false → jxrDup s 0 seq.toNat = (t, 0) → ringBound ws.length addr.toNat = none → ringWords (.ring 0) addr.toNat ws t = (t1, none) →
      Answers (.wr 0 seq addr ws) s fun u => u = jxrRespond t1 0 seq.toNat 2 []) ∧
    (ringAddressed s = true → pageStands s (addr.toNat / 4096) = false → jxrDup s 0 seq.toNat = (t, 0) → ringBound ws.length addr.toNat = none → ringWords (.ring 0) addr.toNat ws t = (t1, some c) →
      Answers (.wr 0 seq addr ws) s fun u => u = jxrRespond t1 0 seq.toNat 3 (errData c addr.toNat)) ∧
    (ringAddressed s = true → pageStands s (addr.toNat / 4096) = false → jxrDup s 0 seq.toNat = (t, 0) → (ws.length = 0 ∨ 63 < ws.length ∨ 4096 < addr.toNat % 4096 + 4 * ws.length) →
      Answers (.wr 0 seq addr ws) s fun u => u = jxrRespond t 0 seq.toNat 3 (errData 3 addr.toNat)) ∧
    (ringAddressed s = true → pageStands s (addr.toNat / 4096) = false → jxrDup s 0 seq.toNat = (t, 0) → ringBound n.toNat addr.toNat = none → ringReads (.ring 0) n.toNat addr.toNat t [] = (t1, .ok l) →
      Answers (.rdq 0 seq addr n) s fun u => u = jxrRespond t1 0 seq.toNat 2 l ∧ l.length = 4 * n.toNat) ∧
    (ringAddressed s = true → pageStands s (addr.toNat / 4096) = false → jxrDup s 0 seq.toNat = (t, 0) → (n = 0 ∨ 63 < n.toNat ∨ 4096 < addr.toNat % 4096 + 4 * n.toNat) →
      Answers (.rdq 0 seq addr n) s fun u => u = jxrRespond t 0 seq.toNat 3 (errData 3 addr.toNat)) ∧
    (ringAddressed s = true → src ≠ 0 → Answers (.wr src seq addr ws) s fun u =>
      u = jxrQueue s false (jxrFrame s src.toNat 3 seq.toNat false false (errData 6 addr.toNat))) ∧
    (ringAddressed s = true → pageStands s (addr.toNat / 4096) = false → jxrDup s 0 seq.toNat = (t, 0) → op = 1 → ringBound 1 addr.toNat = none → ringCode t (.ring 0) (addr.toNat / 4096) 0 ≠ 1 → ringCode t (.ring 0) (addr.toNat / 4096) (writeRight (addr.toNat % 4096)) ≠ 1 →
      pageRead t (.ring 0) (addr.toNat / 4096) (addr.toNat % 4096) (0x40000000 + addr.toNat) = (t1, some x) →
      pageWrite t1 (.ring 0) (addr.toNat / 4096) (addr.toNat % 4096) (0x40000000 + addr.toNat) v = (t2, true) →
      Answers (.ringLock 0 seq addr op v) s fun u => u = jxrRespond t2 0 seq.toNat 2 (wordBytes x)) ∧
    (ringAddressed s = true → pageStands s (addr.toNat / 4096) = false → jxrDup s 0 seq.toNat = (t, 0) → op ≠ 1 → Answers (.ringLock 0 seq addr op v) s fun u => u = jxrRespond t 0 seq.toNat 3 (errData 7 addr.toNat)) ∧
    (ringAddressed s = true → jxrDup s 0 seq.toNat = (t, 0) → sysLost s = false → ws ≠ [] → ws.length ≤ 63 → offs.toNat + 4 * ws.length ≤ 0x200000 → offs.toNat % 4 = 0 → (rightsOf t 6 0x07).testBit 1 = true →
      Answers (.bulk 0 seq false offs ws) s fun u => u = jxrRespond { t with mem := memSetList t.mem (0x10400000 + offs.toNat) (ws.flatMap wordBytes) } 0 seq.toNat 2 []) ∧
    (jxrActive s = true → sysLost s = false → jxrSelf s ≠ 0 → jxrDup s 1 seq.toNat = (t, 0) → ws ≠ [] → ws.length ≤ 63 → offs.toNat + 4 * ws.length ≤ 0x200000 → offs.toNat % 4 = 0 →
      (rightsOf t 6 0x07).testBit 1 = true → Answers (.bulk 0 seq true offs ws) s fun u =>
        u = { t with mem := memSetList t.mem (0x10400000 + offs.toNat) (ws.flatMap wordBytes) }) ∧
    (ringAddressed s = true → pageStands s (addr.toNat / 4096) = true → Answers (.rdq 0 seq addr n) s fun u => u = s) ∧
    (ringAddressed s = true → pageStands s (addr.toNat / 4096) = false → jxrDup s 0 seq.toNat = (t, 0) → 1 ≤ n.toNat → n.toNat ≤ 63 → addr.toNat % 4096 + 4 * n.toNat ≤ 4096 → addr.toNat % 4 = 0 → (blkOf (addr.toNat / 4096)).isSome = true → addr.toNat / 4096 ≠ 6 →
      (rightsOf s 6 (addr.toNat / 4096)).testBit 0 = false → Answers (.rdq 0 seq addr n) s fun u =>
        u.jxr.queue = s.jxr.queue ++ [(false, jxrFrame s 0 3 seq.toNat false false (errData 1 addr.toNat))] ∧ getF u 5 R.PROT.RCNT.CNT = satInc 65535 (getF s 5 R.PROT.RCNT.CNT) ∧
        (isSet s 5 R.PROT.RSTAT.VALID = false → isSet u 5 R.PROT.RSTAT.VALID = true ∧ getF u 5 R.PROT.RSTAT.KIND = 6 ∧ isSet u 5 R.PROT.RSTAT.WR = false ∧
          getF u 5 R.PROT.RSTAT.PAGE = addr.toNat / 4096 ∧ getF u 5 R.PROT.RADDR.ADDR = 0x40000000 + addr.toNat ∧ Raises u 40) ∧ u.applied = s.applied ∧ u.mem = s.mem) ∧
    (ringAddressed s = true → pageStands s (addr.toNat / 4096) = false → jxrDup s 0 seq.toNat = (t, 0) → ws.headD 0 = v → ws ≠ [] → ws.length ≤ 63 → addr.toNat % 4096 + 4 * ws.length ≤ 4096 → addr.toNat % 4 = 0 → (blkOf (addr.toNat / 4096)).isSome = true → addr.toNat / 4096 ≠ 6 →
      (rightsOf s 6 (addr.toNat / 4096)).testBit (writeRight (addr.toNat % 4096)) = false → Answers (.wr 0 seq addr ws) s fun u =>
        u.jxr.queue = s.jxr.queue ++ [(false, jxrFrame s 0 3 seq.toNat false false (errData 1 addr.toNat))] ∧ getF u 5 R.PROT.RCNT.CNT = satInc 65535 (getF s 5 R.PROT.RCNT.CNT) ∧
        (isSet s 5 R.PROT.RSTAT.VALID = false → isSet u 5 R.PROT.RSTAT.VALID = true ∧ getF u 5 R.PROT.RSTAT.KIND = 6 ∧ isSet u 5 R.PROT.RSTAT.WR = true ∧
          getF u 5 R.PROT.RSTAT.PAGE = addr.toNat / 4096 ∧ getF u 5 R.PROT.RADDR.ADDR = 0x40000000 + addr.toNat ∧ Raises u 40) ∧ u.applied = s.applied ∧ u.mem = s.mem)

/-- Responses, errors and timeouts of the requests a manager has outstanding (15, R345, R346; 16, R365, R370). -/
def Obligations.RingResponses : Prop :=
  ∀ (s : State) (dev : BitVec 10) (seq : BitVec 12) (code : Byte) (ws : List Word) (o : BrgOut), Canon s →
    (running s = true → s.upd.await = none → brgMatch s dev.toNat seq.toNat = none → Answers (.rdp dev seq ws) s fun u => u = s) ∧
    (running s = true → s.upd.await = none → s.jxr.enumPh ≠ 1 → brgMatch s dev.toNat seq.toNat = some o → o.req.op = 1 → o.req.dest < 16 → o.req.live = true → o.req.kind < 8 → o.req.cnt < 16 → Answers (.rdp dev seq ws) s fun u =>
      slotState u o.req.dest = 2 ∧ (∀ i, i < 8 → rd u 0x0A (0x600 + 32 * o.req.dest + 4 * i) = ws.getD i 0) ∧
      u.brg.outst = s.brg.outst.filter (fun e => !(e.req.dev = dev.toNat && e.seq = seq.toNat)) ∧ u.applied = s.applied ∧ u.mem = s.mem) ∧
    (running s = true → s.upd.await = none → s.jxr.enumPh ≠ 1 → brgMatch s dev.toNat seq.toNat = some o → o.req.op ≠ 0 → 16 ≤ o.req.dest → o.req.dest < 32 → Answers (.rdp dev seq ws) s fun u =>
      storeGet bufDefault u.brg.cores (o.req.dest - 16 + 0xA0) = .data (o.req.dev * 0x100000 + o.req.addr) (ws.headD 0) ∧
      u.regs = s.regs ∧ u.applied = s.applied ∧ u.mem = s.mem) ∧
    (running s = true → s.upd.await = none → s.jxr.enumPh ≠ 1 → brgMatch s dev.toNat seq.toNat = some o → o.req.op = 1 → o.req.dest < 16 → o.req.live = true → o.req.kind < 8 → o.req.cnt < 16 → code ≠ 4 → getF s 0x0A R.BRG.ELOGN.N < 16 →
      Answers (.err dev seq code) s fun u => slotState u o.req.dest = 3 ∧ getF u 0x0A R.BRG.ELOGN.N = getF s 0x0A R.BRG.ELOGN.N + 1 ∧ Raises u 80 ∧
        u.applied = s.applied ∧ u.mem = s.mem) ∧
    (running s = true → s.upd.await = none → s.jxr.enumPh ≠ 1 → brgMatch s dev.toNat seq.toNat = some o → o.req.op = 0 → o.req.dest ≠ 33 → code ≠ 4 → getF s 0x0A R.BRG.ELOGN.N < 16 → isParkWrite o.req = false →
      cfgOn s 0x0A R.BRG.CFG.POISON = true → s.brg.poison = [] → Answers (.err dev seq code) s fun u => u.brg.poison = [(o.req.dev, o.req.addr / 4096)] ∧
        getF u 0x0A R.BRG.ELOGN.N = getF s 0x0A R.BRG.ELOGN.N + 1 ∧ Raises u 80 ∧ u.applied = s.applied ∧ u.mem = s.mem) ∧
    (jxrActive s = true → s.upd.await = none → brgMatch s dev.toNat seq.toNat = some o → o.resends < cfg s 0x0B R.JXR.CFG.RETRY → s.jxr.conflict = false →
      Answers (.requestTimeout dev seq) s fun u => u.jxr.queue = s.jxr.queue ++ [(false, brgFrame s o.req seq.toNat)] ∧ u.regs = s.regs ∧
        u.applied = s.applied ∧ u.mem = s.mem) ∧
    (running s = true → s.upd.await = none → s.jxr.enumPh ≠ 1 → brgMatch s dev.toNat seq.toNat = some o → o.req.dest ≠ 33 → cfg s 0x0B R.JXR.CFG.RETRY ≤ o.resends → getF s 0x0A R.BRG.ELOGN.N < 16 →
      Answers (.requestTimeout dev seq) s fun u => Raises u 94 ∧ Raises u 80 ∧ getF u 0x0A R.BRG.ELOGN.N = getF s 0x0A R.BRG.ELOGN.N + 1 ∧
        u.brg.outst = s.brg.outst.filter (fun e => !(e.req.dev = dev.toNat && e.seq = seq.toNat)) ∧ u.applied = s.applied ∧ u.mem = s.mem) ∧
    (running s = true → s.upd.await = none → brgMatch s dev.toNat seq.toNat = some o → o.req.dest = 33 → Answers (.rdp dev seq ws) s fun u =>
      storeGet seqDefault u.brg.polls o.req.dev = (ws.getD 0 0).toNat + 1 ∧ u.applied = s.applied ∧ u.mem = s.mem) ∧
    (running s = true → s.upd.await = none → brgMatch s dev.toNat seq.toNat = some o → o.req.dest = 33 → code ≠ 4 →
      storeGet seqDefault s.brg.polls o.req.dev ≠ 0 → getF s 0x0A R.BRG.ELOGN.N < 16 → Answers (.err dev seq code) s fun u =>
        storeGet seqDefault u.brg.polls o.req.dev = 0 ∧ bitOf (rd u 0x0A (0x280 + 4 * (o.req.dev / 32))) (o.req.dev % 32) = true ∧ Raises u 80 ∧
        u.applied = s.applied ∧ u.mem = s.mem)

/-- Beacons, enumeration and ring event flags (15, R348 to R353). -/
def Obligations.RingTimeAndEnumeration : Prop :=
  ∀ (s t : State) (who : Who) (src : BitVec 10) (seq : BitVec 12) (b : Bool) (hop : BitVec 11) (wcnt : BitVec 2) (res : Word) (mtime now serial : BitVec 64) (delay v : Word) (ep set clr : BitVec 16) (pos : BitVec 16) (map : BitVec 1024) (a : Nat), Canon s →
    (running s = true → jxrActive s = true → jxrRole s = 2 → isSet s 0x0B R.JXR.ADDR.VALID = true → jxrSelf s ≠ src.toNat → busLost s = false → jxrDup (setNow s now.toNat) (1 + src.toNat) seq.toNat = (t, 0) →
      Answers (.beacon src seq mtime delay ep now) s fun u => getF u 0x0B R.JXR.PATH.DELAY = delay.toNat ∧ u.tbs = max s.tbs now.toNat ∧ u.applied = s.applied ∧ u.mem = s.mem) ∧
    (running s = true → jxrActive s = true → jxrRole s = 1 → src.toNat = jxrSelf s → busLost s = false → s.tbs ≤ now.toNat →
      Answers (.beacon src seq mtime delay ep now) s fun u => getF u 0x0B R.JXR.LOOP.LOOP = ((now.toNat - mtime.toNat) * 100 - s.jxr.bcnWait) % 2 ^ 32 ∧
      u.tbs = now.toNat ∧ u.applied = s.applied ∧ u.mem = s.mem) ∧
    (jxrActive s = true → jxrRole s = 1 → s.jxr.conflict = false → busLost s = false → max s.tbs now.toNat % 80000 = 0 → Answers (.beaconSend now) s fun u =>
      u.jxr.queue.dropLast = s.jxr.queue ∧ (u.jxr.queue.getLast?.map fun e => (e.1, e.2.ty, e.2.bc, e.2.data)) = some (false, 5, true,
        [0, 0, 0, 0] ++ natToBytes 8 (max s.tbs now.toNat) ++ natToBytes 4 0 ++ natToBytes 2 (cfg s 0x0A R.BRG.SYSEP.SYSEP) ++ [0, 0]) ∧
      u.regs = s.regs ∧ u.applied = s.applied ∧ u.mem = s.mem) ∧
    (jxrActive s = true → jxrRole s = 2 → isSet s 0x0B R.JXR.ADDR.VALID = false → cfgOn s 0x0B R.JXR.PIN.EN = false → pos.toNat + 1 < 1024 →
      s.jxr.enumLast ≠ 4096 + seq.toNat + 1 → hopBroken s b = false → Answers (.enum ⟨b, hop, wcnt, res, src⟩ seq 1 serial mtime delay pos map now) s fun u =>
        getF u 0x0B R.JXR.ADDR.POS = pos.toNat + 1 ∧ isSet u 0x0B R.JXR.ADDR.VALID = false ∧ u.jxr.took = false ∧
        (if b then u.jxr.outB else u.jxr.outA) = .frame (frameBytes (frameDelay (⟨0x3FF, src, 5, true, false, wcnt, seq, hop + 1,
          enumData 1 serial.toNat mtime.toNat delay.toNat (pos.toNat + 1) map.toNat⟩) (res.toNat + hopDelay s b))) ∧ u.applied = s.applied ∧ u.mem = s.mem) ∧
    (jxrActive s = true → jxrRole s = 2 → isSet s 0x0B R.JXR.ADDR.VALID = false → s.jxr.pinErr = false → lowestFree map.toNat = some a →
      s.jxr.enumLast ≠ 8192 + seq.toNat + 1 → hopBroken s b = false → Answers (.enum ⟨b, hop, wcnt, res, src⟩ seq 2 serial mtime delay pos map now) s fun u =>
        getF u 0x0B R.JXR.ADDR.ADDR = a ∧ isSet u 0x0B R.JXR.ADDR.VALID = true ∧
        (if b then u.jxr.outB else u.jxr.outA) = .frame (frameBytes (frameDelay (⟨0x3FF, src, 5, true, false, wcnt, seq, hop + 1,
          enumData 2 serial.toNat mtime.toNat delay.toNat pos.toNat (map.toNat ||| 2 ^ a)⟩) (res.toNat + hopDelay s b))) ∧ u.applied = s.applied ∧ u.mem = s.mem) ∧
    (MayWrite s who 0x0B 0x120 → jxrActive s = true → jxrRole s = 1 → s.jxr.conflict = false → requestsOut s = false → Answers (.jxrCtlEnum who) s fun u =>
      u.jxr.enumPh = 2 ∧ (u.jxr.queue.getLast?.map fun e => e.2.data) = some (enumData 1 Config.serial.toNat s.tbs 0 0 1) ∧ u.regs = s.regs ∧ u.applied = s.applied ∧ u.mem = s.mem) ∧
    (jxrActive s = true → jxrRole s = 1 → s.jxr.conflict = false → requestsOut s = false → cfgOn s 0x0B R.JXR.CFG.AUTOENUM = true →
      isSet s 0x0B R.JXR.STAT.LOCKA = true → isSet s 0x0B R.JXR.STAT.LOCKB = true → Answers .autoEnum s fun u =>
      u.jxr.enumPh = 2 ∧ (u.jxr.queue.getLast?.map fun e => e.2.data) = some (enumData 1 Config.serial.toNat s.tbs 0 0 1) ∧ u.regs = s.regs ∧ u.applied = s.applied ∧ u.mem = s.mem) ∧
    (running s = true → jxrActive s = true → (isSet s 0x0B R.JXR.ADDR.VALID = true → jxrSelf s ≠ src.toNat) → jxrDup s (1 + src.toNat) seq.toNat = (t, 0) →
      Answers (.evt src seq set clr) s fun u => (∀ i, i < 16 → (rd u 0x0B 0x118).getLsbD i =
        (set.getLsbD i || ((rd s 0x0B 0x118).getLsbD i && !clr.getLsbD i))) ∧ u.applied = s.applied ∧ u.mem = s.mem) ∧
    (MayWrite s who 0x0B 0x11C → jxrActive s = true → isSet s 0x0B R.JXR.ADDR.VALID = true → Answers (.jxrEvtx who v) s fun u =>
      (∀ i, i < 16 → (rd u 0x0B 0x118).getLsbD i = (v.getLsbD i || ((rd s 0x0B 0x118).getLsbD i && !v.getLsbD (16 + i)))) ∧
      u.jxr.evtCopy.dropLast = s.jxr.evtCopy ∧ u.jxr.queue.getLast? = u.jxr.evtCopy.getLast?.map (fun f => (false, f)) ∧
      u.jxr.evtCopy.getLast?.map (fun f => f.ty) = some 4 ∧ u.applied = s.applied ∧ u.mem = s.mem) ∧
    (∀ (f : RingFrame) (l : List RingFrame), jxrActive s = true → s.jxr.evtCopy = f :: l → Answers .evtRepeat s fun u => u.jxr.queue = s.jxr.queue ++ [(false, f)] ∧ u.jxr.evtCopy = l ∧ u.regs = s.regs)

/-- The commands of the bridge (16). -/
def Obligations.BridgeCommands : Prop :=
  ∀ (s : State) (who : Who) (core : EcCore) (offs : BitVec 30) (v w : Word) (n : Fin 64) (t : Fin 16) (dev : BitVec 10) (page : Byte) (now : BitVec 64) (sec : Word) (sub : BitVec 16), Canon s →
    (sysLost s = false → whoOutside who = false → offs.toNat % 4 = 0 → 0x100000 ≤ offs.toNat → brgIssueOk s (whoKind who) (offs.toNat / 0x100000) (offs.toNat % 0x100000) 1 = true →
      brgPoisoned s (offs.toNat / 0x100000) (offs.toNat % 0x100000 / 4096) = false → s.brg.queue = [] → Answers (.windowWrite who offs v) s fun u =>
        u.brg.queue = [⟨whoKind who, offs.toNat / 0x100000, offs.toNat % 0x100000, 0, [v], 0, 32, true, s.brg.issued⟩] ∧ u.ans = none ∧ u.regs = s.regs ∧ u.applied = s.applied ∧ u.mem = s.mem) ∧
    (sysLost s = false → offs.toNat % 4 = 0 → 0x100000 ≤ offs.toNat → brgIssueOk s (whoKind (coreWho core)) (offs.toNat / 0x100000) (offs.toNat % 0x100000) 1 = true →
      storeGet bufDefault s.brg.cores (corePage (coreWho core)) = .idle → s.brg.queue = [] → Answers (.windowRead core offs) s fun u =>
        u.brg.queue = [⟨whoKind (coreWho core), offs.toNat / 0x100000, offs.toNat % 0x100000, 1, [], 1, corePage (coreWho core) - 0xA0 + 16, true, s.brg.issued⟩] ∧
        u.ans = some .stall ∧ u.regs = s.regs ∧ u.applied = s.applied ∧ u.mem = s.mem) ∧
    (running s = true → sysLost s = false → offs.toNat % 4 = 0 → 0x100000 ≤ offs.toNat → storeGet bufDefault s.brg.cores (corePage (coreWho core)) = .data offs.toNat w → Answers (.windowRead core offs) s fun u =>
        u.ans = some (.val w) ∧ storeGet bufDefault u.brg.cores (corePage (coreWho core)) = .idle ∧ u.brg.queue = s.brg.queue ∧ u.regs = s.regs ∧ u.applied = s.applied ∧ u.mem = s.mem) ∧
    (MayWrite s who 0x0A 0x114 → jxrRole s = 1 → 0x80000000 ≤ v.toNat → v.toNat < 0xC0000000 → s.brg.rdcnt = [] → s.brg.queue = [] → slotState s 0 = 0 → whoOutside who = false →
      brgIssueOk s (whoKind who) ((v.toNat - 0x80000000) / 0x100000 % 1024) (v.toNat % 0x100000) 1 = true → Answers (.splitReadRequest who v) s fun u =>
        slotState u 0 = 1 ∧ storeGet seqDefault u.brg.rdtag (whoKind who) = 2 ^ 31 ∧ u.ans = none ∧
        u.brg.queue = [⟨whoKind who, (v.toNat - 0x80000000) / 0x100000 % 1024, v.toNat % 0x100000, 1, [], 1, 0, true, s.brg.issued⟩] ∧ u.applied = s.applied ∧ u.mem = s.mem) ∧
    (MayWrite s who 0x0A 0x11C → jxrRole s ≠ 2 → v.toNat = 2 ^ t.val → 2 ≤ slotState s t.val → getF s 0x0A (R.BRG.SLOT.KIND t.val) = whoKind who → Answers (.slotFree who v) s fun u =>
        slotState u t.val = 0 ∧ u.applied = s.applied ∧ u.mem = s.mem ∧ u.brg = s.brg) ∧
    (running s = true → (slotState s t.val = 2 ∨ slotState s t.val = 3) → rsePage (slotPage s t.val) = false → Answers (.delayedReadExpiry t) s fun u =>
        slotState u t.val = 0 ∧ u.applied = s.applied ∧ u.mem = s.mem ∧ u.brg = s.brg ∧ u.due = s.due) ∧
    (MayWrite s who 0x0A 0x128 → jxrRole s ≠ 2 → getF s 0x0A R.BRG.ELOGN.N ≠ 0 → Answers (.logpopElog who) s fun u => getF u 0x0A R.BRG.ELOGN.N = getF s 0x0A R.BRG.ELOGN.N - 1 ∧
        getF u 0x0A R.BRG.ELOGN.HEAD = (getF s 0x0A R.BRG.ELOGN.HEAD + 1) % 16 ∧ u.applied = s.applied ∧ u.mem = s.mem ∧ u.due = s.due) ∧
    (MayWrite s who 0x0A 0x128 → jxrRole s ≠ 2 → getF s 0x0A R.BRG.OLOGN.N ≠ 0 → Answers (.logpopOlog who) s fun u => getF u 0x0A R.BRG.OLOGN.N = getF s 0x0A R.BRG.OLOGN.N - 1 ∧
        getF u 0x0A R.BRG.OLOGN.HEAD = (getF s 0x0A R.BRG.OLOGN.HEAD + 1) % 8 ∧ u.applied = s.applied ∧ u.mem = s.mem ∧ u.due = s.due) ∧
    (MayWrite s who 0x0A 0x12C → jxrRole s ≠ 2 → (∀ j, j < 64 → isSet s 0x0A (R.BRG.SEM.HELD j) = false) → Answers (.semacq who v) s fun u =>
        let i := fget v R.BRG.SEMACQ.S
        isSet u 0x0A (R.BRG.SEM.HELD i) = true ∧ getF u 0x0A (R.BRG.SEM.OWNER i) = whoKind who ∧ getF u 0x0A (R.BRG.SEM.DEV i) = fget v R.BRG.SEMACQ.DEV ∧
        getF u 0x0A (R.BRG.SEM.PAGE i) = fget v R.BRG.SEMACQ.PAGE ∧ u.applied = s.applied ∧ u.mem = s.mem ∧ u.due = s.due) ∧
    (MayWrite s who 0x0A 0x130 → jxrRole s ≠ 2 → v.toNat % 64 = n.val → isSet s 0x0A (R.BRG.SEM.HELD n.val) = true → getF s 0x0A (R.BRG.SEM.OWNER n.val) = whoKind who →
      Answers (.semrel who v) s fun u => isSet u 0x0A (R.BRG.SEM.HELD n.val) = false ∧ u.applied = s.applied ∧ u.mem = s.mem ∧ u.due = s.due) ∧
    (running s = true → isSet s 0x0A (R.BRG.SEM.HELD n.val) = true → getF s 0x0A R.BRG.ELOGN.N < 16 → Answers (.semaphoreTimeout n) s fun u =>
        isSet u 0x0A (R.BRG.SEM.HELD n.val) = false ∧ getF u 0x0A R.BRG.ELOGN.N = getF s 0x0A R.BRG.ELOGN.N + 1 ∧ Raises u 80 ∧ Raises u 84 ∧ u.applied = s.applied ∧ u.mem = s.mem) ∧
    (MayWrite s who 0x0A 0x134 → jxrRole s ≠ 2 → Answers (.unpoison who dev page) s fun u => u.brg.poison = s.brg.poison.filter (fun e => e ≠ (dev.toNat, page.toNat)) ∧
        u.regs = s.regs ∧ u.applied = s.applied ∧ u.mem = s.mem ∧ u.due = s.due) ∧
    (MayWrite s who 0x0A 0x134 → jxrRole s ≠ 2 → Answers (.unpoisonAll who) s fun u => u.brg.poison = [] ∧ u.regs = s.regs ∧ u.applied = s.applied ∧ u.mem = s.mem ∧ u.due = s.due) ∧
    (running s = true → jxrRole s = 1 → blockOff s 0x0A = false → cfg s 0x0A R.BRG.CFG.POLL ≠ 0 → isSet s 0x0A R.BRG.STAT.POLLRUN = false → ringWorkers s = [] →
      (∀ r ∈ s.brg.queue, r.dest ≠ 33) → (∀ r ∈ s.brg.outst, r.req.dest ≠ 33) → s.brg.pollDue = false → Answers (.pollRound now sec sub) s fun u =>
        getF u 0x0A R.BRG.POLLC.ROUNDS = (getF s 0x0A R.BRG.POLLC.ROUNDS + 1) % 65536 ∧ isSet u 0x0A R.BRG.STAT.POLLRUN = false ∧ u.applied = s.applied ∧ u.mem = s.mem ∧ u.due = s.due) ∧
    (running s = true → jxrRole s = 1 → blockOff s 0x0A = false → cfg s 0x0A R.BRG.CFG.POLL ≠ 0 → isSet s 0x0A R.BRG.STAT.POLLRUN = false → ringWorkers s ≠ [] → Answers (.pollRound now sec sub) s fun u =>
        u.brg.queue = s.brg.queue ++ (ringWorkers s).zipIdx.map (fun e => ⟨0, e.1, 0xA100, 1, [], 3, 33, true, s.brg.issued + e.2⟩) ∧ isSet u 0x0A R.BRG.STAT.POLLRUN = true ∧
        u.applied = s.applied ∧ u.mem = s.mem ∧ u.due = s.due) ∧
    (running s = true → jxrRole s = 1 → blockOff s 0x0A = false → cfg s 0x0A R.BRG.CFG.POLL ≠ 0 → isSet s 0x0A R.BRG.STAT.POLLRUN = true → Answers (.pollRound now sec sub) s fun u =>
        u.brg = { s.brg with pollDue := true } ∧ u.regs = (rtcSet s sec.toNat).regs ∧ u.applied = s.applied ∧ u.mem = s.mem ∧ u.due = s.due) ∧
    (running s = true → getF s 0x01 R.PMU.IDLECNT.CNT ≠ 0 → Answers .workerBeaconLoss s fun u => u = s) ∧
    (running s = true → getF s 0x01 R.PMU.IDLECNT.CNT = 0 → Answers .workerBeaconLoss s fun u => u = idleExpiry s true) ∧
    (running s = true → getF s 0x0A R.BRG.WSUM.PSTATE = 3 → Answers .pstateRefusedClear s fun u => getF u 0x0A R.BRG.WSUM.PSTATE = 0 ∧
        u.applied = s.applied ∧ u.mem = s.mem ∧ u.due = s.due)

/-- The frames of the host port (17, R385 to R395). That a frame with several faults names the first of CRC, LEN, BUSY is notes/assumptions/51. -/
def Obligations.HostFrames : Prop :=
  ∀ (s t : State) (who : Who) (cmd : Byte) (width : BitVec 2) (addr : Word) (len crc : BitVec 16) (ws : List Word) (w : Word) (n : Nat) (late : Bool), Canon s →
    (running s = true → cmd.toNat % 64 = 0 → cmd.toNat / 64 ≠ 3 → Answers (.hostNop cmd) s fun u => u.hpt.res = 0 ∧ getF u 0x08 R.HPT.STAT.LASTCMD = cmd.toNat ∧
      u.hpt.out = [BitVec.ofNat 8 (hptStatus s s.hpt.res)] ∧ u.applied = s.applied ∧ u.mem = s.mem ∧ u.due = s.due) ∧
    (running s = true → (cmd.toNat / 64 = 3 ∨ 3 < cmd.toNat % 64) → Answers (.hostNop cmd) s fun u => u.hpt.res = 2 ∧ u.applied = s.applied ∧ u.mem = s.mem ∧ u.due = s.due) ∧
    (running s = true → width = 3 → Answers (.hostWrite width addr len ws crc n) s fun u => u.hpt.res = 2 ∧ u.applied = s.applied ∧ u.mem = s.mem ∧ u.due = s.due) ∧
    (running s = true → width ≠ 3 → crc16 (hostRequest (hostCmdByte width 1) addr.toNat len.toNat ws) ≠ crc.toNat →
      Answers (.hostWrite width addr len ws crc n) s fun u => u.hpt.res = 1 ∧ getF u 0x08 R.HPT.ERRC.CRC = satInc 65535 (getF s 0x08 R.HPT.ERRC.CRC) ∧
        Raises u 64 ∧ u.applied = s.applied ∧ u.mem = s.mem) ∧
    (running s = true → width ≠ 3 → crc16 (hostRequest (hostCmdByte width 1) addr.toNat len.toNat ws) = crc.toNat → (len = 0 ∨ 32 < len.toNat ∨ ws.length ≠ len.toNat) → Answers (.hostWrite width addr len ws crc n) s fun u => u.hpt.res = 3 ∧ u.applied = s.applied ∧ u.mem = s.mem ∧ u.due = s.due) ∧
    (running s = true → width ≠ 3 → crc16 (hostRequest (hostCmdByte width 1) addr.toNat len.toNat ws) = crc.toNat → 1 ≤ len.toNat → len.toNat ≤ 32 → ws.length = len.toNat → s.hpt.wbusy = true → Answers (.hostWrite width addr len ws crc n) s fun u => u.hpt.res = 6 ∧
      getF u 0x08 R.HPT.ERRC2.BUSY = satInc 65535 (getF s 0x08 R.HPT.ERRC2.BUSY) ∧ Raises u 67 ∧ u.hpt.wait = s.hpt.wait ∧ u.applied = s.applied ∧ u.mem = s.mem) ∧
    (running s = true → width ≠ 3 → crc16 (hostRequest (hostCmdByte width 1) addr.toNat len.toNat ws) = crc.toNat → 1 ≤ len.toNat → len.toNat ≤ 32 → ws.length = len.toNat → s.hpt.wbusy = false → addr.toNat % 4 ≠ 0 →
      Answers (.hostWrite width addr len ws crc n) s fun u => u.hpt.res = 5 ∧ getF u 0x08 R.HPT.ERRADDR.ADDR = addr.toNat ∧ Raises u 66 ∧ u.applied = s.applied ∧ u.mem = s.mem) ∧
    (running s = true → width ≠ 3 → crc16 (hostRequest (hostCmdByte width 1) addr.toNat len.toNat ws) = crc.toNat → sysLost s = false → manifestLoaded s = true → len = 1 → ws = [w] → s.hpt.wbusy = false → addr.toNat % 4 = 0 → 0x20000000 ≤ addr.toNat → addr.toNat < 0x20200000 → 1 ≤ n →
      Answers (.hostWrite width addr len ws crc n) s fun u => u.hpt.res = 0 ∧ u.hpt.wbusy = false ∧ memWord u.mem addr.toNat = w ∧
        (∀ a, a < addr.toNat ∨ addr.toNat + 4 ≤ a → memGet u.mem a = memGet s.mem a) ∧ u.applied = s.applied ∧ u.due = s.due) ∧
    (running s = true → width ≠ 3 → crc16 (hostRequest (hostCmdByte width 1) addr.toNat len.toNat ws) = crc.toNat → 1 ≤ len.toNat → len.toNat ≤ 32 → ws.length = len.toNat → s.hpt.wbusy = false → addr.toNat % 4 = 0 → n = 0 →
      Answers (.hostWrite width addr len ws crc n) s fun u => u.hpt.res = 0 ∧ u.hpt.wbusy = true ∧ u.hpt.wait = wordsAt addr.toNat ws ∧ u.applied = s.applied ∧ u.mem = s.mem ∧ u.due = s.due) ∧
    (running s = true → sysLost s = false → manifestLoaded s = true → s.hpt.wbusy = true → s.hpt.wait = [(addr.toNat, w)] → addr.toNat % 4 = 0 → 0x20000000 ≤ addr.toNat → addr.toNat < 0x20200000 →
      Answers .hostWriteIssued s fun u => u.hpt.wbusy = false ∧ u.hpt.wait = [] ∧ memWord u.mem addr.toNat = w ∧
        (∀ a, a < addr.toNat ∨ addr.toNat + 4 ≤ a → memGet u.mem a = memGet s.mem a) ∧ u.regs = s.regs ∧ u.applied = s.applied) ∧
    (running s = true → width ≠ 3 → crc16 (hostRequest (hostCmdByte width 2) addr.toNat len.toNat []) ≠ crc.toNat →
      Answers (.hostRead width addr len crc late) s fun u => u.hpt.res = 1 ∧ getF u 0x08 R.HPT.ERRC.CRC = satInc 65535 (getF s 0x08 R.HPT.ERRC.CRC) ∧
        Raises u 64 ∧ u.applied = s.applied ∧ u.mem = s.mem) ∧
    (running s = true → width ≠ 3 → crc16 (hostRequest (hostCmdByte width 2) addr.toNat len.toNat []) = crc.toNat → (len = 0 ∨ 32 < len.toNat) → Answers (.hostRead width addr len crc late) s fun u => u.hpt.res = 3 ∧ u.applied = s.applied ∧ u.mem = s.mem ∧ u.due = s.due) ∧
    (running s = true → width ≠ 3 → crc16 (hostRequest (hostCmdByte width 2) addr.toNat len.toNat []) = crc.toNat → sysLost s = false → manifestLoaded s = true → 1 ≤ len.toNat → len.toNat ≤ 32 → s.hpt.wbusy = false → addr.toNat % 4 = 0 → 0x20000000 ≤ addr.toNat → addr.toNat + 4 * len.toNat ≤ 0x20200000 →
      Answers (.hostRead width addr len crc false) s fun u => let data := memGetList s.mem addr.toNat (4 * len.toNat)
        u.hpt.res = 0 ∧ (u.hpt.out.drop 2).take (4 * len.toNat) = data ∧
        u.hpt.out.drop (2 + 4 * len.toNat) = bytesBe 2 (crc16 ((u.hpt.out.drop 1).take (1 + 4 * len.toNat))) ∧
        u.hpt.rbuf.map (fun l => l.flatMap wordBytes) = some data ∧ u.hpt.reading = none ∧ u.applied = s.applied ∧ u.mem = s.mem ∧ u.due = s.due) ∧
    (running s = true → width ≠ 3 → crc16 (hostRequest (hostCmdByte width 2) addr.toNat len.toNat []) = crc.toNat → 1 ≤ len.toNat → len.toNat ≤ 32 → s.hpt.wbusy = false → addr.toNat % 4 = 0 → 0x40000000 ≤ addr.toNat → addr.toNat < 0x40100000 → (blkOf (addr.toNat / 4096 % 256)).isSome = true → pageStands s (addr.toNat / 4096 % 256) = false → addr.toNat / 4096 % 256 ≠ 6 →
      (rightsOf s 4 (addr.toNat / 4096 % 256)).testBit 0 = false → Answers (.hostRead width addr len crc false) s fun u => u.hpt.res = 5 ∧ getF u 0x08 R.HPT.ERRADDR.ADDR = addr.toNat ∧
        Raises u 66 ∧ u.hpt.rbuf = none ∧ u.hpt.reading = none ∧ (u.hpt.out.drop 2).take (4 * len.toNat) = List.replicate (4 * len.toNat) 0 ∧
        getF u 5 R.PROT.RCNT.CNT = satInc 65535 (getF s 5 R.PROT.RCNT.CNT) ∧
        (isSet s 5 R.PROT.RSTAT.VALID = false → isSet u 5 R.PROT.RSTAT.VALID = true ∧ getF u 5 R.PROT.RSTAT.KIND = 4 ∧ isSet u 5 R.PROT.RSTAT.WR = false ∧
          getF u 5 R.PROT.RSTAT.PAGE = addr.toNat / 4096 % 256 ∧ getF u 5 R.PROT.RADDR.ADDR = addr.toNat ∧ Raises u 40) ∧ u.applied = s.applied ∧ u.mem = s.mem) ∧
    (∀ l, 1 ≤ n → running s = true → s.hpt.reading = some (addr.toNat, n, l) → addr.toNat % 4 = 0 → 0x40000000 ≤ addr.toNat → addr.toNat < 0x40100000 → (blkOf (addr.toNat / 4096 % 256)).isSome = true → pageStands s (addr.toNat / 4096 % 256) = false → addr.toNat / 4096 % 256 ≠ 6 →
      (rightsOf s 4 (addr.toNat / 4096 % 256)).testBit 0 = false → Answers .hostReadComplete s fun u => u.hpt.res = 5 ∧ getF u 0x08 R.HPT.ERRADDR.ADDR = addr.toNat ∧
        Raises u 66 ∧ u.hpt.rbuf = none ∧ u.hpt.reading = none ∧ getF u 5 R.PROT.RCNT.CNT = satInc 65535 (getF s 5 R.PROT.RCNT.CNT) ∧
        (isSet s 5 R.PROT.RSTAT.VALID = false → isSet u 5 R.PROT.RSTAT.VALID = true ∧ getF u 5 R.PROT.RSTAT.KIND = 4 ∧ isSet u 5 R.PROT.RSTAT.WR = false ∧
          getF u 5 R.PROT.RSTAT.PAGE = addr.toNat / 4096 % 256 ∧ getF u 5 R.PROT.RADDR.ADDR = addr.toNat ∧ Raises u 40) ∧ u.applied = s.applied ∧ u.mem = s.mem) ∧
    (running s = true → width ≠ 3 → crc16 (hostRequest (hostCmdByte width 1) addr.toNat len.toNat ws) = crc.toNat → len = 1 → ws = [w] → s.hpt.wbusy = false → 1 ≤ n → addr.toNat % 4 = 0 → 0x40000000 ≤ addr.toNat → addr.toNat < 0x40100000 → (blkOf (addr.toNat / 4096 % 256)).isSome = true → pageStands s (addr.toNat / 4096 % 256) = false → addr.toNat / 4096 % 256 ≠ 6 →
      (rightsOf s 4 (addr.toNat / 4096 % 256)).testBit (writeRight (addr.toNat % 4096)) = false → (addr.toNat ≠ 0x40004108) → Answers (.hostWrite width addr len ws crc n) s fun u =>
        u.hpt.res = 5 ∧ u.hpt.wbusy = false ∧ getF u 0x08 R.HPT.ERRADDR.ADDR = addr.toNat ∧ Raises u 66 ∧ getF u 5 R.PROT.RCNT.CNT = satInc 65535 (getF s 5 R.PROT.RCNT.CNT) ∧
        (isSet s 5 R.PROT.RSTAT.VALID = false → isSet u 5 R.PROT.RSTAT.VALID = true ∧ getF u 5 R.PROT.RSTAT.KIND = 4 ∧ isSet u 5 R.PROT.RSTAT.WR = true ∧
          getF u 5 R.PROT.RSTAT.PAGE = addr.toNat / 4096 % 256 ∧ getF u 5 R.PROT.RADDR.ADDR = addr.toNat ∧ Raises u 40) ∧ u.applied = s.applied ∧ u.mem = s.mem) ∧
    (running s = true → width ≠ 3 → crc16 (hostRequest (hostCmdByte width 2) addr.toNat len.toNat []) = crc.toNat → manifestLoaded s = false → sysLost s = false → 1 ≤ len.toNat → len.toNat ≤ 32 → s.hpt.wbusy = false → addr.toNat % 4 = 0 → 0x20000000 ≤ addr.toNat → addr.toNat < 0x20200000 →
      Answers (.hostRead width addr len crc false) s fun u => u.hpt.res = 5 ∧ getF u 0x08 R.HPT.ERRADDR.ADDR = addr.toNat ∧ Raises u 66 ∧ u.applied = s.applied ∧ u.mem = s.mem) ∧
    (running s = true → width ≠ 3 → crc16 (hostRequest (hostCmdByte width 2) addr.toNat len.toNat []) = crc.toNat → 1 ≤ len.toNat → len.toNat ≤ 32 → s.hpt.wbusy = false → addr.toNat % 4 = 0 → addr.toNat < 0x60000000 →
      Answers (.hostRead width addr len crc true) s fun u => u.hpt.res = 7 ∧ u.hpt.rbuf = none ∧ u.hpt.reading = some (addr.toNat, len.toNat, []) ∧
        (u.hpt.out.drop 2).take (4 * len.toNat) = List.replicate (4 * len.toNat) 0 ∧
        getF u 0x08 R.HPT.ERRC2.NOTRDY = satInc 65535 (getF s 0x08 R.HPT.ERRC2.NOTRDY) ∧ u.applied = s.applied ∧ u.mem = s.mem ∧ u.due = s.due) ∧
    (∀ l, running s = true → sysLost s = false → manifestLoaded s = true → s.hpt.reading = some (addr.toNat, n, l) → addr.toNat % 4 = 0 → 0x20000000 ≤ addr.toNat → addr.toNat + 4 * n ≤ 0x20200000 →
      Answers .hostReadComplete s fun u => u.hpt.reading = none ∧
        u.hpt.rbuf.map (fun x => x.flatMap wordBytes) = some (l.flatMap wordBytes ++ memGetList s.mem addr.toNat (4 * n)) ∧ u.regs = s.regs ∧ u.applied = s.applied ∧ u.mem = s.mem) ∧
    (∀ l, running s = true → width ≠ 3 → s.hpt.reading = none → s.hpt.rbuf = some l → Answers (.rdbuf width) s fun u => u.hpt.res = 0 ∧
      (u.hpt.out.drop 2).take (4 * l.length) = l.flatMap wordBytes ∧ u.hpt.rbuf = some l ∧ u.applied = s.applied ∧ u.mem = s.mem ∧ u.due = s.due) ∧
    (running s = true → Answers (.hostFrameAbort cmd) s fun u => u.hpt.res = 4 ∧ getF u 0x08 R.HPT.ERRC.ABORT = satInc 65535 (getF s 0x08 R.HPT.ERRC.ABORT) ∧
      Raises u 65 ∧ u.applied = s.applied ∧ u.mem = s.mem) ∧
    (MayWrite s who 0x08 0x110 → Answers (.hptClr who) s fun u => rd u 0x08 0x108 = 0 ∧ rd u 0x08 0x10C = 0 ∧ u.applied = s.applied ∧ u.mem = s.mem ∧ u.due = s.due)

/-- The commands of the side-band port (17, R397 to R403). -/
def Obligations.SideBandCommands : Prop :=
  ∀ (s t : State) (who : Who) (key count : Byte) (pecOk : Bool) (addr : Word) (offs : BitVec 16) (ws : List Word) (w v : Word) (nonce : List Byte) (n : Nat), Canon s →
    (s.mode ≠ .off → Answers .getmode s fun u => let data := (natToBytes 2 (rd s 0x00 0x110).toNat ++ natToBytes 1 (getF s 0x03 R.RST.CAUSE.SRC) ++
        natToBytes 1 (s.sbp.limp.toNat + 2 * s.sbp.recov.toNat + 4 * s.vlt.latch.toNat) ++ wordBytes (rd s 0x01 0x10C) ++ wordBytes (rd s 0x01 0x110) ++
        natToBytes 2 (getF s 0x03 R.RST.COUNT.CNT) ++ [0, 0])
      u.sbp.out = data ++ [pec (natToBytes 1 (sbpAddr * 2) ++ natToBytes 1 0x01 ++ [] ++ natToBytes 1 (sbpAddr * 2 + 1) ++ data)] ∧ u.applied = s.applied ∧ u.mem = s.mem ∧ u.due = s.due) ∧
    (running s = true → Answers .getfault s fun u => (u.sbp.out.take 1 = natToBytes 1 (if getF s 0x04 R.FLT.SUM.HICLS = 15 then 255 else getF s 0x04 R.FLT.SUM.HICLS)) ∧
      u.sbp.out.length = 17 ∧ getF u 0x09 R.SBP.CNT.SERVED = satInc 65535 (getF s 0x09 R.SBP.CNT.SERVED) ∧ getF u 0x09 R.SBP.STAT.LASTCMD = 2 ∧ u.applied = s.applied ∧ u.mem = s.mem ∧ u.due = s.due) ∧
    (running s = false → Answers .getfault s fun u => u = s) ∧
    (running s = true → s.sbp.attSt ≠ 1 → Answers (.attreq nonce true) s fun u => u.sbp.attSt = 1 ∧ u.sbp.nonce = nonce ∧ getF u 0x09 R.SBP.CNT.SERVED = satInc 65535 (getF s 0x09 R.SBP.CNT.SERVED) ∧ u.applied = s.applied ∧ u.mem = s.mem ∧ u.due = s.due) ∧
    (running s = true → s.sbp.attSt = 1 → Answers (.attreq nonce true) s fun u => u.sbp = s.sbp ∧ getF u 0x09 R.SBP.CNT.NACK = satInc 65535 (getF s 0x09 R.SBP.CNT.NACK) ∧ u.applied = s.applied ∧ u.mem = s.mem ∧ u.due = s.due) ∧
    (running s = true → Answers (.attreq nonce false) s fun u => Raises u 72 ∧ u.sbp = s.sbp ∧ getF u 0x09 R.SBP.ERRC.PEC = satInc 65535 (getF s 0x09 R.SBP.ERRC.PEC) ∧ getF u 0x09 R.SBP.CNT.NACK = satInc 65535 (getF s 0x09 R.SBP.CNT.NACK) ∧ u.applied = s.applied ∧ u.mem = s.mem) ∧
    (running s = true → Answers .attstat s fun u => let data := natToBytes 1 s.sbp.attSt ++ [0] ++ natToBytes 2 (if s.sbp.attSt = 2 then s.vlt.report.length else 0)
      u.sbp.out = data ++ [pec (natToBytes 1 (sbpAddr * 2) ++ natToBytes 1 0x11 ++ [] ++ natToBytes 1 (sbpAddr * 2 + 1) ++ data)] ∧ u.applied = s.applied ∧ u.mem = s.mem ∧ u.due = s.due) ∧
    (running s = true → s.sbp.attSt = 2 → Answers (.attrd offs) s fun u => let data := fit 32 (s.vlt.report.drop offs.toNat)
      u.sbp.out = data ++ [pec (natToBytes 1 (sbpAddr * 2) ++ natToBytes 1 0x12 ++ natToBytes 2 offs.toNat ++ natToBytes 1 (sbpAddr * 2 + 1) ++ data)] ∧ u.applied = s.applied ∧ u.mem = s.mem ∧ u.due = s.due) ∧
    (running s = true → (s.mode ≠ .boot ∨ getF s 0x03 R.RST.BOOT.PHASE = 5) → s.sbp.attSt = 1 → attRefused s ≠ 0 → Answers .attreqReportReady s fun u => u.sbp.attSt = 3 ∧ u.vlt = s.vlt ∧ u.regs = s.regs ∧ u.applied = s.applied ∧ u.mem = s.mem) ∧
    (running s = true → (s.mode ≠ .boot ∨ getF s 0x03 R.RST.BOOT.PHASE = 5) → s.sbp.attSt = 1 → attRefused s = 0 → Answers .attreqReportReady s fun u => u.sbp.attSt = 2 ∧ u.vlt.report = attReport s s.sbp.nonce ∧ u.regs = s.regs ∧ u.applied = s.applied ∧ u.mem = s.mem) ∧
    ((s.mode = .hold ∨ s.mode = .run) → Answers (.reqlimp 0xDF true) s fun u => u.mode = .limp ∧ getF u 0x00 R.DEV.MODE.CAUSE = 9) ∧
    (s.mode = .limp → Answers (.reqlimp 0xDF true) s fun u => u.sbp.limp = false ∧ isSet u 0x09 R.SBP.STAT.LIMPL = false ∧ Raises u 74 ∧ u.mode = .limp ∧ u.applied = s.applied ∧ u.mem = s.mem) ∧
    ((s.mode = .park ∨ s.mode = .watch ∨ s.mode = .listen ∨ s.mode = .boot) → Answers (.reqlimp 0xDF true) s fun u => u.sbp.limp = true ∧ Raises u 74 ∧ u.mode = s.mode ∧ u.applied = s.applied ∧ u.mem = s.mem) ∧
    (s.mode ≠ .off → Answers (.reqlimp key false) s fun u => Raises u 72 ∧ u.sbp = s.sbp ∧ u.mode = s.mode ∧ u.applied = s.applied ∧ u.mem = s.mem) ∧
    (s.mode ≠ .off → key ≠ 0xDF → Answers (.reqlimp key true) s fun u => u.sbp = s.sbp ∧ u.mode = s.mode ∧ u.due = s.due ∧ u.applied = s.applied ∧ u.mem = s.mem ∧ (running s = true → getF u 0x09 R.SBP.CNT.NACK = satInc 65535 (getF s 0x09 R.SBP.CNT.NACK))) ∧
    (running s = true → Answers (.reqreset 0xDE true) s fun u => u.mode = .boot ∧ getF u 0x03 R.RST.CAUSE.SRC = 5) ∧
    (running s = true → Answers (.reqrecov 0xDD true) s fun u => u.mode = .boot ∧ getF u 0x03 R.RST.CAUSE.SRC = 5 ∧ u.sbp.recov = true) ∧
    ((s.mode = .park ∨ s.mode = .watch ∨ s.mode = .listen) → Answers (.reqrecov 0xDD true) s fun u => u.sbp.recov = true ∧ u.mode = s.mode ∧ Raises u 74 ∧ u.applied = s.applied ∧ u.mem = s.mem) ∧
    ((s.mode = .park ∨ s.mode = .watch ∨ s.mode = .listen) → Answers (.reqreset 0xDE true) s fun u => u.mode = s.mode ∧ Raises u 74 ∧ u.applied = s.applied ∧ u.mem = s.mem) ∧
    (running s = true → (count = 0 ∨ 8 < count.toNat ∨ addr.toNat % 4 ≠ 0) → Answers (.memrd addr count) s fun u => let data : List Byte := 2 :: List.replicate (4 * count.toNat) 0
      u.sbp.out = data ++ [pec (natToBytes 1 (sbpAddr * 2) ++ natToBytes 1 0x30 ++ (natToBytes 4 addr.toNat ++ natToBytes 1 count.toNat) ++ natToBytes 1 (sbpAddr * 2 + 1) ++ data)] ∧ u.applied = s.applied ∧ u.mem = s.mem ∧ u.due = s.due) ∧
    (running s = true → s.sbp.mrd = none → 1 ≤ count.toNat → count.toNat ≤ 8 → addr.toNat % 4 = 0 → 0x40000000 ≤ addr.toNat → addr.toNat < 0x40100000 → (blkOf (addr.toNat / 4096 % 256)).isSome = true → pageStands s (addr.toNat / 4096 % 256) = false → addr.toNat / 4096 % 256 ≠ 6 →
      (rightsOf s 5 (addr.toNat / 4096 % 256)).testBit 0 = false → Answers (.memrd addr count) s fun u => let data : List Byte := 1 :: List.replicate (4 * count.toNat) 0
      u.sbp.out = data ++ [pec (natToBytes 1 (sbpAddr * 2) ++ natToBytes 1 0x30 ++ (natToBytes 4 addr.toNat ++ natToBytes 1 count.toNat) ++ natToBytes 1 (sbpAddr * 2 + 1) ++ data)] ∧ getF u 5 R.PROT.RCNT.CNT = satInc 65535 (getF s 5 R.PROT.RCNT.CNT) ∧
        (isSet s 5 R.PROT.RSTAT.VALID = false → isSet u 5 R.PROT.RSTAT.VALID = true ∧ getF u 5 R.PROT.RSTAT.KIND = 5 ∧ isSet u 5 R.PROT.RSTAT.WR = false ∧
          getF u 5 R.PROT.RSTAT.PAGE = addr.toNat / 4096 % 256 ∧ getF u 5 R.PROT.RADDR.ADDR = addr.toNat ∧ Raises u 40) ∧ u.applied = s.applied ∧ u.mem = s.mem) ∧
    (running s = true → s.sbp.mrd = none → 1 ≤ count.toNat → count.toNat ≤ 8 → addr.toNat % 4 = 0 → accessStands s .sbp addr.toNat = true →
      Answers (.memrd addr count) s fun u => u.sbp = { s.sbp with mrd := some (addr.toNat, count.toNat, []) } ∧ u.regs = s.regs ∧ u.applied = s.applied ∧ u.mem = s.mem ∧ u.due = s.due) ∧
    (running s = true → s.sbp.mrd = none → count = 1 → addr.toNat % 4 = 0 → busRead s .sbp false addr.toNat 4 = (t, .val v) → Answers (.memrd addr count) s fun u => let data := 0 :: wordBytes v
      u.sbp.out = data ++ [pec (natToBytes 1 (sbpAddr * 2) ++ natToBytes 1 0x30 ++ (natToBytes 4 addr.toNat ++ natToBytes 1 count.toNat) ++ natToBytes 1 (sbpAddr * 2 + 1) ++ data)] ∧ u.mem = t.mem ∧ u.applied = t.applied) ∧
    (running s = true → writeWaits s .sbp addr.toNat = false → s.sbp.memBusy = false → count = 1 → ws = [w] → addr.toNat % 4 = 0 → 1 ≤ n →
      (let s1 := sbpServed s 0x31; busWrite { s1 with sbp := { s1.sbp with memRes := 0, memN := 0 } } .sbp false addr.toNat 4 w = (t, true)) →
      Answers (.memwr 0xCE addr count ws true n) s fun u => u.sbp.memBusy = false ∧ u.sbp.memRes = t.sbp.memRes ∧ u.sbp.memN = t.sbp.memN + 1 ∧ u.regs = t.regs ∧ u.mem = t.mem) ∧
    (running s = true → s.sbp.memBusy = false → 1 ≤ count.toNat → count.toNat ≤ 8 → ws.length = count.toNat → addr.toNat % 4 = 0 →
      Answers (.memwr 0xCE addr count ws true 0) s fun u => u.sbp.memBusy = true ∧ u.sbp.memN = 0 ∧ u.sbp.memWait = wordsAt addr.toNat ws ∧ u.applied = s.applied ∧ u.mem = s.mem ∧ u.due = s.due) ∧
    (running s = true → (key ≠ 0xCE ∨ s.sbp.memBusy = true) → Answers (.memwr key addr count ws true n) s fun u => u.sbp = s.sbp ∧ getF u 0x09 R.SBP.CNT.NACK = satInc 65535 (getF s 0x09 R.SBP.CNT.NACK) ∧ u.applied = s.applied ∧ u.mem = s.mem ∧ u.due = s.due) ∧
    (running s = true → writeWaits s .sbp addr.toNat = false → s.sbp.memBusy = true → s.sbp.memWait = [(addr.toNat, w)] → busWrite s .sbp false addr.toNat 4 w = (t, true) →
      Answers .memwrIssueComplete s fun u => u.sbp.memBusy = false ∧ u.sbp.memWait = [] ∧ u.sbp.memN = t.sbp.memN + 1 ∧ u.regs = t.regs ∧ u.mem = t.mem) ∧
    (running s = true → Answers .memst s fun u => let data := natToBytes 1 (if s.sbp.memBusy then 3 else s.sbp.memRes) ++ natToBytes 1 s.sbp.memN ++ [0, 0]
      u.sbp.out = data ++ [pec (natToBytes 1 (sbpAddr * 2) ++ natToBytes 1 0x32 ++ [] ++ natToBytes 1 (sbpAddr * 2 + 1) ++ data)] ∧ u.applied = s.applied ∧ u.mem = s.mem ∧ u.due = s.due) ∧
    (s.mode ≠ .off → Answers .smbusTimeout s fun u => (running s = true → getF u 0x09 R.SBP.ERRC.TMO = satInc 65535 (getF s 0x09 R.SBP.ERRC.TMO)) ∧ Raises u 73 ∧ u.sbp = { s.sbp with mrd := none } ∧ u.applied = s.applied ∧ u.mem = s.mem) ∧
    (MayWrite s who 0x09 0x10C → Answers (.sbpClr who) s fun u => rd u 0x09 0x104 = 0 ∧ rd u 0x09 0x108 = 0 ∧ u.applied = s.applied ∧ u.mem = s.mem ∧ u.due = s.due)

/-- The CAN controllers (18, R406 to R411). -/
def Obligations.CanCommands : Prop :=
  ∀ (s : State) (who : Who) (n : Fin 4) (f : CanFrame) (v : Word) (b : Fin 32) (i : Nat) (code : BitVec 3) (eight free : Bool) (p : TxdPort) (now : BitVec 64), Canon s →
    (busRuns s = true → inRecovery s = false → (f.fdf = false ∨ cfgOn s (canPage n.val) R.CAN.MODE.FD = true) → canOnBus s n.val = true → nmgOn s = false → getF s (canPage n.val) R.CAN.ECNT.REC ≤ 127 → getF s (canPage n.val) R.CAN.ECNT.TEC < 128 → canStateOf s n.val = 1 →
      (List.range 64).find? (canMatches s n.val f) = some i → cfg s (canPage n.val) (R.CAN.FLTA.ACT i) = 1 → busReach s (canPage n.val) = true →
      (getF s (canPage n.val) R.CAN.RXWI.IDX + 256 - getF s (canPage n.val) R.CAN.RXRI.IDX) % 256 ≠ 128 → Answers (.canFrameReceived n f now) s fun u =>
        u.mem = memSetList s.mem (cfg s (canPage n.val) R.CAN.RXBASE.ADDR + 80 * (getF s (canPage n.val) R.CAN.RXWI.IDX % 128)) (canRxElement f i now.toNat) ∧
        getF u (canPage n.val) R.CAN.RXWI.IDX = (getF s (canPage n.val) R.CAN.RXWI.IDX + 1) % 256 ∧ getF u (canPage n.val) R.CAN.ECNT.REC = getF s (canPage n.val) R.CAN.ECNT.REC - 1 ∧ u.applied = s.applied ∧ u.due = s.due) ∧
    (busRuns s = true → inRecovery s = false → (f.fdf = false ∨ cfgOn s (canPage n.val) R.CAN.MODE.FD = true) → canOnBus s n.val = true → nmgOn s = false → getF s (canPage n.val) R.CAN.ECNT.REC ≤ 127 → getF s (canPage n.val) R.CAN.ECNT.TEC < 128 → canStateOf s n.val = 1 →
      (List.range 64).find? (canMatches s n.val f) = some i → cfg s (canPage n.val) (R.CAN.FLTA.ACT i) = 1 →
      (getF s (canPage n.val) R.CAN.RXWI.IDX + 256 - getF s (canPage n.val) R.CAN.RXRI.IDX) % 256 = 128 → Answers (.canFrameReceived n f now) s fun u =>
        isSet u (canPage n.val) R.CAN.STAT.RXOVF = true ∧ Raises u ((canPage n.val) * 8 + 2) ∧ u.mem = s.mem ∧ u.applied = s.applied) ∧
    (busRuns s = true → inRecovery s = false → (f.fdf = false ∨ cfgOn s (canPage n.val) R.CAN.MODE.FD = true) → canOnBus s n.val = true → nmgOn s = false → (List.range 64).find? (canMatches s n.val f) = none → cfgOn s (canPage n.val) R.CAN.CFG.NOMATCH = false →
      Answers (.canFrameReceived n f now) s fun u => u.applied = s.applied ∧ u.mem = s.mem ∧ u.can = s.can) ∧
    (busRuns s = true → inRecovery s = false → f.fdf = true → cfgOn s (canPage n.val) R.CAN.MODE.FD = false → Answers (.canFrameReceived n f now) s fun u => u = setNow s now.toNat) ∧
    (busRuns s = true → canOnBus s n.val = true → getF s (canPage n.val) R.CAN.ECNT.TEC < 128 → getF s (canPage n.val) R.CAN.ECNT.REC < 120 → nmgState s ≠ 3 → Answers (.canReceiveError n code eight) s fun u =>
      getF u (canPage n.val) R.CAN.LEC.CODE = code.toNat ∧ getF u (canPage n.val) R.CAN.ECNT.REC = getF s (canPage n.val) R.CAN.ECNT.REC + (if eight then 8 else 1) ∧ canStateOf u n.val = 1 ∧ u.applied = s.applied ∧ u.mem = s.mem) ∧
    (MayWrite s who (canPage n.val) 0x114 → canNm s n.val = false → canRel s n.val = false → canOnBus s n.val = false → Answers (.canTxreq who n v) s fun u =>
      getF u (canPage n.val) R.CAN.TXREQ.REQ = getF s (canPage n.val) R.CAN.TXREQ.REQ ||| v.toNat ∧ u.can = s.can ∧ u.applied = s.applied ∧ u.mem = s.mem ∧ u.due = s.due) ∧
    (MayWrite s who (canPage n.val) 0x114 → canNm s n.val = false → canRel s n.val = false → canOnBus s n.val = true → (canGet s n.val).cur = none → cfg s (canPage n.val) R.CAN.MODE.OPM ≠ 1 → busReach s (canPage n.val) = true →
      getF s (canPage n.val) R.CAN.TXREQ.REQ = 0 → v.toNat = 2 ^ b.val → Answers (.canTxreq who n v) s fun u => getF u (canPage n.val) R.CAN.TXREQ.REQ = 2 ^ b.val ∧
        (canGet u n.val).cur = some b.val ∧ (canGet u n.val).frame = canShape s n.val (memGetList s.mem (cfg s (canPage n.val) R.CAN.TXBASE.ADDR + 80 * b.val) 80) ∧ u.applied = s.applied ∧ u.mem = s.mem ∧ u.due = s.due) ∧
    (MayWrite s who (canPage n.val) 0x118 → canNm s n.val = false → canRel s n.val = false → (canGet s n.val).cur = none → v.toNat = 2 ^ b.val → (getF s (canPage n.val) R.CAN.TXREQ.REQ).testBit b.val = true →
      Answers (.canTxcan who n v) s fun u => (getF u (canPage n.val) R.CAN.TXREQ.REQ).testBit b.val = false ∧ (getF u (canPage n.val) R.CAN.TXABT.ABT).testBit b.val = true ∧ u.can = s.can ∧ u.applied = s.applied ∧ u.mem = s.mem) ∧
    (MayWrite s who (canPage n.val) 0x118 → canNm s n.val = false → canRel s n.val = false → (canGet s n.val).cur = some b.val → v.toNat = 2 ^ b.val → (getF s (canPage n.val) R.CAN.TXREQ.REQ).testBit b.val = true →
      Answers (.canTxcan who n v) s fun u => (canGet u n.val).cancel = true ∧ (canGet u n.val).cur = some b.val ∧ u.regs = s.regs ∧ u.applied = s.applied ∧ u.mem = s.mem) ∧
    (busRuns s = true → canNm s n.val = false → canRel s n.val = false → nmgOn s = false → (canGet s n.val).cur = some b.val → getF s (canPage n.val) R.CAN.TXREQ.REQ = 2 ^ b.val → canStateOf s n.val = 1 →
      getF s (canPage n.val) R.CAN.ECNT.TEC < 128 → getF s (canPage n.val) R.CAN.ECNT.REC < 128 → Answers (.canTransmitDone n .sent) s fun u =>
        getF u (canPage n.val) R.CAN.TXREQ.REQ = 0 ∧ (getF u (canPage n.val) R.CAN.TXDONE.DONE).testBit b.val = true ∧ getF u (canPage n.val) R.CAN.ECNT.TEC = getF s (canPage n.val) R.CAN.ECNT.TEC - 1 ∧
        (canGet u n.val).cur = none ∧ u.applied = s.applied ∧ u.mem = s.mem) ∧
    (busRuns s = true → canNm s n.val = false → canRel s n.val = false → nmgOn s = false → configured s (canPage n.val) = true → enabled s (canPage n.val) = true → (canGet s n.val).cur = some b.val → getF s (canPage n.val) R.CAN.TXREQ.REQ = 2 ^ b.val → canStateOf s n.val = 1 → cfg s (canPage n.val) R.CAN.MODE.OPM ≠ 1 → busReach s (canPage n.val) = true →
      getF s (canPage n.val) R.CAN.ECNT.TEC < 120 → getF s (canPage n.val) R.CAN.ECNT.REC < 128 → (canGet s n.val).cancel = false → cfgOn s (canPage n.val) R.CAN.CFG.DAR = false → (free = false ∨ code ≠ 1) → Answers (.canTransmitDone n (.failed code free)) s fun u =>
        getF u (canPage n.val) R.CAN.ECNT.TEC = getF s (canPage n.val) R.CAN.ECNT.TEC + 8 ∧ getF u (canPage n.val) R.CAN.LEC.CODE = code.toNat ∧ getF u (canPage n.val) R.CAN.TXREQ.REQ = 2 ^ b.val ∧
        (canGet u n.val).cur = some b.val ∧ u.applied = s.applied ∧ u.mem = s.mem) ∧
    (busRuns s = true → nmgOn s = false → (canGet s n.val).cur = some b.val → (code = 1 ∨ code = 3 ∧ canStateOf s n.val = 2) →
      Answers (.canTransmitDone n (.failed code true)) s fun u => getF u (canPage n.val) R.CAN.ECNT.TEC = getF s (canPage n.val) R.CAN.ECNT.TEC ∧ getF u (canPage n.val) R.CAN.LEC.CODE = code.toNat ∧ u.applied = s.applied ∧ u.mem = s.mem) ∧
    (MayWrite s who (canPage n.val) 0x110 → (getF s (canPage n.val) R.CAN.RXWI.IDX + 256 - v.toNat % 256) % 256 ≤ 128 → Answers (.canRxriWrite who n v) s fun u =>
      getF u (canPage n.val) R.CAN.RXRI.IDX = v.toNat % 256 ∧ u.applied = s.applied ∧ u.mem = s.mem ∧ u.due = s.due) ∧
    (MayWrite s who (canPage n.val) 0x110 → 128 < (getF s (canPage n.val) R.CAN.RXWI.IDX + 256 - v.toNat % 256) % 256 → Answers (.canRxriWrite who n v) s fun u =>
      getF u (canPage n.val) R.CAN.RXRI.IDX = getF s (canPage n.val) R.CAN.RXRI.IDX ∧ isSet u (canPage n.val) H.WERR = true ∧ u.applied = s.applied ∧ u.mem = s.mem ∧ u.due = s.due) ∧
    (MayWrite s who (canPage n.val) 0x128 → canStateOf s n.val = 3 → Answers (.canRecov who n) s fun u => canStateOf u n.val = 4 ∧ u.applied = s.applied ∧ u.mem = s.mem) ∧
    (busRuns s = true → canStateOf s n.val = 4 → nmgState s ≠ 3 → Answers (.busoffRecoveryDone n) s fun u => canStateOf u n.val = 1 ∧
      getF u (canPage n.val) R.CAN.ECNT.TEC = 0 ∧ getF u (canPage n.val) R.CAN.ECNT.REC = 0 ∧ u.applied = s.applied ∧ u.mem = s.mem) ∧
    (running s = true → Answers (.txdDominantTimeout p) s fun u => Raises u (match p with | .can k => canPage k.val * 8 + 3 | .lin k => linPage k.val * 8 + 3) ∧
      u.regs = s.regs ∧ u.mem = s.mem) ∧
    (MayRead s who (canPage n.val) → Answers (.canLecRead who n) s fun u => u.ans = some (.val (rd s (canPage n.val) 0x108)) ∧ getF u (canPage n.val) R.CAN.LEC.CODE = 0 ∧ u.applied = s.applied ∧ u.mem = s.mem ∧ u.due = s.due)

/-- The LIN controllers (18, R415 to R418). -/
def Obligations.LinCommands : Prop :=
  ∀ (s : State) (who : Who) (n : Fin 6) (id : BitVec 6) (res : BitVec 4) (data : List Byte) (csum : Byte), Canon s →
    (busRuns s = true → linOn s n.val = true → (linGet s n.val).old = none → linState s n.val ≠ 3 → cfg s (linPage n.val) (R.LIN.FID.DIR id.toNat) = 1 → res.toNat ≤ 6 → res ≠ 0 → id ≠ 0x3C →
      linHeader s n.val id.toNat false = true → Answers (.linFrame n id res ⟨data, csum⟩) s fun u => getF u (linPage n.val) R.LIN.LAST.ID = id.toNat ∧ getF u (linPage n.val) R.LIN.LAST.RES = res.toNat ∧ getF u (linPage n.val) R.LIN.LERR.ID = id.toNat ∧
        getF u (linPage n.val) R.LIN.LERR.RES = res.toNat ∧ (2 ≤ res.toNat → Raises u ((linPage n.val) * 8 + 1)) ∧ u.applied = s.applied ∧ u.mem = s.mem) ∧
    (busRuns s = true → linOn s n.val = true → (linGet s n.val).old = none → linState s n.val ≠ 3 → cfg s (linPage n.val) (R.LIN.FID.DIR id.toNat) = 1 → id ≠ 0x3C →
      linHeader s n.val id.toNat false = true → Answers (.linFrame n id 0 ⟨data, csum⟩) s fun u => let d := linPublish s n.val id.toNat false
        (linGet u n.val).sent = d ++ [linCheck (cfg s (linPage n.val)) id.toNat d] ∧ getF u (linPage n.val) R.LIN.LAST.ID = id.toNat ∧ getF u (linPage n.val) R.LIN.LAST.RES = 0 ∧ u.applied = s.applied ∧ u.mem = s.mem) ∧
    (busRuns s = true → linOn s n.val = true → (linGet s n.val).old = none → linState s n.val ≠ 3 → cfg s (linPage n.val) (R.LIN.FID.DIR id.toNat) = 2 → id ≠ 0x3C →
      linHeader s n.val id.toNat false = true → csum ≠ linCheck (cfg s (linPage n.val)) id.toNat data → Answers (.linFrame n id 0 ⟨data, csum⟩) s fun u =>
        getF u (linPage n.val) R.LIN.LERR.ID = id.toNat ∧ getF u (linPage n.val) R.LIN.LERR.RES = 2 ∧ Raises u ((linPage n.val) * 8 + 1) ∧
        rd u (linPage n.val) (0x400 + 8 * id.toNat) = rd s (linPage n.val) (0x400 + 8 * id.toNat) ∧ u.applied = s.applied ∧ u.mem = s.mem) ∧
    (busRuns s = true → linOn s n.val = true → (linGet s n.val).old = none → linState s n.val ≠ 3 → cfg s (linPage n.val) (R.LIN.FID.DIR id.toNat) = 2 → id ≠ 0x3C →
      linHeader s n.val id.toNat false = true → csum = linCheck (cfg s (linPage n.val)) id.toNat data → Answers (.linFrame n id 0 ⟨data, csum⟩) s fun u => let d := (data.take (cfg s (linPage n.val) (R.LIN.FID.LEN id.toNat)) ++ List.replicate 8 0).take 8
        (rd u (linPage n.val) (0x400 + 8 * id.toNat)).toNat = bytesToNat (d.take 4) ∧ (rd u (linPage n.val) (0x404 + 8 * id.toNat)).toNat = bytesToNat (d.drop 4) ∧
        (rd u (linPage n.val) (0x110 + 4 * (id.toNat / 32))).getLsbD (id.toNat % 32) = true ∧ getF u (linPage n.val) R.LIN.LAST.RES = 0 ∧ u.applied = s.applied ∧ u.mem = s.mem) ∧
    (busRuns s = true → linOn s n.val = true → linCommander s n.val = false → csum = linCheck (linCfg s n.val) 0x3C linSleepData →
      Answers (.linFrame n 0x3C 0 ⟨linSleepData, csum⟩) s fun u =>
        linState u n.val = 3 ∧ isSet u (linPage n.val) R.LIN.STAT.SLEEPCMD = true ∧ u.applied = s.applied ∧ u.mem = s.mem) ∧
    (MayWrite s who (linPage n.val) 0x10C → linCommander s n.val = true → linOn s n.val = true → Answers (.linSched who n) s fun u =>
      linState u n.val = (if linCfg s n.val (R.LIN.SCH.EN 0) = 1 then 2 else 1) ∧ getF u (linPage n.val) R.LIN.STAT.SLOT = 0 ∧ (linGet u n.val).halt = false ∧ u.applied = s.applied ∧ u.mem = s.mem ∧ u.due = s.due) ∧
    (MayWrite s who (linPage n.val) 0x10C → linCommander s n.val = false → Answers (.linSched who n) s fun u => isSet u (linPage n.val) H.WERR = true ∧ getF u (linPage n.val) H.FOFF = 0x43 ∧ u.lin = s.lin ∧ u.applied = s.applied ∧ u.mem = s.mem) ∧
    (MayWrite s who (linPage n.val) 0x10C → linState s n.val = 2 → Answers (.linHalt who n) s fun u => (linGet u n.val).halt = true ∧ u.regs = s.regs ∧ u.applied = s.applied ∧ u.mem = s.mem) ∧
    (MayWrite s who (linPage n.val) 0x10C → linOn s n.val = true → linCommander s n.val = true → Answers (.linSleep who n) s fun u =>
      (linGet u n.val).sleep = (if linState s n.val = 2 then 1 else 2) ∧ u.regs = s.regs ∧ u.applied = s.applied ∧ u.mem = s.mem) ∧
    (MayWrite s who (linPage n.val) 0x10C → linOn s n.val = true → linState s n.val = 3 → Answers (.linWake who n) s fun u => linState u n.val = 1 ∧ (linGet u n.val).pulse = true ∧ u.applied = s.applied ∧ u.mem = s.mem ∧ u.due = s.due) ∧
    (MayWrite s who (linPage n.val) 0x10C → linOn s n.val = true → linState s n.val ≠ 3 → Answers (.linWake who n) s fun u => (linGet u n.val).pulse = true ∧ u.regs = s.regs ∧ u.applied = s.applied ∧ u.mem = s.mem ∧ u.due = s.due) ∧
    (busRuns s = true → linState s n.val = 2 → linGet s n.val = LinSt.init → linOn s n.val = true → Answers (.linSlotEnd n) s fun u => let i := (let i := getF s (linPage n.val) R.LIN.STAT.SLOT + 1; if i ≤ 63 ∧ cfg s (linPage n.val) (R.LIN.SCH.EN i) = 1 then i else 0)
      getF u (linPage n.val) R.LIN.STAT.SLOT = i ∧ linState u n.val = (if cfg s (linPage n.val) (R.LIN.SCH.EN i) = 1 then 2 else 1) ∧ u.applied = s.applied ∧ u.mem = s.mem ∧ u.due = s.due) ∧
    (busRuns s = true → linState s n.val = 2 → (linGet s n.val).halt = true → (linGet s n.val).sleep = 0 → linOn s n.val = true → Answers (.linSlotEnd n) s fun u =>
      linState u n.val = 1 ∧ (linGet u n.val).halt = false ∧ u.applied = s.applied ∧ u.mem = s.mem ∧ u.due = s.due) ∧
    (busRuns s = true → linOn s n.val = true → linCommander s n.val = false → linState s n.val = 1 → Answers (.linSilenceTimeout n) s fun u => linState u n.val = 3 ∧ u.applied = s.applied ∧ u.mem = s.mem) ∧
    (s.mode = .run → linOn s n.val = true → linState s n.val = 3 → Answers (.linWakePulse n) s fun u => linState u n.val = 1 ∧ isSet u (linPage n.val) R.LIN.STAT.WAKEREQ = true ∧ u.applied = s.applied ∧ u.mem = s.mem) ∧
    (running s = true → Answers (.linBusShort n) s fun u => Raises u ((linPage n.val) * 8) ∧ u.regs = s.regs ∧ u.applied = s.applied ∧ u.mem = s.mem) ∧
    (MayRead s who (linPage n.val) → Answers (.linLerrRead who n) s fun u => u.ans = some (.val (rd s (linPage n.val) 0x108)) ∧ getF u (linPage n.val) R.LIN.LERR.RES = 0 ∧ getF u (linPage n.val) R.LIN.LERR.ID = 0 ∧ u.applied = s.applied ∧ u.mem = s.mem ∧ u.due = s.due)

/-- Network management (18, R421 to R428). -/
def Obligations.NetworkManagement : Prop :=
  ∀ (s : State) (src : Byte) (data : List Byte), Canon s →
    (busRuns s = true → nmgOn s = true → nmgState s = 2 → src.toNat ≠ nmgNode s → (data.getD 1 0).getLsbD 5 = false → (data.getD 1 0).getLsbD 0 = true →
      (data.getD 0 0).toNat = nmgNode s → nmgReady s = false → Answers (.nmMessageReceived src data) s fun u => u.nmg.holds = true ∧ u.nmg.heard = true ∧
        u.nmg.ferryIn = (data.getD 2 0).toNat ∧ (rd u 0x0C (0x120 + 4 * (src.toNat / 32))).getLsbD (src.toNat % 32) = true ∧ nmgState u = 2 ∧ u.applied = s.applied ∧ u.mem = s.mem) ∧
    (busRuns s = true → nmgOn s = false → Answers (.nmMessageReceived src data) s fun u => u = { s with nmg := { s.nmg with heard := true } }) ∧
    (busRuns s = true → nmgState s = 2 → s.nmg.holds = true → nmgMedium s < 4 → Answers .nmRingHoldExpiry s fun u => u.nmg.holds = false ∧ u.nmg.tx = s.nmg.tx ++
      [(1, nmgData s (getF s 0x0C R.NMG.STAT.SUCC) 1 (if nmgReady s then min 255 (s.nmg.ferryIn + 1) else 0))] ∧ u.regs = s.regs ∧ u.applied = s.applied ∧ u.mem = s.mem) ∧
    (busRuns s = true → nmgState s = 2 → s.nmg.await = true → getF s 0x0C R.NMG.STAT.SUCC ≠ nmgNode s → nmgMedium s < 4 → Answers .nmSuccessorTimeout s fun u =>
      (rd u 0x0C (0x120 + 4 * (getF s 0x0C R.NMG.STAT.SUCC / 32))).getLsbD (getF s 0x0C R.NMG.STAT.SUCC % 32) = false ∧ u.nmg.tx.length = s.nmg.tx.length + 1 ∧ u.applied = s.applied ∧ u.mem = s.mem) ∧
    (busRuns s = true → (nmgState s = 1 ∨ nmgState s = 2) → nmgMedium s < 4 → Answers .nmRingLoss s fun u => nmgState u = 1 ∧ nmgPres u = 2 ^ nmgNode s ∧ Raises u 98 ∧
      u.nmg.tx.length = s.nmg.tx.length + 1 ∧ u.applied = s.applied ∧ u.mem = s.mem) ∧
    (∀ (n : Fin 4) (d : List Byte) (rest : List (Nat × List Byte)), busRuns s = true → canNm s n.val = true → nmgState s ≠ 3 → (canGet s n.val).cur = some 31 → s.nmg.tx = (0, d) :: rest →
      canStateOf s n.val = 1 → getF s (canPage n.val) R.CAN.ECNT.TEC < 128 → getF s (canPage n.val) R.CAN.ECNT.REC < 128 → Answers (.canTransmitDone n .sent) s fun u => u.nmg.tx = rest ∧
      getF u 0x0C R.NMG.CNT2.RECONF = satInc 65535 (getF s 0x0C R.NMG.CNT2.RECONF) ∧ u.applied = s.applied ∧ u.mem = s.mem) ∧
    (∀ (n : Fin 4) (d : List Byte) (rest : List (Nat × List Byte)), busRuns s = true → canNm s n.val = true → nmgState s = 3 → nmgReady s = true → (canGet s n.val).cur = some 31 →
      s.nmg.tx = (4, d) :: rest → Answers (.canTransmitDone n .sent) s fun u => nmgState u = 4 ∧ u.nmg.tx = [] ∧ u.applied = s.applied ∧ u.mem = s.mem) ∧
    (busRuns s = true → nmgState s = 1 → nmgPres s % 2 ^ nmgNode s = 0 → nmgMedium s < 4 → Answers .nmStartupTimeout s fun u => u.nmg.tx = s.nmg.tx ++
      [(1, nmgData s (getF s 0x0C R.NMG.STAT.SUCC) 1 (if nmgReady s then 1 else 0))] ∧ nmgState u = 1 ∧ u.regs = s.regs ∧ u.applied = s.applied ∧ u.mem = s.mem) ∧
    (busRuns s = true → nmgState s = 4 → nmgOn s = true → nodeReady s = false → nmgMedium s < 4 → Answers .wbsExpiry s fun u => nmgState u = 2 ∧
      getF u 0x0C R.NMG.CNT.CANCEL = satInc 65535 (getF s 0x0C R.NMG.CNT.CANCEL) ∧ Raises u 97 ∧ u.applied = s.applied ∧ u.mem = s.mem) ∧
    (busRuns s = true → nmgState s = 4 → nodeReady s = true → Answers .wbsExpiry s fun u => nmgState u = 5 ∧ isSet u 0x0C R.NMG.STAT.CONS = true ∧ u.applied = s.applied ∧ u.mem = s.mem) ∧
    (busRuns s = true → (nmgOn s = false ∨ nmgState s = 2) → Answers .nmReadinessChange s fun u => isSet u 0x0C R.NMG.STAT.READY = nodeReady s ∧
      u.nmg = s.nmg ∧ u.applied = s.applied ∧ u.mem = s.mem ∧ u.due = s.due) ∧
    (busRuns s = true → nmgState s = 3 → nmgMedium s < 4 → (∀ m ∈ s.nmg.tx, m.1 ≠ 3 ∧ m.1 ≠ 4) → Answers .limphomeTimer s fun u => nmgState u = 3 ∧
      u.nmg.tx = s.nmg.tx ++ [(if nmgReady s then 4 else 3, nmgData s (nmgNode s) 4 0)] ∧ u.applied = s.applied ∧ u.mem = s.mem)

/-- The immobiliser (19). The message that is lost where the last one still waits is notes/assumptions/33. -/
def Obligations.Immobiliser : Prop :=
  ∀ (s : State) (who : Who) (r : LfReply) (id w : Word) (c1 : BitVec 128) (b c : Byte) (a : Fin 4) (f : LfFault) (k n : Nat) (as : List Nat), Canon s →
    (MayWrite s who 0x1A 0x100 → (s.mode = .hold ∨ s.mode = .run) → isSet s 0x1A R.IMM.STAT.BUSY = false → isSet s 0x1A R.IMM.STAT.ALOCK = false → blockOff s 0x1A = false →
      (List.range 4).filter (fun a => (cfg s 0x1A R.IMM.CFG.ANT).testBit a) = n :: as → blockOff s 0x1B = false → cfgOn s 0x1B (R.LFA.ANT.EN n) = true →
      s.imm.lfaT = 0 → s.imm.lfaD = 0 → getF s 0x1B H.PFORCE &&& 0x1F = 0 → cfgOn s 0x1A R.IMM.REL.EN = false → Answers (.immStart who) s fun u => isSet u 0x1A R.IMM.STAT.BUSY = true ∧ isSet u 0x1A R.IMM.STAT.SESS = true ∧
        isSet u 0x1A R.IMM.STAT.AUTH = false ∧ u.imm.phase = 1 ∧ u.imm.ants = n :: as ∧ getF u 0x1B R.LFA.STAT.ACT = n + 1 ∧ u.applied = s.applied ∧ u.mem = s.mem ∧ u.due = s.due) ∧
    (MayWrite s who 0x1A 0x100 → isSet s 0x1A R.IMM.STAT.BUSY = true → Answers (.immStart who) s fun u => isSet u 0x1A H.WERR = true ∧ getF u 0x1A H.FOFF = 0x40 ∧
      u.imm = s.imm ∧ u.applied = s.applied ∧ u.mem = s.mem ∧ u.due = s.due) ∧
    (MayWrite s who 0x1A 0x100 → isSet s 0x1A R.IMM.STAT.BUSY = false → cfgOn s 0x1A R.IMM.REL.EN = false → Answers (.deauth who) s fun u =>
      isSet u 0x1A R.IMM.STAT.AUTH = false ∧ isSet u 0x1A R.IMM.STAT.SESS = false ∧ u.imm = s.imm ∧ u.applied = s.applied ∧ u.mem = s.mem ∧ u.due = s.due) ∧
    (s.imm.phase = 1 → lfCarrier s (s.imm.ants.headD 0) r = none → immInWindow s r.start.toNat = true → r.coll = false → r.crc = pec (lfIdBytes id.toNat) → running s = true → s.vlt.cmd = none → immSlotOf s (immCfg s R.IMM.SLEN.EN) id.toNat = some k → tamperState s = false → isSet s 0x06 R.VLT.STAT.RNGOK = true → keyUsable s (12 + k) = true →
      Answers (.lfId r id) s fun u => getF u 0x1A R.IMM.TID.ID = id.toNat ∧ getF u 0x1A R.IMM.TTAM.CYC = r.start.toNat ∧ u.imm.phase = 2 ∧ u.imm.slot = k ∧ u.imm.rb.length = 8 ∧ u.applied = s.applied ∧ u.mem = s.mem ∧ u.due = s.due) ∧
    (s.imm.phase = 2 → lfCarrier s (s.imm.ants.headD 0) r = none → immInWindow s r.start.toNat = true → r.coll = false → r.crc = pec ((natToBytes 16 c1.toNat).reverse) → running s = true → s.vlt.cmd = none → tamperState s = false → keyUsable s (12 + s.imm.slot) = true →
      (fit 16 (Config.aesDec (fit 16 (keyValue s (12 + s.imm.slot))) ((natToBytes 16 c1.toNat).reverse))).take 8 = s.imm.rb →
      Answers (.lfC1 r c1) s fun u => u.imm.phase = 3 ∧ u.imm.tx.length = 18 ∧ getF u 0x1A R.IMM.TTAM.CYC = r.start.toNat ∧ u.applied = s.applied ∧ u.mem = s.mem ∧ u.due = s.due) ∧
    (s.imm.phase = 3 → lfCarrier s (s.imm.ants.headD 0) r = none → immInWindow s r.start.toNat = true → r.coll = false → r.crc = pec ([b]) → running s = true → immCfg s R.IMM.READ.NBLK = 0 → Answers (.lfAck ⟨r, b⟩) s fun u => isSet u 0x1A R.IMM.STAT.AUTH = true ∧ getF u 0x1A R.IMM.STAT.RESULT = 1 ∧ isSet u 0x1A R.IMM.STAT.BUSY = false ∧
      getF u 0x1A R.IMM.STAT.SLOT = s.imm.slot % 8 ∧ getF u 0x1A R.IMM.STAT.FAILS = 0 ∧ u.imm.phase = 0 ∧ u.applied = s.applied ∧ u.mem = s.mem) ∧
    (s.imm.phase = 4 → lfCarrier s (s.imm.ants.headD 0) r = none → immInWindow s r.start.toNat = true → r.coll = false → r.crc = pec (lfIdBytes w.toNat) → running s = true → s.imm.blk < 8 → immCfg s R.IMM.READ.NBLK ≤ s.imm.blk + 1 → Answers (.lfBlk r w) s fun u => rd u 0x1A (0x160 + 4 * s.imm.blk) = w ∧
      isSet u 0x1A R.IMM.STAT.AUTH = true ∧ getF u 0x1A R.IMM.STAT.RESULT = 1 ∧ isSet u 0x1A R.IMM.STAT.BUSY = false ∧ u.applied = s.applied ∧ u.mem = s.mem) ∧
    (running s = true → s.imm.phase = 1 → lfCarrier s (s.imm.ants.headD 0) r = none → immInWindow s r.start.toNat = false → s.imm.addressed = false → s.imm.ants.length = 1 → Answers (.lfId r id) s fun u =>
      getF u 0x1A R.IMM.CNT.RELAY = satInc 65535 (getF s 0x1A R.IMM.CNT.RELAY) ∧ Raises u 209 ∧ getF u 0x1A R.IMM.STAT.RESULT = 5 ∧ isSet u 0x1A R.IMM.STAT.BUSY = false ∧ u.applied = s.applied ∧ u.mem = s.mem) ∧
    (running s = true → s.imm.phase = 1 → lfCarrier s (s.imm.ants.headD 0) r = some .noLock → s.imm.ants.length = 1 → Answers (.lfId r id) s fun u =>
      Raises u 218 ∧ getF u 0x1A R.IMM.STAT.RESULT = 10 ∧ isSet u 0x1A R.IMM.STAT.BUSY = false ∧ u.imm.phase = 0 ∧ getF u 0x1B R.LFA.STAT.ACT = 0 ∧ u.applied = s.applied ∧ u.mem = s.mem) ∧
    (running s = true → s.imm.phase = 1 → s.imm.addressed = false → s.imm.ants.length = 1 → Answers (.replyWindowExpiry none) s fun u =>
      getF u 0x1A R.IMM.STAT.RESULT = 2 ∧ isSet u 0x1A R.IMM.STAT.BUSY = false ∧ u.imm.phase = 0 ∧ getF u 0x1B R.LFA.STAT.ACT = 0 ∧ u.applied = s.applied ∧ u.mem = s.mem) ∧
    (running s = true → s.imm.phase = 1 → s.imm.addressed = false → s.imm.ants.length = 1 → Answers (.replyWindowExpiry (some c)) s fun u =>
      getF u 0x1A R.IMM.TTAM.CYC = c.toNat ∧ Raises u 209 ∧ getF u 0x1A R.IMM.STAT.RESULT = 5 ∧ u.applied = s.applied ∧ u.mem = s.mem) ∧
    (running s = true → isSet s 0x1A R.IMM.STAT.ALOCK = true → Answers .sessionLockExpiry s fun u => isSet u 0x1A R.IMM.STAT.ALOCK = false ∧ getF u 0x1A R.IMM.STAT.FAILS = 0 ∧
      u.imm = s.imm ∧ u.applied = s.applied ∧ u.mem = s.mem ∧ u.due = s.due) ∧
    (s.mode = .run → isSet s 0x1A R.IMM.STAT.AUTH = true → cfgOn s 0x1A R.IMM.REL.EN = true → s.vlt.cmd = none → s.imm.rel = [] → s.vlt.relFresh = true → s.vlt.relCnt ≠ s.vlt.relMark →
      configured s (canPage (cfg s 0x1A R.IMM.REL.CAN)) = true → enabled s (canPage (cfg s 0x1A R.IMM.REL.CAN)) = true → canStateOf s (cfg s 0x1A R.IMM.REL.CAN) ≠ 3 →
      cfgOn s (canPage (cfg s 0x1A R.IMM.REL.CAN)) R.CAN.MODE.FD = true → keyUsable s 11 = true → Answers .releaseMessage s fun u =>
        u.imm.rel = [relElement s true s.vlt.relCnt] ∧ getF u 0x1A R.IMM.RCNTL.CNT = s.vlt.relCnt % 2 ^ 32 ∧ u.vlt.relCnt = s.vlt.relCnt + 1 ∧ u.applied = s.applied ∧ u.mem = s.mem) ∧
    (∀ (m : List Byte), s.mode = .run → isSet s 0x1A R.IMM.STAT.AUTH = true → cfgOn s 0x1A R.IMM.REL.EN = true → s.vlt.cmd = none → s.imm.rel = [m] → relOnBus s = false → s.vlt.relFresh = true → s.vlt.relCnt ≠ s.vlt.relMark →
      configured s (canPage (cfg s 0x1A R.IMM.REL.CAN)) = true → enabled s (canPage (cfg s 0x1A R.IMM.REL.CAN)) = true → canStateOf s (cfg s 0x1A R.IMM.REL.CAN) ≠ 3 →
      cfgOn s (canPage (cfg s 0x1A R.IMM.REL.CAN)) R.CAN.MODE.FD = true → keyUsable s 11 = true → Answers .releaseMessage s fun u =>
        u.imm.rel = [relElement s true s.vlt.relCnt] ∧ getF u 0x1A R.IMM.RSTAT.LOST = satInc 65535 (getF s 0x1A R.IMM.RSTAT.LOST) ∧ Raises u 212 ∧ u.applied = s.applied ∧ u.mem = s.mem) ∧
    (∀ (m : List Byte), s.mode = .run → isSet s 0x1A R.IMM.STAT.AUTH = true → cfgOn s 0x1A R.IMM.REL.EN = true → s.vlt.cmd = none → s.imm.rel = [m] → relOnBus s = true → s.vlt.relFresh = true → s.vlt.relCnt ≠ s.vlt.relMark →
      configured s (canPage (cfg s 0x1A R.IMM.REL.CAN)) = true → enabled s (canPage (cfg s 0x1A R.IMM.REL.CAN)) = true → canStateOf s (cfg s 0x1A R.IMM.REL.CAN) ≠ 3 →
      cfgOn s (canPage (cfg s 0x1A R.IMM.REL.CAN)) R.CAN.MODE.FD = true → keyUsable s 11 = true → Answers .releaseMessage s fun u =>
        u.imm.rel = [m, relElement s true s.vlt.relCnt] ∧ getF u 0x1A R.IMM.RSTAT.LOST = getF s 0x1A R.IMM.RSTAT.LOST ∧ u.applied = s.applied ∧ u.mem = s.mem) ∧
    (s.mode = .run → isSet s 0x1A R.IMM.STAT.AUTH = true → cfgOn s 0x1A R.IMM.REL.EN = true → s.vlt.cmd = none → s.imm.rel = [] → (configured s (canPage (cfg s 0x1A R.IMM.REL.CAN)) = false ∨ enabled s (canPage (cfg s 0x1A R.IMM.REL.CAN)) = false ∨
      canStateOf s (cfg s 0x1A R.IMM.REL.CAN) = 3 ∨ cfgOn s (canPage (cfg s 0x1A R.IMM.REL.CAN)) R.CAN.MODE.FD = false ∨ keyUsable s 11 = false) → Answers .releaseMessage s fun u =>
        getF u 0x1A R.IMM.RSTAT.LOST = satInc 65535 (getF s 0x1A R.IMM.RSTAT.LOST) ∧ Raises u 212 ∧ u.imm.rel = [] ∧ u.applied = s.applied ∧ u.mem = s.mem) ∧
    (running s = true → s.imm.phase = 0 → Answers (.lfDriverFault a .isOpen) s fun u => (getF u 0x1B R.LFA.STAT.OPEN).testBit a.val = true ∧ Raises u 216 ∧ u.imm = s.imm ∧ u.applied = s.applied ∧ u.mem = s.mem) ∧
    (running s = true → s.imm.phase = 0 → s.flt.level = [] → Answers (.lfDriverFault a .thermal) s fun u => u.imm.lfaT = s.imm.lfaT ||| 2 ^ a.val ∧ Raises u 219 ∧ u.flt.level = [219] ∧ u.applied = s.applied ∧ u.mem = s.mem)

/-- A write of VLT.CMD (20, R472). -/
def Obligations.VaultCommands : Prop :=
  ∀ (s : State) (who : Who) (slot : Byte), Canon s →
    (MayCommand s who → isSet s 0x06 R.VLT.STAT.BUSY = false → s.park = .none → Answers (.info who slot) s fun u => u.vlt = { s.vlt with cmd := some ⟨whoKind who, 1, slot.toNat⟩ } ∧
      isSet u 0x06 R.VLT.STAT.BUSY = true ∧ getF u 0x06 R.VLT.STAT.OWNER = whoKind who ∧ u.applied = s.applied ∧ u.mem = s.mem ∧ u.due = s.due) ∧
    (MayCommand s who → isSet s 0x06 R.VLT.STAT.BUSY = false → s.park = .none → Answers (.random who slot) s fun u => u.vlt = { s.vlt with cmd := some ⟨whoKind who, 2, slot.toNat⟩ } ∧
      isSet u 0x06 R.VLT.STAT.BUSY = true ∧ getF u 0x06 R.VLT.STAT.OWNER = whoKind who ∧ u.applied = s.applied ∧ u.mem = s.mem ∧ u.due = s.due) ∧
    (MayCommand s who → isSet s 0x06 R.VLT.STAT.BUSY = false → s.park = .none → Answers (.seal who slot) s fun u => u.vlt = { s.vlt with cmd := some ⟨whoKind who, 16, slot.toNat⟩ } ∧
      isSet u 0x06 R.VLT.STAT.BUSY = true ∧ getF u 0x06 R.VLT.STAT.OWNER = whoKind who ∧ u.applied = s.applied ∧ u.mem = s.mem ∧ u.due = s.due) ∧
    (MayCommand s who → isSet s 0x06 R.VLT.STAT.BUSY = false → s.park = .none → Answers (.vltOpen who slot) s fun u => u.vlt = { s.vlt with cmd := some ⟨whoKind who, 17, slot.toNat⟩ } ∧
      isSet u 0x06 R.VLT.STAT.BUSY = true ∧ getF u 0x06 R.VLT.STAT.OWNER = whoKind who ∧ u.applied = s.applied ∧ u.mem = s.mem ∧ u.due = s.due) ∧
    (MayCommand s who → isSet s 0x06 R.VLT.STAT.BUSY = false → s.park = .none → Answers (.cmac who slot) s fun u => u.vlt = { s.vlt with cmd := some ⟨whoKind who, 18, slot.toNat⟩ } ∧
      isSet u 0x06 R.VLT.STAT.BUSY = true ∧ getF u 0x06 R.VLT.STAT.OWNER = whoKind who ∧ u.applied = s.applied ∧ u.mem = s.mem ∧ u.due = s.due) ∧
    (MayCommand s who → isSet s 0x06 R.VLT.STAT.BUSY = false → s.park = .none → Answers (.vcmac who slot) s fun u => u.vlt = { s.vlt with cmd := some ⟨whoKind who, 19, slot.toNat⟩ } ∧
      isSet u 0x06 R.VLT.STAT.BUSY = true ∧ getF u 0x06 R.VLT.STAT.OWNER = whoKind who ∧ u.applied = s.applied ∧ u.mem = s.mem ∧ u.due = s.due) ∧
    (MayCommand s who → isSet s 0x06 R.VLT.STAT.BUSY = false → s.park = .none → Answers (.derive who slot) s fun u => u.vlt = { s.vlt with cmd := some ⟨whoKind who, 32, slot.toNat⟩ } ∧
      isSet u 0x06 R.VLT.STAT.BUSY = true ∧ getF u 0x06 R.VLT.STAT.OWNER = whoKind who ∧ u.applied = s.applied ∧ u.mem = s.mem ∧ u.due = s.due) ∧
    (MayCommand s who → isSet s 0x06 R.VLT.STAT.BUSY = false → s.park = .none → Answers (.vltImport who slot) s fun u => u.vlt = { s.vlt with cmd := some ⟨whoKind who, 33, slot.toNat⟩ } ∧
      isSet u 0x06 R.VLT.STAT.BUSY = true ∧ getF u 0x06 R.VLT.STAT.OWNER = whoKind who ∧ u.applied = s.applied ∧ u.mem = s.mem ∧ u.due = s.due) ∧
    (MayCommand s who → isSet s 0x06 R.VLT.STAT.BUSY = false → s.park = .none → Answers (.delete who slot) s fun u => u.vlt = { s.vlt with cmd := some ⟨whoKind who, 34, slot.toNat⟩ } ∧
      isSet u 0x06 R.VLT.STAT.BUSY = true ∧ getF u 0x06 R.VLT.STAT.OWNER = whoKind who ∧ u.applied = s.applied ∧ u.mem = s.mem ∧ u.due = s.due) ∧
    (MayCommand s who → isSet s 0x06 R.VLT.STAT.BUSY = false → s.park = .none → Answers (.inval who slot) s fun u => u.vlt = { s.vlt with cmd := some ⟨whoKind who, 35, slot.toNat⟩ } ∧
      isSet u 0x06 R.VLT.STAT.BUSY = true ∧ getF u 0x06 R.VLT.STAT.OWNER = whoKind who ∧ u.applied = s.applied ∧ u.mem = s.mem ∧ u.due = s.due) ∧
    (MayCommand s who → isSet s 0x06 R.VLT.STAT.BUSY = false → s.park = .none → Answers (.learn who slot) s fun u => u.vlt = { s.vlt with cmd := some ⟨whoKind who, 48, slot.toNat⟩ } ∧
      isSet u 0x06 R.VLT.STAT.BUSY = true ∧ getF u 0x06 R.VLT.STAT.OWNER = whoKind who ∧ u.applied = s.applied ∧ u.mem = s.mem ∧ u.due = s.due) ∧
    (MayCommand s who → isSet s 0x06 R.VLT.STAT.BUSY = false → s.park = .none → Answers (.attest who slot) s fun u => u.vlt = { s.vlt with cmd := some ⟨whoKind who, 64, slot.toNat⟩ } ∧
      isSet u 0x06 R.VLT.STAT.BUSY = true ∧ getF u 0x06 R.VLT.STAT.OWNER = whoKind who ∧ u.applied = s.applied ∧ u.mem = s.mem ∧ u.due = s.due) ∧
    (MayCommand s who → isSet s 0x06 R.VLT.STAT.BUSY = false → s.park = .none → Answers (.vltAttrd who slot) s fun u => u.vlt = { s.vlt with cmd := some ⟨whoKind who, 65, slot.toNat⟩ } ∧
      isSet u 0x06 R.VLT.STAT.BUSY = true ∧ getF u 0x06 R.VLT.STAT.OWNER = whoKind who ∧ u.applied = s.applied ∧ u.mem = s.mem ∧ u.due = s.due) ∧
    (MayCommand s who → isSet s 0x06 R.VLT.STAT.BUSY = false → s.park = .none → Answers (.rolladv who slot) s fun u => u.vlt = { s.vlt with cmd := some ⟨whoKind who, 80, slot.toNat⟩ } ∧
      isSet u 0x06 R.VLT.STAT.BUSY = true ∧ getF u 0x06 R.VLT.STAT.OWNER = whoKind who ∧ u.applied = s.applied ∧ u.mem = s.mem ∧ u.due = s.due) ∧
    (MayCommand s who → isSet s 0x06 R.VLT.STAT.BUSY = false → s.park = .none → Answers (.lcadv who slot) s fun u => u.vlt = { s.vlt with cmd := some ⟨whoKind who, 96, slot.toNat⟩ } ∧
      isSet u 0x06 R.VLT.STAT.BUSY = true ∧ getF u 0x06 R.VLT.STAT.OWNER = whoKind who ∧ u.applied = s.applied ∧ u.mem = s.mem ∧ u.due = s.due) ∧
    (MayCommand s who → isSet s 0x06 R.VLT.STAT.BUSY = true → Answers (.random who slot) s fun u => u.vlt = s.vlt ∧ isSet u 0x06 H.WERR = true ∧ getF u 0x06 H.FOFF = 0x40 ∧ u.applied = s.applied ∧ u.mem = s.mem ∧ u.due = s.due) ∧
    (MayCommand s who → isSet s 0x06 R.VLT.STAT.BUSY = false → s.park ≠ .none → Answers (.random who slot) s fun u => u.vlt.cmd = none ∧
      getF u 0x06 R.VLT.STAT.RESULT = 10 ∧ isSet u 0x06 R.VLT.STAT.BUSY = false ∧ u.applied = s.applied ∧ u.mem = s.mem)

/-- Completion and events of the vault (20). The result code of each refusal is 20 Table 11; the bytes of RANDOM are free values (notes/assumptions/2). -/
def Obligations.VaultEvents : Prop :=
  ∀ (s : State) (who : Who) (c : VltCmd) (src : Fin 6) (also : Byte) (sec : Word) (sub : BitVec 16), Canon s →
    (running s = true → s.vlt.cmd = some c → tamperState s = false → s.vlt.zeroised = false → (rightsOf s c.kind 6).testBit 1 = true → c.slot < 128 → c.op = 2 → (c.kind = 1 ∨ c.kind = 2 ∨ c.kind = 4) → 1 ≤ vltLen s → vltLen s ≤ 512 → isSet s 0x06 R.VLT.STAT.RNGOK = true → Answers .vltCommandComplete s fun u =>
      u.vlt.cmd = none ∧ isSet u 0x06 R.VLT.STAT.BUSY = false ∧ getF u 0x06 R.VLT.STAT.RESULT = 0 ∧ vltLen u = vltLen s ∧ u.free = s.free + vltLen s ∧ u.applied = s.applied ∧ u.mem = s.mem) ∧
    (running s = true → s.vlt.cmd = some c → tamperState s = false → s.vlt.zeroised = false → (rightsOf s c.kind 6).testBit 1 = true → c.slot < 128 → c.op = 2 → (c.kind = 1 ∨ c.kind = 2 ∨ c.kind = 4) → 1 ≤ vltLen s → vltLen s ≤ 512 → isSet s 0x06 R.VLT.STAT.RNGOK = false → Answers .vltCommandComplete s fun u =>
      u.vlt.cmd = none ∧ isSet u 0x06 R.VLT.STAT.BUSY = false ∧ getF u 0x06 R.VLT.STAT.RESULT = 6 ∧ vltLen u = 0 ∧ u.free = s.free ∧ u.applied = s.applied ∧ u.mem = s.mem) ∧
    (running s = true → s.vlt.cmd = some c → tamperState s = false → s.vlt.zeroised = false → (rightsOf s c.kind 6).testBit 1 = true → c.slot < 128 → s.imm.phase = 0 → (c.op = 0x21 ∧ (c.kind = 1 ∨ c.kind = 3) ∨ c.op = 0x30 ∧ (c.kind = 1 ∨ c.kind = 4)) → vltLen s ≤ 512 → lcs s ≠ 2 → lcs s ≠ 3 → Answers .vltCommandComplete s fun u =>
      u.vlt.cmd = none ∧ isSet u 0x06 R.VLT.STAT.BUSY = false ∧ getF u 0x06 R.VLT.STAT.RESULT = 9 ∧ vltLen u = 0 ∧ u.vlt.keys = s.vlt.keys ∧ u.applied = s.applied ∧ u.mem = s.mem) ∧
    (running s = true → s.vlt.cmd = some c → tamperState s = false → s.vlt.zeroised = false → (rightsOf s c.kind 6).testBit 1 = true → c.slot < 128 → s.imm.phase = 0 → c.op = 0x22 → (c.kind = 1 ∨ c.kind = 3) → vltLen s ≤ 512 → 20 ≤ c.slot → c.slot < 112 → (keyGet s c.slot).held = true → (keyGet s c.slot).users.testBit (c.kind - 1) = true →
      Answers .vltCommandComplete s fun u => u.vlt.cmd = none ∧ isSet u 0x06 R.VLT.STAT.BUSY = false ∧ getF u 0x06 R.VLT.STAT.RESULT = 0 ∧ keyGet u c.slot = KeyRec.none ∧ vltLen u = 0 ∧ u.applied = s.applied ∧ u.mem = s.mem) ∧
    (running s = true → s.vlt.cmd = some c → tamperState s = false → s.vlt.zeroised = false → (rightsOf s c.kind 6).testBit 1 = true → c.slot < 128 → s.imm.phase = 0 → c.op = 0x23 → (c.kind = 1 ∨ c.kind = 3) → vltLen s ≤ 512 → 20 ≤ c.slot → c.slot < 112 → (keyGet s c.slot).held = true → (keyGet s c.slot).users.testBit (c.kind - 1) = true →
      (keyGet s c.slot).usage.testBit 4 = true → keyUsable s c.slot = true → (keyGet s c.slot).gen < 0xFFFF →
      Answers .vltCommandComplete s fun u => u.vlt.cmd = none ∧ isSet u 0x06 R.VLT.STAT.BUSY = false ∧ getF u 0x06 R.VLT.STAT.RESULT = 0 ∧ keyGet u c.slot = { keyGet s c.slot with gen := (keyGet s c.slot).gen + 1 } ∧ vltLen u = 0 ∧ u.applied = s.applied ∧ u.mem = s.mem) ∧
    (running s = true → s.vlt.cmd = some c → tamperState s = false → s.vlt.zeroised = false → (rightsOf s c.kind 6).testBit 1 = true → c.slot < 128 → c.op = 0x50 → vltLen s ≤ 512 → (if vltArg s % 4 < 2 then c.kind = 3 else c.kind = 1) → rollGet s (vltArg s % 4) ≤ vltArg s / 256 % 128 → vltArg s / 256 % 128 ≤ 64 →
      Answers .vltCommandComplete s fun u => u.vlt.cmd = none ∧ isSet u 0x06 R.VLT.STAT.BUSY = false ∧ getF u 0x06 R.VLT.STAT.RESULT = 0 ∧ rollGet u (vltArg s % 4) = vltArg s / 256 % 128 ∧ u.applied = s.applied ∧ u.mem = s.mem) ∧
    (running s = true → s.vlt.cmd = some c → s.imm.phase = 0 → tamperState s = true → Answers .vltCommandComplete s fun u => u.vlt.cmd = none ∧ isSet u 0x06 R.VLT.STAT.BUSY = false ∧ getF u 0x06 R.VLT.STAT.RESULT = 5 ∧ vltLen u = 0 ∧ u.applied = s.applied ∧ u.mem = s.mem) ∧
    (running s = true → s.vlt.cmd = some c → s.imm.phase = 0 → tamperState s = false → s.vlt.zeroised = false → vltIssuer c.op c.kind = false → Answers .vltCommandComplete s fun u =>
      u.vlt.cmd = none ∧ isSet u 0x06 R.VLT.STAT.BUSY = false ∧ getF u 0x06 R.VLT.STAT.RESULT = 1 ∧ Raises u 53 ∧ vltLen u = 0 ∧ u.applied = s.applied ∧ u.mem = s.mem) ∧
    (running s = true → s.vlt.cmd = none → Answers .vltCommandComplete s fun u => u = s) ∧
    (MayCommand s who → Answers (.vltRel who) s fun u => getF u 0x06 R.VLT.STAT.OWNER = 0 ∧ u.vlt = s.vlt ∧ u.applied = s.applied ∧ u.mem = s.mem ∧ u.due = s.due) ∧
    (running s = true → Answers .vltClaimTimeout s fun u => getF u 0x06 R.VLT.STAT.OWNER = 0 ∧ u.vlt = s.vlt ∧ u.applied = s.applied ∧ u.mem = s.mem ∧ u.due = s.due) ∧
    (running s = true → isSet s 0x06 R.VLT.STAT.RNGOK = true → Answers .remask s fun u =>
      (∀ k, k < 128 → (keyShares u k).map (fun e => e.1 ^^^ e.2) = (keyShares s k).map (fun e => e.1 ^^^ e.2)) ∧
      (∀ k, k < 128 → (keyShares u k).map Prod.snd = (keyShares s k).map fun _ =>
        (freshNat { s with free := s.free + ((List.range k).filter fun j => (keyShares s j).isSome).length } (2 ^ 512)).2) ∧
      u.vlt = { s.vlt with kram := u.vlt.kram, drbg := (drbgRequest s).vlt.drbg } ∧ u.regs = s.regs ∧ u.applied = s.applied ∧ u.mem = s.mem ∧ u.due = s.due) ∧
    (running s = true → isSet s 0x06 R.VLT.STAT.RNGOK = false → Answers .remask s fun u => u = s) ∧
    (running s = true → Answers .rngHealthFail s fun u => isSet u 0x06 R.VLT.STAT.RNGOK = false ∧ Raises u 49 ∧ u.vlt = s.vlt ∧ u.applied = s.applied ∧ u.mem = s.mem) ∧
    ((s.mode = .hold ∨ s.mode = .run ∨ s.mode = .limp) → s.park = .none → tamperArmed s src.val = true → isSet s 0x1A R.IMM.STAT.AUTH = false → isSet s 0x1A R.IMM.STAT.BUSY = false →
      Answers (.tamperEvent src also sec sub) s fun u => tamperState u = true ∧ u.vlt.zeroised = true ∧ u.vlt.kram = [] ∧ u.vlt.cmd = none ∧
        getF u 0x06 R.VLT.TCNT.CNT = satInc 65535 (getF s 0x06 R.VLT.TCNT.CNT) ∧ getF u 0x06 R.VLT.TINFO.SRC = 2 ^ src.val ∧ Raises u 48 ∧ u.mode = s.mode ∧ u.applied = s.applied ∧ u.mem = s.mem) ∧
    ((s.mode = .park ∨ s.mode = .watch ∨ s.mode = .listen) → s.park = .none → tamperArmed s src.val = true → Answers (.tamperEvent src also sec sub) s fun u => u.mode = .boot ∧ tamperState u = true ∧
        getF u 0x01 R.PMU.WAKESRC.SRC = 8 ∧ Raises u 48)

/-- UPD.CMD, its results, distribution and the trial (21). That PRECHK with nothing pending answers NONE, and that TRUN counts ten seconds a record, are notes/assumptions/52 and 53. -/
def Obligations.UpdateCommands : Prop :=
  ∀ (s : State) (who : Who) (key : Byte) (gen : Bool), Canon s →
    (MayWrite s who 0x07 0x114 → (s.mode = .hold ∨ s.mode = .run ∨ s.mode = .limp) → isSet s 0x07 R.UPD.SRES.BUSY = false → (s.upd.state ≠ 1 ∨ getF s 0x07 R.UPD.STAT.STATE ≠ 1) → Answers (.confirm who 0xC3) s fun u => isSet u 0x07 R.UPD.SRES.BUSY = true ∧
      getF u 0x07 R.UPD.SRES.OP = 1 ∧ u.upd = { s.upd with gen := 0, asked := false } ∧ u.applied = s.applied ∧ u.mem = s.mem ∧ u.due = s.due) ∧
    (MayWrite s who 0x07 0x114 → (s.mode = .hold ∨ s.mode = .run ∨ s.mode = .limp) → isSet s 0x07 R.UPD.SRES.BUSY = false → s.upd.state = 1 → getF s 0x07 R.UPD.STAT.STATE = 1 → Answers (.confirm who 0xC3) s fun u => isSet u 0x07 R.UPD.SRES.BUSY = true ∧
      getF u 0x07 R.UPD.SRES.OP = 1 ∧ u.upd = { s.upd with gen := 0, asked := true, state := 2 } ∧ u.applied = s.applied ∧ u.mem = s.mem ∧ u.due = s.due) ∧
    (MayWrite s who 0x07 0x114 → (s.mode = .hold ∨ s.mode = .run ∨ s.mode = .limp) → isSet s 0x07 R.UPD.SRES.BUSY = false → blockOff s 0x07 = false → Answers (.setsel who 0xC3 gen) s fun u => isSet u 0x07 R.UPD.SRES.BUSY = true ∧
      getF u 0x07 R.UPD.SRES.OP = 2 ∧ u.upd = { s.upd with gen := gen.toNat, asked := false } ∧ u.applied = s.applied ∧ u.mem = s.mem ∧ u.due = s.due) ∧
    (MayWrite s who 0x07 0x114 → (s.mode = .hold ∨ s.mode = .run ∨ s.mode = .limp) → isSet s 0x07 R.UPD.SRES.BUSY = false → blockOff s 0x07 = false → Answers (.setselrst who 0xC3 gen) s fun u => isSet u 0x07 R.UPD.SRES.BUSY = true ∧
      getF u 0x07 R.UPD.SRES.OP = 3 ∧ u.upd = { s.upd with gen := gen.toNat, asked := false } ∧ u.applied = s.applied ∧ u.mem = s.mem ∧ u.due = s.due) ∧
    (MayWrite s who 0x07 0x114 → (s.mode = .hold ∨ s.mode = .run ∨ s.mode = .limp) → isSet s 0x07 R.UPD.SRES.BUSY = false → blockOff s 0x07 = false → Answers (.prechk who 0xC3) s fun u => isSet u 0x07 R.UPD.SRES.BUSY = true ∧
      getF u 0x07 R.UPD.SRES.OP = 4 ∧ u.upd = { s.upd with gen := 0, asked := false } ∧ u.applied = s.applied ∧ u.mem = s.mem ∧ u.due = s.due) ∧
    (MayWrite s who 0x07 0x114 → (s.mode = .hold ∨ s.mode = .run ∨ s.mode = .limp) → isSet s 0x07 R.UPD.SRES.BUSY = false → blockOff s 0x07 = false → Answers (.install who 0xC3) s fun u => isSet u 0x07 R.UPD.SRES.BUSY = true ∧
      getF u 0x07 R.UPD.SRES.OP = 5 ∧ u.upd = { s.upd with gen := 0, asked := false } ∧ u.applied = s.applied ∧ u.mem = s.mem ∧ u.due = s.due) ∧
    (MayWrite s who 0x07 0x114 → key ≠ 0xC3 → Answers (.confirm who key) s fun u => isSet u 0x07 H.WERR = true ∧ getF u 0x07 H.FOFF = 0x45 ∧
      u.upd = s.upd ∧ u.applied = s.applied ∧ u.mem = s.mem ∧ u.due = s.due) ∧
    (MayWrite s who 0x07 0x114 → key ≠ 0xC3 → Answers (.setsel who key gen) s fun u => isSet u 0x07 H.WERR = true ∧ getF u 0x07 H.FOFF = 0x45 ∧
      u.upd = s.upd ∧ u.applied = s.applied ∧ u.mem = s.mem ∧ u.due = s.due) ∧
    (MayWrite s who 0x07 0x114 → key ≠ 0xC3 → Answers (.setselrst who key gen) s fun u => isSet u 0x07 H.WERR = true ∧ getF u 0x07 H.FOFF = 0x45 ∧
      u.upd = s.upd ∧ u.applied = s.applied ∧ u.mem = s.mem ∧ u.due = s.due) ∧
    (MayWrite s who 0x07 0x114 → key ≠ 0xC3 → Answers (.prechk who key) s fun u => isSet u 0x07 H.WERR = true ∧ getF u 0x07 H.FOFF = 0x45 ∧
      u.upd = s.upd ∧ u.applied = s.applied ∧ u.mem = s.mem ∧ u.due = s.due) ∧
    (MayWrite s who 0x07 0x114 → key ≠ 0xC3 → Answers (.install who key) s fun u => isSet u 0x07 H.WERR = true ∧ getF u 0x07 H.FOFF = 0x45 ∧
      u.upd = s.upd ∧ u.applied = s.applied ∧ u.mem = s.mem ∧ u.due = s.due) ∧
    (running s = true → isSet s 0x07 R.UPD.SRES.BUSY = true → getF s 0x07 R.UPD.SRES.OP = 1 → (s.upd.asked = false ∨ s.upd.state ≠ 2) → Answers .updCommandComplete s fun u =>
      isSet u 0x07 R.UPD.SRES.BUSY = false ∧ getF u 0x07 R.UPD.SRES.RES = 0x20 ∧ u.upd = s.upd ∧ u.applied = s.applied ∧ u.mem = s.mem ∧ u.due = s.due) ∧
    (running s = true → isSet s 0x07 R.UPD.SRES.BUSY = true → getF s 0x07 R.UPD.SRES.OP = 1 → s.upd.asked = true → s.upd.state = 2 → Answers .updCommandComplete s fun u =>
      isSet u 0x07 R.UPD.SRES.BUSY = false ∧ getF u 0x07 R.UPD.SRES.RES = 1 ∧ u.upd.state = 0 ∧ u.upd.conf = s.upd.trial ∧ u.upd.prevv = false ∧
      rollGet u 0 = max (rollGet s 0) (min 64 (slotNat s s.upd.trial 0x0C 1)) ∧ rollGet u 1 = max (rollGet s 1) (min 64 (slotNat s s.upd.trial 0x0D 1)) ∧
      rollGet u 2 = rollGet s 2 ∧ rollGet u 3 = rollGet s 3 ∧ u.applied = s.applied ∧ u.mem = s.mem ∧ u.due = s.due) ∧
    (running s = true → isSet s 0x07 R.UPD.SRES.BUSY = true → getF s 0x07 R.UPD.SRES.OP = 2 → setselCheck s s.upd.gen = 0x21 → Answers .updCommandComplete s fun u =>
      isSet u 0x07 R.UPD.SRES.BUSY = false ∧ getF u 0x07 R.UPD.SRES.RES = 0x21 ∧ u.upd = s.upd ∧ u.applied = s.applied ∧ u.mem = s.mem ∧ u.due = s.due) ∧
    (running s = true → isSet s 0x07 R.UPD.SRES.BUSY = true → getF s 0x07 R.UPD.SRES.OP = 2 → setselCheck s s.upd.gen = 1 → Answers .updCommandComplete s fun u =>
      isSet u 0x07 R.UPD.SRES.BUSY = false ∧ getF u 0x07 R.UPD.SRES.RES = 1 ∧ u.mem = (dirWrite s s.upd.gen).mem ∧ u.applied = s.applied ∧ u.due = s.due) ∧
    (running s = true → isSet s 0x07 R.UPD.SRES.BUSY = true → getF s 0x07 R.UPD.SRES.OP = 3 → setselCheck s s.upd.gen = 0x21 → Answers .updCommandComplete s fun u =>
      isSet u 0x07 R.UPD.SRES.BUSY = false ∧ getF u 0x07 R.UPD.SRES.RES = 0x21 ∧ u.upd = s.upd ∧ u.applied = s.applied ∧ u.mem = s.mem ∧ u.due = s.due) ∧
    (running s = true → isSet s 0x07 R.UPD.SRES.BUSY = true → getF s 0x07 R.UPD.SRES.OP = 3 → setselCheck s s.upd.gen = 1 → Answers .updCommandComplete s fun u =>
      u.mode = .boot ∧ getF u 0x03 R.RST.CAUSE.SRC = 7) ∧
    (running s = true → isSet s 0x07 R.UPD.SRES.BUSY = true → getF s 0x07 R.UPD.SRES.OP = 4 → slipPending s = false → Answers .updCommandComplete s fun u =>
      isSet u 0x07 R.UPD.SRES.BUSY = false ∧ getF u 0x07 R.UPD.SRES.RES = 0 ∧ u.upd = s.upd ∧ u.applied = s.applied ∧ u.mem = s.mem ∧ u.due = s.due) ∧
    (running s = true → isSet s 0x07 R.UPD.SRES.BUSY = true → getF s 0x07 R.UPD.SRES.OP = 5 → slipPending s = false → Answers .updCommandComplete s fun u =>
      isSet u 0x07 R.UPD.SRES.BUSY = false ∧ getF u 0x07 R.UPD.SRES.RES = 0 ∧ u.upd = s.upd ∧ (s.mode ≠ .boot → Raises u 56) ∧ u.applied = s.applied ∧ u.mem = s.mem) ∧
    (MayWrite s who 0x07 0x140 → jxrActive s = true → jxrRole s = 1 → distBusy s = false → blockOff s 0x07 = false → s.jxr.enumPh = 0 → s.jxr.conflict = false → s.jxr.queue = [] → 0 < distFrames s →
      cfgOn s 0x07 R.UPD.DDST.BC = true → distSource s (distIndex s 0) = some true → (distFetch s (distIndex s 0)).2 = true → Answers (.distributionStart who) s fun u => isSet u 0x07 R.UPD.DSTAT.BUSY = true ∧
        getF u 0x07 R.UPD.DSTAT.FRAMES = 1 ∧ u.upd.next = 1 ∧
        (u.jxr.queue.map fun e => (e.1, e.2.ty, e.2.bc, e.2.data)) = [(false, 8, true, distData s (distIndex s 0))] ∧ u.applied = s.applied ∧ u.mem = s.mem ∧ u.due = s.due) ∧
    (MayWrite s who 0x07 0x140 → jxrRole s ≠ 1 → Answers (.distributionStart who) s fun u => isSet u 0x07 H.WERR = true ∧ getF u 0x07 H.FOFF = 0x50 ∧ u.upd = s.upd ∧ u.applied = s.applied ∧ u.mem = s.mem ∧ u.due = s.due) ∧
    (MayWrite s who 0x07 0x140 → distBusy s = true → s.upd.await = none → s.jxr.enumPh = 0 → s.jxr.conflict = false → s.jxr.queue = [] → Answers (.distributionStop who) s fun u =>
      isSet u 0x07 R.UPD.DSTAT.BUSY = false ∧ u.upd.stop = false ∧ u.applied = s.applied ∧ u.mem = s.mem ∧ u.due = s.due) ∧
    (MayWrite s who 0x07 0x140 → distBusy s = true → s.upd.await ≠ none → Answers (.distributionStop who) s fun u =>
      isSet u 0x07 R.UPD.DSTAT.BUSY = true ∧ u.upd = { s.upd with stop := true } ∧ u.applied = s.applied ∧ u.mem = s.mem ∧ u.due = s.due) ∧
    (running s = true → distBusy s = true → distFrames s ≤ s.upd.next → s.upd.await = none → s.jxr.queue = [] → Answers .distributionDone s fun u =>
      isSet u 0x07 R.UPD.DSTAT.BUSY = false ∧ isSet u 0x07 R.UPD.DSTAT.DONE = true ∧ u.upd = s.upd ∧ u.applied = s.applied ∧ u.mem = s.mem ∧ u.due = s.due) ∧
    (s.mode = .run → s.upd.state = 1 → Answers .trialRecordWrite s fun u => getF u 0x07 R.UPD.TRUN.SEC = getF s 0x07 R.UPD.TRUN.SEC - 10 ∧
      u.upd.trun = getF s 0x07 R.UPD.TRUN.SEC - 10 ∧ u.applied = s.applied ∧ u.mem = s.mem ∧ u.due = s.due) ∧
    (s.mode = .run → s.upd.state = 1 → Answers .trialExpiry s fun u => u.mode = .boot ∧ getF u 0x03 R.RST.CAUSE.SRC = 7 ∧ u.upd.revert = true ∧ u.upd.state = 1)

/-- Fault collection from outside (22). -/
def Obligations.FaultCommands : Prop :=
  ∀ (s : State) (who : Who) (id : BitVec 11) (key : Byte) (dt : BitVec 16), Canon s →
    (running s = true → (blkOf (id.toNat / 8)).isSome = true → (pageCap (id.toNat / 8)).fsrc.testBit (id.toNat % 8) = true → id.toNat % 8 ≠ 7 → id ≠ 32 → id ≠ 1288 →
      pageProt (id.toNat / 8) = none → Answers (.faultEvent id) s fun u => Raises u id.toNat ∧ u.regs = s.regs ∧ u.applied = s.applied ∧ u.mem = s.mem) ∧
    (running s = true → (pageCap (id.toNat / 8)).fsrc.testBit (id.toNat % 8) = false → Answers (.faultEvent id) s fun u => u = s) ∧
    (MayWrite s who 0x04 0x104 → id ≠ 0x7FF → storeGet (fun _ => 15) s.flt.opened id.toNat ≠ 15 → asserted s id.toNat = false → Answers (.fltAck who id 0x3C) s fun u => getF u 0x04 R.FLT.SUM.ACKRES = 0 ∧
      storeGet (fun _ => 15) u.flt.opened id.toNat = 15 ∧ (id.toNat < 2047 → (rd u 0x04 (0x200 + 4 * (id.toNat / 32))).getLsbD (id.toNat % 32) = false) ∧ u.applied = s.applied ∧ u.mem = s.mem ∧ u.due = s.due) ∧
    (MayWrite s who 0x04 0x104 → id ≠ 0x7FF → storeGet (fun _ => 15) s.flt.opened id.toNat = 15 → Answers (.fltAck who id 0x3C) s fun u => getF u 0x04 R.FLT.SUM.ACKRES = 1 ∧ u.flt = s.flt ∧ u.applied = s.applied ∧ u.mem = s.mem ∧ u.due = s.due) ∧
    (MayWrite s who 0x04 0x104 → id ≠ 0x7FF → storeGet (fun _ => 15) s.flt.opened id.toNat ≠ 15 → asserted s id.toNat = true → Answers (.fltAck who id 0x3C) s fun u => getF u 0x04 R.FLT.SUM.ACKRES = 2 ∧ u.flt = s.flt ∧ u.applied = s.applied ∧ u.mem = s.mem ∧ u.due = s.due) ∧
    (MayWrite s who 0x04 0x104 → key ≠ 0x3C → Answers (.fltAck who id key) s fun u => isSet u 0x04 H.WERR = true ∧ getF u 0x04 H.FOFF = 0x41 ∧ u.flt = s.flt ∧ u.applied = s.applied ∧ u.mem = s.mem ∧ u.due = s.due) ∧
    (MayWrite s who 0x04 0x104 → s.flt.opened ≠ [] → (∀ e ∈ s.flt.opened, asserted s e.1 = false) → Answers (.fltAckAll who 0x3C) s fun u =>
      getF u 0x04 R.FLT.SUM.ACKRES = 0 ∧ u.flt.opened = [] ∧ u.applied = s.applied ∧ u.mem = s.mem ∧ u.due = s.due) ∧
    ((s.mode = .hold ∨ s.mode = .run) → s.flt.kickOff = false → s.flt.kicked = true → key = (if s.flt.nextA5 then 0xA5 else 0x5A) → cfg s 0x04 R.FLT.AWIN.TMIN ≤ dt.toNat → dt.toNat ≤ cfg s 0x04 R.FLT.AWIN.TMAX →
      Answers (.fltAkick .app key dt) s fun u => u.flt = { s.flt with nextA5 := !s.flt.nextA5 } ∧ isSet u 0x04 R.FLT.SUM.ALIVE = !s.flt.aliveStop ∧ u.ans = none ∧ u.applied = s.applied ∧ u.mem = s.mem ∧ u.due = s.due) ∧
    ((s.mode = .hold ∨ s.mode = .run) → s.flt.kickOff = false → key ≠ (if s.flt.nextA5 then 0xA5 else 0x5A) → Answers (.fltAkick .app key dt) s fun u =>
      u.flt.kickOff = true ∧ u.flt.aliveStop = true ∧ isSet u 0x04 R.FLT.SUM.ALIVE = false ∧ Raises u 36 ∧ u.applied = s.applied ∧ u.mem = s.mem) ∧
    (running s = true → who ≠ .app → (rightsOf s (whoKind who) 4).testBit 1 = true → Answers (.fltAkick who key dt) s fun u => u = { s with ans := some .err }) ∧
    ((s.mode = .hold ∨ s.mode = .run) → s.flt.kickOff = false → Answers .kickTimeout s fun u => u.flt.kickOff = true ∧ u.flt.aliveStop = true ∧ isSet u 0x04 R.FLT.SUM.ALIVE = false ∧ Raises u 36 ∧ u.applied = s.applied ∧ u.mem = s.mem) ∧
    (s.mode = .run → Answers .resetCountClear s fun u => getF u 0x04 R.FLT.RCNT.CNT = 0 ∧ u.flt = s.flt ∧ u.applied = s.applied ∧ u.mem = s.mem ∧ u.due = s.due) ∧
    (MayRead s who 0x04 → Answers (.fltNewcntRead who) s fun u => u.ans = some (.val (rd s 0x04 0x10C)) ∧ getF u 0x04 R.FLT.NEWCNT.CNT = 0 ∧ u.applied = s.applied ∧ u.mem = s.mem ∧ u.due = s.due)

/-- External memory, the journal and the spares (23). That a program ANDs and an erase leaves 0xFF is notes/assumptions/38; a failed one leaves free bytes. -/
def Obligations.MemoryCommands : Prop :=
  ∀ (s : State) (who : Who) (cs : BitVec 2) (v : Word) (bad : List Nat) (row : Fin 28672) (slot : Fin 112) (reads : Byte) (ok : Bool), Canon s →
    (MayWrite s who 0x98 0x108 → blockOff s 0x98 = false → s.xsp.cmd = none → s.jrn.op = none → cs.toNat < 2 → xspSize s cs.toNat ≠ 0 → (if cs = 0 then 0 else xspSize s 0) ≤ getF s 0x98 R.XSP.CADDR.ADDR → getF s 0x98 R.XSP.CADDR.ADDR < (if cs = 0 then 0 else xspSize s 0) + xspSize s cs.toNat → 0x20000000 ≤ getF s 0x98 R.XSP.CBUF.ADDR → getF s 0x98 R.XSP.CBUF.ADDR + xspPage s cs.toNat ≤ 0x20200000 → (getF s 0x98 R.XSP.CADDR.ADDR - (if cs = 0 then 0 else xspSize s 0)) % xspPage s cs.toNat = 0 → getF s 0x98 R.XSP.CBUF.ADDR % 4 = 0 →
      Answers (.prog who cs) s fun u => u.xsp.cmd = some (1, cs.toNat) ∧ u.xsp.addr = getF s 0x98 R.XSP.CADDR.ADDR ∧ u.xsp.buf = getF s 0x98 R.XSP.CBUF.ADDR ∧ getF u 0x98 R.XSP.CRES.RES = 6 ∧ (getF u 0x98 R.XSP.STAT.BUSY).testBit cs.toNat = true ∧ u.applied = s.applied ∧ u.mem = s.mem ∧ u.due = s.due) ∧
    (MayWrite s who 0x98 0x108 → blockOff s 0x98 = false → s.xsp.cmd = none → s.jrn.op = none → cs.toNat < 2 → xspSize s cs.toNat ≠ 0 → (if cs = 0 then 0 else xspSize s 0) ≤ getF s 0x98 R.XSP.CADDR.ADDR → getF s 0x98 R.XSP.CADDR.ADDR < (if cs = 0 then 0 else xspSize s 0) + xspSize s cs.toNat → (getF s 0x98 R.XSP.CADDR.ADDR - (if cs = 0 then 0 else xspSize s 0)) % xspUnit s cs.toNat = 0 → Answers (.erase who cs) s fun u => u.xsp.cmd = some (2, cs.toNat) ∧ u.xsp.addr = getF s 0x98 R.XSP.CADDR.ADDR ∧ u.xsp.buf = getF s 0x98 R.XSP.CBUF.ADDR ∧ getF u 0x98 R.XSP.CRES.RES = 6 ∧ (getF u 0x98 R.XSP.STAT.BUSY).testBit cs.toNat = true ∧ u.applied = s.applied ∧ u.mem = s.mem ∧ u.due = s.due) ∧
    (MayWrite s who 0x98 0x108 → blockOff s 0x98 = false → s.xsp.cmd = none → s.jrn.op = none → cs.toNat < 2 → xspSize s cs.toNat ≠ 0 → Answers (.format who cs) s fun u => u.xsp.cmd = some (3, cs.toNat) ∧ u.xsp.addr = getF s 0x98 R.XSP.CADDR.ADDR ∧ u.xsp.buf = getF s 0x98 R.XSP.CBUF.ADDR ∧ getF u 0x98 R.XSP.CRES.RES = 6 ∧ (getF u 0x98 R.XSP.STAT.BUSY).testBit cs.toNat = true ∧ u.applied = s.applied ∧ u.mem = s.mem ∧ u.due = s.due) ∧
    (MayWrite s who 0x98 0x108 → blockOff s 0x98 = false → s.xsp.cmd = none → s.jrn.op ≠ none → cs.toNat < 2 → xspSize s cs.toNat ≠ 0 → Answers (.format who cs) s fun u =>
      u.xsp.cmd = some (3, cs.toNat) ∧ getF u 0x98 R.XSP.CRES.RES = 6 ∧ getF u 0x98 R.XSP.STAT.BUSY = getF s 0x98 R.XSP.STAT.BUSY ∧ u.jrn = s.jrn ∧ u.applied = s.applied ∧ u.mem = s.mem ∧ u.due = s.due) ∧
    (running s = true → distBusy s = false → s.xsp.cmd ≠ none → s.jrn.op ≠ none → Answers (.xspCommandDone ok bad) s fun u => u = s) ∧
    (MayWrite s who 0x98 0x108 → blockOff s 0x98 = false → s.xsp.cmd = none → s.jrn.op = none → cs.toNat < 2 → xspSize s cs.toNat ≠ 0 → (getF s 0x98 R.XSP.CADDR.ADDR < (if cs = 0 then 0 else xspSize s 0) ∨ (if cs = 0 then 0 else xspSize s 0) + xspSize s cs.toNat ≤ getF s 0x98 R.XSP.CADDR.ADDR) → Answers (.erase who cs) s fun u => getF u 0x98 R.XSP.CRES.RES = 2 ∧ u.xsp = s.xsp ∧ u.applied = s.applied ∧ u.mem = s.mem ∧ u.due = s.due) ∧
    (MayWrite s who 0x98 0x108 → blockOff s 0x98 = false → s.xsp.cmd = none → s.jrn.op = none → cs.toNat < 2 → xspSize s cs.toNat ≠ 0 → (if cs = 0 then 0 else xspSize s 0) ≤ getF s 0x98 R.XSP.CADDR.ADDR → getF s 0x98 R.XSP.CADDR.ADDR < (if cs = 0 then 0 else xspSize s 0) + xspSize s cs.toNat → (getF s 0x98 R.XSP.CADDR.ADDR - (if cs = 0 then 0 else xspSize s 0)) % xspUnit s cs.toNat ≠ 0 → Answers (.erase who cs) s fun u => getF u 0x98 R.XSP.CRES.RES = 1 ∧ u.xsp = s.xsp ∧ u.applied = s.applied ∧ u.mem = s.mem ∧ u.due = s.due) ∧
    (running s = true → distBusy s = false → s.jrn.op = none → s.xsp.cmd = some (1, cs.toNat) → Answers (.xspCommandDone false bad) s fun u => u.xsp.cmd = none ∧ getF u 0x98 R.XSP.CRES.RES = 0 ∧
      (getF u 0x98 R.XSP.STAT.BUSY).testBit cs.toNat = false ∧
      (∀ i, i < xspPage s cs.toNat → memGet u.mem (0x100000000 + s.xsp.addr + i) = memGet s.mem (s.xsp.buf + i) &&& memGet s.mem (0x100000000 + s.xsp.addr + i)) ∧
      (∀ a, a < 0x100000000 + s.xsp.addr ∨ 0x100000000 + s.xsp.addr + xspPage s cs.toNat ≤ a → memGet u.mem a = memGet s.mem a) ∧ u.applied = s.applied ∧ u.due = s.due) ∧
    (running s = true → distBusy s = false → s.jrn.op = none → s.xsp.cmd = some (2, cs.toNat) → Answers (.xspCommandDone false bad) s fun u => u.xsp.cmd = none ∧ getF u 0x98 R.XSP.CRES.RES = 0 ∧
      (∀ i, i < xspUnit s cs.toNat → memGet u.mem (0x100000000 + s.xsp.addr + i) = 0xFF) ∧
      (∀ a, a < 0x100000000 + s.xsp.addr ∨ 0x100000000 + s.xsp.addr + xspUnit s cs.toNat ≤ a → memGet u.mem a = memGet s.mem a) ∧ u.applied = s.applied ∧ u.due = s.due) ∧
    (running s = true → s.jrn.op = none → s.xsp.cmd = some (1, cs.toNat) → xspNand s cs.toNat = false → Answers (.xspCommandDone true bad) s fun u => u.xsp.cmd = none ∧ getF u 0x98 R.XSP.CRES.RES = 3 ∧ Raises u 1219 ∧
      (∀ a, a < 0x100000000 + s.xsp.addr ∨ 0x100000000 + s.xsp.addr + xspPage s cs.toNat ≤ a → memGet u.mem a = memGet s.mem a) ∧ u.applied = s.applied) ∧
    (running s = true → getF s 0x98 R.XSP.STAT.BUSY ≠ 0 → Answers .xspBusyTimeout s fun u => Raises u 1220 ∧ u.regs = s.regs ∧ u.applied = s.applied ∧ u.mem = s.mem) ∧
    (∀ (o : JrnOp), running s = true → jrnOn s = true → s.jrn.op = none → s.xsp.cmd = none → 0 < jrnCap s → jrnPlan s = some o → Answers (.journalCopy ok) s fun u =>
      u.jrn = { s.jrn with op := some o, buf := jrnBuffer s o } ∧ (getF u 0x98 R.XSP.STAT.BUSY).testBit (jrnCs s) = true ∧ u.applied = s.applied ∧ u.mem = s.mem ∧ u.due = s.due) ∧
    (running s = true → s.jrn.op = none → (jrnOn s = false ∨ s.xsp.cmd ≠ none) → Answers (.journalCopy ok) s fun u => u = s) ∧
    (∀ (n q : Nat) (ws : List Word), running s = true → distBusy s = false → s.xsp.cmd = none → s.jrn.op = some (.record q) → s.jrn.ring = [(q, ws)] → ws.length = 16 → s.jrn.cur = some n →
      xspNand s (jrnCs s) = false → s.jrn.buf = jrnBuffer s (.record q) → jrnPlace s n s.jrn.fill + 64 ≤ jrnPageAt s (jrnPlace s n s.jrn.fill) + xspPage s (jrnCs s) →
      Answers (.journalCopy true) s fun u => u.jrn.ring = [] ∧ u.jrn.op = none ∧ u.jrn.fill = s.jrn.fill + 1 ∧ (getF u 0x98 R.XSP.STAT.BUSY).testBit (jrnCs s) = false ∧
        (∀ i, i < 64 → memGet u.mem (0x100000000 + jrnPlace s n s.jrn.fill + i) =
          (ws.flatMap wordBytes).getD i 0 &&& memGet s.mem (0x100000000 + jrnPlace s n s.jrn.fill + i)) ∧
        (∀ a, a < 0x100000000 + jrnPlace s n s.jrn.fill ∨ 0x100000000 + jrnPlace s n s.jrn.fill + 64 ≤ a → memGet u.mem a = memGet s.mem a) ∧ u.applied = s.applied ∧ u.due = s.due) ∧
    (∀ (n : Nat), running s = true → distBusy s = false → s.xsp.cmd = none → s.jrn.op = some (.erase n) → Answers (.journalCopy true) s fun u => u.jrn.op = none ∧ u.jrn.ready = some n ∧
      u.jrn.next = (n + 1) % max 1 s.jrn.units ∧ (∀ i, i < jrnUnitBytes s → memGet u.mem (0x100000000 + jrnAddr s n + i) = 0xFF) ∧
      (∀ a, a < 0x100000000 + jrnAddr s n ∨ 0x100000000 + jrnAddr s n + jrnUnitBytes s ≤ a → memGet u.mem a = memGet s.mem a) ∧ u.applied = s.applied ∧ u.due = s.due) ∧
    (∀ (n : Nat), running s = true → distBusy s = false → s.xsp.cmd = none → s.jrn.op = some (.erase n) → xspNand s (jrnCs s) = false → Answers (.journalCopy false) s fun u =>
      u.jrn.op = none ∧ u.jrn.ready = none ∧ Raises u 1219 ∧ Raises u 1225 ∧ u.applied = s.applied) ∧
    (∀ (n q : Nat), running s = true → distBusy s = false → s.xsp.cmd = none → s.jrn.op = some (.header n q) → xspNand s (jrnCs s) = false → Answers (.journalCopy true) s fun u =>
      u.jrn.op = none ∧ u.jrn.cur = some n ∧ u.jrn.fill = 0 ∧ u.jrn.ready = none ∧ u.jrn.useq = s.jrn.useq + 1 ∧ u.jrn.ring = s.jrn.ring ∧ u.applied = s.applied ∧ u.due = s.due) ∧
    (MayWrite s who 0x99 0x110 → Answers (.jrnRseqWrite who v) s fun u => rd u 0x99 0x110 = v ∧ getF u 0x99 R.JRN.RRES.RES = 1 ∧ u.jrn.fetch = true ∧ u.applied = s.applied ∧ u.mem = s.mem ∧ u.due = s.due) ∧
    (∀ (q : Nat) (ws : List Word), running s = true → s.jrn.fetch = true → getF s 0x99 R.JRN.RSEQ.SEQ = q → getF s 0x99 R.JRN.TAIL.SEQ ≤ q → q ≤ getF s 0x99 R.JRN.HEAD.SEQ →
      jrnStaged s q = some ws → Answers .jrnFetchDone s fun u => getF u 0x99 R.JRN.RRES.RES = 0 ∧ (∀ i, i < 16 → rd u 0x99 (0x140 + 4 * i) = ws.getD i 0) ∧ u.jrn.fetch = false ∧ u.applied = s.applied ∧ u.mem = s.mem ∧ u.due = s.due) ∧
    (∀ (q a : Nat), running s = true → s.jrn.fetch = true → getF s 0x99 R.JRN.RSEQ.SEQ = q → getF s 0x99 R.JRN.TAIL.SEQ ≤ q → q ≤ getF s 0x99 R.JRN.HEAD.SEQ →
      jrnStaged s q = none → jrnFind s q = some a → (xspCs s a).isSome = true → xspBusy s (jrnCs s) = false → xspNand s (jrnCs s) = false →
      Answers .jrnFetchDone s fun u => getF u 0x99 R.JRN.RRES.RES = 0 ∧ (∀ i, i < 16 → rd u 0x99 (0x140 + 4 * i) = memWord s.mem (0x100000000 + a + 4 * i)) ∧ u.jrn.fetch = false ∧ u.applied = s.applied ∧ u.mem = s.mem ∧ u.due = s.due) ∧
    (∀ (q a : Nat), running s = true → s.jrn.fetch = true → getF s 0x99 R.JRN.RSEQ.SEQ = q → getF s 0x99 R.JRN.TAIL.SEQ ≤ q → q ≤ getF s 0x99 R.JRN.HEAD.SEQ →
      jrnStaged s q = none → jrnFind s q = some a → (xspCs s a).isSome = true → xspBusy s (jrnCs s) = true → Answers .jrnFetchDone s fun u => u = s) ∧
    (running s = true → s.jrn.fetch = true → getF s 0x99 R.JRN.HEAD.SEQ < getF s 0x99 R.JRN.RSEQ.SEQ → Answers .jrnFetchDone s fun u => getF u 0x99 R.JRN.RRES.RES = 2 ∧
      u.jrn.fetch = false ∧ u.applied = s.applied ∧ u.mem = s.mem ∧ u.due = s.due) ∧
    (MayWrite s who 0x99 0x118 → Answers (.jrnClrTotal who) s fun u => getF u 0x99 R.JRN.TOTAL.CNT = 0 ∧ u.jrn = s.jrn ∧ u.applied = s.applied ∧ u.mem = s.mem ∧ u.due = s.due) ∧
    (MayRead s who 0x99 → Answers (.jrnLostRead who) s fun u => u.ans = some (.val (rd s 0x99 0x10C)) ∧ getF u 0x99 R.JRN.LOST.CNT = 0 ∧ u.jrn = s.jrn ∧ u.applied = s.applied ∧ u.mem = s.mem ∧ u.due = s.due) ∧
    (running s = true → cfg s 0x9A R.SPR.CFG.MRTH ≤ reads.toNat → blockOff s 0x9A = false → s.spr.rows.length < 573 → Answers (.mramRowSubstitute ⟨row, reads⟩ false) s fun u =>
      u.spr.rows = row.val :: s.spr.rows ∧ rd u 0x9A 0x140 = BitVec.ofNat 32 (2 ^ 28 + row.val) ∧ Raises u 1232 ∧ u.applied = s.applied ∧ u.mem = s.mem) ∧
    (running s = true → reads.toNat < cfg s 0x9A R.SPR.CFG.MRTH → Answers (.mramRowSubstitute ⟨row, reads⟩ false) s fun u => u = s) ∧
    (running s = true → blockOff s 0x9A = false → s.spr.rows.length < 573 → Answers (.mramRowSubstitute ⟨row, reads⟩ true) s fun u => u.spr.rows = row.val :: s.spr.rows ∧
      Raises u 1232 ∧ Raises u 1235 ∧ u.applied = s.applied ∧
      (∀ a, a < 0x10000000 + 256 * row.val ∨ 0x10000000 + 256 * row.val + 256 ≤ a → memGet u.mem a = memGet s.mem a)) ∧
    (running s = true → (keysNamed s).any (keyAbove s slot.val 128) = false → blockOff s 0x9A = false → s.spr.keys.length < 16 → Answers (.keySlotSubstitute slot) s fun u =>
      u.spr.keys = (slot.val, 112 + s.spr.keys.length) :: s.spr.keys ∧ u.vlt = s.vlt ∧ Raises u 1232 ∧ u.applied = s.applied ∧ u.mem = s.mem)

/-- Writes at an address by an initiator (01 Table 6; 02, R35 to R49) -/
def Obligations.RegisterWrites : Prop :=
  ∀ (s : State) (who : Who) (p off : Nat) (size : AccSize) (a v : Word), Canon s →
    (MayWrite s who p off → p < 256 → off < 4096 → off % 4 = 0 → 0x800 ≤ off → isSet s p H.LOCKED = false → getF s p H.CST = 0 → (fieldsAt p off).isEmpty = false →
      (enabled s p = true → (rd s p off ^^^ v) &&& rwlMask p off = 0) → Answers (.registerWrite who (BitVec.ofNat 32 (pageAddr p off)) .word v) s fun u => rd u p off = v ∧ u.ans = none ∧ u.applied = s.applied ∧ u.mem = s.mem ∧ (∀ q o, o < 4096 → (q ≠ p ∨ o / 4 ≠ off / 4) → rd u q o = rd s q o)) ∧
    (MayWrite s who p off → p < 256 → off < 4096 → off % 4 = 0 → 0x800 ≤ off → (isSet s p H.LOCKED = true ∨ getF s p H.CST ≠ 0) → Answers (.registerWrite who (BitVec.ofNat 32 (pageAddr p off)) .word v) s fun u => isSet u p H.WERR = true ∧ getF u p H.FOFF = off / 4 ∧ u.ans = none ∧ u.applied = s.applied ∧ u.mem = s.mem ∧ (∀ q o, o < 4096 → (q ≠ p ∨ o / 4 ≠ 2) → rd u q o = rd s q o)) ∧
    (MayWrite s who p off → p < 256 → off < 4096 → off % 4 = 0 → 0x800 ≤ off → enabled s p = true → (rd s p off ^^^ v) &&& rwlMask p off ≠ 0 → Answers (.registerWrite who (BitVec.ofNat 32 (pageAddr p off)) .word v) s fun u => isSet u p H.WERR = true ∧ getF u p H.FOFF = off / 4 ∧ u.ans = none ∧ u.applied = s.applied ∧ u.mem = s.mem ∧ (∀ q o, o < 4096 → (q ≠ p ∨ o / 4 ≠ 2) → rd u q o = rd s q o)) ∧
    (MayWrite s who p off → p < 256 → off < 4096 → off % 4 = 0 → 0x800 ≤ off → isSet s p H.LOCKED = false → getF s p H.CST = 0 → (fieldsAt p off).isEmpty = true →
      Answers (.registerWrite who (BitVec.ofNat 32 (pageAddr p off)) .word v) s fun u => u = { s with ans := none }) ∧
    (running s = true → sysLost s = false → (whoIsCore who = true ∨ who = .host ∧ manifestLoaded s = true) → 0x20000000 ≤ a.toNat → a.toNat < 0x20200000 → a.toNat % accBytes size = 0 →
      Answers (.registerWrite who a size v) s fun u => memGetList u.mem a.toNat (accBytes size) = (wordBytes v).take (accBytes size) ∧
        (∀ x, (x < a.toNat ∨ a.toNat + accBytes size ≤ x) → memGet u.mem x = memGet s.mem x) ∧ u.regs = s.regs ∧ u.applied = s.applied ∧
        u.ans = none ∧ u = { s with mem := u.mem, ans := u.ans }) ∧
    (running s = true → a.toNat % accBytes size ≠ 0 →
      Answers (.registerWrite who a size v) s fun u => u = { s with ans := some .err }) ∧
    (running s = true → accessStands s who a.toNat = false → 0x40000000 ≤ a.toNat → a.toNat < 0x40100000 → size ≠ .word → a.toNat % accBytes size = 0 →
      Answers (.registerWrite who a size v) s fun u => u = { s with ans := some .err }) ∧
    (running s = true → accessStands s who (pageAddr p off) = false → p < 256 → off < 4096 → off % 4 = 0 → blkOf p = none → Answers (.registerWrite who (BitVec.ofNat 32 (pageAddr p off)) .word v) s fun u => u = { s with ans := some .err }) ∧
    (running s = true → sysLost s = false → a.toNat < 0x18000 →
      Answers (.registerWrite who a size v) s fun u => u = { s with ans := some .err }) ∧
    (running s = true → sysLost s = false → 0xC0000000 ≤ a.toNat →
      Answers (.registerWrite who a size v) s fun u => u = { s with ans := some .err }) ∧
    (running s = true → a.toNat % accBytes size = 0 → accessStands s who a.toNat = true →
      Answers (.registerWrite who a size v) s fun u => u = { s with ans := some .stall })

/-- A step serves the queue in order; on an empty queue the block idles (notes/assumptions/45, the model's choice) -/
def Obligations.StepServesFront : Prop :=
  (∀ (c : Instr) (rest : List Instr) (s : State),
      step { s with pending := c :: rest } = exec c { s with pending := rest }) ∧
    (∀ s : State, s.pending = [] → step s = .next s)

/-- Every command completes and leaves the queue behind it as it was: a run of enough steps empties it -/
def Obligations.QueueServed : Prop :=
  ∀ (s : State) (n : Nat), s.pending.length ≤ n →
    ∃ t, Host.Core.run Sys2Proof.core n s = .next t ∧ t.pending = []

/-- The state after a power-on reset, where the spec gives it (02, R38, R51; 03, R62; 04, R78), and the canonical form of its stores, which is the model's -/
def Obligations.ResetValues : Prop :=
  State.reset.mode = .boot ∧ getF State.reset 0 R.DEV.MODE.MODE = 4 ∧ getF State.reset 0 R.DEV.MODE.CAUSE = 0 ∧
    getF State.reset 3 R.RST.CAUSE.SRC = 0 ∧
    (∀ p, p < 256 → getF State.reset p H.EPOCH = 0 ∧ isSet State.reset p H.ENABLE = false ∧ isSet State.reset p H.LOCKED = false ∧
      getF State.reset p H.CST = 0 ∧ getF State.reset p H.PFLT = 0 ∧ getF State.reset p H.PFORCE = 0) ∧
    (∀ p off, rd State.reset p off = regReset (rkey p off) ∧ cfgW State.reset p off = regReset (rkey p off)) ∧
    (∀ (who : Who) (p : Nat), p < 256 → who ≠ .ec3 → rightsOf State.reset (whoKind who) p = 0) ∧
    (∀ p, rightsOf State.reset 3 p = 7) ∧
    Canon State.reset

/-- The canonical form of every store is an invariant of the step -/
def Obligations.StepKeepsCanon : Prop :=
  ∀ s t : State, Canon s → step s = .next t → Canon t

/-- Settling changes nothing where nothing is due: what a statement says of the effect u holds of the next state -/
def Obligations.SettlingKeepsQuiet : Prop :=
  ∀ s u : State, Quiet u → settled s u = { u with pending := s.pending, crossed := 0 }

/-- The frame of the commands that act on one page -/
def Obligations.CommandsStayOnTheirPage : Prop :=
  ∀ (s : State) (who : Who) (n : Fin 72) (b : Fin 12) (d : Fin 4) (k : Fin 16) (r : Fin 12) (c : Fin 24) (l : Fin 6) (page : Byte) (v : Word), Canon s →
    (Answers (.hscCmdWrite who n v) s fun u => OnlyPage s u (hscPage n.val)) ∧
    (Answers (.hscCmds who n v) s fun u => OnlyPage s u (hscPage n.val)) ∧
    (Answers (.hscCmdc who n v) s fun u => OnlyPage s u (hscPage n.val)) ∧
    (Answers (.hscDutyWrite who n v) s fun u => OnlyPage s u (hscPage n.val)) ∧
    (Answers (.hbDutyWrite who b v) s fun u => OnlyPage s u (hbPage b.val)) ∧
    (Answers (.hbPosWrite who b v) s fun u => OnlyPage s u (hbPage b.val)) ∧
    (Answers (.currentLimitAct b) s fun u => OnlyPage s u (hbPage b.val)) ∧
    (Answers (.limiterTurnOnAgain b) s fun u => OnlyPage s u (hbPage b.val)) ∧
    (Answers (.standstill b) s fun u => OnlyPage s u (hbPage b.val)) ∧
    (Answers (.lstCmdWrite who d v) s fun u => OnlyPage s u (lstPage d.val)) ∧
    (Answers (.ledOpenDetect d k) s fun u => OnlyPage s u (lstPage d.val)) ∧
    (Answers (.ledShortDetect d k) s fun u => OnlyPage s u (lstPage d.val)) ∧
    (Answers (.lmxCmdWrite who v) s fun u => OnlyPage s u 0x8C) ∧
    (Answers (.matrixLedOpen r c) s fun u => OnlyPage s u 0x8C) ∧
    (Answers (.matrixRowShort r) s fun u => OnlyPage s u 0x8C) ∧
    (Answers (.matrixColumnStb c) s fun u => OnlyPage s u 0x8C) ∧
    (Answers (.lchCmdWrite who d v) s fun u => OnlyPage s u (lchPage d.val)) ∧
    (Answers (.frmcClrMiss who) s fun u => OnlyPage s u 0x91) ∧
    (Answers (.hptClr who) s fun u => OnlyPage s u 0x08) ∧
    (Answers (.sbpClr who) s fun u => OnlyPage s u 0x09) ∧
    (Answers (.jxrClr who) s fun u => OnlyPage s u 0x0B) ∧
    (Answers (.jrnClrTotal who) s fun u => OnlyPage s u 0x99) ∧
    (Answers (.jrnRseqWrite who v) s fun u => OnlyPage s u 0x99) ∧
    (Answers (.jrnLostRead who) s fun u => OnlyPage s u 0x99) ∧
    (Answers (.protClr who) s fun u => OnlyPage s u 5) ∧
    (Answers (.rfxTglClear who d v) s fun u => OnlyPage s u 0x1D) ∧
    (Answers (.rfxInhWrite who d v) s fun u => OnlyPage s u 0x1D) ∧
    (Answers (.canRxriWrite who d v) s fun u => OnlyPage s u (canPage d.val)) ∧
    (Answers (.canLecRead who d) s fun u => OnlyPage s u (canPage d.val)) ∧
    (Answers (.linLerrRead who l) s fun u => OnlyPage s u (linPage l.val)) ∧
    (Answers (.linSched who l) s fun u => OnlyPage s u (linPage l.val)) ∧
    (Answers (.linHalt who l) s fun u => OnlyPage s u (linPage l.val)) ∧
    (Answers (.linSleep who l) s fun u => OnlyPage s u (linPage l.val)) ∧
    (Answers (.linWake who l) s fun u => OnlyPage s u (linPage l.val)) ∧
    (Answers (.dmaStop who k) s fun u => OnlyPage s u 0x0F) ∧
    (Answers (.fltNewcntRead who) s fun u => OnlyPage s u 4) ∧
    (Answers (.govLogPop who) s fun u => OnlyPage s u 0x1F) ∧
    (Answers (.pstatClear who page v) s fun u => OnlyPage s u page.toNat) ∧
    (Answers (.acctclrMask who) s fun u => OnlyPage s u 1) ∧
    (Answers (.acctclrFwake who) s fun u => OnlyPage s u 1) ∧
    (Answers (.acctclrRefuse who) s fun u => OnlyPage s u 1)

/-- Refusals of the manifest (02, R53, R59) -/
def Obligations.RefusedAccesses : Prop :=
  ∀ (s : State) (who : Who) (p off : Nat) (d : Fin 4) (l : Fin 6) (k : Fin 2) (v : Word), Canon s →
    (running s = true → pageStands s (canPage d.val) = false → (rightsOf s (whoKind who) (canPage d.val)).testBit 0 = false → Answers (.canLecRead who d) s fun u => Refused s u who false (canPage d.val) (pageAddr (canPage d.val) 0x108)) ∧
    (running s = true → pageStands s (linPage l.val) = false → (rightsOf s (whoKind who) (linPage l.val)).testBit 0 = false → Answers (.linLerrRead who l) s fun u => Refused s u who false (linPage l.val) (pageAddr (linPage l.val) 0x108)) ∧
    (running s = true → pageStands s 0x0E = false → (rightsOf s (whoKind who) 0x0E).testBit 0 = false → Answers (.evfOvrRead who k) s fun u => Refused s u who false 0x0E (pageAddr 0x0E (0x108 + 4 * k.val))) ∧
    (running s = true → pageStands s 0x99 = false → (rightsOf s (whoKind who) 0x99).testBit 0 = false → Answers (.jrnLostRead who) s fun u => Refused s u who false 0x99 (pageAddr 0x99 0x10C)) ∧
    (running s = true → pageStands s 4 = false → (rightsOf s (whoKind who) 4).testBit 0 = false → Answers (.fltNewcntRead who) s fun u => Refused s u who false 4 (pageAddr 4 0x10C)) ∧
    (running s = true → pageStands s 0x1F = false → (rightsOf s (whoKind who) 0x1F).testBit 0 = false → Answers (.govLogPop who) s fun u => Refused s u who false 0x1F (pageAddr 0x1F 0x144)) ∧
    (running s = true → pageStands s 0xB0 = false → (rightsOf s (whoKind who) 0xB0).testBit 0 = false → Answers (.mbxTake who d true) s fun u => Refused s u who false 0xB0 (pageAddr 0xB0 (0x1C4 + 256 * d.val))) ∧
    (running s = true → pageStands s 0xB0 = false → (rightsOf s (whoKind who) 0xB0).testBit 0 = false → Answers (.mbxTake who d false) s fun u => Refused s u who false 0xB0 (pageAddr 0xB0 (0x144 + 256 * d.val))) ∧
    (running s = true → p < 256 → off < 4096 → off % 4 = 0 → pageStands s p = false → (blkOf p).isSome = true → (rightsOf s (whoKind who) p).testBit (writeRight off) = false → ¬ (p = 6 ∧ vltIface off = true ∧ vltReach s who = true) →
      ¬ (p = 4 ∧ off = 0x108 ∧ who = .app) →
      Answers (.registerWrite who (BitVec.ofNat 32 (pageAddr p off)) .word v) s fun u => Refused s u who true p (pageAddr p off))

/-- The C right (02, R40) -/
def Obligations.OwnerWrites : Prop :=
  ∀ (s : State) (who : Who) (p off : Nat) (page : Byte) (apply : BitVec 2) (enable : Bool) (v : Word), Canon s →
    (running s = true → p < 256 → off < 4096 → off % 4 = 0 → (off = 0x008 ∨ off = 0x00C ∨ off = 0x014 ∨ 0x800 ≤ off) → pageStands s p = false → (blkOf p).isSome = true → (rightsOf s (whoKind who) p).testBit 2 = false →
      Answers (.registerWrite who (BitVec.ofNat 32 (pageAddr p off)) .word v) s fun u => Refused s u who true p (pageAddr p off)) ∧
    (running s = true → p = page.toNat → pageStands s p = false → (blkOf p).isSome = true → (rightsOf s (whoKind who) p).testBit 2 = false →
      Answers (.pageCommit who page apply enable) s fun u => Refused s u who true p (pageAddr p 0x00C)) ∧
    (running s = true → p = page.toNat → pageStands s p = false → (blkOf p).isSome = true → (rightsOf s (whoKind who) p).testBit 2 = false →
      Answers (.pageAbort who page apply enable) s fun u => Refused s u who true p (pageAddr p 0x00C)) ∧
    (running s = true → p = page.toNat → pageStands s p = false → (blkOf p).isSome = true → (rightsOf s (whoKind who) p).testBit 2 = false →
      Answers (.pageEnable who page apply enable) s fun u => Refused s u who true p (pageAddr p 0x00C)) ∧
    (running s = true → p = page.toNat → pageStands s p = false → (blkOf p).isSome = true → (rightsOf s (whoKind who) p).testBit 2 = false →
      Answers (.pageLock who page apply enable) s fun u => Refused s u who true p (pageAddr p 0x00C)) ∧
    (running s = true → p = page.toNat → pageStands s p = false → (blkOf p).isSome = true → (rightsOf s (whoKind who) p).testBit 2 = false →
      Answers (.pstatClear who page v) s fun u => Refused s u who true p (pageAddr p 0x008)) ∧
    (running s = true → p < 256 → off < 4096 → off % 4 = 0 → (off = 0x008 ∨ off = 0x00C ∨ off = 0x014 ∨ 0x800 ≤ off) → pageStands s p = false → (blkOf p).isSome = true → (rightsOf s (whoKind who) p).testBit 2 = true → (p = 6 → who = .ec3) →
      Answers (.registerWrite who (BitVec.ofNat 32 (pageAddr p off)) .word v) s fun u => u.ans = none) ∧
    (running s = true → p = page.toNat → pageStands s p = false → (blkOf p).isSome = true → (rightsOf s (whoKind who) p).testBit 2 = true → (p = 6 → who = .ec3) →
      Answers (.pstatClear who page v) s fun u => u.ans = none ∧ isSet u p H.WERR = (isSet s p H.WERR && !v.getLsbD 5) ∧
        isSet u p H.CMTDONE = (isSet s p H.CMTDONE && !v.getLsbD 12))

/-- W1C of the fault flags (02, R56) -/
def Obligations.PfltFlagsClear : Prop :=
  ∀ (s : State) (who : Who) (p : Nat) (page : Byte) (b : Nat) (v : Word), Canon s → MayWrite s who p 0x018 → p = page.toNat → b < 8 →
    (Answers (.pfltClear who page v) s fun u => ((getF s p H.PFLT).testBit b = true → v.getLsbD b = true →
        s.flt.level.contains (p * 8 + b) = false → (getF s p H.PFORCE).testBit b = false → (getF u p H.PFLT).testBit b = false) ∧
      ((getF s p H.PFLT).testBit b = true → (v.getLsbD b = false ∨ s.flt.level.contains (p * 8 + b) = true ∨
        ((getF s p H.PFORCE).testBit b = true ∧ (pageCap p).fsrc.testBit b = true)) → (getF u p H.PFLT).testBit b = true) ∧
      ((getF s p H.PFLT).testBit b = false → (getF u p H.PFLT).testBit b = false)) ∧
    (Answers (.registerWrite who (BitVec.ofNat 32 (pageAddr p 0x018)) .word v) s fun u => ((getF s p H.PFLT).testBit b = true → v.getLsbD b = true →
        s.flt.level.contains (p * 8 + b) = false → (getF s p H.PFORCE).testBit b = false → (getF u p H.PFLT).testBit b = false) ∧
      ((getF s p H.PFLT).testBit b = true → (v.getLsbD b = false ∨ s.flt.level.contains (p * 8 + b) = true ∨
        ((getF s p H.PFORCE).testBit b = true ∧ (pageCap p).fsrc.testBit b = true)) → (getF u p H.PFLT).testBit b = true) ∧
      ((getF s p H.PFLT).testBit b = false → (getF u p H.PFLT).testBit b = false))

/-- The queue of the commit checker (02, R44) -/
def Obligations.CommitsWaitTheirTurn : Prop :=
  ∀ (s : State) (who : Who) (p off kind : Nat) (page : Byte) (apply : BitVec 2) (enable : Bool) (rest : List (Nat × Nat)) (v : Word), Canon s →
    (MayWrite s who p 0x00C → p = page.toNat → (alwaysOn p = true ∨ enable = enabled s p) → isSet s p H.LOCKED = false → getF s p H.CST = 0 →
      (p = 4 → s.flt.wired = false) → Answers (.pageCommit who page apply enable) s fun u =>
        u.commits = s.commits ++ [(p, whoKind who)] ∧ getF u p H.CST = 1 ∧ u.applied = s.applied) ∧
    (running s = true → s.commits = (p, kind) :: rest → Answers .commitCheckDone s fun u => u.commits = rest) ∧
    (MayWrite s who p 0x00C → p = page.toNat → getF s p H.CST ≠ 0 → Answers (.pageCommit who page apply enable) s fun u =>
        isSet u p H.WERR = true ∧ getF u p H.FOFF = 3 ∧ u.commits = s.commits ∧ u.pendKind = s.pendKind ∧ u.cmtClass = s.cmtClass ∧ getF u p H.CST = getF s p H.CST ∧
        getF u p H.APPLY = getF s p H.APPLY ∧ u.applied = s.applied ∧ u.mem = s.mem ∧ (∀ q o, o < 4096 → (q ≠ p ∨ o / 4 ≠ 2) → rd u q o = rd s q o)) ∧
    (MayWrite s who p off → p < 256 → off < 4096 → off % 4 = 0 → (off = 0x014 ∨ 0x800 ≤ off) → getF s p H.CST ≠ 0 → Answers (.registerWrite who (BitVec.ofNat 32 (pageAddr p off)) .word v) s fun u =>
        isSet u p H.WERR = true ∧ getF u p H.FOFF = off / 4 ∧ u.commits = s.commits ∧ u.pendKind = s.pendKind ∧ u.cmtClass = s.cmtClass ∧ getF u p H.CST = getF s p H.CST ∧
        getF u p H.APPLY = getF s p H.APPLY ∧ u.applied = s.applied ∧ u.mem = s.mem ∧ (∀ q o, o < 4096 → (q ≠ p ∨ o / 4 ≠ 2) → rd u q o = rd s q o))
end

