-- ==== Sys2Proof/Laws/Field.lean ====
section
/-! SUPPORT. The laws of fields of words: a field after a write of it, and of another one. -/

namespace Sys2Proof.Machine

/-- A word split around a field. -/
theorem fset_toNat (w : Word) (f : Fld) (v : Nat) (h1 : f.lo ≤ f.hi) (h2 : f.hi < 32) :
    (fset w f v).toNat = w.toNat % 2 ^ f.lo + 2 ^ f.lo * (v % 2 ^ (f.hi + 1 - f.lo)) + 2 ^ (f.hi + 1) * (w.toNat / 2 ^ (f.hi + 1)) := by
  obtain ⟨off, hi, lo⟩ := f
  simp only at h1 h2 ⊢
  unfold fset fget
  simp only [BitVec.toNat_ofNat, Nat.shiftRight_eq_div_pow]
  have hw := w.isLt
  generalize w.toNat = x at *
  obtain ⟨k, hk⟩ : ∃ k, hi + 1 = lo + k := ⟨hi + 1 - lo, by omega⟩
  have hkk : hi + 1 - lo = k := by omega
  rw [hkk, hk, Nat.pow_add]
  generalize hA : 2 ^ lo = A
  generalize hB : 2 ^ k = B
  have hA0 : 0 < A := by rw [← hA]; exact Nat.two_pow_pos lo
  have hB0 : 0 < B := by rw [← hB]; exact Nat.two_pow_pos k
  have hAB : A * B ∣ 2 ^ 32 := by rw [← hA, ← hB, ← Nat.pow_add]; exact Nat.pow_dvd_pow 2 (by omega)
  obtain ⟨C, hC⟩ := hAB
  have hv := Nat.mod_lt v hB0
  generalize v % B = y at *
  have e1 := Nat.div_add_mod x A
  have e2 := Nat.div_add_mod (x / A) B
  have e3 : x / (A * B) = x / A / B := (Nat.div_div_eq_div_mul x A B).symm
  have e4 : x % A < A := Nat.mod_lt _ hA0
  rw [e3]
  generalize x / A % B = p at *
  generalize hq : x / A / B = q at *
  generalize x % A = r at *
  have ex : x = A * B * q + A * p + r := by rw [← e1, ← e2]; ring
  have e5 : x - p * A + y * A = r + A * y + A * B * q := by
    have : x = p * A + (A * B * q + r) := by rw [ex]; ring
    rw [this, Nat.add_sub_cancel_left]; ring
  rw [e5]
  apply Nat.mod_eq_of_lt
  have hq1 : q < C := by
    by_contra hcon
    have hle : C ≤ q := by omega
    have h5 : A * B * C ≤ A * B * q := Nat.mul_le_mul_left _ hle
    rw [← hC] at h5
    omega
  have h6 : A * y + A ≤ A * B := by
    have : A * (y + 1) ≤ A * B := Nat.mul_le_mul_left _ hv
    rw [Nat.mul_add, Nat.mul_one] at this; exact this
  have h7 : A * B * (q + 1) ≤ A * B * C := Nat.mul_le_mul_left _ hq1
  rw [Nat.mul_add, Nat.mul_one, ← hC] at h7
  omega

/-- A field after its write. -/
theorem fget_fset_same (w : Word) (f : Fld) (v : Nat) (h1 : f.lo ≤ f.hi) (h2 : f.hi < 32) :
    fget (fset w f v) f = v % 2 ^ (f.hi + 1 - f.lo) := by
  have h := fset_toNat w f v h1 h2
  obtain ⟨off, hi, lo⟩ := f
  simp only at h1 h2 h ⊢
  unfold fget
  simp only [Nat.shiftRight_eq_div_pow]
  rw [h]
  obtain ⟨k, hk⟩ : ∃ k, hi + 1 = lo + k := ⟨hi + 1 - lo, by omega⟩
  have hkk : hi + 1 - lo = k := by omega
  rw [hkk, hk, Nat.pow_add]
  have hA0 : 0 < 2 ^ lo := Nat.two_pow_pos lo
  have e1 : (w.toNat % 2 ^ lo + 2 ^ lo * (v % 2 ^ k) + 2 ^ lo * 2 ^ k * (w.toNat / (2 ^ lo * 2 ^ k))) / 2 ^ lo =
      v % 2 ^ k + 2 ^ k * (w.toNat / (2 ^ lo * 2 ^ k)) := by
    rw [show w.toNat % 2 ^ lo + 2 ^ lo * (v % 2 ^ k) + 2 ^ lo * 2 ^ k * (w.toNat / (2 ^ lo * 2 ^ k)) =
      w.toNat % 2 ^ lo + 2 ^ lo * (v % 2 ^ k + 2 ^ k * (w.toNat / (2 ^ lo * 2 ^ k))) by ring]
    rw [Nat.add_mul_div_left _ _ hA0, Nat.div_eq_of_lt (Nat.mod_lt _ hA0), Nat.zero_add]
  rw [e1, Nat.add_mul_mod_self_left, Nat.mod_mod]

/-- A field that lies wholly below or above the one written keeps its value. -/
theorem fget_fset_ne (w : Word) (f g : Fld) (v : Nat) (h1 : f.lo ≤ f.hi) (h2 : f.hi < 32) (hg : g.hi < f.lo ∨ f.hi < g.lo)
    (hg1 : g.lo ≤ g.hi) : fget (fset w f v) g = fget w g := by
  have h := fset_toNat w f v h1 h2
  obtain ⟨off, hi, lo⟩ := f
  obtain ⟨off', hi', lo'⟩ := g
  simp only at h1 h2 h hg hg1 ⊢
  unfold fget
  simp only [Nat.shiftRight_eq_div_pow]
  rw [h]
  rcases hg with hg | hg
  · have hd : lo = hi' + 1 + (lo - (hi' + 1)) := by omega
    have hd2 : hi + 1 = lo + (hi + 1 - lo) := by omega
    have key : ∀ x : Nat, x / 2 ^ lo' % 2 ^ (hi' + 1 - lo') = x % 2 ^ (hi' + 1) / 2 ^ lo' := by
      intro x
      have : hi' + 1 = lo' + (hi' + 1 - lo') := by omega
      rw [this, Nat.pow_add, Nat.mod_mul_right_div_self, Nat.add_sub_cancel_left]
    rw [key, key]
    congr 1
    have hm : 2 ^ (hi' + 1) ∣ 2 ^ lo := Nat.pow_dvd_pow 2 (by omega)
    have hm2 : 2 ^ (hi' + 1) ∣ 2 ^ (hi + 1) := Nat.pow_dvd_pow 2 (by omega)
    rw [Nat.add_mod, Nat.add_mod (w.toNat % 2 ^ lo)]
    rw [Nat.mod_eq_zero_of_dvd (Dvd.dvd.mul_right hm _), Nat.mod_eq_zero_of_dvd (Dvd.dvd.mul_right hm2 _)]
    simp only [Nat.add_zero, Nat.mod_mod]
    exact Nat.mod_mod_of_dvd _ hm
  · have hd : lo' = hi + 1 + (lo' - (hi + 1)) := by omega
    congr 1
    rw [hd, Nat.pow_add 2 (hi + 1)]
    generalize 2 ^ (lo' - (hi + 1)) = z
    rw [← Nat.div_div_eq_div_mul, ← Nat.div_div_eq_div_mul]
    congr 1
    have hk : 2 ^ (hi + 1) = 2 ^ lo * 2 ^ (hi + 1 - lo) := by rw [← Nat.pow_add]; congr 1; omega
    have hlt : w.toNat % 2 ^ lo + 2 ^ lo * (v % 2 ^ (hi + 1 - lo)) < 2 ^ (hi + 1) := by
      have a1 : w.toNat % 2 ^ lo < 2 ^ lo := Nat.mod_lt _ (Nat.two_pow_pos lo)
      have a2 : v % 2 ^ (hi + 1 - lo) < 2 ^ (hi + 1 - lo) := Nat.mod_lt _ (Nat.two_pow_pos _)
      have a3 : 2 ^ lo * (v % 2 ^ (hi + 1 - lo) + 1) ≤ 2 ^ lo * 2 ^ (hi + 1 - lo) := Nat.mul_le_mul_left _ a2
      rw [Nat.mul_add, Nat.mul_one] at a3
      omega
    rw [Nat.add_mul_div_left _ _ (Nat.two_pow_pos _), Nat.div_eq_of_lt hlt, Nat.zero_add]

end Sys2Proof.Machine
end

