-- ==== Sys2Proof/Laws/Store.lean ====
section
/-! SUPPORT. The laws of sparse stores: a read after a write, and that every operation keeps the canonical form. -/

namespace Sys2Proof.Machine

variable {α : Type} [DecidableEq α] {d : Nat → α}

/-- A canonical store above a bound is canonical above every smaller bound. -/
theorem storeWfFrom_mono {m : Store α} {lo lo' : Nat} (h : storeWfFrom d lo m = true) (hl : lo' ≤ lo) : storeWfFrom d lo' m = true := by
  cases m with
  | nil => rfl
  | cons e m =>
    obtain ⟨k, v⟩ := e
    simp only [storeWfFrom, Bool.and_eq_true, decide_eq_true_eq] at h ⊢
    exact ⟨⟨by omega, h.1.2⟩, h.2⟩

/-- Below its bound a canonical store has only defaults. -/
theorem storeGet_below {m : Store α} {lo i : Nat} (h : storeWfFrom d lo m = true) (hi : i < lo) : storeGet d m i = d i := by
  cases m with
  | nil => rfl
  | cons e m =>
    obtain ⟨k, v⟩ := e
    simp only [storeWfFrom, Bool.and_eq_true, decide_eq_true_eq] at h
    have h1 : k ≠ i := by omega
    have h2 : i < k := by omega
    simp [storeGet, h1, h2]

/-- A write keeps the canonical form above a bound that the key respects. -/
theorem storeSet_wfFrom {m : Store α} {lo i : Nat} {v : α} (h : storeWfFrom d lo m = true) (hi : lo ≤ i) :
    storeWfFrom d lo (storeSet d m i v) = true := by
  induction m generalizing lo with
  | nil =>
    simp only [storeSet]
    split
    · rfl
    · next hv => simp [storeWfFrom, hv, hi]
  | cons e m ih =>
    obtain ⟨k, w⟩ := e
    simp only [storeWfFrom, Bool.and_eq_true, decide_eq_true_eq] at h
    obtain ⟨⟨hk, hw⟩, hm⟩ := h
    simp only [storeSet]
    split
    · next hlt =>
      split
      · simp [storeWfFrom, hk, hw, hm]
      · next hv =>
        simp only [storeWfFrom, Bool.and_eq_true, decide_eq_true_eq]
        exact ⟨⟨hi, hv⟩, ⟨by omega, hw⟩, hm⟩
    · next hlt =>
      split
      · next he =>
        subst he
        split
        · exact storeWfFrom_mono hm (by omega)
        · next hv => simp only [storeWfFrom, Bool.and_eq_true, decide_eq_true_eq]; exact ⟨⟨hi, hv⟩, hm⟩
      · next hne =>
        simp only [storeWfFrom, Bool.and_eq_true, decide_eq_true_eq]
        exact ⟨⟨hk, hw⟩, ih hm (by omega)⟩

/-- A write keeps the canonical form. -/
theorem storeSet_wf {m : Store α} {i : Nat} {v : α} (h : storeWf d m = true) : storeWf d (storeSet d m i v) = true :=
  storeSet_wfFrom h (Nat.zero_le i)

/-- A read of the key that was written gives the value written. -/
theorem storeGet_set_same {m : Store α} {lo i : Nat} {v : α} (h : storeWfFrom d lo m = true) : storeGet d (storeSet d m i v) i = v := by
  induction m generalizing lo with
  | nil =>
    simp only [storeSet]
    split
    · next hv => simp [storeGet, hv]
    · simp [storeGet]
  | cons e m ih =>
    obtain ⟨k, w⟩ := e
    simp only [storeWfFrom, Bool.and_eq_true, decide_eq_true_eq] at h
    obtain ⟨⟨hk, hw⟩, hm⟩ := h
    simp only [storeSet]
    split
    · next hlt =>
      split
      · next hv =>
        have : k ≠ i := by omega
        simp [storeGet, this, hlt, hv]
      · simp [storeGet]
    · next hlt =>
      split
      · next he =>
        subst he
        split
        · next hv => rw [storeGet_below hm (by omega), hv]
        · simp [storeGet]
      · next hne =>
        have h1 : k ≠ i := fun h => hne h.symm
        simp only [storeGet, if_neg h1, if_neg hlt]
        exact ih hm

/-- A read of another key gives what it gave. -/
theorem storeGet_set_ne {m : Store α} {lo i j : Nat} {v : α} (h : storeWfFrom d lo m = true) (hj : j ≠ i) :
    storeGet d (storeSet d m i v) j = storeGet d m j := by
  induction m generalizing lo with
  | nil =>
    simp only [storeSet]
    split
    · rfl
    · have : i ≠ j := fun h => hj h.symm
      simp only [storeGet, if_neg this]
      split <;> rfl
  | cons e m ih =>
    obtain ⟨k, w⟩ := e
    simp only [storeWfFrom, Bool.and_eq_true, decide_eq_true_eq] at h
    obtain ⟨⟨hk, hw⟩, hm⟩ := h
    have hij : i ≠ j := fun h => hj h.symm
    simp only [storeSet]
    split
    · next hlt =>
      split
      · rfl
      · simp only [storeGet, if_neg hij]
        by_cases hji : j < i
        · have h1 : k ≠ j := by omega
          have h2 : j < k := by omega
          simp [hji, h1, h2]
        · simp [hji]
    · next hlt =>
      split
      · next he =>
        subst he
        split
        · simp only [storeGet, if_neg hij]
          by_cases hji : j < i
          · simp only [hji, if_true]; exact storeGet_below hm (by omega)
          · simp [hji]
        · simp only [storeGet, if_neg hij]
      · next hne => simp only [storeGet]; rw [ih hm]

/-- The entries kept by a predicate are canonical. -/
theorem storeKeep_wfFrom {m : Store α} {lo : Nat} {p : Nat → Bool} (h : storeWfFrom d lo m = true) :
    storeWfFrom d lo (storeKeep p m) = true := by
  induction m generalizing lo with
  | nil => rfl
  | cons e m ih =>
    obtain ⟨k, v⟩ := e
    simp only [storeWfFrom, Bool.and_eq_true, decide_eq_true_eq] at h
    have hm := ih h.2
    simp only [storeKeep, List.filter_cons] at hm ⊢
    split
    · simp only [storeWfFrom, Bool.and_eq_true, decide_eq_true_eq]; exact ⟨h.1, hm⟩
    · exact storeWfFrom_mono hm (by omega)

/-- Filtering by key keeps the canonical form. -/
theorem storeKeep_wf {m : Store α} {p : Nat → Bool} (h : storeWf d m = true) : storeWf d (storeKeep p m) = true := storeKeep_wfFrom h

/-- A kept key reads as before, any other as its default. -/
theorem storeGet_keep {m : Store α} {lo i : Nat} {p : Nat → Bool} (h : storeWfFrom d lo m = true) :
    storeGet d (storeKeep p m) i = if p i then storeGet d m i else d i := by
  induction m generalizing lo with
  | nil => simp [storeKeep, storeGet]
  | cons e m ih =>
    obtain ⟨k, v⟩ := e
    simp only [storeWfFrom, Bool.and_eq_true, decide_eq_true_eq] at h
    have hm := ih h.2
    simp only [storeKeep, List.filter_cons] at hm ⊢
    by_cases hk : k = i
    · subst hk
      by_cases hp : p k = true
      · simp [hp, storeGet]
      · simp only [hp] at hm ⊢
        simpa using hm
    · by_cases hp : p k = true
      · simp only [hp, if_true, storeGet, if_neg hk]
        split
        · simp
        · exact hm
      · simp only [hp, storeGet, if_neg hk]
        by_cases hi : i < k
        · have := storeGet_below (d := d) (i := i) h.2 (by omega)
          simp only [hi, if_true]
          simp only [this] at hm
          simpa using hm
        · simpa [hi] using hm

end Sys2Proof.Machine
end

