-- ==== Sys2Proof/Laws/Regs.lean ====
section
/-! SUPPORT. The laws of register words and fields: a read after a write, and what a write leaves alone. -/

namespace Sys2Proof.Machine

/-- A write of a word keeps the register store canonical. -/
theorem wr_wf {s : State} {p off : Nat} {w : Word} (h : storeWf regReset s.regs = true) :
    storeWf regReset (wr s p off w).regs = true := storeSet_wf h

theorem setF_wf {s : State} {p : Nat} {f : Fld} {v : Nat} (h : storeWf regReset s.regs = true) :
    storeWf regReset (setF s p f v).regs = true := storeSet_wf h

theorem setFlag_wf {s : State} {p : Nat} {f : Fld} {b : Bool} (h : storeWf regReset s.regs = true) :
    storeWf regReset (setFlag s p f b).regs = true := storeSet_wf h

/-- The word written is read back. -/
theorem rd_wr_same {s : State} {p off : Nat} {w : Word} (h : storeWf regReset s.regs = true) : rd (wr s p off w) p off = w :=
  storeGet_set_same h

/-- A word of another key reads as before. -/
theorem rd_wr_ne {s : State} {p off q o : Nat} {w : Word} (h : storeWf regReset s.regs = true) (hk : rkey q o ≠ rkey p off) :
    rd (wr s p off w) q o = rd s q o := storeGet_set_ne h hk

/-- A word of another key reads as before a field was written. -/
theorem rd_setF_ne {s : State} {p q o : Nat} {f : Fld} {v : Nat} (h : storeWf regReset s.regs = true)
    (hk : rkey q o ≠ rkey p f.off) : rd (setF s p f v) q o = rd s q o := storeGet_set_ne h hk

theorem rd_setFlag_ne {s : State} {p q o : Nat} {f : Fld} {b : Bool} (h : storeWf regReset s.regs = true)
    (hk : rkey q o ≠ rkey p f.off) : rd (setFlag s p f b) q o = rd s q o := storeGet_set_ne h hk

/-- A field written holds the value's low bits. -/
theorem getF_setF_same {s : State} {p : Nat} {f : Fld} {v : Nat} (h : storeWf regReset s.regs = true) (h1 : f.lo ≤ f.hi)
    (h2 : f.hi < 32) : getF (setF s p f v) p f = v % 2 ^ (f.hi + 1 - f.lo) := by
  unfold getF setF
  rw [rd_wr_same h, fget_fset_same _ _ _ h1 h2]

/-- A field of another word is unchanged. -/
theorem getF_setF_key {s : State} {p q : Nat} {f g : Fld} {v : Nat} (h : storeWf regReset s.regs = true)
    (hk : rkey q g.off ≠ rkey p f.off) : getF (setF s p f v) q g = getF s q g := by
  unfold getF
  rw [rd_setF_ne h hk]

/-- Another field of the same word is unchanged. -/
theorem getF_setF_bits {s : State} {p : Nat} {f g : Fld} {v : Nat} (h : storeWf regReset s.regs = true) (ho : g.off = f.off)
    (h1 : f.lo ≤ f.hi) (h2 : f.hi < 32) (hg : g.hi < f.lo ∨ f.hi < g.lo) (hg1 : g.lo ≤ g.hi) :
    getF (setF s p f v) p g = getF s p g := by
  unfold getF setF
  rw [ho, rd_wr_same h, fget_fset_ne _ _ _ _ h1 h2 hg hg1]

/-- A flag written reads back. -/
theorem isSet_setFlag_same {s : State} {p : Nat} {f : Fld} {b : Bool} (h : storeWf regReset s.regs = true) (h1 : f.lo = f.hi)
    (h2 : f.hi < 32) : isSet (setFlag s p f b) p f = b := by
  unfold isSet setFlag
  rw [getF_setF_same h (Nat.le_of_eq h1) h2, h1, Nat.add_sub_cancel_left]
  cases b <;> simp

/-- A field of another word is unchanged by a word's write. -/
theorem getF_wr_key {s : State} {p off q : Nat} {g : Fld} {w : Word} (h : storeWf regReset s.regs = true)
    (hk : rkey q g.off ≠ rkey p off) : getF (wr s p off w) q g = getF s q g := by
  unfold getF
  rw [rd_wr_ne h hk]

/-- A field of the word written. -/
theorem getF_wr_same {s : State} {p : Nat} {g : Fld} {w : Word} (h : storeWf regReset s.regs = true) :
    getF (wr s p g.off w) p g = fget w g := by
  unfold getF
  rw [rd_wr_same h]

end Sys2Proof.Machine
end

