-- ==== Sys2Proof/Laws/State.lean ====
section
/-! SUPPORT. What each named update of the state does to each field, true by definition, so that no later proof unfolds an update. -/

namespace Sys2Proof.Machine

variable (s : State)

/-! ### wr -/

@[simp] theorem wr_mode (p off : Nat) (w : Word) : (wr s p off w).mode = s.mode := rfl
@[simp] theorem wr_regs (p off : Nat) (w : Word) : (wr s p off w).regs = storeSet regReset s.regs (rkey p off) w := rfl
@[simp] theorem wr_applied (p off : Nat) (w : Word) : (wr s p off w).applied = s.applied := rfl
@[simp] theorem wr_mem (p off : Nat) (w : Word) : (wr s p off w).mem = s.mem := rfl
@[simp] theorem wr_free (p off : Nat) (w : Word) : (wr s p off w).free = s.free := rfl
@[simp] theorem wr_dirty (p off : Nat) (w : Word) : (wr s p off w).dirty = s.dirty := rfl
@[simp] theorem wr_due (p off : Nat) (w : Word) : (wr s p off w).due = s.due := rfl
@[simp] theorem wr_crossed (p off : Nat) (w : Word) : (wr s p off w).crossed = s.crossed := rfl
@[simp] theorem wr_lineHeld (p off : Nat) (w : Word) : (wr s p off w).lineHeld = s.lineHeld := rfl
@[simp] theorem wr_pwrTick (p off : Nat) (w : Word) : (wr s p off w).pwrTick = s.pwrTick := rfl
@[simp] theorem wr_msDone (p off : Nat) (w : Word) : (wr s p off w).msDone = s.msDone := rfl
@[simp] theorem wr_anaDone (p off : Nat) (w : Word) : (wr s p off w).anaDone = s.anaDone := rfl
@[simp] theorem wr_flt (p off : Nat) (w : Word) : (wr s p off w).flt = s.flt := rfl
@[simp] theorem wr_park (p off : Nat) (w : Word) : (wr s p off w).park = s.park := rfl
@[simp] theorem wr_tbs (p off : Nat) (w : Word) : (wr s p off w).tbs = s.tbs := rfl
@[simp] theorem wr_tb (p off : Nat) (w : Word) : (wr s p off w).tb = s.tb := rfl
@[simp] theorem wr_ec (p off : Nat) (w : Word) : (wr s p off w).ec = s.ec := rfl
@[simp] theorem wr_jxr (p off : Nat) (w : Word) : (wr s p off w).jxr = s.jxr := rfl
@[simp] theorem wr_brg (p off : Nat) (w : Word) : (wr s p off w).brg = s.brg := rfl
@[simp] theorem wr_can (p off : Nat) (w : Word) : (wr s p off w).can = s.can := rfl
@[simp] theorem wr_lin (p off : Nat) (w : Word) : (wr s p off w).lin = s.lin := rfl
@[simp] theorem wr_nmg (p off : Nat) (w : Word) : (wr s p off w).nmg = s.nmg := rfl
@[simp] theorem wr_aonCopy (p off : Nat) (w : Word) : (wr s p off w).aonCopy = s.aonCopy := rfl
@[simp] theorem wr_aonCopyOk (p off : Nat) (w : Word) : (wr s p off w).aonCopyOk = s.aonCopyOk := rfl
@[simp] theorem wr_commits (p off : Nat) (w : Word) : (wr s p off w).commits = s.commits := rfl
@[simp] theorem wr_pendKind (p off : Nat) (w : Word) : (wr s p off w).pendKind = s.pendKind := rfl
@[simp] theorem wr_cmtClass (p off : Nat) (w : Word) : (wr s p off w).cmtClass = s.cmtClass := rfl
@[simp] theorem wr_pmuPend (p off : Nat) (w : Word) : (wr s p off w).pmuPend = s.pmuPend := rfl
@[simp] theorem wr_wk (p off : Nat) (w : Word) : (wr s p off w).wk = s.wk := rfl
@[simp] theorem wr_fuseRec (p off : Nat) (w : Word) : (wr s p off w).fuseRec = s.fuseRec := rfl
@[simp] theorem wr_committer (p off : Nat) (w : Word) : (wr s p off w).committer = s.committer := rfl
@[simp] theorem wr_hpt (p off : Nat) (w : Word) : (wr s p off w).hpt = s.hpt := rfl
@[simp] theorem wr_sbp (p off : Nat) (w : Word) : (wr s p off w).sbp = s.sbp := rfl
@[simp] theorem wr_imm (p off : Nat) (w : Word) : (wr s p off w).imm = s.imm := rfl
@[simp] theorem wr_vlt (p off : Nat) (w : Word) : (wr s p off w).vlt = s.vlt := rfl
@[simp] theorem wr_upd (p off : Nat) (w : Word) : (wr s p off w).upd = s.upd := rfl
@[simp] theorem wr_xsp (p off : Nat) (w : Word) : (wr s p off w).xsp = s.xsp := rfl
@[simp] theorem wr_jrn (p off : Nat) (w : Word) : (wr s p off w).jrn = s.jrn := rfl
@[simp] theorem wr_spr (p off : Nat) (w : Word) : (wr s p off w).spr = s.spr := rfl
@[simp] theorem wr_hsc (p off : Nat) (w : Word) : (wr s p off w).hsc = s.hsc := rfl
@[simp] theorem wr_hb (p off : Nat) (w : Word) : (wr s p off w).hb = s.hb := rfl
@[simp] theorem wr_sol (p off : Nat) (w : Word) : (wr s p off w).sol = s.sol := rfl
@[simp] theorem wr_sbk (p off : Nat) (w : Word) : (wr s p off w).sbk = s.sbk := rfl
@[simp] theorem wr_lst (p off : Nat) (w : Word) : (wr s p off w).lst = s.lst := rfl
@[simp] theorem wr_lmx (p off : Nat) (w : Word) : (wr s p off w).lmx = s.lmx := rfl
@[simp] theorem wr_frmc (p off : Nat) (w : Word) : (wr s p off w).frmc = s.frmc := rfl
@[simp] theorem wr_lch (p off : Nat) (w : Word) : (wr s p off w).lch = s.lch := rfl
@[simp] theorem wr_rfxLoaded (p off : Nat) (w : Word) : (wr s p off w).rfxLoaded = s.rfxLoaded := rfl
@[simp] theorem wr_rfxRun (p off : Nat) (w : Word) : (wr s p off w).rfxRun = s.rfxRun := rfl
@[simp] theorem wr_rfxHist (p off : Nat) (w : Word) : (wr s p off w).rfxHist = s.rfxHist := rfl
@[simp] theorem wr_holdAct (p off : Nat) (w : Word) : (wr s p off w).holdAct = s.holdAct := rfl
@[simp] theorem wr_swiPins (p off : Nat) (w : Word) : (wr s p off w).swiPins = s.swiPins := rfl
@[simp] theorem wr_swiDeb (p off : Nat) (w : Word) : (wr s p off w).swiDeb = s.swiDeb := rfl
@[simp] theorem wr_swiClean (p off : Nat) (w : Word) : (wr s p off w).swiClean = s.swiClean := rfl
@[simp] theorem wr_govLog (p off : Nat) (w : Word) : (wr s p off w).govLog = s.govLog := rfl
@[simp] theorem wr_govShed (p off : Nat) (w : Word) : (wr s p off w).govShed = s.govShed := rfl
@[simp] theorem wr_govSince (p off : Nat) (w : Word) : (wr s p off w).govSince = s.govSince := rfl
@[simp] theorem wr_govPkgDie (p off : Nat) (w : Word) : (wr s p off w).govPkgDie = s.govPkgDie := rfl
@[simp] theorem wr_tcmBad (p off : Nat) (w : Word) : (wr s p off w).tcmBad = s.tcmBad := rfl
@[simp] theorem wr_dmaHeld (p off : Nat) (w : Word) : (wr s p off w).dmaHeld = s.dmaHeld := rfl
@[simp] theorem wr_dmaSrc (p off : Nat) (w : Word) : (wr s p off w).dmaSrc = s.dmaSrc := rfl
@[simp] theorem wr_dmaDst (p off : Nat) (w : Word) : (wr s p off w).dmaDst = s.dmaDst := rfl
@[simp] theorem wr_dmaLeft (p off : Nat) (w : Word) : (wr s p off w).dmaLeft = s.dmaLeft := rfl
@[simp] theorem wr_winBank (p off : Nat) (w : Word) : (wr s p off w).winBank = s.winBank := rfl
@[simp] theorem wr_msqFifo (p off : Nat) (w : Word) : (wr s p off w).msqFifo = s.msqFifo := rfl
@[simp] theorem wr_ans (p off : Nat) (w : Word) : (wr s p off w).ans = s.ans := rfl
@[simp] theorem wr_pending (p off : Nat) (w : Word) : (wr s p off w).pending = s.pending := rfl

/-! ### setF -/

@[simp] theorem setF_mode (p : Nat) (f : Fld) (v : Nat) : (setF s p f v).mode = s.mode := rfl
@[simp] theorem setF_regs (p : Nat) (f : Fld) (v : Nat) : (setF s p f v).regs = storeSet regReset s.regs (rkey p f.off) (fset (rd s p f.off) f v) := rfl
@[simp] theorem setF_applied (p : Nat) (f : Fld) (v : Nat) : (setF s p f v).applied = s.applied := rfl
@[simp] theorem setF_mem (p : Nat) (f : Fld) (v : Nat) : (setF s p f v).mem = s.mem := rfl
@[simp] theorem setF_free (p : Nat) (f : Fld) (v : Nat) : (setF s p f v).free = s.free := rfl
@[simp] theorem setF_dirty (p : Nat) (f : Fld) (v : Nat) : (setF s p f v).dirty = s.dirty := rfl
@[simp] theorem setF_due (p : Nat) (f : Fld) (v : Nat) : (setF s p f v).due = s.due := rfl
@[simp] theorem setF_crossed (p : Nat) (f : Fld) (v : Nat) : (setF s p f v).crossed = s.crossed := rfl
@[simp] theorem setF_lineHeld (p : Nat) (f : Fld) (v : Nat) : (setF s p f v).lineHeld = s.lineHeld := rfl
@[simp] theorem setF_pwrTick (p : Nat) (f : Fld) (v : Nat) : (setF s p f v).pwrTick = s.pwrTick := rfl
@[simp] theorem setF_msDone (p : Nat) (f : Fld) (v : Nat) : (setF s p f v).msDone = s.msDone := rfl
@[simp] theorem setF_anaDone (p : Nat) (f : Fld) (v : Nat) : (setF s p f v).anaDone = s.anaDone := rfl
@[simp] theorem setF_flt (p : Nat) (f : Fld) (v : Nat) : (setF s p f v).flt = s.flt := rfl
@[simp] theorem setF_park (p : Nat) (f : Fld) (v : Nat) : (setF s p f v).park = s.park := rfl
@[simp] theorem setF_tbs (p : Nat) (f : Fld) (v : Nat) : (setF s p f v).tbs = s.tbs := rfl
@[simp] theorem setF_tb (p : Nat) (f : Fld) (v : Nat) : (setF s p f v).tb = s.tb := rfl
@[simp] theorem setF_ec (p : Nat) (f : Fld) (v : Nat) : (setF s p f v).ec = s.ec := rfl
@[simp] theorem setF_jxr (p : Nat) (f : Fld) (v : Nat) : (setF s p f v).jxr = s.jxr := rfl
@[simp] theorem setF_brg (p : Nat) (f : Fld) (v : Nat) : (setF s p f v).brg = s.brg := rfl
@[simp] theorem setF_can (p : Nat) (f : Fld) (v : Nat) : (setF s p f v).can = s.can := rfl
@[simp] theorem setF_lin (p : Nat) (f : Fld) (v : Nat) : (setF s p f v).lin = s.lin := rfl
@[simp] theorem setF_nmg (p : Nat) (f : Fld) (v : Nat) : (setF s p f v).nmg = s.nmg := rfl
@[simp] theorem setF_aonCopy (p : Nat) (f : Fld) (v : Nat) : (setF s p f v).aonCopy = s.aonCopy := rfl
@[simp] theorem setF_aonCopyOk (p : Nat) (f : Fld) (v : Nat) : (setF s p f v).aonCopyOk = s.aonCopyOk := rfl
@[simp] theorem setF_commits (p : Nat) (f : Fld) (v : Nat) : (setF s p f v).commits = s.commits := rfl
@[simp] theorem setF_pendKind (p : Nat) (f : Fld) (v : Nat) : (setF s p f v).pendKind = s.pendKind := rfl
@[simp] theorem setF_cmtClass (p : Nat) (f : Fld) (v : Nat) : (setF s p f v).cmtClass = s.cmtClass := rfl
@[simp] theorem setF_pmuPend (p : Nat) (f : Fld) (v : Nat) : (setF s p f v).pmuPend = s.pmuPend := rfl
@[simp] theorem setF_wk (p : Nat) (f : Fld) (v : Nat) : (setF s p f v).wk = s.wk := rfl
@[simp] theorem setF_fuseRec (p : Nat) (f : Fld) (v : Nat) : (setF s p f v).fuseRec = s.fuseRec := rfl
@[simp] theorem setF_committer (p : Nat) (f : Fld) (v : Nat) : (setF s p f v).committer = s.committer := rfl
@[simp] theorem setF_hpt (p : Nat) (f : Fld) (v : Nat) : (setF s p f v).hpt = s.hpt := rfl
@[simp] theorem setF_sbp (p : Nat) (f : Fld) (v : Nat) : (setF s p f v).sbp = s.sbp := rfl
@[simp] theorem setF_imm (p : Nat) (f : Fld) (v : Nat) : (setF s p f v).imm = s.imm := rfl
@[simp] theorem setF_vlt (p : Nat) (f : Fld) (v : Nat) : (setF s p f v).vlt = s.vlt := rfl
@[simp] theorem setF_upd (p : Nat) (f : Fld) (v : Nat) : (setF s p f v).upd = s.upd := rfl
@[simp] theorem setF_xsp (p : Nat) (f : Fld) (v : Nat) : (setF s p f v).xsp = s.xsp := rfl
@[simp] theorem setF_jrn (p : Nat) (f : Fld) (v : Nat) : (setF s p f v).jrn = s.jrn := rfl
@[simp] theorem setF_spr (p : Nat) (f : Fld) (v : Nat) : (setF s p f v).spr = s.spr := rfl
@[simp] theorem setF_hsc (p : Nat) (f : Fld) (v : Nat) : (setF s p f v).hsc = s.hsc := rfl
@[simp] theorem setF_hb (p : Nat) (f : Fld) (v : Nat) : (setF s p f v).hb = s.hb := rfl
@[simp] theorem setF_sol (p : Nat) (f : Fld) (v : Nat) : (setF s p f v).sol = s.sol := rfl
@[simp] theorem setF_sbk (p : Nat) (f : Fld) (v : Nat) : (setF s p f v).sbk = s.sbk := rfl
@[simp] theorem setF_lst (p : Nat) (f : Fld) (v : Nat) : (setF s p f v).lst = s.lst := rfl
@[simp] theorem setF_lmx (p : Nat) (f : Fld) (v : Nat) : (setF s p f v).lmx = s.lmx := rfl
@[simp] theorem setF_frmc (p : Nat) (f : Fld) (v : Nat) : (setF s p f v).frmc = s.frmc := rfl
@[simp] theorem setF_lch (p : Nat) (f : Fld) (v : Nat) : (setF s p f v).lch = s.lch := rfl
@[simp] theorem setF_rfxLoaded (p : Nat) (f : Fld) (v : Nat) : (setF s p f v).rfxLoaded = s.rfxLoaded := rfl
@[simp] theorem setF_rfxRun (p : Nat) (f : Fld) (v : Nat) : (setF s p f v).rfxRun = s.rfxRun := rfl
@[simp] theorem setF_rfxHist (p : Nat) (f : Fld) (v : Nat) : (setF s p f v).rfxHist = s.rfxHist := rfl
@[simp] theorem setF_holdAct (p : Nat) (f : Fld) (v : Nat) : (setF s p f v).holdAct = s.holdAct := rfl
@[simp] theorem setF_swiPins (p : Nat) (f : Fld) (v : Nat) : (setF s p f v).swiPins = s.swiPins := rfl
@[simp] theorem setF_swiDeb (p : Nat) (f : Fld) (v : Nat) : (setF s p f v).swiDeb = s.swiDeb := rfl
@[simp] theorem setF_swiClean (p : Nat) (f : Fld) (v : Nat) : (setF s p f v).swiClean = s.swiClean := rfl
@[simp] theorem setF_govLog (p : Nat) (f : Fld) (v : Nat) : (setF s p f v).govLog = s.govLog := rfl
@[simp] theorem setF_govShed (p : Nat) (f : Fld) (v : Nat) : (setF s p f v).govShed = s.govShed := rfl
@[simp] theorem setF_govSince (p : Nat) (f : Fld) (v : Nat) : (setF s p f v).govSince = s.govSince := rfl
@[simp] theorem setF_govPkgDie (p : Nat) (f : Fld) (v : Nat) : (setF s p f v).govPkgDie = s.govPkgDie := rfl
@[simp] theorem setF_tcmBad (p : Nat) (f : Fld) (v : Nat) : (setF s p f v).tcmBad = s.tcmBad := rfl
@[simp] theorem setF_dmaHeld (p : Nat) (f : Fld) (v : Nat) : (setF s p f v).dmaHeld = s.dmaHeld := rfl
@[simp] theorem setF_dmaSrc (p : Nat) (f : Fld) (v : Nat) : (setF s p f v).dmaSrc = s.dmaSrc := rfl
@[simp] theorem setF_dmaDst (p : Nat) (f : Fld) (v : Nat) : (setF s p f v).dmaDst = s.dmaDst := rfl
@[simp] theorem setF_dmaLeft (p : Nat) (f : Fld) (v : Nat) : (setF s p f v).dmaLeft = s.dmaLeft := rfl
@[simp] theorem setF_winBank (p : Nat) (f : Fld) (v : Nat) : (setF s p f v).winBank = s.winBank := rfl
@[simp] theorem setF_msqFifo (p : Nat) (f : Fld) (v : Nat) : (setF s p f v).msqFifo = s.msqFifo := rfl
@[simp] theorem setF_ans (p : Nat) (f : Fld) (v : Nat) : (setF s p f v).ans = s.ans := rfl
@[simp] theorem setF_pending (p : Nat) (f : Fld) (v : Nat) : (setF s p f v).pending = s.pending := rfl

/-! ### setFlag -/

@[simp] theorem setFlag_mode (p : Nat) (f : Fld) (b : Bool) : (setFlag s p f b).mode = s.mode := rfl
@[simp] theorem setFlag_regs (p : Nat) (f : Fld) (b : Bool) : (setFlag s p f b).regs = storeSet regReset s.regs (rkey p f.off) (fset (rd s p f.off) f b.toNat) := rfl
@[simp] theorem setFlag_applied (p : Nat) (f : Fld) (b : Bool) : (setFlag s p f b).applied = s.applied := rfl
@[simp] theorem setFlag_mem (p : Nat) (f : Fld) (b : Bool) : (setFlag s p f b).mem = s.mem := rfl
@[simp] theorem setFlag_free (p : Nat) (f : Fld) (b : Bool) : (setFlag s p f b).free = s.free := rfl
@[simp] theorem setFlag_dirty (p : Nat) (f : Fld) (b : Bool) : (setFlag s p f b).dirty = s.dirty := rfl
@[simp] theorem setFlag_due (p : Nat) (f : Fld) (b : Bool) : (setFlag s p f b).due = s.due := rfl
@[simp] theorem setFlag_crossed (p : Nat) (f : Fld) (b : Bool) : (setFlag s p f b).crossed = s.crossed := rfl
@[simp] theorem setFlag_lineHeld (p : Nat) (f : Fld) (b : Bool) : (setFlag s p f b).lineHeld = s.lineHeld := rfl
@[simp] theorem setFlag_pwrTick (p : Nat) (f : Fld) (b : Bool) : (setFlag s p f b).pwrTick = s.pwrTick := rfl
@[simp] theorem setFlag_msDone (p : Nat) (f : Fld) (b : Bool) : (setFlag s p f b).msDone = s.msDone := rfl
@[simp] theorem setFlag_anaDone (p : Nat) (f : Fld) (b : Bool) : (setFlag s p f b).anaDone = s.anaDone := rfl
@[simp] theorem setFlag_flt (p : Nat) (f : Fld) (b : Bool) : (setFlag s p f b).flt = s.flt := rfl
@[simp] theorem setFlag_park (p : Nat) (f : Fld) (b : Bool) : (setFlag s p f b).park = s.park := rfl
@[simp] theorem setFlag_tbs (p : Nat) (f : Fld) (b : Bool) : (setFlag s p f b).tbs = s.tbs := rfl
@[simp] theorem setFlag_tb (p : Nat) (f : Fld) (b : Bool) : (setFlag s p f b).tb = s.tb := rfl
@[simp] theorem setFlag_ec (p : Nat) (f : Fld) (b : Bool) : (setFlag s p f b).ec = s.ec := rfl
@[simp] theorem setFlag_jxr (p : Nat) (f : Fld) (b : Bool) : (setFlag s p f b).jxr = s.jxr := rfl
@[simp] theorem setFlag_brg (p : Nat) (f : Fld) (b : Bool) : (setFlag s p f b).brg = s.brg := rfl
@[simp] theorem setFlag_can (p : Nat) (f : Fld) (b : Bool) : (setFlag s p f b).can = s.can := rfl
@[simp] theorem setFlag_lin (p : Nat) (f : Fld) (b : Bool) : (setFlag s p f b).lin = s.lin := rfl
@[simp] theorem setFlag_nmg (p : Nat) (f : Fld) (b : Bool) : (setFlag s p f b).nmg = s.nmg := rfl
@[simp] theorem setFlag_aonCopy (p : Nat) (f : Fld) (b : Bool) : (setFlag s p f b).aonCopy = s.aonCopy := rfl
@[simp] theorem setFlag_aonCopyOk (p : Nat) (f : Fld) (b : Bool) : (setFlag s p f b).aonCopyOk = s.aonCopyOk := rfl
@[simp] theorem setFlag_commits (p : Nat) (f : Fld) (b : Bool) : (setFlag s p f b).commits = s.commits := rfl
@[simp] theorem setFlag_pendKind (p : Nat) (f : Fld) (b : Bool) : (setFlag s p f b).pendKind = s.pendKind := rfl
@[simp] theorem setFlag_cmtClass (p : Nat) (f : Fld) (b : Bool) : (setFlag s p f b).cmtClass = s.cmtClass := rfl
@[simp] theorem setFlag_pmuPend (p : Nat) (f : Fld) (b : Bool) : (setFlag s p f b).pmuPend = s.pmuPend := rfl
@[simp] theorem setFlag_wk (p : Nat) (f : Fld) (b : Bool) : (setFlag s p f b).wk = s.wk := rfl
@[simp] theorem setFlag_fuseRec (p : Nat) (f : Fld) (b : Bool) : (setFlag s p f b).fuseRec = s.fuseRec := rfl
@[simp] theorem setFlag_committer (p : Nat) (f : Fld) (b : Bool) : (setFlag s p f b).committer = s.committer := rfl
@[simp] theorem setFlag_hpt (p : Nat) (f : Fld) (b : Bool) : (setFlag s p f b).hpt = s.hpt := rfl
@[simp] theorem setFlag_sbp (p : Nat) (f : Fld) (b : Bool) : (setFlag s p f b).sbp = s.sbp := rfl
@[simp] theorem setFlag_imm (p : Nat) (f : Fld) (b : Bool) : (setFlag s p f b).imm = s.imm := rfl
@[simp] theorem setFlag_vlt (p : Nat) (f : Fld) (b : Bool) : (setFlag s p f b).vlt = s.vlt := rfl
@[simp] theorem setFlag_upd (p : Nat) (f : Fld) (b : Bool) : (setFlag s p f b).upd = s.upd := rfl
@[simp] theorem setFlag_xsp (p : Nat) (f : Fld) (b : Bool) : (setFlag s p f b).xsp = s.xsp := rfl
@[simp] theorem setFlag_jrn (p : Nat) (f : Fld) (b : Bool) : (setFlag s p f b).jrn = s.jrn := rfl
@[simp] theorem setFlag_spr (p : Nat) (f : Fld) (b : Bool) : (setFlag s p f b).spr = s.spr := rfl
@[simp] theorem setFlag_hsc (p : Nat) (f : Fld) (b : Bool) : (setFlag s p f b).hsc = s.hsc := rfl
@[simp] theorem setFlag_hb (p : Nat) (f : Fld) (b : Bool) : (setFlag s p f b).hb = s.hb := rfl
@[simp] theorem setFlag_sol (p : Nat) (f : Fld) (b : Bool) : (setFlag s p f b).sol = s.sol := rfl
@[simp] theorem setFlag_sbk (p : Nat) (f : Fld) (b : Bool) : (setFlag s p f b).sbk = s.sbk := rfl
@[simp] theorem setFlag_lst (p : Nat) (f : Fld) (b : Bool) : (setFlag s p f b).lst = s.lst := rfl
@[simp] theorem setFlag_lmx (p : Nat) (f : Fld) (b : Bool) : (setFlag s p f b).lmx = s.lmx := rfl
@[simp] theorem setFlag_frmc (p : Nat) (f : Fld) (b : Bool) : (setFlag s p f b).frmc = s.frmc := rfl
@[simp] theorem setFlag_lch (p : Nat) (f : Fld) (b : Bool) : (setFlag s p f b).lch = s.lch := rfl
@[simp] theorem setFlag_rfxLoaded (p : Nat) (f : Fld) (b : Bool) : (setFlag s p f b).rfxLoaded = s.rfxLoaded := rfl
@[simp] theorem setFlag_rfxRun (p : Nat) (f : Fld) (b : Bool) : (setFlag s p f b).rfxRun = s.rfxRun := rfl
@[simp] theorem setFlag_rfxHist (p : Nat) (f : Fld) (b : Bool) : (setFlag s p f b).rfxHist = s.rfxHist := rfl
@[simp] theorem setFlag_holdAct (p : Nat) (f : Fld) (b : Bool) : (setFlag s p f b).holdAct = s.holdAct := rfl
@[simp] theorem setFlag_swiPins (p : Nat) (f : Fld) (b : Bool) : (setFlag s p f b).swiPins = s.swiPins := rfl
@[simp] theorem setFlag_swiDeb (p : Nat) (f : Fld) (b : Bool) : (setFlag s p f b).swiDeb = s.swiDeb := rfl
@[simp] theorem setFlag_swiClean (p : Nat) (f : Fld) (b : Bool) : (setFlag s p f b).swiClean = s.swiClean := rfl
@[simp] theorem setFlag_govLog (p : Nat) (f : Fld) (b : Bool) : (setFlag s p f b).govLog = s.govLog := rfl
@[simp] theorem setFlag_govShed (p : Nat) (f : Fld) (b : Bool) : (setFlag s p f b).govShed = s.govShed := rfl
@[simp] theorem setFlag_govSince (p : Nat) (f : Fld) (b : Bool) : (setFlag s p f b).govSince = s.govSince := rfl
@[simp] theorem setFlag_govPkgDie (p : Nat) (f : Fld) (b : Bool) : (setFlag s p f b).govPkgDie = s.govPkgDie := rfl
@[simp] theorem setFlag_tcmBad (p : Nat) (f : Fld) (b : Bool) : (setFlag s p f b).tcmBad = s.tcmBad := rfl
@[simp] theorem setFlag_dmaHeld (p : Nat) (f : Fld) (b : Bool) : (setFlag s p f b).dmaHeld = s.dmaHeld := rfl
@[simp] theorem setFlag_dmaSrc (p : Nat) (f : Fld) (b : Bool) : (setFlag s p f b).dmaSrc = s.dmaSrc := rfl
@[simp] theorem setFlag_dmaDst (p : Nat) (f : Fld) (b : Bool) : (setFlag s p f b).dmaDst = s.dmaDst := rfl
@[simp] theorem setFlag_dmaLeft (p : Nat) (f : Fld) (b : Bool) : (setFlag s p f b).dmaLeft = s.dmaLeft := rfl
@[simp] theorem setFlag_winBank (p : Nat) (f : Fld) (b : Bool) : (setFlag s p f b).winBank = s.winBank := rfl
@[simp] theorem setFlag_msqFifo (p : Nat) (f : Fld) (b : Bool) : (setFlag s p f b).msqFifo = s.msqFifo := rfl
@[simp] theorem setFlag_ans (p : Nat) (f : Fld) (b : Bool) : (setFlag s p f b).ans = s.ans := rfl
@[simp] theorem setFlag_pending (p : Nat) (f : Fld) (b : Bool) : (setFlag s p f b).pending = s.pending := rfl

/-! ### werr -/

@[simp] theorem werr_mode (p off : Nat) : (werr s p off).mode = s.mode := rfl
@[simp] theorem werr_regs (p off : Nat) : (werr s p off).regs = storeSet regReset (setF s p H.FOFF (off / 4)).regs (rkey p 0x008) (fset (rd (setF s p H.FOFF (off / 4)) p 0x008) H.WERR 1) := rfl
@[simp] theorem werr_applied (p off : Nat) : (werr s p off).applied = s.applied := rfl
@[simp] theorem werr_mem (p off : Nat) : (werr s p off).mem = s.mem := rfl
@[simp] theorem werr_free (p off : Nat) : (werr s p off).free = s.free := rfl
@[simp] theorem werr_dirty (p off : Nat) : (werr s p off).dirty = s.dirty := rfl
@[simp] theorem werr_due (p off : Nat) : (werr s p off).due = s.due := rfl
@[simp] theorem werr_crossed (p off : Nat) : (werr s p off).crossed = s.crossed := rfl
@[simp] theorem werr_lineHeld (p off : Nat) : (werr s p off).lineHeld = s.lineHeld := rfl
@[simp] theorem werr_pwrTick (p off : Nat) : (werr s p off).pwrTick = s.pwrTick := rfl
@[simp] theorem werr_msDone (p off : Nat) : (werr s p off).msDone = s.msDone := rfl
@[simp] theorem werr_anaDone (p off : Nat) : (werr s p off).anaDone = s.anaDone := rfl
@[simp] theorem werr_flt (p off : Nat) : (werr s p off).flt = s.flt := rfl
@[simp] theorem werr_park (p off : Nat) : (werr s p off).park = s.park := rfl
@[simp] theorem werr_tbs (p off : Nat) : (werr s p off).tbs = s.tbs := rfl
@[simp] theorem werr_tb (p off : Nat) : (werr s p off).tb = s.tb := rfl
@[simp] theorem werr_ec (p off : Nat) : (werr s p off).ec = s.ec := rfl
@[simp] theorem werr_jxr (p off : Nat) : (werr s p off).jxr = s.jxr := rfl
@[simp] theorem werr_brg (p off : Nat) : (werr s p off).brg = s.brg := rfl
@[simp] theorem werr_can (p off : Nat) : (werr s p off).can = s.can := rfl
@[simp] theorem werr_lin (p off : Nat) : (werr s p off).lin = s.lin := rfl
@[simp] theorem werr_nmg (p off : Nat) : (werr s p off).nmg = s.nmg := rfl
@[simp] theorem werr_aonCopy (p off : Nat) : (werr s p off).aonCopy = s.aonCopy := rfl
@[simp] theorem werr_aonCopyOk (p off : Nat) : (werr s p off).aonCopyOk = s.aonCopyOk := rfl
@[simp] theorem werr_commits (p off : Nat) : (werr s p off).commits = s.commits := rfl
@[simp] theorem werr_pendKind (p off : Nat) : (werr s p off).pendKind = s.pendKind := rfl
@[simp] theorem werr_cmtClass (p off : Nat) : (werr s p off).cmtClass = s.cmtClass := rfl
@[simp] theorem werr_pmuPend (p off : Nat) : (werr s p off).pmuPend = s.pmuPend := rfl
@[simp] theorem werr_wk (p off : Nat) : (werr s p off).wk = s.wk := rfl
@[simp] theorem werr_fuseRec (p off : Nat) : (werr s p off).fuseRec = s.fuseRec := rfl
@[simp] theorem werr_committer (p off : Nat) : (werr s p off).committer = s.committer := rfl
@[simp] theorem werr_hpt (p off : Nat) : (werr s p off).hpt = s.hpt := rfl
@[simp] theorem werr_sbp (p off : Nat) : (werr s p off).sbp = s.sbp := rfl
@[simp] theorem werr_imm (p off : Nat) : (werr s p off).imm = s.imm := rfl
@[simp] theorem werr_vlt (p off : Nat) : (werr s p off).vlt = s.vlt := rfl
@[simp] theorem werr_upd (p off : Nat) : (werr s p off).upd = s.upd := rfl
@[simp] theorem werr_xsp (p off : Nat) : (werr s p off).xsp = s.xsp := rfl
@[simp] theorem werr_jrn (p off : Nat) : (werr s p off).jrn = s.jrn := rfl
@[simp] theorem werr_spr (p off : Nat) : (werr s p off).spr = s.spr := rfl
@[simp] theorem werr_hsc (p off : Nat) : (werr s p off).hsc = s.hsc := rfl
@[simp] theorem werr_hb (p off : Nat) : (werr s p off).hb = s.hb := rfl
@[simp] theorem werr_sol (p off : Nat) : (werr s p off).sol = s.sol := rfl
@[simp] theorem werr_sbk (p off : Nat) : (werr s p off).sbk = s.sbk := rfl
@[simp] theorem werr_lst (p off : Nat) : (werr s p off).lst = s.lst := rfl
@[simp] theorem werr_lmx (p off : Nat) : (werr s p off).lmx = s.lmx := rfl
@[simp] theorem werr_frmc (p off : Nat) : (werr s p off).frmc = s.frmc := rfl
@[simp] theorem werr_lch (p off : Nat) : (werr s p off).lch = s.lch := rfl
@[simp] theorem werr_rfxLoaded (p off : Nat) : (werr s p off).rfxLoaded = s.rfxLoaded := rfl
@[simp] theorem werr_rfxRun (p off : Nat) : (werr s p off).rfxRun = s.rfxRun := rfl
@[simp] theorem werr_rfxHist (p off : Nat) : (werr s p off).rfxHist = s.rfxHist := rfl
@[simp] theorem werr_holdAct (p off : Nat) : (werr s p off).holdAct = s.holdAct := rfl
@[simp] theorem werr_swiPins (p off : Nat) : (werr s p off).swiPins = s.swiPins := rfl
@[simp] theorem werr_swiDeb (p off : Nat) : (werr s p off).swiDeb = s.swiDeb := rfl
@[simp] theorem werr_swiClean (p off : Nat) : (werr s p off).swiClean = s.swiClean := rfl
@[simp] theorem werr_govLog (p off : Nat) : (werr s p off).govLog = s.govLog := rfl
@[simp] theorem werr_govShed (p off : Nat) : (werr s p off).govShed = s.govShed := rfl
@[simp] theorem werr_govSince (p off : Nat) : (werr s p off).govSince = s.govSince := rfl
@[simp] theorem werr_govPkgDie (p off : Nat) : (werr s p off).govPkgDie = s.govPkgDie := rfl
@[simp] theorem werr_tcmBad (p off : Nat) : (werr s p off).tcmBad = s.tcmBad := rfl
@[simp] theorem werr_dmaHeld (p off : Nat) : (werr s p off).dmaHeld = s.dmaHeld := rfl
@[simp] theorem werr_dmaSrc (p off : Nat) : (werr s p off).dmaSrc = s.dmaSrc := rfl
@[simp] theorem werr_dmaDst (p off : Nat) : (werr s p off).dmaDst = s.dmaDst := rfl
@[simp] theorem werr_dmaLeft (p off : Nat) : (werr s p off).dmaLeft = s.dmaLeft := rfl
@[simp] theorem werr_winBank (p off : Nat) : (werr s p off).winBank = s.winBank := rfl
@[simp] theorem werr_msqFifo (p off : Nat) : (werr s p off).msqFifo = s.msqFifo := rfl
@[simp] theorem werr_ans (p off : Nat) : (werr s p off).ans = s.ans := rfl
@[simp] theorem werr_pending (p off : Nat) : (werr s p off).pending = s.pending := rfl

/-! ### touch -/

@[simp] theorem touch_mode : (touch s).mode = s.mode := rfl
@[simp] theorem touch_regs : (touch s).regs = s.regs := rfl
@[simp] theorem touch_applied : (touch s).applied = s.applied := rfl
@[simp] theorem touch_mem : (touch s).mem = s.mem := rfl
@[simp] theorem touch_free : (touch s).free = s.free := rfl
@[simp] theorem touch_dirty : (touch s).dirty = true := rfl
@[simp] theorem touch_due : (touch s).due = s.due := rfl
@[simp] theorem touch_crossed : (touch s).crossed = s.crossed := rfl
@[simp] theorem touch_lineHeld : (touch s).lineHeld = s.lineHeld := rfl
@[simp] theorem touch_pwrTick : (touch s).pwrTick = s.pwrTick := rfl
@[simp] theorem touch_msDone : (touch s).msDone = s.msDone := rfl
@[simp] theorem touch_anaDone : (touch s).anaDone = s.anaDone := rfl
@[simp] theorem touch_flt : (touch s).flt = s.flt := rfl
@[simp] theorem touch_park : (touch s).park = s.park := rfl
@[simp] theorem touch_tbs : (touch s).tbs = s.tbs := rfl
@[simp] theorem touch_tb : (touch s).tb = s.tb := rfl
@[simp] theorem touch_ec : (touch s).ec = s.ec := rfl
@[simp] theorem touch_jxr : (touch s).jxr = s.jxr := rfl
@[simp] theorem touch_brg : (touch s).brg = s.brg := rfl
@[simp] theorem touch_can : (touch s).can = s.can := rfl
@[simp] theorem touch_lin : (touch s).lin = s.lin := rfl
@[simp] theorem touch_nmg : (touch s).nmg = s.nmg := rfl
@[simp] theorem touch_aonCopy : (touch s).aonCopy = s.aonCopy := rfl
@[simp] theorem touch_aonCopyOk : (touch s).aonCopyOk = s.aonCopyOk := rfl
@[simp] theorem touch_commits : (touch s).commits = s.commits := rfl
@[simp] theorem touch_pendKind : (touch s).pendKind = s.pendKind := rfl
@[simp] theorem touch_cmtClass : (touch s).cmtClass = s.cmtClass := rfl
@[simp] theorem touch_pmuPend : (touch s).pmuPend = s.pmuPend := rfl
@[simp] theorem touch_wk : (touch s).wk = s.wk := rfl
@[simp] theorem touch_fuseRec : (touch s).fuseRec = s.fuseRec := rfl
@[simp] theorem touch_committer : (touch s).committer = s.committer := rfl
@[simp] theorem touch_hpt : (touch s).hpt = s.hpt := rfl
@[simp] theorem touch_sbp : (touch s).sbp = s.sbp := rfl
@[simp] theorem touch_imm : (touch s).imm = s.imm := rfl
@[simp] theorem touch_vlt : (touch s).vlt = s.vlt := rfl
@[simp] theorem touch_upd : (touch s).upd = s.upd := rfl
@[simp] theorem touch_xsp : (touch s).xsp = s.xsp := rfl
@[simp] theorem touch_jrn : (touch s).jrn = s.jrn := rfl
@[simp] theorem touch_spr : (touch s).spr = s.spr := rfl
@[simp] theorem touch_hsc : (touch s).hsc = s.hsc := rfl
@[simp] theorem touch_hb : (touch s).hb = s.hb := rfl
@[simp] theorem touch_sol : (touch s).sol = s.sol := rfl
@[simp] theorem touch_sbk : (touch s).sbk = s.sbk := rfl
@[simp] theorem touch_lst : (touch s).lst = s.lst := rfl
@[simp] theorem touch_lmx : (touch s).lmx = s.lmx := rfl
@[simp] theorem touch_frmc : (touch s).frmc = s.frmc := rfl
@[simp] theorem touch_lch : (touch s).lch = s.lch := rfl
@[simp] theorem touch_rfxLoaded : (touch s).rfxLoaded = s.rfxLoaded := rfl
@[simp] theorem touch_rfxRun : (touch s).rfxRun = s.rfxRun := rfl
@[simp] theorem touch_rfxHist : (touch s).rfxHist = s.rfxHist := rfl
@[simp] theorem touch_holdAct : (touch s).holdAct = s.holdAct := rfl
@[simp] theorem touch_swiPins : (touch s).swiPins = s.swiPins := rfl
@[simp] theorem touch_swiDeb : (touch s).swiDeb = s.swiDeb := rfl
@[simp] theorem touch_swiClean : (touch s).swiClean = s.swiClean := rfl
@[simp] theorem touch_govLog : (touch s).govLog = s.govLog := rfl
@[simp] theorem touch_govShed : (touch s).govShed = s.govShed := rfl
@[simp] theorem touch_govSince : (touch s).govSince = s.govSince := rfl
@[simp] theorem touch_govPkgDie : (touch s).govPkgDie = s.govPkgDie := rfl
@[simp] theorem touch_tcmBad : (touch s).tcmBad = s.tcmBad := rfl
@[simp] theorem touch_dmaHeld : (touch s).dmaHeld = s.dmaHeld := rfl
@[simp] theorem touch_dmaSrc : (touch s).dmaSrc = s.dmaSrc := rfl
@[simp] theorem touch_dmaDst : (touch s).dmaDst = s.dmaDst := rfl
@[simp] theorem touch_dmaLeft : (touch s).dmaLeft = s.dmaLeft := rfl
@[simp] theorem touch_winBank : (touch s).winBank = s.winBank := rfl
@[simp] theorem touch_msqFifo : (touch s).msqFifo = s.msqFifo := rfl
@[simp] theorem touch_ans : (touch s).ans = s.ans := rfl
@[simp] theorem touch_pending : (touch s).pending = s.pending := rfl

/-! ### raise -/

@[simp] theorem raise_mode (id : Nat) : (raise s id).mode = s.mode := rfl
@[simp] theorem raise_regs (id : Nat) : (raise s id).regs = s.regs := rfl
@[simp] theorem raise_applied (id : Nat) : (raise s id).applied = s.applied := rfl
@[simp] theorem raise_mem (id : Nat) : (raise s id).mem = s.mem := rfl
@[simp] theorem raise_free (id : Nat) : (raise s id).free = s.free := rfl
@[simp] theorem raise_dirty (id : Nat) : (raise s id).dirty = s.dirty := rfl
@[simp] theorem raise_due (id : Nat) : (raise s id).due = s.due ++ [⟨id, false, []⟩] := rfl
@[simp] theorem raise_crossed (id : Nat) : (raise s id).crossed = s.crossed := rfl
@[simp] theorem raise_lineHeld (id : Nat) : (raise s id).lineHeld = s.lineHeld := rfl
@[simp] theorem raise_pwrTick (id : Nat) : (raise s id).pwrTick = s.pwrTick := rfl
@[simp] theorem raise_msDone (id : Nat) : (raise s id).msDone = s.msDone := rfl
@[simp] theorem raise_anaDone (id : Nat) : (raise s id).anaDone = s.anaDone := rfl
@[simp] theorem raise_flt (id : Nat) : (raise s id).flt = s.flt := rfl
@[simp] theorem raise_park (id : Nat) : (raise s id).park = s.park := rfl
@[simp] theorem raise_tbs (id : Nat) : (raise s id).tbs = s.tbs := rfl
@[simp] theorem raise_tb (id : Nat) : (raise s id).tb = s.tb := rfl
@[simp] theorem raise_ec (id : Nat) : (raise s id).ec = s.ec := rfl
@[simp] theorem raise_jxr (id : Nat) : (raise s id).jxr = s.jxr := rfl
@[simp] theorem raise_brg (id : Nat) : (raise s id).brg = s.brg := rfl
@[simp] theorem raise_can (id : Nat) : (raise s id).can = s.can := rfl
@[simp] theorem raise_lin (id : Nat) : (raise s id).lin = s.lin := rfl
@[simp] theorem raise_nmg (id : Nat) : (raise s id).nmg = s.nmg := rfl
@[simp] theorem raise_aonCopy (id : Nat) : (raise s id).aonCopy = s.aonCopy := rfl
@[simp] theorem raise_aonCopyOk (id : Nat) : (raise s id).aonCopyOk = s.aonCopyOk := rfl
@[simp] theorem raise_commits (id : Nat) : (raise s id).commits = s.commits := rfl
@[simp] theorem raise_pendKind (id : Nat) : (raise s id).pendKind = s.pendKind := rfl
@[simp] theorem raise_cmtClass (id : Nat) : (raise s id).cmtClass = s.cmtClass := rfl
@[simp] theorem raise_pmuPend (id : Nat) : (raise s id).pmuPend = s.pmuPend := rfl
@[simp] theorem raise_wk (id : Nat) : (raise s id).wk = s.wk := rfl
@[simp] theorem raise_fuseRec (id : Nat) : (raise s id).fuseRec = s.fuseRec := rfl
@[simp] theorem raise_committer (id : Nat) : (raise s id).committer = s.committer := rfl
@[simp] theorem raise_hpt (id : Nat) : (raise s id).hpt = s.hpt := rfl
@[simp] theorem raise_sbp (id : Nat) : (raise s id).sbp = s.sbp := rfl
@[simp] theorem raise_imm (id : Nat) : (raise s id).imm = s.imm := rfl
@[simp] theorem raise_vlt (id : Nat) : (raise s id).vlt = s.vlt := rfl
@[simp] theorem raise_upd (id : Nat) : (raise s id).upd = s.upd := rfl
@[simp] theorem raise_xsp (id : Nat) : (raise s id).xsp = s.xsp := rfl
@[simp] theorem raise_jrn (id : Nat) : (raise s id).jrn = s.jrn := rfl
@[simp] theorem raise_spr (id : Nat) : (raise s id).spr = s.spr := rfl
@[simp] theorem raise_hsc (id : Nat) : (raise s id).hsc = s.hsc := rfl
@[simp] theorem raise_hb (id : Nat) : (raise s id).hb = s.hb := rfl
@[simp] theorem raise_sol (id : Nat) : (raise s id).sol = s.sol := rfl
@[simp] theorem raise_sbk (id : Nat) : (raise s id).sbk = s.sbk := rfl
@[simp] theorem raise_lst (id : Nat) : (raise s id).lst = s.lst := rfl
@[simp] theorem raise_lmx (id : Nat) : (raise s id).lmx = s.lmx := rfl
@[simp] theorem raise_frmc (id : Nat) : (raise s id).frmc = s.frmc := rfl
@[simp] theorem raise_lch (id : Nat) : (raise s id).lch = s.lch := rfl
@[simp] theorem raise_rfxLoaded (id : Nat) : (raise s id).rfxLoaded = s.rfxLoaded := rfl
@[simp] theorem raise_rfxRun (id : Nat) : (raise s id).rfxRun = s.rfxRun := rfl
@[simp] theorem raise_rfxHist (id : Nat) : (raise s id).rfxHist = s.rfxHist := rfl
@[simp] theorem raise_holdAct (id : Nat) : (raise s id).holdAct = s.holdAct := rfl
@[simp] theorem raise_swiPins (id : Nat) : (raise s id).swiPins = s.swiPins := rfl
@[simp] theorem raise_swiDeb (id : Nat) : (raise s id).swiDeb = s.swiDeb := rfl
@[simp] theorem raise_swiClean (id : Nat) : (raise s id).swiClean = s.swiClean := rfl
@[simp] theorem raise_govLog (id : Nat) : (raise s id).govLog = s.govLog := rfl
@[simp] theorem raise_govShed (id : Nat) : (raise s id).govShed = s.govShed := rfl
@[simp] theorem raise_govSince (id : Nat) : (raise s id).govSince = s.govSince := rfl
@[simp] theorem raise_govPkgDie (id : Nat) : (raise s id).govPkgDie = s.govPkgDie := rfl
@[simp] theorem raise_tcmBad (id : Nat) : (raise s id).tcmBad = s.tcmBad := rfl
@[simp] theorem raise_dmaHeld (id : Nat) : (raise s id).dmaHeld = s.dmaHeld := rfl
@[simp] theorem raise_dmaSrc (id : Nat) : (raise s id).dmaSrc = s.dmaSrc := rfl
@[simp] theorem raise_dmaDst (id : Nat) : (raise s id).dmaDst = s.dmaDst := rfl
@[simp] theorem raise_dmaLeft (id : Nat) : (raise s id).dmaLeft = s.dmaLeft := rfl
@[simp] theorem raise_winBank (id : Nat) : (raise s id).winBank = s.winBank := rfl
@[simp] theorem raise_msqFifo (id : Nat) : (raise s id).msqFifo = s.msqFifo := rfl
@[simp] theorem raise_ans (id : Nat) : (raise s id).ans = s.ans := rfl
@[simp] theorem raise_pending (id : Nat) : (raise s id).pending = s.pending := rfl

/-! ### raiseP -/

@[simp] theorem raiseP_mode (p b : Nat) : (raiseP s p b).mode = s.mode := rfl
@[simp] theorem raiseP_regs (p b : Nat) : (raiseP s p b).regs = s.regs := rfl
@[simp] theorem raiseP_applied (p b : Nat) : (raiseP s p b).applied = s.applied := rfl
@[simp] theorem raiseP_mem (p b : Nat) : (raiseP s p b).mem = s.mem := rfl
@[simp] theorem raiseP_free (p b : Nat) : (raiseP s p b).free = s.free := rfl
@[simp] theorem raiseP_dirty (p b : Nat) : (raiseP s p b).dirty = s.dirty := rfl
@[simp] theorem raiseP_due (p b : Nat) : (raiseP s p b).due = s.due ++ [⟨p * 8 + b, false, []⟩] := rfl
@[simp] theorem raiseP_crossed (p b : Nat) : (raiseP s p b).crossed = s.crossed := rfl
@[simp] theorem raiseP_lineHeld (p b : Nat) : (raiseP s p b).lineHeld = s.lineHeld := rfl
@[simp] theorem raiseP_pwrTick (p b : Nat) : (raiseP s p b).pwrTick = s.pwrTick := rfl
@[simp] theorem raiseP_msDone (p b : Nat) : (raiseP s p b).msDone = s.msDone := rfl
@[simp] theorem raiseP_anaDone (p b : Nat) : (raiseP s p b).anaDone = s.anaDone := rfl
@[simp] theorem raiseP_flt (p b : Nat) : (raiseP s p b).flt = s.flt := rfl
@[simp] theorem raiseP_park (p b : Nat) : (raiseP s p b).park = s.park := rfl
@[simp] theorem raiseP_tbs (p b : Nat) : (raiseP s p b).tbs = s.tbs := rfl
@[simp] theorem raiseP_tb (p b : Nat) : (raiseP s p b).tb = s.tb := rfl
@[simp] theorem raiseP_ec (p b : Nat) : (raiseP s p b).ec = s.ec := rfl
@[simp] theorem raiseP_jxr (p b : Nat) : (raiseP s p b).jxr = s.jxr := rfl
@[simp] theorem raiseP_brg (p b : Nat) : (raiseP s p b).brg = s.brg := rfl
@[simp] theorem raiseP_can (p b : Nat) : (raiseP s p b).can = s.can := rfl
@[simp] theorem raiseP_lin (p b : Nat) : (raiseP s p b).lin = s.lin := rfl
@[simp] theorem raiseP_nmg (p b : Nat) : (raiseP s p b).nmg = s.nmg := rfl
@[simp] theorem raiseP_aonCopy (p b : Nat) : (raiseP s p b).aonCopy = s.aonCopy := rfl
@[simp] theorem raiseP_aonCopyOk (p b : Nat) : (raiseP s p b).aonCopyOk = s.aonCopyOk := rfl
@[simp] theorem raiseP_commits (p b : Nat) : (raiseP s p b).commits = s.commits := rfl
@[simp] theorem raiseP_pendKind (p b : Nat) : (raiseP s p b).pendKind = s.pendKind := rfl
@[simp] theorem raiseP_cmtClass (p b : Nat) : (raiseP s p b).cmtClass = s.cmtClass := rfl
@[simp] theorem raiseP_pmuPend (p b : Nat) : (raiseP s p b).pmuPend = s.pmuPend := rfl
@[simp] theorem raiseP_wk (p b : Nat) : (raiseP s p b).wk = s.wk := rfl
@[simp] theorem raiseP_fuseRec (p b : Nat) : (raiseP s p b).fuseRec = s.fuseRec := rfl
@[simp] theorem raiseP_committer (p b : Nat) : (raiseP s p b).committer = s.committer := rfl
@[simp] theorem raiseP_hpt (p b : Nat) : (raiseP s p b).hpt = s.hpt := rfl
@[simp] theorem raiseP_sbp (p b : Nat) : (raiseP s p b).sbp = s.sbp := rfl
@[simp] theorem raiseP_imm (p b : Nat) : (raiseP s p b).imm = s.imm := rfl
@[simp] theorem raiseP_vlt (p b : Nat) : (raiseP s p b).vlt = s.vlt := rfl
@[simp] theorem raiseP_upd (p b : Nat) : (raiseP s p b).upd = s.upd := rfl
@[simp] theorem raiseP_xsp (p b : Nat) : (raiseP s p b).xsp = s.xsp := rfl
@[simp] theorem raiseP_jrn (p b : Nat) : (raiseP s p b).jrn = s.jrn := rfl
@[simp] theorem raiseP_spr (p b : Nat) : (raiseP s p b).spr = s.spr := rfl
@[simp] theorem raiseP_hsc (p b : Nat) : (raiseP s p b).hsc = s.hsc := rfl
@[simp] theorem raiseP_hb (p b : Nat) : (raiseP s p b).hb = s.hb := rfl
@[simp] theorem raiseP_sol (p b : Nat) : (raiseP s p b).sol = s.sol := rfl
@[simp] theorem raiseP_sbk (p b : Nat) : (raiseP s p b).sbk = s.sbk := rfl
@[simp] theorem raiseP_lst (p b : Nat) : (raiseP s p b).lst = s.lst := rfl
@[simp] theorem raiseP_lmx (p b : Nat) : (raiseP s p b).lmx = s.lmx := rfl
@[simp] theorem raiseP_frmc (p b : Nat) : (raiseP s p b).frmc = s.frmc := rfl
@[simp] theorem raiseP_lch (p b : Nat) : (raiseP s p b).lch = s.lch := rfl
@[simp] theorem raiseP_rfxLoaded (p b : Nat) : (raiseP s p b).rfxLoaded = s.rfxLoaded := rfl
@[simp] theorem raiseP_rfxRun (p b : Nat) : (raiseP s p b).rfxRun = s.rfxRun := rfl
@[simp] theorem raiseP_rfxHist (p b : Nat) : (raiseP s p b).rfxHist = s.rfxHist := rfl
@[simp] theorem raiseP_holdAct (p b : Nat) : (raiseP s p b).holdAct = s.holdAct := rfl
@[simp] theorem raiseP_swiPins (p b : Nat) : (raiseP s p b).swiPins = s.swiPins := rfl
@[simp] theorem raiseP_swiDeb (p b : Nat) : (raiseP s p b).swiDeb = s.swiDeb := rfl
@[simp] theorem raiseP_swiClean (p b : Nat) : (raiseP s p b).swiClean = s.swiClean := rfl
@[simp] theorem raiseP_govLog (p b : Nat) : (raiseP s p b).govLog = s.govLog := rfl
@[simp] theorem raiseP_govShed (p b : Nat) : (raiseP s p b).govShed = s.govShed := rfl
@[simp] theorem raiseP_govSince (p b : Nat) : (raiseP s p b).govSince = s.govSince := rfl
@[simp] theorem raiseP_govPkgDie (p b : Nat) : (raiseP s p b).govPkgDie = s.govPkgDie := rfl
@[simp] theorem raiseP_tcmBad (p b : Nat) : (raiseP s p b).tcmBad = s.tcmBad := rfl
@[simp] theorem raiseP_dmaHeld (p b : Nat) : (raiseP s p b).dmaHeld = s.dmaHeld := rfl
@[simp] theorem raiseP_dmaSrc (p b : Nat) : (raiseP s p b).dmaSrc = s.dmaSrc := rfl
@[simp] theorem raiseP_dmaDst (p b : Nat) : (raiseP s p b).dmaDst = s.dmaDst := rfl
@[simp] theorem raiseP_dmaLeft (p b : Nat) : (raiseP s p b).dmaLeft = s.dmaLeft := rfl
@[simp] theorem raiseP_winBank (p b : Nat) : (raiseP s p b).winBank = s.winBank := rfl
@[simp] theorem raiseP_msqFifo (p b : Nat) : (raiseP s p b).msqFifo = s.msqFifo := rfl
@[simp] theorem raiseP_ans (p b : Nat) : (raiseP s p b).ans = s.ans := rfl
@[simp] theorem raiseP_pending (p b : Nat) : (raiseP s p b).pending = s.pending := rfl

/-! ### raiseDetail -/

@[simp] theorem raiseDetail_mode (id : Nat) (d : List Byte) : (raiseDetail s id d).mode = s.mode := rfl
@[simp] theorem raiseDetail_regs (id : Nat) (d : List Byte) : (raiseDetail s id d).regs = s.regs := rfl
@[simp] theorem raiseDetail_applied (id : Nat) (d : List Byte) : (raiseDetail s id d).applied = s.applied := rfl
@[simp] theorem raiseDetail_mem (id : Nat) (d : List Byte) : (raiseDetail s id d).mem = s.mem := rfl
@[simp] theorem raiseDetail_free (id : Nat) (d : List Byte) : (raiseDetail s id d).free = s.free := rfl
@[simp] theorem raiseDetail_dirty (id : Nat) (d : List Byte) : (raiseDetail s id d).dirty = s.dirty := rfl
@[simp] theorem raiseDetail_due (id : Nat) (d : List Byte) : (raiseDetail s id d).due = s.due ++ [⟨id, false, d⟩] := rfl
@[simp] theorem raiseDetail_crossed (id : Nat) (d : List Byte) : (raiseDetail s id d).crossed = s.crossed := rfl
@[simp] theorem raiseDetail_lineHeld (id : Nat) (d : List Byte) : (raiseDetail s id d).lineHeld = s.lineHeld := rfl
@[simp] theorem raiseDetail_pwrTick (id : Nat) (d : List Byte) : (raiseDetail s id d).pwrTick = s.pwrTick := rfl
@[simp] theorem raiseDetail_msDone (id : Nat) (d : List Byte) : (raiseDetail s id d).msDone = s.msDone := rfl
@[simp] theorem raiseDetail_anaDone (id : Nat) (d : List Byte) : (raiseDetail s id d).anaDone = s.anaDone := rfl
@[simp] theorem raiseDetail_flt (id : Nat) (d : List Byte) : (raiseDetail s id d).flt = s.flt := rfl
@[simp] theorem raiseDetail_park (id : Nat) (d : List Byte) : (raiseDetail s id d).park = s.park := rfl
@[simp] theorem raiseDetail_tbs (id : Nat) (d : List Byte) : (raiseDetail s id d).tbs = s.tbs := rfl
@[simp] theorem raiseDetail_tb (id : Nat) (d : List Byte) : (raiseDetail s id d).tb = s.tb := rfl
@[simp] theorem raiseDetail_ec (id : Nat) (d : List Byte) : (raiseDetail s id d).ec = s.ec := rfl
@[simp] theorem raiseDetail_jxr (id : Nat) (d : List Byte) : (raiseDetail s id d).jxr = s.jxr := rfl
@[simp] theorem raiseDetail_brg (id : Nat) (d : List Byte) : (raiseDetail s id d).brg = s.brg := rfl
@[simp] theorem raiseDetail_can (id : Nat) (d : List Byte) : (raiseDetail s id d).can = s.can := rfl
@[simp] theorem raiseDetail_lin (id : Nat) (d : List Byte) : (raiseDetail s id d).lin = s.lin := rfl
@[simp] theorem raiseDetail_nmg (id : Nat) (d : List Byte) : (raiseDetail s id d).nmg = s.nmg := rfl
@[simp] theorem raiseDetail_aonCopy (id : Nat) (d : List Byte) : (raiseDetail s id d).aonCopy = s.aonCopy := rfl
@[simp] theorem raiseDetail_aonCopyOk (id : Nat) (d : List Byte) : (raiseDetail s id d).aonCopyOk = s.aonCopyOk := rfl
@[simp] theorem raiseDetail_commits (id : Nat) (d : List Byte) : (raiseDetail s id d).commits = s.commits := rfl
@[simp] theorem raiseDetail_pendKind (id : Nat) (d : List Byte) : (raiseDetail s id d).pendKind = s.pendKind := rfl
@[simp] theorem raiseDetail_cmtClass (id : Nat) (d : List Byte) : (raiseDetail s id d).cmtClass = s.cmtClass := rfl
@[simp] theorem raiseDetail_pmuPend (id : Nat) (d : List Byte) : (raiseDetail s id d).pmuPend = s.pmuPend := rfl
@[simp] theorem raiseDetail_wk (id : Nat) (d : List Byte) : (raiseDetail s id d).wk = s.wk := rfl
@[simp] theorem raiseDetail_fuseRec (id : Nat) (d : List Byte) : (raiseDetail s id d).fuseRec = s.fuseRec := rfl
@[simp] theorem raiseDetail_committer (id : Nat) (d : List Byte) : (raiseDetail s id d).committer = s.committer := rfl
@[simp] theorem raiseDetail_hpt (id : Nat) (d : List Byte) : (raiseDetail s id d).hpt = s.hpt := rfl
@[simp] theorem raiseDetail_sbp (id : Nat) (d : List Byte) : (raiseDetail s id d).sbp = s.sbp := rfl
@[simp] theorem raiseDetail_imm (id : Nat) (d : List Byte) : (raiseDetail s id d).imm = s.imm := rfl
@[simp] theorem raiseDetail_vlt (id : Nat) (d : List Byte) : (raiseDetail s id d).vlt = s.vlt := rfl
@[simp] theorem raiseDetail_upd (id : Nat) (d : List Byte) : (raiseDetail s id d).upd = s.upd := rfl
@[simp] theorem raiseDetail_xsp (id : Nat) (d : List Byte) : (raiseDetail s id d).xsp = s.xsp := rfl
@[simp] theorem raiseDetail_jrn (id : Nat) (d : List Byte) : (raiseDetail s id d).jrn = s.jrn := rfl
@[simp] theorem raiseDetail_spr (id : Nat) (d : List Byte) : (raiseDetail s id d).spr = s.spr := rfl
@[simp] theorem raiseDetail_hsc (id : Nat) (d : List Byte) : (raiseDetail s id d).hsc = s.hsc := rfl
@[simp] theorem raiseDetail_hb (id : Nat) (d : List Byte) : (raiseDetail s id d).hb = s.hb := rfl
@[simp] theorem raiseDetail_sol (id : Nat) (d : List Byte) : (raiseDetail s id d).sol = s.sol := rfl
@[simp] theorem raiseDetail_sbk (id : Nat) (d : List Byte) : (raiseDetail s id d).sbk = s.sbk := rfl
@[simp] theorem raiseDetail_lst (id : Nat) (d : List Byte) : (raiseDetail s id d).lst = s.lst := rfl
@[simp] theorem raiseDetail_lmx (id : Nat) (d : List Byte) : (raiseDetail s id d).lmx = s.lmx := rfl
@[simp] theorem raiseDetail_frmc (id : Nat) (d : List Byte) : (raiseDetail s id d).frmc = s.frmc := rfl
@[simp] theorem raiseDetail_lch (id : Nat) (d : List Byte) : (raiseDetail s id d).lch = s.lch := rfl
@[simp] theorem raiseDetail_rfxLoaded (id : Nat) (d : List Byte) : (raiseDetail s id d).rfxLoaded = s.rfxLoaded := rfl
@[simp] theorem raiseDetail_rfxRun (id : Nat) (d : List Byte) : (raiseDetail s id d).rfxRun = s.rfxRun := rfl
@[simp] theorem raiseDetail_rfxHist (id : Nat) (d : List Byte) : (raiseDetail s id d).rfxHist = s.rfxHist := rfl
@[simp] theorem raiseDetail_holdAct (id : Nat) (d : List Byte) : (raiseDetail s id d).holdAct = s.holdAct := rfl
@[simp] theorem raiseDetail_swiPins (id : Nat) (d : List Byte) : (raiseDetail s id d).swiPins = s.swiPins := rfl
@[simp] theorem raiseDetail_swiDeb (id : Nat) (d : List Byte) : (raiseDetail s id d).swiDeb = s.swiDeb := rfl
@[simp] theorem raiseDetail_swiClean (id : Nat) (d : List Byte) : (raiseDetail s id d).swiClean = s.swiClean := rfl
@[simp] theorem raiseDetail_govLog (id : Nat) (d : List Byte) : (raiseDetail s id d).govLog = s.govLog := rfl
@[simp] theorem raiseDetail_govShed (id : Nat) (d : List Byte) : (raiseDetail s id d).govShed = s.govShed := rfl
@[simp] theorem raiseDetail_govSince (id : Nat) (d : List Byte) : (raiseDetail s id d).govSince = s.govSince := rfl
@[simp] theorem raiseDetail_govPkgDie (id : Nat) (d : List Byte) : (raiseDetail s id d).govPkgDie = s.govPkgDie := rfl
@[simp] theorem raiseDetail_tcmBad (id : Nat) (d : List Byte) : (raiseDetail s id d).tcmBad = s.tcmBad := rfl
@[simp] theorem raiseDetail_dmaHeld (id : Nat) (d : List Byte) : (raiseDetail s id d).dmaHeld = s.dmaHeld := rfl
@[simp] theorem raiseDetail_dmaSrc (id : Nat) (d : List Byte) : (raiseDetail s id d).dmaSrc = s.dmaSrc := rfl
@[simp] theorem raiseDetail_dmaDst (id : Nat) (d : List Byte) : (raiseDetail s id d).dmaDst = s.dmaDst := rfl
@[simp] theorem raiseDetail_dmaLeft (id : Nat) (d : List Byte) : (raiseDetail s id d).dmaLeft = s.dmaLeft := rfl
@[simp] theorem raiseDetail_winBank (id : Nat) (d : List Byte) : (raiseDetail s id d).winBank = s.winBank := rfl
@[simp] theorem raiseDetail_msqFifo (id : Nat) (d : List Byte) : (raiseDetail s id d).msqFifo = s.msqFifo := rfl
@[simp] theorem raiseDetail_ans (id : Nat) (d : List Byte) : (raiseDetail s id d).ans = s.ans := rfl
@[simp] theorem raiseDetail_pending (id : Nat) (d : List Byte) : (raiseDetail s id d).pending = s.pending := rfl

/-! ### releaseLevel -/

@[simp] theorem releaseLevel_mode (id : Nat) : (releaseLevel s id).mode = s.mode := rfl
@[simp] theorem releaseLevel_regs (id : Nat) : (releaseLevel s id).regs = s.regs := rfl
@[simp] theorem releaseLevel_applied (id : Nat) : (releaseLevel s id).applied = s.applied := rfl
@[simp] theorem releaseLevel_mem (id : Nat) : (releaseLevel s id).mem = s.mem := rfl
@[simp] theorem releaseLevel_free (id : Nat) : (releaseLevel s id).free = s.free := rfl
@[simp] theorem releaseLevel_dirty (id : Nat) : (releaseLevel s id).dirty = s.dirty := rfl
@[simp] theorem releaseLevel_due (id : Nat) : (releaseLevel s id).due = s.due := rfl
@[simp] theorem releaseLevel_crossed (id : Nat) : (releaseLevel s id).crossed = s.crossed := rfl
@[simp] theorem releaseLevel_lineHeld (id : Nat) : (releaseLevel s id).lineHeld = s.lineHeld := rfl
@[simp] theorem releaseLevel_pwrTick (id : Nat) : (releaseLevel s id).pwrTick = s.pwrTick := rfl
@[simp] theorem releaseLevel_msDone (id : Nat) : (releaseLevel s id).msDone = s.msDone := rfl
@[simp] theorem releaseLevel_anaDone (id : Nat) : (releaseLevel s id).anaDone = s.anaDone := rfl
@[simp] theorem releaseLevel_flt (id : Nat) : (releaseLevel s id).flt = { s.flt with level := s.flt.level.filter (· ≠ id) } := rfl
@[simp] theorem releaseLevel_park (id : Nat) : (releaseLevel s id).park = s.park := rfl
@[simp] theorem releaseLevel_tbs (id : Nat) : (releaseLevel s id).tbs = s.tbs := rfl
@[simp] theorem releaseLevel_tb (id : Nat) : (releaseLevel s id).tb = s.tb := rfl
@[simp] theorem releaseLevel_ec (id : Nat) : (releaseLevel s id).ec = s.ec := rfl
@[simp] theorem releaseLevel_jxr (id : Nat) : (releaseLevel s id).jxr = s.jxr := rfl
@[simp] theorem releaseLevel_brg (id : Nat) : (releaseLevel s id).brg = s.brg := rfl
@[simp] theorem releaseLevel_can (id : Nat) : (releaseLevel s id).can = s.can := rfl
@[simp] theorem releaseLevel_lin (id : Nat) : (releaseLevel s id).lin = s.lin := rfl
@[simp] theorem releaseLevel_nmg (id : Nat) : (releaseLevel s id).nmg = s.nmg := rfl
@[simp] theorem releaseLevel_aonCopy (id : Nat) : (releaseLevel s id).aonCopy = s.aonCopy := rfl
@[simp] theorem releaseLevel_aonCopyOk (id : Nat) : (releaseLevel s id).aonCopyOk = s.aonCopyOk := rfl
@[simp] theorem releaseLevel_commits (id : Nat) : (releaseLevel s id).commits = s.commits := rfl
@[simp] theorem releaseLevel_pendKind (id : Nat) : (releaseLevel s id).pendKind = s.pendKind := rfl
@[simp] theorem releaseLevel_cmtClass (id : Nat) : (releaseLevel s id).cmtClass = s.cmtClass := rfl
@[simp] theorem releaseLevel_pmuPend (id : Nat) : (releaseLevel s id).pmuPend = s.pmuPend := rfl
@[simp] theorem releaseLevel_wk (id : Nat) : (releaseLevel s id).wk = s.wk := rfl
@[simp] theorem releaseLevel_fuseRec (id : Nat) : (releaseLevel s id).fuseRec = s.fuseRec := rfl
@[simp] theorem releaseLevel_committer (id : Nat) : (releaseLevel s id).committer = s.committer := rfl
@[simp] theorem releaseLevel_hpt (id : Nat) : (releaseLevel s id).hpt = s.hpt := rfl
@[simp] theorem releaseLevel_sbp (id : Nat) : (releaseLevel s id).sbp = s.sbp := rfl
@[simp] theorem releaseLevel_imm (id : Nat) : (releaseLevel s id).imm = s.imm := rfl
@[simp] theorem releaseLevel_vlt (id : Nat) : (releaseLevel s id).vlt = s.vlt := rfl
@[simp] theorem releaseLevel_upd (id : Nat) : (releaseLevel s id).upd = s.upd := rfl
@[simp] theorem releaseLevel_xsp (id : Nat) : (releaseLevel s id).xsp = s.xsp := rfl
@[simp] theorem releaseLevel_jrn (id : Nat) : (releaseLevel s id).jrn = s.jrn := rfl
@[simp] theorem releaseLevel_spr (id : Nat) : (releaseLevel s id).spr = s.spr := rfl
@[simp] theorem releaseLevel_hsc (id : Nat) : (releaseLevel s id).hsc = s.hsc := rfl
@[simp] theorem releaseLevel_hb (id : Nat) : (releaseLevel s id).hb = s.hb := rfl
@[simp] theorem releaseLevel_sol (id : Nat) : (releaseLevel s id).sol = s.sol := rfl
@[simp] theorem releaseLevel_sbk (id : Nat) : (releaseLevel s id).sbk = s.sbk := rfl
@[simp] theorem releaseLevel_lst (id : Nat) : (releaseLevel s id).lst = s.lst := rfl
@[simp] theorem releaseLevel_lmx (id : Nat) : (releaseLevel s id).lmx = s.lmx := rfl
@[simp] theorem releaseLevel_frmc (id : Nat) : (releaseLevel s id).frmc = s.frmc := rfl
@[simp] theorem releaseLevel_lch (id : Nat) : (releaseLevel s id).lch = s.lch := rfl
@[simp] theorem releaseLevel_rfxLoaded (id : Nat) : (releaseLevel s id).rfxLoaded = s.rfxLoaded := rfl
@[simp] theorem releaseLevel_rfxRun (id : Nat) : (releaseLevel s id).rfxRun = s.rfxRun := rfl
@[simp] theorem releaseLevel_rfxHist (id : Nat) : (releaseLevel s id).rfxHist = s.rfxHist := rfl
@[simp] theorem releaseLevel_holdAct (id : Nat) : (releaseLevel s id).holdAct = s.holdAct := rfl
@[simp] theorem releaseLevel_swiPins (id : Nat) : (releaseLevel s id).swiPins = s.swiPins := rfl
@[simp] theorem releaseLevel_swiDeb (id : Nat) : (releaseLevel s id).swiDeb = s.swiDeb := rfl
@[simp] theorem releaseLevel_swiClean (id : Nat) : (releaseLevel s id).swiClean = s.swiClean := rfl
@[simp] theorem releaseLevel_govLog (id : Nat) : (releaseLevel s id).govLog = s.govLog := rfl
@[simp] theorem releaseLevel_govShed (id : Nat) : (releaseLevel s id).govShed = s.govShed := rfl
@[simp] theorem releaseLevel_govSince (id : Nat) : (releaseLevel s id).govSince = s.govSince := rfl
@[simp] theorem releaseLevel_govPkgDie (id : Nat) : (releaseLevel s id).govPkgDie = s.govPkgDie := rfl
@[simp] theorem releaseLevel_tcmBad (id : Nat) : (releaseLevel s id).tcmBad = s.tcmBad := rfl
@[simp] theorem releaseLevel_dmaHeld (id : Nat) : (releaseLevel s id).dmaHeld = s.dmaHeld := rfl
@[simp] theorem releaseLevel_dmaSrc (id : Nat) : (releaseLevel s id).dmaSrc = s.dmaSrc := rfl
@[simp] theorem releaseLevel_dmaDst (id : Nat) : (releaseLevel s id).dmaDst = s.dmaDst := rfl
@[simp] theorem releaseLevel_dmaLeft (id : Nat) : (releaseLevel s id).dmaLeft = s.dmaLeft := rfl
@[simp] theorem releaseLevel_winBank (id : Nat) : (releaseLevel s id).winBank = s.winBank := rfl
@[simp] theorem releaseLevel_msqFifo (id : Nat) : (releaseLevel s id).msqFifo = s.msqFifo := rfl
@[simp] theorem releaseLevel_ans (id : Nat) : (releaseLevel s id).ans = s.ans := rfl
@[simp] theorem releaseLevel_pending (id : Nat) : (releaseLevel s id).pending = s.pending := rfl

/-! ### hscSet -/

@[simp] theorem hscSet_mode (n : Nat) (c : HscSt) : (hscSet s n c).mode = s.mode := rfl
@[simp] theorem hscSet_regs (n : Nat) (c : HscSt) : (hscSet s n c).regs = s.regs := rfl
@[simp] theorem hscSet_applied (n : Nat) (c : HscSt) : (hscSet s n c).applied = s.applied := rfl
@[simp] theorem hscSet_mem (n : Nat) (c : HscSt) : (hscSet s n c).mem = s.mem := rfl
@[simp] theorem hscSet_free (n : Nat) (c : HscSt) : (hscSet s n c).free = s.free := rfl
@[simp] theorem hscSet_dirty (n : Nat) (c : HscSt) : (hscSet s n c).dirty = s.dirty := rfl
@[simp] theorem hscSet_due (n : Nat) (c : HscSt) : (hscSet s n c).due = s.due := rfl
@[simp] theorem hscSet_crossed (n : Nat) (c : HscSt) : (hscSet s n c).crossed = s.crossed := rfl
@[simp] theorem hscSet_lineHeld (n : Nat) (c : HscSt) : (hscSet s n c).lineHeld = s.lineHeld := rfl
@[simp] theorem hscSet_pwrTick (n : Nat) (c : HscSt) : (hscSet s n c).pwrTick = s.pwrTick := rfl
@[simp] theorem hscSet_msDone (n : Nat) (c : HscSt) : (hscSet s n c).msDone = s.msDone := rfl
@[simp] theorem hscSet_anaDone (n : Nat) (c : HscSt) : (hscSet s n c).anaDone = s.anaDone := rfl
@[simp] theorem hscSet_flt (n : Nat) (c : HscSt) : (hscSet s n c).flt = s.flt := rfl
@[simp] theorem hscSet_park (n : Nat) (c : HscSt) : (hscSet s n c).park = s.park := rfl
@[simp] theorem hscSet_tbs (n : Nat) (c : HscSt) : (hscSet s n c).tbs = s.tbs := rfl
@[simp] theorem hscSet_tb (n : Nat) (c : HscSt) : (hscSet s n c).tb = s.tb := rfl
@[simp] theorem hscSet_ec (n : Nat) (c : HscSt) : (hscSet s n c).ec = s.ec := rfl
@[simp] theorem hscSet_jxr (n : Nat) (c : HscSt) : (hscSet s n c).jxr = s.jxr := rfl
@[simp] theorem hscSet_brg (n : Nat) (c : HscSt) : (hscSet s n c).brg = s.brg := rfl
@[simp] theorem hscSet_can (n : Nat) (c : HscSt) : (hscSet s n c).can = s.can := rfl
@[simp] theorem hscSet_lin (n : Nat) (c : HscSt) : (hscSet s n c).lin = s.lin := rfl
@[simp] theorem hscSet_nmg (n : Nat) (c : HscSt) : (hscSet s n c).nmg = s.nmg := rfl
@[simp] theorem hscSet_aonCopy (n : Nat) (c : HscSt) : (hscSet s n c).aonCopy = s.aonCopy := rfl
@[simp] theorem hscSet_aonCopyOk (n : Nat) (c : HscSt) : (hscSet s n c).aonCopyOk = s.aonCopyOk := rfl
@[simp] theorem hscSet_commits (n : Nat) (c : HscSt) : (hscSet s n c).commits = s.commits := rfl
@[simp] theorem hscSet_pendKind (n : Nat) (c : HscSt) : (hscSet s n c).pendKind = s.pendKind := rfl
@[simp] theorem hscSet_cmtClass (n : Nat) (c : HscSt) : (hscSet s n c).cmtClass = s.cmtClass := rfl
@[simp] theorem hscSet_pmuPend (n : Nat) (c : HscSt) : (hscSet s n c).pmuPend = s.pmuPend := rfl
@[simp] theorem hscSet_wk (n : Nat) (c : HscSt) : (hscSet s n c).wk = s.wk := rfl
@[simp] theorem hscSet_fuseRec (n : Nat) (c : HscSt) : (hscSet s n c).fuseRec = s.fuseRec := rfl
@[simp] theorem hscSet_committer (n : Nat) (c : HscSt) : (hscSet s n c).committer = s.committer := rfl
@[simp] theorem hscSet_hpt (n : Nat) (c : HscSt) : (hscSet s n c).hpt = s.hpt := rfl
@[simp] theorem hscSet_sbp (n : Nat) (c : HscSt) : (hscSet s n c).sbp = s.sbp := rfl
@[simp] theorem hscSet_imm (n : Nat) (c : HscSt) : (hscSet s n c).imm = s.imm := rfl
@[simp] theorem hscSet_vlt (n : Nat) (c : HscSt) : (hscSet s n c).vlt = s.vlt := rfl
@[simp] theorem hscSet_upd (n : Nat) (c : HscSt) : (hscSet s n c).upd = s.upd := rfl
@[simp] theorem hscSet_xsp (n : Nat) (c : HscSt) : (hscSet s n c).xsp = s.xsp := rfl
@[simp] theorem hscSet_jrn (n : Nat) (c : HscSt) : (hscSet s n c).jrn = s.jrn := rfl
@[simp] theorem hscSet_spr (n : Nat) (c : HscSt) : (hscSet s n c).spr = s.spr := rfl
@[simp] theorem hscSet_hsc (n : Nat) (c : HscSt) : (hscSet s n c).hsc = storeSet (fun _ => HscSt.init) s.hsc n c := rfl
@[simp] theorem hscSet_hb (n : Nat) (c : HscSt) : (hscSet s n c).hb = s.hb := rfl
@[simp] theorem hscSet_sol (n : Nat) (c : HscSt) : (hscSet s n c).sol = s.sol := rfl
@[simp] theorem hscSet_sbk (n : Nat) (c : HscSt) : (hscSet s n c).sbk = s.sbk := rfl
@[simp] theorem hscSet_lst (n : Nat) (c : HscSt) : (hscSet s n c).lst = s.lst := rfl
@[simp] theorem hscSet_lmx (n : Nat) (c : HscSt) : (hscSet s n c).lmx = s.lmx := rfl
@[simp] theorem hscSet_frmc (n : Nat) (c : HscSt) : (hscSet s n c).frmc = s.frmc := rfl
@[simp] theorem hscSet_lch (n : Nat) (c : HscSt) : (hscSet s n c).lch = s.lch := rfl
@[simp] theorem hscSet_rfxLoaded (n : Nat) (c : HscSt) : (hscSet s n c).rfxLoaded = s.rfxLoaded := rfl
@[simp] theorem hscSet_rfxRun (n : Nat) (c : HscSt) : (hscSet s n c).rfxRun = s.rfxRun := rfl
@[simp] theorem hscSet_rfxHist (n : Nat) (c : HscSt) : (hscSet s n c).rfxHist = s.rfxHist := rfl
@[simp] theorem hscSet_holdAct (n : Nat) (c : HscSt) : (hscSet s n c).holdAct = s.holdAct := rfl
@[simp] theorem hscSet_swiPins (n : Nat) (c : HscSt) : (hscSet s n c).swiPins = s.swiPins := rfl
@[simp] theorem hscSet_swiDeb (n : Nat) (c : HscSt) : (hscSet s n c).swiDeb = s.swiDeb := rfl
@[simp] theorem hscSet_swiClean (n : Nat) (c : HscSt) : (hscSet s n c).swiClean = s.swiClean := rfl
@[simp] theorem hscSet_govLog (n : Nat) (c : HscSt) : (hscSet s n c).govLog = s.govLog := rfl
@[simp] theorem hscSet_govShed (n : Nat) (c : HscSt) : (hscSet s n c).govShed = s.govShed := rfl
@[simp] theorem hscSet_govSince (n : Nat) (c : HscSt) : (hscSet s n c).govSince = s.govSince := rfl
@[simp] theorem hscSet_govPkgDie (n : Nat) (c : HscSt) : (hscSet s n c).govPkgDie = s.govPkgDie := rfl
@[simp] theorem hscSet_tcmBad (n : Nat) (c : HscSt) : (hscSet s n c).tcmBad = s.tcmBad := rfl
@[simp] theorem hscSet_dmaHeld (n : Nat) (c : HscSt) : (hscSet s n c).dmaHeld = s.dmaHeld := rfl
@[simp] theorem hscSet_dmaSrc (n : Nat) (c : HscSt) : (hscSet s n c).dmaSrc = s.dmaSrc := rfl
@[simp] theorem hscSet_dmaDst (n : Nat) (c : HscSt) : (hscSet s n c).dmaDst = s.dmaDst := rfl
@[simp] theorem hscSet_dmaLeft (n : Nat) (c : HscSt) : (hscSet s n c).dmaLeft = s.dmaLeft := rfl
@[simp] theorem hscSet_winBank (n : Nat) (c : HscSt) : (hscSet s n c).winBank = s.winBank := rfl
@[simp] theorem hscSet_msqFifo (n : Nat) (c : HscSt) : (hscSet s n c).msqFifo = s.msqFifo := rfl
@[simp] theorem hscSet_ans (n : Nat) (c : HscSt) : (hscSet s n c).ans = s.ans := rfl
@[simp] theorem hscSet_pending (n : Nat) (c : HscSt) : (hscSet s n c).pending = s.pending := rfl

/-! ### hbSet -/

@[simp] theorem hbSet_mode (n : Nat) (c : HbSt) : (hbSet s n c).mode = s.mode := rfl
@[simp] theorem hbSet_regs (n : Nat) (c : HbSt) : (hbSet s n c).regs = s.regs := rfl
@[simp] theorem hbSet_applied (n : Nat) (c : HbSt) : (hbSet s n c).applied = s.applied := rfl
@[simp] theorem hbSet_mem (n : Nat) (c : HbSt) : (hbSet s n c).mem = s.mem := rfl
@[simp] theorem hbSet_free (n : Nat) (c : HbSt) : (hbSet s n c).free = s.free := rfl
@[simp] theorem hbSet_dirty (n : Nat) (c : HbSt) : (hbSet s n c).dirty = s.dirty := rfl
@[simp] theorem hbSet_due (n : Nat) (c : HbSt) : (hbSet s n c).due = s.due := rfl
@[simp] theorem hbSet_crossed (n : Nat) (c : HbSt) : (hbSet s n c).crossed = s.crossed := rfl
@[simp] theorem hbSet_lineHeld (n : Nat) (c : HbSt) : (hbSet s n c).lineHeld = s.lineHeld := rfl
@[simp] theorem hbSet_pwrTick (n : Nat) (c : HbSt) : (hbSet s n c).pwrTick = s.pwrTick := rfl
@[simp] theorem hbSet_msDone (n : Nat) (c : HbSt) : (hbSet s n c).msDone = s.msDone := rfl
@[simp] theorem hbSet_anaDone (n : Nat) (c : HbSt) : (hbSet s n c).anaDone = s.anaDone := rfl
@[simp] theorem hbSet_flt (n : Nat) (c : HbSt) : (hbSet s n c).flt = s.flt := rfl
@[simp] theorem hbSet_park (n : Nat) (c : HbSt) : (hbSet s n c).park = s.park := rfl
@[simp] theorem hbSet_tbs (n : Nat) (c : HbSt) : (hbSet s n c).tbs = s.tbs := rfl
@[simp] theorem hbSet_tb (n : Nat) (c : HbSt) : (hbSet s n c).tb = s.tb := rfl
@[simp] theorem hbSet_ec (n : Nat) (c : HbSt) : (hbSet s n c).ec = s.ec := rfl
@[simp] theorem hbSet_jxr (n : Nat) (c : HbSt) : (hbSet s n c).jxr = s.jxr := rfl
@[simp] theorem hbSet_brg (n : Nat) (c : HbSt) : (hbSet s n c).brg = s.brg := rfl
@[simp] theorem hbSet_can (n : Nat) (c : HbSt) : (hbSet s n c).can = s.can := rfl
@[simp] theorem hbSet_lin (n : Nat) (c : HbSt) : (hbSet s n c).lin = s.lin := rfl
@[simp] theorem hbSet_nmg (n : Nat) (c : HbSt) : (hbSet s n c).nmg = s.nmg := rfl
@[simp] theorem hbSet_aonCopy (n : Nat) (c : HbSt) : (hbSet s n c).aonCopy = s.aonCopy := rfl
@[simp] theorem hbSet_aonCopyOk (n : Nat) (c : HbSt) : (hbSet s n c).aonCopyOk = s.aonCopyOk := rfl
@[simp] theorem hbSet_commits (n : Nat) (c : HbSt) : (hbSet s n c).commits = s.commits := rfl
@[simp] theorem hbSet_pendKind (n : Nat) (c : HbSt) : (hbSet s n c).pendKind = s.pendKind := rfl
@[simp] theorem hbSet_cmtClass (n : Nat) (c : HbSt) : (hbSet s n c).cmtClass = s.cmtClass := rfl
@[simp] theorem hbSet_pmuPend (n : Nat) (c : HbSt) : (hbSet s n c).pmuPend = s.pmuPend := rfl
@[simp] theorem hbSet_wk (n : Nat) (c : HbSt) : (hbSet s n c).wk = s.wk := rfl
@[simp] theorem hbSet_fuseRec (n : Nat) (c : HbSt) : (hbSet s n c).fuseRec = s.fuseRec := rfl
@[simp] theorem hbSet_committer (n : Nat) (c : HbSt) : (hbSet s n c).committer = s.committer := rfl
@[simp] theorem hbSet_hpt (n : Nat) (c : HbSt) : (hbSet s n c).hpt = s.hpt := rfl
@[simp] theorem hbSet_sbp (n : Nat) (c : HbSt) : (hbSet s n c).sbp = s.sbp := rfl
@[simp] theorem hbSet_imm (n : Nat) (c : HbSt) : (hbSet s n c).imm = s.imm := rfl
@[simp] theorem hbSet_vlt (n : Nat) (c : HbSt) : (hbSet s n c).vlt = s.vlt := rfl
@[simp] theorem hbSet_upd (n : Nat) (c : HbSt) : (hbSet s n c).upd = s.upd := rfl
@[simp] theorem hbSet_xsp (n : Nat) (c : HbSt) : (hbSet s n c).xsp = s.xsp := rfl
@[simp] theorem hbSet_jrn (n : Nat) (c : HbSt) : (hbSet s n c).jrn = s.jrn := rfl
@[simp] theorem hbSet_spr (n : Nat) (c : HbSt) : (hbSet s n c).spr = s.spr := rfl
@[simp] theorem hbSet_hsc (n : Nat) (c : HbSt) : (hbSet s n c).hsc = s.hsc := rfl
@[simp] theorem hbSet_hb (n : Nat) (c : HbSt) : (hbSet s n c).hb = storeSet (fun _ => HbSt.init) s.hb n c := rfl
@[simp] theorem hbSet_sol (n : Nat) (c : HbSt) : (hbSet s n c).sol = s.sol := rfl
@[simp] theorem hbSet_sbk (n : Nat) (c : HbSt) : (hbSet s n c).sbk = s.sbk := rfl
@[simp] theorem hbSet_lst (n : Nat) (c : HbSt) : (hbSet s n c).lst = s.lst := rfl
@[simp] theorem hbSet_lmx (n : Nat) (c : HbSt) : (hbSet s n c).lmx = s.lmx := rfl
@[simp] theorem hbSet_frmc (n : Nat) (c : HbSt) : (hbSet s n c).frmc = s.frmc := rfl
@[simp] theorem hbSet_lch (n : Nat) (c : HbSt) : (hbSet s n c).lch = s.lch := rfl
@[simp] theorem hbSet_rfxLoaded (n : Nat) (c : HbSt) : (hbSet s n c).rfxLoaded = s.rfxLoaded := rfl
@[simp] theorem hbSet_rfxRun (n : Nat) (c : HbSt) : (hbSet s n c).rfxRun = s.rfxRun := rfl
@[simp] theorem hbSet_rfxHist (n : Nat) (c : HbSt) : (hbSet s n c).rfxHist = s.rfxHist := rfl
@[simp] theorem hbSet_holdAct (n : Nat) (c : HbSt) : (hbSet s n c).holdAct = s.holdAct := rfl
@[simp] theorem hbSet_swiPins (n : Nat) (c : HbSt) : (hbSet s n c).swiPins = s.swiPins := rfl
@[simp] theorem hbSet_swiDeb (n : Nat) (c : HbSt) : (hbSet s n c).swiDeb = s.swiDeb := rfl
@[simp] theorem hbSet_swiClean (n : Nat) (c : HbSt) : (hbSet s n c).swiClean = s.swiClean := rfl
@[simp] theorem hbSet_govLog (n : Nat) (c : HbSt) : (hbSet s n c).govLog = s.govLog := rfl
@[simp] theorem hbSet_govShed (n : Nat) (c : HbSt) : (hbSet s n c).govShed = s.govShed := rfl
@[simp] theorem hbSet_govSince (n : Nat) (c : HbSt) : (hbSet s n c).govSince = s.govSince := rfl
@[simp] theorem hbSet_govPkgDie (n : Nat) (c : HbSt) : (hbSet s n c).govPkgDie = s.govPkgDie := rfl
@[simp] theorem hbSet_tcmBad (n : Nat) (c : HbSt) : (hbSet s n c).tcmBad = s.tcmBad := rfl
@[simp] theorem hbSet_dmaHeld (n : Nat) (c : HbSt) : (hbSet s n c).dmaHeld = s.dmaHeld := rfl
@[simp] theorem hbSet_dmaSrc (n : Nat) (c : HbSt) : (hbSet s n c).dmaSrc = s.dmaSrc := rfl
@[simp] theorem hbSet_dmaDst (n : Nat) (c : HbSt) : (hbSet s n c).dmaDst = s.dmaDst := rfl
@[simp] theorem hbSet_dmaLeft (n : Nat) (c : HbSt) : (hbSet s n c).dmaLeft = s.dmaLeft := rfl
@[simp] theorem hbSet_winBank (n : Nat) (c : HbSt) : (hbSet s n c).winBank = s.winBank := rfl
@[simp] theorem hbSet_msqFifo (n : Nat) (c : HbSt) : (hbSet s n c).msqFifo = s.msqFifo := rfl
@[simp] theorem hbSet_ans (n : Nat) (c : HbSt) : (hbSet s n c).ans = s.ans := rfl
@[simp] theorem hbSet_pending (n : Nat) (c : HbSt) : (hbSet s n c).pending = s.pending := rfl

/-! ### solSet -/

@[simp] theorem solSet_mode (n : Nat) (c : SolSt) : (solSet s n c).mode = s.mode := rfl
@[simp] theorem solSet_regs (n : Nat) (c : SolSt) : (solSet s n c).regs = s.regs := rfl
@[simp] theorem solSet_applied (n : Nat) (c : SolSt) : (solSet s n c).applied = s.applied := rfl
@[simp] theorem solSet_mem (n : Nat) (c : SolSt) : (solSet s n c).mem = s.mem := rfl
@[simp] theorem solSet_free (n : Nat) (c : SolSt) : (solSet s n c).free = s.free := rfl
@[simp] theorem solSet_dirty (n : Nat) (c : SolSt) : (solSet s n c).dirty = s.dirty := rfl
@[simp] theorem solSet_due (n : Nat) (c : SolSt) : (solSet s n c).due = s.due := rfl
@[simp] theorem solSet_crossed (n : Nat) (c : SolSt) : (solSet s n c).crossed = s.crossed := rfl
@[simp] theorem solSet_lineHeld (n : Nat) (c : SolSt) : (solSet s n c).lineHeld = s.lineHeld := rfl
@[simp] theorem solSet_pwrTick (n : Nat) (c : SolSt) : (solSet s n c).pwrTick = s.pwrTick := rfl
@[simp] theorem solSet_msDone (n : Nat) (c : SolSt) : (solSet s n c).msDone = s.msDone := rfl
@[simp] theorem solSet_anaDone (n : Nat) (c : SolSt) : (solSet s n c).anaDone = s.anaDone := rfl
@[simp] theorem solSet_flt (n : Nat) (c : SolSt) : (solSet s n c).flt = s.flt := rfl
@[simp] theorem solSet_park (n : Nat) (c : SolSt) : (solSet s n c).park = s.park := rfl
@[simp] theorem solSet_tbs (n : Nat) (c : SolSt) : (solSet s n c).tbs = s.tbs := rfl
@[simp] theorem solSet_tb (n : Nat) (c : SolSt) : (solSet s n c).tb = s.tb := rfl
@[simp] theorem solSet_ec (n : Nat) (c : SolSt) : (solSet s n c).ec = s.ec := rfl
@[simp] theorem solSet_jxr (n : Nat) (c : SolSt) : (solSet s n c).jxr = s.jxr := rfl
@[simp] theorem solSet_brg (n : Nat) (c : SolSt) : (solSet s n c).brg = s.brg := rfl
@[simp] theorem solSet_can (n : Nat) (c : SolSt) : (solSet s n c).can = s.can := rfl
@[simp] theorem solSet_lin (n : Nat) (c : SolSt) : (solSet s n c).lin = s.lin := rfl
@[simp] theorem solSet_nmg (n : Nat) (c : SolSt) : (solSet s n c).nmg = s.nmg := rfl
@[simp] theorem solSet_aonCopy (n : Nat) (c : SolSt) : (solSet s n c).aonCopy = s.aonCopy := rfl
@[simp] theorem solSet_aonCopyOk (n : Nat) (c : SolSt) : (solSet s n c).aonCopyOk = s.aonCopyOk := rfl
@[simp] theorem solSet_commits (n : Nat) (c : SolSt) : (solSet s n c).commits = s.commits := rfl
@[simp] theorem solSet_pendKind (n : Nat) (c : SolSt) : (solSet s n c).pendKind = s.pendKind := rfl
@[simp] theorem solSet_cmtClass (n : Nat) (c : SolSt) : (solSet s n c).cmtClass = s.cmtClass := rfl
@[simp] theorem solSet_pmuPend (n : Nat) (c : SolSt) : (solSet s n c).pmuPend = s.pmuPend := rfl
@[simp] theorem solSet_wk (n : Nat) (c : SolSt) : (solSet s n c).wk = s.wk := rfl
@[simp] theorem solSet_fuseRec (n : Nat) (c : SolSt) : (solSet s n c).fuseRec = s.fuseRec := rfl
@[simp] theorem solSet_committer (n : Nat) (c : SolSt) : (solSet s n c).committer = s.committer := rfl
@[simp] theorem solSet_hpt (n : Nat) (c : SolSt) : (solSet s n c).hpt = s.hpt := rfl
@[simp] theorem solSet_sbp (n : Nat) (c : SolSt) : (solSet s n c).sbp = s.sbp := rfl
@[simp] theorem solSet_imm (n : Nat) (c : SolSt) : (solSet s n c).imm = s.imm := rfl
@[simp] theorem solSet_vlt (n : Nat) (c : SolSt) : (solSet s n c).vlt = s.vlt := rfl
@[simp] theorem solSet_upd (n : Nat) (c : SolSt) : (solSet s n c).upd = s.upd := rfl
@[simp] theorem solSet_xsp (n : Nat) (c : SolSt) : (solSet s n c).xsp = s.xsp := rfl
@[simp] theorem solSet_jrn (n : Nat) (c : SolSt) : (solSet s n c).jrn = s.jrn := rfl
@[simp] theorem solSet_spr (n : Nat) (c : SolSt) : (solSet s n c).spr = s.spr := rfl
@[simp] theorem solSet_hsc (n : Nat) (c : SolSt) : (solSet s n c).hsc = s.hsc := rfl
@[simp] theorem solSet_hb (n : Nat) (c : SolSt) : (solSet s n c).hb = s.hb := rfl
@[simp] theorem solSet_sol (n : Nat) (c : SolSt) : (solSet s n c).sol = storeSet (fun _ => SolSt.init) s.sol n c := rfl
@[simp] theorem solSet_sbk (n : Nat) (c : SolSt) : (solSet s n c).sbk = s.sbk := rfl
@[simp] theorem solSet_lst (n : Nat) (c : SolSt) : (solSet s n c).lst = s.lst := rfl
@[simp] theorem solSet_lmx (n : Nat) (c : SolSt) : (solSet s n c).lmx = s.lmx := rfl
@[simp] theorem solSet_frmc (n : Nat) (c : SolSt) : (solSet s n c).frmc = s.frmc := rfl
@[simp] theorem solSet_lch (n : Nat) (c : SolSt) : (solSet s n c).lch = s.lch := rfl
@[simp] theorem solSet_rfxLoaded (n : Nat) (c : SolSt) : (solSet s n c).rfxLoaded = s.rfxLoaded := rfl
@[simp] theorem solSet_rfxRun (n : Nat) (c : SolSt) : (solSet s n c).rfxRun = s.rfxRun := rfl
@[simp] theorem solSet_rfxHist (n : Nat) (c : SolSt) : (solSet s n c).rfxHist = s.rfxHist := rfl
@[simp] theorem solSet_holdAct (n : Nat) (c : SolSt) : (solSet s n c).holdAct = s.holdAct := rfl
@[simp] theorem solSet_swiPins (n : Nat) (c : SolSt) : (solSet s n c).swiPins = s.swiPins := rfl
@[simp] theorem solSet_swiDeb (n : Nat) (c : SolSt) : (solSet s n c).swiDeb = s.swiDeb := rfl
@[simp] theorem solSet_swiClean (n : Nat) (c : SolSt) : (solSet s n c).swiClean = s.swiClean := rfl
@[simp] theorem solSet_govLog (n : Nat) (c : SolSt) : (solSet s n c).govLog = s.govLog := rfl
@[simp] theorem solSet_govShed (n : Nat) (c : SolSt) : (solSet s n c).govShed = s.govShed := rfl
@[simp] theorem solSet_govSince (n : Nat) (c : SolSt) : (solSet s n c).govSince = s.govSince := rfl
@[simp] theorem solSet_govPkgDie (n : Nat) (c : SolSt) : (solSet s n c).govPkgDie = s.govPkgDie := rfl
@[simp] theorem solSet_tcmBad (n : Nat) (c : SolSt) : (solSet s n c).tcmBad = s.tcmBad := rfl
@[simp] theorem solSet_dmaHeld (n : Nat) (c : SolSt) : (solSet s n c).dmaHeld = s.dmaHeld := rfl
@[simp] theorem solSet_dmaSrc (n : Nat) (c : SolSt) : (solSet s n c).dmaSrc = s.dmaSrc := rfl
@[simp] theorem solSet_dmaDst (n : Nat) (c : SolSt) : (solSet s n c).dmaDst = s.dmaDst := rfl
@[simp] theorem solSet_dmaLeft (n : Nat) (c : SolSt) : (solSet s n c).dmaLeft = s.dmaLeft := rfl
@[simp] theorem solSet_winBank (n : Nat) (c : SolSt) : (solSet s n c).winBank = s.winBank := rfl
@[simp] theorem solSet_msqFifo (n : Nat) (c : SolSt) : (solSet s n c).msqFifo = s.msqFifo := rfl
@[simp] theorem solSet_ans (n : Nat) (c : SolSt) : (solSet s n c).ans = s.ans := rfl
@[simp] theorem solSet_pending (n : Nat) (c : SolSt) : (solSet s n c).pending = s.pending := rfl

/-! ### lstSet -/

@[simp] theorem lstSet_mode (n : Nat) (c : LstSt) : (lstSet s n c).mode = s.mode := rfl
@[simp] theorem lstSet_regs (n : Nat) (c : LstSt) : (lstSet s n c).regs = s.regs := rfl
@[simp] theorem lstSet_applied (n : Nat) (c : LstSt) : (lstSet s n c).applied = s.applied := rfl
@[simp] theorem lstSet_mem (n : Nat) (c : LstSt) : (lstSet s n c).mem = s.mem := rfl
@[simp] theorem lstSet_free (n : Nat) (c : LstSt) : (lstSet s n c).free = s.free := rfl
@[simp] theorem lstSet_dirty (n : Nat) (c : LstSt) : (lstSet s n c).dirty = s.dirty := rfl
@[simp] theorem lstSet_due (n : Nat) (c : LstSt) : (lstSet s n c).due = s.due := rfl
@[simp] theorem lstSet_crossed (n : Nat) (c : LstSt) : (lstSet s n c).crossed = s.crossed := rfl
@[simp] theorem lstSet_lineHeld (n : Nat) (c : LstSt) : (lstSet s n c).lineHeld = s.lineHeld := rfl
@[simp] theorem lstSet_pwrTick (n : Nat) (c : LstSt) : (lstSet s n c).pwrTick = s.pwrTick := rfl
@[simp] theorem lstSet_msDone (n : Nat) (c : LstSt) : (lstSet s n c).msDone = s.msDone := rfl
@[simp] theorem lstSet_anaDone (n : Nat) (c : LstSt) : (lstSet s n c).anaDone = s.anaDone := rfl
@[simp] theorem lstSet_flt (n : Nat) (c : LstSt) : (lstSet s n c).flt = s.flt := rfl
@[simp] theorem lstSet_park (n : Nat) (c : LstSt) : (lstSet s n c).park = s.park := rfl
@[simp] theorem lstSet_tbs (n : Nat) (c : LstSt) : (lstSet s n c).tbs = s.tbs := rfl
@[simp] theorem lstSet_tb (n : Nat) (c : LstSt) : (lstSet s n c).tb = s.tb := rfl
@[simp] theorem lstSet_ec (n : Nat) (c : LstSt) : (lstSet s n c).ec = s.ec := rfl
@[simp] theorem lstSet_jxr (n : Nat) (c : LstSt) : (lstSet s n c).jxr = s.jxr := rfl
@[simp] theorem lstSet_brg (n : Nat) (c : LstSt) : (lstSet s n c).brg = s.brg := rfl
@[simp] theorem lstSet_can (n : Nat) (c : LstSt) : (lstSet s n c).can = s.can := rfl
@[simp] theorem lstSet_lin (n : Nat) (c : LstSt) : (lstSet s n c).lin = s.lin := rfl
@[simp] theorem lstSet_nmg (n : Nat) (c : LstSt) : (lstSet s n c).nmg = s.nmg := rfl
@[simp] theorem lstSet_aonCopy (n : Nat) (c : LstSt) : (lstSet s n c).aonCopy = s.aonCopy := rfl
@[simp] theorem lstSet_aonCopyOk (n : Nat) (c : LstSt) : (lstSet s n c).aonCopyOk = s.aonCopyOk := rfl
@[simp] theorem lstSet_commits (n : Nat) (c : LstSt) : (lstSet s n c).commits = s.commits := rfl
@[simp] theorem lstSet_pendKind (n : Nat) (c : LstSt) : (lstSet s n c).pendKind = s.pendKind := rfl
@[simp] theorem lstSet_cmtClass (n : Nat) (c : LstSt) : (lstSet s n c).cmtClass = s.cmtClass := rfl
@[simp] theorem lstSet_pmuPend (n : Nat) (c : LstSt) : (lstSet s n c).pmuPend = s.pmuPend := rfl
@[simp] theorem lstSet_wk (n : Nat) (c : LstSt) : (lstSet s n c).wk = s.wk := rfl
@[simp] theorem lstSet_fuseRec (n : Nat) (c : LstSt) : (lstSet s n c).fuseRec = s.fuseRec := rfl
@[simp] theorem lstSet_committer (n : Nat) (c : LstSt) : (lstSet s n c).committer = s.committer := rfl
@[simp] theorem lstSet_hpt (n : Nat) (c : LstSt) : (lstSet s n c).hpt = s.hpt := rfl
@[simp] theorem lstSet_sbp (n : Nat) (c : LstSt) : (lstSet s n c).sbp = s.sbp := rfl
@[simp] theorem lstSet_imm (n : Nat) (c : LstSt) : (lstSet s n c).imm = s.imm := rfl
@[simp] theorem lstSet_vlt (n : Nat) (c : LstSt) : (lstSet s n c).vlt = s.vlt := rfl
@[simp] theorem lstSet_upd (n : Nat) (c : LstSt) : (lstSet s n c).upd = s.upd := rfl
@[simp] theorem lstSet_xsp (n : Nat) (c : LstSt) : (lstSet s n c).xsp = s.xsp := rfl
@[simp] theorem lstSet_jrn (n : Nat) (c : LstSt) : (lstSet s n c).jrn = s.jrn := rfl
@[simp] theorem lstSet_spr (n : Nat) (c : LstSt) : (lstSet s n c).spr = s.spr := rfl
@[simp] theorem lstSet_hsc (n : Nat) (c : LstSt) : (lstSet s n c).hsc = s.hsc := rfl
@[simp] theorem lstSet_hb (n : Nat) (c : LstSt) : (lstSet s n c).hb = s.hb := rfl
@[simp] theorem lstSet_sol (n : Nat) (c : LstSt) : (lstSet s n c).sol = s.sol := rfl
@[simp] theorem lstSet_sbk (n : Nat) (c : LstSt) : (lstSet s n c).sbk = s.sbk := rfl
@[simp] theorem lstSet_lst (n : Nat) (c : LstSt) : (lstSet s n c).lst = storeSet (fun _ => LstSt.init) s.lst n c := rfl
@[simp] theorem lstSet_lmx (n : Nat) (c : LstSt) : (lstSet s n c).lmx = s.lmx := rfl
@[simp] theorem lstSet_frmc (n : Nat) (c : LstSt) : (lstSet s n c).frmc = s.frmc := rfl
@[simp] theorem lstSet_lch (n : Nat) (c : LstSt) : (lstSet s n c).lch = s.lch := rfl
@[simp] theorem lstSet_rfxLoaded (n : Nat) (c : LstSt) : (lstSet s n c).rfxLoaded = s.rfxLoaded := rfl
@[simp] theorem lstSet_rfxRun (n : Nat) (c : LstSt) : (lstSet s n c).rfxRun = s.rfxRun := rfl
@[simp] theorem lstSet_rfxHist (n : Nat) (c : LstSt) : (lstSet s n c).rfxHist = s.rfxHist := rfl
@[simp] theorem lstSet_holdAct (n : Nat) (c : LstSt) : (lstSet s n c).holdAct = s.holdAct := rfl
@[simp] theorem lstSet_swiPins (n : Nat) (c : LstSt) : (lstSet s n c).swiPins = s.swiPins := rfl
@[simp] theorem lstSet_swiDeb (n : Nat) (c : LstSt) : (lstSet s n c).swiDeb = s.swiDeb := rfl
@[simp] theorem lstSet_swiClean (n : Nat) (c : LstSt) : (lstSet s n c).swiClean = s.swiClean := rfl
@[simp] theorem lstSet_govLog (n : Nat) (c : LstSt) : (lstSet s n c).govLog = s.govLog := rfl
@[simp] theorem lstSet_govShed (n : Nat) (c : LstSt) : (lstSet s n c).govShed = s.govShed := rfl
@[simp] theorem lstSet_govSince (n : Nat) (c : LstSt) : (lstSet s n c).govSince = s.govSince := rfl
@[simp] theorem lstSet_govPkgDie (n : Nat) (c : LstSt) : (lstSet s n c).govPkgDie = s.govPkgDie := rfl
@[simp] theorem lstSet_tcmBad (n : Nat) (c : LstSt) : (lstSet s n c).tcmBad = s.tcmBad := rfl
@[simp] theorem lstSet_dmaHeld (n : Nat) (c : LstSt) : (lstSet s n c).dmaHeld = s.dmaHeld := rfl
@[simp] theorem lstSet_dmaSrc (n : Nat) (c : LstSt) : (lstSet s n c).dmaSrc = s.dmaSrc := rfl
@[simp] theorem lstSet_dmaDst (n : Nat) (c : LstSt) : (lstSet s n c).dmaDst = s.dmaDst := rfl
@[simp] theorem lstSet_dmaLeft (n : Nat) (c : LstSt) : (lstSet s n c).dmaLeft = s.dmaLeft := rfl
@[simp] theorem lstSet_winBank (n : Nat) (c : LstSt) : (lstSet s n c).winBank = s.winBank := rfl
@[simp] theorem lstSet_msqFifo (n : Nat) (c : LstSt) : (lstSet s n c).msqFifo = s.msqFifo := rfl
@[simp] theorem lstSet_ans (n : Nat) (c : LstSt) : (lstSet s n c).ans = s.ans := rfl
@[simp] theorem lstSet_pending (n : Nat) (c : LstSt) : (lstSet s n c).pending = s.pending := rfl

/-! ### lchSet -/

@[simp] theorem lchSet_mode (n : Nat) (c : LchSt) : (lchSet s n c).mode = s.mode := rfl
@[simp] theorem lchSet_regs (n : Nat) (c : LchSt) : (lchSet s n c).regs = s.regs := rfl
@[simp] theorem lchSet_applied (n : Nat) (c : LchSt) : (lchSet s n c).applied = s.applied := rfl
@[simp] theorem lchSet_mem (n : Nat) (c : LchSt) : (lchSet s n c).mem = s.mem := rfl
@[simp] theorem lchSet_free (n : Nat) (c : LchSt) : (lchSet s n c).free = s.free := rfl
@[simp] theorem lchSet_dirty (n : Nat) (c : LchSt) : (lchSet s n c).dirty = s.dirty := rfl
@[simp] theorem lchSet_due (n : Nat) (c : LchSt) : (lchSet s n c).due = s.due := rfl
@[simp] theorem lchSet_crossed (n : Nat) (c : LchSt) : (lchSet s n c).crossed = s.crossed := rfl
@[simp] theorem lchSet_lineHeld (n : Nat) (c : LchSt) : (lchSet s n c).lineHeld = s.lineHeld := rfl
@[simp] theorem lchSet_pwrTick (n : Nat) (c : LchSt) : (lchSet s n c).pwrTick = s.pwrTick := rfl
@[simp] theorem lchSet_msDone (n : Nat) (c : LchSt) : (lchSet s n c).msDone = s.msDone := rfl
@[simp] theorem lchSet_anaDone (n : Nat) (c : LchSt) : (lchSet s n c).anaDone = s.anaDone := rfl
@[simp] theorem lchSet_flt (n : Nat) (c : LchSt) : (lchSet s n c).flt = s.flt := rfl
@[simp] theorem lchSet_park (n : Nat) (c : LchSt) : (lchSet s n c).park = s.park := rfl
@[simp] theorem lchSet_tbs (n : Nat) (c : LchSt) : (lchSet s n c).tbs = s.tbs := rfl
@[simp] theorem lchSet_tb (n : Nat) (c : LchSt) : (lchSet s n c).tb = s.tb := rfl
@[simp] theorem lchSet_ec (n : Nat) (c : LchSt) : (lchSet s n c).ec = s.ec := rfl
@[simp] theorem lchSet_jxr (n : Nat) (c : LchSt) : (lchSet s n c).jxr = s.jxr := rfl
@[simp] theorem lchSet_brg (n : Nat) (c : LchSt) : (lchSet s n c).brg = s.brg := rfl
@[simp] theorem lchSet_can (n : Nat) (c : LchSt) : (lchSet s n c).can = s.can := rfl
@[simp] theorem lchSet_lin (n : Nat) (c : LchSt) : (lchSet s n c).lin = s.lin := rfl
@[simp] theorem lchSet_nmg (n : Nat) (c : LchSt) : (lchSet s n c).nmg = s.nmg := rfl
@[simp] theorem lchSet_aonCopy (n : Nat) (c : LchSt) : (lchSet s n c).aonCopy = s.aonCopy := rfl
@[simp] theorem lchSet_aonCopyOk (n : Nat) (c : LchSt) : (lchSet s n c).aonCopyOk = s.aonCopyOk := rfl
@[simp] theorem lchSet_commits (n : Nat) (c : LchSt) : (lchSet s n c).commits = s.commits := rfl
@[simp] theorem lchSet_pendKind (n : Nat) (c : LchSt) : (lchSet s n c).pendKind = s.pendKind := rfl
@[simp] theorem lchSet_cmtClass (n : Nat) (c : LchSt) : (lchSet s n c).cmtClass = s.cmtClass := rfl
@[simp] theorem lchSet_pmuPend (n : Nat) (c : LchSt) : (lchSet s n c).pmuPend = s.pmuPend := rfl
@[simp] theorem lchSet_wk (n : Nat) (c : LchSt) : (lchSet s n c).wk = s.wk := rfl
@[simp] theorem lchSet_fuseRec (n : Nat) (c : LchSt) : (lchSet s n c).fuseRec = s.fuseRec := rfl
@[simp] theorem lchSet_committer (n : Nat) (c : LchSt) : (lchSet s n c).committer = s.committer := rfl
@[simp] theorem lchSet_hpt (n : Nat) (c : LchSt) : (lchSet s n c).hpt = s.hpt := rfl
@[simp] theorem lchSet_sbp (n : Nat) (c : LchSt) : (lchSet s n c).sbp = s.sbp := rfl
@[simp] theorem lchSet_imm (n : Nat) (c : LchSt) : (lchSet s n c).imm = s.imm := rfl
@[simp] theorem lchSet_vlt (n : Nat) (c : LchSt) : (lchSet s n c).vlt = s.vlt := rfl
@[simp] theorem lchSet_upd (n : Nat) (c : LchSt) : (lchSet s n c).upd = s.upd := rfl
@[simp] theorem lchSet_xsp (n : Nat) (c : LchSt) : (lchSet s n c).xsp = s.xsp := rfl
@[simp] theorem lchSet_jrn (n : Nat) (c : LchSt) : (lchSet s n c).jrn = s.jrn := rfl
@[simp] theorem lchSet_spr (n : Nat) (c : LchSt) : (lchSet s n c).spr = s.spr := rfl
@[simp] theorem lchSet_hsc (n : Nat) (c : LchSt) : (lchSet s n c).hsc = s.hsc := rfl
@[simp] theorem lchSet_hb (n : Nat) (c : LchSt) : (lchSet s n c).hb = s.hb := rfl
@[simp] theorem lchSet_sol (n : Nat) (c : LchSt) : (lchSet s n c).sol = s.sol := rfl
@[simp] theorem lchSet_sbk (n : Nat) (c : LchSt) : (lchSet s n c).sbk = s.sbk := rfl
@[simp] theorem lchSet_lst (n : Nat) (c : LchSt) : (lchSet s n c).lst = s.lst := rfl
@[simp] theorem lchSet_lmx (n : Nat) (c : LchSt) : (lchSet s n c).lmx = s.lmx := rfl
@[simp] theorem lchSet_frmc (n : Nat) (c : LchSt) : (lchSet s n c).frmc = s.frmc := rfl
@[simp] theorem lchSet_lch (n : Nat) (c : LchSt) : (lchSet s n c).lch = storeSet (fun _ => LchSt.init) s.lch n c := rfl
@[simp] theorem lchSet_rfxLoaded (n : Nat) (c : LchSt) : (lchSet s n c).rfxLoaded = s.rfxLoaded := rfl
@[simp] theorem lchSet_rfxRun (n : Nat) (c : LchSt) : (lchSet s n c).rfxRun = s.rfxRun := rfl
@[simp] theorem lchSet_rfxHist (n : Nat) (c : LchSt) : (lchSet s n c).rfxHist = s.rfxHist := rfl
@[simp] theorem lchSet_holdAct (n : Nat) (c : LchSt) : (lchSet s n c).holdAct = s.holdAct := rfl
@[simp] theorem lchSet_swiPins (n : Nat) (c : LchSt) : (lchSet s n c).swiPins = s.swiPins := rfl
@[simp] theorem lchSet_swiDeb (n : Nat) (c : LchSt) : (lchSet s n c).swiDeb = s.swiDeb := rfl
@[simp] theorem lchSet_swiClean (n : Nat) (c : LchSt) : (lchSet s n c).swiClean = s.swiClean := rfl
@[simp] theorem lchSet_govLog (n : Nat) (c : LchSt) : (lchSet s n c).govLog = s.govLog := rfl
@[simp] theorem lchSet_govShed (n : Nat) (c : LchSt) : (lchSet s n c).govShed = s.govShed := rfl
@[simp] theorem lchSet_govSince (n : Nat) (c : LchSt) : (lchSet s n c).govSince = s.govSince := rfl
@[simp] theorem lchSet_govPkgDie (n : Nat) (c : LchSt) : (lchSet s n c).govPkgDie = s.govPkgDie := rfl
@[simp] theorem lchSet_tcmBad (n : Nat) (c : LchSt) : (lchSet s n c).tcmBad = s.tcmBad := rfl
@[simp] theorem lchSet_dmaHeld (n : Nat) (c : LchSt) : (lchSet s n c).dmaHeld = s.dmaHeld := rfl
@[simp] theorem lchSet_dmaSrc (n : Nat) (c : LchSt) : (lchSet s n c).dmaSrc = s.dmaSrc := rfl
@[simp] theorem lchSet_dmaDst (n : Nat) (c : LchSt) : (lchSet s n c).dmaDst = s.dmaDst := rfl
@[simp] theorem lchSet_dmaLeft (n : Nat) (c : LchSt) : (lchSet s n c).dmaLeft = s.dmaLeft := rfl
@[simp] theorem lchSet_winBank (n : Nat) (c : LchSt) : (lchSet s n c).winBank = s.winBank := rfl
@[simp] theorem lchSet_msqFifo (n : Nat) (c : LchSt) : (lchSet s n c).msqFifo = s.msqFifo := rfl
@[simp] theorem lchSet_ans (n : Nat) (c : LchSt) : (lchSet s n c).ans = s.ans := rfl
@[simp] theorem lchSet_pending (n : Nat) (c : LchSt) : (lchSet s n c).pending = s.pending := rfl

/-! ### canSet -/

@[simp] theorem canSet_mode (n : Nat) (c : CanSt) : (canSet s n c).mode = s.mode := rfl
@[simp] theorem canSet_regs (n : Nat) (c : CanSt) : (canSet s n c).regs = s.regs := rfl
@[simp] theorem canSet_applied (n : Nat) (c : CanSt) : (canSet s n c).applied = s.applied := rfl
@[simp] theorem canSet_mem (n : Nat) (c : CanSt) : (canSet s n c).mem = s.mem := rfl
@[simp] theorem canSet_free (n : Nat) (c : CanSt) : (canSet s n c).free = s.free := rfl
@[simp] theorem canSet_dirty (n : Nat) (c : CanSt) : (canSet s n c).dirty = s.dirty := rfl
@[simp] theorem canSet_due (n : Nat) (c : CanSt) : (canSet s n c).due = s.due := rfl
@[simp] theorem canSet_crossed (n : Nat) (c : CanSt) : (canSet s n c).crossed = s.crossed := rfl
@[simp] theorem canSet_lineHeld (n : Nat) (c : CanSt) : (canSet s n c).lineHeld = s.lineHeld := rfl
@[simp] theorem canSet_pwrTick (n : Nat) (c : CanSt) : (canSet s n c).pwrTick = s.pwrTick := rfl
@[simp] theorem canSet_msDone (n : Nat) (c : CanSt) : (canSet s n c).msDone = s.msDone := rfl
@[simp] theorem canSet_anaDone (n : Nat) (c : CanSt) : (canSet s n c).anaDone = s.anaDone := rfl
@[simp] theorem canSet_flt (n : Nat) (c : CanSt) : (canSet s n c).flt = s.flt := rfl
@[simp] theorem canSet_park (n : Nat) (c : CanSt) : (canSet s n c).park = s.park := rfl
@[simp] theorem canSet_tbs (n : Nat) (c : CanSt) : (canSet s n c).tbs = s.tbs := rfl
@[simp] theorem canSet_tb (n : Nat) (c : CanSt) : (canSet s n c).tb = s.tb := rfl
@[simp] theorem canSet_ec (n : Nat) (c : CanSt) : (canSet s n c).ec = s.ec := rfl
@[simp] theorem canSet_jxr (n : Nat) (c : CanSt) : (canSet s n c).jxr = s.jxr := rfl
@[simp] theorem canSet_brg (n : Nat) (c : CanSt) : (canSet s n c).brg = s.brg := rfl
@[simp] theorem canSet_can (n : Nat) (c : CanSt) : (canSet s n c).can = storeSet (fun _ => CanSt.init) s.can n c := rfl
@[simp] theorem canSet_lin (n : Nat) (c : CanSt) : (canSet s n c).lin = s.lin := rfl
@[simp] theorem canSet_nmg (n : Nat) (c : CanSt) : (canSet s n c).nmg = s.nmg := rfl
@[simp] theorem canSet_aonCopy (n : Nat) (c : CanSt) : (canSet s n c).aonCopy = s.aonCopy := rfl
@[simp] theorem canSet_aonCopyOk (n : Nat) (c : CanSt) : (canSet s n c).aonCopyOk = s.aonCopyOk := rfl
@[simp] theorem canSet_commits (n : Nat) (c : CanSt) : (canSet s n c).commits = s.commits := rfl
@[simp] theorem canSet_pendKind (n : Nat) (c : CanSt) : (canSet s n c).pendKind = s.pendKind := rfl
@[simp] theorem canSet_cmtClass (n : Nat) (c : CanSt) : (canSet s n c).cmtClass = s.cmtClass := rfl
@[simp] theorem canSet_pmuPend (n : Nat) (c : CanSt) : (canSet s n c).pmuPend = s.pmuPend := rfl
@[simp] theorem canSet_wk (n : Nat) (c : CanSt) : (canSet s n c).wk = s.wk := rfl
@[simp] theorem canSet_fuseRec (n : Nat) (c : CanSt) : (canSet s n c).fuseRec = s.fuseRec := rfl
@[simp] theorem canSet_committer (n : Nat) (c : CanSt) : (canSet s n c).committer = s.committer := rfl
@[simp] theorem canSet_hpt (n : Nat) (c : CanSt) : (canSet s n c).hpt = s.hpt := rfl
@[simp] theorem canSet_sbp (n : Nat) (c : CanSt) : (canSet s n c).sbp = s.sbp := rfl
@[simp] theorem canSet_imm (n : Nat) (c : CanSt) : (canSet s n c).imm = s.imm := rfl
@[simp] theorem canSet_vlt (n : Nat) (c : CanSt) : (canSet s n c).vlt = s.vlt := rfl
@[simp] theorem canSet_upd (n : Nat) (c : CanSt) : (canSet s n c).upd = s.upd := rfl
@[simp] theorem canSet_xsp (n : Nat) (c : CanSt) : (canSet s n c).xsp = s.xsp := rfl
@[simp] theorem canSet_jrn (n : Nat) (c : CanSt) : (canSet s n c).jrn = s.jrn := rfl
@[simp] theorem canSet_spr (n : Nat) (c : CanSt) : (canSet s n c).spr = s.spr := rfl
@[simp] theorem canSet_hsc (n : Nat) (c : CanSt) : (canSet s n c).hsc = s.hsc := rfl
@[simp] theorem canSet_hb (n : Nat) (c : CanSt) : (canSet s n c).hb = s.hb := rfl
@[simp] theorem canSet_sol (n : Nat) (c : CanSt) : (canSet s n c).sol = s.sol := rfl
@[simp] theorem canSet_sbk (n : Nat) (c : CanSt) : (canSet s n c).sbk = s.sbk := rfl
@[simp] theorem canSet_lst (n : Nat) (c : CanSt) : (canSet s n c).lst = s.lst := rfl
@[simp] theorem canSet_lmx (n : Nat) (c : CanSt) : (canSet s n c).lmx = s.lmx := rfl
@[simp] theorem canSet_frmc (n : Nat) (c : CanSt) : (canSet s n c).frmc = s.frmc := rfl
@[simp] theorem canSet_lch (n : Nat) (c : CanSt) : (canSet s n c).lch = s.lch := rfl
@[simp] theorem canSet_rfxLoaded (n : Nat) (c : CanSt) : (canSet s n c).rfxLoaded = s.rfxLoaded := rfl
@[simp] theorem canSet_rfxRun (n : Nat) (c : CanSt) : (canSet s n c).rfxRun = s.rfxRun := rfl
@[simp] theorem canSet_rfxHist (n : Nat) (c : CanSt) : (canSet s n c).rfxHist = s.rfxHist := rfl
@[simp] theorem canSet_holdAct (n : Nat) (c : CanSt) : (canSet s n c).holdAct = s.holdAct := rfl
@[simp] theorem canSet_swiPins (n : Nat) (c : CanSt) : (canSet s n c).swiPins = s.swiPins := rfl
@[simp] theorem canSet_swiDeb (n : Nat) (c : CanSt) : (canSet s n c).swiDeb = s.swiDeb := rfl
@[simp] theorem canSet_swiClean (n : Nat) (c : CanSt) : (canSet s n c).swiClean = s.swiClean := rfl
@[simp] theorem canSet_govLog (n : Nat) (c : CanSt) : (canSet s n c).govLog = s.govLog := rfl
@[simp] theorem canSet_govShed (n : Nat) (c : CanSt) : (canSet s n c).govShed = s.govShed := rfl
@[simp] theorem canSet_govSince (n : Nat) (c : CanSt) : (canSet s n c).govSince = s.govSince := rfl
@[simp] theorem canSet_govPkgDie (n : Nat) (c : CanSt) : (canSet s n c).govPkgDie = s.govPkgDie := rfl
@[simp] theorem canSet_tcmBad (n : Nat) (c : CanSt) : (canSet s n c).tcmBad = s.tcmBad := rfl
@[simp] theorem canSet_dmaHeld (n : Nat) (c : CanSt) : (canSet s n c).dmaHeld = s.dmaHeld := rfl
@[simp] theorem canSet_dmaSrc (n : Nat) (c : CanSt) : (canSet s n c).dmaSrc = s.dmaSrc := rfl
@[simp] theorem canSet_dmaDst (n : Nat) (c : CanSt) : (canSet s n c).dmaDst = s.dmaDst := rfl
@[simp] theorem canSet_dmaLeft (n : Nat) (c : CanSt) : (canSet s n c).dmaLeft = s.dmaLeft := rfl
@[simp] theorem canSet_winBank (n : Nat) (c : CanSt) : (canSet s n c).winBank = s.winBank := rfl
@[simp] theorem canSet_msqFifo (n : Nat) (c : CanSt) : (canSet s n c).msqFifo = s.msqFifo := rfl
@[simp] theorem canSet_ans (n : Nat) (c : CanSt) : (canSet s n c).ans = s.ans := rfl
@[simp] theorem canSet_pending (n : Nat) (c : CanSt) : (canSet s n c).pending = s.pending := rfl

/-! ### linSet -/

@[simp] theorem linSet_mode (n : Nat) (c : LinSt) : (linSet s n c).mode = s.mode := rfl
@[simp] theorem linSet_regs (n : Nat) (c : LinSt) : (linSet s n c).regs = s.regs := rfl
@[simp] theorem linSet_applied (n : Nat) (c : LinSt) : (linSet s n c).applied = s.applied := rfl
@[simp] theorem linSet_mem (n : Nat) (c : LinSt) : (linSet s n c).mem = s.mem := rfl
@[simp] theorem linSet_free (n : Nat) (c : LinSt) : (linSet s n c).free = s.free := rfl
@[simp] theorem linSet_dirty (n : Nat) (c : LinSt) : (linSet s n c).dirty = s.dirty := rfl
@[simp] theorem linSet_due (n : Nat) (c : LinSt) : (linSet s n c).due = s.due := rfl
@[simp] theorem linSet_crossed (n : Nat) (c : LinSt) : (linSet s n c).crossed = s.crossed := rfl
@[simp] theorem linSet_lineHeld (n : Nat) (c : LinSt) : (linSet s n c).lineHeld = s.lineHeld := rfl
@[simp] theorem linSet_pwrTick (n : Nat) (c : LinSt) : (linSet s n c).pwrTick = s.pwrTick := rfl
@[simp] theorem linSet_msDone (n : Nat) (c : LinSt) : (linSet s n c).msDone = s.msDone := rfl
@[simp] theorem linSet_anaDone (n : Nat) (c : LinSt) : (linSet s n c).anaDone = s.anaDone := rfl
@[simp] theorem linSet_flt (n : Nat) (c : LinSt) : (linSet s n c).flt = s.flt := rfl
@[simp] theorem linSet_park (n : Nat) (c : LinSt) : (linSet s n c).park = s.park := rfl
@[simp] theorem linSet_tbs (n : Nat) (c : LinSt) : (linSet s n c).tbs = s.tbs := rfl
@[simp] theorem linSet_tb (n : Nat) (c : LinSt) : (linSet s n c).tb = s.tb := rfl
@[simp] theorem linSet_ec (n : Nat) (c : LinSt) : (linSet s n c).ec = s.ec := rfl
@[simp] theorem linSet_jxr (n : Nat) (c : LinSt) : (linSet s n c).jxr = s.jxr := rfl
@[simp] theorem linSet_brg (n : Nat) (c : LinSt) : (linSet s n c).brg = s.brg := rfl
@[simp] theorem linSet_can (n : Nat) (c : LinSt) : (linSet s n c).can = s.can := rfl
@[simp] theorem linSet_lin (n : Nat) (c : LinSt) : (linSet s n c).lin = storeSet (fun _ => LinSt.init) s.lin n c := rfl
@[simp] theorem linSet_nmg (n : Nat) (c : LinSt) : (linSet s n c).nmg = s.nmg := rfl
@[simp] theorem linSet_aonCopy (n : Nat) (c : LinSt) : (linSet s n c).aonCopy = s.aonCopy := rfl
@[simp] theorem linSet_aonCopyOk (n : Nat) (c : LinSt) : (linSet s n c).aonCopyOk = s.aonCopyOk := rfl
@[simp] theorem linSet_commits (n : Nat) (c : LinSt) : (linSet s n c).commits = s.commits := rfl
@[simp] theorem linSet_pendKind (n : Nat) (c : LinSt) : (linSet s n c).pendKind = s.pendKind := rfl
@[simp] theorem linSet_cmtClass (n : Nat) (c : LinSt) : (linSet s n c).cmtClass = s.cmtClass := rfl
@[simp] theorem linSet_pmuPend (n : Nat) (c : LinSt) : (linSet s n c).pmuPend = s.pmuPend := rfl
@[simp] theorem linSet_wk (n : Nat) (c : LinSt) : (linSet s n c).wk = s.wk := rfl
@[simp] theorem linSet_fuseRec (n : Nat) (c : LinSt) : (linSet s n c).fuseRec = s.fuseRec := rfl
@[simp] theorem linSet_committer (n : Nat) (c : LinSt) : (linSet s n c).committer = s.committer := rfl
@[simp] theorem linSet_hpt (n : Nat) (c : LinSt) : (linSet s n c).hpt = s.hpt := rfl
@[simp] theorem linSet_sbp (n : Nat) (c : LinSt) : (linSet s n c).sbp = s.sbp := rfl
@[simp] theorem linSet_imm (n : Nat) (c : LinSt) : (linSet s n c).imm = s.imm := rfl
@[simp] theorem linSet_vlt (n : Nat) (c : LinSt) : (linSet s n c).vlt = s.vlt := rfl
@[simp] theorem linSet_upd (n : Nat) (c : LinSt) : (linSet s n c).upd = s.upd := rfl
@[simp] theorem linSet_xsp (n : Nat) (c : LinSt) : (linSet s n c).xsp = s.xsp := rfl
@[simp] theorem linSet_jrn (n : Nat) (c : LinSt) : (linSet s n c).jrn = s.jrn := rfl
@[simp] theorem linSet_spr (n : Nat) (c : LinSt) : (linSet s n c).spr = s.spr := rfl
@[simp] theorem linSet_hsc (n : Nat) (c : LinSt) : (linSet s n c).hsc = s.hsc := rfl
@[simp] theorem linSet_hb (n : Nat) (c : LinSt) : (linSet s n c).hb = s.hb := rfl
@[simp] theorem linSet_sol (n : Nat) (c : LinSt) : (linSet s n c).sol = s.sol := rfl
@[simp] theorem linSet_sbk (n : Nat) (c : LinSt) : (linSet s n c).sbk = s.sbk := rfl
@[simp] theorem linSet_lst (n : Nat) (c : LinSt) : (linSet s n c).lst = s.lst := rfl
@[simp] theorem linSet_lmx (n : Nat) (c : LinSt) : (linSet s n c).lmx = s.lmx := rfl
@[simp] theorem linSet_frmc (n : Nat) (c : LinSt) : (linSet s n c).frmc = s.frmc := rfl
@[simp] theorem linSet_lch (n : Nat) (c : LinSt) : (linSet s n c).lch = s.lch := rfl
@[simp] theorem linSet_rfxLoaded (n : Nat) (c : LinSt) : (linSet s n c).rfxLoaded = s.rfxLoaded := rfl
@[simp] theorem linSet_rfxRun (n : Nat) (c : LinSt) : (linSet s n c).rfxRun = s.rfxRun := rfl
@[simp] theorem linSet_rfxHist (n : Nat) (c : LinSt) : (linSet s n c).rfxHist = s.rfxHist := rfl
@[simp] theorem linSet_holdAct (n : Nat) (c : LinSt) : (linSet s n c).holdAct = s.holdAct := rfl
@[simp] theorem linSet_swiPins (n : Nat) (c : LinSt) : (linSet s n c).swiPins = s.swiPins := rfl
@[simp] theorem linSet_swiDeb (n : Nat) (c : LinSt) : (linSet s n c).swiDeb = s.swiDeb := rfl
@[simp] theorem linSet_swiClean (n : Nat) (c : LinSt) : (linSet s n c).swiClean = s.swiClean := rfl
@[simp] theorem linSet_govLog (n : Nat) (c : LinSt) : (linSet s n c).govLog = s.govLog := rfl
@[simp] theorem linSet_govShed (n : Nat) (c : LinSt) : (linSet s n c).govShed = s.govShed := rfl
@[simp] theorem linSet_govSince (n : Nat) (c : LinSt) : (linSet s n c).govSince = s.govSince := rfl
@[simp] theorem linSet_govPkgDie (n : Nat) (c : LinSt) : (linSet s n c).govPkgDie = s.govPkgDie := rfl
@[simp] theorem linSet_tcmBad (n : Nat) (c : LinSt) : (linSet s n c).tcmBad = s.tcmBad := rfl
@[simp] theorem linSet_dmaHeld (n : Nat) (c : LinSt) : (linSet s n c).dmaHeld = s.dmaHeld := rfl
@[simp] theorem linSet_dmaSrc (n : Nat) (c : LinSt) : (linSet s n c).dmaSrc = s.dmaSrc := rfl
@[simp] theorem linSet_dmaDst (n : Nat) (c : LinSt) : (linSet s n c).dmaDst = s.dmaDst := rfl
@[simp] theorem linSet_dmaLeft (n : Nat) (c : LinSt) : (linSet s n c).dmaLeft = s.dmaLeft := rfl
@[simp] theorem linSet_winBank (n : Nat) (c : LinSt) : (linSet s n c).winBank = s.winBank := rfl
@[simp] theorem linSet_msqFifo (n : Nat) (c : LinSt) : (linSet s n c).msqFifo = s.msqFifo := rfl
@[simp] theorem linSet_ans (n : Nat) (c : LinSt) : (linSet s n c).ans = s.ans := rfl
@[simp] theorem linSet_pending (n : Nat) (c : LinSt) : (linSet s n c).pending = s.pending := rfl

/-! ### coreSet -/

@[simp] theorem coreSet_mode (k : EcCore) (c : CoreSt) : (coreSet s k c).mode = s.mode := rfl
@[simp] theorem coreSet_regs (k : EcCore) (c : CoreSt) : (coreSet s k c).regs = s.regs := rfl
@[simp] theorem coreSet_applied (k : EcCore) (c : CoreSt) : (coreSet s k c).applied = s.applied := rfl
@[simp] theorem coreSet_mem (k : EcCore) (c : CoreSt) : (coreSet s k c).mem = s.mem := rfl
@[simp] theorem coreSet_free (k : EcCore) (c : CoreSt) : (coreSet s k c).free = s.free := rfl
@[simp] theorem coreSet_dirty (k : EcCore) (c : CoreSt) : (coreSet s k c).dirty = s.dirty := rfl
@[simp] theorem coreSet_due (k : EcCore) (c : CoreSt) : (coreSet s k c).due = s.due := rfl
@[simp] theorem coreSet_crossed (k : EcCore) (c : CoreSt) : (coreSet s k c).crossed = s.crossed := rfl
@[simp] theorem coreSet_lineHeld (k : EcCore) (c : CoreSt) : (coreSet s k c).lineHeld = s.lineHeld := rfl
@[simp] theorem coreSet_pwrTick (k : EcCore) (c : CoreSt) : (coreSet s k c).pwrTick = s.pwrTick := rfl
@[simp] theorem coreSet_msDone (k : EcCore) (c : CoreSt) : (coreSet s k c).msDone = s.msDone := rfl
@[simp] theorem coreSet_anaDone (k : EcCore) (c : CoreSt) : (coreSet s k c).anaDone = s.anaDone := rfl
@[simp] theorem coreSet_flt (k : EcCore) (c : CoreSt) : (coreSet s k c).flt = s.flt := rfl
@[simp] theorem coreSet_park (k : EcCore) (c : CoreSt) : (coreSet s k c).park = s.park := rfl
@[simp] theorem coreSet_tbs (k : EcCore) (c : CoreSt) : (coreSet s k c).tbs = s.tbs := rfl
@[simp] theorem coreSet_tb (k : EcCore) (c : CoreSt) : (coreSet s k c).tb = s.tb := rfl
@[simp] theorem coreSet_ec (k : EcCore) (c : CoreSt) : (coreSet s k c).ec = storeSet coreDefault s.ec (corePg k) c := rfl
@[simp] theorem coreSet_jxr (k : EcCore) (c : CoreSt) : (coreSet s k c).jxr = s.jxr := rfl
@[simp] theorem coreSet_brg (k : EcCore) (c : CoreSt) : (coreSet s k c).brg = s.brg := rfl
@[simp] theorem coreSet_can (k : EcCore) (c : CoreSt) : (coreSet s k c).can = s.can := rfl
@[simp] theorem coreSet_lin (k : EcCore) (c : CoreSt) : (coreSet s k c).lin = s.lin := rfl
@[simp] theorem coreSet_nmg (k : EcCore) (c : CoreSt) : (coreSet s k c).nmg = s.nmg := rfl
@[simp] theorem coreSet_aonCopy (k : EcCore) (c : CoreSt) : (coreSet s k c).aonCopy = s.aonCopy := rfl
@[simp] theorem coreSet_aonCopyOk (k : EcCore) (c : CoreSt) : (coreSet s k c).aonCopyOk = s.aonCopyOk := rfl
@[simp] theorem coreSet_commits (k : EcCore) (c : CoreSt) : (coreSet s k c).commits = s.commits := rfl
@[simp] theorem coreSet_pendKind (k : EcCore) (c : CoreSt) : (coreSet s k c).pendKind = s.pendKind := rfl
@[simp] theorem coreSet_cmtClass (k : EcCore) (c : CoreSt) : (coreSet s k c).cmtClass = s.cmtClass := rfl
@[simp] theorem coreSet_pmuPend (k : EcCore) (c : CoreSt) : (coreSet s k c).pmuPend = s.pmuPend := rfl
@[simp] theorem coreSet_wk (k : EcCore) (c : CoreSt) : (coreSet s k c).wk = s.wk := rfl
@[simp] theorem coreSet_fuseRec (k : EcCore) (c : CoreSt) : (coreSet s k c).fuseRec = s.fuseRec := rfl
@[simp] theorem coreSet_committer (k : EcCore) (c : CoreSt) : (coreSet s k c).committer = s.committer := rfl
@[simp] theorem coreSet_hpt (k : EcCore) (c : CoreSt) : (coreSet s k c).hpt = s.hpt := rfl
@[simp] theorem coreSet_sbp (k : EcCore) (c : CoreSt) : (coreSet s k c).sbp = s.sbp := rfl
@[simp] theorem coreSet_imm (k : EcCore) (c : CoreSt) : (coreSet s k c).imm = s.imm := rfl
@[simp] theorem coreSet_vlt (k : EcCore) (c : CoreSt) : (coreSet s k c).vlt = s.vlt := rfl
@[simp] theorem coreSet_upd (k : EcCore) (c : CoreSt) : (coreSet s k c).upd = s.upd := rfl
@[simp] theorem coreSet_xsp (k : EcCore) (c : CoreSt) : (coreSet s k c).xsp = s.xsp := rfl
@[simp] theorem coreSet_jrn (k : EcCore) (c : CoreSt) : (coreSet s k c).jrn = s.jrn := rfl
@[simp] theorem coreSet_spr (k : EcCore) (c : CoreSt) : (coreSet s k c).spr = s.spr := rfl
@[simp] theorem coreSet_hsc (k : EcCore) (c : CoreSt) : (coreSet s k c).hsc = s.hsc := rfl
@[simp] theorem coreSet_hb (k : EcCore) (c : CoreSt) : (coreSet s k c).hb = s.hb := rfl
@[simp] theorem coreSet_sol (k : EcCore) (c : CoreSt) : (coreSet s k c).sol = s.sol := rfl
@[simp] theorem coreSet_sbk (k : EcCore) (c : CoreSt) : (coreSet s k c).sbk = s.sbk := rfl
@[simp] theorem coreSet_lst (k : EcCore) (c : CoreSt) : (coreSet s k c).lst = s.lst := rfl
@[simp] theorem coreSet_lmx (k : EcCore) (c : CoreSt) : (coreSet s k c).lmx = s.lmx := rfl
@[simp] theorem coreSet_frmc (k : EcCore) (c : CoreSt) : (coreSet s k c).frmc = s.frmc := rfl
@[simp] theorem coreSet_lch (k : EcCore) (c : CoreSt) : (coreSet s k c).lch = s.lch := rfl
@[simp] theorem coreSet_rfxLoaded (k : EcCore) (c : CoreSt) : (coreSet s k c).rfxLoaded = s.rfxLoaded := rfl
@[simp] theorem coreSet_rfxRun (k : EcCore) (c : CoreSt) : (coreSet s k c).rfxRun = s.rfxRun := rfl
@[simp] theorem coreSet_rfxHist (k : EcCore) (c : CoreSt) : (coreSet s k c).rfxHist = s.rfxHist := rfl
@[simp] theorem coreSet_holdAct (k : EcCore) (c : CoreSt) : (coreSet s k c).holdAct = s.holdAct := rfl
@[simp] theorem coreSet_swiPins (k : EcCore) (c : CoreSt) : (coreSet s k c).swiPins = s.swiPins := rfl
@[simp] theorem coreSet_swiDeb (k : EcCore) (c : CoreSt) : (coreSet s k c).swiDeb = s.swiDeb := rfl
@[simp] theorem coreSet_swiClean (k : EcCore) (c : CoreSt) : (coreSet s k c).swiClean = s.swiClean := rfl
@[simp] theorem coreSet_govLog (k : EcCore) (c : CoreSt) : (coreSet s k c).govLog = s.govLog := rfl
@[simp] theorem coreSet_govShed (k : EcCore) (c : CoreSt) : (coreSet s k c).govShed = s.govShed := rfl
@[simp] theorem coreSet_govSince (k : EcCore) (c : CoreSt) : (coreSet s k c).govSince = s.govSince := rfl
@[simp] theorem coreSet_govPkgDie (k : EcCore) (c : CoreSt) : (coreSet s k c).govPkgDie = s.govPkgDie := rfl
@[simp] theorem coreSet_tcmBad (k : EcCore) (c : CoreSt) : (coreSet s k c).tcmBad = s.tcmBad := rfl
@[simp] theorem coreSet_dmaHeld (k : EcCore) (c : CoreSt) : (coreSet s k c).dmaHeld = s.dmaHeld := rfl
@[simp] theorem coreSet_dmaSrc (k : EcCore) (c : CoreSt) : (coreSet s k c).dmaSrc = s.dmaSrc := rfl
@[simp] theorem coreSet_dmaDst (k : EcCore) (c : CoreSt) : (coreSet s k c).dmaDst = s.dmaDst := rfl
@[simp] theorem coreSet_dmaLeft (k : EcCore) (c : CoreSt) : (coreSet s k c).dmaLeft = s.dmaLeft := rfl
@[simp] theorem coreSet_winBank (k : EcCore) (c : CoreSt) : (coreSet s k c).winBank = s.winBank := rfl
@[simp] theorem coreSet_msqFifo (k : EcCore) (c : CoreSt) : (coreSet s k c).msqFifo = s.msqFifo := rfl
@[simp] theorem coreSet_ans (k : EcCore) (c : CoreSt) : (coreSet s k c).ans = s.ans := rfl
@[simp] theorem coreSet_pending (k : EcCore) (c : CoreSt) : (coreSet s k c).pending = s.pending := rfl

/-! ### pinsSet -/

@[simp] theorem pinsSet_mode (m l : Nat) : (pinsSet s m l).mode = s.mode := rfl
@[simp] theorem pinsSet_regs (m l : Nat) : (pinsSet s m l).regs = s.regs := rfl
@[simp] theorem pinsSet_applied (m l : Nat) : (pinsSet s m l).applied = s.applied := rfl
@[simp] theorem pinsSet_mem (m l : Nat) : (pinsSet s m l).mem = s.mem := rfl
@[simp] theorem pinsSet_free (m l : Nat) : (pinsSet s m l).free = s.free := rfl
@[simp] theorem pinsSet_dirty (m l : Nat) : (pinsSet s m l).dirty = s.dirty := rfl
@[simp] theorem pinsSet_due (m l : Nat) : (pinsSet s m l).due = s.due := rfl
@[simp] theorem pinsSet_crossed (m l : Nat) : (pinsSet s m l).crossed = s.crossed := rfl
@[simp] theorem pinsSet_lineHeld (m l : Nat) : (pinsSet s m l).lineHeld = s.lineHeld := rfl
@[simp] theorem pinsSet_pwrTick (m l : Nat) : (pinsSet s m l).pwrTick = s.pwrTick := rfl
@[simp] theorem pinsSet_msDone (m l : Nat) : (pinsSet s m l).msDone = s.msDone := rfl
@[simp] theorem pinsSet_anaDone (m l : Nat) : (pinsSet s m l).anaDone = s.anaDone := rfl
@[simp] theorem pinsSet_flt (m l : Nat) : (pinsSet s m l).flt = s.flt := rfl
@[simp] theorem pinsSet_park (m l : Nat) : (pinsSet s m l).park = s.park := rfl
@[simp] theorem pinsSet_tbs (m l : Nat) : (pinsSet s m l).tbs = s.tbs := rfl
@[simp] theorem pinsSet_tb (m l : Nat) : (pinsSet s m l).tb = s.tb := rfl
@[simp] theorem pinsSet_ec (m l : Nat) : (pinsSet s m l).ec = s.ec := rfl
@[simp] theorem pinsSet_jxr (m l : Nat) : (pinsSet s m l).jxr = s.jxr := rfl
@[simp] theorem pinsSet_brg (m l : Nat) : (pinsSet s m l).brg = s.brg := rfl
@[simp] theorem pinsSet_can (m l : Nat) : (pinsSet s m l).can = s.can := rfl
@[simp] theorem pinsSet_lin (m l : Nat) : (pinsSet s m l).lin = s.lin := rfl
@[simp] theorem pinsSet_nmg (m l : Nat) : (pinsSet s m l).nmg = s.nmg := rfl
@[simp] theorem pinsSet_aonCopy (m l : Nat) : (pinsSet s m l).aonCopy = s.aonCopy := rfl
@[simp] theorem pinsSet_aonCopyOk (m l : Nat) : (pinsSet s m l).aonCopyOk = s.aonCopyOk := rfl
@[simp] theorem pinsSet_commits (m l : Nat) : (pinsSet s m l).commits = s.commits := rfl
@[simp] theorem pinsSet_pendKind (m l : Nat) : (pinsSet s m l).pendKind = s.pendKind := rfl
@[simp] theorem pinsSet_cmtClass (m l : Nat) : (pinsSet s m l).cmtClass = s.cmtClass := rfl
@[simp] theorem pinsSet_pmuPend (m l : Nat) : (pinsSet s m l).pmuPend = s.pmuPend := rfl
@[simp] theorem pinsSet_wk (m l : Nat) : (pinsSet s m l).wk = s.wk := rfl
@[simp] theorem pinsSet_fuseRec (m l : Nat) : (pinsSet s m l).fuseRec = s.fuseRec := rfl
@[simp] theorem pinsSet_committer (m l : Nat) : (pinsSet s m l).committer = s.committer := rfl
@[simp] theorem pinsSet_hpt (m l : Nat) : (pinsSet s m l).hpt = s.hpt := rfl
@[simp] theorem pinsSet_sbp (m l : Nat) : (pinsSet s m l).sbp = s.sbp := rfl
@[simp] theorem pinsSet_imm (m l : Nat) : (pinsSet s m l).imm = s.imm := rfl
@[simp] theorem pinsSet_vlt (m l : Nat) : (pinsSet s m l).vlt = s.vlt := rfl
@[simp] theorem pinsSet_upd (m l : Nat) : (pinsSet s m l).upd = s.upd := rfl
@[simp] theorem pinsSet_xsp (m l : Nat) : (pinsSet s m l).xsp = s.xsp := rfl
@[simp] theorem pinsSet_jrn (m l : Nat) : (pinsSet s m l).jrn = s.jrn := rfl
@[simp] theorem pinsSet_spr (m l : Nat) : (pinsSet s m l).spr = s.spr := rfl
@[simp] theorem pinsSet_hsc (m l : Nat) : (pinsSet s m l).hsc = s.hsc := rfl
@[simp] theorem pinsSet_hb (m l : Nat) : (pinsSet s m l).hb = s.hb := rfl
@[simp] theorem pinsSet_sol (m l : Nat) : (pinsSet s m l).sol = s.sol := rfl
@[simp] theorem pinsSet_sbk (m l : Nat) : (pinsSet s m l).sbk = s.sbk := rfl
@[simp] theorem pinsSet_lst (m l : Nat) : (pinsSet s m l).lst = s.lst := rfl
@[simp] theorem pinsSet_lmx (m l : Nat) : (pinsSet s m l).lmx = s.lmx := rfl
@[simp] theorem pinsSet_frmc (m l : Nat) : (pinsSet s m l).frmc = s.frmc := rfl
@[simp] theorem pinsSet_lch (m l : Nat) : (pinsSet s m l).lch = s.lch := rfl
@[simp] theorem pinsSet_rfxLoaded (m l : Nat) : (pinsSet s m l).rfxLoaded = s.rfxLoaded := rfl
@[simp] theorem pinsSet_rfxRun (m l : Nat) : (pinsSet s m l).rfxRun = s.rfxRun := rfl
@[simp] theorem pinsSet_rfxHist (m l : Nat) : (pinsSet s m l).rfxHist = s.rfxHist := rfl
@[simp] theorem pinsSet_holdAct (m l : Nat) : (pinsSet s m l).holdAct = s.holdAct := rfl
@[simp] theorem pinsSet_swiPins (m l : Nat) : (pinsSet s m l).swiPins = (s.swiPins ^^^ (s.swiPins &&& m)) ||| (l &&& m) := rfl
@[simp] theorem pinsSet_swiDeb (m l : Nat) : (pinsSet s m l).swiDeb = s.swiDeb := rfl
@[simp] theorem pinsSet_swiClean (m l : Nat) : (pinsSet s m l).swiClean = s.swiClean := rfl
@[simp] theorem pinsSet_govLog (m l : Nat) : (pinsSet s m l).govLog = s.govLog := rfl
@[simp] theorem pinsSet_govShed (m l : Nat) : (pinsSet s m l).govShed = s.govShed := rfl
@[simp] theorem pinsSet_govSince (m l : Nat) : (pinsSet s m l).govSince = s.govSince := rfl
@[simp] theorem pinsSet_govPkgDie (m l : Nat) : (pinsSet s m l).govPkgDie = s.govPkgDie := rfl
@[simp] theorem pinsSet_tcmBad (m l : Nat) : (pinsSet s m l).tcmBad = s.tcmBad := rfl
@[simp] theorem pinsSet_dmaHeld (m l : Nat) : (pinsSet s m l).dmaHeld = s.dmaHeld := rfl
@[simp] theorem pinsSet_dmaSrc (m l : Nat) : (pinsSet s m l).dmaSrc = s.dmaSrc := rfl
@[simp] theorem pinsSet_dmaDst (m l : Nat) : (pinsSet s m l).dmaDst = s.dmaDst := rfl
@[simp] theorem pinsSet_dmaLeft (m l : Nat) : (pinsSet s m l).dmaLeft = s.dmaLeft := rfl
@[simp] theorem pinsSet_winBank (m l : Nat) : (pinsSet s m l).winBank = s.winBank := rfl
@[simp] theorem pinsSet_msqFifo (m l : Nat) : (pinsSet s m l).msqFifo = s.msqFifo := rfl
@[simp] theorem pinsSet_ans (m l : Nat) : (pinsSet s m l).ans = s.ans := rfl
@[simp] theorem pinsSet_pending (m l : Nat) : (pinsSet s m l).pending = s.pending := rfl

end Sys2Proof.Machine
end

