-- ==== Sys2Proof/Laws/Access.lean ====
section
/-! SUPPORT. What a granted access of a register does, and what is left after a command when nothing follows it. -/

namespace Sys2Proof.Machine

/-- A command that ends with the effect `u` answers the state that settling leaves of it. -/
theorem Answers.of_done {c : Instr} {s u : State} {P : State → Prop} (h : exec c s = done s u) (hp : P u) : Answers c s P := ⟨u, h, hp⟩

/-- While the device runs a powered command acts. -/
theorem powered_of {s : State} {f : State → State} (h : running s = true) : powered s f = f s := by simp [powered, h]

/-- While the device and the clocks of the access run, an access crosses. -/
theorem crossing_of {s : State} {p : Nat} {f : State → State} (h : running s = true) (hc : pageStands s p = false) :
    crossing s p f = f s := by simp [crossing, powered_of h, hc]

/-- A granted write of a register outside the vault's command interface is carried out. -/
theorem writeReg_of {s : State} {who : Who} {p off : Nat} {v : Word} (h : MayWrite s who p off) (ho : off % 4 = 0)
    (hp : p = 6 → vltIface off = false) : writeReg s who p off v = answerW (pageWriteGo s who p off v) := by
  unfold writeReg
  rw [crossing_of h.runs h.clocks]
  unfold pageWrite
  have hb' : (blkOf p).isNone = false := by have := h.page; cases hx : blkOf p <;> simp_all
  by_cases h6 : p = 6
  · have hw := h.vault h6
    have hr := h.right
    subst h6 hw
    simp [h.runs, hr, hb', ho, hp rfl]
  · simp [h.runs, h.right, hb', ho, h6]

/-- A granted write of a header register. -/
theorem writeReg_head {s : State} {who : Who} {p off : Nat} {v : Word} (h : MayWrite s who p off) (ho : off % 4 = 0)
    (hl : off < 0x100) : writeReg s who p off v = { headWrite s (whoKind who) p off v with ans := none } := by
  rw [writeReg_of h ho (fun _ => by simp only [vltIface]; simp; omega)]
  simp [answerW, pageWriteGo, hl]

/-- A granted write of a live register. -/
theorem writeReg_live {s : State} {who : Who} {p off : Nat} {v : Word} (h : MayWrite s who p off) (ho : off % 4 = 0)
    (hp : p ≠ 6) (hl : 0x100 ≤ off) (hu : off < 0x800) : writeReg s who p off v = answerW (liveWrite s who p off v) := by
  rw [writeReg_of h ho (fun e => absurd e hp)]
  have : ¬ off < 0x100 := by omega
  simp [pageWriteGo, this, hu]

/-- A granted read of a register outside the vault's command interface is carried out. -/
theorem readReg_of {s : State} {who : Who} {p off : Nat} (h : MayRead s who p) (ho : off % 4 = 0)
    (hp : p = 6 → vltIface off = false) : readReg s who p off = answerR (pageReadGo s who p off) := by
  unfold readReg
  rw [crossing_of h.runs h.clocks]
  unfold pageRead
  have hb' : (blkOf p).isNone = false := by have := h.page; cases hx : blkOf p <;> simp_all
  by_cases h6 : p = 6
  · have hw := h.vault h6
    have hr := h.right
    subst h6 hw
    simp [h.runs, hr, hb', ho, hp rfl]
  · simp [h.runs, h.right, hb', ho, h6]

/-- A command of the vault's interface is taken from an initiator that no claim keeps out. -/
theorem writeReg_vlt {s : State} {who : Who} {off : Nat} {v : Word} (h : MayCommand s who) (ho : off % 4 = 0)
    (hi : vltIface off = true) : writeReg s who 6 off v = answerW (pageWriteGo s who 6 off v) := by
  unfold writeReg
  rw [crossing_of h.runs h.clocks]
  unfold pageWrite
  have hb : blkOf 6 = some (.VLT, 6) := rfl
  simp [h.runs, h.free, h.reach, hb, ho, hi]

end Sys2Proof.Machine
end

