-- ==== Sys2Proof/Laws/Core.lean ====
section
/-! SUPPORT. What running one instruction of a core comes to, and what its operand gives. -/

namespace Sys2Proof.Machine

/-- A ready core, which repeats nothing, takes the instruction as it comes. -/
theorem coreStep_ready {s : State} {k : EcCore} {len : Nat} {ins : Instr} {f : State → State} (h : CoreReady s k len) :
    coreStep s k ins f = f s := by
  simp [coreStep, h.single.1, h.single.2.1]

/-- A ready core runs the instruction once. -/
theorem coreRun_ready {s : State} {k : EcCore} {len : Nat} {rep : Bool} {f : CoreCtx → CoreOut} (h : CoreReady s k len) :
    coreRun s k len rep f = match f ⟨k, s, coreGet s k, len, false⟩ with
      | .done t d => coreSet t k d
      | .exc t v => coreExc t k (coreGet s k) v
      | .stall t => t := by
  obtain ⟨h1, h0, h2, h3, ⟨h4, h5, h6⟩, h7⟩ := h
  unfold coreRun coreGoes
  simp only [h1, h0, h2, h3, h4, h5, h6, h7]
  simp
  all_goals rfl

/-- A read that is answered. -/
theorem CoreCtx.read_of {s t : State} {k : EcCore} {a v : Word} {n len : Nat} {c : CoreSt} {f : State → Word → CoreOut}
    (h : ReadIs s k a n t v) {s0 : State} : CoreCtx.read ⟨k, s0, c, len, false⟩ s a n f = f t v := by
  simp [CoreCtx.read, h.1, h.2]

/-- A write that is taken. -/
theorem CoreCtx.write_of {s t : State} {k : EcCore} {a v : Word} {n len : Nat} {c : CoreSt} {f : State → CoreOut}
    (h : WriteIs s k a n v t) {s0 : State} : CoreCtx.write ⟨k, s0, c, len, false⟩ s a n v f = f t := by
  simp [CoreCtx.write, h.1, h.2.1, h.2.2]

/-- The word operand of an instruction. -/
theorem CoreCtx.operand_of {s t : State} {k : EcCore} {f : Form} {d : CoreSt} {v : Word} {len : Nat} {g : State → CoreSt → Word → CoreOut}
    (h : OperandIs s k f t d v) : CoreCtx.operand ⟨k, s, coreGet s k, len, false⟩ f g = g t d v := by
  unfold CoreCtx.operand
  rcases h with ⟨h1, rfl, rfl⟩ | ⟨ea, h1, h2, h3, rfl⟩
  · simp [h1]
  · simp [h1, CoreCtx.read, h2, h3]

/-- The narrow operand of an instruction. -/
theorem CoreCtx.narrow_of {s t : State} {k : EcCore} {f : Form} {n : Nat} {d : CoreSt} {v : Word} {len : Nat}
    {g : State → CoreSt → Word → CoreOut} (h : NarrowIs s k f n t d v) :
    CoreCtx.narrow ⟨k, s, coreGet s k, len, false⟩ f n g = g t d v := by
  obtain ⟨ea, h1, h2, h3, rfl⟩ := h
  simp [CoreCtx.narrow, h1, CoreCtx.read, h2, h3]

/-- The store of an instruction. -/
theorem CoreCtx.store_of {s t : State} {k : EcCore} {f : Form} {n : Nat} {d : CoreSt} {v : Word} {len : Nat}
    (h : StoreIs s k f n v t d) : CoreCtx.store ⟨k, s, coreGet s k, len, false⟩ f n v =
      .done t { d with p := (coreGet s k).p + BitVec.ofNat 32 len } := by
  obtain ⟨ea, h1, h2, h3, h4, rfl⟩ := h
  simp [CoreCtx.store, h1, CoreCtx.write, h2, h3, h4, CoreCtx.next]

/-- An operand leaves everything but X and Y of the core as it was. -/
theorem bumped_p (c : CoreSt) (f : Form) (n : Nat) : (bumped c f n).p = c.p := by
  unfold bumped; split <;> (try split) <;> (try split) <;> rfl

theorem OperandIs.p {s t : State} {k : EcCore} {f : Form} {d : CoreSt} {v : Word} (h : OperandIs s k f t d v) :
    d.p = (coreGet s k).p := by
  rcases h with ⟨_, _, rfl⟩ | ⟨_, _, _, _, rfl⟩
  · rfl
  · exact bumped_p _ _ _

theorem NarrowIs.p {s t : State} {k : EcCore} {f : Form} {n : Nat} {d : CoreSt} {v : Word} (h : NarrowIs s k f n t d v) :
    d.p = (coreGet s k).p := by
  obtain ⟨_, _, _, _, rfl⟩ := h
  exact bumped_p _ _ _

theorem StoreIs.p {s t : State} {k : EcCore} {f : Form} {n : Nat} {d : CoreSt} {v : Word} (h : StoreIs s k f n v t d) :
    d.p = (coreGet s k).p := by
  obtain ⟨_, _, _, _, _, rfl⟩ := h
  exact bumped_p _ _ _

end Sys2Proof.Machine
end

