-- ==== Sys2Proof/Laws/Memory.lean ====
section
/-! SUPPORT. The laws of the byte memories: every operation keeps the canonical form; a read after a write. -/

namespace Sys2Proof.Machine

/-- Writing one byte keeps the canonical form. -/
theorem memSet_wf {m : List Host.Cell} {a : Nat} {b : Byte} (h : Memory.wf m = true) : Memory.wf (memSet m a b) = true :=
  storeSet_wf h

/-- Writing consecutive bytes keeps the canonical form. -/
theorem memSetList_wf {m : List Host.Cell} {a : Nat} {bs : List Byte} (h : Memory.wf m = true) :
    Memory.wf (memSetList m a bs) = true := by
  induction bs generalizing m a with
  | nil => exact h
  | cons b bs ih => exact ih (memSet_wf h)

/-- Writing a word keeps the canonical form. -/
theorem memSetWord_wf {m : List Host.Cell} {a : Nat} {w : Word} (h : Memory.wf m = true) : Memory.wf (memSetWord m a w) = true :=
  memSetList_wf h

/-- Returning a block to the default keeps the canonical form. -/
theorem memClear_wf {m : List Host.Cell} {lo hi : Nat} (h : Memory.wf m = true) : Memory.wf (memClear m lo hi) = true := storeKeep_wf h

/-- The byte written is read back. -/
theorem memGet_set_same {m : List Host.Cell} {a : Nat} {b : Byte} (h : Memory.wf m = true) : memGet (memSet m a b) a = b :=
  storeGet_set_same h

/-- Every other byte reads as before. -/
theorem memGet_set_ne {m : List Host.Cell} {a x : Nat} {b : Byte} (h : Memory.wf m = true) (hx : x ≠ a) :
    memGet (memSet m a b) x = memGet m x := storeGet_set_ne h hx

/-- Outside the bytes of a block write every byte reads as before. -/
theorem memGet_setList_out {m : List Host.Cell} {a x : Nat} {bs : List Byte} (h : Memory.wf m = true)
    (hx : x < a ∨ a + bs.length ≤ x) : memGet (memSetList m a bs) x = memGet m x := by
  induction bs generalizing m a with
  | nil => rfl
  | cons b bs ih =>
    simp only [List.length_cons] at hx
    simp only [memSetList]
    rw [ih (memSet_wf h) (by omega), memGet_set_ne h (by omega)]

/-- A block written is read back. -/
theorem memGetList_setList {m : List Host.Cell} {a : Nat} {bs : List Byte} (h : Memory.wf m = true) :
    memGetList (memSetList m a bs) a bs.length = bs := by
  induction bs generalizing m a with
  | nil => rfl
  | cons b bs ih =>
    simp only [memSetList, List.length_cons, memGetList]
    rw [ih (memSet_wf h), memGet_setList_out (memSet_wf h) (by omega), memGet_set_same h]

/-- The number that the bytes of a word spell is the word. -/
theorem bytesToNat_wordBytes (w : Word) : bytesToNat (wordBytes w) = w.toNat := by
  have := w.isLt
  simp only [wordBytes, bytesToNat, BitVec.extractLsb'_toNat, Nat.shiftRight_eq_div_pow]
  omega

/-- A word stored is read back. -/
theorem memWord_setWord {m : List Host.Cell} {a : Nat} {w : Word} (h : Memory.wf m = true) : memWord (memSetWord m a w) a = w := by
  have hl := memGetList_setList (m := m) (a := a) (bs := wordBytes w) h
  simp only [wordBytes, List.length_cons, List.length_nil] at hl
  unfold memWord memSetWord wordBytes
  rw [hl]
  have := bytesToNat_wordBytes w
  unfold wordBytes at this
  rw [this]
  simp

end Sys2Proof.Machine
end

