-- ==== Sys2Proof/Machine/Terminals.lean ====
section
/-! DEFINITION. The terminals of the module, their places, and the budgets of a hot base (24). -/

namespace Sys2Proof.Machine

/-- Terminal types: power and signal (R524). -/
inductive TermType where
  | power | signal
  deriving DecidableEq, Repr

/-- Terminals 1 to 72 are of the power field, 73 to 384 of the signal field (R525). -/
def termType (n : Nat) : TermType := if n ≤ 72 then .power else .signal

/-- Continuous current of a terminal type in A (R524, 24 Table 1). -/
def TermType.amps : TermType → Nat
  | .power => 30
  | .signal => 3

/-- A function that has terminals of its own, by its number (R525, 24 Table 2). -/
inductive TermFn where
  | hsc (n : Fin 72)
  | hb (n : Fin 12)
  | bank (n : Fin 4)
  | sol (n : Fin 16)
  | string (n : Fin 4) (node : Fin 16)
  | row (n : Fin 12)
  | col (n : Fin 24)
  | chain (n : Fin 4)
  | lfa (n : Fin 4) (neg : Bool)
  | swi (n : Fin 64)
  | lin (n : Fin 6)
  deriving DecidableEq, Repr

/-- The terminal of a function (24 Table 2). -/
def termNo : TermFn → Nat
  | .hsc n => if n.val < 32 then 15 + n else 41 + n
  | .hb n => 47 + n
  | .bank n => 59 + n
  | .sol n => 113 + n
  | .string n k => 129 + 16 * n + k
  | .row n => 194 + n
  | .col n => 206 + n
  | .chain n => 230 + n
  | .lfa n neg => 235 + 2 * n + neg.toNat
  | .swi n => 243 + n
  | .lin n => 315 + n

/-- Place of terminal `n` from the module's centre, x and y in 0.01 mm (R526). -/
def termPlace (n : Nat) : Int × Int :=
  if n ≤ 72 then
    let r := (n - 1) / 24
    let c := (n - 1) % 24
    (-3105 + 270 * c, 1950 - 300 * r)
  else
    let m := n - 73
    let r := m / 26
    let c := m % 26
    (-2500 + 200 * c, 800 - 200 * r)

/-- The most that a budget of GOV may be committed at for a base of `tc` °C in service: the reset value up to 85 °C (R538). -/
def budgetAt (reset tc : Nat) : Nat := if tc ≤ 85 then reset else reset * (145 - tc) / 60

end Sys2Proof.Machine
end

