-- ==== Sys2Proof/WellFormed.lean ====
section
/-! DEFINITION. Which commands can be given: an operand that is a list has the length that the message, the frame or the sequencer
gives it, and names no unit twice. Every other operand's type says its range. -/

namespace Sys2Proof

/-- No entry stands twice. -/
def distinct {α : Type} [DecidableEq α] : List α → Bool
  | [] => true
  | a :: l => !l.contains a && distinct l

/-- Codes of a tick (07 Table 1): no output twice, four supplies, and protection samples that stand for at most 20 µs each
and together for at most the 8,000 PWR clocks of 100 µs (R123). -/
def tickOk (m : TickSamples) : Bool :=
  distinct (m.prot.map Prod.fst) && distinct (m.imeas.map Prod.fst) && distinct (m.vout.map Prod.fst) &&
    distinct (m.temp.map Prod.fst) && distinct (m.hbi.map Prod.fst) && distinct (m.lst.map Prod.fst) &&
    decide (m.vdie.length = 4) && m.prot.all fun e => e.2.all (fun x => decide (x.2 ≤ 1600)) && decide ((e.2.map Prod.snd).foldl (· + ·) 0 ≤ 8000)

/-- What the governor takes (12 Table 11): a voltage for each of the 24 matrix columns, no valve twice. -/
def lossOk (m : LossSamples) : Bool := decide (m.colV.length = 24) && distinct (m.valve.map Prod.fst)

/-- 1 to 63 data words (15 Table 5). -/
def wordsOk (l : List Word) : Bool := decide (1 ≤ l.length) && decide (l.length ≤ 63)

/-- Data bytes of a CAN frame by its DLC; at most 8 in a classical one (18 Table 1). -/
def canBytes (fdf : Bool) (dlc : Nat) : Nat :=
  if dlc ≤ 8 then dlc
  else if !fdf then 8
  else [12, 16, 20, 24, 32, 48, 64].getD (dlc - 9) 64

/-- A CAN frame holds the bytes that its DLC says; a standard identifier stands in bits 28:18. -/
def canOk (f : CanFrame) : Bool :=
  decide (f.data.length = canBytes f.fdf f.dlc.toNat) && (f.ide || decide (f.id.toNat % 2 ^ 18 = 0))

/-- Traffic in LISTEN: a CAN frame as above. -/
def trafficOk : ListenTraffic → Bool
  | .can _ f => canOk f
  | .lin _ _ data _ => decide (data.length ≤ 8)
  | .linWake _ => true

/-- The command can be given. -/
def Instr.wf : Instr → Bool
  | .qualifyingTraffic h _ => trafficOk h.t
  | .pollBurst _ heard _ _ _ => decide (heard.length ≤ 4)
  | .recoveryDownloadMessage data => decide (data.length ≤ 4095)
  | .fuseEngineTick m => tickOk m
  | .baseTempRefresh _ refs => decide (refs.length = 4)
  | .wearMeasurement _ currents => decide (currents.length ≤ 9)
  | .coilModelUpdate pairs power => distinct (pairs.map Prod.fst) && distinct (power.map Prod.fst)
  | .governorTick m => lossOk m
  | .wr _ _ _ ws => wordsOk ws
  | .rdq _ _ _ n => decide (1 ≤ n.toNat) && decide (n.toNat ≤ 63)
  | .rdp _ _ ws => decide (ws.length ≤ 63)
  | .bulk _ _ _ _ ws => wordsOk ws
  | .hostWrite _ _ len ws _ _ => decide (ws.length = len.toNat)
  | .attreq nonce _ => decide (nonce.length = 16)
  | .memwr _ _ count ws _ _ => decide (ws.length = count.toNat)
  | .canFrameReceived _ f _ => canOk f
  | .linFrame _ _ _ m => decide (m.data.length ≤ 8)
  | .nmMessageReceived _ data => decide (data.length = 8)
  | .powerOn | .powerLoss | .resetPin | .registerWrite .. | .pageCommit .. | .commitCheckDone | .periodBoundaryApply ..
  | .pageAbort .. | .pageEnable .. | .pageLock .. | .pforceWrite .. | .pfltClear .. | .pstatClear .. | .protClr ..
  | .pmuWriteApply | .acctclrMask .. | .acctclrFwake .. | .acctclrRefuse .. | .sysClockLoss | .clockMonitorWindow ..
  | .mreqRun .. | .mreqPark .. | .mreqLimp .. | .idleTimerExpiry .. | .parkQuiesceEnd .. | .parkT2 .. | .parkT3 ..
  | .wakeBusActivity .. | .wakeCanPattern .. | .wakeLinPulse .. | .wakeHorn .. | .wakeStrongInput .. | .wakeRtcAlarm ..
  | .wakeSideband .. | .listenTimeout | .scheduleEnd | .cyclicSenseBurst .. | .cyclicConfirmBurst .. | .pollStepEnd
  | .swrst .. | .wdkick .. | .watchdogExpiry | .rstClrCount .. | .reflexLoadComplete .. | .romBoot .. | .endOfBoot
  | .recoveryDownloadEnd | .hscCmdWrite .. | .hscCmds .. | .hscCmdc .. | .hscDutyWrite .. | .pulseStart .. | .pulseEnd ..
  | .chargeComplete .. | .chargeTimeout .. | .hardShortTrip .. | .thermalLatch .. | .latchRelease .. | .deltaTLatch ..
  | .deltaTRelease .. | .restartDelayExpiry .. | .restart .. | .retryCountClear .. | .inrushWindowEnd ..
  | .segmentSubstitute .. | .offStateCheckStart .. | .offStatePhaseEnd .. | .diagResultTimeout .. | .sliceReferenceCheck ..
  | .sliceSubstitute .. | .streamSampleWrite .. | .hbCmdWrite .. | .hbDutyWrite .. | .hbPosWrite .. | .reversalPauseEnd ..
  | .currentLimitAct .. | .stallTrip .. | .rippleAccepted .. | .rippleInserted .. | .standstill .. | .parkTimeout ..
  | .solCmdWrite .. | .solTrig .. | .boostPeakReached .. | .boostTimeout .. | .holdChop .. | .trigHoldExpiry ..
  | .decayEnd .. | .decayNozeroTimeout .. | .closingDetected .. | .closingWindowExpiry .. | .deferralTimeout ..
  | .boostUndervoltage .. | .boostOvervoltage .. | .boostOvercurrent | .bankSwitchFault | .bankSelApply ..
  | .lstCmdWrite .. | .stringFrameBoundary .. | .softStartEnd .. | .ledOpenDetect .. | .ledShortDetect .. | .stringOvp ..
  | .stringShortTrip .. | .lmxCmdWrite .. | .matrixFrameBoundary .. | .matrixLedOpen .. | .matrixRowShort ..
  | .matrixColumnStb .. | .frmWrite .. | .frmcArm .. | .swapTrigger .. | .mirrorCopyDone | .playerStart .. | .playerStop ..
  | .playerCopyDone .. | .frmcClrMiss .. | .lchCmdWrite .. | .chainFrameBoundary .. | .chainFrameLatch ..
  | .chainLineShort .. | .switchInputRawChange .. | .debounceExpiry .. | .cleaningPulseEnd ..
  | .analogueComparatorSample .. | .inputOvervoltage .. | .reflexPulseExpiry .. | .rfxTglClear .. | .rfxInhWrite ..
  | .govLogPop .. | .interruptEntry .. | .ld .. | .st .. | .ldx .. | .ldy .. | .stx .. | .sty .. | .adrx .. | .adry ..
  | .ld16 .. | .ld8 .. | .st16 .. | .st8 .. | .swap .. | .stz .. | .push .. | .pop .. | .mvr .. | .add .. | .adc ..
  | .sub .. | .sbc .. | .cmp .. | .and .. | .or .. | .xor .. | .tst .. | .cpx .. | .cpy .. | .addx .. | .addy .. | .adds ..
  | .ldb .. | .mul .. | .mac .. | .sat .. | .sat12 .. | .shl .. | .shr .. | .asr .. | .neg .. | .not .. | .clr ..
  | .exth .. | .extb .. | .inc .. | .dec .. | .abs .. | .lds12 .. | .sts12 .. | .pk12 .. | .unpk12 .. | .movb .. | .jmp ..
  | .jsr .. | .rts .. | .rti .. | .bccShort .. | .bccLong .. | .wfeL .. | .wfeH .. | .waitComplete .. | .sev .. | .wtu ..
  | .wtuComplete .. | .wtxL .. | .wtxH .. | .wtxComplete .. | .rep .. | .repi .. | .nop .. | .ei .. | .di .. | .evfRaise ..
  | .evfOvrRead .. | .tbsCapture .. | .tbsCmpWrite .. | .tbsCompare .. | .beaconTimeout | .dmaStart .. | .dmaStop ..
  | .dmaTrigger .. | .dmaBlockDone .. | .mbxBell .. | .mbxTake .. | .frameForward .. | .frameOriginate .. | .err .. | .ringLock .. | .evt ..
  | .beacon .. | .hopreq .. | .hoprsp .. | .enum .. | .heartbeat .. | .inputLocked .. | .inputLost .. | .unwrap
  | .requestTimeout .. | .jxrCtlEnum .. | .autoEnum | .jxrCtlHorn .. | .jxrCtlMeas .. | .hopMeasurement | .beaconSend ..
  | .jxrEvtx .. | .evtRepeat | .hornAbsorbed .. | .jxrClr .. | .windowWrite .. | .windowRead .. | .splitReadRequest ..
  | .slotFree .. | .delayedReadExpiry .. | .logpopElog .. | .logpopOlog .. | .semacq .. | .semrel .. | .semaphoreTimeout ..
  | .unpoison .. | .unpoisonAll .. | .pollRound .. | .workerBeaconLoss | .hostNop .. | .hostRead .. | .rdbuf .. | .hostReadComplete
  | .hostWriteIssued | .hostFrameAbort .. | .hptClr .. | .getmode | .getfault | .attstat | .attrd .. | .reqlimp ..
  | .reqreset .. | .reqrecov .. | .memst | .memrd .. | .smbusTimeout | .sbpClr .. | .canTxreq .. | .canTxcan .. | .canTransmitDone ..
  | .canRxriWrite .. | .canRecov .. | .busoffRecoveryDone .. | .txdDominantTimeout .. | .canLecRead .. | .linSched ..
  | .linHalt .. | .linSleep .. | .linWake .. | .linSlotEnd .. | .linSilenceTimeout .. | .linWakePulse .. | .linBusShort ..
  | .linLerrRead .. | .nmRingHoldExpiry | .nmSuccessorTimeout | .nmRingLoss | .nmStartupTimeout | .wbsExpiry
  | .nmReadinessChange | .limphomeTimer | .immStart .. | .deauth .. | .lfId .. | .lfC1 .. | .lfAck .. | .lfBlk ..
  | .replyWindowExpiry .. | .sessionLockExpiry | .releaseMessage | .lfDriverFault .. | .info .. | .random .. | .seal ..
  | .vltOpen .. | .cmac .. | .vcmac .. | .derive .. | .vltImport .. | .delete .. | .inval .. | .learn .. | .attest ..
  | .vltAttrd .. | .rolladv .. | .lcadv .. | .vltCommandComplete | .vltRel .. | .vltClaimTimeout | .remask | .rngHealthFail
  | .tamperEvent .. | .confirm .. | .setsel .. | .setselrst .. | .prechk .. | .install .. | .distributionStart ..
  | .distributionStop .. | .distributionDone | .trialRecordWrite | .trialExpiry | .faultEvent .. | .fltAck ..
  | .fltAckAll .. | .fltAkick .. | .kickTimeout | .resetCountClear | .fltNewcntRead .. | .prog .. | .erase .. | .format ..
  | .xspCommandDone .. | .xspBusyTimeout | .journalCopy .. | .jrnRseqWrite .. | .jrnFetchDone | .jrnClrTotal ..
  | .jrnLostRead .. | .mramRowSubstitute .. | .keySlotSubstitute .. | .sysClockReturn | .boostUndervoltageEnd ..
  | .boostOvervoltageEnd .. | .bandGapReferenceMismatch | .canReceiveError .. | .updCommandComplete | .memwrIssueComplete
  | .attreqReportReady | .pstateRefusedClear | .limiterTurnOnAgain .. | .minimumHoldExpiry .. => true

end Sys2Proof
end

