-- ==== Sys2Proof/Tests/Slice0.lean ====
section
/-! SUPPORT. Tests of the model: ill-formed commands that WellFormed refuses, numbers worked out in the spec, and for every statement of
Certificates/Slice0/Obligations.lean a state and operands, for each clause, that meet all its hypotheses together. -/

open Sys2Proof Sys2Proof.Machine

set_option maxRecDepth 20000
set_option Elab.async false

namespace Sys2Proof.Tests

/-! ### Small states -/

/-- The device in RUN, its reflex rules and its manifest loaded, its slot chosen. -/
def rS : State :=
  setF { State.reset with mode := .run, rfxLoaded := true, upd := { State.reset.upd with chosen := true } } 5 H.EPOCH 1

/-- EC3 holds every right on page `p`. -/
def giv (s : State) (p : Nat) : State := wr s 0x05 (0x400 + 4 * p) 0xF00

/-- Page `p` has accepted a commit and is enabled. -/
def up (s : State) (p : Nat) : State := setF (setF s p H.EPOCH 1) p H.ENABLE 1

/-- Page `p`, configured, enabled, EC3's. -/
def upg (s : State) (p : Nat) : State := giv (up s p) p

/-- Field `f` of the configuration in force of page `p`. -/
def put (s : State) (p : Nat) (f : Fld) (v : Nat) : State :=
  { s with applied := storeSet regReset s.applied (rkey p f.off) (fset (cfgW s p f.off) f v) }

/-- Every store of `s` is canonical. -/
def canonB (s : State) : Bool :=
  (storeWf regReset s.regs && storeWf regReset s.applied && Memory.wf s.mem && storeWf coreDefault s.ec &&
    storeWf (fun _ => CanSt.init) s.can && storeWf (fun _ => LinSt.init) s.lin && storeWf (fun _ => HscSt.init) s.hsc &&
    storeWf (fun _ => HbSt.init) s.hb && storeWf (fun _ => SolSt.init) s.sol && storeWf (fun _ => LstSt.init) s.lst &&
    storeWf (fun _ => LchSt.init) s.lch) &&
    (storeWf (fun _ => 15) s.flt.opened && storeWf (fun _ => (0 : Word)) s.vlt.otp && storeWf keyDefault s.vlt.keys && storeWf (fun _ => none) s.vlt.kram)

theorem canon_of {s : State} (h : canonB s = true) : Canon s := by
  simp only [canonB, Bool.and_eq_true] at h
  obtain ⟨⟨⟨⟨⟨⟨⟨⟨⟨⟨⟨a, b⟩, c⟩, d⟩, e⟩, f⟩, g⟩, i⟩, j⟩, k⟩, l⟩, ⟨⟨m, n⟩, o⟩, p⟩ := h
  exact ⟨a, b, c, d, e, f, g, i, j, k, l, m, n, o, p⟩

theorem mayWrite_of {s : State} {w : Who} {p o : Nat}
    (h : (running s && !pageStands s p && (blkOf p).isSome && (rightsOf s (whoKind w) p).testBit (writeRight o) && (p ≠ 6 || w = .ec3)) = true) :
    MayWrite s w p o := by
  simp only [Bool.and_eq_true, Bool.or_eq_true, Bool.not_eq_true', decide_eq_true_eq] at h
  obtain ⟨⟨⟨⟨a, n⟩, b⟩, c⟩, d⟩ := h
  exact ⟨a, n, b, c, fun e => d.resolve_left (fun k => k e)⟩

theorem mayRead_of {s : State} {w : Who} {p : Nat}
    (h : (running s && !pageStands s p && (blkOf p).isSome && (rightsOf s (whoKind w) p).testBit 0 && (p ≠ 6 || w = .ec3)) = true) :
    MayRead s w p := by
  simp only [Bool.and_eq_true, Bool.or_eq_true, Bool.not_eq_true', decide_eq_true_eq] at h
  obtain ⟨⟨⟨⟨a, n⟩, b⟩, c⟩, d⟩ := h
  exact ⟨a, n, b, c, fun e => d.resolve_left (fun k => k e)⟩

theorem mayCommand_of {s : State} {w : Who} (h : (running s && !pageStands s 6 && vltReach s w && !vltClaimed s (whoKind w)) = true) :
    MayCommand s w := by
  simp only [Bool.and_eq_true, Bool.not_eq_true'] at h
  exact ⟨h.1.1.1, h.1.1.2, h.1.2, h.2⟩

theorem ready_of {s : State} {k : EcCore} {n : Nat}
    (h : (running s && !sysLost s && decide ((coreGet s k).st = 1) && decide ((coreGet s k).wait = .none) && !(coreGet s k).rep &&
      !(coreGet s k).e && !(coreGet s k).repNew && fetchOk s k (coreGet s k).p n) = true) : CoreReady s k n := by
  simp only [Bool.and_eq_true, Bool.not_eq_true', decide_eq_true_eq] at h
  obtain ⟨⟨⟨⟨⟨⟨⟨a, n⟩, b⟩, c⟩, d⟩, e⟩, f⟩, g⟩ := h
  exact ⟨a, n, b, c, ⟨d, e, f⟩, g⟩

/-- PCRC holds the CRC-32 of the shadow of page `p`. -/
def crcd (s : State) (p : Nat) : State := wr s p 0x014 (crc32 (shadowBytes s p))

/-- The device asleep, in PARK or WATCH. -/
def zS (m : Mode) : State := { State.reset with mode := m }

/-- The device in BOOT with a directory that names generation 1, whose reflex record has the CRC `c`. -/
def dirS (c : Nat) : State :=
  let s := dirWrite State.reset 1
  { s with mem := memSetList s.mem (recBase 1 0 + 4) (natToBytes 4 c) }

/-- EC3 runs, at the first address of the ROM, with X, Y in its TCM. -/
def cM : State := coreSet rS .ec3 { CoreSt.init with st := 1, x := 0x01000100, y := 0x01000200 }

/-- An operand: an immediate of five bits, the word at X + 4 n, the word at X with post-increment, ext. -/
def gI (v : BitVec 5) : GForm := ⟨1, v, 0⟩
def gX (n : BitVec 5) : GForm := ⟨5, n, 0⟩
def gU : GForm := ⟨10, 0, 0⟩
def gA (a : Word) : GForm := ⟨4, 0, a⟩

/-- EC3 with event line 0 pending and enabled at level 0 (vector 16), its vectors in its TCM. -/
def irqS : State :=
  put (put (setF (coreSet rS .ec3 { CoreSt.init with st := 1, i := true }) 0xA3 (R.EC.EVPEND.PEND 0) 1) 0xA3 (R.EC.VPRI.EN 2 0) 1) 0xA3
    R.EC.VBASE.BASE 0x4000

/-- DMA channel 15 moves one word within SRAM for EC3. -/
def dmaS : State :=
  { setF (setFlag (put rS 0x0F (R.DMA.CNT.BLK 15) 1) 0x0F (R.DMA.STAT.BUSY 15) true) 0x0F (R.DMA.STAT.BLEFT 15) 2 with
    committer := [(0x0F, 3)], dmaSrc := [(15, 0x20000000)], dmaDst := [(15, 0x20000004)] }


/-- A worker on the ring, at address 5. -/
def wkS : State := put (setFlag (setF (up rS 0x0B) 0x0B R.JXR.ADDR.ADDR 5) 0x0B R.JXR.ADDR.VALID true) 0x0B R.JXR.ROLE.ROLE 2

/-- The manager of a ring whose devices 1 to 31 are assigned. -/
def mgS : State := wr (put (setFlag (up rS 0x0B) 0x0B R.JXR.ADDR.VALID true) 0x0B R.JXR.ROLE.ROLE 1) 0x0B 0x200 0xFFFFFFFF

/-- A manager without workers. -/
def lonS : State := put (setFlag (up rS 0x0B) 0x0B R.JXR.ADDR.VALID true) 0x0B R.JXR.ROLE.ROLE 1

/-- A read of device 1 by EC3, waiting for its response under SEQ 7. -/
def rdReq : BrgReq := ⟨3, 1, 0x20104, 1, [], 1, 0, true, 0⟩
def polReq : BrgReq := ⟨0, 1, 0xA100, 1, [], 3, 33, true, 0⟩
def wrReq : BrgReq := ⟨3, 1, 0x20104, 0, [9], 0, 32, true, 0⟩
def mgO (r : BrgReq) (k : Nat) : State := { mgS with brg := { BrgSt.init with outst := [⟨r, 7, k⟩] } }

/-- The side-band port holds every right on page 0x0D. -/
def sbS : State := wr rS 0x05 0x434 0xF0000
def sbW : State := let s := sbpServed sbS 0x31; { s with sbp := { s.sbp with memRes := 0, memN := 0 } }

/-- OTP with the check word of an all-zero root secret, in state OWNED. -/
def otpOwned : Store Word :=
  let h := fit 16 (Config.sha256 (List.replicate 32 0))
  let w (i : Nat) : Word := BitVec.ofNat 32 (bytesToNat ((h.drop (4 * i)).take 4))
  let d : Nat → Word := fun _ => 0
  storeSet d (storeSet d (storeSet d (storeSet d [(72, 0x60606)] 59 (w 3)) 58 (w 2)) 57 (w 1)) 56 (w 0)

theorem own_wf : storeWf (fun _ => (0 : Word)) otpOwned = true :=
  storeSet_wf (storeSet_wf (storeSet_wf (storeSet_wf (by decide))))

/-- Beside the four words of ROOTCHK the lifecycle word is the only one blown. -/
theorem own_other {i : Nat} (h : i < 56 ∨ 59 < i) : storeGet (fun _ => (0 : Word)) otpOwned i = if 72 = i then 0x60606 else 0 := by
  have hb : storeWf (fun _ => (0 : Word)) [(72, 0x60606)] = true := by decide
  unfold otpOwned
  simp only []
  rw [storeGet_set_ne (storeSet_wf (storeSet_wf (storeSet_wf hb))) (by omega), storeGet_set_ne (storeSet_wf (storeSet_wf hb)) (by omega),
    storeGet_set_ne (storeSet_wf hb) (by omega), storeGet_set_ne hb (by omega)]
  simp [storeGet]

/-- Word `j` of ROOTCHK. -/
theorem own_chk {j : Nat} (h : j < 4) : storeGet (fun _ => (0 : Word)) otpOwned (56 + j) =
    BitVec.ofNat 32 (bytesToNat (((fit 16 (Config.sha256 (List.replicate 32 0))).drop (4 * j)).take 4)) := by
  have hb : storeWf (fun _ => (0 : Word)) [(72, 0x60606)] = true := by decide
  unfold otpOwned
  simp only []
  interval_cases j
  · rw [storeGet_set_same (storeSet_wf (storeSet_wf (storeSet_wf hb)))]
  · rw [storeGet_set_ne (storeSet_wf (storeSet_wf (storeSet_wf hb))) (by omega), storeGet_set_same (storeSet_wf (storeSet_wf hb))]
  · rw [storeGet_set_ne (storeSet_wf (storeSet_wf (storeSet_wf hb))) (by omega), storeGet_set_ne (storeSet_wf (storeSet_wf hb)) (by omega),
      storeGet_set_same (storeSet_wf hb)]
  · rw [storeGet_set_ne (storeSet_wf (storeSet_wf (storeSet_wf hb))) (by omega), storeGet_set_ne (storeSet_wf (storeSet_wf hb)) (by omega),
      storeGet_set_ne (storeSet_wf hb) (by omega), storeGet_set_same hb]

/-- An owned device in RUN whose ATTREQ is under way. -/
def attOkS : State := { rS with sbp := { SbpSt.init with attSt := 1 }, vlt := { VltSt.init with otp := otpOwned, parents := 2 } }

theorem nat_bytes (a b c d : Byte) : natToBytes 4 (BitVec.ofNat 32 (bytesToNat [a, b, c, d])).toNat = [a, b, c, d] := by
  have ha := a.isLt; have hb := b.isLt; have hc := c.isLt; have hd := d.isLt
  simp only [natToBytes, bytesToNat, BitVec.toNat_ofNat]
  refine List.ext_getElem (by simp) ?_
  intro i h1 h2
  simp only [List.length_cons, List.length_nil] at h1
  apply BitVec.eq_of_toNat_eq
  interval_cases i <;> simp only [List.getElem_cons_succ, List.getElem_cons_zero, BitVec.toNat_ofNat] <;> omega

theorem list16 (l : List Byte) (h : l.length = 16) : ∃ a b c d e f g i j k m n o p q r, l = [a, b, c, d, e, f, g, i, j, k, m, n, o, p, q, r] := by
  match l, h with
  | [a, b, c, d, e, f, g, i, j, k, m, n, o, p, q, r], _ => exact ⟨a, b, c, d, e, f, g, i, j, k, m, n, o, p, q, r, rfl⟩

theorem fit_length (n : Nat) (l : List Byte) : (fit n l).length = n := by
  simp [fit]

theorem root_own (s : State) (h : s.vlt.otp = otpOwned) : rootCopy s = some 0 := by
  have e : otpBytes s 0 8 = List.replicate 32 0 := by
    have g : ∀ i, i < 8 → otpWord s (0 + i) = 0 := fun i hi => by
      unfold otpWord
      rw [h, own_other (by omega), if_neg (by omega)]; rfl
    simp only [otpBytes, List.range, List.range.loop, List.flatMap_cons, List.flatMap_nil, g 0 (by omega), g 1 (by omega), g 2 (by omega),
      g 3 (by omega), g 4 (by omega), g 5 (by omega), g 6 (by omega), g 7 (by omega)]
    rfl
  have c : otpBytes s 56 4 = fit 16 (Config.sha256 (List.replicate 32 0)) := by
    have g : ∀ j, j < 4 → otpWord s (56 + j) = (BitVec.ofNat 32 (bytesToNat
        (((fit 16 (Config.sha256 (List.replicate 32 0))).drop (4 * j)).take 4))).toNat := fun j hj => by
      unfold otpWord
      rw [h, own_chk hj]
    simp only [otpBytes, List.range, List.range.loop, List.flatMap_cons, List.flatMap_nil, g 0 (by omega), g 1 (by omega), g 2 (by omega),
      g 3 (by omega)]
    obtain ⟨a1, a2, a3, a4, b1, b2, b3, b4, c1, c2, c3, c4, d1, d2, d3, d4, hl⟩ :=
      list16 (fit 16 (Config.sha256 (List.replicate 32 0))) (fit_length _ _)
    simp only [hl, List.take, List.drop, Nat.reduceMul]
    simp only [nat_bytes, List.append_nil, List.cons_append, List.nil_append]
  simp [rootCopy, List.range, List.range.loop, e, c]

/-- A device in BOOT whose OTP says SCRAPPED. -/
def scrS : State := { State.reset with vlt := { State.reset.vlt with otp := [(72, 0x101010)] } }

theorem scr_lcs : lcs scrS = 4 := by
  unfold lcs
  split
  · rename_i h; exact absurd h (by decide +kernel)
  · split
    · rfl
    · decide +kernel

theorem att_canon : Canon attOkS :=
  have h : Canon { attOkS with vlt := { attOkS.vlt with otp := [] } } := canon_of (by decide +kernel)
  { h with otp := own_wf }

theorem att_ok : attRefused attOkS = 0 := by
  have hw : otpWord attOkS 72 = 0x60606 := by
    unfold otpWord
    rw [show attOkS.vlt.otp = otpOwned from rfl, own_other (by omega)]; rfl
  have hb : lcsBits attOkS = 2 := by unfold lcsBits; rw [hw]; decide +kernel
  have hq : parentUsable attOkS 3 = true := by unfold parentUsable; rw [hb]; decide +kernel
  have hk : keyGet attOkS 8 = keyDefault 8 := by decide +kernel
  have hn : (keyGet attOkS 3).gen = 0 := by decide +kernel
  have hu : keyUsable attOkS 8 = true := by
    unfold keyUsable keyUsableN keyUsableN
    simp [hk, keyDefault, KeyRec.none, hq, hn]
  have ht : tamperState attOkS = false := by decide +kernel
  have hr := root_own attOkS rfl
  have hp : getF attOkS 0x03 R.RST.BOOT.PHASE ≠ 5 := by decide +kernel
  simp [attRefused, ht, lcs, hb, hr, hu, hp]

/-- CAN 3 on its bus in ACTIVE, its elements in SRAM under EC3's rights. -/
def canS : State :=
  put (put { setF (up rS 0x13) 0x13 R.CAN.STAT.STATE 1 with committer := [(0x13, 3)] } 0x13 R.CAN.RXBASE.ADDR 0x20010000) 0x13
    R.CAN.TXBASE.ADDR 0x20020000

/-- LIN 5 on: commander or responder, in STATE `st`. -/
def linS (role st : Nat) : State := put (setF (up rS 0x19) 0x19 R.LIN.STAT.STATE st) 0x19 R.LIN.MODE.ROLE role

/-- NMG node 9 on CAN 3 in STATE `st`, with node 20 present. -/
def nmS (st : Nat) : State := nmgSetPres (put (put (setF (up rS 0x0C) 0x0C R.NMG.STAT.STATE st) 0x0C R.NMG.CFG.NODE 9) 0x0C R.NMG.CFG.MEDIUM 3) (2 ^ 9 + 2 ^ 20)

/-- IMM under way on antenna 3, the last, awaiting the reply of phase `ph`; token slot 5 and the release key are held. -/
def imB (ph : Nat) : State :=
  let s := put (put { rS with imm := { ImmSt.init with phase := ph, ants := [3], slot := 5 } } 0x1A R.IMM.CFG.TTA 0) 0x1A R.IMM.SLEN.EN 0xFF
  setF (setFlag (setFlag { s with vlt := { s.vlt with parents := 2, keys :=
      [(11, { KeyRec.none with held := true, parent := 2 }), (17, { KeyRec.none with held := true, parent := 9 })] } }
    0x06 R.VLT.STAT.RNGOK true) 0x1A R.IMM.STAT.BUSY true) 0x1A (R.IMM.TKID.ID 5) 77

/-- The engine of an authorised token in RUN: CAN 0 on its bus takes FD frames, and the release counter is at work. -/
def relS : State :=
  let s := up { imB 0 with vlt := { (imB 0).vlt with relFresh := true, relMark := 9 } } 0x10
  put (put (setF (setFlag s 0x1A R.IMM.STAT.AUTH true) 0x10 R.CAN.STAT.STATE 1) 0x1A R.IMM.REL.EN 1) 0x10 R.CAN.MODE.FD 1

/-- The reply at the nominal turnaround, clean. -/
def lfR (s : State) (b : List Byte) : LfReply := ⟨BitVec.ofNat 8 (immCfg s R.IMM.CFG.TTA), false, pec b, 12500, 4095⟩

/-- The same device, whose challenge is what it will decrypt from the reply 0. -/
def imC : State :=
  { imB 2 with imm := { (imB 2).imm with rb := (fit 16 (Config.aesDec (fit 16 (keyValue (imB 2) 17)) ((natToBytes 16 0).reverse))).take 8 } }

/-- A key's value rests on the vault alone. -/
theorem keyValueN_congr {s t : State} (h : s.vlt = t.vlt) (n k : Nat) : keyValueN s n k = keyValueN t n k := by
  have root : rootSecret s = rootSecret t := by unfold rootSecret rootCopy lcsBits otpBytes otpWord; rw [h]
  induction n generalizing k with
  | zero => rfl
  | succ n ih =>
    simp only [keyValueN, root, otpBytes, otpWord, keyGet, h, ih]
    rfl

theorem imC_reply :
    (fit 16 (Config.aesDec (fit 16 (keyValue imC (12 + imC.imm.slot))) ((natToBytes 16 (0#128).toNat).reverse))).take 8 = imC.imm.rb := by
  unfold keyValue
  rw [keyValueN_congr (s := imC) (t := imB 2) rfl]
  rfl

/-- A vault whose command `c` is under way. -/
def vcS (c : VltCmd) (len arg : Nat) : State :=
  setF (setF (setFlag (setFlag { wr rS 0x05 0x418 0xFFFFFF with vlt := { VltSt.init with cmd := some c, parents := 2, keys :=
      [(20, { KeyRec.none with held := true, typ := 1, parent := 1, users := 63, usage := 127 })] } }
    0x06 R.VLT.STAT.RNGOK true) 0x06 R.VLT.STAT.BUSY true) 0x06 R.VLT.LEN.LEN len) 0x06 R.VLT.ARG.ARG arg

/-- A UPD command under way. -/
def udS (op : Nat) : State := setFlag (setF rS 0x07 R.UPD.SRES.OP op) 0x07 R.UPD.SRES.BUSY true

/-- Generation 0 holds one record, of the reflex page, all zeros; no directory names it. -/
def genS (s : State) : State :=
  let m := memSetList s.mem (recBase 0 0) [0x1D]
  let crc := wordBytes (crc32 (memGetList m (genBase 0 + 0x40) 0xC50))
  let h := natToBytes 4 0x5445534B ++ natToBytes 2 1 ++ natToBytes 2 1 ++ natToBytes 2 1 ++ natToBytes 2 0 ++ natToBytes 4 0 ++
    natToBytes 4 0xFFFFFFFF ++ natToBytes 4 0xC50 ++ crc ++ List.replicate 32 0
  { s with mem := memSetList m (genBase 0) (h ++ wordBytes (crc32 h)) }

/-- Chip-select 0 is a NOR of 1 MB, enabled and ready. -/
def xsS : State := put (put (put (giv (up rS 0x98) 0x98) 0x98 (R.XSP.CS.EN 0) 1) 0x98 (R.XSP.CS.SIZE 0) 20) 0x98 (R.XSP.GEO.BLK 0) 4

/-- The journal on chip-select 0, two units, with one staged record. -/
def jrS : State :=
  { put (put (up xsS 0x99) 0x99 R.JRN.CFG.EN 1) 0x99 R.JRN.CFG.UNITS 2 with
    jrn := { JrnSt.init with units := 2, ring := [(1, BitVec.ofNat 32 1 :: List.replicate 15 7)] } }

/-- Its record is being written to place 1 of unit 0. -/
def jrT : State :=
  let s := { jrS with jrn := { jrS.jrn with cur := some 0, fill := 1, op := some (.record 1) } }
  { s with jrn := { s.jrn with buf := jrnBuffer s (.record 1) } }

/-- The record of SEQ 1 lies in unit 0, and a fetch runs. -/
def jrF : State :=
  { jrS with jrn := { JrnSt.init with units := 2, firsts := [(0, 2)], fetch := true }, mem := memSetList [] (0x100000000 + 64) [1, 0, 0, 0] }

theorem foldl_same {α β : Type} (f : α → β → α) (l : List β) (a : α) (h : ∀ b ∈ l, f a b = a) : l.foldl f a = a := by
  induction l with
  | nil => rfl
  | cons b l ih =>
    simp only [List.foldl_cons]
    rw [h b (by simp)]
    exact ih fun c hc => h c (by simp [hc])

theorem bytes_zero (n : Nat) : bytesToNat (List.replicate n 0#8) = 0 := by
  induction n with
  | zero => rfl
  | succ n ih => simp [List.replicate_succ, bytesToNat, ih]

theorem words_zero (n i : Nat) : (wordsOf (List.replicate n 0#8)).getD i 0 = 0#32 := by
  unfold wordsOf
  simp only [List.getD_eq_getElem?_getD, List.getElem?_map]
  cases (List.range ((List.replicate n 0#8).length / 4))[i]? with
  | none => rfl
  | some k => simp [List.drop_replicate, List.take_replicate, bytes_zero]

theorem fieldWords_zero (p : Nat) : fieldWords p (wordsOf (List.replicate 2048 0#8)) = List.replicate 512 0#32 := by
  refine List.eq_replicate_iff.mpr ⟨by simp [fieldWords], fun b hb => ?_⟩
  obtain ⟨i, -, rfl⟩ := List.mem_map.mp hb
  split
  · rfl
  · exact words_zero 2048 i

/-- A page whose fields all reset to 0 holds zeros at reset. -/
theorem reset_zero {p off : Nat} (h : ∀ r ∈ pageMap p, r.rst = 0) (hp : p < 0x20 ∧ p ≠ 0x1A) (ho : off < 4096) (h4 : off % 4 = 0) :
    regReset (rkey p off) = 0 := by
  have e1 : rkey p off / 1024 = p := by unfold rkey; omega
  have e2 : rkey p off % 1024 * 4 = off := by unfold rkey; omega
  have hf : ∀ (l : List RegSpec), (∀ r ∈ l, r.rst = 0) → l.foldl (fun m r => m ||| (r.rst <<< r.lo)) 0 = 0 := by
    intro l hl
    refine foldl_same _ l 0 fun r hr => ?_
    rw [hl r hr]; simp
  unfold regReset
  simp only [e1, e2]
  rw [if_neg (by omega), if_neg (by omega), hf (fieldsAt p off) fun r hr => h r (List.mem_of_mem_filter hr)]
  rfl

theorem replicate_getD (n i : Nat) : (List.replicate n 0#32).getD i 0 = 0#32 := by
  rw [List.getD_eq_getElem?_getD, List.getElem?_replicate]; split <;> rfl

/-- Zeros put over the shadow of a page at reset whose reset values are zeros leave it as it is. -/
theorem shadow_zero {s : State} {p : Nat} (hs : s.regs = []) (hr : ∀ r ∈ pageMap p, r.rst = 0) (hp : p < 0x20 ∧ p ≠ 0x1A) :
    shadowPut s p (List.replicate 512 0#32) = s := by
  unfold shadowPut
  apply foldl_same
  intro i hi
  have hi := List.mem_range.mp hi
  have : storeSet regReset s.regs (rkey p (0x800 + 4 * i)) 0#32 = s.regs := by
    have := reset_zero (off := 0x800 + 4 * i) hr hp (by omega) (by omega)
    rw [hs]; simp [storeSet, this]
  rw [replicate_getD]
  unfold wr
  rw [this]

/-- The reflex record of those directories, as the loader takes it. -/
theorem dir_words_bad : fieldWords 0x1D (wordsOf (recImage (dirS 1) 1 0)) = List.replicate 512 0#32 := by
  rw [show recImage (dirS 1) 1 0 = List.replicate 2048 0#8 by decide +kernel, fieldWords_zero]
theorem dir_words_good : fieldWords 0x1D (wordsOf (recImage (dirS 0xf1e8ba9e) 1 0)) = List.replicate 512 0#32 := by
  rw [show recImage (dirS 0xf1e8ba9e) 1 0 = List.replicate 2048 0#8 by decide +kernel, fieldWords_zero]
theorem dir_range : rangeFail (shadowPut (dirS 0xf1e8ba9e) 0x1D (List.replicate 512 0#32)) 0x1D = none := by
  rw [shadow_zero rfl (by decide +kernel) (by decide)]; decide +kernel

/-- The states between the accesses of that interrupt's entry. -/
def irq0 : State := winSet (eventTake irqS .ec3 0) (coreKind .ec3) 0
def irq1 : State := (busWrite irq0 .ec3 false 0x0100FFFC 4 0).1
def irq2 : State := (busWrite irq1 .ec3 false 0x0100FFF8 4 (coreSW (coreGet irqS .ec3))).1
def irq3 : State := (busRead irq2 .ec3 false 0x01000040 4).1
theorem irq_first : busWrite irq0 .ec3 false ((coreGet irqS .ec3).s - 4).toNat 4 (coreGet irqS .ec3).p = (irq1, true) :=
  Prod.ext rfl (by decide +kernel)
theorem irq_second :
    busWrite irq1 .ec3 false ((coreGet irqS .ec3).s - 8).toNat 4 (coreSW (coreGet irqS .ec3)) = (irq2, true) :=
  Prod.ext rfl (by decide +kernel)
theorem irq_vector : busRead irq2 .ec3 false (cfg irq0 (corePg .ec3) R.EC.VBASE.BASE * 1024 + 4 * 16) 4 = (irq3, .val 0) :=
  Prod.ext rfl (by decide +kernel)

/-! ### Ill-formed commands -/

def badCan : CanFrame := { ide := false, fdf := false, brs := false, esi := false, id := 0, dlc := 8, data := [1] }
def noTick : TickSamples :=
  { now := 0, prot := [], imeas := [], vout := [], temp := [], hbi := [], lst := [], vdie := [0, 0, 0, 0], vbat := 0, vbst := 0, bstLim := false }

/-- Every check of WellFormed refuses an ill-formed command: the rows whose operand is a list. -/
theorem test_ill_formed_lists :
    Instr.wf (.qualifyingTraffic ⟨.can 0 badCan, true⟩ true) = false ∧
    Instr.wf (.pollBurst true [.none, .none, .none, .none, .none] 0 0 0) = false ∧
    Instr.wf (.recoveryDownloadMessage (List.replicate 4096 0)) = false ∧
    Instr.wf (.baseTempRefresh 0 [0]) = false ∧
    Instr.wf (.wearMeasurement 0 (List.replicate 10 0)) = false ∧
    Instr.wf (.coilModelUpdate [(1, 0, 0), (1, 0, 0)] []) = false ∧
    Instr.wf (.coilModelUpdate [] [(1, 0), (1, 0)]) = false ∧
    Instr.wf (.wr 0 0 0 []) = false ∧ Instr.wf (.wr 0 0 0 (List.replicate 64 0)) = false ∧
    Instr.wf (.rdq 0 0 0 0) = false ∧ Instr.wf (.rdq 0 0 0 64) = false ∧ Instr.wf (.rdp 0 0 (List.replicate 64 0)) = false ∧
    Instr.wf (.bulk 0 0 false 0 []) = false ∧
    Instr.wf (.hostWrite 0 0 2 [1] 0 0) = false ∧ Instr.wf (.attreq [1] true) = false ∧
    Instr.wf (.memwr 0 0 2 [1] true 0) = false ∧
    Instr.wf (.canFrameReceived 0 badCan 0) = false ∧ Instr.wf (.linFrame 0 0 0 ⟨List.replicate 9 0, 0⟩) = false ∧
    Instr.wf (.nmMessageReceived 0 [1]) = false := by decide +kernel

/-- Each part of the check of a fuse engine tick and of a governor tick refuses its own fault. -/
theorem test_ill_formed_ticks :
    Instr.wf (.fuseEngineTick noTick) = true ∧
    Instr.wf (.fuseEngineTick { noTick with prot := [(0, []), (0, [])] }) = false ∧
    Instr.wf (.fuseEngineTick { noTick with prot := [(0, [(1, 8001)])] }) = false ∧
    Instr.wf (.fuseEngineTick { noTick with imeas := [(0, 0, true), (0, 0, true)] }) = false ∧
    Instr.wf (.fuseEngineTick { noTick with vout := [(0, 0), (0, 0)] }) = false ∧
    Instr.wf (.fuseEngineTick { noTick with temp := [(0, 0), (0, 0)] }) = false ∧
    Instr.wf (.fuseEngineTick { noTick with hbi := [(0, true, 0), (0, true, 0)] }) = false ∧
    Instr.wf (.fuseEngineTick { noTick with lst := [(0, 0, 0), (0, 0, 0)] }) = false ∧
    Instr.wf (.fuseEngineTick { noTick with vdie := [0] }) = false ∧
    Instr.wf (.governorTick ⟨[], [], 0, 0⟩) = false ∧
    Instr.wf (.governorTick ⟨List.replicate 24 0, [(3, 0, 0), (3, 0, 0)], 0, 0⟩) = false := by decide +kernel

/-! ### Numbers of the spec -/

def digits : List Byte := [0x31, 0x32, 0x33, 0x34, 0x35, 0x36, 0x37, 0x38, 0x39]

/-- The check values of R41 and R386. -/
theorem test_check_values : crc32 digits = 0xCBF43926 ∧ crc16 digits = 0x29B1 := by decide +kernel

/-- Table 5 of 05: D_eff and COMPSAT of HSC14 at 27.6 V, 22.0 V and 18.0 V (V_f in 2^-16 of 15 mV, here the nearest below). -/
theorem test_compensated_duty :
    compDuty 2 2400 0 (1840 * 65536) 3000 = (2268, false) ∧ compDuty 2 2400 0 (1200 * 65536) 3000 = (4095, true) ∧
    compDuty 3 1350 800 (960 * 65536) 2048 = (1760, false) := by decide +kernel

/-- The brake rule of 12: word A 0xE003_FC03 and word B 0x0003_FCFF. -/
theorem test_rule_words :
    fget 0xE003FC03 (R.RFX.RULEA.EN 0) = 1 ∧ fget 0xE003FC03 (R.RFX.RULEA.HSAFE 0) = 1 ∧ fget 0xE003FC03 (R.RFX.RULEA.LIMP 0) = 1 ∧
    fget 0xE003FC03 (R.RFX.RULEA.COMB 0) = 0 ∧ fget 0xE003FC03 (R.RFX.RULEA.ACT 0) = 0 ∧ fget 0xE003FC03 (R.RFX.RULEA.GRP 0) = 0 ∧
    fget 0xE003FC03 (R.RFX.RULEA.TERM1 0) = 0xFF ∧ fget 0xE003FC03 (R.RFX.RULEA.TERM0 0) = 3 ∧ fget 0x0003FCFF (R.RFX.RULEB.PLEN 0) = 0 ∧
    fget 0x0003FCFF (R.RFX.RULEB.TERM3 0) = 0xFF ∧ fget 0x0003FCFF (R.RFX.RULEB.TERM2 0) = 0xFF := by decide +kernel

/-- HSC.CFG of HSC12 on the device itself is 0x4002_C804; through the manager's window that of the worker at 517 is 0xA052_C804 (01). -/
theorem test_addresses :
    place .app 0x4002C804 = .page 0x2C 0x804 ∧ place .app 0xA052C804 = .ring 517 0x2C804 ∧ pageAddr 0x2C 0x804 = 0x4002C804 := by
  decide +kernel

/-- Source IDs: FUSE of HSC14 is 369, CFGECC of FLT is 39 (05, R121; 02, R54). -/
theorem test_source_ids : (raiseP rS (hscPage 14) 1).due = [⟨369, false, []⟩] ∧ (raiseP rS 0x04 7).due = [⟨39, false, []⟩] := by
  decide +kernel

/-! ### Statements without a clause of their own -/

/-- A queue of two commands, and three steps. -/
theorem test_hypotheses_QueueServed : ({ rS with pending := [.restart (.hsc 0), .resetPin] } : State).pending.length ≤ 3 := by decide

/-- A step of a canonical state with a command in front. -/
theorem test_hypotheses_StepKeepsCanon : ∃ s t : State, Canon s ∧ s.pending ≠ [] ∧ step s = .next t :=
  ⟨{ rS with pending := [.resetPin] }, _, canon_of (by decide +kernel), by simp, rfl⟩

/-- An effect that leaves nothing to follow. -/
theorem test_hypotheses_SettlingKeepsQuiet : Quiet State.reset := ⟨rfl, rfl, rfl, by decide +kernel, by decide +kernel⟩

/-- A state whose queue is empty. -/
theorem test_hypotheses_StepServesFront : rS.pending = [] := rfl

/-! ### Witnesses of the hypotheses, clause by clause -/

theorem test_hypotheses_CoreArithmetic :
    (∃ (s : State) (t : State) (k : EcCore) (f : Form) (d : CoreSt) (v : Word),
      (CoreReady s k (formLen f)) ∧ (OperandIs s k f t d v)) ∧
    (∃ (s : State) (t : State) (k : EcCore) (f : Form) (d : CoreSt) (v : Word),
      (CoreReady s k (formLen f)) ∧ (OperandIs s k f t d v)) ∧
    (∃ (s : State) (t : State) (k : EcCore) (f : Form) (d : CoreSt) (v : Word),
      (CoreReady s k (formLen f)) ∧ (OperandIs s k f t d v)) ∧
    (∃ (s : State) (t : State) (k : EcCore) (g : GForm) (d : CoreSt) (v : Word),
      (CoreReady s k (modeLen g.m.toNat)) ∧ (OperandIs s k (.g g) t d v)) ∧
    (∃ (s : State) (t : State) (k : EcCore) (g : GForm) (d : CoreSt) (v : Word),
      (CoreReady s k (modeLen g.m.toNat)) ∧ (OperandIs s k (.g g) t d v)) ∧
    (∃ (s : State) (t : State) (k : EcCore) (g : GForm) (d : CoreSt) (v : Word),
      (CoreReady s k (modeLen g.m.toNat)) ∧ (OperandIs s k (.g g) t d v)) ∧
    (∃ (s : State) (t : State) (k : EcCore) (g : GForm) (d : CoreSt) (v : Word),
      (CoreReady s k (modeLen g.m.toNat)) ∧ (OperandIs s k (.g g) t d v)) :=
  ⟨⟨cM, cM, .ec3, .g (gI 31), coreGet cM .ec3, 0xFFFFFFFF, ready_of (by decide +kernel), Or.inl ⟨by decide +kernel, rfl, rfl⟩⟩,
   ⟨cM, cM, .ec3, .g (gI 31), coreGet cM .ec3, 0xFFFFFFFF, ready_of (by decide +kernel), Or.inl ⟨by decide +kernel, rfl, rfl⟩⟩,
   ⟨cM, cM, .ec3, .g (gI 31), coreGet cM .ec3, 0xFFFFFFFF, ready_of (by decide +kernel), Or.inl ⟨by decide +kernel, rfl, rfl⟩⟩,
   ⟨cM, cM, .ec3, gI 31, coreGet cM .ec3, 0xFFFFFFFF, ready_of (by decide +kernel), Or.inl ⟨by decide +kernel, rfl, rfl⟩⟩,
   ⟨cM, cM, .ec3, gI 31, coreGet cM .ec3, 0xFFFFFFFF, ready_of (by decide +kernel), Or.inl ⟨by decide +kernel, rfl, rfl⟩⟩,
   ⟨cM, cM, .ec3, gI 31, coreGet cM .ec3, 0xFFFFFFFF, ready_of (by decide +kernel), Or.inl ⟨by decide +kernel, rfl, rfl⟩⟩,
   ⟨cM, cM, .ec3, gI 31, coreGet cM .ec3, 0xFFFFFFFF, ready_of (by decide +kernel), Or.inl ⟨by decide +kernel, rfl, rfl⟩⟩⟩

theorem test_hypotheses_CoreLoads_1 :
    (∃ (s : State) (t : State) (k : EcCore) (f : Form) (d : CoreSt) (v : Word),
      (CoreReady s k (formLen f)) ∧ (OperandIs s k f t d v)) ∧
    (∃ (s : State) (t : State) (k : EcCore) (f : Form) (d : CoreSt) (v : Word),
      (CoreReady s k (formLen f)) ∧ (OperandIs s k f t d v)) ∧
    (∃ (s : State) (t : State) (k : EcCore) (f : Form) (d : CoreSt) (v : Word),
      (CoreReady s k (formLen f)) ∧ (OperandIs s k f t d v)) ∧
    (∃ (s : State) (t : State) (k : EcCore) (f : Form) (d : CoreSt) (v : Word),
      (CoreReady s k (formLen f)) ∧ (OperandIs s k f t d v)) ∧
    (∃ (s : State) (t : State) (k : EcCore) (f : Form) (d : CoreSt) (v : Word),
      (CoreReady s k (formLen f)) ∧ (OperandIs s k f t d v)) ∧
    (∃ (s : State) (t : State) (k : EcCore) (f : Form) (d : CoreSt) (v : Word),
      (CoreReady s k (formLen f)) ∧ (OperandIs s k f t d v)) ∧
    (∃ (s : State) (t : State) (k : EcCore) (f : Form) (d : CoreSt) (v : Word),
      (CoreReady s k (formLen f)) ∧ (OperandIs s k f t d v)) ∧
    (∃ (s : State) (t : State) (k : EcCore) (g : GForm) (d : CoreSt) (v : Word),
      (CoreReady s k (modeLen g.m.toNat)) ∧ (OperandIs s k (.g g) t d v)) :=
  ⟨⟨cM, cM, .ec3, .g (gI 31), coreGet cM .ec3, 0xFFFFFFFF, ready_of (by decide +kernel), Or.inl ⟨by decide +kernel, rfl, rfl⟩⟩,
   ⟨cM, cM, .ec3, .g (gI 31), coreGet cM .ec3, 0xFFFFFFFF, ready_of (by decide +kernel), Or.inl ⟨by decide +kernel, rfl, rfl⟩⟩,
   ⟨cM, cM, .ec3, .g (gI 31), coreGet cM .ec3, 0xFFFFFFFF, ready_of (by decide +kernel), Or.inl ⟨by decide +kernel, rfl, rfl⟩⟩,
   ⟨cM, cM, .ec3, .g (gI 31), coreGet cM .ec3, 0xFFFFFFFF, ready_of (by decide +kernel), Or.inl ⟨by decide +kernel, rfl, rfl⟩⟩,
   ⟨cM, cM, .ec3, .g (gI 31), coreGet cM .ec3, 0xFFFFFFFF, ready_of (by decide +kernel), Or.inl ⟨by decide +kernel, rfl, rfl⟩⟩,
   ⟨cM, cM, .ec3, .g (gI 31), coreGet cM .ec3, 0xFFFFFFFF, ready_of (by decide +kernel), Or.inl ⟨by decide +kernel, rfl, rfl⟩⟩,
   ⟨cM, cM, .ec3, .g (gI 31), coreGet cM .ec3, 0xFFFFFFFF, ready_of (by decide +kernel), Or.inl ⟨by decide +kernel, rfl, rfl⟩⟩,
   ⟨cM, cM, .ec3, gI 31, coreGet cM .ec3, 0xFFFFFFFF, ready_of (by decide +kernel), Or.inl ⟨by decide +kernel, rfl, rfl⟩⟩⟩

theorem test_hypotheses_CoreLoads_2 :
    (∃ (s : State) (t : State) (k : EcCore) (g : GForm) (d : CoreSt) (v : Word),
      (CoreReady s k (modeLen g.m.toNat)) ∧ (OperandIs s k (.g g) t d v)) ∧
    (∃ (s : State) (t : State) (k : EcCore) (g : GForm) (d : CoreSt) (v : Word),
      (CoreReady s k (modeLen g.m.toNat)) ∧ (OperandIs s k (.g g) t d v)) ∧
    (∃ (s : State) (t : State) (k : EcCore) (g : GForm) (d : CoreSt) (v : Word),
      (CoreReady s k (modeLen g.m.toNat)) ∧ (OperandIs s k (.g g) t d v)) ∧
    (∃ (s : State) (t : State) (k : EcCore) (g : GForm) (d : CoreSt) (v : Word),
      (CoreReady s k (modeLen g.m.toNat)) ∧ (OperandIs s k (.g g) t d v)) :=
  ⟨⟨cM, cM, .ec3, gI 31, coreGet cM .ec3, 0xFFFFFFFF, ready_of (by decide +kernel), Or.inl ⟨by decide +kernel, rfl, rfl⟩⟩,
   ⟨cM, cM, .ec3, gI 31, coreGet cM .ec3, 0xFFFFFFFF, ready_of (by decide +kernel), Or.inl ⟨by decide +kernel, rfl, rfl⟩⟩,
   ⟨cM, cM, .ec3, gI 31, coreGet cM .ec3, 0xFFFFFFFF, ready_of (by decide +kernel), Or.inl ⟨by decide +kernel, rfl, rfl⟩⟩,
   ⟨cM, cM, .ec3, gI 31, coreGet cM .ec3, 0xFFFFFFFF, ready_of (by decide +kernel), Or.inl ⟨by decide +kernel, rfl, rfl⟩⟩⟩

theorem test_hypotheses_CoreNarrowLoads :
    (∃ (s : State) (t : State) (k : EcCore) (g : GForm) (d : CoreSt) (v : Word),
      (CoreReady s k (modeLen g.m.toNat)) ∧ (NarrowIs s k (.g g) 2 t d v)) ∧
    (∃ (s : State) (t : State) (k : EcCore) (g : GForm) (d : CoreSt) (v : Word),
      (CoreReady s k (modeLen g.m.toNat)) ∧ (NarrowIs s k (.g g) 1 t d v)) ∧
    (∃ (s : State) (t : State) (k : EcCore) (g : GForm) (d : CoreSt) (v : Word),
      (CoreReady s k (modeLen g.m.toNat)) ∧ (NarrowIs s k (.g g) 2 t d v)) ∧
    (∃ (s : State) (k : EcCore) (g : GForm) (a : Word),
      (CoreReady s k (modeLen g.m.toNat)) ∧ (g.m ≠ 10) ∧ (g.m ≠ 11) ∧ (formEa (coreGet s k) (.g g) = some a)) ∧
    (∃ (s : State) (k : EcCore) (g : GForm) (a : Word),
      (CoreReady s k (modeLen g.m.toNat)) ∧ (g.m ≠ 10) ∧ (g.m ≠ 11) ∧ (formEa (coreGet s k) (.g g) = some a)) ∧
    (∃ (s : State) (t : State) (k : EcCore) (g : GForm) (a : Word) (v : Word),
      (CoreReady s k (modeLen g.m.toNat)) ∧ (formEa (coreGet s k) (.g g) = some a) ∧ (a.toNat % 4 < 2) ∧ (ReadIs s k (a &&& 0xFFFFFFFC) 4 t v)) ∧
    (∃ (s : State) (t : State) (t' : State) (k : EcCore) (g : GForm) (a : Word) (v : Word) (v' : Word),
      (CoreReady s k (modeLen g.m.toNat)) ∧ (formEa (coreGet s k) (.g g) = some a) ∧ (2 ≤ a.toNat % 4) ∧ (firstHeld s k = none) ∧ (ReadIs s k (a &&& 0xFFFFFFFC) 4 t v) ∧ (ReadIs t k ((a &&& 0xFFFFFFFC) + 4) 4 t' v')) :=
  ⟨⟨cM, (busRead (cM) .ec3 false 0x01000100 2).1, .ec3, gU, bumped (coreGet cM .ec3) (.g gU) 2, 0, ready_of (by decide +kernel), ⟨_, rfl, by decide +kernel, Prod.ext rfl (by decide +kernel), rfl⟩⟩,
   ⟨cM, (busRead (cM) .ec3 false 0x01000100 1).1, .ec3, gU, bumped (coreGet cM .ec3) (.g gU) 1, 0, ready_of (by decide +kernel), ⟨_, rfl, by decide +kernel, Prod.ext rfl (by decide +kernel), rfl⟩⟩,
   ⟨cM, (busRead (cM) .ec3 false 0x01000100 2).1, .ec3, gU, bumped (coreGet cM .ec3) (.g gU) 2, 0, ready_of (by decide +kernel), ⟨_, rfl, by decide +kernel, Prod.ext rfl (by decide +kernel), rfl⟩⟩,
   ⟨cM, .ec3, gX 31, 0x0100017C, ready_of (by decide +kernel), by decide +kernel⟩,
   ⟨cM, .ec3, gX 31, 0x0100017C, ready_of (by decide +kernel), by decide +kernel⟩,
   ⟨cM, (busRead (cM) .ec3 false 0x01000100 4).1, .ec3, gA 0x01000101, 0x01000101, 0, ready_of (by decide +kernel), by decide +kernel, by decide +kernel, ⟨by decide +kernel, Prod.ext rfl (by decide +kernel)⟩⟩,
   ⟨cM, (busRead (cM) .ec3 false 0x01000100 4).1, (busRead ((busRead (cM) .ec3 false 0x01000100 4).1) .ec3 false 0x01000104 4).1, .ec3, gA 0x01000103, 0x01000103, 0, 0, ready_of (by decide +kernel), by decide +kernel, by decide +kernel, by decide +kernel, ⟨by decide +kernel, Prod.ext rfl (by decide +kernel)⟩, ⟨by decide +kernel, Prod.ext rfl (by decide +kernel)⟩⟩⟩

theorem test_hypotheses_CoreStores_1 :
    (∃ (s : State) (t : State) (k : EcCore) (f : Form) (d : CoreSt),
      (CoreReady s k (formLen f)) ∧ (StoreIs s k f 4 (coreGet s k).a t d)) ∧
    (∃ (s : State) (t : State) (k : EcCore) (f : Form) (d : CoreSt),
      (CoreReady s k (formLen f)) ∧ (StoreIs s k f 4 (coreGet s k).x t d)) ∧
    (∃ (s : State) (t : State) (k : EcCore) (f : Form) (d : CoreSt),
      (CoreReady s k (formLen f)) ∧ (StoreIs s k f 4 (coreGet s k).y t d)) ∧
    (∃ (s : State) (t : State) (k : EcCore) (g : GForm) (d : CoreSt),
      (CoreReady s k (modeLen g.m.toNat)) ∧ (StoreIs s k (.g g) 2 (coreGet s k).a t d)) ∧
    (∃ (s : State) (t : State) (k : EcCore) (g : GForm) (d : CoreSt),
      (CoreReady s k (modeLen g.m.toNat)) ∧ (StoreIs s k (.g g) 1 (coreGet s k).a t d)) ∧
    (∃ (s : State) (t : State) (k : EcCore) (g : GForm) (d : CoreSt),
      (CoreReady s k (modeLen g.m.toNat)) ∧ (StoreIs s k (.g g) 2 ((coreGet s k).a &&& 0xFFF) t d)) ∧
    (∃ (s : State) (t : State) (k : EcCore) (w : BitVec 10) (d : CoreSt),
      (CoreReady s k 2) ∧ (StoreIs s k (.p w) 4 0 t d)) ∧
    (∃ (s : State) (t : State) (k : EcCore) (r : BitVec 5) (v : Word),
      (CoreReady s k 2) ∧ (regRead (coreGet s k) r.toNat = some v) ∧ (stackLow s k ((coreGet s k).s - 4) = false) ∧ (WriteIs s k ((coreGet s k).s - 4) 4 v t)) :=
  ⟨⟨cM, (busWrite (cM) .ec3 false 0x01000100 4 (0)).1, .ec3, .g gU, bumped (coreGet cM .ec3) (.g gU) 4, ready_of (by decide +kernel), ⟨_, rfl, by decide +kernel, by decide +kernel, Prod.ext rfl (by decide +kernel), rfl⟩⟩,
   ⟨cM, (busWrite (cM) .ec3 false 0x01000100 4 (0x01000100)).1, .ec3, .g gU, bumped (coreGet cM .ec3) (.g gU) 4, ready_of (by decide +kernel), ⟨_, rfl, by decide +kernel, by decide +kernel, Prod.ext rfl (by decide +kernel), rfl⟩⟩,
   ⟨cM, (busWrite (cM) .ec3 false 0x01000100 4 (0x01000200)).1, .ec3, .g gU, bumped (coreGet cM .ec3) (.g gU) 4, ready_of (by decide +kernel), ⟨_, rfl, by decide +kernel, by decide +kernel, Prod.ext rfl (by decide +kernel), rfl⟩⟩,
   ⟨cM, (busWrite (cM) .ec3 false 0x01000100 2 (0)).1, .ec3, gU, bumped (coreGet cM .ec3) (.g gU) 2, ready_of (by decide +kernel), ⟨_, rfl, by decide +kernel, by decide +kernel, Prod.ext rfl (by decide +kernel), rfl⟩⟩,
   ⟨cM, (busWrite (cM) .ec3 false 0x01000100 1 (0)).1, .ec3, gU, bumped (coreGet cM .ec3) (.g gU) 1, ready_of (by decide +kernel), ⟨_, rfl, by decide +kernel, by decide +kernel, Prod.ext rfl (by decide +kernel), rfl⟩⟩,
   ⟨cM, (busWrite (cM) .ec3 false 0x01000100 2 (0)).1, .ec3, gU, bumped (coreGet cM .ec3) (.g gU) 2, ready_of (by decide +kernel), ⟨_, rfl, by decide +kernel, by decide +kernel, Prod.ext rfl (by decide +kernel), rfl⟩⟩,
   ⟨coreSet rS .ec3 { CoreSt.init with st := 1, b := 0x01000000 }, (busWrite (coreSet rS .ec3 { CoreSt.init with st := 1, b := 0x01000000 }) .ec3 false 0x01000100 4 (0)).1, .ec3, 64, coreGet (coreSet rS .ec3 { CoreSt.init with st := 1, b := 0x01000000 }) .ec3, ready_of (by decide +kernel), ⟨_, rfl, by decide +kernel, by decide +kernel, Prod.ext rfl (by decide +kernel), rfl⟩⟩,
   ⟨cM, (busWrite (cM) .ec3 false 0x0100FFFC 4 (0x01000100)).1, .ec3, 1, 0x01000100, ready_of (by decide +kernel), by decide +kernel, by decide +kernel, ⟨by decide +kernel, by decide +kernel, Prod.ext rfl (by decide +kernel)⟩⟩⟩

theorem test_hypotheses_CoreStores_2 :
    (∃ (s : State) (t : State) (t' : State) (k : EcCore) (v : Word),
      (CoreReady s k 2) ∧ (postFull s k (coreGet s k).y.toNat = false) ∧ (ReadIs s k (coreGet s k).x 4 t v) ∧ (WriteIs t k (coreGet s k).y 4 v t')) ∧
    (∃ (s : State) (t : State) (t' : State) (t'' : State) (k : EcCore) (g : GForm) (a : Word),
      (CoreReady s k (modeLen g.m.toNat)) ∧ (formEa (coreGet s k) (.g g) = some a) ∧ (busWrite s (coreWho k) false a.toNat 1 ((BitVec.ofNat 8 ((coreGet s k).a.toNat % 4096 + (coreGet s k).a.toNat / 65536 % 4096 * 4096)).zeroExtend 32) = (t, true)) ∧ (busWrite t (coreWho k) false (a + 1).toNat 1 ((BitVec.ofNat 8 (((coreGet s k).a.toNat % 4096 + (coreGet s k).a.toNat / 65536 % 4096 * 4096) / 256)).zeroExtend 32) = (t', true)) ∧ (busWrite t' (coreWho k) false (a + 2).toNat 1 ((BitVec.ofNat 8 (((coreGet s k).a.toNat % 4096 + (coreGet s k).a.toNat / 65536 % 4096 * 4096) / 65536)).zeroExtend 32) = (t'', true))) :=
  ⟨⟨cM, (busRead (cM) .ec3 false 0x01000100 4).1, (busWrite ((busRead (cM) .ec3 false 0x01000100 4).1) .ec3 false 0x01000200 4 (0)).1, .ec3, 0, ready_of (by decide +kernel), by decide +kernel, ⟨by decide +kernel, Prod.ext rfl (by decide +kernel)⟩, ⟨by decide +kernel, by decide +kernel, Prod.ext rfl (by decide +kernel)⟩⟩,
   ⟨cM, (busWrite (cM) .ec3 false 0x01000100 1 (0)).1, (busWrite ((busWrite (cM) .ec3 false 0x01000100 1 (0)).1) .ec3 false 0x01000101 1 (0)).1, (busWrite ((busWrite ((busWrite (cM) .ec3 false 0x01000100 1 (0)).1) .ec3 false 0x01000101 1 (0)).1) .ec3 false 0x01000102 1 (0)).1, .ec3, gU, 0x01000100, ready_of (by decide +kernel), by decide +kernel, Prod.ext rfl (by decide +kernel), Prod.ext rfl (by decide +kernel), Prod.ext rfl (by decide +kernel)⟩⟩

theorem test_hypotheses_CoreUnary_1 :
    (∃ (s : State) (k : EcCore) (v : Word),
      (CoreReady s k 2)) ∧
    (∃ (s : State) (k : EcCore),
      (CoreReady s k 2)) ∧
    (∃ (s : State) (k : EcCore) (v : Word),
      (CoreReady s k 2)) ∧
    (∃ (s : State) (k : EcCore),
      (CoreReady s k 2)) ∧
    (∃ (s : State) (k : EcCore),
      (CoreReady s k 2)) ∧
    (∃ (s : State) (k : EcCore) (v : Word),
      (CoreReady s k 2)) ∧
    (∃ (s : State) (k : EcCore) (v : Word),
      (CoreReady s k 2)) ∧
    (∃ (s : State) (k : EcCore) (v : Word),
      (CoreReady s k 2)) :=
  ⟨⟨cM, .ec3, 0, ready_of (by decide +kernel)⟩,
   ⟨cM, .ec3, ready_of (by decide +kernel)⟩,
   ⟨cM, .ec3, 0, ready_of (by decide +kernel)⟩,
   ⟨cM, .ec3, ready_of (by decide +kernel)⟩,
   ⟨cM, .ec3, ready_of (by decide +kernel)⟩,
   ⟨cM, .ec3, 0, ready_of (by decide +kernel)⟩,
   ⟨cM, .ec3, 0, ready_of (by decide +kernel)⟩,
   ⟨coreSet rS .ec3 { CoreSt.init with st := 1, a := 0x80000000 }, .ec3, 0, ready_of (by decide +kernel)⟩⟩

theorem test_hypotheses_CoreUnary_2 :
    (∃ (s : State) (k : EcCore) (v : Word),
      (CoreReady s k 2)) ∧
    (∃ (s : State) (k : EcCore) (v : Word),
      (CoreReady s k 2)) ∧
    (∃ (s : State) (k : EcCore),
      (CoreReady s k 2)) ∧
    (∃ (s : State) (k : EcCore),
      (CoreReady s k 2)) ∧
    (∃ (s : State) (k : EcCore),
      (CoreReady s k 2)) ∧
    (∃ (s : State) (k : EcCore) (q : BitVec 4) (r : BitVec 5) (v : Word),
      (CoreReady s k 2) ∧ (regRead (coreGet s k) r.toNat = some v) ∧ (q.toNat ≤ 7)) :=
  ⟨⟨cM, .ec3, 0, ready_of (by decide +kernel)⟩,
   ⟨cM, .ec3, 0, ready_of (by decide +kernel)⟩,
   ⟨cM, .ec3, ready_of (by decide +kernel)⟩,
   ⟨cM, .ec3, ready_of (by decide +kernel)⟩,
   ⟨cM, .ec3, ready_of (by decide +kernel)⟩,
   ⟨cM, .ec3, 7, 7, 0, ready_of (by decide +kernel), by decide +kernel⟩⟩

theorem test_hypotheses_CoreShifts :
    (∃ (s : State) (t : State) (k : EcCore) (g : GForm) (d : CoreSt) (v : Word),
      (CoreReady s k (modeLen g.m.toNat)) ∧ (OperandIs s k (.g g) t d v) ∧ (v.toNat % 32 ≠ 0)) ∧
    (∃ (s : State) (t : State) (k : EcCore) (g : GForm) (d : CoreSt) (v : Word),
      (CoreReady s k (modeLen g.m.toNat)) ∧ (OperandIs s k (.g g) t d v) ∧ (v.toNat % 32 = 0)) ∧
    (∃ (s : State) (t : State) (k : EcCore) (g : GForm) (d : CoreSt) (v : Word),
      (CoreReady s k (modeLen g.m.toNat)) ∧ (OperandIs s k (.g g) t d v) ∧ (v.toNat % 32 ≠ 0)) ∧
    (∃ (s : State) (t : State) (k : EcCore) (g : GForm) (d : CoreSt) (v : Word),
      (CoreReady s k (modeLen g.m.toNat)) ∧ (OperandIs s k (.g g) t d v) ∧ (v.toNat % 32 = 0)) ∧
    (∃ (s : State) (t : State) (k : EcCore) (g : GForm) (d : CoreSt) (v : Word),
      (CoreReady s k (modeLen g.m.toNat)) ∧ (OperandIs s k (.g g) t d v) ∧ (v.toNat % 32 ≠ 0)) ∧
    (∃ (s : State) (t : State) (k : EcCore) (g : GForm) (d : CoreSt) (v : Word),
      (CoreReady s k (modeLen g.m.toNat)) ∧ (OperandIs s k (.g g) t d v) ∧ (v.toNat % 32 = 0)) ∧
    (∃ (s : State) (t : State) (t' : State) (k : EcCore) (v : Word) (v' : Word),
      (CoreReady s k 2) ∧ (firstHeld s k = none) ∧ (ReadIs s k (coreGet s k).x 2 t v) ∧ (ReadIs t k (coreGet s k).y 2 t' v')) ∧
    (∃ (s : State) (t : State) (k : EcCore) (r : BitVec 5) (v : Word),
      (CoreReady s k 2) ∧ (r.toNat ≤ 7) ∧ (ReadIs s k (coreGet s k).s 4 t v)) :=
  ⟨⟨cM, cM, .ec3, gI 31, coreGet cM .ec3, 0xFFFFFFFF, ready_of (by decide +kernel), Or.inl ⟨by decide +kernel, rfl, rfl⟩, by decide +kernel⟩,
   ⟨cM, cM, .ec3, gI 0, coreGet cM .ec3, 0, ready_of (by decide +kernel), Or.inl ⟨by decide +kernel, rfl, rfl⟩, by decide +kernel⟩,
   ⟨cM, cM, .ec3, gI 31, coreGet cM .ec3, 0xFFFFFFFF, ready_of (by decide +kernel), Or.inl ⟨by decide +kernel, rfl, rfl⟩, by decide +kernel⟩,
   ⟨cM, cM, .ec3, gI 0, coreGet cM .ec3, 0, ready_of (by decide +kernel), Or.inl ⟨by decide +kernel, rfl, rfl⟩, by decide +kernel⟩,
   ⟨cM, cM, .ec3, gI 31, coreGet cM .ec3, 0xFFFFFFFF, ready_of (by decide +kernel), Or.inl ⟨by decide +kernel, rfl, rfl⟩, by decide +kernel⟩,
   ⟨cM, cM, .ec3, gI 0, coreGet cM .ec3, 0, ready_of (by decide +kernel), Or.inl ⟨by decide +kernel, rfl, rfl⟩, by decide +kernel⟩,
   ⟨cM, (busRead (cM) .ec3 false 0x01000100 2).1, (busRead ((busRead (cM) .ec3 false 0x01000100 2).1) .ec3 false 0x01000200 2).1, .ec3, 0, 0, ready_of (by decide +kernel), by decide +kernel, ⟨by decide +kernel, Prod.ext rfl (by decide +kernel)⟩, ⟨by decide +kernel, Prod.ext rfl (by decide +kernel)⟩⟩,
   ⟨coreSet rS .ec3 { CoreSt.init with st := 1, s := 0x01000100 }, (busRead (coreSet rS .ec3 { CoreSt.init with st := 1, s := 0x01000100 }) .ec3 false 0x01000100 4).1, .ec3, 7, 0, ready_of (by decide +kernel), by decide +kernel, ⟨by decide +kernel, Prod.ext rfl (by decide +kernel)⟩⟩⟩

theorem test_hypotheses_CoreControl_1 :
    (∃ (s : State) (k : EcCore) (g : GForm) (a : Word),
      (CoreReady s k (modeLen g.m.toNat)) ∧ (formEa (coreGet s k) (.g g) = some a) ∧ (a.getLsbD 0 = false)) ∧
    (∃ (s : State) (t : State) (k : EcCore) (g : GForm) (a : Word),
      (CoreReady s k (modeLen g.m.toNat)) ∧ (formEa (coreGet s k) (.g g) = some a) ∧ (a.getLsbD 0 = false) ∧ (stackLow s k ((coreGet s k).s - 4) = false) ∧ (WriteIs s k ((coreGet s k).s - 4) 4 ((coreGet s k).p + BitVec.ofNat 32 (modeLen g.m.toNat)) t)) ∧
    (∃ (s : State) (t : State) (k : EcCore) (v : Word),
      (CoreReady s k 2) ∧ (ReadIs s k (coreGet s k).s 4 t v) ∧ (v.getLsbD 0 = false)) ∧
    (∃ (s : State) (t : State) (t' : State) (k : EcCore) (a : Word) (v : Word),
      (CoreReady s k 2) ∧ (firstHeld s k = none) ∧ (ReadIs s k (coreGet s k).s 4 t a) ∧ (ReadIs t k ((coreGet s k).s + 4) 4 t' v) ∧ (v.getLsbD 0 = false)) ∧
    (∃ (s : State) (k : EcCore) (cc : BitVec 4) (d10 : BitVec 10),
      (CoreReady s k 2) ∧ (condHolds (coreGet s k) cc = true)) ∧
    (∃ (s : State) (k : EcCore) (cc : BitVec 4) (d10 : BitVec 10),
      (CoreReady s k 2) ∧ (condHolds (coreGet s k) cc = false)) ∧
    (∃ (s : State) (k : EcCore) (cc : BitVec 4) (d16 : BitVec 16),
      (CoreReady s k 4) ∧ (condHolds (coreGet s k) cc = true)) ∧
    (∃ (s : State) (k : EcCore) (cc : BitVec 4) (d16 : BitVec 16),
      (CoreReady s k 4) ∧ (condHolds (coreGet s k) cc = false)) :=
  ⟨⟨cM, .ec3, gA 0x01000102, 0x01000102, ready_of (by decide +kernel), by decide +kernel⟩,
   ⟨cM, (busWrite (cM) .ec3 false 0x0100FFFC 4 (6)).1, .ec3, gA 0x01000102, 0x01000102, ready_of (by decide +kernel), by decide +kernel, by decide +kernel, by decide +kernel, ⟨by decide +kernel, by decide +kernel, Prod.ext rfl (by decide +kernel)⟩⟩,
   ⟨coreSet rS .ec3 { CoreSt.init with st := 1, s := 0x01000100 }, (busRead (coreSet rS .ec3 { CoreSt.init with st := 1, s := 0x01000100 }) .ec3 false 0x01000100 4).1, .ec3, 0, ready_of (by decide +kernel), ⟨by decide +kernel, Prod.ext rfl (by decide +kernel)⟩, by decide +kernel⟩,
   ⟨coreSet rS .ec3 { CoreSt.init with st := 1, s := 0x01000100 }, (busRead (coreSet rS .ec3 { CoreSt.init with st := 1, s := 0x01000100 }) .ec3 false 0x01000100 4).1, (busRead ((busRead (coreSet rS .ec3 { CoreSt.init with st := 1, s := 0x01000100 }) .ec3 false 0x01000100 4).1) .ec3 false 0x01000104 4).1, .ec3, 0, 0, ready_of (by decide +kernel), by decide +kernel, ⟨by decide +kernel, Prod.ext rfl (by decide +kernel)⟩, ⟨by decide +kernel, Prod.ext rfl (by decide +kernel)⟩, by decide +kernel⟩,
   ⟨cM, .ec3, 0, 0x3FF, ready_of (by decide +kernel), by decide +kernel⟩,
   ⟨cM, .ec3, 1, 0x3FF, ready_of (by decide +kernel), by decide +kernel⟩,
   ⟨cM, .ec3, 0, 0xFFFF, ready_of (by decide +kernel), by decide +kernel⟩,
   ⟨cM, .ec3, 1, 0xFFFF, ready_of (by decide +kernel), by decide +kernel⟩⟩

theorem test_hypotheses_CoreControl_2 :
    (∃ (s : State) (t : State) (k : EcCore) (g : GForm) (d : CoreSt) (v : Word),
      (CoreReady s k (modeLen g.m.toNat)) ∧ (OperandIs s k (.g g) t d v)) ∧
    (∃ (s : State) (t : State) (k : EcCore) (g : GForm) (d : CoreSt) (v : Word),
      (CoreReady s k (modeLen g.m.toNat)) ∧ (OperandIs s k (.g g) t d v)) :=
  ⟨⟨cM, cM, .ec3, gI 31, coreGet cM .ec3, 0xFFFFFFFF, ready_of (by decide +kernel), Or.inl ⟨by decide +kernel, rfl, rfl⟩⟩,
   ⟨cM, cM, .ec3, gI 31, coreGet cM .ec3, 0xFFFFFFFF, ready_of (by decide +kernel), Or.inl ⟨by decide +kernel, rfl, rfl⟩⟩⟩

theorem test_hypotheses_CoreWaits_1 :
    (∃ (s : State) (t : State) (k : EcCore) (g : GForm) (d : CoreSt) (v : Word),
      (CoreReady s k (modeLen g.m.toNat)) ∧ (OperandIs s k (.g g) t d v)) ∧
    (∃ (s : State) (t : State) (k : EcCore) (g : GForm) (d : CoreSt) (v : Word),
      (CoreReady s k (modeLen g.m.toNat)) ∧ (interruptOpen s k = false) ∧ (OperandIs s k (.g g) t d v) ∧ (v = 0)) ∧
    (∃ (s : State) (t : State) (k : EcCore) (g : GForm) (d : CoreSt) (v : Word) (l : _),
      (CoreReady s k (modeLen g.m.toNat)) ∧ (interruptOpen s k = false) ∧ (OperandIs s k (.g g) t d v) ∧ (v ≠ 0) ∧ (waitLine t k false v = some l)) ∧
    (∃ (s : State) (t : State) (k : EcCore) (g : GForm) (d : CoreSt) (v : Word),
      (CoreReady s k (modeLen g.m.toNat)) ∧ (interruptOpen s k = false) ∧ (OperandIs s k (.g g) t d v) ∧ (v ≠ 0) ∧ (waitLine t k false v = none)) ∧
    (∃ (s : State) (t : State) (k : EcCore) (g : GForm) (d : CoreSt) (v : Word),
      (CoreReady s k (modeLen g.m.toNat)) ∧ (interruptOpen s k = false) ∧ (OperandIs s k (.g g) t d v) ∧ (v = 0)) ∧
    (∃ (s : State) (t : State) (k : EcCore) (g : GForm) (d : CoreSt) (v : Word) (l : _),
      (CoreReady s k (modeLen g.m.toNat)) ∧ (interruptOpen s k = false) ∧ (OperandIs s k (.g g) t d v) ∧ (v ≠ 0) ∧ (waitLine t k true v = some l)) ∧
    (∃ (s : State) (t : State) (k : EcCore) (g : GForm) (d : CoreSt) (v : Word),
      (CoreReady s k (modeLen g.m.toNat)) ∧ (interruptOpen s k = false) ∧ (OperandIs s k (.g g) t d v) ∧ (v ≠ 0) ∧ (waitLine t k true v = none)) ∧
    (∃ (s : State) (t : State) (k : EcCore) (g : GForm) (now : BitVec 64) (d : CoreSt) (v : Word),
      (CoreReady (setNow s now.toNat) k (modeLen g.m.toNat)) ∧ (interruptOpen (setNow s now.toNat) k = false) ∧ (OperandIs (setNow s now.toNat) k (.g g) t d v) ∧ (tbsReached t v.toNat = true)) :=
  ⟨⟨cM, cM, .ec3, gI 1, coreGet cM .ec3, 1, ready_of (by decide +kernel), Or.inl ⟨by decide +kernel, rfl, rfl⟩⟩,
   ⟨cM, cM, .ec3, gI 0, coreGet cM .ec3, 0, ready_of (by decide +kernel), by decide +kernel, Or.inl ⟨by decide +kernel, rfl, rfl⟩, by decide +kernel⟩,
   ⟨setF (cM) 0xA3 (R.EC.EVPEND.PEND 0) 1, setF (cM) 0xA3 (R.EC.EVPEND.PEND 0) 1, .ec3, gI 1, coreGet (setF (cM) 0xA3 (R.EC.EVPEND.PEND 0) 1) .ec3, 1, 0, ready_of (by decide +kernel), by decide +kernel, Or.inl ⟨by decide +kernel, rfl, rfl⟩, by decide +kernel⟩,
   ⟨cM, cM, .ec3, gI 1, coreGet cM .ec3, 1, ready_of (by decide +kernel), by decide +kernel, Or.inl ⟨by decide +kernel, rfl, rfl⟩, by decide +kernel⟩,
   ⟨cM, cM, .ec3, gI 0, coreGet cM .ec3, 0, ready_of (by decide +kernel), by decide +kernel, Or.inl ⟨by decide +kernel, rfl, rfl⟩, by decide +kernel⟩,
   ⟨setF (cM) 0xA3 (R.EC.EVPEND.PEND 1) 1, setF (cM) 0xA3 (R.EC.EVPEND.PEND 1) 1, .ec3, gI 1, coreGet (setF (cM) 0xA3 (R.EC.EVPEND.PEND 1) 1) .ec3, 1, 32, ready_of (by decide +kernel), by decide +kernel, Or.inl ⟨by decide +kernel, rfl, rfl⟩, by decide +kernel⟩,
   ⟨cM, cM, .ec3, gI 1, coreGet cM .ec3, 1, ready_of (by decide +kernel), by decide +kernel, Or.inl ⟨by decide +kernel, rfl, rfl⟩, by decide +kernel⟩,
   ⟨cM, setNow cM 5, .ec3, gI 1, 5, coreGet (setNow cM 5) .ec3, 1, ready_of (by decide +kernel), by decide +kernel, Or.inl ⟨by decide +kernel, rfl, rfl⟩, by decide +kernel⟩⟩

theorem test_hypotheses_CoreWaits_2 :
    (∃ (s : State) (t : State) (k : EcCore) (g : GForm) (now : BitVec 64) (d : CoreSt) (v : Word),
      (CoreReady (setNow s now.toNat) k (modeLen g.m.toNat)) ∧ (interruptOpen (setNow s now.toNat) k = false) ∧ (OperandIs (setNow s now.toNat) k (.g g) t d v) ∧ (tbsReached t v.toNat = false)) ∧
    (∃ (s : State) (t : State) (k : EcCore) (g : GForm) (now : BitVec 64) (d : CoreSt) (v : Word) (l : _),
      (CoreReady (setNow s now.toNat) k (modeLen g.m.toNat)) ∧ (interruptOpen (setNow s now.toNat) k = false) ∧ (OperandIs (setNow s now.toNat) k (.g g) t d v) ∧ (waitLine t k false v = some l)) ∧
    (∃ (s : State) (t : State) (k : EcCore) (g : GForm) (now : BitVec 64) (d : CoreSt) (v : Word),
      (CoreReady (setNow s now.toNat) k (modeLen g.m.toNat)) ∧ (interruptOpen (setNow s now.toNat) k = false) ∧ (OperandIs (setNow s now.toNat) k (.g g) t d v) ∧ (waitLine t k false v = none) ∧ (tbsReached t (coreGet (setNow s now.toNat) k).x.toNat = true)) ∧
    (∃ (s : State) (t : State) (k : EcCore) (g : GForm) (now : BitVec 64) (d : CoreSt) (v : Word),
      (CoreReady (setNow s now.toNat) k (modeLen g.m.toNat)) ∧ (interruptOpen (setNow s now.toNat) k = false) ∧ (OperandIs (setNow s now.toNat) k (.g g) t d v) ∧ (waitLine t k false v = none) ∧ (tbsReached t (coreGet (setNow s now.toNat) k).x.toNat = false)) ∧
    (∃ (s : State) (t : State) (k : EcCore) (g : GForm) (now : BitVec 64) (d : CoreSt) (v : Word) (l : _),
      (CoreReady (setNow s now.toNat) k (modeLen g.m.toNat)) ∧ (interruptOpen (setNow s now.toNat) k = false) ∧ (OperandIs (setNow s now.toNat) k (.g g) t d v) ∧ (waitLine t k true v = some l)) ∧
    (∃ (s : State) (t : State) (k : EcCore) (g : GForm) (now : BitVec 64) (d : CoreSt) (v : Word),
      (CoreReady (setNow s now.toNat) k (modeLen g.m.toNat)) ∧ (interruptOpen (setNow s now.toNat) k = false) ∧ (OperandIs (setNow s now.toNat) k (.g g) t d v) ∧ (waitLine t k true v = none) ∧ (tbsReached t (coreGet (setNow s now.toNat) k).x.toNat = true)) ∧
    (∃ (s : State) (t : State) (k : EcCore) (g : GForm) (now : BitVec 64) (d : CoreSt) (v : Word),
      (CoreReady (setNow s now.toNat) k (modeLen g.m.toNat)) ∧ (interruptOpen (setNow s now.toNat) k = false) ∧ (OperandIs (setNow s now.toNat) k (.g g) t d v) ∧ (waitLine t k true v = none) ∧ (tbsReached t (coreGet (setNow s now.toNat) k).x.toNat = false)) :=
  ⟨⟨cM, setNow cM 5, .ec3, gI 6, 5, coreGet (setNow cM 5) .ec3, 6, ready_of (by decide +kernel), by decide +kernel, Or.inl ⟨by decide +kernel, rfl, rfl⟩, by decide +kernel⟩,
   ⟨setF (cM) 0xA3 (R.EC.EVPEND.PEND 0) 1, setNow (setF (cM) 0xA3 (R.EC.EVPEND.PEND 0) 1) 5, .ec3, gI 1, 5, coreGet (setNow (setF (cM) 0xA3 (R.EC.EVPEND.PEND 0) 1) 5) .ec3, 1, 0, ready_of (by decide +kernel), by decide +kernel, Or.inl ⟨by decide +kernel, rfl, rfl⟩, by decide +kernel⟩,
   ⟨cM, setNow cM 0x01000100, .ec3, gI 1, 0x01000100, coreGet (setNow cM 0x01000100) .ec3, 1, ready_of (by decide +kernel), by decide +kernel, Or.inl ⟨by decide +kernel, rfl, rfl⟩, by decide +kernel⟩,
   ⟨cM, setNow cM 5, .ec3, gI 1, 5, coreGet (setNow cM 5) .ec3, 1, ready_of (by decide +kernel), by decide +kernel, Or.inl ⟨by decide +kernel, rfl, rfl⟩, by decide +kernel⟩,
   ⟨setF (cM) 0xA3 (R.EC.EVPEND.PEND 1) 1, setNow (setF (cM) 0xA3 (R.EC.EVPEND.PEND 1) 1) 5, .ec3, gI 1, 5, coreGet (setNow (setF (cM) 0xA3 (R.EC.EVPEND.PEND 1) 1) 5) .ec3, 1, 32, ready_of (by decide +kernel), by decide +kernel, Or.inl ⟨by decide +kernel, rfl, rfl⟩, by decide +kernel⟩,
   ⟨cM, setNow cM 0x01000100, .ec3, gI 1, 0x01000100, coreGet (setNow cM 0x01000100) .ec3, 1, ready_of (by decide +kernel), by decide +kernel, Or.inl ⟨by decide +kernel, rfl, rfl⟩, by decide +kernel⟩,
   ⟨cM, setNow cM 5, .ec3, gI 1, 5, coreGet (setNow cM 5) .ec3, 1, ready_of (by decide +kernel), by decide +kernel, Or.inl ⟨by decide +kernel, rfl, rfl⟩, by decide +kernel⟩⟩

theorem test_hypotheses_CoreWaitEnds :
    (∃ (s : State) (k : EcCore) (l : _) (h : _) (m : _),
      (running (s) = true) ∧ (sysLost (s) = false) ∧ (interruptDue (s) k = false) ∧ ((coreGet (s) k).st = 1) ∧ (((coreGet (s) k).wait = .wfe h m ∨ ∃ x, (coreGet (s) k).wait = .wtx h m x)) ∧ (waitLine (s) k h m = some l)) ∧
    (∃ (s : State) (k : EcCore) (now : BitVec 64) (x : _),
      (running (setNow s now.toNat) = true) ∧ (sysLost (setNow s now.toNat) = false) ∧ (interruptDue (setNow s now.toNat) k = false) ∧ ((coreGet (setNow s now.toNat) k).st = 1) ∧ ((coreGet (setNow s now.toNat) k).wait = .wtu x) ∧ (tbsReached (setNow s now.toNat) x.toNat = true)) ∧
    (∃ (s : State) (k : EcCore) (now : BitVec 64) (l : _) (h : _) (m : _),
      (running (setNow s now.toNat) = true) ∧ (sysLost (setNow s now.toNat) = false) ∧ (interruptDue (setNow s now.toNat) k = false) ∧ ((coreGet (setNow s now.toNat) k).st = 1) ∧ (((coreGet (setNow s now.toNat) k).wait = .wfe h m ∨ ∃ x, (coreGet (setNow s now.toNat) k).wait = .wtx h m x)) ∧ (waitLine (setNow s now.toNat) k h m = some l)) ∧
    (∃ (s : State) (k : EcCore) (now : BitVec 64) (h : _) (m : _) (x : _),
      (running (setNow s now.toNat) = true) ∧ (sysLost (setNow s now.toNat) = false) ∧ (interruptDue (setNow s now.toNat) k = false) ∧ ((coreGet (setNow s now.toNat) k).st = 1) ∧ ((coreGet (setNow s now.toNat) k).wait = .wtx h m x) ∧ (waitLine (setNow s now.toNat) k h m = none) ∧ (tbsReached (setNow s now.toNat) x.toNat = true)) ∧
    (∃ (s : State) (k : EcCore) (vec : _) (l : _) (t1 : _) (t2 : _) (t3 : _) (a : _),
      (interruptDue s k = true) ∧ (vecTaken s k (coreGet s k) = some (vec, l)) ∧ let t := winSet (if vec < 80 then eventTake s k (vec - 16) else s) (coreKind k) 0
      stackLow t k ((coreGet s k).s - 8) = false ∧ (misaligned ((coreGet s k).s - 4) 4 = false) ∧ (busWrite t (coreWho k) false ((coreGet s k).s - 4).toNat 4 (coreGet s k).p = (t1, true)) ∧ (busWrite t1 (coreWho k) false ((coreGet s k).s - 8).toNat 4 (coreSW (coreGet s k)) = (t2, true)) ∧ (busRead t2 (coreWho k) false (cfg t (corePg k) R.EC.VBASE.BASE * 1024 + 4 * vec) 4 = (t3, .val a))) :=
  ⟨⟨setF (coreSet rS .ec3 { CoreSt.init with st := 1, wait := .wfe false 1, wlen := 2 }) 0xA3 (R.EC.EVPEND.PEND 0) 1, .ec3, 0, false, 1, by decide +kernel, by decide +kernel, by decide +kernel, of_decide_eq_true (by decide +kernel), by first | exact Or.inl (by decide +kernel) | exact Or.inr ⟨_, rfl⟩, by decide +kernel⟩,
   ⟨coreSet rS .ec3 { CoreSt.init with st := 1, wait := .wtu 5, wlen := 2 }, .ec3, 5, 5, by decide +kernel⟩,
   ⟨setF (coreSet rS .ec3 { CoreSt.init with st := 1, wait := .wtx true 1 9, wlen := 2 }) 0xA3 (R.EC.EVPEND.PEND 1) 1, .ec3, 5, 32, true, 1, by decide +kernel, by decide +kernel, by decide +kernel, of_decide_eq_true (by decide +kernel), by first | exact Or.inl (by decide +kernel) | exact Or.inr ⟨_, rfl⟩, by decide +kernel⟩,
   ⟨coreSet rS .ec3 { CoreSt.init with st := 1, wait := .wtx true 1 5, wlen := 2 }, .ec3, 5, true, 1, 5, by decide +kernel⟩,
   ⟨irqS, .ec3, 16, 0, irq1, irq2, irq3, 0, by decide +kernel, by decide +kernel, by decide +kernel, of_decide_eq_true (by decide +kernel), irq_first, irq_second, irq_vector⟩⟩

theorem test_hypotheses_CoreSwap :
    (∃ (s : State) (t : State) (t' : State) (k : EcCore) (f : Form) (a : Word) (v : Word),
      (CoreReady s k (formLen f)) ∧ (formEa (coreGet s k) f = some a) ∧ (place (coreWho k) a.toNat = .sram ∨ place (coreWho k) a.toNat = .frm ∨ (∃ n b, place (coreWho k) a.toNat = .tcm n b)) ∧ (ReadIs s k a 4 t v) ∧ (WriteIs s k a 4 (coreGet s k).a t')) ∧
    (∃ (s : State) (t : State) (t' : State) (k : EcCore) (f : Form) (a : Word) (v : Word) (p : _) (off : _),
      (CoreReady s k (formLen f)) ∧ (formEa (coreGet s k) f = some a) ∧ ((place (coreWho k) a.toNat = .page p off ∨ place (coreWho k) a.toNat = .ring 0 (p * 4096 + off) ∧ off < 4096 ∧ jxrOwn s = true)) ∧ (misaligned a 4 = false) ∧ (MayWrite s (coreWho k) p off) ∧ ((rightsOf s (whoKind (coreWho k)) p).testBit 0 = true) ∧ ((rightsOf s (whoKind (coreWho k)) p).testBit 1 = true) ∧ (pageRead s (coreWho k) p off a.toNat = (t, some v)) ∧ (pageWrite t (coreWho k) p off a.toNat (coreGet s k).a = (t', true))) ∧
    (∃ (s : State) (t : State) (k : EcCore) (f : Form) (a : Word) (v : Word) (dev : _) (off : _),
      (CoreReady s k (formLen f)) ∧ (formEa (coreGet s k) f = some a) ∧ (place (coreWho k) a.toNat = .ring dev off) ∧ (¬ (dev = 0 ∧ jxrOwn s = true)) ∧ (misaligned a 4 = false) ∧ (brgCore s (corePg k) (coreKind k) dev off (some (coreGet s k).a) = some (t, some v))) :=
  ⟨⟨cM, (busRead (cM) .ec3 false 0x01000100 4).1, (busWrite (cM) .ec3 false 0x01000100 4 (0)).1, .ec3, .g gU, 0x01000100, 0, ready_of (by decide +kernel), by decide +kernel, Or.inr (Or.inr ⟨_, _, rfl⟩), ⟨by decide +kernel, Prod.ext rfl (by decide +kernel)⟩, ⟨by decide +kernel, by decide +kernel, Prod.ext rfl (by decide +kernel)⟩⟩,
   ⟨giv cM 0x1D, (pageRead (giv cM 0x1D) .ec3 0x1D 0x104 0x4001D104).1, (pageWrite (pageRead (giv cM 0x1D) .ec3 0x1D 0x104 0x4001D104).1 .ec3 0x1D 0x104 0x4001D104 0).1, .ec3, .g (gA 0x4001D104), 0x4001D104, 0, 0x1D, 0x104, ready_of (by decide +kernel), by decide +kernel, by decide +kernel, by decide +kernel, mayWrite_of (by decide +kernel), by decide +kernel, by decide +kernel, Prod.ext rfl (by decide +kernel), Prod.ext rfl (by decide +kernel)⟩,
   ⟨{ cM with brg := { BrgSt.init with cores := [(0xA3, .data 0x120000 7)] } }, { { cM with brg := { BrgSt.init with cores := [(0xA3, .data 0x120000 7)] } } with brg := { BrgSt.init with cores := [] } }, .ec3, .g (gA 0x80120000), 0x80120000, 7, 1, 0x20000, ready_of (by decide +kernel), by decide +kernel⟩⟩

theorem test_hypotheses_PageCommands :
    (∃ (s : State) (who : Who) (page : Byte) (apply : BitVec 2) (enable : Bool),
      (Canon s) ∧ (MayWrite s who page.toNat 0x00C) ∧ ((alwaysOn page.toNat = true ∨ enable = enabled s page.toNat)) ∧ (isSet s page.toNat H.LOCKED = false) ∧ (getF s page.toNat H.CST = 0) ∧ ((page.toNat = 4 → s.flt.wired = false))) ∧
    (∃ (s : State) (who : Who) (page : Byte) (apply : BitVec 2) (enable : Bool),
      (Canon s) ∧ (MayWrite s who page.toNat 0x00C) ∧ ((alwaysOn page.toNat = true ∨ enable = enabled s page.toNat)) ∧ (isSet s page.toNat H.LOCKED = false) ∧ (getF s page.toNat H.CST ≠ 0)) ∧
    (∃ (s : State) (who : Who) (page : Byte) (apply : BitVec 2) (enable : Bool),
      (Canon s) ∧ (MayWrite s who page.toNat 0x00C) ∧ (alwaysOn page.toNat = false) ∧ (enable = !enabled s page.toNat) ∧ (isSet s page.toNat H.LOCKED = false) ∧ ((enable = true → enableRefused s page.toNat = false))) ∧
    (∃ (s : State) (who : Who) (page : Byte) (apply : BitVec 2) (enable : Bool),
      (Canon s) ∧ (MayWrite s who page.toNat 0x00C) ∧ ((alwaysOn page.toNat = true ∨ enable = enabled s page.toNat))) ∧
    (∃ (s : State) (who : Who) (page : Byte) (v : Word),
      (Canon s) ∧ (MayWrite s who page.toNat 0x01C)) ∧
    (∃ (s : State) (who : Who) (page : Byte) (v : Word),
      (Canon s) ∧ (MayWrite s who page.toNat 0x018)) ∧
    (∃ (s : State) (who : Who) (page : Byte) (v : Word),
      (Canon s) ∧ (MayWrite s who page.toNat 0x008)) :=
  ⟨⟨upg rS 0x20, .ec3, 0x20, 0, true, canon_of (by decide +kernel), mayWrite_of (by decide +kernel), by decide +kernel⟩,
   ⟨{ setF (upg rS 0x20) 0x20 H.CST 1 with commits := [(0x20, 3)] }, .ec3, 0x20, 0, true, canon_of (by decide +kernel), mayWrite_of (by decide +kernel), by decide +kernel⟩,
   ⟨upg rS 0x20, .ec3, 0x20, 0, false, canon_of (by decide +kernel), mayWrite_of (by decide +kernel), by decide +kernel⟩,
   ⟨upg rS 0x20, .ec3, 0x20, 0, true, canon_of (by decide +kernel), mayWrite_of (by decide +kernel), by decide +kernel⟩,
   ⟨upg rS 0x20, .ec3, 0x20, 1, canon_of (by decide +kernel), mayWrite_of (by decide +kernel)⟩,
   ⟨setF (upg rS 0x20) 0x20 H.PFLT 1, .ec3, 0x20, 3, canon_of (by decide +kernel), mayWrite_of (by decide +kernel)⟩,
   ⟨upg rS 0x20, .ec3, 0x20, 0x1020, canon_of (by decide +kernel), mayWrite_of (by decide +kernel)⟩⟩

theorem test_hypotheses_CommitEnds :
    (∃ (s : State) (p : Nat) (kind : Nat) (rest : List (Nat × Nat)),
      (Canon s) ∧ (running s = true) ∧ (s.commits = (p, kind) :: rest) ∧ ((commitCheck s p).1 ≠ 1)) ∧
    (∃ (s : State) (p : Nat) (kind : Nat) (rest : List (Nat × Nat)),
      (Canon s) ∧ (running s = true) ∧ (s.commits = (p, kind) :: rest) ∧ ((commitCheck s p).1 = 1) ∧ ((commitClass s p = 0 ∨ enabled s p = false))) ∧
    (∃ (s : State) (p : Nat) (kind : Nat) (rest : List (Nat × Nat)),
      (Canon s) ∧ (running s = true) ∧ (s.commits = (p, kind) :: rest) ∧ ((commitCheck s p).1 = 1) ∧ (commitClass s p ≠ 0) ∧ (enabled s p = true)) ∧
    (∃ (s : State) (pg : Byte),
      (Canon s) ∧ (running s = true) ∧ (getF s pg.toNat H.CST = 2) ∧ (commitClass s pg.toNat = 1) ∧ (periodOk s pg.toNat = true) ∧ (periodEvent s pg.toNat = true)) ∧
    (∃ (s : State) (pg : Byte),
      (Canon s) ∧ (running s = true) ∧ (periodEvent s pg.toNat = false)) ∧
    (∃ (s : State) (who : Who) (p : Nat) (kind : Nat),
      (Canon s) ∧ (running s = true) ∧ (MayWrite s who 0x00 0x114) ∧ (mreqRunOk s who = true) ∧ (reqPageFails s = none) ∧ (s.pendKind = [(p, kind)]) ∧ (getF s p H.CST = 2) ∧ (commitClass s p = 2)) :=
  ⟨⟨{ wr (up rS 8) 8 0x014 1 with commits := [(8, 3), (9, 3)] }, 8, 3, [(9, 3)], canon_of (by decide +kernel), by decide +kernel⟩,
   ⟨{ crcd (up rS 8) 8 with commits := [(8, 3), (9, 3)] }, 8, 3, [(9, 3)], canon_of (by decide +kernel), by decide +kernel⟩,
   ⟨{ crcd (up rS 8) 8 with commits := [(8, 3), (9, 3)], cmtClass := [(8, 2)] }, 8, 3, [(9, 3)], canon_of (by decide +kernel), by decide +kernel⟩,
   ⟨{ setF (up rS 0x88) 0x88 H.CST 2 with cmtClass := [(0x88, 1)] }, 0x88, canon_of (by decide +kernel), by decide +kernel⟩,
   ⟨{ crcd (up rS 8) 8 with commits := [(8, 3), (9, 3)], cmtClass := [(8, 2)] }, 0x20, canon_of (by decide +kernel), by decide +kernel⟩,
   ⟨{ setF (giv { setF (setF (up rS 0x20) 0x20 H.CST 2) 3 R.RST.HOLDWHY.WHY 5 with mode := .hold } 0) 0x20 H.EPOCH 0 with cmtClass := [(0x20, 2)], pendKind := [(0x20, 3)] }, .ec3, 0x20, 3, canon_of (by decide +kernel), by decide +kernel, mayWrite_of (by decide +kernel), by decide +kernel⟩⟩

theorem test_hypotheses_ClockAndPmu_1 :
    (∃ (s : State) (who : Who),
      (Canon s) ∧ (MayWrite s who 0x01 0x120) ∧ (s.pmuPend.any (fun e => e.1 = 0x120) = false)) ∧
    (∃ (s : State) (who : Who),
      (Canon s) ∧ (MayWrite s who 0x01 0x120) ∧ (s.pmuPend.any (fun e => e.1 = 0x120) = false)) ∧
    (∃ (s : State) (who : Who),
      (Canon s) ∧ (MayWrite s who 0x01 0x120) ∧ (s.pmuPend.any (fun e => e.1 = 0x120) = false)) ∧
    (∃ (s : State) (v : _) (rest : _),
      (Canon s) ∧ (s.mode ≠ .off) ∧ (s.pmuPend = (0x120, v) :: rest)) ∧
    (∃ (s : State) (v : _) (rest : _),
      (Canon s) ∧ (s.mode ≠ .off) ∧ (s.pmuPend = (0x100, v) :: rest)) ∧
    (∃ (s : State),
      (Canon s) ∧ (running s = true) ∧ (s.flt.level.contains 32 = false)) ∧
    (∃ (s : State),
      (Canon s) ∧ (running s = true)) ∧
    (∃ (s : State),
      (Canon s) ∧ (running s = true) ∧ (s.lineHeld = 0) ∧ (s.msqFifo = [])) :=
  ⟨⟨giv (giv rS 1) 5, .ec3, canon_of (by decide +kernel), mayWrite_of (by decide +kernel), by decide +kernel⟩,
   ⟨giv (giv rS 1) 5, .ec3, canon_of (by decide +kernel), mayWrite_of (by decide +kernel), by decide +kernel⟩,
   ⟨giv (giv rS 1) 5, .ec3, canon_of (by decide +kernel), mayWrite_of (by decide +kernel), by decide +kernel⟩,
   ⟨{ rS with pmuPend := [(0x120, 7)] }, 7, [], canon_of (by decide +kernel), by decide +kernel⟩,
   ⟨{ rS with pmuPend := [(0x100, 1)] }, 1, [], canon_of (by decide +kernel), by decide +kernel⟩,
   ⟨giv (giv rS 1) 5, canon_of (by decide +kernel), by decide +kernel⟩,
   ⟨{ rS with flt := { rS.flt with level := [32] } }, canon_of (by decide +kernel), by decide +kernel⟩,
   ⟨{ rS with flt := { rS.flt with level := [32] } }, canon_of (by decide +kernel), by decide +kernel⟩⟩

theorem test_hypotheses_ClockAndPmu_2 :
    (∃ (s : State) (bus : BitVec 16) (rc : BitVec 16) (aBad : Bool) (bBad : Bool),
      (Canon s) ∧ (running s = true)) ∧
    (∃ (s : State) (who : Who),
      (Canon s) ∧ (MayWrite s who 0x05 0x10C)) :=
  ⟨⟨giv (giv rS 1) 5, 7919, 81, false, false, canon_of (by decide +kernel), by decide +kernel⟩,
   ⟨giv (giv rS 1) 5, .ec3, canon_of (by decide +kernel), mayWrite_of (by decide +kernel)⟩⟩

theorem test_hypotheses_PowerAndResets_1 :
    (∃ (s : State),
      (Canon s) ∧ (s.mode = .off)) ∧
    (∃ (s : State),
      (Canon s)) ∧
    (∃ (s : State),
      (Canon s) ∧ (isSet s 0x07 R.UPD.SRES.BUSY = false) ∧ (s.upd.ending = false) ∧ (s.vlt.cmd = none)) ∧
    (∃ (s : State),
      (Canon s) ∧ (running s = false)) ∧
    (∃ (s : State),
      (Canon s) ∧ (running s = true)) ∧
    (∃ (s : State) (who : Who) (v : Word),
      (Canon s) ∧ (MayWrite s who 0x03 0x114) ∧ (v.toNat % 256 = 0xA5)) ∧
    (∃ (s : State),
      (Canon s) ∧ ((s.mode = .run ∨ s.mode = .hold)) ∧ (cfgOn s 0x03 R.RST.WDOG.PERIOD = true)) ∧
    (∃ (s : State) (who : Who) (v : Word),
      (Canon s) ∧ (MayWrite s who 0x03 0x118)) :=
  ⟨⟨zS .off, canon_of (by decide +kernel), by decide +kernel⟩,
   ⟨giv rS 3, canon_of (by decide +kernel)⟩,
   ⟨giv rS 3, canon_of (by decide +kernel), by decide +kernel⟩,
   ⟨zS .park, canon_of (by decide +kernel), by decide +kernel⟩,
   ⟨giv rS 3, canon_of (by decide +kernel), by decide +kernel⟩,
   ⟨giv rS 3, .ec3, 0xA5, canon_of (by decide +kernel), mayWrite_of (by decide +kernel), by decide +kernel⟩,
   ⟨put rS 3 R.RST.WDOG.PERIOD 1, canon_of (by decide +kernel), by decide +kernel⟩,
   ⟨giv rS 3, .ec3, 0, canon_of (by decide +kernel), mayWrite_of (by decide +kernel)⟩⟩

theorem test_hypotheses_PowerAndResets_2 :
    (∃ (s : State) (who : Who),
      (Canon s) ∧ (MayWrite s who 0x03 0x120)) :=
  ⟨giv rS 3, .ec3, canon_of (by decide +kernel), mayWrite_of (by decide +kernel)⟩

theorem test_hypotheses_ModeRequests :
    (∃ (s : State) (who : Who),
      (Canon s) ∧ (MayWrite s who 0x00 0x114) ∧ (mreqRunOk s who = true) ∧ (reqPageFails s = none)) ∧
    (∃ (s : State) (who : Who),
      (Canon s) ∧ (MayWrite s who 0x00 0x114) ∧ ((s.mode = .run ∨ s.mode = .hold)) ∧ (s.park = .none)) ∧
    (∃ (s : State) (who : Who),
      (Canon s) ∧ (MayWrite s who 0x00 0x114) ∧ ((s.mode = .run ∨ s.mode = .hold))) ∧
    (∃ (s : State) (noBeacon : Bool),
      (Canon s) ∧ ((s.mode = .run ∨ s.mode = .hold)) ∧ (s.park = .none) ∧ (kstat s = 0)) ∧
    (∃ (s : State) (upd : Bool) (jrn : Bool),
      (Canon s) ∧ (s.park = .quiesce) ∧ (parkKeep (keepNote s) = none) ∧ (parkBlock s upd jrn = none) ∧ (s.wk.fired = false)) ∧
    (∃ (s : State) (upd : Bool) (jrn : Bool) (r : _) (pg : _),
      (Canon s) ∧ (s.park = .quiesce) ∧ (parkKeep (keepNote s) = some (r, pg)) ∧ (r ≠ 6)) ∧
    (∃ (s : State) (sec : Word),
      (Canon s) ∧ (s.park = .committed)) ∧
    (∃ (s : State) (levels : Byte),
      (Canon s) ∧ (s.park = .closing) ∧ (s.wk.latched = [])) :=
  ⟨⟨giv (setF { rS with mode := .hold } 3 R.RST.HOLDWHY.WHY 5) 0, .ec3, canon_of (by decide +kernel), mayWrite_of (by decide +kernel), by decide +kernel⟩,
   ⟨giv rS 0, .ec3, canon_of (by decide +kernel), mayWrite_of (by decide +kernel), by decide +kernel⟩,
   ⟨giv rS 0, .ec3, canon_of (by decide +kernel), mayWrite_of (by decide +kernel), by decide +kernel⟩,
   ⟨rS, false, canon_of (by decide +kernel), by decide +kernel⟩,
   ⟨(List.range 12).foldl (fun s b => setFlag s (0x68 + b) R.HB.STAT.STILL true) { rS with park := .quiesce }, false, false, canon_of (by decide +kernel), by decide +kernel⟩,
   ⟨setFlag { rS with park := .quiesce } 1 R.PMU.KEEP.HOSTKA true, false, false, 1, 1, canon_of (by decide +kernel), by decide +kernel⟩,
   ⟨{ rS with park := .committed }, 0, canon_of (by decide +kernel), by decide +kernel⟩,
   ⟨{ rS with park := .closing }, 0, canon_of (by decide +kernel), by decide +kernel⟩⟩

theorem test_hypotheses_Wakes_1 :
    (∃ (s : State) (b8 : Fin 8) (also : Byte) (sec : Word) (sub : BitVec 16),
      (Canon s) ∧ ((s.mode = .park ∨ s.mode = .watch)) ∧ (s.park = .none) ∧ (wakeArmed s 1 b8.val = true) ∧ (((cfg s 0x01 R.PMU.WROUTE.LST).testBit b8.val = false ∨ also.getLsbD 5 = true))) ∧
    (∃ (s : State) (b8 : Fin 8) (also : Byte) (sec : Word) (sub : BitVec 16),
      (Canon s) ∧ ((s.mode = .park ∨ s.mode = .watch)) ∧ (s.park = .none) ∧ (wakeArmed s 1 b8.val = true) ∧ ((cfg s 0x01 R.PMU.WROUTE.LST).testBit b8.val = true) ∧ (also.getLsbD 5 = false)) ∧
    (∃ (s : State) (b2 : Fin 2) (also : Byte) (sec : Word) (sub : BitVec 16),
      (Canon s) ∧ ((s.mode = .park ∨ s.mode = .watch)) ∧ (s.park = .none) ∧ (wakeArmed s 2 b2.val = true) ∧ (((cfg s 0x01 R.PMU.WROUTE.LST).testBit b2.val = false ∨ also.getLsbD 5 = true))) ∧
    (∃ (s : State) (b2 : Fin 2) (also : Byte) (sec : Word) (sub : BitVec 16),
      (Canon s) ∧ ((s.mode = .park ∨ s.mode = .watch)) ∧ (s.park = .none) ∧ (wakeArmed s 2 b2.val = true) ∧ ((cfg s 0x01 R.PMU.WROUTE.LST).testBit b2.val = true) ∧ (also.getLsbD 5 = false)) ∧
    (∃ (s : State) (b6 : Fin 6) (also : Byte) (sec : Word) (sub : BitVec 16),
      (Canon s) ∧ ((s.mode = .park ∨ s.mode = .watch)) ∧ (s.park = .none) ∧ (wakeArmed s 3 (b6.val + 2) = true) ∧ (((cfg s 0x01 R.PMU.WROUTE.LST).testBit (b6.val + 2) = false ∨ also.getLsbD 5 = true))) ∧
    (∃ (s : State) (b6 : Fin 6) (also : Byte) (sec : Word) (sub : BitVec 16),
      (Canon s) ∧ ((s.mode = .park ∨ s.mode = .watch)) ∧ (s.park = .none) ∧ (wakeArmed s 3 (b6.val + 2) = true) ∧ ((cfg s 0x01 R.PMU.WROUTE.LST).testBit (b6.val + 2) = true) ∧ (also.getLsbD 5 = false)) ∧
    (∃ (s : State) (laneB : Bool) (also : Byte) (sec : Word) (sub : BitVec 16),
      (Canon s) ∧ ((s.mode = .park ∨ s.mode = .watch)) ∧ (s.park = .none) ∧ (wakeArmed s 4 laneB.toNat = true)) ∧
    (∃ (s : State) (b8 : Fin 8) (high : Bool) (also : Byte) (sec : Word) (sub : BitVec 16),
      (Canon s) ∧ ((s.mode = .park ∨ s.mode = .watch)) ∧ (s.park = .none) ∧ (wakeArmed s 5 b8.val = true) ∧ (s.wk.level.testBit b8.val ≠ high)) :=
  ⟨⟨put (zS .park) 1 R.PMU.WEN.LINW 1, 2, 0, 0, 0, canon_of (by decide +kernel), by decide +kernel⟩,
   ⟨put (put (zS .watch) 1 R.PMU.WEN.LINW 1) 1 R.PMU.WROUTE.LST 4, 2, 0, 0, 0, canon_of (by decide +kernel), by decide +kernel⟩,
   ⟨put (put (zS .park) 1 R.PMU.WEN.CANW 3) 1 R.PMU.WEN.CANWUP 3, 1, 0, 0, 0, canon_of (by decide +kernel), by decide +kernel⟩,
   ⟨put (put (put (zS .park) 1 R.PMU.WEN.CANW 3) 1 R.PMU.WEN.CANWUP 3) 1 R.PMU.WROUTE.LST 3, 1, 0, 0, 0, canon_of (by decide +kernel), by decide +kernel⟩,
   ⟨put (zS .park) 1 R.PMU.WEN.LINW 0x20, 5, 0, 0, 0, canon_of (by decide +kernel), by decide +kernel⟩,
   ⟨put (put (zS .park) 1 R.PMU.WEN.LINW 0x20) 1 R.PMU.WROUTE.LST 0x80, 5, 0, 0, 0, canon_of (by decide +kernel), by decide +kernel⟩,
   ⟨put (zS .park) 1 R.PMU.WEN.RINGW 3, true, 0, 0, 0, canon_of (by decide +kernel), by decide +kernel⟩,
   ⟨put (zS .park) 1 R.PMU.SWW.EN 0x80, 7, true, 0, 0, 0, canon_of (by decide +kernel), by decide +kernel⟩⟩

theorem test_hypotheses_Wakes_2 :
    (∃ (s : State) (also : Byte) (sec : Word) (sub : BitVec 16),
      (Canon s) ∧ ((s.mode = .park ∨ s.mode = .watch)) ∧ (s.park = .none) ∧ (wakeArmed s 6 0 = true) ∧ (sec ≠ 0) ∧ (getF s 0x01 R.PMU.RTCALM.SEC = sec.toNat)) ∧
    (∃ (s : State) (also : Byte) (sec : Word) (sub : BitVec 16),
      (Canon s) ∧ ((s.mode = .park ∨ s.mode = .watch)) ∧ (s.park = .none) ∧ (wakeArmed s 7 0 = true)) :=
  ⟨⟨setF (put (zS .park) 1 R.PMU.WEN.RTCW 1) 1 R.PMU.RTCALM.SEC 9, 0, 9, 0, canon_of (by decide +kernel), by decide +kernel⟩,
   ⟨put (zS .park) 1 R.PMU.WEN.SBW 1, 0, 0, 0, canon_of (by decide +kernel), by decide +kernel⟩⟩

theorem test_hypotheses_ListenAndWatch_1 :
    (∃ (s : State),
      (Canon s) ∧ (s.mode = .listen)) ∧
    (∃ (s : State) (t : ListenTraffic) (ok : Bool),
      (Canon s) ∧ (s.mode = .listen) ∧ ((cfg s 0x01 R.PMU.WROUTE.LST).testBit (trafficBus t) = true) ∧ (qualifies { s with aonCopyOk := s.aonCopyOk && ok } t = true)) ∧
    (∃ (s : State) (t : ListenTraffic) (ok : Bool),
      (Canon s)) ∧
    (∃ (s : State) (k : Fin 6) (whole : Bool) (ok : Bool),
      (Canon s) ∧ (s.mode = .listen) ∧ (s.wk.pulses.testBit k.val = false)) ∧
    (∃ (s : State),
      (Canon s) ∧ (s.mode = .watch) ∧ (s.wk.cyc = []) ∧ (immPollPer s = 0)) ∧
    (∃ (s : State) (levels : BitVec 64) (also : Byte) (sec : Word) (sub : BitVec 16),
      (Canon s) ∧ (s.mode = .watch) ∧ (s.park = .none) ∧ (cycDiff s levels.toNat ≠ [])) ∧
    (∃ (s : State) (levels : BitVec 64) (also : Byte) (sec : Word) (sub : BitVec 16),
      (Canon s) ∧ (s.mode = .watch) ∧ (s.park = .none) ∧ (s.wk.cyc ≠ [])) ∧
    (∃ (s : State) (levels : BitVec 64) (also : Byte) (sec : Word) (sub : BitVec 16),
      (Canon s) ∧ (s.mode = .watch) ∧ (s.park = .none) ∧ (s.wk.diff ≠ [])) :=
  ⟨⟨zS .listen, canon_of (by decide +kernel), by decide +kernel⟩,
   ⟨put (zS .listen) 1 R.PMU.WROUTE.LST 0x80, .lin 5 0 [] 0, false, canon_of (by decide +kernel), by decide +kernel⟩,
   ⟨zS .watch, .linWake 5, false, canon_of (by decide +kernel)⟩,
   ⟨zS .listen, 0, false, false, canon_of (by decide +kernel), by decide +kernel⟩,
   ⟨zS .watch, canon_of (by decide +kernel), by decide +kernel⟩,
   ⟨{ zS .watch with wk := { WakeSt.init with cyc := [(0, false)] } }, 1, 0, 0, 0, canon_of (by decide +kernel), by decide +kernel⟩,
   ⟨{ zS .watch with wk := { WakeSt.init with cyc := [(0, false)] } }, 1, 0, 0, 0, canon_of (by decide +kernel), by decide +kernel⟩,
   ⟨{ zS .watch with wk := { WakeSt.init with diff := [(0, true)] } }, 1, 0, 0, 0, canon_of (by decide +kernel), by decide +kernel⟩⟩

theorem test_hypotheses_ListenAndWatch_2 :
    (∃ (s : State) (ok : Bool) (heard : List LfPoll) (also : Byte) (sec : Word) (sub : BitVec 16),
      (Canon s) ∧ (s.mode = .watch) ∧ (s.park = .none)) ∧
    (∃ (s : State),
      (Canon s) ∧ (s.mode = .watch) ∧ (immPollPer s ≠ 0) ∧ (s.imm.pollTab.getD s.imm.step 0 / 65536 ≠ 0xFFFF)) :=
  ⟨⟨zS .watch, false, [], 0, 0, 0, canon_of (by decide +kernel), by decide +kernel⟩,
   ⟨{ zS .watch with imm := { ImmSt.init with pollOn := true, pollTab := [0x10001, 1], step := 0 } }, canon_of (by decide +kernel), by decide +kernel⟩⟩

theorem test_hypotheses_BootSequence_1 :
    (∃ (s : State) (time : BitVec 16) (g : _),
      (Canon s) ∧ (s.mode = .boot) ∧ (s.rfxLoaded = false) ∧ (configured s 0x1D = false) ∧ (dirGen s = some g) ∧ ((crc32 ((fieldWords 0x1D (wordsOf (recImage s g 0))).flatMap wordBytes)).toNat ≠ recCrc s g 0)) ∧
    (∃ (s : State) (time : BitVec 16) (g : _),
      (Canon s) ∧ (s.mode = .boot) ∧ (s.rfxLoaded = false) ∧ (configured s 0x1D = false) ∧ (dirGen s = some g) ∧ ((crc32 ((fieldWords 0x1D (wordsOf (recImage s g 0))).flatMap wordBytes)).toNat = recCrc s g 0) ∧ (rangeFail (shadowPut s 0x1D (fieldWords 0x1D (wordsOf (recImage s g 0)))) 0x1D = none)) ∧
    (∃ (s : State) (recov : Bool) (bad : List (Fin 512)) (cnt : Option Word),
      (Canon s) ∧ (s.mode = .boot) ∧ (getF s 0x03 R.RST.BOOT.PHASE = 0) ∧ (slipPending s = false)) :=
  ⟨⟨dirS 1, 0, 1, canon_of (by decide +kernel), by decide +kernel, by decide +kernel, by decide +kernel, of_decide_eq_true (by decide +kernel), by rw [dir_words_bad]; decide +kernel⟩,
   ⟨dirS 0xf1e8ba9e, 0, 1, canon_of (by decide +kernel), by decide +kernel, by decide +kernel, by decide +kernel, of_decide_eq_true (by decide +kernel), by rw [dir_words_good]; decide +kernel, by rw [dir_words_good]; exact dir_range⟩,
   ⟨State.reset, true, [], none, canon_of (by decide +kernel), by decide +kernel⟩⟩

theorem test_hypotheses_BootSequence_2 :
    (∃ (s : State) (recov : Bool) (cnt : Option Word),
      (Canon s) ∧ (s.mode = .boot) ∧ (getF s 0x03 R.RST.BOOT.PHASE = 0) ∧ (slipPending s = false) ∧ (lcs s ≠ 4) ∧ ((recov = true ∨ s.sbp.recov = true))) ∧
    (∃ (s : State) (recov : Bool) (cnt : Option Word),
      (Canon s) ∧ (s.mode = .boot) ∧ (getF s 0x03 R.RST.BOOT.PHASE = 0) ∧ (slipPending s = false) ∧ (lcs s = 4)) ∧
    (∃ (s : State),
      (Canon s) ∧ (s.mode = .boot) ∧ (getF s 0x03 R.RST.BOOT.PHASE = 3) ∧ (s.flt.opened.any (fun e => decide (4 ≤ e.2)) = false)) :=
  ⟨⟨State.reset, true, none, canon_of (by decide +kernel), by decide +kernel⟩,
   ⟨scrS, false, none, canon_of (by decide +kernel), by decide +kernel, by decide +kernel, by decide +kernel, scr_lcs⟩,
   ⟨setF (setF State.reset 3 R.RST.BOOT.PHASE 3) 3 R.RST.HOLDWHY.WHY 3, canon_of (by decide +kernel), by decide +kernel⟩⟩

theorem test_hypotheses_BootSequence_3 :
    (∃ (s : State) (data : List Byte),
      (Canon s) ∧ (inRecovery s = true) ∧ (5 ≤ data.length) ∧ (data.length ≤ 4095) ∧ (bytesToNat (data.take 4) + (data.drop 4).length ≤ 0x200000)) ∧
    (∃ (s : State),
      (Canon s) ∧ (inRecovery s = true) ∧ ((slipPending s = false ∨ ctnType s 0 ≠ 2))) :=
  ⟨⟨setF State.reset 3 R.RST.BOOT.PHASE 5, [0, 0, 0, 0, 1], canon_of (by decide +kernel), by decide +kernel⟩,
   ⟨setF State.reset 3 R.RST.BOOT.PHASE 5, canon_of (by decide +kernel), by decide +kernel⟩⟩

theorem test_hypotheses_HscWrites_1 :
    (∃ (s : State) (who : Who) (n : Fin 72) (v : Word),
      (Canon s) ∧ (MayWrite s who (hscPage n.val) 0x100)) ∧
    (∃ (s : State) (who : Who) (n : Fin 72) (v : Word),
      (Canon s) ∧ (MayWrite s who (hscPage n.val) 0x104)) ∧
    (∃ (s : State) (who : Who) (n : Fin 72) (v : Word),
      (Canon s) ∧ (MayWrite s who (hscPage n.val) 0x108)) ∧
    (∃ (s : State) (who : Who) (n : Fin 72) (v : Word),
      (Canon s) ∧ (MayWrite s who (hscPage n.val) 0x10C)) ∧
    (∃ (s : State) (n : Fin 72) (d : _) (o : _),
      (Canon s) ∧ (running s = true) ∧ ((hscGet s n).gen = true) ∧ (hscDemand s n = (.gen d, o)) ∧ (grpClock s (cfg s (hscPage n.val) R.HSC.CFG.FGRP) (cfg s (hscPage n.val) R.HSC.CFG.PHASE * grpClocks (cfg s (hscPage n.val) R.HSC.CFG.FGRP) / 4096) = true)) ∧
    (∃ (s : State) (n : Fin 72) (code : BitVec 12) (enh : Bool) (neg : Bool) (served : Bool),
      (Canon s) ∧ (running s = true) ∧ ((hscGet s n).gen = true) ∧ (hscGate s n = true) ∧ (getF s (hscPage n.val) R.HSC.STAT.DEFF ≠ 4095)) ∧
    (∃ (s : State) (b : Fin 12),
      (Canon s) ∧ (running s = true) ∧ ((hbGet s b).gen = true) ∧ (grpClock s (cfg s (hbPage b.val) R.HB.CFG.FGRP) (cfg s (hbPage b.val) R.HB.CFG.PHASE * grpClocks (cfg s (hbPage b.val) R.HB.CFG.FGRP) / 4096) = true)) ∧
    (∃ (s : State) (b : Fin 12) (code : BitVec 12) (enh : Bool) (neg : Bool) (served : Bool),
      (Canon s) ∧ (running s = true) ∧ ((hbGet s b).gen = true) ∧ ((hbGet s b).gate = true) ∧ (getF s (hbPage b.val) R.HB.STAT.DEFF ≠ 4095)) :=
  ⟨⟨upg rS 0x20, .ec3, 0, 3, canon_of (by decide +kernel), mayWrite_of (by decide +kernel)⟩,
   ⟨upg rS 0x20, .ec3, 0, 3, canon_of (by decide +kernel), mayWrite_of (by decide +kernel)⟩,
   ⟨upg rS 0x20, .ec3, 0, 3, canon_of (by decide +kernel), mayWrite_of (by decide +kernel)⟩,
   ⟨upg rS 0x20, .ec3, 0, 3, canon_of (by decide +kernel), mayWrite_of (by decide +kernel)⟩,
   ⟨hscSet (put (setF (setF (upg rS 0x20) 0x20 R.HSC.CMD.ON 1) 0x20 R.HSC.DUTY.DUTY 2048) 0x20 R.HSC.MODE.MODE 1) 0 { HscSt.init with gen := true }, 0, _, _, canon_of (by decide +kernel), by decide +kernel, by decide +kernel, rfl, by decide +kernel⟩,
   ⟨setFlag (hscSet rS 0 { HscSt.init with gen := true }) 0x20 R.HSC.STAT.GATE true, 0, 0, false, false, false, canon_of (by decide +kernel), by decide +kernel⟩,
   ⟨hbSet (setF (upg rS 0x68) 0x68 R.HB.DUTY.DUTY 2048) 0 { HbSt.init with gen := true }, 0, canon_of (by decide +kernel), by decide +kernel⟩,
   ⟨hbSet rS 0 { HbSt.init with gen := true, gate := true }, 0, 5, false, true, false, canon_of (by decide +kernel), by decide +kernel⟩⟩

theorem test_hypotheses_HscWrites_2 :
    (∃ (s : State) (n : Fin 72),
      (Canon s) ∧ (grpClock s (cfg s (hscPage n.val) R.HSC.CFG.FGRP) (cfg s (hscPage n.val) R.HSC.CFG.PHASE * grpClocks (cfg s (hscPage n.val) R.HSC.CFG.FGRP) / 4096) = false)) ∧
    (∃ (s : State) (b : Fin 12),
      (Canon s) ∧ (grpClock s (cfg s (hbPage b.val) R.HB.CFG.FGRP) (cfg s (hbPage b.val) R.HB.CFG.PHASE * grpClocks (cfg s (hbPage b.val) R.HB.CFG.FGRP) / 4096) = false)) :=
  ⟨⟨{ upg rS 0x20 with pwrTick := 5 }, 0, canon_of (by decide +kernel), by decide +kernel⟩,
   ⟨{ put (upg rS 0x68) 0x68 R.HB.CFG.FGRP 0 with pwrTick := 5 }, 0, canon_of (by decide +kernel), by decide +kernel⟩⟩

theorem test_hypotheses_Protection_1 :
    (∃ (s : State) (o : ProtOut),
      (Canon s) ∧ (running s = true) ∧ ((∀ a, o ≠ .lfa a)) ∧ (o ≠ .sbk) ∧ (o ≠ .lmx) ∧ ((protGet s (protOwner s o)).slewOff = false)) ∧
    (∃ (s : State) (o : ProtOut),
      (Canon s) ∧ (running s = true) ∧ ((o = .sbk ∨ o = .lmx ∨ ∃ a, o = .lfa a))) ∧
    (∃ (s : State) (o : ProtOut),
      (Canon s) ∧ (running s = true) ∧ ((∀ a, o ≠ .lfa a)) ∧ (o ≠ .sbk) ∧ ((protGet s o).latchT = false) ∧ (s.flt.level.contains (protPage o * 8 + 2) = false)) ∧
    (∃ (s : State) (o : ProtOut),
      (Canon s) ∧ (running s = true) ∧ (o = .sbk) ∧ (s.flt.level.contains 1060 = false)) ∧
    (∃ (s : State) (o : ProtOut),
      (Canon s) ∧ (running s = true) ∧ ((∀ a, o ≠ .lfa a)) ∧ (o ≠ .sbk) ∧ ((protGet s o).latchT = true)) ∧
    (∃ (s : State) (o : ProtOut),
      (Canon s) ∧ (running s = true) ∧ (o = .sbk)) ∧
    (∃ (s : State) (o : ProtOut),
      (Canon s) ∧ (running s = true) ∧ ((∀ a, o ≠ .lfa a)) ∧ (o ≠ .sbk) ∧ ((protGet s o).latchD = false) ∧ (s.flt.level.contains (protPage o * 8 + 3) = false)) ∧
    (∃ (s : State) (o : ProtOut),
      (Canon s) ∧ (running s = true) ∧ ((∀ a, o ≠ .lfa a)) ∧ (o ≠ .sbk) ∧ ((protGet s o).latchD = true)) :=
  ⟨⟨rS, .hsc 0, canon_of (by decide +kernel), by decide +kernel, by intro a; simp, by decide +kernel⟩,
   ⟨rS, .lmx, canon_of (by decide +kernel), by decide +kernel, Or.inr (Or.inl rfl)⟩,
   ⟨rS, .hsc 0, canon_of (by decide +kernel), by decide +kernel, by intro a; simp, by decide +kernel⟩,
   ⟨rS, .sbk, canon_of (by decide +kernel), by decide +kernel⟩,
   ⟨hscSet rS 0 { HscSt.init with prot := { Prot.init with latchT := true } }, .hsc 0, canon_of (by decide +kernel), by decide +kernel, by intro a; simp, by decide +kernel⟩,
   ⟨{ rS with sbk := { SbkSt.init with latch := true } }, .sbk, canon_of (by decide +kernel), by decide +kernel⟩,
   ⟨rS, .hsc 0, canon_of (by decide +kernel), by decide +kernel, by intro a; simp, by decide +kernel⟩,
   ⟨hscSet rS 0 { HscSt.init with prot := { Prot.init with latchD := true } }, .hsc 0, canon_of (by decide +kernel), by decide +kernel, by intro a; simp, by decide +kernel⟩⟩

theorem test_hypotheses_Protection_2 :
    (∃ (s : State) (o : ProtOut),
      (Canon s) ∧ (running s = true) ∧ ((protGet s (protOwner s o)).rdly = true)) ∧
    (∃ (s : State) (o : ProtOut),
      (Canon s) ∧ (running s = true) ∧ (protReady s (protOwner s o) = true) ∧ (protWanted s (protOwner s o) = true)) ∧
    (∃ (s : State) (o : ProtOut),
      (Canon s) ∧ (running s = true) ∧ ((protGet s (protOwner s o)).tripped = false) ∧ ((protGet s (protOwner s o)).lockout = false)) ∧
    (∃ (s : State) (n : Fin 72),
      (Canon s) ∧ (running s = true) ∧ (hscNearVf s n = false)) ∧
    (∃ (s : State) (n : Fin 72),
      (Canon s) ∧ (running s = true) ∧ ((hscGet s n).charging = true) ∧ (hscNearVf s n = true)) ∧
    (∃ (s : State) (n : Fin 72),
      (Canon s) ∧ (running s = true) ∧ ((hscGet s n).charging = true) ∧ ((hscGet s n).on = true) ∧ ((hscGet s n).prot.slewOff = false)) ∧
    (∃ (s : State) (n : Fin 72),
      (Canon s) ∧ (running s = true)) :=
  ⟨⟨hscSet rS 0 { HscSt.init with prot := { Prot.init with rdly := true } }, .hsc 0, canon_of (by decide +kernel), by decide +kernel⟩,
   ⟨hscSet (put (setF (upg rS 0x20) 0x20 R.HSC.CMD.ON 1) 0x20 R.HSC.WIRE.RETRY 5) 0 { HscSt.init with theta := 0, prot := { Prot.init with tripped := true, rused := 3 } }, .hsc 0, canon_of (by decide +kernel), by decide +kernel⟩,
   ⟨hscSet rS 0 { HscSt.init with prot := { Prot.init with rused := 3 } }, .hsc 0, canon_of (by decide +kernel), by decide +kernel⟩,
   ⟨rS, 0, canon_of (by decide +kernel), by decide +kernel⟩,
   ⟨hscSet (setF (setF (upg rS 0x20) 0x20 R.HSC.VOUT.VALID 1) 0x20 R.HSC.VOUT.CODE 800) 0 { HscSt.init with vf := 800 * 65536, charging := true }, 0, canon_of (by decide +kernel), by decide +kernel⟩,
   ⟨hscSet rS 0 { HscSt.init with charging := true, on := true }, 0, canon_of (by decide +kernel), by decide +kernel⟩,
   ⟨rS, 0, canon_of (by decide +kernel), by decide +kernel⟩⟩

theorem test_hypotheses_Sequencer_1 :
    (∃ (s : State) (m : TickSamples),
      (Canon s) ∧ (running s = true)) ∧
    (∃ (s : State) (base : BitVec 12) (refs : List (BitVec 12)),
      (Canon s) ∧ (running s = true) ∧ (msTick s 0 = false)) ∧
    (∃ (s : State) (base : BitVec 12) (refs : List (BitVec 12)),
      (Canon s) ∧ (running s = true) ∧ (msTick s 0 = true) ∧ (msqFresh s .temperature = true) ∧ (refs.length = 4)) ∧
    (∃ (s : State) (n : Fin 72) (currents : List Nat),
      (Canon s) ∧ (running s = true) ∧ (blockOff s 0x1E = false) ∧ (hscGate s n = true) ∧ (msqFresh s .wear = true) ∧ (hscNominal n ≤
        4 * (((List.range 9).filter fun j => (getF s (hscPage n.val) R.HSC.SEG.ACTIVE).testBit j).map fun j => currents.getD j 0).sum)) ∧
    (∃ (s : State) (src : Fin 6) (idx : Byte) (code : BitVec 12) (j : _),
      (Canon s) ∧ (running s = true) ∧ (j < 4) ∧ (blockOff s 0x1E = false) ∧ (sysLost s = false) ∧ (cfgOn s 0x1E (R.MSQ.SCFG.EN j) = true) ∧ (cfg s 0x1E (R.MSQ.SCFG.SRC j) = src.val) ∧ ((∀ i, i < 4 → i ≠ j → cfgOn s 0x1E (R.MSQ.SCFG.EN i) = false ∨ cfg s 0x1E (R.MSQ.SCFG.SRC i) ≠ src.val)) ∧ (busReach s 0x1E = true) ∧ (streamFresh s src.val idx.toNat = true) ∧ (let wp := getF s 0x1E (R.MSQ.SWP.OFF j)
      let next := (wp + 4) % (256 * 2 ^ cfg s 0x1E (R.MSQ.SCFG.LEN j))
      next ≠ getF s 0x1E (R.MSQ.SRP.OFF j))) ∧
    (∃ (s : State) (k : Fin 4) (dev : Int),
      (Canon s) ∧ (running s = true) ∧ (8 < dev.natAbs)) ∧
    (∃ (s : State) (k : Fin 4),
      (Canon s) ∧ (running s = true) ∧ ((getF s 0x1E R.MSQ.STAT.SFAIL).testBit k.val = true) ∧ (s.spr.slice = none) ∧ (blockOff s 0x9A = false)) ∧
    (∃ (s : State) (n : Fin 72),
      (Canon s) ∧ (running s = true) ∧ (getF s (hscPage n.val) R.HSC.SEG.FAILED ≠ 0) ∧ (hscGate s n = false) ∧ (cfgOn s 0x9A R.SPR.CFG.SEGEN = true) ∧ (s.spr.segs.testBit n.val = false) ∧ (blockOff s 0x9A = false)) :=
  ⟨⟨rS, ⟨0, [], [], [], [], [], [], [], 800, 0, false⟩, canon_of (by decide +kernel), by decide +kernel⟩,
   ⟨{ rS with msDone := 1 }, 0, [], canon_of (by decide +kernel), by decide +kernel⟩,
   ⟨rS, 800, [800, 800, 900, 4095], canon_of (by decide +kernel), by decide +kernel⟩,
   ⟨setFlag (rS) 0x20 R.HSC.STAT.GATE true, 0, [5000, 1, 2, 3, 4, 5, 6, 7, 8], canon_of (by decide +kernel), by decide +kernel⟩,
   ⟨{ put (put rS 0x1E (R.MSQ.SCFG.EN 0) 1) 0x1E (R.MSQ.SBASE.BASE 0) 0x20000000 with committer := [(0x1E, 3)] }, 0, 0, 9, 0, canon_of (by decide +kernel), by decide +kernel⟩,
   ⟨rS, 0, -9, canon_of (by decide +kernel), by decide +kernel⟩,
   ⟨setF rS 0x1E R.MSQ.STAT.SFAIL 1, 0, canon_of (by decide +kernel), by decide +kernel⟩,
   ⟨put (setF rS 0x20 R.HSC.SEG.FAILED 1) 0x9A R.SPR.CFG.SEGEN 1, 0, canon_of (by decide +kernel), by decide +kernel⟩⟩

theorem test_hypotheses_Sequencer_2 :
    (∃ (s : State),
      (Canon s) ∧ (running s = true) ∧ (blockOff s 0x1E = false)) :=
  ⟨rS, canon_of (by decide +kernel), by decide +kernel⟩

theorem test_hypotheses_Diagnostics_1 :
    (∃ (s : State) (n : Fin 72),
      (Canon s) ∧ (running s = true) ∧ (cfg s (hscPage n.val) R.HSC.DIAG.OLPU ≠ 0) ∧ (offCheckBarred s n = false) ∧ ((hscGet s n).phase = 0) ∧ (((hscGet s n).gen = false ∨ cfg s (hscPage n.val) R.HSC.DIAG.LDS = 3))) ∧
    (∃ (s : State) (n : Fin 72) (vout : BitVec 12) (room : Bool),
      (Canon s) ∧ (running s = true) ∧ ((hscGet s n).phase = 1) ∧ (hscGate s n = false) ∧ (blockOff s 0x1E = false) ∧ (msqFresh s .hscVout = true)) ∧
    (∃ (s : State) (n : Fin 72) (vout : BitVec 12) (room : Bool),
      (Canon s) ∧ (running s = true) ∧ ((hscGet s n).phase = 2) ∧ (hscGate s n = false) ∧ (blockOff s 0x1E = false) ∧ (msqFresh s .hscVout = true) ∧ (cfg s 0x1E R.MSQ.CFG.OLCNT ≤ 1)) ∧
    (∃ (s : State) (n : Fin 72),
      (Canon s) ∧ (running s = true)) ∧
    (∃ (s : State) (b : Fin 12),
      (Canon s) ∧ (running s = true) ∧ ((hbGet s b).rev = true) ∧ ((hbGet s b).gen = false) ∧ (hbAmps s b < 100) ∧ ((safeInForce s (72 + b.val) = true → isSet s (hbPage b.val) R.HB.STAT.SAFEACT = true)) ∧ ((hbDemand s b).1 ≠ 0) ∧ (modePermits s (hbDemand s b).2.2 = true) ∧ (shed s (72 + b.val) = false) ∧ (hbProtPermits s b = true) ∧ (hbFollower s b = false)) ∧
    (∃ (s : State) (b : Fin 12),
      (Canon s) ∧ (running s = true) ∧ ((hbGet s b).gen = true) ∧ ((hbGet s b).gate = true) ∧ (cfg s (hbPage b.val) R.HB.LIM.ILIM ≠ 0)) ∧
    (∃ (s : State) (b : Fin 12),
      (Canon s) ∧ (running s = true) ∧ ((hbGet s b).gen = true) ∧ ((hbGet s b).gate = false) ∧ (getF s (hbPage b.val) R.HB.STAT.DEFF = 4095)) ∧
    (∃ (s : State) (b : Fin 12),
      (Canon s) ∧ (running s = true) ∧ ((hbGet s b).on = true) ∧ (hbDrives (hbGet s b).act = true) ∧ (cfg s (hbPage b.val) R.HB.STALL.STIME ≠ 0) ∧ ((protGet s (protOwner s (.hb b))).slewOff = false)) :=
  ⟨⟨put (setF rS 0x1E (R.MSQ.VDIE.CODE 0) 800) 0x20 R.HSC.DIAG.OLPU 1, 0, canon_of (by decide +kernel), by decide +kernel⟩,
   ⟨hscSet (setF rS 0x1E (R.MSQ.VDIE.CODE 0) 800) 0 { HscSt.init with phase := 1 }, 0, 700, true, canon_of (by decide +kernel), by decide +kernel⟩,
   ⟨hscSet (put (setF rS 0x1E (R.MSQ.VDIE.CODE 0) 800) 0x1E R.MSQ.CFG.OLCNT 1) 0 { HscSt.init with phase := 2 }, 0, 400, false, canon_of (by decide +kernel), by decide +kernel⟩,
   ⟨rS, 0, canon_of (by decide +kernel), by decide +kernel⟩,
   ⟨hbSet (setF (up rS 0x68) 0x68 R.HB.CMD.ACT 1) 0 { HbSt.init with rev := true }, 0, canon_of (by decide +kernel), by decide +kernel⟩,
   ⟨hbSet (put rS 0x68 R.HB.LIM.ILIM 5) 0 { HbSt.init with gen := true, gate := true }, 0, canon_of (by decide +kernel), by decide +kernel⟩,
   ⟨hbSet (setF rS 0x68 R.HB.STAT.DEFF 4095) 0 { HbSt.init with gen := true }, 0, canon_of (by decide +kernel), by decide +kernel⟩,
   ⟨hbSet (put rS 0x68 R.HB.STALL.STIME 3) 0 { HbSt.init with on := true, act := 1 }, 0, canon_of (by decide +kernel), by decide +kernel⟩⟩

theorem test_hypotheses_Diagnostics_2 :
    (∃ (s : State) (b : Fin 12) (per : BitVec 16) (mean : BitVec 12),
      (Canon s) ∧ (running s = true) ∧ (hbRippleRuns s b = true) ∧ (hbTexp s b ≤ 2 * per.toNat)) ∧
    (∃ (s : State) (b : Fin 12),
      (Canon s) ∧ (running s = true) ∧ (hbRippleRuns s b = true) ∧ ((hbGet s b).insRun < 2)) ∧
    (∃ (s : State) (b : Fin 12),
      (Canon s) ∧ (running s = true) ∧ ((hbDrives (hbGet s b).act && (hbGet s b).on) = false) ∧ (hbDrives (getF s (hbPage b.val) R.HB.CMD.ACT) = false) ∧ (hbAmps s b < 20)) ∧
    (∃ (s : State) (b : Fin 12),
      (Canon s) ∧ (running s = true) ∧ ((hbGet s b).on = true) ∧ ((hbGet s b).act = 5) ∧ (cfg s (hbPage b.val) R.HB.PARK.PTO ≠ 0) ∧ ((hbRawDemand s b).1 = 5) ∧ ((safeInForce s (72 + b.val) = true → isSet s (hbPage b.val) R.HB.STAT.SAFEACT = true))) :=
  ⟨⟨put rS 0x68 R.HB.RIP.EN 1, 0, 40, 0, canon_of (by decide +kernel), by decide +kernel⟩,
   ⟨hbSet (put rS 0x68 R.HB.RIP.EN 1) 0 { HbSt.init with insRun := 1 }, 0, canon_of (by decide +kernel), by decide +kernel⟩,
   ⟨rS, 0, canon_of (by decide +kernel), by decide +kernel⟩,
   ⟨hbSet (put (setF (up rS 0x68) 0x68 R.HB.CMD.ACT 5) 0x68 R.HB.PARK.PTO 3) 0 { HbSt.init with on := true, act := 5 }, 0, canon_of (by decide +kernel), by decide +kernel⟩⟩

theorem test_hypotheses_HbWrites :
    (∃ (s : State) (who : Who) (b : Fin 12) (v : Word),
      (Canon s) ∧ (MayWrite s who (hbPage b.val) 0x100) ∧ (hbFollower s b = false) ∧ (hbActOk s b (v.toNat % 16) = true)) ∧
    (∃ (s : State) (who : Who) (b : Fin 12) (v : Word),
      (Canon s) ∧ (MayWrite s who (hbPage b.val) 0x100) ∧ ((hbFollower s b = true ∨ hbActOk s b (v.toNat % 16) = false))) ∧
    (∃ (s : State) (who : Who) (b : Fin 12) (v : Word),
      (Canon s) ∧ (MayWrite s who (hbPage b.val) 0x104) ∧ (hbFollower s b = false)) ∧
    (∃ (s : State) (who : Who) (b : Fin 12) (v : Word),
      (Canon s) ∧ (MayWrite s who (hbPage b.val) 0x118)) :=
  ⟨⟨upg rS 0x68, .ec3, 0, 0x11, canon_of (by decide +kernel), mayWrite_of (by decide +kernel), by decide +kernel⟩,
   ⟨upg rS 0x68, .ec3, 0, 7, canon_of (by decide +kernel), mayWrite_of (by decide +kernel), by decide +kernel⟩,
   ⟨upg rS 0x68, .ec3, 0, 0x11, canon_of (by decide +kernel), mayWrite_of (by decide +kernel), by decide +kernel⟩,
   ⟨upg rS 0x68, .ec3, 0, 0x11, canon_of (by decide +kernel), mayWrite_of (by decide +kernel)⟩⟩

theorem test_hypotheses_ValveProfiles_1 :
    (∃ (s : State) (who : Who) (n : Fin 16) (v : Word),
      (Canon s) ∧ (MayWrite s who (solPage n.val) 0x100)) ∧
    (∃ (s : State) (who : Who) (n : Fin 16) (v : Word),
      (Canon s) ∧ (MayWrite s who (solPage n.val) 0x100) ∧ (enabled s (solPage n.val) = true) ∧ (safeInForce s (84 + n.val) = false) ∧ (rfxOn s (84 + n.val) = false) ∧ (rfxOff s (84 + n.val) = false) ∧ (modePermits s .cmd = true) ∧ (shed s (84 + n.val) = false) ∧ (solProtPermits s n.val = true) ∧ ((isSet s (solPage n.val) R.SOL.STAT.COILLIM && cfgOn s (solPage n.val) R.SOL.THM.ACT) = false) ∧ (solShares s n.val = false) ∧ ((solGet s n.val).deferred = false)) ∧
    (∃ (s : State) (who : Who) (n : Fin 16) (v : Word),
      (Canon s) ∧ (MayWrite s who (solPage n.val) 0x100) ∧ (enabled s (solPage n.val) = true) ∧ (safeInForce s (84 + n.val) = false) ∧ (rfxOn s (84 + n.val) = false) ∧ (rfxOff s (84 + n.val) = false) ∧ (modePermits s .cmd = true) ∧ (shed s (84 + n.val) = false) ∧ ((isSet s (solPage n.val) R.SOL.STAT.COILLIM && cfgOn s (solPage n.val) R.SOL.THM.ACT) = false) ∧ (solShares s n.val = false) ∧ ((solGet s n.val).deferred = false) ∧ (protReady s (.sol n) = true) ∧ ((solGet s n.val).phase ≠ .boost)) ∧
    (∃ (s : State) (n : Fin 16) (dur : BitVec 16) (ipk : BitVec 12),
      (Canon s) ∧ (running s = true) ∧ ((solGet s n.val).phase = .boost) ∧ (bankQueue s (solBank n.val) = [])) ∧
    (∃ (s : State) (n : Fin 16) (dur : BitVec 16) (ipk : BitVec 12),
      (Canon s) ∧ (running s = true) ∧ ((solGet s n.val).phase = .boost) ∧ (bankQueue s (solBank n.val) = [])) ∧
    (∃ (s : State) (n : Fin 16) (code : BitVec 12) (off : Bool) (long : Bool),
      (Canon s) ∧ (running s = true) ∧ ((solGet s n.val).phase = .hold)) ∧
    (∃ (s : State) (n : Fin 16),
      (Canon s) ∧ (running s = true) ∧ ((solGet s n.val).phase = .hold) ∧ ((solGet s n.val).trig = true) ∧ ((solGet s n.val).deferred = false)) ∧
    (∃ (s : State) (n : Fin 16),
      (Canon s) ∧ (running s = true) ∧ ((solGet s n.val).phase = .decay)) :=
  ⟨⟨upg rS 0x74, .ec3, 0, 5, canon_of (by decide +kernel), mayWrite_of (by decide +kernel)⟩,
   ⟨upg rS 0x74, .ec3, 0, 0, canon_of (by decide +kernel), mayWrite_of (by decide +kernel), by decide +kernel⟩,
   ⟨solSet (upg rS 0x74) 0 { SolSt.init with prot := { Prot.init with tripped := true } }, .ec3, 0, 0, canon_of (by decide +kernel), mayWrite_of (by decide +kernel), by decide +kernel⟩,
   ⟨solSet (rS) 0 { SolSt.init with phase := .boost }, 0, 65535, 4095, canon_of (by decide +kernel), by decide +kernel⟩,
   ⟨solSet (rS) 0 { SolSt.init with phase := .boost }, 0, 0, 0, canon_of (by decide +kernel), by decide +kernel⟩,
   ⟨solSet (rS) 0 { SolSt.init with phase := .hold }, 0, 9, true, true, canon_of (by decide +kernel), by decide +kernel⟩,
   ⟨solSet (rS) 0 { SolSt.init with phase := .hold, trig := true }, 0, canon_of (by decide +kernel), by decide +kernel⟩,
   ⟨put (solSet (rS) 0 { SolSt.init with phase := .decay }) 0x74 R.SOL.CLDC.EN 1, 0, canon_of (by decide +kernel), by decide +kernel⟩⟩

theorem test_hypotheses_ValveProfiles_2 :
    (∃ (s : State) (n : Fin 16),
      (Canon s) ∧ (running s = true) ∧ ((solGet s n.val).phase = .decay) ∧ (cfgOn s (solPage n.val) R.SOL.CLDC.EN = true)) ∧
    (∃ (s : State) (n : Fin 16) (tdec : Nat) (l : List (BitVec 12)) (k : _),
      (Canon s) ∧ (running s = true) ∧ ((solGet s n.val).phase = .window) ∧ (msqFresh s (.window (solGet s n.val).win3) = true) ∧ (cldClosing (cfg s (solPage n.val) R.SOL.CLDC.BLK * 10) (cfg s (solPage n.val) R.SOL.CLDC.STEP) (cfg s (solPage n.val) R.SOL.CLDC.TH) (l.map BitVec.toInt) = some k)) ∧
    (∃ (s : State) (n : Fin 16) (code : BitVec 12),
      (Canon s) ∧ (running s = true) ∧ ((solGet s n.val).phase = .window) ∧ (msqFresh s (.window (solGet s n.val).win3) = true)) ∧
    (∃ (s : State) (n : Fin 16),
      (Canon s) ∧ (running s = true) ∧ ((solGet s n.val).deferred = true) ∧ ((solGet s n.val).prot.slewOff = false)) :=
  ⟨⟨put (solSet (rS) 0 { SolSt.init with phase := .decay }) 0x74 R.SOL.CLDC.EN 1, 0, canon_of (by decide +kernel), by decide +kernel⟩,
   ⟨put (put (solSet (rS) 0 { SolSt.init with phase := .window }) 0x74 R.SOL.CLDC.TH 1) 0x74 R.SOL.CLDC.STEP 1, 0, 100, [0, 0, 0, 0, 0, 0, 0, 9], 7, canon_of (by decide +kernel), by decide +kernel⟩,
   ⟨put (solSet (rS) 0 { SolSt.init with phase := .window }) 0x74 R.SOL.CLDC.MISS 1, 0, 0, canon_of (by decide +kernel), by decide +kernel⟩,
   ⟨{ solSet (rS) 0 { SolSt.init with deferred := true } with sbk := { SbkSt.init with queues := [[0], [], [], []] } }, 0, canon_of (by decide +kernel), by decide +kernel⟩⟩

theorem test_hypotheses_BoostAndBanks_1 :
    (∃ (s : State) (n : Fin 16) (pairs : List (Fin 16 × BitVec 12 × BitVec 12)) (power : List (Fin 16 × Nat)),
      (Canon s) ∧ (running s = true) ∧ (cfgOn s (solPage n.val) R.SOL.THM.EN = true)) ∧
    (∃ (s : State) (n : Fin 16) (pairs : List (Fin 16 × BitVec 12 × BitVec 12)) (power : List (Fin 16 × Nat)),
      (Canon s) ∧ (running s = true) ∧ (cfgOn s (solPage n.val) R.SOL.THM.EN = false)) ∧
    (∃ (s : State) (n : Fin 16),
      (Canon s) ∧ (running s = true) ∧ (isSet s (solPage n.val) R.SOL.STAT.COILLIM = true) ∧ (cfgOn s (solPage n.val) R.SOL.THM.ACT = false) ∧ ((solGet s n.val).phase = .hold) ∧ ((solGet s n.val).deferred = false)) ∧
    (∃ (s : State) (b : Fin 4),
      (Canon s) ∧ (running s = true) ∧ (s.sbk.sel.length = 4) ∧ ((∀ m ∈ bankValves b.val, (solGet s m).phase ≠ .boost))) ∧
    (∃ (s : State) (vbst : BitVec 12),
      (Canon s) ∧ (running s = true) ∧ (vbst.toNat < cfg s 0x84 R.SBK.BSTUV.VMIN) ∧ (s.flt.level.contains 1056 = false)) ∧
    (∃ (s : State) (vbst : BitVec 12),
      (Canon s) ∧ (running s = true) ∧ (cfg s 0x84 R.SBK.BSTUV.VMIN ≤ vbst.toNat)) ∧
    (∃ (s : State) (vbst : BitVec 12),
      (Canon s) ∧ (running s = true) ∧ (11 * cfg s 0x84 R.SBK.BST.VSET < 10 * vbst.toNat)) ∧
    (∃ (s : State) (vbst : BitVec 12),
      (Canon s) ∧ (running s = true) ∧ (vbst.toNat < cfg s 0x84 R.SBK.BST.VSET)) :=
  ⟨⟨put (put (put rS 0x74 R.SOL.THM.EN 1) 0x74 R.SOL.THM2.TAU 1) 0x74 R.SOL.THM2.RTH 9, 0, [], [(0, 1000)], canon_of (by decide +kernel), by decide +kernel⟩,
   ⟨rS, 0, [], [], canon_of (by decide +kernel), by decide +kernel⟩,
   ⟨solSet (setFlag rS 0x74 R.SOL.STAT.COILLIM true) 0 { SolSt.init with phase := .hold }, 0, canon_of (by decide +kernel), by decide +kernel⟩,
   ⟨put rS 0x84 (R.SBK.SEL.SEL 3) 2, 3, canon_of (by decide +kernel), by decide +kernel⟩,
   ⟨put rS 0x84 R.SBK.BSTUV.VMIN 1, 0, canon_of (by decide +kernel), by decide +kernel⟩,
   ⟨put rS 0x84 R.SBK.BSTUV.VMIN 1, 1, canon_of (by decide +kernel), by decide +kernel⟩,
   ⟨put rS 0x84 R.SBK.BST.VSET 10, 12, canon_of (by decide +kernel), by decide +kernel⟩,
   ⟨put rS 0x84 R.SBK.BST.VSET 10, 9, canon_of (by decide +kernel), by decide +kernel⟩⟩

theorem test_hypotheses_BoostAndBanks_2 :
    (∃ (s : State),
      (Canon s) ∧ (running s = true)) ∧
    (∃ (s : State),
      (Canon s) ∧ (running s = true)) :=
  ⟨⟨rS, canon_of (by decide +kernel), by decide +kernel⟩,
   ⟨rS, canon_of (by decide +kernel), by decide +kernel⟩⟩

theorem test_hypotheses_StringEvents_1 :
    (∃ (s : State) (who : Who) (n : Fin 4) (v : Word),
      (Canon s) ∧ (MayWrite s who (lstPage n.val) 0x100)) ∧
    (∃ (s : State) (n : Fin 4) (now : BitVec 64),
      (Canon s) ∧ (busRuns s = true) ∧ (getF s (lstPage n.val) H.CST ≠ 2) ∧ ((lstGet s n.val).phase = 3) ∧ (isSet s 0x91 R.FRMC.STAT.SWPEND = false) ∧ (safeInForce s (100 + n.val) = false) ∧ (rfxOn s (100 + n.val) = false) ∧ (frameStarts (setNow s now.toNat) (lstFrame s n.val) = true)) ∧
    (∃ (s : State) (n : Fin 4),
      (Canon s) ∧ (busRuns s = true) ∧ ((lstGet s n.val).phase = 1)) ∧
    (∃ (s : State) (n : Fin 4) (k : Fin 16),
      (Canon s) ∧ (running s = true) ∧ (lstJudged s n.val k.val = true)) ∧
    (∃ (s : State) (n : Fin 4) (k : Fin 16),
      (Canon s) ∧ (running s = true) ∧ (lstJudged s n.val k.val = true) ∧ (cfg s (lstPage n.val) R.LST.DIAG.VSHT ≠ 0)) ∧
    (∃ (s : State) (n : Fin 4) (k : Fin 16),
      (Canon s) ∧ (lstJudged s n.val k.val = false)) ∧
    (∃ (s : State) (n : Fin 4) (k : Fin 16),
      (Canon s) ∧ (lstJudged s n.val k.val = false)) ∧
    (∃ (s : State) (n : Fin 4) (vout : BitVec 12),
      (Canon s) ∧ (running s = true) ∧ (cfg s (lstPage n.val) R.LST.OVP.OVP ≤ vout.toNat) ∧ ((lstGet s n.val).prot.slewOff = false)) :=
  ⟨⟨upg rS 0x88, .ec3, 0, 1, canon_of (by decide +kernel), mayWrite_of (by decide +kernel)⟩,
   ⟨{ lstSet (rS) 0 { LstSt.init with phase := 3 } with mem := memSetList [] 0x20200000 [255, 15, 0, 0, 1] }, 0, 0, canon_of (by decide +kernel), by decide +kernel⟩,
   ⟨lstSet (rS) 0 { LstSt.init with phase := 1 }, 0, canon_of (by decide +kernel), by decide +kernel⟩,
   ⟨put (setF (lstSet (rS) 0 { LstSt.init with phase := 3, frame := [4095, 20] }) 0x88 R.LST.STAT.LEFF 4095) 0x88 R.LST.CFG.POP 0xFFFF, 0, 0, canon_of (by decide +kernel), by decide +kernel⟩,
   ⟨put (put (setF (lstSet (rS) 0 { LstSt.init with phase := 3, frame := [4095, 20] }) 0x88 R.LST.STAT.LEFF 4095) 0x88 R.LST.CFG.POP 0xFFFF) 0x88 R.LST.DIAG.VSHT 1, 0, 0, canon_of (by decide +kernel), by decide +kernel⟩,
   ⟨rS, 0, 0, canon_of (by decide +kernel), by decide +kernel⟩,
   ⟨rS, 0, 0, canon_of (by decide +kernel), by decide +kernel⟩,
   ⟨put rS 0x88 R.LST.OVP.OVP 4000, 0, 4000, canon_of (by decide +kernel), by decide +kernel⟩⟩

theorem test_hypotheses_StringEvents_2 :
    (∃ (s : State) (n : Fin 4),
      (Canon s) ∧ (running s = true) ∧ ((lstGet s n.val).prot.slewOff = false)) :=
  ⟨rS, 0, canon_of (by decide +kernel), by decide +kernel⟩

theorem test_hypotheses_MatrixEvents :
    (∃ (s : State) (who : Who) (v : Word),
      (Canon s) ∧ (MayWrite s who 0x8C 0x100)) ∧
    (∃ (s : State) (now : BitVec 64),
      (Canon s) ∧ (busRuns s = true) ∧ (getF s 0x8C H.CST ≠ 2) ∧ (s.lmx.on = true) ∧ (isSet s 0x91 R.FRMC.STAT.SWPEND = false) ∧ (lmxHolds s = false) ∧ (frameStarts (setNow s now.toNat) lmxFrameLen = true)) ∧
    (∃ (s : State) (r : Fin 12) (k : Fin 24),
      (Canon s) ∧ (running s = true) ∧ (lmxRowOn s r.val = true) ∧ (lmxColOn s k.val = true) ∧ (960 ≤ s.lmx.pw.getD (24 * r.val + k.val) 0 * 27696 / 4095)) ∧
    (∃ (s : State) (r : Fin 12),
      (Canon s) ∧ (running s = true) ∧ (lmxRowOn s r.val = true)) ∧
    (∃ (s : State) (k : Fin 24),
      (Canon s) ∧ (running s = true) ∧ (lmxColOn s k.val = true)) :=
  ⟨⟨upg rS 0x8C, .ec3, 1, canon_of (by decide +kernel), mayWrite_of (by decide +kernel)⟩,
   ⟨{ rS with lmx := { LmxSt.init with on := true }, mem := memSetList [] 0x20200100 [255, 15] }, 0, canon_of (by decide +kernel), by decide +kernel⟩,
   ⟨put (put { rS with lmx := { LmxSt.init with on := true, pw := List.replicate 288 200 } } 0x8C R.LMX.CFG.ROWEN 0xFFF) 0x8C R.LMX.COLEN.COL 0xFFFFFF, 11, 23, canon_of (by decide +kernel), by decide +kernel⟩,
   ⟨put { rS with lmx := { LmxSt.init with on := true } } 0x8C R.LMX.CFG.ROWEN 0xFFF, 11, canon_of (by decide +kernel), by decide +kernel⟩,
   ⟨put { rS with lmx := { LmxSt.init with on := true } } 0x8C R.LMX.COLEN.COL 0xFFFFFF, 23, canon_of (by decide +kernel), by decide +kernel⟩⟩

theorem test_hypotheses_FrameMemory_1 :
    (∃ (s : State) (who : Who) (offs : BitVec 19) (size : AccSize) (v : Word),
      (Canon s) ∧ (running s = true) ∧ ((whoIsCore who = true ∨ who = .host ∧ manifestLoaded s = true)) ∧ (offs.toNat % accBytes size = 0) ∧ (sysLost s = false) ∧ (frmRefused s (0x20200000 + offs.toNat) = false)) ∧
    (∃ (s : State) (who : Who) (offs : BitVec 19) (size : AccSize) (v : Word),
      (Canon s) ∧ (running s = true) ∧ ((whoIsCore who = true ∨ who = .host ∧ manifestLoaded s = true)) ∧ (offs.toNat % accBytes size = 0) ∧ (sysLost s = false) ∧ (frmRefused s (0x20200000 + offs.toNat) = true)) ∧
    (∃ (s : State) (who : Who),
      (Canon s) ∧ (MayWrite s who 0x91 0x100) ∧ (isSet s 0x91 R.FRMC.STAT.SWPEND = false) ∧ (isSet s 0x91 R.FRMC.STAT.MIRR = false) ∧ (s.frmc.play = 0)) ∧
    (∃ (s : State) (kind : Fin 3) (rise : Bool) (now : BitVec 64),
      (Canon s) ∧ (busRuns s = true) ∧ (cfg s 0x91 R.FRMC.CFG.TRIG = kind.val) ∧ ((kind.val = 2 → swapTimeReached (setNow s now.toNat) = true ∧ isSet s 0x0D R.TBS.STAT.EXCL = false)) ∧ (blockOff s 0x91 = false) ∧ (isSet s 0x91 R.FRMC.CTL.ARM = true) ∧ (isSet s 0x91 R.FRMC.STAT.SWPEND = false) ∧ ((∀ k, k < 9 → enabled s (consPage k) = true)) ∧ ((kind.val = 1 → cfgOn s 0x91 R.FRMC.CFG.MPOL = !rise))) ∧
    (∃ (s : State) (kind : Fin 3) (rise : Bool) (now : BitVec 64),
      (Canon s) ∧ (busRuns s = true) ∧ (cfg s 0x91 R.FRMC.CFG.TRIG = kind.val) ∧ (kind.val = 1) ∧ (cfgOn s 0x91 R.FRMC.CFG.MPOL = (!rise)) ∧ (isSet s 0x91 R.FRMC.CTL.ARM = false) ∧ (s.frmc.play = 0)) ∧
    (∃ (s : State) (rise : Bool) (now : BitVec 64),
      (Canon s) ∧ (busRuns s = true) ∧ (swapTimeReached (setNow s now.toNat) = false)) ∧
    (∃ (s : State) (rise : Bool) (now : BitVec 64),
      (Canon s) ∧ (busRuns s = true) ∧ (cfg s 0x91 R.FRMC.CFG.TRIG = 2) ∧ (swapTimeReached (setNow s now.toNat) = true)) ∧
    (∃ (s : State) (rise : Bool) (now : BitVec 64),
      (Canon s) ∧ (running s = true) ∧ (cfg s 0x91 R.FRMC.CFG.TRIG = 1) ∧ (cfgOn s 0x91 R.FRMC.CFG.MPOL = rise)) :=
  ⟨⟨rS, .ec3, 0x7FFFC, .word, 0x11223344, canon_of (by decide +kernel), by decide +kernel⟩,
   ⟨up rS 0x88, .ec3, 0, .byte, 0, canon_of (by decide +kernel), by decide +kernel⟩,
   ⟨upg rS 0x91, .ec3, canon_of (by decide +kernel), mayWrite_of (by decide +kernel), by decide +kernel⟩,
   ⟨(List.range 9).foldl (fun s k => up s (consPage k)) (setFlag rS 0x91 R.FRMC.CTL.ARM true), 0, false, 0, canon_of (by decide +kernel), by decide +kernel⟩,
   ⟨put rS 0x91 R.FRMC.CFG.TRIG 1, 1, true, 0, canon_of (by decide +kernel), by decide +kernel⟩,
   ⟨wr rS 0x91 0x110 9, false, 0, canon_of (by decide +kernel), by decide +kernel⟩,
   ⟨put rS 0x91 R.FRMC.CFG.TRIG 2, false, 0, canon_of (by decide +kernel), by decide +kernel⟩,
   ⟨put rS 0x91 R.FRMC.CFG.TRIG 1, false, 0, canon_of (by decide +kernel), by decide +kernel⟩⟩

theorem test_hypotheses_FrameMemory_2 :
    (∃ (s : State),
      (Canon s) ∧ (busRuns s = true) ∧ (isSet s 0x91 R.FRMC.STAT.MIRR = true)) ∧
    (∃ (s : State) (who : Who),
      (Canon s) ∧ (MayWrite s who 0x91 0x11C) ∧ (cfg s 0x91 R.FRMC.ALEN.NFRM ≠ 0) ∧ (blockOff s 0x91 = false) ∧ (isSet s 0x91 R.FRMC.STAT.SWPEND = false) ∧ (isSet s 0x91 R.FRMC.STAT.MIRR = false)) ∧
    (∃ (s : State) (who : Who),
      (Canon s) ∧ (MayWrite s who 0x91 0x11C)) ∧
    (∃ (s : State),
      (Canon s) ∧ (busRuns s = true) ∧ (s.frmc.play = 2) ∧ (s.frmc.stop = false) ∧ (playReadable s ((cfg s 0x91 R.FRMC.ASRC.ADDR + getF s 0x91 R.FRMC.AFRM.IDX * cfg s 0x91 R.FRMC.ASTR.STRIDE) % 2 ^ 32) (cfg s 0x91 R.FRMC.ALEN.FLEN) = true) ∧ ((∀ c, xspCs s ((cfg s 0x91 R.FRMC.ASRC.ADDR + getF s 0x91 R.FRMC.AFRM.IDX * cfg s 0x91 R.FRMC.ASTR.STRIDE) % 2 ^ 32) = some c → xspBusy s c.1 = false))) ∧
    (∃ (s : State),
      (Canon s) ∧ (busRuns s = true) ∧ (s.frmc.play = 2) ∧ ((∀ c, xspCs s ((cfg s 0x91 R.FRMC.ASRC.ADDR + getF s 0x91 R.FRMC.AFRM.IDX * cfg s 0x91 R.FRMC.ASTR.STRIDE) % 2 ^ 32) = some c → xspBusy s c.1 = false))) ∧
    (∃ (s : State) (who : Who),
      (Canon s) ∧ (MayWrite s who 0x91 0x120)) :=
  ⟨⟨{ setFlag rS 0x91 R.FRMC.STAT.MIRR true with mem := memSetList [] 0x20200100 [1, 2] }, canon_of (by decide +kernel), by decide +kernel⟩,
   ⟨put (upg rS 0x91) 0x91 R.FRMC.ALEN.NFRM 1, .ec3, canon_of (by decide +kernel), mayWrite_of (by decide +kernel), by decide +kernel⟩,
   ⟨upg rS 0x91, .ec3, canon_of (by decide +kernel), mayWrite_of (by decide +kernel)⟩,
   ⟨put { xsS with committer := [(0x91, 3)], frmc := { FrmcSt.init with play := 2 } } 0x91 R.FRMC.ALEN.FLEN 4, canon_of (by decide +kernel), by decide +kernel⟩,
   ⟨{ rS with frmc := { FrmcSt.init with play := 2 } }, canon_of (by decide +kernel), by decide +kernel⟩,
   ⟨upg rS 0x91, .ec3, canon_of (by decide +kernel), mayWrite_of (by decide +kernel)⟩⟩

theorem test_hypotheses_PixelChains :
    (∃ (s : State) (who : Who) (n : Fin 4) (v : Word),
      (Canon s) ∧ (MayWrite s who (lchPage n.val) 0x100)) ∧
    (∃ (s : State) (n : Fin 4) (late : Option (Fin 1024)) (now : BitVec 64),
      (Canon s) ∧ (busRuns s = true) ∧ (getF s (lchPage n.val) H.CST ≠ 2) ∧ (((lchGet s n.val).phase = 1 ∨ (lchGet s n.val).phase = 3)) ∧ ((lchGet s n.val).blank = false) ∧ (isSet s 0x91 R.FRMC.STAT.SWPEND = false) ∧ (safeInForce s (105 + n.val) = false) ∧ (((lchGet s n.val).blanking && !lchWants s n.val) = false) ∧ (frameStarts (setNow s now.toNat) (lchFrameLen (cfg s (lchPage n.val) R.LCH.CFG.FRATE)) = true)) ∧
    (∃ (s : State) (n : Fin 4) (late : Option (Fin 1024)) (now : BitVec 64),
      (Canon s) ∧ (busRuns s = true) ∧ (getF s (lchPage n.val) H.CST ≠ 2) ∧ (((lchGet s n.val).phase = 1 ∨ (lchGet s n.val).phase = 3)) ∧ ((lchGet s n.val).blank = true) ∧ (isSet s 0x91 R.FRMC.STAT.SWPEND = false) ∧ (frameStarts (setNow s now.toNat) (lchFrameLen (cfg s (lchPage n.val) R.LCH.CFG.FRATE)) = true)) ∧
    (∃ (s : State) (n : Fin 4),
      (Canon s) ∧ (busRuns s = true) ∧ ((lchGet s n.val).phase = 2)) ∧
    (∃ (s : State) (n : Fin 4),
      (Canon s) ∧ (running s = true) ∧ (((lchGet s n.val).phase = 1 ∨ (lchGet s n.val).phase = 2 ∨ (lchGet s n.val).phase = 3))) :=
  ⟨⟨upg rS 0x8D, .ec3, 0, 1, canon_of (by decide +kernel), mayWrite_of (by decide +kernel)⟩,
   ⟨put (lchSet (rS) 0 { LchSt.init with phase := 1 }) 0x8D R.LCH.CFG.NPIX 2, 0, some 1, 0, canon_of (by decide +kernel), by decide +kernel⟩,
   ⟨lchSet (rS) 0 { LchSt.init with phase := 3, blank := true }, 0, none, 0, canon_of (by decide +kernel), by decide +kernel⟩,
   ⟨lchSet (setF rS 0x8D R.LCH.FCNT.CNT 0xFFFFFFFF) 0 { LchSt.init with phase := 2, blanking := true }, 0, canon_of (by decide +kernel), by decide +kernel⟩,
   ⟨lchSet (rS) 0 { LchSt.init with phase := 2 }, 0, canon_of (by decide +kernel), by decide +kernel⟩⟩

theorem test_hypotheses_InputEvents :
    (∃ (s : State) (n : Fin 64) (level : Bool),
      (Canon s) ∧ (running s = true) ∧ (swiRaw s n.val ≠ level)) ∧
    (∃ (s : State) (n : Fin 64) (level : Bool),
      (Canon s) ∧ (running s = false)) ∧
    (∃ (s : State) (n : Fin 64),
      (Canon s) ∧ (running s = true) ∧ (s.swiDeb.testBit n.val = true) ∧ (blockOff s 0x1C = false)) ∧
    (∃ (s : State) (n : Fin 64) (ok : Bool),
      (Canon s) ∧ (running s = true) ∧ (s.swiClean.testBit n.val = true)) ∧
    (∃ (s : State) (k : Fin 16) (code : BitVec 12),
      (Canon s) ∧ (running s = true) ∧ (msqFresh s .switchAnalog = false)) ∧
    (∃ (s : State) (k : Fin 16) (code : BitVec 12),
      (Canon s) ∧ (running s = true) ∧ (msqFresh s .switchAnalog = true) ∧ (s.anaDone.testBit k.val = false)) ∧
    (∃ (s : State) (k : Fin 16) (code : BitVec 12),
      (Canon s) ∧ (running s = true) ∧ (s.anaDone.testBit k.val = true)) ∧
    (∃ (s : State) (n : Fin 64),
      (Canon s) ∧ ((running s = true ∨ s.mode = .watch))) :=
  ⟨⟨rS, 63, true, canon_of (by decide +kernel), by decide +kernel⟩,
   ⟨zS .park, 63, true, canon_of (by decide +kernel), by decide +kernel⟩,
   ⟨{ put rS 0x1C (R.SWI.CFG.INV 63) 1 with swiDeb := 2 ^ 63 }, 63, canon_of (by decide +kernel), by decide +kernel⟩,
   ⟨{ rS with swiClean := 2 ^ 63 }, 63, false, canon_of (by decide +kernel), by decide +kernel⟩,
   ⟨setF rS 0x1E R.MSQ.STAT.SFAIL 4, 0, 0, canon_of (by decide +kernel), by decide +kernel⟩,
   ⟨put rS 0x1C (R.SWI.ATH.HI 15) 9, 15, 9, canon_of (by decide +kernel), by decide +kernel⟩,
   ⟨{ rS with anaDone := 8 }, 3, 0, canon_of (by decide +kernel), by decide +kernel⟩,
   ⟨zS .watch, 0, canon_of (by decide +kernel), by decide +kernel⟩⟩

theorem test_hypotheses_ReflexAndGovernor :
    (∃ (s : State) (r : Fin 128),
      (Canon s) ∧ (running s = true) ∧ (s.rfxRun.testBit r.val = true) ∧ (rfxInhibited s r.val = false)) ∧
    (∃ (s : State) (who : Who) (w : Fin 4) (v : Word),
      (Canon s) ∧ (MayWrite s who 0x1D (0x110 + 4 * w.val))) ∧
    (∃ (s : State) (who : Who) (w : Fin 4) (v : Word),
      (Canon s) ∧ (MayWrite s who 0x1D (0x120 + 4 * w.val))) ∧
    (∃ (s : State) (m : LossSamples),
      (Canon s) ∧ (running s = true) ∧ (msTick s 1 = false)) ∧
    (∃ (s : State) (m : LossSamples),
      (Canon s) ∧ (running s = true) ∧ (msTick s 1 = true) ∧ (getF s 0x1F H.CST ≠ 2)) ∧
    (∃ (s : State) (who : Who) (e : _) (rest : _),
      (Canon s) ∧ (MayRead s who 0x1F) ∧ (s.govLog = e :: rest) ∧ (rest.length < 64)) ∧
    (∃ (s : State) (who : Who),
      (Canon s) ∧ (MayRead s who 0x1F) ∧ (s.govLog = [])) :=
  ⟨⟨{ rS with rfxRun := 2 ^ 127 }, 127, canon_of (by decide +kernel), by decide +kernel⟩,
   ⟨giv (setF rS 0x1D (R.RFX.TGL.T 3) 5) 0x1D, .ec3, 3, 1, canon_of (by decide +kernel), mayWrite_of (by decide +kernel)⟩,
   ⟨giv rS 0x1D, .ec3, 3, 0xFFFFFFFF, canon_of (by decide +kernel), mayWrite_of (by decide +kernel)⟩,
   ⟨{ rS with pwrTick := 5 }, ⟨[], [], 0, 0⟩, canon_of (by decide +kernel), by decide +kernel⟩,
   ⟨rS, ⟨[], [], 0, 0⟩, canon_of (by decide +kernel), by decide +kernel⟩,
   ⟨{ giv rS 0x1F with govLog := [(1, 2), (3, 4)] }, .ec3, (1, 2), [(3, 4)], canon_of (by decide +kernel), mayRead_of (by decide +kernel), by decide +kernel⟩,
   ⟨giv rS 0x1F, .ec3, canon_of (by decide +kernel), mayRead_of (by decide +kernel), by decide +kernel⟩⟩

theorem test_hypotheses_EventsAndTimebase :
    (∃ (s : State) (who : Who) (v : Word),
      (Canon s) ∧ (MayWrite s who 0x0E 0x100)) ∧
    (∃ (s : State) (who : Who) (j : Fin 2),
      (Canon s) ∧ (MayRead s who 0x0E)) ∧
    (∃ (s : State) (who : Who) (now : BitVec 64),
      (Canon s) ∧ (busLost s = false) ∧ (MayWrite s who 0x0D 0x100)) ∧
    (∃ (s : State) (who : Who) (v : Word) (k : Fin 4),
      (Canon s) ∧ (MayWrite s who 0x0D (0x120 + 4 * k.val))) ∧
    (∃ (s : State) (k : Fin 4) (now : BitVec 64),
      (Canon s) ∧ (busRuns s = true) ∧ (sysLost s = false) ∧ (s.crossed.testBit (20 + k.val) = false) ∧ (s.tb.armed.testBit k.val = true) ∧ (tbsReached (setNow s now.toNat) (getF s 0x0D (R.TBS.CMP.TIME k.val)) = true)) ∧
    (∃ (s : State) (k : Fin 4) (now : BitVec 64),
      (Canon s) ∧ (busRuns s = false)) ∧
    (∃ (s : State),
      (Canon s) ∧ (busRuns s = false)) ∧
    (∃ (s : State),
      (Canon s) ∧ (busRuns s = true) ∧ (tbsWorker s = true)) :=
  ⟨⟨giv rS 0x0E, .ec3, 0x18001, canon_of (by decide +kernel), mayWrite_of (by decide +kernel)⟩,
   ⟨setF (giv rS 0x0E) 0x0E (R.EVF.OVR.OVR 1) 7, .ec3, 1, canon_of (by decide +kernel), mayRead_of (by decide +kernel)⟩,
   ⟨giv rS 0x0D, .ec3, 0x500000007, canon_of (by decide +kernel), by decide +kernel, mayWrite_of (by decide +kernel)⟩,
   ⟨giv rS 0x0D, .ec3, 0xFFFFFFFF, 3, canon_of (by decide +kernel), mayWrite_of (by decide +kernel)⟩,
   ⟨put { setF rS 0x0D (R.TBS.CMP.TIME 3) 0xFFFFFFF0 with tb := { TbsSt.init with armed := 8 } } 0x0D (R.TBS.CMPPER.PER 3) 0x20, 3, 0xFFFFFFF0, canon_of (by decide +kernel), by decide +kernel⟩,
   ⟨zS .watch, 3, 9, canon_of (by decide +kernel), by decide +kernel⟩,
   ⟨zS .watch, canon_of (by decide +kernel), by decide +kernel⟩,
   ⟨put (setFlag (up rS 0x0B) 0x0B R.JXR.ADDR.VALID true) 0x0B R.JXR.ROLE.ROLE 2, canon_of (by decide +kernel), by decide +kernel⟩⟩

theorem test_hypotheses_DmaAndMailboxes :
    (∃ (s : State) (who : Who) (c : Fin 16),
      (Canon s) ∧ (MayWrite s who 0x0F (0x100 + 16 * c.val)) ∧ (blockOff s 0x0F = false) ∧ (cfgOn s 0x0F (R.DMA.CFG.EN c.val) = true) ∧ (isSet s 0x0F (R.DMA.STAT.BUSY c.val) = false)) ∧
    (∃ (s : State) (who : Who) (c : Fin 16),
      (Canon s) ∧ (MayWrite s who 0x0F (0x100 + 16 * c.val))) ∧
    (∃ (s : State) (c : Fin 16),
      (Canon s) ∧ (running s = true) ∧ (isSet s 0x0F (R.DMA.STAT.BUSY c.val) = true) ∧ (s.dmaHeld.testBit c.val = false)) ∧
    (∃ (s : State) (c : Fin 16),
      (Canon s) ∧ (running s = true) ∧ (isSet s 0x0F (R.DMA.STAT.BUSY c.val) = true) ∧ (s.dmaHeld.testBit c.val = true)) ∧
    (∃ (s : State) (c : Fin 16),
      (Canon s) ∧ (running s = true) ∧ (isSet s 0x0F (R.DMA.STAT.BUSY c.val) = false) ∧ (blockOff s 0x0F = false) ∧ (cfgOn s 0x0F (R.DMA.CFG.EN c.val) = true)) ∧
    (∃ (s : State) (c : Fin 16) (w : _) (t : _) (a : _) (b : _),
      (Canon s) ∧ (running s = true) ∧ (sysLost s = false) ∧ (isSet s 0x0F (R.DMA.STAT.BUSY c.val) = true) ∧ (kindWho (storeGet seqDefault s.committer 0x0F) = some w) ∧ (dmaWords w (if cfgOn s 0x0F (R.DMA.CFG.SINC c.val) then 4 else 0) (if cfgOn s 0x0F (R.DMA.CFG.DINC c.val) then 4 else 0)
        (if storeGet seqDefault s.dmaLeft c.val = 0 then cfg s 0x0F (R.DMA.CNT.BLK c.val) else storeGet seqDefault s.dmaLeft c.val)
        (winSet s 16 (winHeld s (17 + c.val))) (storeGet (fun _ => 0) s.dmaSrc c.val) (storeGet (fun _ => 0) s.dmaDst c.val) = (t, .moved a b)) ∧ (isSet t 0x0F (R.DMA.STAT.BUSY c.val) = true) ∧ (storeWf regReset t.regs = true) ∧ (t.applied = s.applied) ∧ (t.dmaHeld.testBit c.val = false)) ∧
    (∃ (s : State) (who : Who) (m : Fin 4) (out : Bool) (v : Word),
      (Canon s) ∧ (MayWrite s who 0xB0 (0x140 + 256 * m.val + 128 * out.toNat)) ∧ (whoOutside who = !out) ∧ (blockOff s 0xB0 = false) ∧ ((cfg s 0xB0 R.MBX.CFG.EN).testBit m.val = true) ∧ ((rd s 0xB0 (0x148 + 256 * m.val + 128 * out.toNat)).getLsbD 31 = false) ∧ (v.toNat % 32 ≠ 0) ∧ (v.toNat % 32 ≤ 16)) ∧
    (∃ (s : State) (who : Who) (m : Fin 4) (out : Bool),
      (Canon s) ∧ (MayRead s who 0xB0) ∧ (whoOutside who = out) ∧ ((rd s 0xB0 (0x148 + 256 * m.val + 128 * out.toNat)).getLsbD 31 = true)) :=
  ⟨⟨put (put (upg rS 0x0F) 0x0F (R.DMA.CFG.EN 15) 1) 0x0F (R.DMA.CNT.NBLK 15) 9, .ec3, 15, canon_of (by decide +kernel), mayWrite_of (by decide +kernel), by decide +kernel⟩,
   ⟨giv { rS with dmaHeld := 0x8000 } 0x0F, .ec3, 15, canon_of (by decide +kernel), mayWrite_of (by decide +kernel)⟩,
   ⟨setFlag rS 0x0F (R.DMA.STAT.BUSY 15) true, 15, canon_of (by decide +kernel), by decide +kernel⟩,
   ⟨setFlag { rS with dmaHeld := 0x8000 } 0x0F (R.DMA.STAT.BUSY 15) true, 15, canon_of (by decide +kernel), by decide +kernel⟩,
   ⟨put rS 0x0F (R.DMA.CFG.EN 15) 1, 15, canon_of (by decide +kernel), by decide +kernel⟩,
   ⟨dmaS, 15, .ec3, (dmaWords .ec3 4 4 1 (winSet dmaS 16 (winHeld dmaS 32)) 0x20000000 0x20000004).1, 0x20000004, 0x20000008, canon_of (by decide +kernel), by decide +kernel, by decide +kernel, by decide +kernel, of_decide_eq_true (by decide +kernel), Prod.ext rfl (by decide +kernel), by decide +kernel⟩,
   ⟨put (upg rS 0xB0) 0xB0 R.MBX.CFG.EN 15, .ec3, 3, true, 16, canon_of (by decide +kernel), mayWrite_of (by decide +kernel), by decide +kernel⟩,
   ⟨wr (giv rS 0xB0) 0xB0 0x448 0x80300004, .ec3, 3, false, canon_of (by decide +kernel), mayRead_of (by decide +kernel), by decide +kernel⟩⟩

theorem test_hypotheses_RingLink_1 :
    (∃ (s : State) (b : Bool) (eof : Bool) (room : Bool) (bytes : List Byte) (res : Word),
      (Canon s) ∧ (jxrActive s = true) ∧ ((eof = false ∨ frameRead bytes = none))) ∧
    (∃ (s : State) (b : Bool) (room : Bool) (f : RingFrame) (bytes : List Byte) (res : Word),
      (Canon s) ∧ (jxrActive s = true) ∧ (frameRead bytes = some f) ∧ (f.hop = 2047)) ∧
    (∃ (s : State) (b : Bool) (room : Bool) (f : RingFrame) (bytes : List Byte) (res : Word),
      (Canon s) ∧ (jxrActive s = true) ∧ (frameRead bytes = some f) ∧ (f.hop ≠ 2047) ∧ (f.nb = false) ∧ (f.bc = false) ∧ ((isSet s 0x0B R.JXR.ADDR.VALID = true → f.dst.toNat ≠ jxrSelf s ∨ 9 ≤ f.ty.toNat)) ∧ ((isSet s 0x0B R.JXR.ADDR.VALID = true → f.src.toNat ≠ jxrSelf s ∨ jxrRound s b f.wcnt = false)) ∧ (hopBroken s b = false)) ∧
    (∃ (s : State) (b : Bool) (room : Bool) (f : RingFrame) (bytes : List Byte) (res : Word),
      (Canon s) ∧ (jxrActive s = true) ∧ (frameRead bytes = some f) ∧ (f.hop ≠ 2047) ∧ (f.nb = false) ∧ (f.bc = false) ∧ ((isSet s 0x0B R.JXR.ADDR.VALID = true → f.dst.toNat ≠ jxrSelf s ∨ 9 ≤ f.ty.toNat)) ∧ ((isSet s 0x0B R.JXR.ADDR.VALID = true → f.src.toNat ≠ jxrSelf s ∨ jxrRound s b f.wcnt = false)) ∧ (hopBroken s b = true)) ∧
    (∃ (s : State) (b : Bool) (room : Bool) (f : RingFrame) (bytes : List Byte) (res : Word),
      (Canon s) ∧ (jxrActive s = true) ∧ (frameRead bytes = some f) ∧ (f.hop ≠ 2047) ∧ (f.nb = false) ∧ (f.bc = true) ∧ ((isSet s 0x0B R.JXR.ADDR.VALID = true → f.src.toNat ≠ jxrSelf s ∨ jxrRound s b f.wcnt = false)) ∧ (hopBroken s b = false)) ∧
    (∃ (s : State) (b : Bool) (room : Bool) (f : RingFrame) (bytes : List Byte) (res : Word),
      (Canon s) ∧ (jxrActive s = true) ∧ (frameRead bytes = some f) ∧ (f.hop ≠ 2047) ∧ (f.nb = false) ∧ (f.bc = true) ∧ (isSet s 0x0B R.JXR.ADDR.VALID = true) ∧ (f.src.toNat = jxrSelf s) ∧ (jxrRound s b f.wcnt = true)) ∧
    (∃ (s : State) (b : Bool) (room : Bool) (f : RingFrame) (bytes : List Byte) (res : Word) (o : BrgOut),
      (Canon s) ∧ (jxrActive s = true) ∧ (frameRead bytes = some f) ∧ (f.hop ≠ 2047) ∧ (f.nb = false) ∧ (f.bc = false) ∧ (isSet s 0x0B R.JXR.ADDR.VALID = true) ∧ (f.dst.toNat ≠ jxrSelf s) ∧ (f.src.toNat = jxrSelf s) ∧ (jxrRound s b f.wcnt = true) ∧ (s.upd.await = none) ∧ (s.jxr.enumPh ≠ 1) ∧ (brgMatch s f.dst.toNat f.seq.toNat = some o) ∧ (o.req.dest ≠ 33) ∧ (getF s 0x0A R.BRG.ELOGN.N < 16)) ∧
    (∃ (s : State) (b : Bool) (room : Bool) (f : RingFrame) (bytes : List Byte) (res : Word),
      (Canon s) ∧ (jxrActive s = true) ∧ (frameRead bytes = some f) ∧ (f.hop ≠ 2047) ∧ (f.nb = false) ∧ (f.bc = false) ∧ (isSet s 0x0B R.JXR.ADDR.VALID = true) ∧ (f.dst.toNat ≠ jxrSelf s) ∧ (f.src.toNat = jxrSelf s) ∧ (jxrRound s b f.wcnt = true) ∧ (s.upd.await = none) ∧ (brgMatch s f.dst.toNat f.seq.toNat = none)) :=
  ⟨⟨wkS, true, false, false, [], 0, canon_of (by decide +kernel), by decide +kernel⟩,
   ⟨wkS, false, false, (⟨9, 3, 0, false, false, 0, 7, 2047, []⟩), frameBytes (⟨9, 3, 0, false, false, 0, 7, 2047, []⟩), 0, canon_of (by decide +kernel), by decide +kernel⟩,
   ⟨wkS, true, false, (⟨9, 3, 0, false, false, 0, 7, 2046, [1]⟩), frameBytes (⟨9, 3, 0, false, false, 0, 7, 2046, [1]⟩), 0, canon_of (by decide +kernel), by decide +kernel⟩,
   ⟨{ wkS with jxr := { JxrSt.init with wrapDown := true } }, false, false, (⟨9, 3, 0, false, false, 0, 7, 2046, [1]⟩), frameBytes (⟨9, 3, 0, false, false, 0, 7, 2046, [1]⟩), 0, canon_of (by decide +kernel), by decide +kernel⟩,
   ⟨wkS, true, false, (⟨0x3FF, 3, 4, true, false, 0, 7, 5, [1]⟩), frameBytes (⟨0x3FF, 3, 4, true, false, 0, 7, 5, [1]⟩), 0, canon_of (by decide +kernel), by decide +kernel⟩,
   ⟨mgS, false, false, (⟨0x3FF, 0, 4, true, false, 0, 7, 5, [1]⟩), frameBytes (⟨0x3FF, 0, 4, true, false, 0, 7, 5, [1]⟩), 0, canon_of (by decide +kernel), by decide +kernel⟩,
   ⟨mgO rdReq 0, false, false, (⟨1, 0, 1, false, false, 0, 7, 5, [1]⟩), frameBytes (⟨1, 0, 1, false, false, 0, 7, 5, [1]⟩), 0, ⟨rdReq, 7, 0⟩, canon_of (by decide +kernel), by decide +kernel⟩,
   ⟨mgS, false, false, (⟨1, 0, 1, false, false, 0, 7, 5, [1]⟩), frameBytes (⟨1, 0, 1, false, false, 0, 7, 5, [1]⟩), 0, canon_of (by decide +kernel), by decide +kernel⟩⟩

theorem test_hypotheses_RingLink_2 :
    (∃ (s : State) (b : Bool) (room : Bool) (f : RingFrame) (bytes : List Byte) (res : Word),
      (Canon s) ∧ (jxrActive s = true) ∧ (frameRead bytes = some f) ∧ (f.hop ≠ 2047) ∧ (f.nb = false) ∧ (f.bc = false) ∧ (isSet s 0x0B R.JXR.ADDR.VALID = true) ∧ (f.dst.toNat = jxrSelf s) ∧ (f.ty.toNat < 9) ∧ (room = true)) ∧
    (∃ (s : State) (b : Bool) (room : Bool) (f : RingFrame) (bytes : List Byte) (res : Word),
      (Canon s) ∧ (jxrActive s = true) ∧ (frameRead bytes = some f) ∧ (f.hop ≠ 2047) ∧ (f.nb = false) ∧ (f.bc = false) ∧ (isSet s 0x0B R.JXR.ADDR.VALID = true) ∧ (f.dst.toNat = jxrSelf s) ∧ (isRequest f.ty.toNat = true) ∧ (room = false)) ∧
    (∃ (s : State) (f : RingFrame),
      (Canon s) ∧ (f.data.length ≤ 256)) ∧
    (∃ (s : State) (b : Bool) (res : Word) (g : RingFrame) (rest : List (Bool × RingFrame)),
      (Canon s) ∧ (jxrActive s = true) ∧ (distBusy s = false) ∧ (s.jxr.queue = (b, g) :: rest) ∧ (hopBroken s b = false)) ∧
    (∃ (s : State) (b : Bool) (res : Word) (g : RingFrame) (rest : List (Bool × RingFrame)),
      (Canon s) ∧ (jxrActive s = true) ∧ (distBusy s = false) ∧ (s.jxr.queue = (b, g) :: rest) ∧ (hopBroken s b = true) ∧ (hopBroken s (!b) = false) ∧ (g.nb = false)) ∧
    (∃ (s : State) (res : Word),
      (Canon s) ∧ (jxrActive s = true) ∧ (distBusy s = false) ∧ ((s.jxr.evtOne = true ∨ ∀ e ∈ s.jxr.queue, e.2.ty ≠ 4))) ∧
    (∃ (s : State) (b : Bool),
      (Canon s) ∧ (jxrActive s = true) ∧ (nmgOn s = false)) ∧
    (∃ (s : State) (b : Bool),
      (Canon s) ∧ (jxrActive s = true) ∧ (nmgOn s = false) ∧ ((if b then s.jxr.lostB else s.jxr.lostA) = false)) :=
  ⟨⟨mgS, false, true, (⟨0, 5, 1, false, false, 0, 7, 5, [1]⟩), frameBytes (⟨0, 5, 1, false, false, 0, 7, 5, [1]⟩), 0, canon_of (by decide +kernel), by decide +kernel⟩,
   ⟨mgS, false, false, (⟨0, 5, 1, false, false, 0, 7, 5, [1]⟩), frameBytes (⟨0, 5, 1, false, false, 0, 7, 5, [1]⟩), 0, canon_of (by decide +kernel), by decide +kernel⟩,
   ⟨rS, ⟨9, 3, 7, true, false, 5, 7, 2046, [1, 2, 3, 4]⟩, canon_of (by decide +kernel), by decide +kernel⟩,
   ⟨{ wkS with jxr := { JxrSt.init with queue := [(true, jxrFrame wkS 0 2 7 false false [])] } }, true, 0, jxrFrame wkS 0 2 7 false false [], [], canon_of (by decide +kernel), by decide +kernel⟩,
   ⟨{ wkS with jxr := { JxrSt.init with wrapUp := true, queue := [(true, jxrFrame wkS 0 2 7 false false [])] } }, true, 0, jxrFrame wkS 0 2 7 false false [], [], canon_of (by decide +kernel), by decide +kernel⟩,
   ⟨wkS, 0, canon_of (by decide +kernel), by decide +kernel⟩,
   ⟨wkS, true, canon_of (by decide +kernel), by decide +kernel⟩,
   ⟨setFlag wkS 0x0B R.JXR.STAT.LOCKB true, true, canon_of (by decide +kernel), by decide +kernel⟩⟩

theorem test_hypotheses_RingLink_3 :
    (∃ (s : State) (b : Bool) (st : Byte),
      (Canon s) ∧ (jxrActive s = true)) ∧
    (∃ (s : State),
      (Canon s) ∧ (jxrActive s = true) ∧ (cfgOn s 0x0B R.JXR.CFG.AUTOUNW = true) ∧ (isSet s 0x0B R.JXR.STAT.LOCKA = true) ∧ (s.jxr.hbA.getLsbD 0 = false)) ∧
    (∃ (s : State) (b : Bool) (res : Word),
      (Canon s) ∧ (jxrActive s = true)) ∧
    (∃ (s : State) (b : Bool) (res : Word) (round : Word),
      (Canon s) ∧ (jxrActive s = true)) ∧
    (∃ (s : State),
      (Canon s) ∧ (jxrActive s = true)) ∧
    (∃ (s : State) (who : Who),
      (Canon s) ∧ (MayWrite s who 0x0B 0x120) ∧ (jxrActive s = true)) ∧
    (∃ (s : State) (who : Who),
      (Canon s) ∧ (MayWrite s who 0x0B 0x120) ∧ (jxrActive s = true)) ∧
    (∃ (s : State) (b : Bool) (v : Word) (sub : BitVec 16),
      (Canon s) ∧ (jxrActive s = true) ∧ (s.park = .none)) :=
  ⟨⟨wkS, false, 1, canon_of (by decide +kernel), by decide +kernel⟩,
   ⟨put (setFlag { wkS with jxr := { JxrSt.init with wrapUp := true } } 0x0B R.JXR.STAT.LOCKA true) 0x0B R.JXR.CFG.AUTOUNW 1, canon_of (by decide +kernel), by decide +kernel⟩,
   ⟨wkS, false, 5, canon_of (by decide +kernel), by decide +kernel⟩,
   ⟨wkS, true, 1, 0xFFFFF, canon_of (by decide +kernel), by decide +kernel⟩,
   ⟨wkS, canon_of (by decide +kernel), by decide +kernel⟩,
   ⟨giv wkS 0x0B, .ec3, canon_of (by decide +kernel), mayWrite_of (by decide +kernel), by decide +kernel⟩,
   ⟨giv wkS 0x0B, .ec3, canon_of (by decide +kernel), mayWrite_of (by decide +kernel), by decide +kernel⟩,
   ⟨setF wkS 0x0B R.JXR.WCNT.HORNRX 65535, false, 0, 0, canon_of (by decide +kernel), by decide +kernel⟩⟩

theorem test_hypotheses_RingLink_4 :
    (∃ (s : State) (who : Who),
      (Canon s) ∧ (MayWrite s who 0x0B 0x134)) :=
  ⟨setF (giv wkS 0x0B) 0x0B R.JXR.WCNT.HORNRX 65535, .ec3, canon_of (by decide +kernel), mayWrite_of (by decide +kernel)⟩

theorem test_hypotheses_RingRequests_1 :
    (∃ (s : State) (t : State) (t1 : State) (seq : BitVec 12) (addr : BitVec 20) (ws : List Word),
      (Canon s) ∧ (ringAddressed s = true) ∧ (pageStands s (addr.toNat / 4096) = false) ∧ (jxrDup s 0 seq.toNat = (t, 0)) ∧ (ringBound ws.length addr.toNat = none) ∧ (ringWords (.ring 0) addr.toNat ws t = (t1, none))) ∧
    (∃ (s : State) (t : State) (t1 : State) (seq : BitVec 12) (addr : BitVec 20) (ws : List Word) (c : Nat),
      (Canon s) ∧ (ringAddressed s = true) ∧ (pageStands s (addr.toNat / 4096) = false) ∧ (jxrDup s 0 seq.toNat = (t, 0)) ∧ (ringBound ws.length addr.toNat = none) ∧ (ringWords (.ring 0) addr.toNat ws t = (t1, some c))) ∧
    (∃ (s : State) (t : State) (seq : BitVec 12) (addr : BitVec 20) (ws : List Word),
      (Canon s) ∧ (ringAddressed s = true) ∧ (pageStands s (addr.toNat / 4096) = false) ∧ (jxrDup s 0 seq.toNat = (t, 0)) ∧ ((ws.length = 0 ∨ 63 < ws.length ∨ 4096 < addr.toNat % 4096 + 4 * ws.length))) ∧
    (∃ (s : State) (t : State) (t1 : State) (seq : BitVec 12) (addr : BitVec 20) (l : List Byte) (n : Byte),
      (Canon s) ∧ (ringAddressed s = true) ∧ (pageStands s (addr.toNat / 4096) = false) ∧ (jxrDup s 0 seq.toNat = (t, 0)) ∧ (ringBound n.toNat addr.toNat = none) ∧ (ringReads (.ring 0) n.toNat addr.toNat t [] = (t1, .ok l))) ∧
    (∃ (s : State) (t : State) (seq : BitVec 12) (addr : BitVec 20) (n : Byte),
      (Canon s) ∧ (ringAddressed s = true) ∧ (pageStands s (addr.toNat / 4096) = false) ∧ (jxrDup s 0 seq.toNat = (t, 0)) ∧ ((n = 0 ∨ 63 < n.toNat ∨ 4096 < addr.toNat % 4096 + 4 * n.toNat))) ∧
    (∃ (s : State) (seq : BitVec 12) (src : BitVec 10) (addr : BitVec 20) (ws : List Word),
      (Canon s) ∧ (ringAddressed s = true) ∧ (src ≠ 0)) ∧
    (∃ (s : State) (t : State) (t1 : State) (t2 : State) (seq : BitVec 12) (addr : BitVec 20) (op : Byte) (v : Word) (x : Word),
      (Canon s) ∧ (ringAddressed s = true) ∧ (pageStands s (addr.toNat / 4096) = false) ∧ (jxrDup s 0 seq.toNat = (t, 0)) ∧ (op = 1) ∧ (ringBound 1 addr.toNat = none) ∧ (ringCode t (.ring 0) (addr.toNat / 4096) 0 ≠ 1) ∧ (ringCode t (.ring 0) (addr.toNat / 4096) (writeRight (addr.toNat % 4096)) ≠ 1) ∧ (pageRead t (.ring 0) (addr.toNat / 4096) (addr.toNat % 4096) (0x40000000 + addr.toNat) = (t1, some x)) ∧ (pageWrite t1 (.ring 0) (addr.toNat / 4096) (addr.toNat % 4096) (0x40000000 + addr.toNat) v = (t2, true))) ∧
    (∃ (s : State) (t : State) (seq : BitVec 12) (addr : BitVec 20) (op : Byte) (v : Word),
      (Canon s) ∧ (ringAddressed s = true) ∧ (pageStands s (addr.toNat / 4096) = false) ∧ (jxrDup s 0 seq.toNat = (t, 0)) ∧ (op ≠ 1)) :=
  ⟨⟨(wr wkS 0x05 0x434 0xF00000), (jxrDup (wr wkS 0x05 0x434 0xF00000) 0 7).1, (ringWords (.ring 0) 0xD120 [5, 6] (jxrDup (wr wkS 0x05 0x434 0xF00000) 0 7).1).1, 7, 0xD120, [5, 6], canon_of (by decide +kernel), by decide +kernel⟩,
   ⟨wkS, (jxrDup wkS 0 7).1, (ringWords (.ring 0) 0xD120 [5, 6] (jxrDup wkS 0 7).1).1, 7, 0xD120, [5, 6], 1, canon_of (by decide +kernel), by decide +kernel⟩,
   ⟨wkS, (jxrDup wkS 0 7).1, 7, 0xDFFC, [5, 6], canon_of (by decide +kernel), by decide +kernel⟩,
   ⟨(wr wkS 0x05 0x434 0xF00000), (jxrDup (wr wkS 0x05 0x434 0xF00000) 0 7).1, (ringReads (.ring 0) 2 0xD120 (jxrDup (wr wkS 0x05 0x434 0xF00000) 0 7).1 []).1, 7, 0xD120, [0, 0, 0, 0, 0, 0, 0, 0], 2, canon_of (by decide +kernel), by decide +kernel⟩,
   ⟨wkS, (jxrDup wkS 0 7).1, 7, 0xDFFC, 0, canon_of (by decide +kernel), by decide +kernel⟩,
   ⟨wkS, 0, 9, 0, [], canon_of (by decide +kernel), by decide +kernel⟩,
   ⟨(wr wkS 0x05 0x434 0xF00000), (jxrDup (wr wkS 0x05 0x434 0xF00000) 0 7).1, (pageRead (jxrDup (wr wkS 0x05 0x434 0xF00000) 0 7).1 (.ring 0) 13 0x120 0x4000D120).1, (pageWrite (pageRead (jxrDup (wr wkS 0x05 0x434 0xF00000) 0 7).1 (.ring 0) 13 0x120 0x4000D120).1 (.ring 0) 13 0x120 0x4000D120 9).1, 7, 0xD120, 1, 9, 0, canon_of (by decide +kernel), by decide +kernel, by decide +kernel, by decide +kernel, of_decide_eq_true (by decide +kernel), by decide +kernel, by decide +kernel, by decide +kernel, Prod.ext rfl (by decide +kernel), Prod.ext rfl (by decide +kernel)⟩,
   ⟨wkS, (jxrDup wkS 0 7).1, 7, 0, 0, 0, canon_of (by decide +kernel), by decide +kernel⟩⟩

theorem test_hypotheses_RingRequests_2 :
    (∃ (s : State) (t : State) (seq : BitVec 12) (offs : Word) (ws : List Word),
      (Canon s) ∧ (ringAddressed s = true) ∧ (jxrDup s 0 seq.toNat = (t, 0)) ∧ (sysLost s = false) ∧ (ws ≠ []) ∧ (ws.length ≤ 63) ∧ (offs.toNat + 4 * ws.length ≤ 0x200000) ∧ (offs.toNat % 4 = 0) ∧ ((rightsOf t 6 0x07).testBit 1 = true)) ∧
    (∃ (s : State) (t : State) (seq : BitVec 12) (offs : Word) (ws : List Word),
      (Canon s) ∧ (jxrActive s = true) ∧ (sysLost s = false) ∧ (jxrSelf s ≠ 0) ∧ (jxrDup s 1 seq.toNat = (t, 0)) ∧ (ws ≠ []) ∧ (ws.length ≤ 63) ∧ (offs.toNat + 4 * ws.length ≤ 0x200000) ∧ (offs.toNat % 4 = 0) ∧ ((rightsOf t 6 0x07).testBit 1 = true)) ∧
    (∃ (s : State) (seq : BitVec 12) (addr : BitVec 20) (n : Byte),
      (Canon s) ∧ (ringAddressed s = true) ∧ (pageStands s (addr.toNat / 4096) = true)) ∧
    (∃ (s : State) (t : State) (seq : BitVec 12) (addr : BitVec 20) (n : Byte),
      (Canon s) ∧ (ringAddressed s = true) ∧ (pageStands s (addr.toNat / 4096) = false) ∧ (jxrDup s 0 seq.toNat = (t, 0)) ∧ (1 ≤ n.toNat) ∧ (n.toNat ≤ 63) ∧ (addr.toNat % 4096 + 4 * n.toNat ≤ 4096) ∧ (addr.toNat % 4 = 0) ∧ ((blkOf (addr.toNat / 4096)).isSome = true) ∧ (addr.toNat / 4096 ≠ 6) ∧ ((rightsOf s 6 (addr.toNat / 4096)).testBit 0 = false)) ∧
    (∃ (s : State) (t : State) (seq : BitVec 12) (addr : BitVec 20) (ws : List Word) (v : Word),
      (Canon s) ∧ (ringAddressed s = true) ∧ (pageStands s (addr.toNat / 4096) = false) ∧ (jxrDup s 0 seq.toNat = (t, 0)) ∧ (ws.headD 0 = v) ∧ (ws ≠ []) ∧ (ws.length ≤ 63) ∧ (addr.toNat % 4096 + 4 * ws.length ≤ 4096) ∧ (addr.toNat % 4 = 0) ∧ ((blkOf (addr.toNat / 4096)).isSome = true) ∧ (addr.toNat / 4096 ≠ 6) ∧ ((rightsOf s 6 (addr.toNat / 4096)).testBit (writeRight (addr.toNat % 4096)) = false)) :=
  ⟨⟨(wr wkS 0x05 0x41C 0xF00000), (jxrDup (wr wkS 0x05 0x41C 0xF00000) 0 7).1, 7, 0x1FFFFC, [5], canon_of (by decide +kernel), by decide +kernel⟩,
   ⟨(wr wkS 0x05 0x41C 0xF00000), (jxrDup (wr wkS 0x05 0x41C 0xF00000) 1 7).1, 7, 0x1FFFFC, [5], canon_of (by decide +kernel), by decide +kernel⟩,
   ⟨{ wkS with flt := { wkS.flt with level := [32] } }, 7, 0xD120, 1, canon_of (by decide +kernel), by decide +kernel⟩,
   ⟨wkS, (jxrDup wkS 0 7).1, 7, 0xD120, 63, canon_of (by decide +kernel), by decide +kernel⟩,
   ⟨wkS, (jxrDup wkS 0 7).1, 7, 0xD120, [5], 5, canon_of (by decide +kernel), by decide +kernel⟩⟩

theorem test_hypotheses_RingResponses_1 :
    (∃ (s : State) (dev : BitVec 10) (seq : BitVec 12) (ws : List Word),
      (Canon s) ∧ (running s = true) ∧ (s.upd.await = none) ∧ (brgMatch s dev.toNat seq.toNat = none)) ∧
    (∃ (s : State) (dev : BitVec 10) (seq : BitVec 12) (ws : List Word) (o : BrgOut),
      (Canon s) ∧ (running s = true) ∧ (s.upd.await = none) ∧ (s.jxr.enumPh ≠ 1) ∧ (brgMatch s dev.toNat seq.toNat = some o) ∧ (o.req.op = 1) ∧ (o.req.dest < 16) ∧ (o.req.live = true) ∧ (o.req.kind < 8) ∧ (o.req.cnt < 16)) ∧
    (∃ (s : State) (dev : BitVec 10) (seq : BitVec 12) (ws : List Word) (o : BrgOut),
      (Canon s) ∧ (running s = true) ∧ (s.upd.await = none) ∧ (s.jxr.enumPh ≠ 1) ∧ (brgMatch s dev.toNat seq.toNat = some o) ∧ (o.req.op ≠ 0) ∧ (16 ≤ o.req.dest) ∧ (o.req.dest < 32)) ∧
    (∃ (s : State) (dev : BitVec 10) (seq : BitVec 12) (code : Byte) (o : BrgOut),
      (Canon s) ∧ (running s = true) ∧ (s.upd.await = none) ∧ (s.jxr.enumPh ≠ 1) ∧ (brgMatch s dev.toNat seq.toNat = some o) ∧ (o.req.op = 1) ∧ (o.req.dest < 16) ∧ (o.req.live = true) ∧ (o.req.kind < 8) ∧ (o.req.cnt < 16) ∧ (code ≠ 4) ∧ (getF s 0x0A R.BRG.ELOGN.N < 16)) ∧
    (∃ (s : State) (dev : BitVec 10) (seq : BitVec 12) (code : Byte) (o : BrgOut),
      (Canon s) ∧ (running s = true) ∧ (s.upd.await = none) ∧ (s.jxr.enumPh ≠ 1) ∧ (brgMatch s dev.toNat seq.toNat = some o) ∧ (o.req.op = 0) ∧ (o.req.dest ≠ 33) ∧ (code ≠ 4) ∧ (getF s 0x0A R.BRG.ELOGN.N < 16) ∧ (isParkWrite o.req = false) ∧ (cfgOn s 0x0A R.BRG.CFG.POISON = true) ∧ (s.brg.poison = [])) ∧
    (∃ (s : State) (dev : BitVec 10) (seq : BitVec 12) (o : BrgOut),
      (Canon s) ∧ (jxrActive s = true) ∧ (s.upd.await = none) ∧ (brgMatch s dev.toNat seq.toNat = some o) ∧ (o.resends < cfg s 0x0B R.JXR.CFG.RETRY) ∧ (s.jxr.conflict = false)) ∧
    (∃ (s : State) (dev : BitVec 10) (seq : BitVec 12) (o : BrgOut),
      (Canon s) ∧ (running s = true) ∧ (s.upd.await = none) ∧ (s.jxr.enumPh ≠ 1) ∧ (brgMatch s dev.toNat seq.toNat = some o) ∧ (o.req.dest ≠ 33) ∧ (cfg s 0x0B R.JXR.CFG.RETRY ≤ o.resends) ∧ (getF s 0x0A R.BRG.ELOGN.N < 16)) ∧
    (∃ (s : State) (dev : BitVec 10) (seq : BitVec 12) (ws : List Word) (o : BrgOut),
      (Canon s) ∧ (running s = true) ∧ (s.upd.await = none) ∧ (brgMatch s dev.toNat seq.toNat = some o) ∧ (o.req.dest = 33)) :=
  ⟨⟨mgS, 0, 0, [], canon_of (by decide +kernel), by decide +kernel⟩,
   ⟨mgO rdReq 0, 1, 7, [4], ⟨rdReq, 7, 0⟩, canon_of (by decide +kernel), by decide +kernel⟩,
   ⟨mgO { rdReq with dest := 19 } 0, 1, 7, [4], ⟨{ rdReq with dest := 19 }, 7, 0⟩, canon_of (by decide +kernel), by decide +kernel⟩,
   ⟨mgO rdReq 0, 1, 7, 1, ⟨rdReq, 7, 0⟩, canon_of (by decide +kernel), by decide +kernel⟩,
   ⟨put (mgO wrReq 0) 0x0A R.BRG.CFG.POISON 1, 1, 7, 2, ⟨wrReq, 7, 0⟩, canon_of (by decide +kernel), by decide +kernel⟩,
   ⟨put (mgO rdReq 2) 0x0B R.JXR.CFG.RETRY 3, 1, 7, ⟨rdReq, 7, 2⟩, canon_of (by decide +kernel), by decide +kernel⟩,
   ⟨put (mgO rdReq 3) 0x0B R.JXR.CFG.RETRY 3, 1, 7, ⟨rdReq, 7, 3⟩, canon_of (by decide +kernel), by decide +kernel⟩,
   ⟨mgO polReq 0, 1, 7, [5, 6, 7], ⟨polReq, 7, 0⟩, canon_of (by decide +kernel), by decide +kernel⟩⟩

theorem test_hypotheses_RingResponses_2 :
    (∃ (s : State) (dev : BitVec 10) (seq : BitVec 12) (code : Byte) (o : BrgOut),
      (Canon s) ∧ (running s = true) ∧ (s.upd.await = none) ∧ (brgMatch s dev.toNat seq.toNat = some o) ∧ (o.req.dest = 33) ∧ (code ≠ 4) ∧ (storeGet seqDefault s.brg.polls o.req.dev ≠ 0) ∧ (getF s 0x0A R.BRG.ELOGN.N < 16)) :=
  ⟨{ mgS with brg := { BrgSt.init with outst := [⟨polReq, 7, 0⟩], polls := [(1, 1)] } }, 1, 7, 17, ⟨polReq, 7, 0⟩, canon_of (by decide +kernel), by decide +kernel⟩

theorem test_hypotheses_RingTimeAndEnumeration_1 :
    (∃ (s : State) (t : State) (src : BitVec 10) (seq : BitVec 12) (mtime : BitVec 64) (now : BitVec 64) (delay : Word) (ep : BitVec 16),
      (Canon s) ∧ (running s = true) ∧ (jxrActive s = true) ∧ (jxrRole s = 2) ∧ (isSet s 0x0B R.JXR.ADDR.VALID = true) ∧ (jxrSelf s ≠ src.toNat) ∧ (busLost s = false) ∧ (jxrDup (setNow s now.toNat) (1 + src.toNat) seq.toNat = (t, 0))) ∧
    (∃ (s : State) (src : BitVec 10) (seq : BitVec 12) (mtime : BitVec 64) (now : BitVec 64) (delay : Word) (ep : BitVec 16),
      (Canon s) ∧ (running s = true) ∧ (jxrActive s = true) ∧ (jxrRole s = 1) ∧ (src.toNat = jxrSelf s) ∧ (busLost s = false) ∧ (s.tbs ≤ now.toNat)) ∧
    (∃ (s : State) (now : BitVec 64),
      (Canon s) ∧ (jxrActive s = true) ∧ (jxrRole s = 1) ∧ (s.jxr.conflict = false) ∧ (busLost s = false) ∧ (max s.tbs now.toNat % 80000 = 0)) ∧
    (∃ (s : State) (src : BitVec 10) (seq : BitVec 12) (b : Bool) (hop : BitVec 11) (wcnt : BitVec 2) (res : Word) (mtime : BitVec 64) (now : BitVec 64) (serial : BitVec 64) (delay : Word) (pos : BitVec 16) (map : BitVec 1024),
      (Canon s) ∧ (jxrActive s = true) ∧ (jxrRole s = 2) ∧ (isSet s 0x0B R.JXR.ADDR.VALID = false) ∧ (cfgOn s 0x0B R.JXR.PIN.EN = false) ∧ (pos.toNat + 1 < 1024) ∧ (s.jxr.enumLast ≠ 4096 + seq.toNat + 1) ∧ (hopBroken s b = false)) ∧
    (∃ (s : State) (src : BitVec 10) (seq : BitVec 12) (b : Bool) (hop : BitVec 11) (wcnt : BitVec 2) (res : Word) (mtime : BitVec 64) (now : BitVec 64) (serial : BitVec 64) (delay : Word) (pos : BitVec 16) (map : BitVec 1024) (a : Nat),
      (Canon s) ∧ (jxrActive s = true) ∧ (jxrRole s = 2) ∧ (isSet s 0x0B R.JXR.ADDR.VALID = false) ∧ (s.jxr.pinErr = false) ∧ (lowestFree map.toNat = some a) ∧ (s.jxr.enumLast ≠ 8192 + seq.toNat + 1) ∧ (hopBroken s b = false)) ∧
    (∃ (s : State) (who : Who),
      (Canon s) ∧ (MayWrite s who 0x0B 0x120) ∧ (jxrActive s = true) ∧ (jxrRole s = 1) ∧ (s.jxr.conflict = false) ∧ (requestsOut s = false)) ∧
    (∃ (s : State),
      (Canon s) ∧ (jxrActive s = true) ∧ (jxrRole s = 1) ∧ (s.jxr.conflict = false) ∧ (requestsOut s = false) ∧ (cfgOn s 0x0B R.JXR.CFG.AUTOENUM = true) ∧ (isSet s 0x0B R.JXR.STAT.LOCKA = true) ∧ (isSet s 0x0B R.JXR.STAT.LOCKB = true)) ∧
    (∃ (s : State) (t : State) (src : BitVec 10) (seq : BitVec 12) (set : BitVec 16) (clr : BitVec 16),
      (Canon s) ∧ (running s = true) ∧ (jxrActive s = true) ∧ ((isSet s 0x0B R.JXR.ADDR.VALID = true → jxrSelf s ≠ src.toNat)) ∧ (jxrDup s (1 + src.toNat) seq.toNat = (t, 0))) :=
  ⟨⟨wkS, (jxrDup (setNow wkS 900) 1 7).1, 0, 7, 0, 900, 70000, 0, canon_of (by decide +kernel), by decide +kernel⟩,
   ⟨mgS, 0, 0, 80000, 81000, 0, 0, canon_of (by decide +kernel), by decide +kernel⟩,
   ⟨mgS, 80000, canon_of (by decide +kernel), by decide +kernel⟩,
   ⟨put (up rS 0x0B) 0x0B R.JXR.ROLE.ROLE 2, 0, 7, false, 0, 0, 0, 0, 0, 0, 0, 1022, 1, canon_of (by decide +kernel), by decide +kernel⟩,
   ⟨put (up rS 0x0B) 0x0B R.JXR.ROLE.ROLE 2, 0, 7, false, 0, 0, 0, 0, 0, 0, 0, 3, 7, 3, canon_of (by decide +kernel), by decide +kernel⟩,
   ⟨giv mgS 0x0B, .ec3, canon_of (by decide +kernel), mayWrite_of (by decide +kernel), by decide +kernel⟩,
   ⟨put (setFlag (setFlag mgS 0x0B R.JXR.STAT.LOCKA true) 0x0B R.JXR.STAT.LOCKB true) 0x0B R.JXR.CFG.AUTOENUM 1, canon_of (by decide +kernel), by decide +kernel⟩,
   ⟨wkS, (jxrDup wkS 10 7).1, 9, 7, 0x8001, 0xFFFF, canon_of (by decide +kernel), by decide +kernel⟩⟩

theorem test_hypotheses_RingTimeAndEnumeration_2 :
    (∃ (s : State) (who : Who) (v : Word),
      (Canon s) ∧ (MayWrite s who 0x0B 0x11C) ∧ (jxrActive s = true) ∧ (isSet s 0x0B R.JXR.ADDR.VALID = true)) ∧
    (∃ (s : State) (f : RingFrame) (l : List RingFrame),
      (Canon s) ∧ (jxrActive s = true) ∧ (s.jxr.evtCopy = f :: l)) :=
  ⟨⟨giv wkS 0x0B, .ec3, 0xFFFF8001, canon_of (by decide +kernel), mayWrite_of (by decide +kernel), by decide +kernel⟩,
   ⟨{ wkS with jxr := { JxrSt.init with evtCopy := [jxrFrame wkS 0 4 7 true false [1, 0, 0, 0]] } }, jxrFrame wkS 0 4 7 true false [1, 0, 0, 0], [], canon_of (by decide +kernel), by decide +kernel⟩⟩

theorem test_hypotheses_BridgeCommands_1 :
    (∃ (s : State) (who : Who) (offs : BitVec 30) (v : Word),
      (Canon s) ∧ (sysLost s = false) ∧ (whoOutside who = false) ∧ (offs.toNat % 4 = 0) ∧ (0x100000 ≤ offs.toNat) ∧ (brgIssueOk s (whoKind who) (offs.toNat / 0x100000) (offs.toNat % 0x100000) 1 = true) ∧ (brgPoisoned s (offs.toNat / 0x100000) (offs.toNat % 0x100000 / 4096) = false) ∧ (s.brg.queue = [])) ∧
    (∃ (s : State) (core : EcCore) (offs : BitVec 30),
      (Canon s) ∧ (sysLost s = false) ∧ (offs.toNat % 4 = 0) ∧ (0x100000 ≤ offs.toNat) ∧ (brgIssueOk s (whoKind (coreWho core)) (offs.toNat / 0x100000) (offs.toNat % 0x100000) 1 = true) ∧ (storeGet bufDefault s.brg.cores (corePage (coreWho core)) = .idle) ∧ (s.brg.queue = [])) ∧
    (∃ (s : State) (core : EcCore) (offs : BitVec 30) (w : Word),
      (Canon s) ∧ (running s = true) ∧ (sysLost s = false) ∧ (offs.toNat % 4 = 0) ∧ (0x100000 ≤ offs.toNat) ∧ (storeGet bufDefault s.brg.cores (corePage (coreWho core)) = .data offs.toNat w)) ∧
    (∃ (s : State) (who : Who) (v : Word),
      (Canon s) ∧ (MayWrite s who 0x0A 0x114) ∧ (jxrRole s = 1) ∧ (0x80000000 ≤ v.toNat) ∧ (v.toNat < 0xC0000000) ∧ (s.brg.rdcnt = []) ∧ (s.brg.queue = []) ∧ (slotState s 0 = 0) ∧ (whoOutside who = false) ∧ (brgIssueOk s (whoKind who) ((v.toNat - 0x80000000) / 0x100000 % 1024) (v.toNat % 0x100000) 1 = true)) ∧
    (∃ (s : State) (who : Who) (v : Word) (t : Fin 16),
      (Canon s) ∧ (MayWrite s who 0x0A 0x11C) ∧ (jxrRole s ≠ 2) ∧ (v.toNat = 2 ^ t.val) ∧ (2 ≤ slotState s t.val) ∧ (getF s 0x0A (R.BRG.SLOT.KIND t.val) = whoKind who)) ∧
    (∃ (s : State) (t : Fin 16),
      (Canon s) ∧ (running s = true) ∧ ((slotState s t.val = 2 ∨ slotState s t.val = 3)) ∧ (rsePage (slotPage s t.val) = false)) ∧
    (∃ (s : State) (who : Who),
      (Canon s) ∧ (MayWrite s who 0x0A 0x128) ∧ (jxrRole s ≠ 2) ∧ (getF s 0x0A R.BRG.ELOGN.N ≠ 0)) ∧
    (∃ (s : State) (who : Who),
      (Canon s) ∧ (MayWrite s who 0x0A 0x128) ∧ (jxrRole s ≠ 2) ∧ (getF s 0x0A R.BRG.OLOGN.N ≠ 0)) :=
  ⟨⟨mgS, .ec3, 0x120104, 9, canon_of (by decide +kernel), by decide +kernel⟩,
   ⟨mgS, .ec3, 0x120104, canon_of (by decide +kernel), by decide +kernel⟩,
   ⟨{ mgS with brg := { BrgSt.init with cores := [(0xA3, .data 0x120104 7)] } }, .ec3, 0x120104, 7, canon_of (by decide +kernel), by decide +kernel⟩,
   ⟨giv mgS 0x0A, .ec3, 0x80120104, canon_of (by decide +kernel), mayWrite_of (by decide +kernel), by decide +kernel⟩,
   ⟨slotSet (giv mgS 0x0A) 15 2 3 0 0 1, .ec3, 0x8000, 15, canon_of (by decide +kernel), mayWrite_of (by decide +kernel), by decide +kernel⟩,
   ⟨slotSet mgS 15 3 3 16 9 1, 15, canon_of (by decide +kernel), by decide +kernel⟩,
   ⟨setF (setF (giv mgS 0x0A) 0x0A R.BRG.ELOGN.N 16) 0x0A R.BRG.ELOGN.HEAD 15, .ec3, canon_of (by decide +kernel), mayWrite_of (by decide +kernel), by decide +kernel⟩,
   ⟨setF (setF (giv mgS 0x0A) 0x0A R.BRG.OLOGN.N 8) 0x0A R.BRG.OLOGN.HEAD 7, .ec3, canon_of (by decide +kernel), mayWrite_of (by decide +kernel), by decide +kernel⟩⟩

theorem test_hypotheses_BridgeCommands_2 :
    (∃ (s : State) (who : Who) (v : Word),
      (Canon s) ∧ (MayWrite s who 0x0A 0x12C) ∧ (jxrRole s ≠ 2) ∧ ((∀ j, j < 64 → isSet s 0x0A (R.BRG.SEM.HELD j) = false))) ∧
    (∃ (s : State) (who : Who) (v : Word) (n : Fin 64),
      (Canon s) ∧ (MayWrite s who 0x0A 0x130) ∧ (jxrRole s ≠ 2) ∧ (v.toNat % 64 = n.val) ∧ (isSet s 0x0A (R.BRG.SEM.HELD n.val) = true) ∧ (getF s 0x0A (R.BRG.SEM.OWNER n.val) = whoKind who)) ∧
    (∃ (s : State) (n : Fin 64),
      (Canon s) ∧ (running s = true) ∧ (isSet s 0x0A (R.BRG.SEM.HELD n.val) = true) ∧ (getF s 0x0A R.BRG.ELOGN.N < 16)) ∧
    (∃ (s : State) (who : Who) (dev : BitVec 10) (page : Byte),
      (Canon s) ∧ (MayWrite s who 0x0A 0x134) ∧ (jxrRole s ≠ 2)) ∧
    (∃ (s : State) (who : Who),
      (Canon s) ∧ (MayWrite s who 0x0A 0x134) ∧ (jxrRole s ≠ 2)) ∧
    (∃ (s : State) (now : BitVec 64) (sec : Word) (sub : BitVec 16),
      (Canon s) ∧ (running s = true) ∧ (jxrRole s = 1) ∧ (blockOff s 0x0A = false) ∧ (cfg s 0x0A R.BRG.CFG.POLL ≠ 0) ∧ (isSet s 0x0A R.BRG.STAT.POLLRUN = false) ∧ (ringWorkers s = []) ∧ ((∀ r ∈ s.brg.queue, r.dest ≠ 33)) ∧ ((∀ r ∈ s.brg.outst, r.req.dest ≠ 33)) ∧ (s.brg.pollDue = false)) ∧
    (∃ (s : State) (now : BitVec 64) (sec : Word) (sub : BitVec 16),
      (Canon s) ∧ (running s = true) ∧ (jxrRole s = 1) ∧ (blockOff s 0x0A = false) ∧ (cfg s 0x0A R.BRG.CFG.POLL ≠ 0) ∧ (isSet s 0x0A R.BRG.STAT.POLLRUN = false) ∧ (ringWorkers s ≠ [])) ∧
    (∃ (s : State) (now : BitVec 64) (sec : Word) (sub : BitVec 16),
      (Canon s) ∧ (running s = true) ∧ (jxrRole s = 1) ∧ (blockOff s 0x0A = false) ∧ (cfg s 0x0A R.BRG.CFG.POLL ≠ 0) ∧ (isSet s 0x0A R.BRG.STAT.POLLRUN = true)) :=
  ⟨⟨giv mgS 0x0A, .ec3, 0xFFFFFFFF, canon_of (by decide +kernel), mayWrite_of (by decide +kernel), by decide +kernel⟩,
   ⟨brgSemAcq (giv mgS 0x0A) 3 63, .ec3, 63, 63, canon_of (by decide +kernel), mayWrite_of (by decide +kernel), by decide +kernel⟩,
   ⟨brgSemAcq mgS 3 63, 63, canon_of (by decide +kernel), by decide +kernel⟩,
   ⟨{ giv mgS 0x0A with brg := { BrgSt.init with poison := [(1023, 255), (1, 2)] } }, .ec3, 1023, 255, canon_of (by decide +kernel), mayWrite_of (by decide +kernel), by decide +kernel⟩,
   ⟨{ giv mgS 0x0A with brg := { BrgSt.init with poison := [(1023, 255), (1, 2)] } }, .ec3, canon_of (by decide +kernel), mayWrite_of (by decide +kernel), by decide +kernel⟩,
   ⟨put (setF lonS 0x0A R.BRG.POLLC.ROUNDS 65535) 0x0A R.BRG.CFG.POLL 1, 0, 0, 0, canon_of (by decide +kernel), by decide +kernel⟩,
   ⟨put mgS 0x0A R.BRG.CFG.POLL 1, 0, 0, 0, canon_of (by decide +kernel), by decide +kernel⟩,
   ⟨setFlag (put mgS 0x0A R.BRG.CFG.POLL 1) 0x0A R.BRG.STAT.POLLRUN true, 0, 0, 0, canon_of (by decide +kernel), by decide +kernel⟩⟩

theorem test_hypotheses_BridgeCommands_3 :
    (∃ (s : State),
      (Canon s) ∧ (running s = true) ∧ (getF s 0x01 R.PMU.IDLECNT.CNT ≠ 0)) ∧
    (∃ (s : State),
      (Canon s) ∧ (running s = true) ∧ (getF s 0x01 R.PMU.IDLECNT.CNT = 0)) ∧
    (∃ (s : State),
      (Canon s) ∧ (running s = true) ∧ (getF s 0x0A R.BRG.WSUM.PSTATE = 3)) :=
  ⟨⟨setF mgS 0x01 R.PMU.IDLECNT.CNT 1, canon_of (by decide +kernel), by decide +kernel⟩,
   ⟨mgS, canon_of (by decide +kernel), by decide +kernel⟩,
   ⟨setF mgS 0x0A R.BRG.WSUM.PSTATE 3, canon_of (by decide +kernel), by decide +kernel⟩⟩

theorem test_hypotheses_HostFrames_1 :
    (∃ (s : State) (cmd : Byte),
      (Canon s) ∧ (running s = true) ∧ (cmd.toNat % 64 = 0) ∧ (cmd.toNat / 64 ≠ 3)) ∧
    (∃ (s : State) (cmd : Byte),
      (Canon s) ∧ (running s = true) ∧ ((cmd.toNat / 64 = 3 ∨ 3 < cmd.toNat % 64))) ∧
    (∃ (s : State) (width : BitVec 2) (addr : Word) (len : BitVec 16) (crc : BitVec 16) (ws : List Word) (n : Nat),
      (Canon s) ∧ (running s = true) ∧ (width = 3)) ∧
    (∃ (s : State) (width : BitVec 2) (addr : Word) (len : BitVec 16) (crc : BitVec 16) (ws : List Word) (n : Nat),
      (Canon s) ∧ (running s = true) ∧ (width ≠ 3) ∧ (crc16 (hostRequest (hostCmdByte width 1) addr.toNat len.toNat ws) ≠ crc.toNat)) ∧
    (∃ (s : State) (width : BitVec 2) (addr : Word) (len : BitVec 16) (crc : BitVec 16) (ws : List Word) (n : Nat),
      (Canon s) ∧ (running s = true) ∧ (width ≠ 3) ∧ (crc16 (hostRequest (hostCmdByte width 1) addr.toNat len.toNat ws) = crc.toNat) ∧ ((len = 0 ∨ 32 < len.toNat ∨ ws.length ≠ len.toNat))) ∧
    (∃ (s : State) (width : BitVec 2) (addr : Word) (len : BitVec 16) (crc : BitVec 16) (ws : List Word) (n : Nat),
      (Canon s) ∧ (running s = true) ∧ (width ≠ 3) ∧ (crc16 (hostRequest (hostCmdByte width 1) addr.toNat len.toNat ws) = crc.toNat) ∧ (1 ≤ len.toNat) ∧ (len.toNat ≤ 32) ∧ (ws.length = len.toNat) ∧ (s.hpt.wbusy = true)) ∧
    (∃ (s : State) (width : BitVec 2) (addr : Word) (len : BitVec 16) (crc : BitVec 16) (ws : List Word) (n : Nat),
      (Canon s) ∧ (running s = true) ∧ (width ≠ 3) ∧ (crc16 (hostRequest (hostCmdByte width 1) addr.toNat len.toNat ws) = crc.toNat) ∧ (1 ≤ len.toNat) ∧ (len.toNat ≤ 32) ∧ (ws.length = len.toNat) ∧ (s.hpt.wbusy = false) ∧ (addr.toNat % 4 ≠ 0)) ∧
    (∃ (s : State) (width : BitVec 2) (addr : Word) (len : BitVec 16) (crc : BitVec 16) (ws : List Word) (w : Word) (n : Nat),
      (Canon s) ∧ (running s = true) ∧ (width ≠ 3) ∧ (crc16 (hostRequest (hostCmdByte width 1) addr.toNat len.toNat ws) = crc.toNat) ∧ (sysLost s = false) ∧ (manifestLoaded s = true) ∧ (len = 1) ∧ (ws = [w]) ∧ (s.hpt.wbusy = false) ∧ (addr.toNat % 4 = 0) ∧ (0x20000000 ≤ addr.toNat) ∧ (addr.toNat < 0x20200000) ∧ (1 ≤ n)) :=
  ⟨⟨rS, 0x80, canon_of (by decide +kernel), by decide +kernel⟩,
   ⟨rS, 4, canon_of (by decide +kernel), by decide +kernel⟩,
   ⟨rS, 3, 0, 0, 0, [], 0, canon_of (by decide +kernel), by decide +kernel⟩,
   ⟨rS, 0, 0x20000000, 1, 0, [5], 0, canon_of (by decide +kernel), by decide +kernel⟩,
   ⟨rS, 0, 0x20000000, 0, BitVec.ofNat 16 (crc16 (hostRequest 1 0x20000000 0 [])), [], 0, canon_of (by decide +kernel), by decide +kernel⟩,
   ⟨{ rS with hpt := { HptSt.init with wbusy := true } }, 0, 0x20000000, 1, BitVec.ofNat 16 (crc16 (hostRequest 1 0x20000000 1 [5])), [5], 0, canon_of (by decide +kernel), by decide +kernel⟩,
   ⟨rS, 0, 0x20000001, 1, BitVec.ofNat 16 (crc16 (hostRequest 1 0x20000001 1 [5])), [5], 0, canon_of (by decide +kernel), by decide +kernel⟩,
   ⟨rS, 0, 0x201FFFFC, 1, BitVec.ofNat 16 (crc16 (hostRequest 1 0x201FFFFC 1 [5])), [5], 5, 1, canon_of (by decide +kernel), by decide +kernel⟩⟩

theorem test_hypotheses_HostFrames_2 :
    (∃ (s : State) (width : BitVec 2) (addr : Word) (len : BitVec 16) (crc : BitVec 16) (ws : List Word) (n : Nat),
      (Canon s) ∧ (running s = true) ∧ (width ≠ 3) ∧ (crc16 (hostRequest (hostCmdByte width 1) addr.toNat len.toNat ws) = crc.toNat) ∧ (1 ≤ len.toNat) ∧ (len.toNat ≤ 32) ∧ (ws.length = len.toNat) ∧ (s.hpt.wbusy = false) ∧ (addr.toNat % 4 = 0) ∧ (n = 0)) ∧
    (∃ (s : State) (addr : Word) (w : Word),
      (Canon s) ∧ (running s = true) ∧ (sysLost s = false) ∧ (manifestLoaded s = true) ∧ (s.hpt.wbusy = true) ∧ (s.hpt.wait = [(addr.toNat, w)]) ∧ (addr.toNat % 4 = 0) ∧ (0x20000000 ≤ addr.toNat) ∧ (addr.toNat < 0x20200000)) ∧
    (∃ (s : State) (width : BitVec 2) (addr : Word) (len : BitVec 16) (crc : BitVec 16) (late : Bool),
      (Canon s) ∧ (running s = true) ∧ (width ≠ 3) ∧ (crc16 (hostRequest (hostCmdByte width 2) addr.toNat len.toNat []) ≠ crc.toNat)) ∧
    (∃ (s : State) (width : BitVec 2) (addr : Word) (len : BitVec 16) (crc : BitVec 16) (late : Bool),
      (Canon s) ∧ (running s = true) ∧ (width ≠ 3) ∧ (crc16 (hostRequest (hostCmdByte width 2) addr.toNat len.toNat []) = crc.toNat) ∧ ((len = 0 ∨ 32 < len.toNat))) ∧
    (∃ (s : State) (width : BitVec 2) (addr : Word) (len : BitVec 16) (crc : BitVec 16),
      (Canon s) ∧ (running s = true) ∧ (width ≠ 3) ∧ (crc16 (hostRequest (hostCmdByte width 2) addr.toNat len.toNat []) = crc.toNat) ∧ (sysLost s = false) ∧ (manifestLoaded s = true) ∧ (1 ≤ len.toNat) ∧ (len.toNat ≤ 32) ∧ (s.hpt.wbusy = false) ∧ (addr.toNat % 4 = 0) ∧ (0x20000000 ≤ addr.toNat) ∧ (addr.toNat + 4 * len.toNat ≤ 0x20200000)) ∧
    (∃ (s : State) (width : BitVec 2) (addr : Word) (len : BitVec 16) (crc : BitVec 16),
      (Canon s) ∧ (running s = true) ∧ (width ≠ 3) ∧ (crc16 (hostRequest (hostCmdByte width 2) addr.toNat len.toNat []) = crc.toNat) ∧ (1 ≤ len.toNat) ∧ (len.toNat ≤ 32) ∧ (s.hpt.wbusy = false) ∧ (addr.toNat % 4 = 0) ∧ (0x40000000 ≤ addr.toNat) ∧ (addr.toNat < 0x40100000) ∧ ((blkOf (addr.toNat / 4096 % 256)).isSome = true) ∧ (pageStands s (addr.toNat / 4096 % 256) = false) ∧ (addr.toNat / 4096 % 256 ≠ 6) ∧ ((rightsOf s 4 (addr.toNat / 4096 % 256)).testBit 0 = false)) ∧
    (∃ (s : State) (addr : Word) (n : Nat) (l : _),
      (Canon s) ∧ (1 ≤ n) ∧ (running s = true) ∧ (s.hpt.reading = some (addr.toNat, n, l)) ∧ (addr.toNat % 4 = 0) ∧ (0x40000000 ≤ addr.toNat) ∧ (addr.toNat < 0x40100000) ∧ ((blkOf (addr.toNat / 4096 % 256)).isSome = true) ∧ (pageStands s (addr.toNat / 4096 % 256) = false) ∧ (addr.toNat / 4096 % 256 ≠ 6) ∧ ((rightsOf s 4 (addr.toNat / 4096 % 256)).testBit 0 = false)) ∧
    (∃ (s : State) (width : BitVec 2) (addr : Word) (len : BitVec 16) (crc : BitVec 16) (ws : List Word) (w : Word) (n : Nat),
      (Canon s) ∧ (running s = true) ∧ (width ≠ 3) ∧ (crc16 (hostRequest (hostCmdByte width 1) addr.toNat len.toNat ws) = crc.toNat) ∧ (len = 1) ∧ (ws = [w]) ∧ (s.hpt.wbusy = false) ∧ (1 ≤ n) ∧ (addr.toNat % 4 = 0) ∧ (0x40000000 ≤ addr.toNat) ∧ (addr.toNat < 0x40100000) ∧ ((blkOf (addr.toNat / 4096 % 256)).isSome = true) ∧ (pageStands s (addr.toNat / 4096 % 256) = false) ∧ (addr.toNat / 4096 % 256 ≠ 6) ∧ ((rightsOf s 4 (addr.toNat / 4096 % 256)).testBit (writeRight (addr.toNat % 4096)) = false) ∧ ((addr.toNat ≠ 0x40004108))) :=
  ⟨⟨rS, 0, 0x20000000, 2, BitVec.ofNat 16 (crc16 (hostRequest 1 0x20000000 2 [5, 6])), [5, 6], 0, canon_of (by decide +kernel), by decide +kernel⟩,
   ⟨{ rS with hpt := { HptSt.init with wbusy := true, wait := [(0x20000000, 5)] } }, 0x20000000, 5, canon_of (by decide +kernel), by decide +kernel⟩,
   ⟨rS, 0, 0x20000000, 1, 0, false, canon_of (by decide +kernel), by decide +kernel⟩,
   ⟨rS, 0, 0x20000000, 33, BitVec.ofNat 16 (crc16 (hostRequest 2 0x20000000 33 [])), false, canon_of (by decide +kernel), by decide +kernel⟩,
   ⟨{ rS with mem := memSetList [] 0x201FFFF8 [1, 2, 3, 4, 5, 6, 7, 8] }, 0, 0x201FFFF8, 2, BitVec.ofNat 16 (crc16 (hostRequest 2 0x201FFFF8 2 [])), canon_of (by decide +kernel), by decide +kernel⟩,
   ⟨rS, 0, 0x40020100, 1, BitVec.ofNat 16 (crc16 (hostRequest 2 0x40020100 1 [])), canon_of (by decide +kernel), by decide +kernel⟩,
   ⟨{ rS with hpt := { HptSt.init with reading := some (0x40020100, 2, [9]) } }, 0x40020100, 2, [9], canon_of (by decide +kernel), by decide +kernel⟩,
   ⟨rS, 0, 0x40020100, 1, BitVec.ofNat 16 (crc16 (hostRequest 1 0x40020100 1 [5])), [5], 5, 1, canon_of (by decide +kernel), by decide +kernel⟩⟩

theorem test_hypotheses_HostFrames_3 :
    (∃ (s : State) (width : BitVec 2) (addr : Word) (len : BitVec 16) (crc : BitVec 16),
      (Canon s) ∧ (running s = true) ∧ (width ≠ 3) ∧ (crc16 (hostRequest (hostCmdByte width 2) addr.toNat len.toNat []) = crc.toNat) ∧ (manifestLoaded s = false) ∧ (sysLost s = false) ∧ (1 ≤ len.toNat) ∧ (len.toNat ≤ 32) ∧ (s.hpt.wbusy = false) ∧ (addr.toNat % 4 = 0) ∧ (0x20000000 ≤ addr.toNat) ∧ (addr.toNat < 0x20200000)) ∧
    (∃ (s : State) (width : BitVec 2) (addr : Word) (len : BitVec 16) (crc : BitVec 16),
      (Canon s) ∧ (running s = true) ∧ (width ≠ 3) ∧ (crc16 (hostRequest (hostCmdByte width 2) addr.toNat len.toNat []) = crc.toNat) ∧ (1 ≤ len.toNat) ∧ (len.toNat ≤ 32) ∧ (s.hpt.wbusy = false) ∧ (addr.toNat % 4 = 0) ∧ (addr.toNat < 0x60000000)) ∧
    (∃ (s : State) (addr : Word) (n : Nat) (l : _),
      (Canon s) ∧ (running s = true) ∧ (sysLost s = false) ∧ (manifestLoaded s = true) ∧ (s.hpt.reading = some (addr.toNat, n, l)) ∧ (addr.toNat % 4 = 0) ∧ (0x20000000 ≤ addr.toNat) ∧ (addr.toNat + 4 * n ≤ 0x20200000)) ∧
    (∃ (s : State) (width : BitVec 2) (l : _),
      (Canon s) ∧ (running s = true) ∧ (width ≠ 3) ∧ (s.hpt.reading = none) ∧ (s.hpt.rbuf = some l)) ∧
    (∃ (s : State) (cmd : Byte),
      (Canon s) ∧ (running s = true)) ∧
    (∃ (s : State) (who : Who),
      (Canon s) ∧ (MayWrite s who 0x08 0x110)) :=
  ⟨⟨State.reset, 0, 0x20000000, 1, BitVec.ofNat 16 (crc16 (hostRequest 2 0x20000000 1 [])), canon_of (by decide +kernel), by decide +kernel⟩,
   ⟨rS, 0, 0x20000000, 1, BitVec.ofNat 16 (crc16 (hostRequest 2 0x20000000 1 [])), canon_of (by decide +kernel), by decide +kernel⟩,
   ⟨{ rS with hpt := { HptSt.init with reading := some (0x20000000, 2, [9]) } }, 0x20000000, 2, [9], canon_of (by decide +kernel), by decide +kernel⟩,
   ⟨{ rS with hpt := { HptSt.init with rbuf := some [9] } }, 0, [9], canon_of (by decide +kernel), by decide +kernel⟩,
   ⟨rS, 1, canon_of (by decide +kernel), by decide +kernel⟩,
   ⟨setF (giv rS 0x08) 0x08 R.HPT.ERRC.CRC 9, .ec3, canon_of (by decide +kernel), mayWrite_of (by decide +kernel)⟩⟩

theorem test_hypotheses_SideBandCommands_1 :
    (∃ (s : State),
      (Canon s) ∧ (s.mode ≠ .off)) ∧
    (∃ (s : State),
      (Canon s) ∧ (running s = true)) ∧
    (∃ (s : State),
      (Canon s) ∧ (running s = false)) ∧
    (∃ (s : State) (nonce : List Byte),
      (Canon s) ∧ (running s = true) ∧ (s.sbp.attSt ≠ 1)) ∧
    (∃ (s : State) (nonce : List Byte),
      (Canon s) ∧ (running s = true) ∧ (s.sbp.attSt = 1)) ∧
    (∃ (s : State) (nonce : List Byte),
      (Canon s) ∧ (running s = true)) ∧
    (∃ (s : State),
      (Canon s) ∧ (running s = true)) ∧
    (∃ (s : State) (offs : BitVec 16),
      (Canon s) ∧ (running s = true) ∧ (s.sbp.attSt = 2)) :=
  ⟨⟨zS .park, canon_of (by decide +kernel), by decide +kernel⟩,
   ⟨rS, canon_of (by decide +kernel), by decide +kernel⟩,
   ⟨zS .park, canon_of (by decide +kernel), by decide +kernel⟩,
   ⟨rS, [7], canon_of (by decide +kernel), by decide +kernel⟩,
   ⟨{ rS with sbp := { SbpSt.init with attSt := 1 } }, [], canon_of (by decide +kernel), by decide +kernel⟩,
   ⟨rS, [], canon_of (by decide +kernel), by decide +kernel⟩,
   ⟨{ rS with sbp := { SbpSt.init with attSt := 2 } }, canon_of (by decide +kernel), by decide +kernel⟩,
   ⟨{ rS with sbp := { SbpSt.init with attSt := 2 } }, 3, canon_of (by decide +kernel), by decide +kernel⟩⟩

theorem test_hypotheses_SideBandCommands_2 :
    (∃ (s : State),
      (Canon s) ∧ (running s = true) ∧ ((s.mode ≠ .boot ∨ getF s 0x03 R.RST.BOOT.PHASE = 5)) ∧ (s.sbp.attSt = 1) ∧ (attRefused s ≠ 0)) ∧
    (∃ (s : State),
      (Canon s) ∧ (running s = true) ∧ ((s.mode ≠ .boot ∨ getF s 0x03 R.RST.BOOT.PHASE = 5)) ∧ (s.sbp.attSt = 1) ∧ (attRefused s = 0)) ∧
    (∃ (s : State),
      (Canon s) ∧ ((s.mode = .hold ∨ s.mode = .run))) ∧
    (∃ (s : State),
      (Canon s) ∧ (s.mode = .limp)) ∧
    (∃ (s : State),
      (Canon s) ∧ ((s.mode = .park ∨ s.mode = .watch ∨ s.mode = .listen ∨ s.mode = .boot))) ∧
    (∃ (s : State) (key : Byte),
      (Canon s) ∧ (s.mode ≠ .off)) ∧
    (∃ (s : State) (key : Byte),
      (Canon s) ∧ (s.mode ≠ .off) ∧ (key ≠ 0xDF)) ∧
    (∃ (s : State),
      (Canon s) ∧ (running s = true)) :=
  ⟨⟨{ rS with sbp := { SbpSt.init with attSt := 1 } }, canon_of (by decide +kernel), by decide +kernel⟩,
   ⟨attOkS, att_canon, by decide +kernel, by decide +kernel, by decide +kernel, att_ok⟩,
   ⟨rS, canon_of (by decide +kernel), by decide +kernel⟩,
   ⟨{ zS .limp with sbp := { SbpSt.init with limp := true } }, canon_of (by decide +kernel), by decide +kernel⟩,
   ⟨zS .watch, canon_of (by decide +kernel), by decide +kernel⟩,
   ⟨zS .park, 0, canon_of (by decide +kernel), by decide +kernel⟩,
   ⟨rS, 0xDE, canon_of (by decide +kernel), by decide +kernel⟩,
   ⟨rS, canon_of (by decide +kernel), by decide +kernel⟩⟩

theorem test_hypotheses_SideBandCommands_3 :
    (∃ (s : State),
      (Canon s) ∧ (running s = true)) ∧
    (∃ (s : State),
      (Canon s) ∧ ((s.mode = .park ∨ s.mode = .watch ∨ s.mode = .listen))) ∧
    (∃ (s : State),
      (Canon s) ∧ ((s.mode = .park ∨ s.mode = .watch ∨ s.mode = .listen))) ∧
    (∃ (s : State) (count : Byte) (addr : Word),
      (Canon s) ∧ (running s = true) ∧ ((count = 0 ∨ 8 < count.toNat ∨ addr.toNat % 4 ≠ 0))) ∧
    (∃ (s : State) (count : Byte) (addr : Word),
      (Canon s) ∧ (running s = true) ∧ (s.sbp.mrd = none) ∧ (1 ≤ count.toNat) ∧ (count.toNat ≤ 8) ∧ (addr.toNat % 4 = 0) ∧ (0x40000000 ≤ addr.toNat) ∧ (addr.toNat < 0x40100000) ∧ ((blkOf (addr.toNat / 4096 % 256)).isSome = true) ∧ (pageStands s (addr.toNat / 4096 % 256) = false) ∧ (addr.toNat / 4096 % 256 ≠ 6) ∧ ((rightsOf s 5 (addr.toNat / 4096 % 256)).testBit 0 = false)) ∧
    (∃ (s : State) (count : Byte) (addr : Word),
      (Canon s) ∧ (running s = true) ∧ (s.sbp.mrd = none) ∧ (1 ≤ count.toNat) ∧ (count.toNat ≤ 8) ∧ (addr.toNat % 4 = 0) ∧ (accessStands s .sbp addr.toNat = true)) ∧
    (∃ (s : State) (t : State) (count : Byte) (addr : Word) (v : Word),
      (Canon s) ∧ (running s = true) ∧ (s.sbp.mrd = none) ∧ (count = 1) ∧ (addr.toNat % 4 = 0) ∧ (busRead s .sbp false addr.toNat 4 = (t, .val v))) ∧
    (∃ (s : State) (t : State) (count : Byte) (addr : Word) (ws : List Word) (w : Word) (n : Nat),
      (Canon s) ∧ (running s = true) ∧ (writeWaits s .sbp addr.toNat = false) ∧ (s.sbp.memBusy = false) ∧ (count = 1) ∧ (ws = [w]) ∧ (addr.toNat % 4 = 0) ∧ (1 ≤ n) ∧ ((let s1 := sbpServed s 0x31; busWrite { s1 with sbp := { s1.sbp with memRes := 0, memN := 0 } } .sbp false addr.toNat 4 w = (t, true)))) :=
  ⟨⟨rS, canon_of (by decide +kernel), by decide +kernel⟩,
   ⟨zS .park, canon_of (by decide +kernel), by decide +kernel⟩,
   ⟨zS .park, canon_of (by decide +kernel), by decide +kernel⟩,
   ⟨rS, 1, 2, canon_of (by decide +kernel), by decide +kernel⟩,
   ⟨rS, 8, 0x40020100, canon_of (by decide +kernel), by decide +kernel⟩,
   ⟨{ rS with flt := { rS.flt with level := [32] } }, 2, 0x40020100, canon_of (by decide +kernel), by decide +kernel⟩,
   ⟨sbS, (busRead sbS .sbp false (0x4000D120 : Word).toNat 4).1, 1, 0x4000D120, 0, canon_of (by decide +kernel), by decide +kernel, by decide +kernel, by decide +kernel, of_decide_eq_true (by decide +kernel), Prod.ext (by decide +kernel) (by decide +kernel)⟩,
   ⟨sbS, (busWrite sbW .sbp false (0x4000D120 : Word).toNat 4 9).1, 1, 0x4000D120, [9], 9, 1, canon_of (by decide +kernel), by decide +kernel⟩⟩

theorem test_hypotheses_SideBandCommands_4 :
    (∃ (s : State) (count : Byte) (addr : Word) (ws : List Word),
      (Canon s) ∧ (running s = true) ∧ (s.sbp.memBusy = false) ∧ (1 ≤ count.toNat) ∧ (count.toNat ≤ 8) ∧ (ws.length = count.toNat) ∧ (addr.toNat % 4 = 0)) ∧
    (∃ (s : State) (key : Byte) (count : Byte) (addr : Word) (ws : List Word) (n : Nat),
      (Canon s) ∧ (running s = true) ∧ ((key ≠ 0xCE ∨ s.sbp.memBusy = true))) ∧
    (∃ (s : State) (t : State) (addr : Word) (w : Word),
      (Canon s) ∧ (running s = true) ∧ (writeWaits s .sbp addr.toNat = false) ∧ (s.sbp.memBusy = true) ∧ (s.sbp.memWait = [(addr.toNat, w)]) ∧ (busWrite s .sbp false addr.toNat 4 w = (t, true))) ∧
    (∃ (s : State),
      (Canon s) ∧ (running s = true)) ∧
    (∃ (s : State),
      (Canon s) ∧ (s.mode ≠ .off)) ∧
    (∃ (s : State) (who : Who),
      (Canon s) ∧ (MayWrite s who 0x09 0x10C)) :=
  ⟨⟨rS, 8, 0x4000D120, [1, 2, 3, 4, 5, 6, 7, 8], canon_of (by decide +kernel), by decide +kernel⟩,
   ⟨rS, 0, 0, 0, [], 0, canon_of (by decide +kernel), by decide +kernel⟩,
   ⟨{ sbS with sbp := { SbpSt.init with memBusy := true, memWait := [(0x4000D120, 9)] } }, (busWrite { sbS with sbp := { SbpSt.init with memBusy := true, memWait := [(0x4000D120, 9)] } } .sbp false (0x4000D120 : Word).toNat 4 9).1, 0x4000D120, 9, canon_of (by decide +kernel), by decide +kernel, by decide +kernel, by decide +kernel, of_decide_eq_true (by decide +kernel), Prod.ext rfl (by decide +kernel)⟩,
   ⟨rS, canon_of (by decide +kernel), by decide +kernel⟩,
   ⟨zS .listen, canon_of (by decide +kernel), by decide +kernel⟩,
   ⟨setF (giv rS 0x09) 0x09 R.SBP.CNT.NACK 3, .ec3, canon_of (by decide +kernel), mayWrite_of (by decide +kernel)⟩⟩

theorem test_hypotheses_CanCommands_1 :
    (∃ (s : State) (n : Fin 4) (f : CanFrame) (i : Nat) (now : BitVec 64),
      (Canon s) ∧ (busRuns s = true) ∧ (inRecovery s = false) ∧ ((f.fdf = false ∨ cfgOn s (canPage n.val) R.CAN.MODE.FD = true)) ∧ (canOnBus s n.val = true) ∧ (nmgOn s = false) ∧ (getF s (canPage n.val) R.CAN.ECNT.REC ≤ 127) ∧ (getF s (canPage n.val) R.CAN.ECNT.TEC < 128) ∧ (canStateOf s n.val = 1) ∧ ((List.range 64).find? (canMatches s n.val f) = some i) ∧ (cfg s (canPage n.val) (R.CAN.FLTA.ACT i) = 1) ∧ (busReach s (canPage n.val) = true) ∧ ((getF s (canPage n.val) R.CAN.RXWI.IDX + 256 - getF s (canPage n.val) R.CAN.RXRI.IDX) % 256 ≠ 128)) ∧
    (∃ (s : State) (n : Fin 4) (f : CanFrame) (i : Nat) (now : BitVec 64),
      (Canon s) ∧ (busRuns s = true) ∧ (inRecovery s = false) ∧ ((f.fdf = false ∨ cfgOn s (canPage n.val) R.CAN.MODE.FD = true)) ∧ (canOnBus s n.val = true) ∧ (nmgOn s = false) ∧ (getF s (canPage n.val) R.CAN.ECNT.REC ≤ 127) ∧ (getF s (canPage n.val) R.CAN.ECNT.TEC < 128) ∧ (canStateOf s n.val = 1) ∧ ((List.range 64).find? (canMatches s n.val f) = some i) ∧ (cfg s (canPage n.val) (R.CAN.FLTA.ACT i) = 1) ∧ ((getF s (canPage n.val) R.CAN.RXWI.IDX + 256 - getF s (canPage n.val) R.CAN.RXRI.IDX) % 256 = 128)) ∧
    (∃ (s : State) (n : Fin 4) (f : CanFrame) (now : BitVec 64),
      (Canon s) ∧ (busRuns s = true) ∧ (inRecovery s = false) ∧ ((f.fdf = false ∨ cfgOn s (canPage n.val) R.CAN.MODE.FD = true)) ∧ (canOnBus s n.val = true) ∧ (nmgOn s = false) ∧ ((List.range 64).find? (canMatches s n.val f) = none) ∧ (cfgOn s (canPage n.val) R.CAN.CFG.NOMATCH = false)) ∧
    (∃ (s : State) (n : Fin 4) (f : CanFrame) (now : BitVec 64),
      (Canon s) ∧ (busRuns s = true) ∧ (inRecovery s = false) ∧ (f.fdf = true) ∧ (cfgOn s (canPage n.val) R.CAN.MODE.FD = false)) ∧
    (∃ (s : State) (n : Fin 4) (code : BitVec 3) (eight : Bool),
      (Canon s) ∧ (busRuns s = true) ∧ (canOnBus s n.val = true) ∧ (getF s (canPage n.val) R.CAN.ECNT.TEC < 128) ∧ (getF s (canPage n.val) R.CAN.ECNT.REC < 120) ∧ (nmgState s ≠ 3)) ∧
    (∃ (s : State) (who : Who) (n : Fin 4) (v : Word),
      (Canon s) ∧ (MayWrite s who (canPage n.val) 0x114) ∧ (canNm s n.val = false) ∧ (canRel s n.val = false) ∧ (canOnBus s n.val = false)) ∧
    (∃ (s : State) (who : Who) (n : Fin 4) (v : Word) (b : Fin 32),
      (Canon s) ∧ (MayWrite s who (canPage n.val) 0x114) ∧ (canNm s n.val = false) ∧ (canRel s n.val = false) ∧ (canOnBus s n.val = true) ∧ ((canGet s n.val).cur = none) ∧ (cfg s (canPage n.val) R.CAN.MODE.OPM ≠ 1) ∧ (busReach s (canPage n.val) = true) ∧ (getF s (canPage n.val) R.CAN.TXREQ.REQ = 0) ∧ (v.toNat = 2 ^ b.val)) ∧
    (∃ (s : State) (who : Who) (n : Fin 4) (v : Word) (b : Fin 32),
      (Canon s) ∧ (MayWrite s who (canPage n.val) 0x118) ∧ (canNm s n.val = false) ∧ (canRel s n.val = false) ∧ ((canGet s n.val).cur = none) ∧ (v.toNat = 2 ^ b.val) ∧ ((getF s (canPage n.val) R.CAN.TXREQ.REQ).testBit b.val = true)) :=
  ⟨⟨put (put (put (setF canS 0x13 R.CAN.RXWI.IDX 255) 0x13 (R.CAN.FLTA.EN 63) 1) 0x13 (R.CAN.FLTA.ACT 63) 1) 0x13 (R.CAN.FLTB.MASK 63) 0, 3, ⟨false, false, false, false, 5, 1, [9]⟩, 63, 77, canon_of (by decide +kernel), by decide +kernel⟩,
   ⟨put (put (put (setF canS 0x13 R.CAN.RXWI.IDX 128) 0x13 (R.CAN.FLTA.EN 63) 1) 0x13 (R.CAN.FLTA.ACT 63) 1) 0x13 (R.CAN.FLTB.MASK 63) 0, 3, ⟨false, false, false, false, 5, 1, [9]⟩, 63, 77, canon_of (by decide +kernel), by decide +kernel⟩,
   ⟨canS, 3, ⟨false, false, false, false, 5, 1, [9]⟩, 0, canon_of (by decide +kernel), by decide +kernel⟩,
   ⟨canS, 3, ⟨false, true, false, false, 5, 1, [9]⟩, 7, canon_of (by decide +kernel), by decide +kernel⟩,
   ⟨setF canS 0x13 R.CAN.ECNT.REC 119, 3, 7, true, canon_of (by decide +kernel), by decide +kernel⟩,
   ⟨giv rS 0x13, .ec3, 3, 0x80000001, canon_of (by decide +kernel), mayWrite_of (by decide +kernel), by decide +kernel⟩,
   ⟨giv canS 0x13, .ec3, 3, 0x80000000, 31, canon_of (by decide +kernel), mayWrite_of (by decide +kernel), by decide +kernel⟩,
   ⟨setF (giv rS 0x13) 0x13 R.CAN.TXREQ.REQ 0x80000001, .ec3, 3, 0x80000000, 31, canon_of (by decide +kernel), mayWrite_of (by decide +kernel), by decide +kernel⟩⟩

theorem test_hypotheses_CanCommands_2 :
    (∃ (s : State) (who : Who) (n : Fin 4) (v : Word) (b : Fin 32),
      (Canon s) ∧ (MayWrite s who (canPage n.val) 0x118) ∧ (canNm s n.val = false) ∧ (canRel s n.val = false) ∧ ((canGet s n.val).cur = some b.val) ∧ (v.toNat = 2 ^ b.val) ∧ ((getF s (canPage n.val) R.CAN.TXREQ.REQ).testBit b.val = true)) ∧
    (∃ (s : State) (n : Fin 4) (b : Fin 32),
      (Canon s) ∧ (busRuns s = true) ∧ (canNm s n.val = false) ∧ (canRel s n.val = false) ∧ (nmgOn s = false) ∧ ((canGet s n.val).cur = some b.val) ∧ (getF s (canPage n.val) R.CAN.TXREQ.REQ = 2 ^ b.val) ∧ (canStateOf s n.val = 1) ∧ (getF s (canPage n.val) R.CAN.ECNT.TEC < 128) ∧ (getF s (canPage n.val) R.CAN.ECNT.REC < 128)) ∧
    (∃ (s : State) (n : Fin 4) (b : Fin 32) (code : BitVec 3) (free : Bool),
      (Canon s) ∧ (busRuns s = true) ∧ (canNm s n.val = false) ∧ (canRel s n.val = false) ∧ (nmgOn s = false) ∧ (configured s (canPage n.val) = true) ∧ (enabled s (canPage n.val) = true) ∧ ((canGet s n.val).cur = some b.val) ∧ (getF s (canPage n.val) R.CAN.TXREQ.REQ = 2 ^ b.val) ∧ (canStateOf s n.val = 1) ∧ (cfg s (canPage n.val) R.CAN.MODE.OPM ≠ 1) ∧ (busReach s (canPage n.val) = true) ∧ (getF s (canPage n.val) R.CAN.ECNT.TEC < 120) ∧ (getF s (canPage n.val) R.CAN.ECNT.REC < 128) ∧ ((canGet s n.val).cancel = false) ∧ (cfgOn s (canPage n.val) R.CAN.CFG.DAR = false) ∧ ((free = false ∨ code ≠ 1))) ∧
    (∃ (s : State) (n : Fin 4) (b : Fin 32) (code : BitVec 3),
      (Canon s) ∧ (busRuns s = true) ∧ (nmgOn s = false) ∧ ((canGet s n.val).cur = some b.val) ∧ ((code = 1 ∨ code = 3 ∧ canStateOf s n.val = 2))) ∧
    (∃ (s : State) (who : Who) (n : Fin 4) (v : Word),
      (Canon s) ∧ (MayWrite s who (canPage n.val) 0x110) ∧ ((getF s (canPage n.val) R.CAN.RXWI.IDX + 256 - v.toNat % 256) % 256 ≤ 128)) ∧
    (∃ (s : State) (who : Who) (n : Fin 4) (v : Word),
      (Canon s) ∧ (MayWrite s who (canPage n.val) 0x110) ∧ (128 < (getF s (canPage n.val) R.CAN.RXWI.IDX + 256 - v.toNat % 256) % 256)) ∧
    (∃ (s : State) (who : Who) (n : Fin 4),
      (Canon s) ∧ (MayWrite s who (canPage n.val) 0x128) ∧ (canStateOf s n.val = 3)) ∧
    (∃ (s : State) (n : Fin 4),
      (Canon s) ∧ (busRuns s = true) ∧ (canStateOf s n.val = 4) ∧ (nmgState s ≠ 3)) :=
  ⟨⟨setF (canSet (giv rS 0x13) 3 { CanSt.init with cur := some 31 }) 0x13 R.CAN.TXREQ.REQ 0x80000000, .ec3, 3, 0x80000000, 31, canon_of (by decide +kernel), mayWrite_of (by decide +kernel), by decide +kernel⟩,
   ⟨setF (setF (canSet canS 3 { CanSt.init with cur := some 31 }) 0x13 R.CAN.TXREQ.REQ 0x80000000) 0x13 R.CAN.ECNT.TEC 127, 3, 31, canon_of (by decide +kernel), by decide +kernel⟩,
   ⟨setF (setF (canSet canS 3 { CanSt.init with cur := some 31 }) 0x13 R.CAN.TXREQ.REQ 0x80000000) 0x13 R.CAN.ECNT.TEC 119, 3, 31, 3, false, canon_of (by decide +kernel), by decide +kernel⟩,
   ⟨setF (setF (canSet canS 3 { CanSt.init with cur := some 31 }) 0x13 R.CAN.STAT.STATE 2) 0x13 R.CAN.ECNT.TEC 128, 3, 31, 3, canon_of (by decide +kernel), by decide +kernel⟩,
   ⟨setF (giv rS 0x13) 0x13 R.CAN.RXWI.IDX 3, .ec3, 3, 131, canon_of (by decide +kernel), mayWrite_of (by decide +kernel), by decide +kernel⟩,
   ⟨setF (giv rS 0x13) 0x13 R.CAN.RXWI.IDX 3, .ec3, 3, 130, canon_of (by decide +kernel), mayWrite_of (by decide +kernel), by decide +kernel⟩,
   ⟨setF (giv rS 0x13) 0x13 R.CAN.STAT.STATE 3, .ec3, 3, canon_of (by decide +kernel), mayWrite_of (by decide +kernel), by decide +kernel⟩,
   ⟨setF (setF rS 0x13 R.CAN.STAT.STATE 4) 0x13 R.CAN.ECNT.TEC 255, 3, canon_of (by decide +kernel), by decide +kernel⟩⟩

theorem test_hypotheses_CanCommands_3 :
    (∃ (s : State) (p : TxdPort),
      (Canon s) ∧ (running s = true)) ∧
    (∃ (s : State) (who : Who) (n : Fin 4),
      (Canon s) ∧ (MayRead s who (canPage n.val))) :=
  ⟨⟨rS, .lin 5, canon_of (by decide +kernel), by decide +kernel⟩,
   ⟨setF (giv rS 0x13) 0x13 R.CAN.LEC.CODE 5, .ec3, 3, canon_of (by decide +kernel), mayRead_of (by decide +kernel)⟩⟩

theorem test_hypotheses_LinCommands_1 :
    (∃ (s : State) (n : Fin 6) (id : BitVec 6) (res : BitVec 4) (data : List Byte) (csum : Byte),
      (Canon s) ∧ (busRuns s = true) ∧ (linOn s n.val = true) ∧ ((linGet s n.val).old = none) ∧ (linState s n.val ≠ 3) ∧ (cfg s (linPage n.val) (R.LIN.FID.DIR id.toNat) = 1) ∧ (res.toNat ≤ 6) ∧ (res ≠ 0) ∧ (id ≠ 0x3C) ∧ (linHeader s n.val id.toNat false = true)) ∧
    (∃ (s : State) (n : Fin 6) (id : BitVec 6) (data : List Byte) (csum : Byte),
      (Canon s) ∧ (busRuns s = true) ∧ (linOn s n.val = true) ∧ ((linGet s n.val).old = none) ∧ (linState s n.val ≠ 3) ∧ (cfg s (linPage n.val) (R.LIN.FID.DIR id.toNat) = 1) ∧ (id ≠ 0x3C) ∧ (linHeader s n.val id.toNat false = true)) ∧
    (∃ (s : State) (n : Fin 6) (id : BitVec 6) (data : List Byte) (csum : Byte),
      (Canon s) ∧ (busRuns s = true) ∧ (linOn s n.val = true) ∧ ((linGet s n.val).old = none) ∧ (linState s n.val ≠ 3) ∧ (cfg s (linPage n.val) (R.LIN.FID.DIR id.toNat) = 2) ∧ (id ≠ 0x3C) ∧ (linHeader s n.val id.toNat false = true) ∧ (csum ≠ linCheck (cfg s (linPage n.val)) id.toNat data)) ∧
    (∃ (s : State) (n : Fin 6) (id : BitVec 6) (data : List Byte) (csum : Byte),
      (Canon s) ∧ (busRuns s = true) ∧ (linOn s n.val = true) ∧ ((linGet s n.val).old = none) ∧ (linState s n.val ≠ 3) ∧ (cfg s (linPage n.val) (R.LIN.FID.DIR id.toNat) = 2) ∧ (id ≠ 0x3C) ∧ (linHeader s n.val id.toNat false = true) ∧ (csum = linCheck (cfg s (linPage n.val)) id.toNat data)) ∧
    (∃ (s : State) (n : Fin 6) (csum : Byte),
      (Canon s) ∧ (busRuns s = true) ∧ (linOn s n.val = true) ∧ (linCommander s n.val = false) ∧ (csum = linCheck (linCfg s n.val) 0x3C linSleepData)) ∧
    (∃ (s : State) (who : Who) (n : Fin 6),
      (Canon s) ∧ (MayWrite s who (linPage n.val) 0x10C) ∧ (linCommander s n.val = true) ∧ (linOn s n.val = true)) ∧
    (∃ (s : State) (who : Who) (n : Fin 6),
      (Canon s) ∧ (MayWrite s who (linPage n.val) 0x10C) ∧ (linCommander s n.val = false)) ∧
    (∃ (s : State) (who : Who) (n : Fin 6),
      (Canon s) ∧ (MayWrite s who (linPage n.val) 0x10C) ∧ (linState s n.val = 2)) :=
  ⟨⟨put (linS 0 1) 0x19 (R.LIN.FID.DIR 63) 1, 5, 63, 6, [], 0, canon_of (by decide +kernel), by decide +kernel⟩,
   ⟨put (linS 0 1) 0x19 (R.LIN.FID.DIR 63) 1, 5, 63, [], 0, canon_of (by decide +kernel), by decide +kernel⟩,
   ⟨put (linS 0 1) 0x19 (R.LIN.FID.DIR 63) 2, 5, 63, [1, 2, 3, 4, 5, 6, 7, 8], 0, canon_of (by decide +kernel), by decide +kernel⟩,
   ⟨put (linS 0 1) 0x19 (R.LIN.FID.DIR 63) 2, 5, 63, [1, 2, 3, 4, 5, 6, 7, 8], linCheck (cfg (put (linS 0 1) 0x19 (R.LIN.FID.DIR 63) 2) 0x19) 63 [1, 2, 3, 4, 5, 6, 7, 8], canon_of (by decide +kernel), by decide +kernel⟩,
   ⟨linS 0 1, 5, linCheck (linCfg (linS 0 1) 5) 0x3C linSleepData, canon_of (by decide +kernel), by decide +kernel⟩,
   ⟨put (giv (linS 1 1) 0x19) 0x19 (R.LIN.SCH.EN 0) 1, .ec3, 5, canon_of (by decide +kernel), mayWrite_of (by decide +kernel), by decide +kernel⟩,
   ⟨giv (linS 0 1) 0x19, .ec3, 5, canon_of (by decide +kernel), mayWrite_of (by decide +kernel), by decide +kernel⟩,
   ⟨giv (linS 1 2) 0x19, .ec3, 5, canon_of (by decide +kernel), mayWrite_of (by decide +kernel), by decide +kernel⟩⟩

theorem test_hypotheses_LinCommands_2 :
    (∃ (s : State) (who : Who) (n : Fin 6),
      (Canon s) ∧ (MayWrite s who (linPage n.val) 0x10C) ∧ (linOn s n.val = true) ∧ (linCommander s n.val = true)) ∧
    (∃ (s : State) (who : Who) (n : Fin 6),
      (Canon s) ∧ (MayWrite s who (linPage n.val) 0x10C) ∧ (linOn s n.val = true) ∧ (linState s n.val = 3)) ∧
    (∃ (s : State) (who : Who) (n : Fin 6),
      (Canon s) ∧ (MayWrite s who (linPage n.val) 0x10C) ∧ (linOn s n.val = true) ∧ (linState s n.val ≠ 3)) ∧
    (∃ (s : State) (n : Fin 6),
      (Canon s) ∧ (busRuns s = true) ∧ (linState s n.val = 2) ∧ (linGet s n.val = LinSt.init) ∧ (linOn s n.val = true)) ∧
    (∃ (s : State) (n : Fin 6),
      (Canon s) ∧ (busRuns s = true) ∧ (linState s n.val = 2) ∧ ((linGet s n.val).halt = true) ∧ ((linGet s n.val).sleep = 0) ∧ (linOn s n.val = true)) ∧
    (∃ (s : State) (n : Fin 6),
      (Canon s) ∧ (busRuns s = true) ∧ (linOn s n.val = true) ∧ (linCommander s n.val = false) ∧ (linState s n.val = 1)) ∧
    (∃ (s : State) (n : Fin 6),
      (Canon s) ∧ (s.mode = .run) ∧ (linOn s n.val = true) ∧ (linState s n.val = 3)) ∧
    (∃ (s : State) (n : Fin 6),
      (Canon s) ∧ (running s = true)) :=
  ⟨⟨giv (linS 1 2) 0x19, .ec3, 5, canon_of (by decide +kernel), mayWrite_of (by decide +kernel), by decide +kernel⟩,
   ⟨giv (linS 1 3) 0x19, .ec3, 5, canon_of (by decide +kernel), mayWrite_of (by decide +kernel), by decide +kernel⟩,
   ⟨giv (linS 1 1) 0x19, .ec3, 5, canon_of (by decide +kernel), mayWrite_of (by decide +kernel), by decide +kernel⟩,
   ⟨put (setF (linS 1 2) 0x19 R.LIN.STAT.SLOT 62) 0x19 (R.LIN.SCH.EN 63) 1, 5, canon_of (by decide +kernel), by decide +kernel⟩,
   ⟨linSet (linS 1 2) 5 { LinSt.init with halt := true }, 5, canon_of (by decide +kernel), by decide +kernel⟩,
   ⟨linS 0 1, 5, canon_of (by decide +kernel), by decide +kernel⟩,
   ⟨linS 0 3, 5, canon_of (by decide +kernel), by decide +kernel⟩,
   ⟨rS, 5, canon_of (by decide +kernel), by decide +kernel⟩⟩

theorem test_hypotheses_LinCommands_3 :
    (∃ (s : State) (who : Who) (n : Fin 6),
      (Canon s) ∧ (MayRead s who (linPage n.val))) :=
  ⟨setF (giv rS 0x19) 0x19 R.LIN.LERR.ID 63, .ec3, 5, canon_of (by decide +kernel), mayRead_of (by decide +kernel)⟩

theorem test_hypotheses_NetworkManagement_1 :
    (∃ (s : State) (src : Byte) (data : List Byte),
      (Canon s) ∧ (busRuns s = true) ∧ (nmgOn s = true) ∧ (nmgState s = 2) ∧ (src.toNat ≠ nmgNode s) ∧ ((data.getD 1 0).getLsbD 5 = false) ∧ ((data.getD 1 0).getLsbD 0 = true) ∧ ((data.getD 0 0).toNat = nmgNode s) ∧ (nmgReady s = false)) ∧
    (∃ (s : State) (src : Byte) (data : List Byte),
      (Canon s) ∧ (busRuns s = true) ∧ (nmgOn s = false)) ∧
    (∃ (s : State),
      (Canon s) ∧ (busRuns s = true) ∧ (nmgState s = 2) ∧ (s.nmg.holds = true) ∧ (nmgMedium s < 4)) ∧
    (∃ (s : State),
      (Canon s) ∧ (busRuns s = true) ∧ (nmgState s = 2) ∧ (s.nmg.await = true) ∧ (getF s 0x0C R.NMG.STAT.SUCC ≠ nmgNode s) ∧ (nmgMedium s < 4)) ∧
    (∃ (s : State),
      (Canon s) ∧ (busRuns s = true) ∧ ((nmgState s = 1 ∨ nmgState s = 2)) ∧ (nmgMedium s < 4)) ∧
    (∃ (s : State) (n : Fin 4) (d : List Byte) (rest : List (Nat × List Byte)),
      (Canon s) ∧ (busRuns s = true) ∧ (canNm s n.val = true) ∧ (nmgState s ≠ 3) ∧ ((canGet s n.val).cur = some 31) ∧ (s.nmg.tx = (0, d) :: rest) ∧ (canStateOf s n.val = 1) ∧ (getF s (canPage n.val) R.CAN.ECNT.TEC < 128) ∧ (getF s (canPage n.val) R.CAN.ECNT.REC < 128)) ∧
    (∃ (s : State) (n : Fin 4) (d : List Byte) (rest : List (Nat × List Byte)),
      (Canon s) ∧ (busRuns s = true) ∧ (canNm s n.val = true) ∧ (nmgState s = 3) ∧ (nmgReady s = true) ∧ ((canGet s n.val).cur = some 31) ∧ (s.nmg.tx = (4, d) :: rest)) ∧
    (∃ (s : State),
      (Canon s) ∧ (busRuns s = true) ∧ (nmgState s = 1) ∧ (nmgPres s % 2 ^ nmgNode s = 0) ∧ (nmgMedium s < 4)) :=
  ⟨⟨nmS 2, 255, [9, 1, 3], canon_of (by decide +kernel), by decide +kernel⟩,
   ⟨rS, 0, [], canon_of (by decide +kernel), by decide +kernel⟩,
   ⟨{ nmS 2 with nmg := { NmgSt.init with holds := true } }, canon_of (by decide +kernel), by decide +kernel⟩,
   ⟨{ nmS 2 with nmg := { NmgSt.init with await := true } }, canon_of (by decide +kernel), by decide +kernel⟩,
   ⟨nmS 2, canon_of (by decide +kernel), by decide +kernel⟩,
   ⟨setF (canSet { nmS 1 with nmg := { NmgSt.init with tx := [(0, [9])] } } 3 { CanSt.init with cur := some 31 }) 0x13 R.CAN.STAT.STATE 1, 3, [9], [], canon_of (by decide +kernel), by decide +kernel⟩,
   ⟨setFlag (setF (canSet { nmS 3 with nmg := { NmgSt.init with tx := [(4, [9])] } } 3 { CanSt.init with cur := some 31 }) 0x13 R.CAN.STAT.STATE 1) 0x0C R.NMG.STAT.READY true, 3, [9], [], canon_of (by decide +kernel), by decide +kernel⟩,
   ⟨nmS 1, canon_of (by decide +kernel), by decide +kernel⟩⟩

theorem test_hypotheses_NetworkManagement_2 :
    (∃ (s : State),
      (Canon s) ∧ (busRuns s = true) ∧ (nmgState s = 4) ∧ (nmgOn s = true) ∧ (nodeReady s = false) ∧ (nmgMedium s < 4)) ∧
    (∃ (s : State),
      (Canon s) ∧ (busRuns s = true) ∧ (nmgState s = 4) ∧ (nodeReady s = true)) ∧
    (∃ (s : State),
      (Canon s) ∧ (busRuns s = true) ∧ ((nmgOn s = false ∨ nmgState s = 2))) ∧
    (∃ (s : State),
      (Canon s) ∧ (busRuns s = true) ∧ (nmgState s = 3) ∧ (nmgMedium s < 4) ∧ ((∀ m ∈ s.nmg.tx, m.1 ≠ 3 ∧ m.1 ≠ 4))) :=
  ⟨⟨setFlag (nmS 4) 0x0C R.NMG.CMD.AWAKE true, canon_of (by decide +kernel), by decide +kernel⟩,
   ⟨nmS 4, canon_of (by decide +kernel), by decide +kernel⟩,
   ⟨nmS 2, canon_of (by decide +kernel), by decide +kernel⟩,
   ⟨nmS 3, canon_of (by decide +kernel), by decide +kernel⟩⟩

theorem test_hypotheses_Immobiliser_1 :
    (∃ (s : State) (who : Who) (a : Fin 4) (n : Nat) (as : List Nat),
      (Canon s) ∧ (MayWrite s who 0x1A 0x100) ∧ ((s.mode = .hold ∨ s.mode = .run)) ∧ (isSet s 0x1A R.IMM.STAT.BUSY = false) ∧ (isSet s 0x1A R.IMM.STAT.ALOCK = false) ∧ (blockOff s 0x1A = false) ∧ ((List.range 4).filter (fun a => (cfg s 0x1A R.IMM.CFG.ANT).testBit a) = n :: as) ∧ (blockOff s 0x1B = false) ∧ (cfgOn s 0x1B (R.LFA.ANT.EN n) = true) ∧ (s.imm.lfaT = 0) ∧ (s.imm.lfaD = 0) ∧ (getF s 0x1B H.PFORCE &&& 0x1F = 0) ∧ (cfgOn s 0x1A R.IMM.REL.EN = false)) ∧
    (∃ (s : State) (who : Who),
      (Canon s) ∧ (MayWrite s who 0x1A 0x100) ∧ (isSet s 0x1A R.IMM.STAT.BUSY = true)) ∧
    (∃ (s : State) (who : Who),
      (Canon s) ∧ (MayWrite s who 0x1A 0x100) ∧ (isSet s 0x1A R.IMM.STAT.BUSY = false) ∧ (cfgOn s 0x1A R.IMM.REL.EN = false)) ∧
    (∃ (s : State) (r : LfReply) (id : Word) (k : Nat),
      (Canon s) ∧ (s.imm.phase = 1) ∧ (lfCarrier s (s.imm.ants.headD 0) r = none) ∧ (immInWindow s r.start.toNat = true) ∧ (r.coll = false) ∧ (r.crc = pec (lfIdBytes id.toNat)) ∧ (running s = true) ∧ (s.vlt.cmd = none) ∧ (immSlotOf s (immCfg s R.IMM.SLEN.EN) id.toNat = some k) ∧ (tamperState s = false) ∧ (isSet s 0x06 R.VLT.STAT.RNGOK = true) ∧ (keyUsable s (12 + k) = true)) :=
  ⟨⟨put (put (giv rS 0x1A) 0x1A R.IMM.CFG.ANT 8) 0x1B (R.LFA.ANT.EN 3) 1, .ec3, 0, 3, [], canon_of (by decide +kernel), mayWrite_of (by decide +kernel), by decide +kernel⟩,
   ⟨giv (imB 1) 0x1A, .ec3, canon_of (by decide +kernel), mayWrite_of (by decide +kernel), by decide +kernel⟩,
   ⟨setFlag (giv rS 0x1A) 0x1A R.IMM.STAT.AUTH true, .ec3, canon_of (by decide +kernel), mayWrite_of (by decide +kernel), by decide +kernel⟩,
   ⟨{ imB 1 with imm := { (imB 1).imm with cfg := (imB 1).applied } }, lfR { imB 1 with imm := { (imB 1).imm with cfg := (imB 1).applied } } (lfIdBytes 77), 77, 5, canon_of (by decide +kernel), by decide +kernel⟩⟩

theorem test_hypotheses_Immobiliser_2 :
    (∃ (s : State) (r : LfReply) (c1 : BitVec 128),
      (Canon s) ∧ (s.imm.phase = 2) ∧ (lfCarrier s (s.imm.ants.headD 0) r = none) ∧ (immInWindow s r.start.toNat = true) ∧ (r.coll = false) ∧ (r.crc = pec ((natToBytes 16 c1.toNat).reverse)) ∧ (running s = true) ∧ (s.vlt.cmd = none) ∧ (tamperState s = false) ∧ (keyUsable s (12 + s.imm.slot) = true) ∧ ((fit 16 (Config.aesDec (fit 16 (keyValue s (12 + s.imm.slot))) ((natToBytes 16 c1.toNat).reverse))).take 8 = s.imm.rb)) ∧
    (∃ (s : State) (r : LfReply) (b : Byte),
      (Canon s) ∧ (s.imm.phase = 3) ∧ (lfCarrier s (s.imm.ants.headD 0) r = none) ∧ (immInWindow s r.start.toNat = true) ∧ (r.coll = false) ∧ (r.crc = pec ([b])) ∧ (running s = true) ∧ (immCfg s R.IMM.READ.NBLK = 0)) ∧
    (∃ (s : State) (r : LfReply) (w : Word),
      (Canon s) ∧ (s.imm.phase = 4) ∧ (lfCarrier s (s.imm.ants.headD 0) r = none) ∧ (immInWindow s r.start.toNat = true) ∧ (r.coll = false) ∧ (r.crc = pec (lfIdBytes w.toNat)) ∧ (running s = true) ∧ (s.imm.blk < 8) ∧ (immCfg s R.IMM.READ.NBLK ≤ s.imm.blk + 1)) ∧
    (∃ (s : State) (r : LfReply) (id : Word),
      (Canon s) ∧ (running s = true) ∧ (s.imm.phase = 1) ∧ (lfCarrier s (s.imm.ants.headD 0) r = none) ∧ (immInWindow s r.start.toNat = false) ∧ (s.imm.addressed = false) ∧ (s.imm.ants.length = 1)) :=
  ⟨⟨imC, lfR imC ((natToBytes 16 0).reverse), 0, canon_of (by decide +kernel), by decide +kernel, by decide +kernel, by decide +kernel, of_decide_eq_true (by decide +kernel), by decide +kernel, by decide +kernel, by decide +kernel, of_decide_eq_true (by decide +kernel), by decide +kernel, imC_reply⟩,
   ⟨imB 3, lfR (imB 3) [6], 6, canon_of (by decide +kernel), by decide +kernel⟩,
   ⟨{ imB 4 with imm := { (imB 4).imm with blk := 7 } }, lfR (imB 4) (lfIdBytes 0xFFFFFFFF), 0xFFFFFFFF, canon_of (by decide +kernel), by decide +kernel⟩,
   ⟨imB 1, { lfR (imB 1) [] with start := 99 }, 0, canon_of (by decide +kernel), by decide +kernel⟩⟩

theorem test_hypotheses_Immobiliser_3 :
    (∃ (s : State) (r : LfReply) (id : Word),
      (Canon s) ∧ (running s = true) ∧ (s.imm.phase = 1) ∧ (lfCarrier s (s.imm.ants.headD 0) r = some .noLock) ∧ (s.imm.ants.length = 1)) ∧
    (∃ (s : State),
      (Canon s) ∧ (running s = true) ∧ (s.imm.phase = 1) ∧ (s.imm.addressed = false) ∧ (s.imm.ants.length = 1)) ∧
    (∃ (s : State) (c : Byte),
      (Canon s) ∧ (running s = true) ∧ (s.imm.phase = 1) ∧ (s.imm.addressed = false) ∧ (s.imm.ants.length = 1)) ∧
    (∃ (s : State),
      (Canon s) ∧ (running s = true) ∧ (isSet s 0x1A R.IMM.STAT.ALOCK = true)) :=
  ⟨⟨imB 1, { lfR (imB 1) [] with freq := 13126 }, 0, canon_of (by decide +kernel), by decide +kernel⟩,
   ⟨imB 1, canon_of (by decide +kernel), by decide +kernel⟩,
   ⟨imB 1, 255, canon_of (by decide +kernel), by decide +kernel⟩,
   ⟨setFlag (setF rS 0x1A R.IMM.STAT.FAILS 9) 0x1A R.IMM.STAT.ALOCK true, canon_of (by decide +kernel), by decide +kernel⟩⟩

theorem test_hypotheses_Immobiliser_4 :
    (∃ (s : State),
      (Canon s) ∧ (s.mode = .run) ∧ (isSet s 0x1A R.IMM.STAT.AUTH = true) ∧ (cfgOn s 0x1A R.IMM.REL.EN = true) ∧ (s.vlt.cmd = none) ∧ (s.imm.rel = []) ∧ (s.vlt.relFresh = true) ∧ (s.vlt.relCnt ≠ s.vlt.relMark) ∧ (configured s (canPage (cfg s 0x1A R.IMM.REL.CAN)) = true) ∧ (enabled s (canPage (cfg s 0x1A R.IMM.REL.CAN)) = true) ∧ (canStateOf s (cfg s 0x1A R.IMM.REL.CAN) ≠ 3) ∧ (cfgOn s (canPage (cfg s 0x1A R.IMM.REL.CAN)) R.CAN.MODE.FD = true) ∧ (keyUsable s 11 = true)) ∧
    (∃ (s : State) (m : List Byte),
      (Canon s) ∧ (s.mode = .run) ∧ (isSet s 0x1A R.IMM.STAT.AUTH = true) ∧ (cfgOn s 0x1A R.IMM.REL.EN = true) ∧ (s.vlt.cmd = none) ∧ (s.imm.rel = [m]) ∧ (relOnBus s = false) ∧ (s.vlt.relFresh = true) ∧ (s.vlt.relCnt ≠ s.vlt.relMark) ∧ (configured s (canPage (cfg s 0x1A R.IMM.REL.CAN)) = true) ∧ (enabled s (canPage (cfg s 0x1A R.IMM.REL.CAN)) = true) ∧ (canStateOf s (cfg s 0x1A R.IMM.REL.CAN) ≠ 3) ∧ (cfgOn s (canPage (cfg s 0x1A R.IMM.REL.CAN)) R.CAN.MODE.FD = true) ∧ (keyUsable s 11 = true)) ∧
    (∃ (s : State) (m : List Byte),
      (Canon s) ∧ (s.mode = .run) ∧ (isSet s 0x1A R.IMM.STAT.AUTH = true) ∧ (cfgOn s 0x1A R.IMM.REL.EN = true) ∧ (s.vlt.cmd = none) ∧ (s.imm.rel = [m]) ∧ (relOnBus s = true) ∧ (s.vlt.relFresh = true) ∧ (s.vlt.relCnt ≠ s.vlt.relMark) ∧ (configured s (canPage (cfg s 0x1A R.IMM.REL.CAN)) = true) ∧ (enabled s (canPage (cfg s 0x1A R.IMM.REL.CAN)) = true) ∧ (canStateOf s (cfg s 0x1A R.IMM.REL.CAN) ≠ 3) ∧ (cfgOn s (canPage (cfg s 0x1A R.IMM.REL.CAN)) R.CAN.MODE.FD = true) ∧ (keyUsable s 11 = true)) ∧
    (∃ (s : State),
      (Canon s) ∧ (s.mode = .run) ∧ (isSet s 0x1A R.IMM.STAT.AUTH = true) ∧ (cfgOn s 0x1A R.IMM.REL.EN = true) ∧ (s.vlt.cmd = none) ∧ (s.imm.rel = []) ∧ ((configured s (canPage (cfg s 0x1A R.IMM.REL.CAN)) = false ∨ enabled s (canPage (cfg s 0x1A R.IMM.REL.CAN)) = false ∨
      canStateOf s (cfg s 0x1A R.IMM.REL.CAN) = 3 ∨ cfgOn s (canPage (cfg s 0x1A R.IMM.REL.CAN)) R.CAN.MODE.FD = false ∨ keyUsable s 11 = false))) :=
  ⟨⟨relS, canon_of (by decide +kernel), by decide +kernel⟩,
   ⟨{ relS with imm := { relS.imm with rel := [[1]] } }, [1], canon_of (by decide +kernel), by decide +kernel⟩,
   ⟨canSet { relS with imm := { relS.imm with rel := [[1]] } } 0 { CanSt.init with cur := some 30 }, [1], canon_of (by decide +kernel), by decide +kernel⟩,
   ⟨put (setFlag rS 0x1A R.IMM.STAT.AUTH true) 0x1A R.IMM.REL.EN 1, canon_of (by decide +kernel), by decide +kernel⟩⟩

theorem test_hypotheses_Immobiliser_5 :
    (∃ (s : State) (a : Fin 4),
      (Canon s) ∧ (running s = true) ∧ (s.imm.phase = 0)) ∧
    (∃ (s : State) (a : Fin 4),
      (Canon s) ∧ (running s = true) ∧ (s.imm.phase = 0) ∧ (s.flt.level = [])) :=
  ⟨⟨rS, 3, canon_of (by decide +kernel), by decide +kernel⟩,
   ⟨rS, 3, canon_of (by decide +kernel), by decide +kernel⟩⟩

theorem test_hypotheses_VaultCommands_1 :
    (∃ (s : State) (who : Who) (slot : Byte),
      (Canon s) ∧ (MayCommand s who) ∧ (isSet s 0x06 R.VLT.STAT.BUSY = false) ∧ (s.park = .none)) ∧
    (∃ (s : State) (who : Who) (slot : Byte),
      (Canon s) ∧ (MayCommand s who) ∧ (isSet s 0x06 R.VLT.STAT.BUSY = false) ∧ (s.park = .none)) ∧
    (∃ (s : State) (who : Who) (slot : Byte),
      (Canon s) ∧ (MayCommand s who) ∧ (isSet s 0x06 R.VLT.STAT.BUSY = false) ∧ (s.park = .none)) ∧
    (∃ (s : State) (who : Who) (slot : Byte),
      (Canon s) ∧ (MayCommand s who) ∧ (isSet s 0x06 R.VLT.STAT.BUSY = false) ∧ (s.park = .none)) ∧
    (∃ (s : State) (who : Who) (slot : Byte),
      (Canon s) ∧ (MayCommand s who) ∧ (isSet s 0x06 R.VLT.STAT.BUSY = false) ∧ (s.park = .none)) ∧
    (∃ (s : State) (who : Who) (slot : Byte),
      (Canon s) ∧ (MayCommand s who) ∧ (isSet s 0x06 R.VLT.STAT.BUSY = false) ∧ (s.park = .none)) ∧
    (∃ (s : State) (who : Who) (slot : Byte),
      (Canon s) ∧ (MayCommand s who) ∧ (isSet s 0x06 R.VLT.STAT.BUSY = false) ∧ (s.park = .none)) ∧
    (∃ (s : State) (who : Who) (slot : Byte),
      (Canon s) ∧ (MayCommand s who) ∧ (isSet s 0x06 R.VLT.STAT.BUSY = false) ∧ (s.park = .none)) :=
  ⟨⟨rS, .ec3, 127, canon_of (by decide +kernel), mayCommand_of (by decide +kernel), by decide +kernel⟩,
   ⟨rS, .ec3, 127, canon_of (by decide +kernel), mayCommand_of (by decide +kernel), by decide +kernel⟩,
   ⟨rS, .ec3, 127, canon_of (by decide +kernel), mayCommand_of (by decide +kernel), by decide +kernel⟩,
   ⟨rS, .ec3, 127, canon_of (by decide +kernel), mayCommand_of (by decide +kernel), by decide +kernel⟩,
   ⟨rS, .ec3, 127, canon_of (by decide +kernel), mayCommand_of (by decide +kernel), by decide +kernel⟩,
   ⟨rS, .ec3, 127, canon_of (by decide +kernel), mayCommand_of (by decide +kernel), by decide +kernel⟩,
   ⟨rS, .ec3, 127, canon_of (by decide +kernel), mayCommand_of (by decide +kernel), by decide +kernel⟩,
   ⟨rS, .ec3, 127, canon_of (by decide +kernel), mayCommand_of (by decide +kernel), by decide +kernel⟩⟩

theorem test_hypotheses_VaultCommands_2 :
    (∃ (s : State) (who : Who) (slot : Byte),
      (Canon s) ∧ (MayCommand s who) ∧ (isSet s 0x06 R.VLT.STAT.BUSY = false) ∧ (s.park = .none)) ∧
    (∃ (s : State) (who : Who) (slot : Byte),
      (Canon s) ∧ (MayCommand s who) ∧ (isSet s 0x06 R.VLT.STAT.BUSY = false) ∧ (s.park = .none)) ∧
    (∃ (s : State) (who : Who) (slot : Byte),
      (Canon s) ∧ (MayCommand s who) ∧ (isSet s 0x06 R.VLT.STAT.BUSY = false) ∧ (s.park = .none)) ∧
    (∃ (s : State) (who : Who) (slot : Byte),
      (Canon s) ∧ (MayCommand s who) ∧ (isSet s 0x06 R.VLT.STAT.BUSY = false) ∧ (s.park = .none)) ∧
    (∃ (s : State) (who : Who) (slot : Byte),
      (Canon s) ∧ (MayCommand s who) ∧ (isSet s 0x06 R.VLT.STAT.BUSY = false) ∧ (s.park = .none)) ∧
    (∃ (s : State) (who : Who) (slot : Byte),
      (Canon s) ∧ (MayCommand s who) ∧ (isSet s 0x06 R.VLT.STAT.BUSY = false) ∧ (s.park = .none)) ∧
    (∃ (s : State) (who : Who) (slot : Byte),
      (Canon s) ∧ (MayCommand s who) ∧ (isSet s 0x06 R.VLT.STAT.BUSY = false) ∧ (s.park = .none)) ∧
    (∃ (s : State) (who : Who) (slot : Byte),
      (Canon s) ∧ (MayCommand s who) ∧ (isSet s 0x06 R.VLT.STAT.BUSY = true)) :=
  ⟨⟨rS, .ec3, 127, canon_of (by decide +kernel), mayCommand_of (by decide +kernel), by decide +kernel⟩,
   ⟨rS, .ec3, 127, canon_of (by decide +kernel), mayCommand_of (by decide +kernel), by decide +kernel⟩,
   ⟨rS, .ec3, 127, canon_of (by decide +kernel), mayCommand_of (by decide +kernel), by decide +kernel⟩,
   ⟨rS, .ec3, 127, canon_of (by decide +kernel), mayCommand_of (by decide +kernel), by decide +kernel⟩,
   ⟨rS, .ec3, 127, canon_of (by decide +kernel), mayCommand_of (by decide +kernel), by decide +kernel⟩,
   ⟨rS, .ec3, 127, canon_of (by decide +kernel), mayCommand_of (by decide +kernel), by decide +kernel⟩,
   ⟨rS, .ec3, 127, canon_of (by decide +kernel), mayCommand_of (by decide +kernel), by decide +kernel⟩,
   ⟨vcS ⟨1, 2, 0⟩ 1 0, .ec3, 0, canon_of (by decide +kernel), mayCommand_of (by decide +kernel), by decide +kernel⟩⟩

theorem test_hypotheses_VaultCommands_3 :
    (∃ (s : State) (who : Who) (slot : Byte),
      (Canon s) ∧ (MayCommand s who) ∧ (isSet s 0x06 R.VLT.STAT.BUSY = false) ∧ (s.park ≠ .none)) :=
  ⟨{ rS with park := .quiesce }, .ec3, 0, canon_of (by decide +kernel), mayCommand_of (by decide +kernel), by decide +kernel⟩

theorem test_hypotheses_VaultEvents_1 :
    (∃ (s : State) (c : VltCmd),
      (Canon s) ∧ (running s = true) ∧ (s.vlt.cmd = some c) ∧ (tamperState s = false) ∧ (s.vlt.zeroised = false) ∧ ((rightsOf s c.kind 6).testBit 1 = true) ∧ (c.slot < 128) ∧ (c.op = 2) ∧ ((c.kind = 1 ∨ c.kind = 2 ∨ c.kind = 4)) ∧ (1 ≤ vltLen s) ∧ (vltLen s ≤ 512) ∧ (isSet s 0x06 R.VLT.STAT.RNGOK = true)) ∧
    (∃ (s : State) (c : VltCmd),
      (Canon s) ∧ (running s = true) ∧ (s.vlt.cmd = some c) ∧ (tamperState s = false) ∧ (s.vlt.zeroised = false) ∧ ((rightsOf s c.kind 6).testBit 1 = true) ∧ (c.slot < 128) ∧ (c.op = 2) ∧ ((c.kind = 1 ∨ c.kind = 2 ∨ c.kind = 4)) ∧ (1 ≤ vltLen s) ∧ (vltLen s ≤ 512) ∧ (isSet s 0x06 R.VLT.STAT.RNGOK = false)) ∧
    (∃ (s : State) (c : VltCmd),
      (Canon s) ∧ (running s = true) ∧ (s.vlt.cmd = some c) ∧ (tamperState s = false) ∧ (s.vlt.zeroised = false) ∧ ((rightsOf s c.kind 6).testBit 1 = true) ∧ (c.slot < 128) ∧ (s.imm.phase = 0) ∧ ((c.op = 0x21 ∧ (c.kind = 1 ∨ c.kind = 3) ∨ c.op = 0x30 ∧ (c.kind = 1 ∨ c.kind = 4))) ∧ (vltLen s ≤ 512) ∧ (lcs s ≠ 2) ∧ (lcs s ≠ 3)) ∧
    (∃ (s : State) (c : VltCmd),
      (Canon s) ∧ (running s = true) ∧ (s.vlt.cmd = some c) ∧ (tamperState s = false) ∧ (s.vlt.zeroised = false) ∧ ((rightsOf s c.kind 6).testBit 1 = true) ∧ (c.slot < 128) ∧ (s.imm.phase = 0) ∧ (c.op = 0x22) ∧ ((c.kind = 1 ∨ c.kind = 3)) ∧ (vltLen s ≤ 512) ∧ (20 ≤ c.slot) ∧ (c.slot < 112) ∧ ((keyGet s c.slot).held = true) ∧ ((keyGet s c.slot).users.testBit (c.kind - 1) = true)) ∧
    (∃ (s : State) (c : VltCmd),
      (Canon s) ∧ (running s = true) ∧ (s.vlt.cmd = some c) ∧ (tamperState s = false) ∧ (s.vlt.zeroised = false) ∧ ((rightsOf s c.kind 6).testBit 1 = true) ∧ (c.slot < 128) ∧ (s.imm.phase = 0) ∧ (c.op = 0x23) ∧ ((c.kind = 1 ∨ c.kind = 3)) ∧ (vltLen s ≤ 512) ∧ (20 ≤ c.slot) ∧ (c.slot < 112) ∧ ((keyGet s c.slot).held = true) ∧ ((keyGet s c.slot).users.testBit (c.kind - 1) = true) ∧ ((keyGet s c.slot).usage.testBit 4 = true) ∧ (keyUsable s c.slot = true) ∧ ((keyGet s c.slot).gen < 0xFFFF)) ∧
    (∃ (s : State) (c : VltCmd),
      (Canon s) ∧ (running s = true) ∧ (s.vlt.cmd = some c) ∧ (tamperState s = false) ∧ (s.vlt.zeroised = false) ∧ ((rightsOf s c.kind 6).testBit 1 = true) ∧ (c.slot < 128) ∧ (c.op = 0x50) ∧ (vltLen s ≤ 512) ∧ ((if vltArg s % 4 < 2 then c.kind = 3 else c.kind = 1)) ∧ (rollGet s (vltArg s % 4) ≤ vltArg s / 256 % 128) ∧ (vltArg s / 256 % 128 ≤ 64)) ∧
    (∃ (s : State) (c : VltCmd),
      (Canon s) ∧ (running s = true) ∧ (s.vlt.cmd = some c) ∧ (s.imm.phase = 0) ∧ (tamperState s = true)) ∧
    (∃ (s : State) (c : VltCmd),
      (Canon s) ∧ (running s = true) ∧ (s.vlt.cmd = some c) ∧ (s.imm.phase = 0) ∧ (tamperState s = false) ∧ (s.vlt.zeroised = false) ∧ (vltIssuer c.op c.kind = false)) :=
  ⟨⟨vcS ⟨1, 2, 0⟩ 1 0, ⟨1, 2, 0⟩, canon_of (by decide +kernel), by decide +kernel⟩,
   ⟨setFlag (vcS ⟨1, 2, 0⟩ 1 0) 0x06 R.VLT.STAT.RNGOK false, ⟨1, 2, 0⟩, canon_of (by decide +kernel), by decide +kernel⟩,
   ⟨{ vcS ⟨3, 0x21, 20⟩ 0 0 with vlt := { (vcS ⟨3, 0x21, 20⟩ 0 0).vlt with otp := [] } }, ⟨3, 0x21, 20⟩, canon_of (by decide +kernel), by decide +kernel⟩,
   ⟨vcS ⟨3, 0x22, 20⟩ 0 0, ⟨3, 0x22, 20⟩, canon_of (by decide +kernel), by decide +kernel⟩,
   ⟨vcS ⟨3, 0x23, 20⟩ 0 0, ⟨3, 0x23, 20⟩, canon_of (by decide +kernel), by decide +kernel⟩,
   ⟨vcS ⟨1, 0x50, 0⟩ 0 (64 * 256 + 3), ⟨1, 0x50, 0⟩, canon_of (by decide +kernel), by decide +kernel⟩,
   ⟨{ vcS ⟨1, 2, 0⟩ 1 0 with vlt := { VltSt.init with cmd := some ⟨1, 2, 0⟩, latch := true } }, ⟨1, 2, 0⟩, canon_of (by decide +kernel), by decide +kernel⟩,
   ⟨vcS ⟨3, 2, 0⟩ 1 0, ⟨3, 2, 0⟩, canon_of (by decide +kernel), by decide +kernel⟩⟩

theorem test_hypotheses_VaultEvents_2 :
    (∃ (s : State),
      (Canon s) ∧ (running s = true) ∧ (s.vlt.cmd = none)) ∧
    (∃ (s : State) (who : Who),
      (Canon s) ∧ (MayCommand s who)) ∧
    (∃ (s : State),
      (Canon s) ∧ (running s = true)) ∧
    (∃ (s : State),
      (Canon s) ∧ (running s = true) ∧ (isSet s 0x06 R.VLT.STAT.RNGOK = true)) ∧
    (∃ (s : State),
      (Canon s) ∧ (running s = true) ∧ (isSet s 0x06 R.VLT.STAT.RNGOK = false)) ∧
    (∃ (s : State),
      (Canon s) ∧ (running s = true)) ∧
    (∃ (s : State) (src : Fin 6) (also : Byte) (sec : Word) (sub : BitVec 16),
      (Canon s) ∧ ((s.mode = .hold ∨ s.mode = .run ∨ s.mode = .limp)) ∧ (s.park = .none) ∧ (tamperArmed s src.val = true) ∧ (isSet s 0x1A R.IMM.STAT.AUTH = false) ∧ (isSet s 0x1A R.IMM.STAT.BUSY = false)) ∧
    (∃ (s : State) (src : Fin 6) (also : Byte) (sec : Word) (sub : BitVec 16),
      (Canon s) ∧ ((s.mode = .park ∨ s.mode = .watch ∨ s.mode = .listen)) ∧ (s.park = .none) ∧ (tamperArmed s src.val = true)) :=
  ⟨⟨rS, canon_of (by decide +kernel), by decide +kernel⟩,
   ⟨setF rS 0x06 R.VLT.STAT.OWNER 3, .ec3, canon_of (by decide +kernel), mayCommand_of (by decide +kernel)⟩,
   ⟨setF rS 0x06 R.VLT.STAT.OWNER 3, canon_of (by decide +kernel), by decide +kernel⟩,
   ⟨kramSet (kramSet (vcS ⟨1, 2, 0⟩ 1 0) 3 (some (5, 9))) 127 (some (1, 2)), canon_of (by decide +kernel), by decide +kernel⟩,
   ⟨kramSet rS 3 (some (5, 9)), canon_of (by decide +kernel), by decide +kernel⟩,
   ⟨setFlag rS 0x06 R.VLT.STAT.RNGOK true, canon_of (by decide +kernel), by decide +kernel⟩,
   ⟨vcS ⟨1, 2, 0⟩ 1 0, 3, 0, 0, 0, canon_of (by decide +kernel), by decide +kernel⟩,
   ⟨zS .park, 3, 0, 0, 0, canon_of (by decide +kernel), by decide +kernel⟩⟩

theorem test_hypotheses_UpdateCommands_1 :
    (∃ (s : State) (who : Who) (gen : Bool),
      (Canon s) ∧ (MayWrite s who 0x07 0x114) ∧ ((s.mode = .hold ∨ s.mode = .run ∨ s.mode = .limp)) ∧ (isSet s 0x07 R.UPD.SRES.BUSY = false) ∧ ((s.upd.state ≠ 1 ∨ getF s 0x07 R.UPD.STAT.STATE ≠ 1))) ∧
    (∃ (s : State) (who : Who) (gen : Bool),
      (Canon s) ∧ (MayWrite s who 0x07 0x114) ∧ ((s.mode = .hold ∨ s.mode = .run ∨ s.mode = .limp)) ∧ (isSet s 0x07 R.UPD.SRES.BUSY = false) ∧ (s.upd.state = 1) ∧ (getF s 0x07 R.UPD.STAT.STATE = 1)) ∧
    (∃ (s : State) (who : Who) (gen : Bool),
      (Canon s) ∧ (MayWrite s who 0x07 0x114) ∧ ((s.mode = .hold ∨ s.mode = .run ∨ s.mode = .limp)) ∧ (isSet s 0x07 R.UPD.SRES.BUSY = false) ∧ (blockOff s 0x07 = false)) ∧
    (∃ (s : State) (who : Who) (gen : Bool),
      (Canon s) ∧ (MayWrite s who 0x07 0x114) ∧ ((s.mode = .hold ∨ s.mode = .run ∨ s.mode = .limp)) ∧ (isSet s 0x07 R.UPD.SRES.BUSY = false) ∧ (blockOff s 0x07 = false)) ∧
    (∃ (s : State) (who : Who) (gen : Bool),
      (Canon s) ∧ (MayWrite s who 0x07 0x114) ∧ ((s.mode = .hold ∨ s.mode = .run ∨ s.mode = .limp)) ∧ (isSet s 0x07 R.UPD.SRES.BUSY = false) ∧ (blockOff s 0x07 = false)) ∧
    (∃ (s : State) (who : Who) (gen : Bool),
      (Canon s) ∧ (MayWrite s who 0x07 0x114) ∧ ((s.mode = .hold ∨ s.mode = .run ∨ s.mode = .limp)) ∧ (isSet s 0x07 R.UPD.SRES.BUSY = false) ∧ (blockOff s 0x07 = false)) ∧
    (∃ (s : State) (who : Who) (key : Byte),
      (Canon s) ∧ (MayWrite s who 0x07 0x114) ∧ (key ≠ 0xC3)) ∧
    (∃ (s : State) (who : Who) (key : Byte) (gen : Bool),
      (Canon s) ∧ (MayWrite s who 0x07 0x114) ∧ (key ≠ 0xC3)) :=
  ⟨⟨giv rS 0x07, .ec3, false, canon_of (by decide +kernel), mayWrite_of (by decide +kernel), by decide +kernel⟩,
   ⟨setF (giv { rS with upd := { UpdSt.init with state := 1 } } 0x07) 0x07 R.UPD.STAT.STATE 1, .ec3, false, canon_of (by decide +kernel), mayWrite_of (by decide +kernel), by decide +kernel⟩,
   ⟨giv rS 0x07, .ec3, false, canon_of (by decide +kernel), mayWrite_of (by decide +kernel), by decide +kernel⟩,
   ⟨giv rS 0x07, .ec3, false, canon_of (by decide +kernel), mayWrite_of (by decide +kernel), by decide +kernel⟩,
   ⟨giv rS 0x07, .ec3, false, canon_of (by decide +kernel), mayWrite_of (by decide +kernel), by decide +kernel⟩,
   ⟨giv rS 0x07, .ec3, false, canon_of (by decide +kernel), mayWrite_of (by decide +kernel), by decide +kernel⟩,
   ⟨giv rS 0x07, .ec3, 0xC2, canon_of (by decide +kernel), mayWrite_of (by decide +kernel), by decide +kernel⟩,
   ⟨giv rS 0x07, .ec3, 0xC2, false, canon_of (by decide +kernel), mayWrite_of (by decide +kernel), by decide +kernel⟩⟩

theorem test_hypotheses_UpdateCommands_2 :
    (∃ (s : State) (who : Who) (key : Byte) (gen : Bool),
      (Canon s) ∧ (MayWrite s who 0x07 0x114) ∧ (key ≠ 0xC3)) ∧
    (∃ (s : State) (who : Who) (key : Byte),
      (Canon s) ∧ (MayWrite s who 0x07 0x114) ∧ (key ≠ 0xC3)) ∧
    (∃ (s : State) (who : Who) (key : Byte),
      (Canon s) ∧ (MayWrite s who 0x07 0x114) ∧ (key ≠ 0xC3)) ∧
    (∃ (s : State),
      (Canon s) ∧ (running s = true) ∧ (isSet s 0x07 R.UPD.SRES.BUSY = true) ∧ (getF s 0x07 R.UPD.SRES.OP = 1) ∧ ((s.upd.asked = false ∨ s.upd.state ≠ 2))) ∧
    (∃ (s : State),
      (Canon s) ∧ (running s = true) ∧ (isSet s 0x07 R.UPD.SRES.BUSY = true) ∧ (getF s 0x07 R.UPD.SRES.OP = 1) ∧ (s.upd.asked = true) ∧ (s.upd.state = 2)) ∧
    (∃ (s : State),
      (Canon s) ∧ (running s = true) ∧ (isSet s 0x07 R.UPD.SRES.BUSY = true) ∧ (getF s 0x07 R.UPD.SRES.OP = 2) ∧ (setselCheck s s.upd.gen = 0x21)) ∧
    (∃ (s : State),
      (Canon s) ∧ (running s = true) ∧ (isSet s 0x07 R.UPD.SRES.BUSY = true) ∧ (getF s 0x07 R.UPD.SRES.OP = 2) ∧ (setselCheck s s.upd.gen = 1)) ∧
    (∃ (s : State),
      (Canon s) ∧ (running s = true) ∧ (isSet s 0x07 R.UPD.SRES.BUSY = true) ∧ (getF s 0x07 R.UPD.SRES.OP = 3) ∧ (setselCheck s s.upd.gen = 0x21)) :=
  ⟨⟨giv rS 0x07, .ec3, 0xC2, false, canon_of (by decide +kernel), mayWrite_of (by decide +kernel), by decide +kernel⟩,
   ⟨giv rS 0x07, .ec3, 0xC2, canon_of (by decide +kernel), mayWrite_of (by decide +kernel), by decide +kernel⟩,
   ⟨giv rS 0x07, .ec3, 0xC2, canon_of (by decide +kernel), mayWrite_of (by decide +kernel), by decide +kernel⟩,
   ⟨udS 1, canon_of (by decide +kernel), by decide +kernel⟩,
   ⟨{ udS 1 with upd := { UpdSt.init with state := 2, trial := 1, asked := true }, mem := memSetList [] (slotBase 1 + 0x0C) [3, 65] }, canon_of (by decide +kernel), by decide +kernel⟩,
   ⟨udS 2, canon_of (by decide +kernel), by decide +kernel⟩,
   ⟨genS (udS 2), canon_of (by decide +kernel), by decide +kernel⟩,
   ⟨udS 3, canon_of (by decide +kernel), by decide +kernel⟩⟩

theorem test_hypotheses_UpdateCommands_3 :
    (∃ (s : State),
      (Canon s) ∧ (running s = true) ∧ (isSet s 0x07 R.UPD.SRES.BUSY = true) ∧ (getF s 0x07 R.UPD.SRES.OP = 3) ∧ (setselCheck s s.upd.gen = 1)) ∧
    (∃ (s : State),
      (Canon s) ∧ (running s = true) ∧ (isSet s 0x07 R.UPD.SRES.BUSY = true) ∧ (getF s 0x07 R.UPD.SRES.OP = 4) ∧ (slipPending s = false)) ∧
    (∃ (s : State),
      (Canon s) ∧ (running s = true) ∧ (isSet s 0x07 R.UPD.SRES.BUSY = true) ∧ (getF s 0x07 R.UPD.SRES.OP = 5) ∧ (slipPending s = false)) ∧
    (∃ (s : State) (who : Who),
      (Canon s) ∧ (MayWrite s who 0x07 0x140) ∧ (jxrActive s = true) ∧ (jxrRole s = 1) ∧ (distBusy s = false) ∧ (blockOff s 0x07 = false) ∧ (s.jxr.enumPh = 0) ∧ (s.jxr.conflict = false) ∧ (s.jxr.queue = []) ∧ (0 < distFrames s) ∧ (cfgOn s 0x07 R.UPD.DDST.BC = true) ∧ (distSource s (distIndex s 0) = some true) ∧ ((distFetch s (distIndex s 0)).2 = true)) ∧
    (∃ (s : State) (who : Who),
      (Canon s) ∧ (MayWrite s who 0x07 0x140) ∧ (jxrRole s ≠ 1)) ∧
    (∃ (s : State) (who : Who),
      (Canon s) ∧ (MayWrite s who 0x07 0x140) ∧ (distBusy s = true) ∧ (s.upd.await = none) ∧ (s.jxr.enumPh = 0) ∧ (s.jxr.conflict = false) ∧ (s.jxr.queue = [])) ∧
    (∃ (s : State) (who : Who),
      (Canon s) ∧ (MayWrite s who 0x07 0x140) ∧ (distBusy s = true) ∧ (s.upd.await ≠ none)) ∧
    (∃ (s : State),
      (Canon s) ∧ (running s = true) ∧ (distBusy s = true) ∧ (distFrames s ≤ s.upd.next) ∧ (s.upd.await = none) ∧ (s.jxr.queue = [])) :=
  ⟨⟨genS (udS 3), canon_of (by decide +kernel), by decide +kernel⟩,
   ⟨udS 4, canon_of (by decide +kernel), by decide +kernel⟩,
   ⟨udS 5, canon_of (by decide +kernel), by decide +kernel⟩,
   ⟨put (put (giv mgS 0x07) 0x07 R.UPD.DLEN.LEN 4) 0x07 R.UPD.DDST.BC 1, .ec3, canon_of (by decide +kernel), mayWrite_of (by decide +kernel), by decide +kernel⟩,
   ⟨giv rS 0x07, .ec3, canon_of (by decide +kernel), mayWrite_of (by decide +kernel), by decide +kernel⟩,
   ⟨setFlag (giv mgS 0x07) 0x07 R.UPD.DSTAT.BUSY true, .ec3, canon_of (by decide +kernel), mayWrite_of (by decide +kernel), by decide +kernel⟩,
   ⟨setFlag (giv { mgS with upd := { UpdSt.init with await := some (jxrFrame mgS 3 8 0 false false []) } } 0x07) 0x07 R.UPD.DSTAT.BUSY true, .ec3, canon_of (by decide +kernel), mayWrite_of (by decide +kernel), by decide +kernel⟩,
   ⟨setFlag mgS 0x07 R.UPD.DSTAT.BUSY true, canon_of (by decide +kernel), by decide +kernel⟩⟩

theorem test_hypotheses_UpdateCommands_4 :
    (∃ (s : State),
      (Canon s) ∧ (s.mode = .run) ∧ (s.upd.state = 1)) ∧
    (∃ (s : State),
      (Canon s) ∧ (s.mode = .run) ∧ (s.upd.state = 1)) :=
  ⟨⟨setF { rS with upd := { UpdSt.init with state := 1 } } 0x07 R.UPD.TRUN.SEC 600, canon_of (by decide +kernel), by decide +kernel⟩,
   ⟨{ rS with upd := { UpdSt.init with state := 1 } }, canon_of (by decide +kernel), by decide +kernel⟩⟩

theorem test_hypotheses_FaultCommands_1 :
    (∃ (s : State) (id : BitVec 11),
      (Canon s) ∧ (running s = true) ∧ ((blkOf (id.toNat / 8)).isSome = true) ∧ ((pageCap (id.toNat / 8)).fsrc.testBit (id.toNat % 8) = true) ∧ (id.toNat % 8 ≠ 7) ∧ (id ≠ 32) ∧ (id ≠ 1288) ∧ (pageProt (id.toNat / 8) = none)) ∧
    (∃ (s : State) (id : BitVec 11),
      (Canon s) ∧ (running s = true) ∧ ((pageCap (id.toNat / 8)).fsrc.testBit (id.toNat % 8) = false)) ∧
    (∃ (s : State) (who : Who) (id : BitVec 11),
      (Canon s) ∧ (MayWrite s who 0x04 0x104) ∧ (id ≠ 0x7FF) ∧ (storeGet (fun _ => 15) s.flt.opened id.toNat ≠ 15) ∧ (asserted s id.toNat = false)) ∧
    (∃ (s : State) (who : Who) (id : BitVec 11),
      (Canon s) ∧ (MayWrite s who 0x04 0x104) ∧ (id ≠ 0x7FF) ∧ (storeGet (fun _ => 15) s.flt.opened id.toNat = 15)) ∧
    (∃ (s : State) (who : Who) (id : BitVec 11),
      (Canon s) ∧ (MayWrite s who 0x04 0x104) ∧ (id ≠ 0x7FF) ∧ (storeGet (fun _ => 15) s.flt.opened id.toNat ≠ 15) ∧ (asserted s id.toNat = true)) ∧
    (∃ (s : State) (who : Who) (id : BitVec 11) (key : Byte),
      (Canon s) ∧ (MayWrite s who 0x04 0x104) ∧ (key ≠ 0x3C)) ∧
    (∃ (s : State) (who : Who),
      (Canon s) ∧ (MayWrite s who 0x04 0x104) ∧ (s.flt.opened ≠ []) ∧ ((∀ e ∈ s.flt.opened, asserted s e.1 = false))) ∧
    (∃ (s : State) (key : Byte) (dt : BitVec 16),
      (Canon s) ∧ ((s.mode = .hold ∨ s.mode = .run)) ∧ (s.flt.kickOff = false) ∧ (s.flt.kicked = true) ∧ (key = (if s.flt.nextA5 then 0xA5 else 0x5A)) ∧ (cfg s 0x04 R.FLT.AWIN.TMIN ≤ dt.toNat) ∧ (dt.toNat ≤ cfg s 0x04 R.FLT.AWIN.TMAX)) :=
  ⟨⟨rS, 37, canon_of (by decide +kernel), by decide +kernel⟩,
   ⟨rS, 0, canon_of (by decide +kernel), by decide +kernel⟩,
   ⟨{ giv rS 0x04 with flt := { rS.flt with opened := [(256, 1)] } }, .ec3, 256, canon_of (by decide +kernel), mayWrite_of (by decide +kernel), by decide +kernel⟩,
   ⟨giv rS 0x04, .ec3, 0, canon_of (by decide +kernel), mayWrite_of (by decide +kernel), by decide +kernel⟩,
   ⟨{ giv rS 0x04 with flt := { rS.flt with opened := [(219, 1)], level := [219] } }, .ec3, 219, canon_of (by decide +kernel), mayWrite_of (by decide +kernel), by decide +kernel⟩,
   ⟨giv rS 0x04, .ec3, 0, 0, canon_of (by decide +kernel), mayWrite_of (by decide +kernel), by decide +kernel⟩,
   ⟨{ giv rS 0x04 with flt := { rS.flt with opened := [(256, 1), (1408, 3)] } }, .ec3, canon_of (by decide +kernel), mayWrite_of (by decide +kernel), by decide +kernel⟩,
   ⟨{ rS with flt := { rS.flt with kicked := true } }, 0x5A, BitVec.ofNat 16 (cfg { rS with flt := { rS.flt with kicked := true } } 0x04 R.FLT.AWIN.TMAX), canon_of (by decide +kernel), by decide +kernel⟩⟩

theorem test_hypotheses_FaultCommands_2 :
    (∃ (s : State) (key : Byte) (dt : BitVec 16),
      (Canon s) ∧ ((s.mode = .hold ∨ s.mode = .run)) ∧ (s.flt.kickOff = false) ∧ (key ≠ (if s.flt.nextA5 then 0xA5 else 0x5A))) ∧
    (∃ (s : State) (who : Who) (key : Byte) (dt : BitVec 16),
      (Canon s) ∧ (running s = true) ∧ (who ≠ .app) ∧ ((rightsOf s (whoKind who) 4).testBit 1 = true)) ∧
    (∃ (s : State),
      (Canon s) ∧ ((s.mode = .hold ∨ s.mode = .run)) ∧ (s.flt.kickOff = false)) ∧
    (∃ (s : State),
      (Canon s) ∧ (s.mode = .run)) ∧
    (∃ (s : State) (who : Who),
      (Canon s) ∧ (MayRead s who 0x04)) :=
  ⟨⟨rS, 0xA5, 0, canon_of (by decide +kernel), by decide +kernel⟩,
   ⟨giv rS 0x04, .ec3, 0, 0, canon_of (by decide +kernel), by decide +kernel⟩,
   ⟨rS, canon_of (by decide +kernel), by decide +kernel⟩,
   ⟨setF rS 0x04 R.FLT.RCNT.CNT 7, canon_of (by decide +kernel), by decide +kernel⟩,
   ⟨setF (giv rS 0x04) 0x04 R.FLT.NEWCNT.CNT 65535, .ec3, canon_of (by decide +kernel), mayRead_of (by decide +kernel)⟩⟩

theorem test_hypotheses_MemoryCommands_1 :
    (∃ (s : State) (who : Who) (cs : BitVec 2),
      (Canon s) ∧ (MayWrite s who 0x98 0x108) ∧ (blockOff s 0x98 = false) ∧ (s.xsp.cmd = none) ∧ (s.jrn.op = none) ∧ (cs.toNat < 2) ∧ (xspSize s cs.toNat ≠ 0) ∧ ((if cs = 0 then 0 else xspSize s 0) ≤ getF s 0x98 R.XSP.CADDR.ADDR) ∧ (getF s 0x98 R.XSP.CADDR.ADDR < (if cs = 0 then 0 else xspSize s 0) + xspSize s cs.toNat) ∧ (0x20000000 ≤ getF s 0x98 R.XSP.CBUF.ADDR) ∧ (getF s 0x98 R.XSP.CBUF.ADDR + xspPage s cs.toNat ≤ 0x20200000) ∧ ((getF s 0x98 R.XSP.CADDR.ADDR - (if cs = 0 then 0 else xspSize s 0)) % xspPage s cs.toNat = 0) ∧ (getF s 0x98 R.XSP.CBUF.ADDR % 4 = 0)) ∧
    (∃ (s : State) (who : Who) (cs : BitVec 2),
      (Canon s) ∧ (MayWrite s who 0x98 0x108) ∧ (blockOff s 0x98 = false) ∧ (s.xsp.cmd = none) ∧ (s.jrn.op = none) ∧ (cs.toNat < 2) ∧ (xspSize s cs.toNat ≠ 0) ∧ ((if cs = 0 then 0 else xspSize s 0) ≤ getF s 0x98 R.XSP.CADDR.ADDR) ∧ (getF s 0x98 R.XSP.CADDR.ADDR < (if cs = 0 then 0 else xspSize s 0) + xspSize s cs.toNat) ∧ ((getF s 0x98 R.XSP.CADDR.ADDR - (if cs = 0 then 0 else xspSize s 0)) % xspUnit s cs.toNat = 0)) ∧
    (∃ (s : State) (who : Who) (cs : BitVec 2),
      (Canon s) ∧ (MayWrite s who 0x98 0x108) ∧ (blockOff s 0x98 = false) ∧ (s.xsp.cmd = none) ∧ (s.jrn.op = none) ∧ (cs.toNat < 2) ∧ (xspSize s cs.toNat ≠ 0)) ∧
    (∃ (s : State) (who : Who) (cs : BitVec 2),
      (Canon s) ∧ (MayWrite s who 0x98 0x108) ∧ (blockOff s 0x98 = false) ∧ (s.xsp.cmd = none) ∧ (s.jrn.op ≠ none) ∧ (cs.toNat < 2) ∧ (xspSize s cs.toNat ≠ 0)) ∧
    (∃ (s : State) (bad : List Nat) (ok : Bool),
      (Canon s) ∧ (running s = true) ∧ (distBusy s = false) ∧ (s.xsp.cmd ≠ none) ∧ (s.jrn.op ≠ none)) ∧
    (∃ (s : State) (who : Who) (cs : BitVec 2),
      (Canon s) ∧ (MayWrite s who 0x98 0x108) ∧ (blockOff s 0x98 = false) ∧ (s.xsp.cmd = none) ∧ (s.jrn.op = none) ∧ (cs.toNat < 2) ∧ (xspSize s cs.toNat ≠ 0) ∧ ((getF s 0x98 R.XSP.CADDR.ADDR < (if cs = 0 then 0 else xspSize s 0) ∨ (if cs = 0 then 0 else xspSize s 0) + xspSize s cs.toNat ≤ getF s 0x98 R.XSP.CADDR.ADDR))) ∧
    (∃ (s : State) (who : Who) (cs : BitVec 2),
      (Canon s) ∧ (MayWrite s who 0x98 0x108) ∧ (blockOff s 0x98 = false) ∧ (s.xsp.cmd = none) ∧ (s.jrn.op = none) ∧ (cs.toNat < 2) ∧ (xspSize s cs.toNat ≠ 0) ∧ ((if cs = 0 then 0 else xspSize s 0) ≤ getF s 0x98 R.XSP.CADDR.ADDR) ∧ (getF s 0x98 R.XSP.CADDR.ADDR < (if cs = 0 then 0 else xspSize s 0) + xspSize s cs.toNat) ∧ ((getF s 0x98 R.XSP.CADDR.ADDR - (if cs = 0 then 0 else xspSize s 0)) % xspUnit s cs.toNat ≠ 0)) ∧
    (∃ (s : State) (cs : BitVec 2) (bad : List Nat),
      (Canon s) ∧ (running s = true) ∧ (distBusy s = false) ∧ (s.jrn.op = none) ∧ (s.xsp.cmd = some (1, cs.toNat))) :=
  ⟨⟨setF (setF xsS 0x98 R.XSP.CADDR.ADDR 0xFFF00) 0x98 R.XSP.CBUF.ADDR 0x201FFF00, .ec3, 0, canon_of (by decide +kernel), mayWrite_of (by decide +kernel), by decide +kernel⟩,
   ⟨setF xsS 0x98 R.XSP.CADDR.ADDR (xspUnit xsS 0), .ec3, 0, canon_of (by decide +kernel), mayWrite_of (by decide +kernel), by decide +kernel⟩,
   ⟨xsS, .ec3, 0, canon_of (by decide +kernel), mayWrite_of (by decide +kernel), by decide +kernel⟩,
   ⟨{ xsS with jrn := { JrnSt.init with op := some (.erase 0) } }, .ec3, 0, canon_of (by decide +kernel), mayWrite_of (by decide +kernel), by decide +kernel⟩,
   ⟨{ xsS with jrn := { JrnSt.init with op := some (.erase 0) }, xsp := { XspSt.init with cmd := some (3, 0) } }, [], false, canon_of (by decide +kernel), by decide +kernel⟩,
   ⟨setF xsS 0x98 R.XSP.CADDR.ADDR 0x100000, .ec3, 0, canon_of (by decide +kernel), mayWrite_of (by decide +kernel), by decide +kernel⟩,
   ⟨setF xsS 0x98 R.XSP.CADDR.ADDR (xspUnit xsS 0 + 1), .ec3, 0, canon_of (by decide +kernel), mayWrite_of (by decide +kernel), by decide +kernel⟩,
   ⟨{ xsS with xsp := { XspSt.init with cmd := some (1, 0), addr := 0xFFF00, buf := 0x20000000 } }, 0, [], canon_of (by decide +kernel), by decide +kernel⟩⟩

theorem test_hypotheses_MemoryCommands_2 :
    (∃ (s : State) (cs : BitVec 2) (bad : List Nat),
      (Canon s) ∧ (running s = true) ∧ (distBusy s = false) ∧ (s.jrn.op = none) ∧ (s.xsp.cmd = some (2, cs.toNat))) ∧
    (∃ (s : State) (cs : BitVec 2) (bad : List Nat),
      (Canon s) ∧ (running s = true) ∧ (s.jrn.op = none) ∧ (s.xsp.cmd = some (1, cs.toNat)) ∧ (xspNand s cs.toNat = false)) ∧
    (∃ (s : State),
      (Canon s) ∧ (running s = true) ∧ (getF s 0x98 R.XSP.STAT.BUSY ≠ 0)) ∧
    (∃ (s : State) (ok : Bool) (o : JrnOp),
      (Canon s) ∧ (running s = true) ∧ (jrnOn s = true) ∧ (s.jrn.op = none) ∧ (s.xsp.cmd = none) ∧ (0 < jrnCap s) ∧ (jrnPlan s = some o)) ∧
    (∃ (s : State) (ok : Bool),
      (Canon s) ∧ (running s = true) ∧ (s.jrn.op = none) ∧ ((jrnOn s = false ∨ s.xsp.cmd ≠ none))) ∧
    (∃ (s : State) (n : Nat) (q : Nat) (ws : List Word),
      (Canon s) ∧ (running s = true) ∧ (distBusy s = false) ∧ (s.xsp.cmd = none) ∧ (s.jrn.op = some (.record q)) ∧ (s.jrn.ring = [(q, ws)]) ∧ (ws.length = 16) ∧ (s.jrn.cur = some n) ∧ (xspNand s (jrnCs s) = false) ∧ (s.jrn.buf = jrnBuffer s (.record q)) ∧ (jrnPlace s n s.jrn.fill + 64 ≤ jrnPageAt s (jrnPlace s n s.jrn.fill) + xspPage s (jrnCs s))) ∧
    (∃ (s : State) (n : Nat),
      (Canon s) ∧ (running s = true) ∧ (distBusy s = false) ∧ (s.xsp.cmd = none) ∧ (s.jrn.op = some (.erase n))) ∧
    (∃ (s : State) (n : Nat),
      (Canon s) ∧ (running s = true) ∧ (distBusy s = false) ∧ (s.xsp.cmd = none) ∧ (s.jrn.op = some (.erase n)) ∧ (xspNand s (jrnCs s) = false)) :=
  ⟨⟨{ xsS with xsp := { XspSt.init with cmd := some (2, 0), addr := xspUnit xsS 0 } }, 0, [], canon_of (by decide +kernel), by decide +kernel⟩,
   ⟨{ xsS with xsp := { XspSt.init with cmd := some (1, 0), addr := 0xFFF00, buf := 0x20000000 } }, 0, [], canon_of (by decide +kernel), by decide +kernel⟩,
   ⟨setF rS 0x98 R.XSP.STAT.BUSY 2, canon_of (by decide +kernel), by decide +kernel⟩,
   ⟨jrS, false, .erase 0, canon_of (by decide +kernel), by decide +kernel⟩,
   ⟨{ jrS with xsp := { XspSt.init with cmd := some (3, 1) } }, false, canon_of (by decide +kernel), by decide +kernel⟩,
   ⟨jrT, 0, 1, BitVec.ofNat 32 1 :: List.replicate 15 7, canon_of (by decide +kernel), by decide +kernel⟩,
   ⟨{ jrS with jrn := { jrS.jrn with op := some (.erase 1) } }, 1, canon_of (by decide +kernel), by decide +kernel⟩,
   ⟨{ jrS with jrn := { jrS.jrn with op := some (.erase 1) } }, 1, canon_of (by decide +kernel), by decide +kernel⟩⟩

theorem test_hypotheses_MemoryCommands_3 :
    (∃ (s : State) (n : Nat) (q : Nat),
      (Canon s) ∧ (running s = true) ∧ (distBusy s = false) ∧ (s.xsp.cmd = none) ∧ (s.jrn.op = some (.header n q)) ∧ (xspNand s (jrnCs s) = false)) ∧
    (∃ (s : State) (who : Who) (v : Word),
      (Canon s) ∧ (MayWrite s who 0x99 0x110)) ∧
    (∃ (s : State) (q : Nat) (ws : List Word),
      (Canon s) ∧ (running s = true) ∧ (s.jrn.fetch = true) ∧ (getF s 0x99 R.JRN.RSEQ.SEQ = q) ∧ (getF s 0x99 R.JRN.TAIL.SEQ ≤ q) ∧ (q ≤ getF s 0x99 R.JRN.HEAD.SEQ) ∧ (jrnStaged s q = some ws)) ∧
    (∃ (s : State) (q : Nat) (a : Nat),
      (Canon s) ∧ (running s = true) ∧ (s.jrn.fetch = true) ∧ (getF s 0x99 R.JRN.RSEQ.SEQ = q) ∧ (getF s 0x99 R.JRN.TAIL.SEQ ≤ q) ∧ (q ≤ getF s 0x99 R.JRN.HEAD.SEQ) ∧ (jrnStaged s q = none) ∧ (jrnFind s q = some a) ∧ ((xspCs s a).isSome = true) ∧ (xspBusy s (jrnCs s) = false) ∧ (xspNand s (jrnCs s) = false)) ∧
    (∃ (s : State) (q : Nat) (a : Nat),
      (Canon s) ∧ (running s = true) ∧ (s.jrn.fetch = true) ∧ (getF s 0x99 R.JRN.RSEQ.SEQ = q) ∧ (getF s 0x99 R.JRN.TAIL.SEQ ≤ q) ∧ (q ≤ getF s 0x99 R.JRN.HEAD.SEQ) ∧ (jrnStaged s q = none) ∧ (jrnFind s q = some a) ∧ ((xspCs s a).isSome = true) ∧ (xspBusy s (jrnCs s) = true)) ∧
    (∃ (s : State),
      (Canon s) ∧ (running s = true) ∧ (s.jrn.fetch = true) ∧ (getF s 0x99 R.JRN.HEAD.SEQ < getF s 0x99 R.JRN.RSEQ.SEQ)) ∧
    (∃ (s : State) (who : Who),
      (Canon s) ∧ (MayWrite s who 0x99 0x118)) ∧
    (∃ (s : State) (who : Who),
      (Canon s) ∧ (MayRead s who 0x99)) :=
  ⟨⟨{ jrS with jrn := { jrS.jrn with op := some (.header 1 1), buf := jrnBuffer jrS (.header 1 1) } }, 1, 1, canon_of (by decide +kernel), by decide +kernel⟩,
   ⟨giv rS 0x99, .ec3, 0xFFFFFFFF, canon_of (by decide +kernel), mayWrite_of (by decide +kernel)⟩,
   ⟨setF (setF { jrS with jrn := { jrS.jrn with fetch := true } } 0x99 R.JRN.RSEQ.SEQ 1) 0x99 R.JRN.HEAD.SEQ 1, 1, BitVec.ofNat 32 1 :: List.replicate 15 7, canon_of (by decide +kernel), by decide +kernel⟩,
   ⟨setF (setF jrF 0x99 R.JRN.RSEQ.SEQ 1) 0x99 R.JRN.HEAD.SEQ 1, 1, 64, canon_of (by decide +kernel), by decide +kernel⟩,
   ⟨setF (setF (setF jrF 0x99 R.JRN.RSEQ.SEQ 1) 0x99 R.JRN.HEAD.SEQ 1) 0x98 R.XSP.STAT.BUSY 1, 1, 64, canon_of (by decide +kernel), by decide +kernel⟩,
   ⟨setF { rS with jrn := { JrnSt.init with fetch := true } } 0x99 R.JRN.RSEQ.SEQ 1, canon_of (by decide +kernel), by decide +kernel⟩,
   ⟨setF (giv rS 0x99) 0x99 R.JRN.TOTAL.CNT 9, .ec3, canon_of (by decide +kernel), mayWrite_of (by decide +kernel)⟩,
   ⟨setF (giv rS 0x99) 0x99 R.JRN.LOST.CNT 9, .ec3, canon_of (by decide +kernel), mayRead_of (by decide +kernel)⟩⟩

theorem test_hypotheses_MemoryCommands_4 :
    (∃ (s : State) (row : Fin 28672) (reads : Byte),
      (Canon s) ∧ (running s = true) ∧ (cfg s 0x9A R.SPR.CFG.MRTH ≤ reads.toNat) ∧ (blockOff s 0x9A = false) ∧ (s.spr.rows.length < 573)) ∧
    (∃ (s : State) (row : Fin 28672) (reads : Byte),
      (Canon s) ∧ (running s = true) ∧ (reads.toNat < cfg s 0x9A R.SPR.CFG.MRTH)) ∧
    (∃ (s : State) (row : Fin 28672) (reads : Byte),
      (Canon s) ∧ (running s = true) ∧ (blockOff s 0x9A = false) ∧ (s.spr.rows.length < 573)) ∧
    (∃ (s : State) (slot : Fin 112),
      (Canon s) ∧ (running s = true) ∧ ((keysNamed s).any (keyAbove s slot.val 128) = false) ∧ (blockOff s 0x9A = false) ∧ (s.spr.keys.length < 16)) :=
  ⟨⟨rS, 28671, 255, canon_of (by decide +kernel), by decide +kernel⟩,
   ⟨rS, 28671, 0, canon_of (by decide +kernel), by decide +kernel⟩,
   ⟨rS, 28671, 0, canon_of (by decide +kernel), by decide +kernel⟩,
   ⟨rS, 111, canon_of (by decide +kernel), by decide +kernel⟩⟩

theorem test_hypotheses_RegisterWrites_1 :
    (∃ (s : State) (who : Who) (p : Nat) (off : Nat) (v : Word),
      (Canon s) ∧ (MayWrite s who p off) ∧ (p < 256) ∧ (off < 4096) ∧ (off % 4 = 0) ∧ (0x800 ≤ off) ∧ (isSet s p H.LOCKED = false) ∧ (getF s p H.CST = 0) ∧ ((fieldsAt p off).isEmpty = false) ∧ ((enabled s p = true → (rd s p off ^^^ v) &&& rwlMask p off = 0))) ∧
    (∃ (s : State) (who : Who) (p : Nat) (off : Nat) (v : Word),
      (Canon s) ∧ (MayWrite s who p off) ∧ (p < 256) ∧ (off < 4096) ∧ (off % 4 = 0) ∧ (0x800 ≤ off) ∧ ((isSet s p H.LOCKED = true ∨ getF s p H.CST ≠ 0))) ∧
    (∃ (s : State) (who : Who) (p : Nat) (off : Nat) (v : Word),
      (Canon s) ∧ (MayWrite s who p off) ∧ (p < 256) ∧ (off < 4096) ∧ (off % 4 = 0) ∧ (0x800 ≤ off) ∧ (enabled s p = true) ∧ ((rd s p off ^^^ v) &&& rwlMask p off ≠ 0)) ∧
    (∃ (s : State) (who : Who) (p : Nat) (off : Nat) (v : Word),
      (Canon s) ∧ (MayWrite s who p off) ∧ (p < 256) ∧ (off < 4096) ∧ (off % 4 = 0) ∧ (0x800 ≤ off) ∧ (isSet s p H.LOCKED = false) ∧ (getF s p H.CST = 0) ∧ ((fieldsAt p off).isEmpty = true)) ∧
    (∃ (s : State) (who : Who) (size : AccSize) (a : Word) (v : Word),
      (Canon s) ∧ (running s = true) ∧ (sysLost s = false) ∧ ((whoIsCore who = true ∨ who = .host ∧ manifestLoaded s = true)) ∧ (0x20000000 ≤ a.toNat) ∧ (a.toNat < 0x20200000) ∧ (a.toNat % accBytes size = 0)) ∧
    (∃ (s : State) (who : Who) (size : AccSize) (a : Word) (v : Word),
      (Canon s) ∧ (running s = true) ∧ (a.toNat % accBytes size ≠ 0)) ∧
    (∃ (s : State) (who : Who) (size : AccSize) (a : Word) (v : Word),
      (Canon s) ∧ (running s = true) ∧ (accessStands s who a.toNat = false) ∧ (0x40000000 ≤ a.toNat) ∧ (a.toNat < 0x40100000) ∧ (size ≠ .word) ∧ (a.toNat % accBytes size = 0)) ∧
    (∃ (s : State) (who : Who) (p : Nat) (off : Nat) (v : Word),
      (Canon s) ∧ (running s = true) ∧ (accessStands s who (pageAddr p off) = false) ∧ (p < 256) ∧ (off < 4096) ∧ (off % 4 = 0) ∧ (blkOf p = none)) :=
  ⟨⟨giv rS 0x20, .ec3, 0x20, 0x800, 1, canon_of (by decide +kernel), mayWrite_of (by decide +kernel), by decide +kernel⟩,
   ⟨setFlag (giv rS 0x20) 0x20 H.LOCKED true, .ec3, 0x20, 0xFFC, 1, canon_of (by decide +kernel), mayWrite_of (by decide +kernel), by decide +kernel⟩,
   ⟨upg rS 0x10, .ec3, 0x10, 0x800, 0xFFFFFFFF, canon_of (by decide +kernel), mayWrite_of (by decide +kernel), by decide +kernel⟩,
   ⟨giv rS 0x20, .ec3, 0x20, 0xFFC, 1, canon_of (by decide +kernel), mayWrite_of (by decide +kernel), by decide +kernel⟩,
   ⟨rS, .ec3, .half, 0x201FFFFE, 0x1234, canon_of (by decide +kernel), by decide +kernel⟩,
   ⟨rS, .ec3, .word, 0x20000001, 0, canon_of (by decide +kernel), by decide +kernel⟩,
   ⟨rS, .ec3, .half, 0x40020002, 0, canon_of (by decide +kernel), by decide +kernel⟩,
   ⟨rS, .ec3, 0xFF, 0xFFC, 0, canon_of (by decide +kernel), by decide +kernel⟩⟩

theorem test_hypotheses_RegisterWrites_2 :
    (∃ (s : State) (who : Who) (size : AccSize) (a : Word) (v : Word),
      (Canon s) ∧ (running s = true) ∧ (sysLost s = false) ∧ (a.toNat < 0x18000)) ∧
    (∃ (s : State) (who : Who) (size : AccSize) (a : Word) (v : Word),
      (Canon s) ∧ (running s = true) ∧ (sysLost s = false) ∧ (0xC0000000 ≤ a.toNat)) ∧
    (∃ (s : State) (who : Who) (size : AccSize) (a : Word) (v : Word),
      (Canon s) ∧ (running s = true) ∧ (a.toNat % accBytes size = 0) ∧ (accessStands s who a.toNat = true)) :=
  ⟨⟨rS, .ec3, .byte, 0x17FFF, 0, canon_of (by decide +kernel), by decide +kernel⟩,
   ⟨rS, .ec3, .byte, 0xFFFFFFFF, 0, canon_of (by decide +kernel), by decide +kernel⟩,
   ⟨{ rS with flt := { rS.flt with level := [32] } }, .ec3, .word, 0, 0, canon_of (by decide +kernel), by decide +kernel⟩⟩

theorem test_hypotheses_CommandsStayOnTheirPage_1 :
    (∃ (s : State) (who : Who) (n : Fin 72) (v : Word),
      (Canon s)) ∧
    (∃ (s : State) (who : Who) (n : Fin 72) (v : Word),
      (Canon s)) ∧
    (∃ (s : State) (who : Who) (n : Fin 72) (v : Word),
      (Canon s)) ∧
    (∃ (s : State) (who : Who) (n : Fin 72) (v : Word),
      (Canon s)) ∧
    (∃ (s : State) (who : Who) (b : Fin 12) (v : Word),
      (Canon s)) ∧
    (∃ (s : State) (who : Who) (b : Fin 12) (v : Word),
      (Canon s)) ∧
    (∃ (s : State) (b : Fin 12),
      (Canon s)) ∧
    (∃ (s : State) (b : Fin 12),
      (Canon s)) :=
  ⟨⟨rS, .ec3, 0, 0, canon_of (by decide +kernel)⟩,
   ⟨rS, .ec3, 0, 0, canon_of (by decide +kernel)⟩,
   ⟨rS, .ec3, 0, 0, canon_of (by decide +kernel)⟩,
   ⟨rS, .ec3, 0, 0, canon_of (by decide +kernel)⟩,
   ⟨rS, .ec3, 0, 0, canon_of (by decide +kernel)⟩,
   ⟨rS, .ec3, 0, 0, canon_of (by decide +kernel)⟩,
   ⟨rS, 0, canon_of (by decide +kernel)⟩,
   ⟨rS, 0, canon_of (by decide +kernel)⟩⟩

theorem test_hypotheses_CommandsStayOnTheirPage_2 :
    (∃ (s : State) (b : Fin 12),
      (Canon s)) ∧
    (∃ (s : State) (who : Who) (d : Fin 4) (v : Word),
      (Canon s)) ∧
    (∃ (s : State) (d : Fin 4) (k : Fin 16),
      (Canon s)) ∧
    (∃ (s : State) (d : Fin 4) (k : Fin 16),
      (Canon s)) ∧
    (∃ (s : State) (who : Who) (v : Word),
      (Canon s)) ∧
    (∃ (s : State) (r : Fin 12) (c : Fin 24),
      (Canon s)) ∧
    (∃ (s : State) (r : Fin 12),
      (Canon s)) ∧
    (∃ (s : State) (c : Fin 24),
      (Canon s)) :=
  ⟨⟨rS, 0, canon_of (by decide +kernel)⟩,
   ⟨rS, .ec3, 0, 0, canon_of (by decide +kernel)⟩,
   ⟨rS, 0, 0, canon_of (by decide +kernel)⟩,
   ⟨rS, 0, 0, canon_of (by decide +kernel)⟩,
   ⟨rS, .ec3, 0, canon_of (by decide +kernel)⟩,
   ⟨rS, 0, 0, canon_of (by decide +kernel)⟩,
   ⟨rS, 0, canon_of (by decide +kernel)⟩,
   ⟨rS, 0, canon_of (by decide +kernel)⟩⟩

theorem test_hypotheses_CommandsStayOnTheirPage_3 :
    (∃ (s : State) (who : Who) (d : Fin 4) (v : Word),
      (Canon s)) ∧
    (∃ (s : State) (who : Who),
      (Canon s)) ∧
    (∃ (s : State) (who : Who),
      (Canon s)) ∧
    (∃ (s : State) (who : Who),
      (Canon s)) ∧
    (∃ (s : State) (who : Who),
      (Canon s)) ∧
    (∃ (s : State) (who : Who),
      (Canon s)) ∧
    (∃ (s : State) (who : Who) (v : Word),
      (Canon s)) ∧
    (∃ (s : State) (who : Who),
      (Canon s)) :=
  ⟨⟨rS, .ec3, 0, 0, canon_of (by decide +kernel)⟩,
   ⟨rS, .ec3, canon_of (by decide +kernel)⟩,
   ⟨rS, .ec3, canon_of (by decide +kernel)⟩,
   ⟨rS, .ec3, canon_of (by decide +kernel)⟩,
   ⟨rS, .ec3, canon_of (by decide +kernel)⟩,
   ⟨rS, .ec3, canon_of (by decide +kernel)⟩,
   ⟨rS, .ec3, 0, canon_of (by decide +kernel)⟩,
   ⟨rS, .ec3, canon_of (by decide +kernel)⟩⟩

theorem test_hypotheses_CommandsStayOnTheirPage_4 :
    (∃ (s : State) (who : Who),
      (Canon s)) ∧
    (∃ (s : State) (who : Who) (d : Fin 4) (v : Word),
      (Canon s)) ∧
    (∃ (s : State) (who : Who) (d : Fin 4) (v : Word),
      (Canon s)) ∧
    (∃ (s : State) (who : Who) (d : Fin 4) (v : Word),
      (Canon s)) ∧
    (∃ (s : State) (who : Who) (d : Fin 4),
      (Canon s)) ∧
    (∃ (s : State) (who : Who) (l : Fin 6),
      (Canon s)) ∧
    (∃ (s : State) (who : Who) (l : Fin 6),
      (Canon s)) ∧
    (∃ (s : State) (who : Who) (l : Fin 6),
      (Canon s)) :=
  ⟨⟨rS, .ec3, canon_of (by decide +kernel)⟩,
   ⟨rS, .ec3, 0, 0, canon_of (by decide +kernel)⟩,
   ⟨rS, .ec3, 0, 0, canon_of (by decide +kernel)⟩,
   ⟨rS, .ec3, 0, 0, canon_of (by decide +kernel)⟩,
   ⟨rS, .ec3, 0, canon_of (by decide +kernel)⟩,
   ⟨rS, .ec3, 0, canon_of (by decide +kernel)⟩,
   ⟨rS, .ec3, 0, canon_of (by decide +kernel)⟩,
   ⟨rS, .ec3, 0, canon_of (by decide +kernel)⟩⟩

theorem test_hypotheses_CommandsStayOnTheirPage_5 :
    (∃ (s : State) (who : Who) (l : Fin 6),
      (Canon s)) ∧
    (∃ (s : State) (who : Who) (l : Fin 6),
      (Canon s)) ∧
    (∃ (s : State) (who : Who) (k : Fin 16),
      (Canon s)) ∧
    (∃ (s : State) (who : Who),
      (Canon s)) ∧
    (∃ (s : State) (who : Who),
      (Canon s)) ∧
    (∃ (s : State) (who : Who) (page : Byte) (v : Word),
      (Canon s)) ∧
    (∃ (s : State) (who : Who),
      (Canon s)) ∧
    (∃ (s : State) (who : Who),
      (Canon s)) :=
  ⟨⟨rS, .ec3, 0, canon_of (by decide +kernel)⟩,
   ⟨rS, .ec3, 0, canon_of (by decide +kernel)⟩,
   ⟨rS, .ec3, 0, canon_of (by decide +kernel)⟩,
   ⟨rS, .ec3, canon_of (by decide +kernel)⟩,
   ⟨rS, .ec3, canon_of (by decide +kernel)⟩,
   ⟨rS, .ec3, 0, 0, canon_of (by decide +kernel)⟩,
   ⟨rS, .ec3, canon_of (by decide +kernel)⟩,
   ⟨rS, .ec3, canon_of (by decide +kernel)⟩⟩

theorem test_hypotheses_CommandsStayOnTheirPage_6 :
    (∃ (s : State) (who : Who),
      (Canon s)) :=
  ⟨rS, .ec3, canon_of (by decide +kernel)⟩

theorem test_hypotheses_RefusedAccesses_1 :
    (∃ (s : State) (who : Who) (d : Fin 4),
      (Canon s) ∧ (running s = true) ∧ (pageStands s (canPage d.val) = false) ∧ ((rightsOf s (whoKind who) (canPage d.val)).testBit 0 = false)) ∧
    (∃ (s : State) (who : Who) (l : Fin 6),
      (Canon s) ∧ (running s = true) ∧ (pageStands s (linPage l.val) = false) ∧ ((rightsOf s (whoKind who) (linPage l.val)).testBit 0 = false)) ∧
    (∃ (s : State) (who : Who) (k : Fin 2),
      (Canon s) ∧ (running s = true) ∧ (pageStands s 0x0E = false) ∧ ((rightsOf s (whoKind who) 0x0E).testBit 0 = false)) ∧
    (∃ (s : State) (who : Who),
      (Canon s) ∧ (running s = true) ∧ (pageStands s 0x99 = false) ∧ ((rightsOf s (whoKind who) 0x99).testBit 0 = false)) ∧
    (∃ (s : State) (who : Who),
      (Canon s) ∧ (running s = true) ∧ (pageStands s 4 = false) ∧ ((rightsOf s (whoKind who) 4).testBit 0 = false)) ∧
    (∃ (s : State) (who : Who),
      (Canon s) ∧ (running s = true) ∧ (pageStands s 0x1F = false) ∧ ((rightsOf s (whoKind who) 0x1F).testBit 0 = false)) ∧
    (∃ (s : State) (who : Who) (d : Fin 4),
      (Canon s) ∧ (running s = true) ∧ (pageStands s 0xB0 = false) ∧ ((rightsOf s (whoKind who) 0xB0).testBit 0 = false)) ∧
    (∃ (s : State) (who : Who) (d : Fin 4),
      (Canon s) ∧ (running s = true) ∧ (pageStands s 0xB0 = false) ∧ ((rightsOf s (whoKind who) 0xB0).testBit 0 = false)) :=
  ⟨⟨rS, .app, 0, canon_of (by decide +kernel), by decide +kernel⟩,
   ⟨rS, .app, 0, canon_of (by decide +kernel), by decide +kernel⟩,
   ⟨rS, .app, 0, canon_of (by decide +kernel), by decide +kernel⟩,
   ⟨rS, .app, canon_of (by decide +kernel), by decide +kernel⟩,
   ⟨rS, .app, canon_of (by decide +kernel), by decide +kernel⟩,
   ⟨rS, .app, canon_of (by decide +kernel), by decide +kernel⟩,
   ⟨rS, .app, 0, canon_of (by decide +kernel), by decide +kernel⟩,
   ⟨rS, .app, 0, canon_of (by decide +kernel), by decide +kernel⟩⟩

theorem test_hypotheses_RefusedAccesses_2 :
    (∃ (s : State) (who : Who) (p : Nat) (off : Nat) (v : Word),
      (Canon s) ∧ (running s = true) ∧ (p < 256) ∧ (off < 4096) ∧ (off % 4 = 0) ∧ (pageStands s p = false) ∧ ((blkOf p).isSome = true) ∧ ((rightsOf s (whoKind who) p).testBit (writeRight off) = false) ∧ (¬ (p = 6 ∧ vltIface off = true ∧ vltReach s who = true)) ∧ (¬ (p = 4 ∧ off = 0x108 ∧ who = .app))) :=
  ⟨{ rS with regs := [(rkey 5 0x108, 65535)] }, .app, 0x20, 0x100, 0, canon_of (by decide +kernel), by decide +kernel⟩

theorem test_hypotheses_OwnerWrites :
    (∃ (s : State) (who : Who) (p : Nat) (off : Nat) (v : Word),
      (Canon s) ∧ (running s = true) ∧ (p < 256) ∧ (off < 4096) ∧ (off % 4 = 0) ∧ ((off = 0x008 ∨ off = 0x00C ∨ off = 0x014 ∨ 0x800 ≤ off)) ∧ (pageStands s p = false) ∧ ((blkOf p).isSome = true) ∧ ((rightsOf s (whoKind who) p).testBit 2 = false)) ∧
    (∃ (s : State) (who : Who) (p : Nat) (page : Byte) (apply : BitVec 2) (enable : Bool),
      (Canon s) ∧ (running s = true) ∧ (p = page.toNat) ∧ (pageStands s p = false) ∧ ((blkOf p).isSome = true) ∧ ((rightsOf s (whoKind who) p).testBit 2 = false)) ∧
    (∃ (s : State) (who : Who) (p : Nat) (page : Byte) (apply : BitVec 2) (enable : Bool),
      (Canon s) ∧ (running s = true) ∧ (p = page.toNat) ∧ (pageStands s p = false) ∧ ((blkOf p).isSome = true) ∧ ((rightsOf s (whoKind who) p).testBit 2 = false)) ∧
    (∃ (s : State) (who : Who) (p : Nat) (page : Byte) (apply : BitVec 2) (enable : Bool),
      (Canon s) ∧ (running s = true) ∧ (p = page.toNat) ∧ (pageStands s p = false) ∧ ((blkOf p).isSome = true) ∧ ((rightsOf s (whoKind who) p).testBit 2 = false)) ∧
    (∃ (s : State) (who : Who) (p : Nat) (page : Byte) (apply : BitVec 2) (enable : Bool),
      (Canon s) ∧ (running s = true) ∧ (p = page.toNat) ∧ (pageStands s p = false) ∧ ((blkOf p).isSome = true) ∧ ((rightsOf s (whoKind who) p).testBit 2 = false)) ∧
    (∃ (s : State) (who : Who) (p : Nat) (page : Byte) (v : Word),
      (Canon s) ∧ (running s = true) ∧ (p = page.toNat) ∧ (pageStands s p = false) ∧ ((blkOf p).isSome = true) ∧ ((rightsOf s (whoKind who) p).testBit 2 = false)) ∧
    (∃ (s : State) (who : Who) (p : Nat) (off : Nat) (v : Word),
      (Canon s) ∧ (running s = true) ∧ (p < 256) ∧ (off < 4096) ∧ (off % 4 = 0) ∧ ((off = 0x008 ∨ off = 0x00C ∨ off = 0x014 ∨ 0x800 ≤ off)) ∧ (pageStands s p = false) ∧ ((blkOf p).isSome = true) ∧ ((rightsOf s (whoKind who) p).testBit 2 = true) ∧ ((p = 6 → who = .ec3))) ∧
    (∃ (s : State) (who : Who) (p : Nat) (page : Byte) (v : Word),
      (Canon s) ∧ (running s = true) ∧ (p = page.toNat) ∧ (pageStands s p = false) ∧ ((blkOf p).isSome = true) ∧ ((rightsOf s (whoKind who) p).testBit 2 = true) ∧ ((p = 6 → who = .ec3))) :=
  ⟨⟨rS, .host, 6, 0xFFC, 0, canon_of (by decide +kernel), by decide +kernel⟩,
   ⟨rS, .app, 0x20, 0x20, 0, false, canon_of (by decide +kernel), by decide +kernel⟩,
   ⟨rS, .app, 0x20, 0x20, 0, false, canon_of (by decide +kernel), by decide +kernel⟩,
   ⟨rS, .app, 0x20, 0x20, 0, false, canon_of (by decide +kernel), by decide +kernel⟩,
   ⟨rS, .app, 0x20, 0x20, 0, false, canon_of (by decide +kernel), by decide +kernel⟩,
   ⟨rS, .app, 0x20, 0x20, 0, canon_of (by decide +kernel), by decide +kernel⟩,
   ⟨giv rS 0x20, .ec3, 0x20, 0x00C, 1, canon_of (by decide +kernel), by decide +kernel⟩,
   ⟨setFlag (giv rS 0x20) 0x20 H.WERR true, .ec3, 0x20, 0x20, 0x20, canon_of (by decide +kernel), by decide +kernel⟩⟩

theorem test_hypotheses_PfltFlagsClear :
    (∃ (s : State) (who : Who) (p : Nat) (page : Byte) (b : Nat) (v : Word),
      (Canon s) ∧ (MayWrite s who p 0x018) ∧ (p = page.toNat) ∧ (b < 8)) ∧
    (∃ (s : State) (who : Who) (p : Nat) (page : Byte) (b : Nat) (v : Word),
      (Canon s) ∧ (MayWrite s who p 0x018) ∧ (p = page.toNat) ∧ (b < 8)) :=
  ⟨⟨setF (giv rS 0x20) 0x20 H.PFLT 0xFF, .ec3, 0x20, 0x20, 7, 0xFF, canon_of (by decide +kernel), mayWrite_of (by decide +kernel), by decide +kernel⟩,
   ⟨setF (giv rS 0x20) 0x20 H.PFLT 0xFF, .ec3, 0x20, 0x20, 7, 0xFF, canon_of (by decide +kernel), mayWrite_of (by decide +kernel), by decide +kernel⟩⟩

theorem test_hypotheses_CommitsWaitTheirTurn :
    (∃ (s : State) (who : Who) (p : Nat) (page : Byte) (apply : BitVec 2) (enable : Bool),
      (Canon s) ∧ (MayWrite s who p 0x00C) ∧ (p = page.toNat) ∧ ((alwaysOn p = true ∨ enable = enabled s p)) ∧ (isSet s p H.LOCKED = false) ∧ (getF s p H.CST = 0) ∧ ((p = 4 → s.flt.wired = false))) ∧
    (∃ (s : State) (p : Nat) (kind : Nat) (rest : List (Nat × Nat)),
      (Canon s) ∧ (running s = true) ∧ (s.commits = (p, kind) :: rest)) ∧
    (∃ (s : State) (who : Who) (p : Nat) (page : Byte) (apply : BitVec 2) (enable : Bool),
      (Canon s) ∧ (MayWrite s who p 0x00C) ∧ (p = page.toNat) ∧ (getF s p H.CST ≠ 0)) ∧
    (∃ (s : State) (who : Who) (p : Nat) (off : Nat) (v : Word),
      (Canon s) ∧ (MayWrite s who p off) ∧ (p < 256) ∧ (off < 4096) ∧ (off % 4 = 0) ∧ ((off = 0x014 ∨ 0x800 ≤ off)) ∧ (getF s p H.CST ≠ 0)) :=
  ⟨⟨giv rS 0x20, .ec3, 0x20, 0x20, 0, false, canon_of (by decide +kernel), mayWrite_of (by decide +kernel), by decide +kernel⟩,
   ⟨{ wr (up rS 8) 8 0x014 1 with commits := [(8, 3), (9, 3)] }, 8, 3, [(9, 3)], canon_of (by decide +kernel), by decide +kernel⟩,
   ⟨setF (giv rS 0x20) 0x20 H.CST 1, .ec3, 0x20, 0x20, 0, false, canon_of (by decide +kernel), mayWrite_of (by decide +kernel), by decide +kernel⟩,
   ⟨setF (giv rS 0x20) 0x20 H.CST 1, .ec3, 0x20, 0x014, 0, canon_of (by decide +kernel), mayWrite_of (by decide +kernel), by decide +kernel⟩⟩

end Sys2Proof.Tests
end

section
/-! The address map and the writes at an address (01 Table 6; 02, R28, R35, R36, R39, R44, R49). -/

namespace Sys2Proof.Machine

/-! ### Places of the address map -/

/-- A register's address fits a word. -/
theorem pageAddr_toNat {p off : Nat} (hp : p < 256) (ho : off < 4096) :
    (BitVec.ofNat 32 (pageAddr p off)).toNat = pageAddr p off := by
  unfold pageAddr
  rw [BitVec.toNat_ofNat, Nat.mod_eq_of_lt (by omega)]

theorem place_rom (who : Who) {a : Nat} (h : a < 0x18000) : place who a = .rom := by
  simp only [place, if_pos h]

theorem place_sram (who : Who) {a : Nat} (h1 : 0x20000000 ≤ a) (h2 : a < 0x20200000) : place who a = .sram := by
  unfold place
  repeat rw [if_neg (by omega)]
  rw [if_pos ⟨h1, h2⟩]

theorem place_page (who : Who) {a : Nat} (h1 : 0x40000000 ≤ a) (h2 : a < 0x40100000) :
    place who a = .page ((a - 0x40000000) / 4096) (a % 4096) := by
  unfold place
  repeat rw [if_neg (by omega)]
  rw [if_pos ⟨h1, h2⟩]

theorem place_above (who : Who) {a : Nat} (h : 0xC0000000 ≤ a) : place who a = .nowhere := by
  unfold place
  repeat rw [if_neg (by omega)]

/-- A register's address is in its page at its offset. -/
theorem place_pageAddr (who : Who) {p off : Nat} (hp : p < 256) (ho : off < 4096) :
    place who (pageAddr p off) = .page p off := by
  unfold pageAddr
  rw [place_page who (by omega) (by omega), show (0x40000000 + p * 4096 + off - 0x40000000) / 4096 = p by omega,
    show (0x40000000 + p * 4096 + off) % 4096 = off by omega]

/-! ### Which accesses wait -/

/-- Outside the ring window a write waits for a stopped clock alone. -/
theorem writeWaits_eq_accessStands {s : State} {who : Who} {a : Nat} (h : ∀ dev off, place who a ≠ .ring dev off) :
    writeWaits s who a = accessStands s who a := by
  unfold writeWaits
  split
  · next dev off hr => exact absurd hr (h dev off)
  · rw [Bool.or_false]

/-- Where there is no register and no ring window a write waits for the SYS clock alone. -/
theorem writeWaits_eq_sysLost {s : State} {who : Who} {a : Nat} (hr : ∀ dev off, place who a ≠ .ring dev off)
    (hp : ∀ p off, place who a ≠ .page p off) : writeWaits s who a = sysLost s := by
  rw [writeWaits_eq_accessStands hr]
  unfold accessStands
  split
  · next p off h => exact absurd h (hp p off)
  · next dev off h => exact absurd h (hr dev off)
  · rw [Bool.or_false]

/-- An access of a register waits for SYS and the clock of its page. -/
theorem accessStands_pageAddr (s : State) (who : Who) {p off : Nat} (hp : p < 256) (ho : off < 4096) :
    accessStands s who (pageAddr p off) = pageStands s p := by
  simp only [accessStands, place_pageAddr who hp ho, pageStands]
  cases sysLost s <;> simp

/-! ### Writes at an address -/

/-- R35: a misaligned write gets a bus error. -/
theorem storeAccess_misaligned {s : State} {who : Who} {a : Nat} {size : AccSize} {v : Word} (hr : running s = true)
    (ha : a % accBytes size ≠ 0) : storeAccess s who a size v = { s with ans := some .err } := by
  rw [storeAccess, powered_of hr, if_pos ha]

/-- R26: a write waits while a clock of its access stands. -/
theorem storeAccess_stands {s : State} {who : Who} {a : Nat} {size : AccSize} {v : Word} (hr : running s = true)
    (ha : a % accBytes size = 0) (hs : accessStands s who a = true) :
    storeAccess s who a size v = { s with ans := some .stall } := by
  have hw : writeWaits s who a = true := by rw [writeWaits, hs, Bool.true_or]
  rw [storeAccess, powered_of hr, if_neg (not_not_intro ha), if_pos hw]

/-- An aligned write that no clock and no full queue holds up reaches the bus. -/
theorem storeAccess_goes {s : State} {who : Who} {a : Nat} {size : AccSize} {v : Word} (hr : running s = true)
    (ha : a % accBytes size = 0) (hw : writeWaits s who a = false) :
    storeAccess s who a size v = answerW (busWrite s who false a (accBytes size) v) := by
  rw [storeAccess, powered_of hr, if_neg (not_not_intro ha), if_neg (by simp [hw])]

/-- A write that the bus turns away, aligned or not, gets a bus error and changes nothing. -/
theorem storeAccess_refused {s : State} {who : Who} {a : Nat} {size : AccSize} {v : Word} (hr : running s = true)
    (hw : writeWaits s who a = false) (hb : busWrite s who false a (accBytes size) v = (s, false)) :
    storeAccess s who a size v = { s with ans := some .err } := by
  by_cases ha : a % accBytes size = 0
  · rw [storeAccess_goes hr ha hw, hb]
    rfl
  · exact storeAccess_misaligned hr ha

/-- A word written at a register's address is a write of that register. -/
theorem storeAccess_pageAddr (s : State) (who : Who) {p off : Nat} (v : Word) (hp : p < 256) (ho : off < 4096)
    (h4 : off % 4 = 0) : storeAccess s who (pageAddr p off) .word v = writeReg s who p off v := by
  have ha : ¬ pageAddr p off % 4 ≠ 0 := by unfold pageAddr; omega
  have hw : ∀ s, writeWaits s who (pageAddr p off) = pageStands s p := fun s => by
    rw [writeWaits_eq_accessStands (by simp [place_pageAddr who hp ho]), accessStands_pageAddr s who hp ho]
  simp only [storeAccess, writeReg, crossing, accBytes, if_neg ha, hw, busWrite, place_pageAddr who hp ho, ne_eq,
    not_true_eq_false, if_false]

/-- 01 Table 6: a core's or the host's write of general SRAM stores the low bytes. -/
theorem storeAccess_sram {s : State} {who : Who} {a : Nat} {size : AccSize} {v : Word} (hr : running s = true)
    (hs : sysLost s = false) (hg : whoIsCore who = true ∨ who = .host ∧ manifestLoaded s = true)
    (h1 : 0x20000000 ≤ a) (h2 : a < 0x20200000) (ha : a % accBytes size = 0) :
    storeAccess s who a size v =
      { s with mem := memSetList s.mem a ((wordBytes v).take (accBytes size)), ans := none } := by
  have hp := place_sram who h1 h2
  have hw : writeWaits s who a = false := by
    rw [writeWaits_eq_sysLost (by simp [hp]) (by simp [hp]), hs]
  have hm : memGrant s who false true a .sram = .ok := by
    rcases hg with hc | ⟨rfl, hl⟩
    · simp [memGrant, hc]
    · simp [memGrant, hostMay, hl]
  rw [storeAccess_goes hr ha hw]
  simp [busWrite, hp, hm, answerW]

/-- R35: a write of a register page that is no word gets a bus error. -/
theorem busWrite_page_narrow {s : State} {who : Who} {a : Nat} {size : AccSize} {v : Word} (h1 : 0x40000000 ≤ a)
    (h2 : a < 0x40100000) (hz : size ≠ .word) : busWrite s who false a (accBytes size) v = (s, false) := by
  have hn : accBytes size ≠ 4 := by cases size <;> simp_all [accBytes]
  simp [busWrite, place_page who h1 h2, hn]

/-- 01 Table 6: no initiator writes the boot ROM. -/
theorem busWrite_rom {s : State} {who : Who} {a n : Nat} {v : Word} (h : a < 0x18000) :
    busWrite s who false a n v = (s, false) := by
  simp [busWrite, place_rom who h, memGrant, grantRefuse]

/-- R28: above the ring window there is nothing to write. -/
theorem busWrite_above {s : State} {who : Who} {a n : Nat} {v : Word} (h : 0xC0000000 ≤ a) :
    busWrite s who false a n v = (s, false) := by
  simp [busWrite, place_above who h]

/-- A reserved page takes no write. -/
theorem pageWrite_reserved {s : State} {who : Who} {p off addr : Nat} {v : Word} (h : blkOf p = none) :
    pageWrite s who p off addr v = (s, false) := by
  simp [pageWrite, h]

/-! ### Shadow words -/

/-- A granted write of the shadow region. -/
theorem writeReg_shadow {s : State} {who : Who} {p off : Nat} {v : Word} (h : MayWrite s who p off) (h4 : off % 4 = 0)
    (hs : 0x800 ≤ off) : writeReg s who p off v = { shadowWrite s p off v with ans := none } := by
  have hi : vltIface off = false := by
    simp only [vltIface, Bool.or_eq_false_iff, Bool.and_eq_false_iff, decide_eq_false_iff_not]
    omega
  rw [writeReg_of h h4 (fun _ => hi), pageWriteGo, if_neg (by omega), if_neg (by omega)]
  rfl

/-- R44, R49: on a locked page and during a commit a shadow write is rejected. -/
theorem shadowWrite_locked {s : State} {p off : Nat} {v : Word} (h : isSet s p H.LOCKED = true ∨ getF s p H.CST ≠ 0) :
    shadowWrite s p off v = werr s p off := by
  rw [shadowWrite, if_pos (by simpa using h)]

/-- R39: a word without a field takes nothing. -/
theorem shadowWrite_reserved {s : State} {p off : Nat} {v : Word} (hl : isSet s p H.LOCKED = false)
    (hc : getF s p H.CST = 0) (hf : (fieldsAt p off).isEmpty = true) : shadowWrite s p off v = s := by
  simp [shadowWrite, hl, hc, hf]

/-- A word without a field has no RWL bits. -/
theorem rwlMask_of_isEmpty {p off : Nat} (h : (fieldsAt p off).isEmpty = true) : rwlMask p off = 0 := by
  rw [rwlMask, accMask, List.isEmpty_iff.mp h]
  rfl

/-- R36: a change of an RWL field of an enabled page is rejected. -/
theorem shadowWrite_rwl {s : State} {p off : Nat} {v : Word} (he : enabled s p = true)
    (hm : (rd s p off ^^^ v) &&& rwlMask p off ≠ 0) : shadowWrite s p off v = werr s p off := by
  have hf : ¬ (fieldsAt p off).isEmpty = true := fun h => hm (by simp [rwlMask_of_isEmpty h])
  have hr : (enabled s p && decide ((rd s p off ^^^ v) &&& rwlMask p off ≠ 0)) = true := by simpa [he] using hm
  rw [shadowWrite, if_neg hf, if_pos hr, ite_self]

/-- R36: every other write of a shadow word is stored. -/
theorem shadowWrite_stores {s : State} {p off : Nat} {v : Word} (hl : isSet s p H.LOCKED = false)
    (hc : getF s p H.CST = 0) (hf : (fieldsAt p off).isEmpty = false)
    (hm : enabled s p = true → (rd s p off ^^^ v) &&& rwlMask p off = 0) : shadowWrite s p off v = wr s p off v := by
  have hr : ¬ (enabled s p && decide ((rd s p off ^^^ v) &&& rwlMask p off ≠ 0)) = true := by
    simpa using hm
  simp only [shadowWrite]
  rw [if_neg (by simp [hl, hc]), if_neg (by simp [hf]), if_neg hr]

/-! ### Rejected writes (02 Table 4) -/

/-- Different words of the register pages have different keys. -/
theorem rkey_ne {p q off o : Nat} (hoff : off < 4096) (ho : o < 4096) (h : q ≠ p ∨ o / 4 ≠ off / 4) :
    rkey q o ≠ rkey p off := by
  unfold rkey
  omega

/-- A rejected write sets WERR. -/
theorem isSet_werr {s : State} {p off : Nat} (h : storeWf regReset s.regs = true) :
    isSet (werr s p off) p H.WERR = true :=
  isSet_setFlag_same (setF_wf h) rfl (by decide)

/-- FOFF names the word whose write was rejected. -/
theorem getF_werr_foff {s : State} {p off : Nat} (h : storeWf regReset s.regs = true) (ho : off < 4096) :
    getF (werr s p off) p H.FOFF = off / 4 := by
  have hw : getF (werr s p off) p H.FOFF = getF (setF s p H.FOFF (off / 4)) p H.FOFF :=
    getF_setF_bits (setF_wf h) rfl (by decide) (by decide) (by decide) (by decide)
  rw [hw, getF_setF_same h (by decide) (by decide)]
  exact Nat.mod_eq_of_lt (by simp only [H.FOFF]; omega)

/-- A rejected write changes no word but PSTAT. -/
theorem rd_werr_ne {s : State} {p off q o : Nat} (h : storeWf regReset s.regs = true) (ho : o < 4096)
    (hk : q ≠ p ∨ o / 4 ≠ 2) : rd (werr s p off) q o = rd s q o := by
  have hne : rkey q o ≠ rkey p 0x008 := rkey_ne (by omega) ho hk
  rw [werr, rd_setFlag_ne (setF_wf h) hne, rd_setF_ne h hne]

/-- What a rejected write of a register leaves, its answer included. -/
theorem answers_werr {c : Instr} {s : State} {p off : Nat} (h : storeWf regReset s.regs = true) (ho : off < 4096)
    (he : exec c s = done s { werr s p off with ans := none }) :
    Answers c s fun u => isSet u p H.WERR = true ∧ getF u p H.FOFF = off / 4 ∧ u.ans = none ∧ u.applied = s.applied ∧
      u.mem = s.mem ∧ ∀ q o, o < 4096 → (q ≠ p ∨ o / 4 ≠ 2) → rd u q o = rd s q o :=
  .of_done he ⟨isSet_werr h, getF_werr_foff h ho, rfl, rfl, rfl, fun _ _ ho' hk => rd_werr_ne h ho' hk⟩

/-! ### REGISTER_WRITE -/

/-- REGISTER_WRITE ends with the write at its address. -/
theorem exec_registerWrite (s : State) (who : Who) (a : Word) (size : AccSize) (v : Word) :
    exec (.registerWrite who a size v) s = done s (storeAccess s who a.toNat size v) := rfl

/-- REGISTER_WRITE of a word at a register's address ends with the write of that register. -/
theorem exec_registerWrite_page (s : State) (who : Who) {p off : Nat} (v : Word) (hp : p < 256) (ho : off < 4096)
    (h4 : off % 4 = 0) :
    exec (.registerWrite who (BitVec.ofNat 32 (pageAddr p off)) .word v) s = done s (writeReg s who p off v) := by
  rw [exec_registerWrite, pageAddr_toNat hp ho, storeAccess_pageAddr s who v hp ho h4]

/-- A granted REGISTER_WRITE of the shadow region ends with the write of the shadow word. -/
theorem exec_registerWrite_shadow {s : State} {who : Who} {p off : Nat} (v : Word) (hm : MayWrite s who p off)
    (hp : p < 256) (ho : off < 4096) (h4 : off % 4 = 0) (hs : 0x800 ≤ off) :
    exec (.registerWrite who (BitVec.ofNat 32 (pageAddr p off)) .word v) s =
      done s { shadowWrite s p off v with ans := none } := by
  rw [exec_registerWrite_page s who v hp ho h4, writeReg_shadow hm h4 hs]

/-- REGISTER_WRITE that the bus turns away gets a bus error and changes nothing else. -/
theorem answers_registerWrite_err {s : State} {who : Who} {a : Word} {size : AccSize} {v : Word}
    (h : storeAccess s who a.toNat size v = { s with ans := some .err }) :
    Answers (.registerWrite who a size v) s fun u => u = { s with ans := some .err } :=
  .of_done (exec_registerWrite s who a size v) h

/-- Settles O50: a register's address leads to `shadowWrite`, any other to the place that the address map names. -/
theorem registerWrites : Obligations.RegisterWrites := by
  intro s who p off size a v hcanon
  have hregs := hcanon.regs
  refine ⟨?stored, ?locked, ?rwl, ?noField, ?sram, ?misaligned, ?narrow, ?reservedPage, ?rom, ?outside, ?stands⟩
  case stored =>
    intro hm hp ho h4 hs hl hc hf hrwl
    refine .of_done (exec_registerWrite_shadow v hm hp ho h4 hs) ?_
    rw [shadowWrite_stores hl hc hf hrwl]
    exact ⟨rd_wr_same hregs, rfl, rfl, rfl, fun q o ho' hk => rd_wr_ne hregs (rkey_ne ho ho' hk)⟩
  case locked =>
    intro hm hp ho h4 hs hl
    exact answers_werr hregs ho (shadowWrite_locked hl ▸ exec_registerWrite_shadow v hm hp ho h4 hs)
  case rwl =>
    intro hm hp ho h4 hs he hx
    exact answers_werr hregs ho (shadowWrite_rwl he hx ▸ exec_registerWrite_shadow v hm hp ho h4 hs)
  case noField =>
    intro hm hp ho h4 hs hl hc hf
    refine .of_done (exec_registerWrite_shadow v hm hp ho h4 hs) ?_
    rw [shadowWrite_reserved hl hc hf]
  case sram =>
    intro hr hs hg h1 h2 ha
    have hlen : ((wordBytes v).take (accBytes size)).length = accBytes size := by cases size <;> rfl
    refine .of_done (exec_registerWrite s who a size v) ?_
    rw [storeAccess_sram hr hs hg h1 h2 ha]
    refine ⟨?_, fun x hx => memGet_setList_out hcanon.mem (by rwa [hlen]), rfl, rfl, rfl, rfl⟩
    have hread := memGetList_setList (a := a.toNat) (bs := (wordBytes v).take (accBytes size)) hcanon.mem
    rwa [hlen] at hread
  case misaligned =>
    intro hr ha
    exact answers_registerWrite_err (storeAccess_misaligned hr ha)
  case narrow =>
    intro hr hs h1 h2 hz _
    have hw : writeWaits s who a.toNat = false := by
      rw [writeWaits_eq_accessStands (by simp [place_page who h1 h2]), hs]
    exact answers_registerWrite_err (storeAccess_refused hr hw (busWrite_page_narrow h1 h2 hz))
  case reservedPage =>
    intro hr hs hp ho h4 hb
    have hc : pageStands s p = false := by rw [← accessStands_pageAddr s who hp ho, hs]
    refine .of_done (exec_registerWrite_page s who v hp ho h4) ?_
    rw [writeReg, crossing_of hr hc, pageWrite_reserved hb]
    rfl
  case rom =>
    intro hr hs h
    have hw : writeWaits s who a.toNat = false := by
      rw [writeWaits_eq_sysLost (by simp [place_rom who h]) (by simp [place_rom who h]), hs]
    exact answers_registerWrite_err (storeAccess_refused hr hw (busWrite_rom h))
  case outside =>
    intro hr hs h
    have hw : writeWaits s who a.toNat = false := by
      rw [writeWaits_eq_sysLost (by simp [place_above who h]) (by simp [place_above who h]), hs]
    exact answers_registerWrite_err (storeAccess_refused hr hw (busWrite_above h))
  case stands =>
    intro hr ha hs
    exact .of_done (exec_registerWrite s who a size v) (storeAccess_stands hr ha hs)

end Sys2Proof.Machine
end

section
/-! Writes on their way to AON, the clock monitors and PROT.CLR (01, R16, R25, R26, R34; 02, R59, R543; 03, R68, R72, R73). -/

namespace Sys2Proof.Machine

/-! ### Flags -/

/-- A field of another word is unchanged by a flag's write. -/
theorem getF_setFlag_key {s : State} {p q : Nat} {f g : Fld} {b : Bool} (h : storeWf regReset s.regs = true)
    (hk : rkey q g.off ≠ rkey p f.off) : getF (setFlag s p f b) q g = getF s q g := getF_setF_key h hk

/-- Another field of the same word is unchanged by a flag's write. -/
theorem getF_setFlag_bits {s : State} {p : Nat} {f g : Fld} {b : Bool} (h : storeWf regReset s.regs = true)
    (ho : g.off = f.off) (h1 : f.lo ≤ f.hi) (h2 : f.hi < 32) (hg : g.hi < f.lo ∨ f.hi < g.lo) (hg1 : g.lo ≤ g.hi) :
    getF (setFlag s p f b) p g = getF s p g := getF_setF_bits h ho h1 h2 hg hg1

/-! ### Writes that cross to AON (R25) -/

/-- A granted write of ACCTCLR waits behind the writes already on their way, while none of them is of ACCTCLR. -/
theorem writeReg_acctclr {s : State} {who : Who} {v : Word} (h : MayWrite s who 0x01 0x120)
    (hp : s.pmuPend.any (fun e => e.1 = 0x120) = false) :
    writeReg s who 0x01 0x120 v = { s with pmuPend := s.pmuPend ++ [(0x120, v)], ans := none } := by
  have hw : liveWrite s who 0x01 0x120 v = (pmuWrite s 0x120 v, true) := rfl
  rw [writeReg_live h rfl (by decide) (by decide) (by decide), hw]
  simp [answerW, pmuWrite, hp]

/-- A command that ends with a granted write of ACCTCLR leaves it waiting and changes no register and no memory. -/
theorem answers_acctclr {c : Instr} {s : State} {who : Who} {v : Word} (he : exec c s = done s (writeReg s who 0x01 0x120 v))
    (h : MayWrite s who 0x01 0x120) (hp : s.pmuPend.any (fun e => e.1 = 0x120) = false) :
    Answers c s fun u => u.pmuPend = s.pmuPend ++ [(0x120, v)] ∧ u.regs = s.regs ∧ u.mem = s.mem := by
  rw [writeReg_acctclr h hp] at he
  exact .of_done he ⟨rfl, rfl, rfl⟩

/-- ACCTCLR.REFUSE clears the count of refused Park entries and the last refuser (R68). -/
def acctRefuse (s : State) (v : Word) : State :=
  if bitOf v 0 then wr (setF s 0x01 R.PMU.REFUSE.COUNT 0) 0x01 0x118 0 else s

/-- ACCTCLR.FWAKE clears the count of false wakes and the last one (R72). -/
def acctFwake (s : State) (v : Word) : State :=
  if bitOf v 1 then setF (setF s 0x01 R.PMU.FWAKE.COUNT 0) 0x01 R.PMU.FWAKE.LAST 0 else s

/-- ACCTCLR.MASK clears the mask of the buses whose false wakes have masked them (R73). -/
def acctMask (s : State) (v : Word) : State := if bitOf v 2 then setF s 0x01 R.PMU.FWAKE.MASK 0 else s

/-- An oldest write of ACCTCLR takes effect by its three bits. -/
theorem pmuApply_acctclr {s : State} {v : Word} {rest : List (Nat × Word)} (h : s.pmuPend = (0x120, v) :: rest) :
    pmuApply s = acctMask (acctFwake (acctRefuse { s with pmuPend := rest } v) v) v := by
  simp [pmuApply, h, acctMask, acctFwake, acctRefuse]

/-- An oldest write of KEEP shows its bit; a set one reloads the idle count. -/
theorem pmuApply_keep {s : State} {v : Word} {rest : List (Nat × Word)} (h : s.pmuPend = (0x100, v) :: rest) :
    pmuApply s = (let t := setFlag { s with pmuPend := rest } 0x01 R.PMU.KEEP.HOSTKA (bitOf v 0)
      if bitOf v 0 then idleReload t else t) := by
  simp [pmuApply, h]

@[simp] theorem acctRefuse_pmuPend (s : State) (v : Word) : (acctRefuse s v).pmuPend = s.pmuPend := by
  unfold acctRefuse; split <;> rfl

@[simp] theorem acctFwake_pmuPend (s : State) (v : Word) : (acctFwake s v).pmuPend = s.pmuPend := by
  unfold acctFwake; split <;> rfl

@[simp] theorem acctMask_pmuPend (s : State) (v : Word) : (acctMask s v).pmuPend = s.pmuPend := by
  unfold acctMask; split <;> rfl

section
variable {s : State} {v : Word} (h : storeWf regReset s.regs = true)
include h

theorem acctRefuse_wf : storeWf regReset (acctRefuse s v).regs = true := by
  unfold acctRefuse
  split
  · exact wr_wf (setF_wf h)
  · exact h

theorem acctFwake_wf : storeWf regReset (acctFwake s v).regs = true := by
  unfold acctFwake
  split
  · exact setF_wf (setF_wf h)
  · exact h

theorem acctRefuse_count (hv : bitOf v 0 = true) : getF (acctRefuse s v) 0x01 R.PMU.REFUSE.COUNT = 0 := by
  rw [acctRefuse, if_pos hv, getF_wr_key (setF_wf h) (by decide), getF_setF_same h (by decide) (by decide)]
  rfl

theorem acctFwake_count (hv : bitOf v 1 = true) : getF (acctFwake s v) 0x01 R.PMU.FWAKE.COUNT = 0 := by
  rw [acctFwake, if_pos hv, getF_setF_bits (f := R.PMU.FWAKE.LAST) (g := R.PMU.FWAKE.COUNT) (setF_wf h) rfl (by decide)
    (by decide) (by decide) (by decide), getF_setF_same h (by decide) (by decide)]
  rfl

theorem acctFwake_refuseCount : getF (acctFwake s v) 0x01 R.PMU.REFUSE.COUNT = getF s 0x01 R.PMU.REFUSE.COUNT := by
  unfold acctFwake
  split
  · rw [getF_setF_key (setF_wf h) (by decide), getF_setF_key h (by decide)]
  · rfl

theorem acctMask_mask (hv : bitOf v 2 = true) : getF (acctMask s v) 0x01 R.PMU.FWAKE.MASK = 0 := by
  rw [acctMask, if_pos hv, getF_setF_same h (by decide) (by decide)]
  rfl

theorem acctMask_refuseCount : getF (acctMask s v) 0x01 R.PMU.REFUSE.COUNT = getF s 0x01 R.PMU.REFUSE.COUNT := by
  unfold acctMask
  split
  · exact getF_setF_key h (by decide)
  · rfl

theorem acctMask_fwakeCount : getF (acctMask s v) 0x01 R.PMU.FWAKE.COUNT = getF s 0x01 R.PMU.FWAKE.COUNT := by
  unfold acctMask
  split
  · exact getF_setF_bits h rfl (by decide) (by decide) (by decide) (by decide)
  · rfl

/-- A reload of the idle count leaves KEEP as it is. -/
theorem isSet_idleReload_keep : isSet (idleReload s) 0x01 R.PMU.KEEP.HOSTKA = isSet s 0x01 R.PMU.KEEP.HOSTKA := by
  unfold isSet idleReload
  rw [getF_setF_key h (by decide)]

end

/-! ### The return of the SYS clock (R26, R543) -/

/-- The levels of the fault sources and the configuration in force stay as they are. -/
structure KeepsLevels (s t : State) : Prop where
  flt : t.flt = s.flt
  applied : t.applied = s.applied

namespace KeepsLevels

theorem refl (s : State) : KeepsLevels s s := ⟨rfl, rfl⟩

theorem trans {s t u : State} (h : KeepsLevels s t) (h' : KeepsLevels t u) : KeepsLevels s u :=
  ⟨h'.flt.trans h.flt, h'.applied.trans h.applied⟩

/-- What each step of a fold keeps, the fold keeps. -/
theorem foldl {α : Type} {f : State → α → State} (h : ∀ s a, KeepsLevels s (f s a)) (l : List α) (s : State) :
    KeepsLevels s (l.foldl f s) :=
  List.foldlRecOn l f (motive := KeepsLevels s) (refl s) fun t ht a _ => ht.trans (h t a)

end KeepsLevels

theorem pendLine_keepsLevels (s : State) (p k : Nat) : KeepsLevels s (pendLine s p k) := by
  unfold pendLine
  dsimp only
  split <;> exact ⟨rfl, rfl⟩

theorem lineMerge_keepsLevels (s : State) (k : Nat) : KeepsLevels s (lineMerge s k) := by
  unfold lineMerge
  dsimp only
  split <;> exact ⟨rfl, rfl⟩

theorem tbsEventCapture_keepsLevels (s : State) (k : Nat) : KeepsLevels s (tbsEventCapture s k) := by
  unfold tbsEventCapture
  split
  · exact .refl s
  · split <;> exact ⟨rfl, rfl⟩

theorem dmaTrigger_keepsLevels (s : State) (c : Nat) : KeepsLevels s (dmaTrigger s c) := by
  unfold dmaTrigger
  split
  · split <;> exact ⟨rfl, rfl⟩
  · split
    · split <;> exact ⟨rfl, rfl⟩
    · exact .refl s

/-- The raise of an event line, merged, held back or delivered to the cores, TBS and DMA, asserts no level. -/
theorem raiseLine_keepsLevels (s : State) (k : Nat) : KeepsLevels s (raiseLine s k) := by
  have hdma (s : State) (c : Nat) : KeepsLevels s (if cfg s 0x0F (R.DMA.CFG.TRIG c) = k then dmaTrigger s c else s) := by
    split
    · exact dmaTrigger_keepsLevels s c
    · exact .refl s
  unfold raiseLine
  split
  · exact .refl s
  · split
    · split
      · exact lineMerge_keepsLevels s k
      · exact ⟨rfl, rfl⟩
    · split
      · exact lineMerge_keepsLevels s k
      · refine ((KeepsLevels.trans ?crossed (.foldl (fun s p => pendLine_keepsLevels s p k) _ _)).trans
          (tbsEventCapture_keepsLevels _ k)).trans (.foldl hdma _ _)
        split <;> exact ⟨rfl, rfl⟩

theorem streamPut_keepsLevels (s : State) (j src : Nat) (w : Word) : KeepsLevels s (streamPut s j src w) := by
  unfold streamPut
  split
  · exact .refl s
  · dsimp only
    split <;> exact ⟨rfl, rfl⟩

theorem streamOut_keepsLevels (s : State) (src : Nat) (w : Word) : KeepsLevels s (streamOut s src w) :=
  .foldl (fun s j => streamPut_keepsLevels s j src w) _ s

/-- A level released stands no more. -/
theorem releaseLevel_contains (s : State) (id : Nat) : (releaseLevel s id).flt.level.contains id = false := by
  simp

/-- What the return of the SYS clock delivers asserts no level, and applies no configuration. -/
theorem clkSysBack_keepsLevels {s : State} (h : sysLost s = true) : KeepsLevels (releaseLevel s 32) (clkSysBack s) := by
  have hraise (held : Nat) (s : State) (k : Nat) : KeepsLevels s (if held.testBit k then raiseLine s k else s) := by
    split
    · exact raiseLine_keepsLevels s k
    · exact .refl s
  have hstream (s : State) (e : Nat × Word) : KeepsLevels s (streamOut s e.1 e.2) := streamOut_keepsLevels s e.1 e.2
  have hempty : KeepsLevels (releaseLevel s 32) { releaseLevel s 32 with lineHeld := 0, msqFifo := [] } := ⟨rfl, rfl⟩
  have hlines := hempty.trans (.foldl (hraise (releaseLevel s 32).lineHeld) (List.range 64) _)
  rw [clkSysBack, if_neg (by simp [h])]
  exact hlines.trans (.foldl hstream (releaseLevel s 32).msqFifo _)

/-- After the return of the SYS clock its level stands no more. -/
theorem clkSysBack_level (s : State) : (clkSysBack s).flt.level.contains 32 = false := by
  by_cases h : sysLost s = true
  · rw [(clkSysBack_keepsLevels h).flt]
    exact releaseLevel_contains s 32
  · rw [clkSysBack, if_pos (by simpa using h)]
    exact Bool.eq_false_of_not_eq_true h

theorem clkSysBack_applied (s : State) : (clkSysBack s).applied = s.applied := by
  by_cases h : sysLost s = true
  · exact (clkSysBack_keepsLevels h).applied
  · rw [clkSysBack, if_pos (by simpa using h)]

/-- Where nothing waits in the crossings the return of the SYS clock only releases its level. -/
theorem clkSysBack_idle {s : State} (hl : s.lineHeld = 0) (hf : s.msqFifo = []) :
    clkSysBack s = if sysLost s then { releaseLevel s 32 with lineHeld := 0, msqFifo := [] } else s := by
  cases h : sysLost s
  · simp [clkSysBack, h]
  · simp [clkSysBack, h, hl, hf, List.foldl_fixed]

/-! ### Operations that write one page -/

/-- `t` differs from `s` in registers of page `p` alone, and sources that wait to be collected go on waiting; of the rest of the state
nothing is said. -/
structure WritesPage (p : Nat) (s t : State) : Prop where
  wf : storeWf regReset t.regs = true
  words : ∀ q o, q ≠ p → o < 4096 → rd t q o = rd s q o
  due : ∀ d ∈ s.due, d ∈ t.due

namespace WritesPage
variable {p : Nat} {s t u : State}

theorem refl (h : storeWf regReset s.regs = true) : WritesPage p s s := ⟨h, fun _ _ _ _ => rfl, fun _ => id⟩

theorem trans (h : WritesPage p s t) (h' : WritesPage p t u) : WritesPage p s u :=
  ⟨h'.wf, fun q o hq ho => (h'.words q o hq ho).trans (h.words q o hq ho), fun d hd => h'.due d (h.due d hd)⟩

theorem wr (h : WritesPage p s t) {off : Nat} (ho : off < 4096) (w : Word) : WritesPage p s (wr t p off w) :=
  h.trans ⟨wr_wf h.wf, fun _ _ hq ho' => rd_wr_ne h.wf (rkey_ne ho ho' (.inl hq)), fun _ => id⟩

theorem setF (h : WritesPage p s t) {f : Fld} (ho : f.off < 4096) (v : Nat) : WritesPage p s (setF t p f v) := h.wr ho _

theorem raiseP (h : WritesPage p s t) (q b : Nat) : WritesPage p s (raiseP t q b) :=
  h.trans ⟨h.wf, fun _ _ _ _ => rfl, fun d hd => by simp [hd]⟩

/-- What each step of a fold writes, the fold writes. -/
theorem foldl {α : Type} {f : State → α → State} {l : List α} (h : WritesPage p s t)
    (hf : ∀ u, WritesPage p s u → ∀ a ∈ l, WritesPage p s (f u a)) : WritesPage p s (l.foldl f t) :=
  List.foldlRecOn l f h hf

end WritesPage

/-! ### The end of a window of the clock monitors (R34, R520) -/

section
variable {s t : State}

theorem WritesPage.sprEntry (h : WritesPage 0x9A s t) (kind what : Nat) : WritesPage 0x9A s (sprEntry t kind what) := by
  unfold Machine.sprEntry
  exact ((h.foldl fun u hu i hi => hu.wr (by rw [List.mem_range] at hi; omega) _).wr (by decide) _).setF (by decide) _

theorem WritesPage.sprShow (h : WritesPage 0x9A s t) : WritesPage 0x9A s (sprShow t) := by
  unfold Machine.sprShow
  refine (((h.setF (by decide) _).setF (by decide) _).setF (by decide) _).foldl fun u hu w hw => hu.setF ?_ _
  rw [List.mem_range] at hw
  simp only [R.SPR.SEGUSE.USE]
  omega

/-- The spare RC's coming into use, or its log without one, writes SPR's page. -/
theorem WritesPage.sprRc (h : WritesPage 0x9A s t) (k : Nat) : WritesPage 0x9A s (sprRc t k) := by
  unfold Machine.sprRc
  split
  · exact (h.sprEntry _ _).raiseP _ _
  · have hc : WritesPage 0x9A t { t with spr := { t.spr with rc := some k } } := ⟨h.wf, fun _ _ _ _ => rfl, fun _ => id⟩
    exact (((h.trans hc).sprShow).sprEntry _ _).raiseP _ _

theorem WritesPage.sprExhaust (h : WritesPage 0x9A s t) (kind : Nat) : WritesPage 0x9A s (sprExhaust t kind) :=
  (h.setF (by decide) _).raiseP _ _

/-- The spare's part in a disagreement of the RCs: SPR's page, and then at most CLK.STAT.RCSPARE. -/
theorem clkSpare_cases (h : storeWf regReset s.regs = true) (aBad bBad : Bool) :
    ∃ t, WritesPage 0x9A s t ∧ (clkSpare s aBad bBad = t ∨ ∃ b, clkSpare s aBad bBad = setFlag t 0x02 R.CLK.STAT.RCSPARE b) := by
  have h0 := WritesPage.refl (p := 0x9A) h
  unfold clkSpare
  split
  · exact ⟨_, h0.raiseP _ _, .inl rfl⟩
  · split
    · exact ⟨_, h0.sprExhaust _, .inl rfl⟩
    · exact ⟨_, h0.sprRc _, .inr ⟨_, rfl⟩⟩

/-- Sources that wait to be collected go on waiting. -/
theorem clkSpare_due (h : storeWf regReset s.regs = true) {aBad bBad : Bool} {d : Due} (hd : d ∈ s.due) :
    d ∈ (clkSpare s aBad bBad).due := by
  obtain ⟨t, ht, he | ⟨b, he⟩⟩ := clkSpare_cases h aBad bBad <;> rw [he]
  · exact ht.due d hd
  · exact ht.due d hd

/-- CLK's fields outside bit 4 of STAT stay as they are. -/
theorem clkSpare_getF (h : storeWf regReset s.regs = true) {aBad bBad : Bool} {g : Fld} (ho : g.off < 4096)
    (hg : g.off / 4 ≠ 0x40 ∨ g.off = 0x100 ∧ (g.hi < 4 ∨ 4 < g.lo) ∧ g.lo ≤ g.hi) :
    getF (clkSpare s aBad bBad) 0x02 g = getF s 0x02 g := by
  obtain ⟨t, ht, he⟩ := clkSpare_cases h aBad bBad
  have hts : getF t 0x02 g = getF s 0x02 g := by
    unfold getF
    rw [ht.words 0x02 g.off (by decide) ho]
  rcases he with he | ⟨b, he⟩ <;> rw [he]
  · exact hts
  · rw [← hts]
    rcases hg with hw | ⟨hw, hb, hl⟩
    · exact getF_setFlag_key ht.wf (rkey_ne (by decide) ho (.inr hw))
    · exact getF_setFlag_bits ht.wf hw (by decide) (by decide) hb hl

end

/-- The counts and flags of CLK at the end of a window (R34). -/
def clkCounts (s : State) (cnt diff : BitVec 16) : State :=
  setFlag (setF
    (setFlag (setF s 0x02 R.CLK.BUSCNT.CNT cnt.toNat) 0x02 R.CLK.STAT.BUSFAIL
      (decide (cnt.toNat < 7920) || decide (8080 < cnt.toNat)))
    0x02 R.CLK.RCDIFF.DIFF diff.toNat) 0x02 R.CLK.STAT.RCFAIL (decide (80 < diff.toInt.natAbs))

/-- The source that the BUS count of a window raises. -/
def clkBus (s : State) (cnt : BitVec 16) : State :=
  if cnt.toNat < 7920 ∨ 8080 < cnt.toNat then raise s 34 else s

/-- The end of a window: the counts, BUSCLK, then PWRRC with the spare. -/
theorem clkWindow_eq {s : State} (h : running s = true) (cnt diff : BitVec 16) (aBad bBad : Bool) :
    clkWindow s cnt diff aBad bBad = if 80 < diff.toInt.natAbs
      then clkSpare (raise (clkBus (clkCounts s cnt diff) cnt) 33) aBad bBad else clkBus (clkCounts s cnt diff) cnt := by
  simp [clkWindow, h, clkBus, clkCounts]

@[simp] theorem clkBus_regs (s : State) (cnt : BitVec 16) : (clkBus s cnt).regs = s.regs := by
  unfold clkBus; split <;> rfl

theorem clkBus_getF (s : State) (cnt : BitVec 16) (g : Fld) : getF (clkBus s cnt) 0x02 g = getF s 0x02 g := by
  unfold getF rd
  rw [clkBus_regs]

/-- BUS clocks outside ±1 % raise BUSCLK. -/
theorem clkBus_raises (s : State) {cnt : BitVec 16} (h : cnt.toNat < 7920 ∨ 8080 < cnt.toNat) : Raises (clkBus s cnt) 34 := by
  rw [clkBus, if_pos h]
  exact ⟨⟨34, false, []⟩, by simp, rfl⟩

section
variable {s : State} {cnt diff : BitVec 16}

theorem clkCounts_wf (h : storeWf regReset s.regs = true) : storeWf regReset (clkCounts s cnt diff).regs = true :=
  setFlag_wf (setF_wf (setFlag_wf (setF_wf h)))

theorem clkCounts_busCnt (h : storeWf regReset s.regs = true) :
    getF (clkCounts s cnt diff) 0x02 R.CLK.BUSCNT.CNT = cnt.toNat := by
  rw [clkCounts, getF_setFlag_key (setF_wf (setFlag_wf (setF_wf h))) (by decide),
    getF_setF_key (setFlag_wf (setF_wf h)) (by decide), getF_setFlag_key (setF_wf h) (by decide),
    getF_setF_same h (by decide) (by decide)]
  exact Nat.mod_eq_of_lt cnt.isLt

theorem clkCounts_rcDiff (h : storeWf regReset s.regs = true) :
    getF (clkCounts s cnt diff) 0x02 R.CLK.RCDIFF.DIFF = diff.toNat := by
  rw [clkCounts, getF_setFlag_key (setF_wf (setFlag_wf (setF_wf h))) (by decide),
    getF_setF_same (setFlag_wf (setF_wf h)) (by decide) (by decide)]
  exact Nat.mod_eq_of_lt diff.isLt

theorem clkCounts_busFail (h : storeWf regReset s.regs = true) :
    isSet (clkCounts s cnt diff) 0x02 R.CLK.STAT.BUSFAIL = true ↔ cnt.toNat < 7920 ∨ 8080 < cnt.toNat := by
  rw [isSet, clkCounts, getF_setFlag_bits (f := R.CLK.STAT.RCFAIL) (g := R.CLK.STAT.BUSFAIL)
      (setF_wf (setFlag_wf (setF_wf h))) rfl (by decide) (by decide) (by decide) (by decide),
    getF_setF_key (setFlag_wf (setF_wf h)) (by decide), ← isSet, isSet_setFlag_same (setF_wf h) rfl (by decide)]
  simp

theorem clkCounts_rcFail (h : storeWf regReset s.regs = true) :
    isSet (clkCounts s cnt diff) 0x02 R.CLK.STAT.RCFAIL = true ↔ 80 < diff.toInt.natAbs := by
  rw [clkCounts, isSet_setFlag_same (setF_wf (setFlag_wf (setF_wf h))) rfl (by decide), decide_eq_true_eq]

/-- What the window does after its counts leaves CLK's fields outside RCSPARE as they are. -/
theorem clkWindow_getF (hr : running s = true) (h : storeWf regReset s.regs = true) {aBad bBad : Bool} {g : Fld}
    (ho : g.off < 4096) (hg : g.off / 4 ≠ 0x40 ∨ g.off = 0x100 ∧ (g.hi < 4 ∨ 4 < g.lo) ∧ g.lo ≤ g.hi) :
    getF (clkWindow s cnt diff aBad bBad) 0x02 g = getF (clkCounts s cnt diff) 0x02 g := by
  rw [clkWindow_eq hr]
  split
  · rw [clkSpare_getF (by simpa using clkCounts_wf h) ho hg]
    exact clkBus_getF _ _ _
  · exact clkBus_getF _ _ _

theorem clkWindow_raises_bus (hr : running s = true) (h : storeWf regReset s.regs = true) {aBad bBad : Bool}
    (hb : cnt.toNat < 7920 ∨ 8080 < cnt.toNat) : Raises (clkWindow s cnt diff aBad bBad) 34 := by
  obtain ⟨d, hd, hid⟩ := clkBus_raises (clkCounts s cnt diff) hb
  rw [clkWindow_eq hr]
  split
  · exact ⟨d, clkSpare_due (by simpa using clkCounts_wf h) (by simp [hd]), hid⟩
  · exact ⟨d, hd, hid⟩

theorem clkWindow_raises_rc (hr : running s = true) (h : storeWf regReset s.regs = true) {aBad bBad : Bool}
    (hb : 80 < diff.toInt.natAbs) : Raises (clkWindow s cnt diff aBad bBad) 33 := by
  rw [clkWindow_eq hr, if_pos hb]
  exact ⟨⟨33, false, []⟩, clkSpare_due (by simpa using clkCounts_wf h) (by simp), rfl⟩

end

/-! ### PROT.CLR (R59) -/

/-- A granted write of PROT.CLR.REC clears the record and the count of refusals. -/
theorem writeReg_protClr {s : State} {who : Who} (h : MayWrite s who 0x05 0x10C) :
    writeReg s who 0x05 0x10C 1 = { setF (wr s 0x05 0x100 0) 0x05 R.PROT.RCNT.CNT 0 with ans := none } := by
  rw [writeReg_live h rfl (by decide) (by decide) (by decide)]
  rfl

/-! ### The commands -/

/-- A command of a running device ends with its effect. -/
theorem done_powered {s : State} {f : State → State} (h : running s = true) : done s (powered s f) = done s (f s) := by
  rw [powered_of h]

/-- PMU_WRITE_APPLY of a device with power ends with the oldest write's effect. -/
theorem exec_pmuWriteApply {s : State} (h : s.mode ≠ .off) : exec .pmuWriteApply s = done s (pmuApply s) := by
  show done s (if s.mode = .off then s else pmuApply s) = _
  rw [if_neg h]

/-- Settles O13: each clause runs its command down to the lemma that says what the write, the crossing or the monitor leaves. -/
theorem clockAndPmu : Obligations.ClockAndPmu := by
  intro s who bus rc aBad bBad hcanon
  have hregs := hcanon.regs
  refine ⟨?mask, ?fwake, ?refuse, ?applyAcctclr, ?applyKeep, ?loss, ?back, ?backIdle, ?window, ?protClr⟩
  case mask => exact answers_acctclr rfl
  case fwake => exact answers_acctclr rfl
  case refuse => exact answers_acctclr rfl
  case applyAcctclr =>
    intro v rest hm hp
    have h0 : storeWf regReset { s with pmuPend := rest }.regs = true := hregs
    have h1 := acctRefuse_wf (v := v) h0
    have h2 := acctFwake_wf (v := v) h1
    refine .of_done (exec_pmuWriteApply hm) ?_
    rw [pmuApply_acctclr hp]
    refine ⟨by simp, fun hv => ?_, fun hv => ?_, acctMask_mask h2⟩
    · rw [acctMask_refuseCount h2, acctFwake_refuseCount h1, acctRefuse_count h0 hv]
    · rw [acctMask_fwakeCount h2, acctFwake_count h1 hv]
  case applyKeep =>
    intro v rest hm hp
    have h0 : storeWf regReset { s with pmuPend := rest }.regs = true := hregs
    have hkeep := isSet_setFlag_same (p := 0x01) (f := R.PMU.KEEP.HOSTKA) (b := bitOf v 0) h0 rfl (by decide)
    refine .of_done (exec_pmuWriteApply hm) ?_
    rw [pmuApply_keep hp]
    dsimp only
    split
    · exact ⟨rfl, (isSet_idleReload_keep (setFlag_wf h0)).trans hkeep⟩
    · exact ⟨rfl, hkeep⟩
  case loss =>
    intro hr hl
    have he : clkSysLoss s = raise { s with flt := { s.flt with level := s.flt.level ++ [32] } } 32 := by
      rw [clkSysLoss, if_pos hr, assertLevel, if_neg (ne_true_of_eq_false hl)]
    refine .of_done (done_powered hr) ?_
    rw [he]
    exact ⟨rfl, ⟨⟨32, false, []⟩, by simp, rfl⟩, rfl⟩
  case back =>
    intro hr
    exact .of_done (done_powered hr) ⟨clkSysBack_level s, clkSysBack_applied s⟩
  case backIdle =>
    intro hr hl hf
    refine .of_done (done_powered hr) ⟨clkSysBack_level s, ?_⟩
    rw [clkSysBack_idle hl hf]
    split <;> exact ⟨rfl, rfl, rfl⟩
  case window =>
    intro hr
    have hget {g : Fld} := clkWindow_getF (cnt := bus) (diff := rc) (aBad := aBad) (bBad := bBad) (g := g) hr hregs
    refine .of_done (done_powered hr) ⟨?_, ?_, ?_, ?_, clkWindow_raises_bus hr hregs, clkWindow_raises_rc hr hregs⟩
    · rw [hget (by decide) (by decide), clkCounts_busCnt hregs]
    · rw [hget (by decide) (by decide), clkCounts_rcDiff hregs]
    · rw [isSet, hget (by decide) (by decide)]
      exact clkCounts_busFail hregs
    · rw [isSet, hget (by decide) (by decide)]
      exact clkCounts_rcFail hregs
  case protClr =>
    intro hm
    refine .of_done rfl ?_
    rw [writeReg_protClr hm]
    have hw := wr_wf (p := 0x05) (off := 0x100) (w := 0) hregs
    exact ⟨(rd_setF_ne hw (by decide)).trans (rd_wr_same hregs), getF_setF_same hw (by decide) (by decide), rfl, rfl⟩

end Sys2Proof.Machine
end

section
/-! Refused accesses and the writes of the holder of C (02, R40, R53, R59). -/

-- One proof after another: side by side they start more threads than the memory limit of the check has room for.
set_option Elab.async false

namespace Sys2Proof.Machine

/-! ### The record of a refusal (R59) -/

/-- A count that saturates stays within its bound. -/
theorem satInc_le (top n : Nat) : satInc top n ≤ top := by
  unfold satInc
  split <;> omega

/-- The word of PROT.RSTAT for a refusal: VALID, KIND, WR, RADDR and PAGE (02, PROT registers). -/
def refusalWord (who : Who) (wrt : Bool) (page : Nat) : Word :=
  BitVec.ofNat 32 (2 ^ 31 + whoKind who * 2 ^ 28 + wrt.toNat * 2 ^ 27 + whoAddr who * 2 ^ 10 + page)

theorem whoKind_lt (who : Who) : whoKind who < 8 := by
  unfold whoKind
  split <;> decide

theorem whoAddr_lt (who : Who) : whoAddr who < 1024 := by
  cases who with
  | ring d => exact d.isLt
  | _ => decide

/-- The fields of the word of a refusal. -/
theorem fget_refusalWord (who : Who) (wrt : Bool) {page : Nat} (hp : page < 256) :
    fget (refusalWord who wrt page) R.PROT.RSTAT.VALID = 1 ∧ fget (refusalWord who wrt page) R.PROT.RSTAT.KIND = whoKind who ∧
      fget (refusalWord who wrt page) R.PROT.RSTAT.WR = wrt.toNat ∧
      fget (refusalWord who wrt page) R.PROT.RSTAT.RADDR = whoAddr who ∧
      fget (refusalWord who wrt page) R.PROT.RSTAT.PAGE = page := by
  have hk := whoKind_lt who
  have ha := whoAddr_lt who
  have hw := Bool.toNat_le wrt
  simp only [fget, refusalWord, R.PROT.RSTAT.VALID, R.PROT.RSTAT.KIND, R.PROT.RSTAT.WR, R.PROT.RSTAT.RADDR, R.PROT.RSTAT.PAGE,
    BitVec.toNat_ofNat, Nat.shiftRight_eq_div_pow]
  omega

/-- The count of refusals goes up by one. -/
def refusalCounted (s : State) : State := setF s 0x05 R.PROT.RCNT.CNT (satInc 65535 (getF s 0x05 R.PROT.RCNT.CNT))

section
variable {s : State} (h : storeWf regReset s.regs = true)
include h

theorem refusalCounted_count : getF (refusalCounted s) 0x05 R.PROT.RCNT.CNT = satInc 65535 (getF s 0x05 R.PROT.RCNT.CNT) := by
  rw [refusalCounted, getF_setF_same h (by decide) (by decide)]
  exact Nat.mod_eq_of_lt (Nat.lt_succ_of_le (satInc_le _ _))

theorem refusalCounted_valid : isSet (refusalCounted s) 0x05 R.PROT.RSTAT.VALID = isSet s 0x05 R.PROT.RSTAT.VALID := by
  rw [isSet, refusalCounted, getF_setF_key h (by decide), ← isSet]

theorem refusalCounted_rd {q o : Nat} (ho : o < 4096) (hk : q ≠ 5 ∨ o / 4 ≠ 0x42) : rd (refusalCounted s) q o = rd s q o :=
  rd_setF_ne h (rkey_ne (by decide) ho hk)

/-- A refusal while a record stands is only counted. -/
theorem protRefuse_later (hv : isSet s 0x05 R.PROT.RSTAT.VALID = true) (who : Who) (wrt : Bool) (p a : Nat) :
    protRefuse s who wrt p a = refusalCounted s := by
  rw [← refusalCounted_valid h] at hv
  exact if_pos hv

/-- The first refusal is counted and recorded, and raises REFUSED. -/
theorem protRefuse_first (hv : isSet s 0x05 R.PROT.RSTAT.VALID = false) (who : Who) (wrt : Bool) (p a : Nat) :
    protRefuse s who wrt p a = raiseP (wr (wr (refusalCounted s) 0x05 0x100 (refusalWord who wrt p)) 0x05 0x104
      (BitVec.ofNat 32 a)) 0x05 0 := by
  rw [← refusalCounted_valid h] at hv
  exact if_neg (ne_true_of_eq_false hv)

/-- What PROT does at a refusal, with the bus error, is a refusal as R53 and R59 say. -/
theorem refused_protRefuse (who : Who) (wrt : Bool) {p a : Nat} (hp : p < 256) (ha : a < 2 ^ 32) :
    Refused s { protRefuse s who wrt p a with ans := some .err } who wrt p a := by
  have hc : storeWf regReset (refusalCounted s).regs = true := setF_wf h
  by_cases hv : isSet s 0x05 R.PROT.RSTAT.VALID = true
  · rw [protRefuse_later h hv]
    exact ⟨rfl, refusalCounted_count h, fun hf => absurd (hv.symm.trans hf) (by decide),
      fun _ => ⟨refusalCounted_rd h (by decide) (by decide), refusalCounted_rd h (by decide) (by decide), rfl⟩,
      fun q o ho hk => refusalCounted_rd h ho (by omega), rfl⟩
  · rw [Bool.not_eq_true] at hv
    rw [protRefuse_first h hv]
    have hw := wr_wf (p := 0x05) (off := 0x100) (w := refusalWord who wrt p) hc
    have hstat : rd (wr (wr (refusalCounted s) 0x05 0x100 (refusalWord who wrt p)) 0x05 0x104 (BitVec.ofNat 32 a)) 0x05 0x100 =
        refusalWord who wrt p := (rd_wr_ne hw (by decide)).trans (rd_wr_same hc)
    obtain ⟨hvalid, hkind, hwr, hraddr, hpage⟩ := fget_refusalWord who wrt hp
    refine ⟨rfl, ?count,
      fun _ => ⟨?valid, ?kind, ?wr, ?raddr, ?page, ?addr, ⟨_, List.mem_append_right _ (List.mem_singleton_self _), rfl⟩⟩,
      fun ht => absurd (hv.symm.trans ht) (by decide), ?words, rfl⟩
    case count =>
      exact ((getF_wr_key hw (by decide)).trans (getF_wr_key hc (by decide))).trans (refusalCounted_count h)
    case valid => exact decide_eq_true (ne_of_eq_of_ne ((congrArg (fget · _) hstat).trans hvalid) (by decide))
    case kind => exact (congrArg (fget · _) hstat).trans hkind
    case wr =>
      refine (congrArg (fun n : Nat => decide (n ≠ 0)) ((congrArg (fget · _) hstat).trans hwr)).trans ?_
      cases wrt <;> rfl
    case raddr => exact (congrArg (fget · _) hstat).trans hraddr
    case page => exact (congrArg (fget · _) hstat).trans hpage
    case addr =>
      refine (getF_wr_same (g := R.PROT.RADDR.ADDR) hw).trans ?_
      simp only [fget, R.PROT.RADDR.ADDR, BitVec.toNat_ofNat]
      omega
    case words =>
      intro q o ho hk
      exact ((rd_wr_ne hw (rkey_ne (by decide) ho (by omega))).trans (rd_wr_ne hc (rkey_ne (by decide) ho (by omega)))).trans
        (refusalCounted_rd h ho (by omega))

end

/-! ### Accesses without the right (R53) -/

/-- A read without the R right, outside the vault's open interface, is PROT's. -/
theorem pageRead_refused {s : State} {who : Who} {p off a : Nat} (hr : running s = true) (hb : (blkOf p).isSome = true)
    (h4 : off % 4 = 0) (hv : ¬ (p = 6 ∧ vltIface off = true ∧ vltReach s who = true))
    (hn : (rightsOf s (whoKind who) p).testBit 0 = false) : pageRead s who p off a = (protRefuse s who false p a, none) := by
  have hb' : (blkOf p).isNone = false := by rw [← Option.not_isSome, hb]; rfl
  have hv' : ¬ (decide (p = 6) && vltIface off && vltReach s who) = true := by simpa [and_assoc] using hv
  simp only [pageRead, hr, hb', h4, hn, Bool.not_true, Bool.or_false, ne_eq, not_true_eq_false, decide_false, Bool.false_eq_true,
    if_false, if_neg hv', Bool.not_false, Bool.true_or, if_true]

/-- A write without the right it needs, outside the vault's open interface and the pair's AKICK, is PROT's. -/
theorem pageWrite_refused {s : State} {who : Who} {p off a : Nat} {v : Word} (hr : running s = true)
    (hb : (blkOf p).isSome = true) (h4 : off % 4 = 0) (hv : ¬ (p = 6 ∧ vltIface off = true ∧ vltReach s who = true))
    (hk : ¬ (p = 4 ∧ off = 0x108 ∧ who = .app)) (hn : (rightsOf s (whoKind who) p).testBit (writeRight off) = false) :
    pageWrite s who p off a v = (protRefuse s who true p a, false) := by
  have hb' : (blkOf p).isNone = false := by rw [← Option.not_isSome, hb]; rfl
  have hv' : ¬ (decide (p = 6) && vltIface off && vltReach s who) = true := by simpa [and_assoc] using hv
  have hk' : ¬ (decide (p = 4) && decide (off = 0x108) && decide (who = .app)) = true := by simpa [and_assoc] using hk
  simp only [pageWrite, hr, hb', h4, hn, Bool.not_true, Bool.or_false, ne_eq, not_true_eq_false, decide_false, Bool.false_eq_true,
    if_false, if_neg hv', if_neg hk', Bool.not_false, Bool.true_or, if_true]

theorem pageAddr_lt {p off : Nat} (hp : p < 256) (ho : off < 4096) : pageAddr p off < 2 ^ 32 := by
  unfold pageAddr
  omega

/-- A page of the device has an eight-bit number. -/
theorem page_lt_of_isSome {p : Nat} (h : (blkOf p).isSome = true) : p < 256 := by
  by_contra hp
  have hn : blkOf p = none := by
    unfold blkOf
    repeat rw [if_neg (by omega)]
  rw [hn] at h
  exact absurd h (by decide)

section
variable {s : State} {c : Instr} {who : Who} {p off : Nat} (h : storeWf regReset s.regs = true) (hr : running s = true)
  (hc : pageStands s p = false) (hb : (blkOf p).isSome = true) (ho : off < 4096) (h4 : off % 4 = 0)
include h hr hc hb ho h4

/-- A command that ends with a read without the R right is refused. -/
theorem answers_readReg_refused (he : exec c s = done s (readReg s who p off)) (hv : p ≠ 6)
    (hn : (rightsOf s (whoKind who) p).testBit 0 = false) :
    Answers c s fun u => Refused s u who false p (pageAddr p off) := by
  refine .of_done he ?_
  rw [readReg, crossing_of hr hc, pageRead_refused hr hb h4 (fun e => hv e.1) hn]
  exact refused_protRefuse h who false (page_lt_of_isSome hb) (pageAddr_lt (page_lt_of_isSome hb) ho)

/-- A command that ends with a write without its right is refused. -/
theorem answers_writeReg_refused {v : Word} (he : exec c s = done s (writeReg s who p off v))
    (hv : ¬ (p = 6 ∧ vltIface off = true ∧ vltReach s who = true)) (hk : ¬ (p = 4 ∧ off = 0x108 ∧ who = .app))
    (hn : (rightsOf s (whoKind who) p).testBit (writeRight off) = false) :
    Answers c s fun u => Refused s u who true p (pageAddr p off) := by
  refine .of_done he ?_
  rw [writeReg, crossing_of hr hc, pageWrite_refused hr hb h4 hv hk hn]
  exact refused_protRefuse h who true (page_lt_of_isSome hb) (pageAddr_lt (page_lt_of_isSome hb) ho)

end

theorem blkOf_canPage_isSome (d : Fin 4) : (blkOf (canPage d.val)).isSome = true := by
  revert d; decide

theorem blkOf_linPage_isSome (l : Fin 6) : (blkOf (linPage l.val)).isSome = true := by
  revert l; decide

/-- Settles O57: every clause is a read or a write that the manifest turns away before it reaches the register. -/
theorem refusedAccesses : Obligations.RefusedAccesses := by
  intro s who p off d l k v hcanon
  have h := hcanon.regs
  refine ⟨?canLec, ?linLerr, ?evfOvr, ?jrnLost, ?fltNew, ?govLog, ?mbxOut, ?mbxIn, ?write⟩
  case canLec =>
    intro hr hc hn
    exact answers_readReg_refused h hr hc (blkOf_canPage_isSome d) (by decide) (by decide) rfl
      (by simp only [canPage]; omega) hn
  case linLerr =>
    intro hr hc hn
    exact answers_readReg_refused h hr hc (blkOf_linPage_isSome l) (by decide) (by decide) rfl
      (by simp only [linPage]; omega) hn
  case evfOvr =>
    intro hr hc hn
    exact answers_readReg_refused h hr hc (by decide) (by omega) (by omega) rfl (by decide) hn
  case jrnLost =>
    intro hr hc hn
    exact answers_readReg_refused h hr hc (by decide) (by decide) (by decide) rfl (by decide) hn
  case fltNew =>
    intro hr hc hn
    exact answers_readReg_refused h hr hc (by decide) (by decide) (by decide) rfl (by decide) hn
  case govLog =>
    intro hr hc hn
    exact answers_readReg_refused h hr hc (by decide) (by decide) (by decide) rfl (by decide) hn
  case mbxOut =>
    intro hr hc hn
    have he : exec (.mbxTake who d true) s = done s (readReg s who 0xB0 (0x144 + 256 * d.val + 128 * 1)) := rfl
    rw [show 0x144 + 256 * d.val + 128 * 1 = 0x1C4 + 256 * d.val by omega] at he
    exact answers_readReg_refused h hr hc (by decide) (by omega) (by omega) he (by decide) hn
  case mbxIn =>
    intro hr hc hn
    exact answers_readReg_refused h hr hc (by decide) (by omega) (by omega) rfl (by decide) hn
  case write =>
    intro hr hp ho h4 hc hb hn hv hk
    exact answers_writeReg_refused h hr hc hb ho h4 (exec_registerWrite_page s who v hp ho h4) hv hk hn

/-! ### The C right (R40) -/

/-- The registers that only the holder of C writes: PSTAT, PCTL, PCRC and the shadow region (R40). -/
theorem writeRight_owner {off : Nat} (h : off = 0x008 ∨ off = 0x00C ∨ off = 0x014 ∨ 0x800 ≤ off) : writeRight off = 2 := by
  rcases h with rfl | rfl | rfl | h
  · rfl
  · rfl
  · rfl
  · rw [writeRight, if_neg (by omega), if_neg (by omega)]

/-- None of them belongs to the vault's command interface. -/
theorem vltIface_owner {off : Nat} (h : off = 0x008 ∨ off = 0x00C ∨ off = 0x014 ∨ 0x800 ≤ off) : vltIface off = false := by
  simp only [vltIface, Bool.or_eq_false_iff, Bool.and_eq_false_iff, decide_eq_false_iff_not]
  omega

/-- A command that ends with a write of one of them by another initiator than the holder of C is refused. -/
theorem answers_ownerWrite_refused {s : State} {c : Instr} {who : Who} {p off : Nat} {v : Word}
    (h : storeWf regReset s.regs = true) (hr : running s = true) (hc : pageStands s p = false) (hb : (blkOf p).isSome = true)
    (ho : off < 4096) (h4 : off % 4 = 0) (hw : off = 0x008 ∨ off = 0x00C ∨ off = 0x014 ∨ 0x800 ≤ off)
    (hn : (rightsOf s (whoKind who) p).testBit 2 = false) (he : exec c s = done s (writeReg s who p off v)) :
    Answers c s fun u => Refused s u who true p (pageAddr p off) :=
  answers_writeReg_refused h hr hc hb ho h4 he (by simp [vltIface_owner hw]) (by omega) (by rw [writeRight_owner hw, hn])

/-- The holder's write of one of them gets no bus error. -/
theorem writeReg_owner_ans {s : State} {who : Who} {p off : Nat} {v : Word} (hm : MayWrite s who p off) (h4 : off % 4 = 0)
    (hw : off = 0x008 ∨ off = 0x00C ∨ off = 0x014 ∨ 0x800 ≤ off) : (writeReg s who p off v).ans = none := by
  by_cases hs : 0x800 ≤ off
  · rw [writeReg_shadow hm h4 hs]
  · rw [writeReg_head hm h4 (by omega)]

/-- PSTAT.WERR and CMTDONE are cleared by writing 1 (02 Table 4). -/
theorem headWrite_pstat {s : State} (h : storeWf regReset s.regs = true) (kind p : Nat) (v : Word) :
    isSet (headWrite s kind p 0x008 v) p H.WERR = (isSet s p H.WERR && !v.getLsbD 5) ∧
      isSet (headWrite s kind p 0x008 v) p H.CMTDONE = (isSet s p H.CMTDONE && !v.getLsbD 12) := by
  have hw : ∀ n, bitOf v n = v.getLsbD n := fun _ => rfl
  have hother : ∀ {t : State} {f g : Fld}, storeWf regReset t.regs = true → g.off = f.off → f.lo ≤ f.hi → f.hi < 32 →
      (g.hi < f.lo ∨ f.hi < g.lo) → g.lo ≤ g.hi → isSet (setFlag t p f false) p g = isSet t p g := fun ht h1 h2 h3 h4 h5 => by
    rw [isSet, getF_setFlag_bits ht h1 h2 h3 h4 h5, ← isSet]
  have hcmt : ∀ {t : State}, storeWf regReset t.regs = true →
      isSet (setFlag t p H.WERR false) p H.CMTDONE = isSet t p H.CMTDONE := fun ht =>
    hother (f := H.WERR) (g := H.CMTDONE) ht rfl (by decide) (by decide) (by decide) (by decide)
  have hwerr : ∀ {t : State}, storeWf regReset t.regs = true →
      isSet (setFlag t p H.CMTDONE false) p H.WERR = isSet t p H.WERR := fun ht =>
    hother (f := H.CMTDONE) (g := H.WERR) ht rfl (by decide) (by decide) (by decide) (by decide)
  have hsame : ∀ {t : State} {f : Fld}, storeWf regReset t.regs = true → f.lo = f.hi → f.hi < 32 →
      isSet (setFlag t p f false) p f = false := isSet_setFlag_same
  simp only [headWrite, if_true, hw]
  cases v.getLsbD 5 <;> cases v.getLsbD 12 <;>
    simp only [if_true, if_false, Bool.false_eq_true, Bool.not_true, Bool.not_false, Bool.and_true, Bool.and_false]
  · trivial
  · exact ⟨hwerr h, hsame h rfl (by decide)⟩
  · exact ⟨hsame h rfl (by decide), hcmt h⟩
  · exact ⟨(hwerr (setFlag_wf h)).trans (hsame h rfl (by decide)), hsame (setFlag_wf h) rfl (by decide)⟩

/-- Settles O58: without C each write is PROT's to refuse; with it the write is granted and answers without an error. -/
theorem ownerWrites : Obligations.OwnerWrites := by
  intro s who p off page apply enable v hcanon
  have h := hcanon.regs
  refine ⟨?refused, ?commit, ?abort, ?enable, ?lock, ?clear, ?granted, ?cleared⟩
  case refused =>
    intro hr hp ho h4 hw hc hb hn
    exact answers_ownerWrite_refused h hr hc hb ho h4 hw hn (exec_registerWrite_page s who v hp ho h4)
  case commit =>
    rintro hr rfl hc hb hn
    exact answers_ownerWrite_refused h hr hc hb (by decide) (by decide) (by decide) hn rfl
  case abort =>
    rintro hr rfl hc hb hn
    exact answers_ownerWrite_refused h hr hc hb (by decide) (by decide) (by decide) hn rfl
  case enable =>
    rintro hr rfl hc hb hn
    exact answers_ownerWrite_refused h hr hc hb (by decide) (by decide) (by decide) hn rfl
  case lock =>
    rintro hr rfl hc hb hn
    exact answers_ownerWrite_refused h hr hc hb (by decide) (by decide) (by decide) hn rfl
  case clear =>
    rintro hr rfl hc hb hn
    exact answers_ownerWrite_refused h hr hc hb (by decide) (by decide) (by decide) hn rfl
  case granted =>
    intro hr hp ho h4 hw hc hb hn hv
    have hm : MayWrite s who p off := ⟨hr, hc, hb, by rwa [writeRight_owner hw], hv⟩
    exact .of_done (exec_registerWrite_page s who v hp ho h4) (writeReg_owner_ans hm h4 hw)
  case cleared =>
    rintro hr rfl hc hb hn hv
    have hm : MayWrite s who page.toNat 0x008 := ⟨hr, hc, hb, hn, hv⟩
    refine .of_done rfl ?_
    rw [writeReg_head hm (by decide) (by decide)]
    exact ⟨rfl, headWrite_pstat h (whoKind who) page.toNat v⟩

end Sys2Proof.Machine
end

section
/-! What an operation of a block leaves as it is: words outside those it writes, the configuration in force, the memory, the mode and
the queue of the commit checker. -/

-- One proof after another: side by side they start more threads than the memory limit of the check has room for.
set_option Elab.async false

namespace Sys2Proof.Machine

/-! ### Frames -/

/-- The entries of `m` whose key satisfies `K` are untouched by a write at a key that does not. -/
theorem storeKeep_set {α : Type} [DecidableEq α] {d : Nat → α} {K : Nat → Bool} {m : Store α} {i : Nat} {v : α}
    (hi : K i = false) : storeKeep K (storeSet d m i v) = storeKeep K m := by
  induction m with
  | nil =>
    rw [storeSet]
    split <;> simp [storeKeep, hi]
  | cons e m ih =>
    obtain ⟨k, w⟩ := e
    rw [storeSet]
    split
    · split <;> simp [storeKeep, hi]
    · split
      · next he =>
        subst he
        split <;> simp [storeKeep, hi]
      · simp only [storeKeep, List.filter_cons] at ih ⊢
        rw [ih]

/-- From `s` to `t` the register words whose key satisfies `K` stay as they are, with the configuration in force, the memory, the mode
and the queue of commits; a canonical register store stays canonical. -/
structure Keeps (K : Nat → Bool) (s t : State) : Prop where
  words : storeKeep K t.regs = storeKeep K s.regs
  canon : storeWf regReset s.regs = true → storeWf regReset t.regs = true
  config : t.applied = s.applied
  memory : t.mem = s.mem
  mode : t.mode = s.mode
  commits : t.commits = s.commits

namespace Keeps
variable {K : Nat → Bool} {s t u : State}

theorem refl (K : Nat → Bool) (s : State) : Keeps K s s := ⟨rfl, id, rfl, rfl, rfl, rfl⟩

/-- An update of other parts of the state. -/
theorem upd (h : Keeps K s t) (hr : u.regs = t.regs := by rfl) (ha : u.applied = t.applied := by rfl)
    (hm : u.mem = t.mem := by rfl) (hmo : u.mode = t.mode := by rfl) (hc : u.commits = t.commits := by rfl) : Keeps K s u :=
  ⟨hr ▸ h.words, fun hs => hr ▸ h.canon hs, ha.trans h.config, hm.trans h.memory, hmo.trans h.mode, hc.trans h.commits⟩

theorem wr_of (h : Keeps K s t) {p off : Nat} {w : Word} (hk : K (rkey p off) = false) : Keeps K s (wr t p off w) :=
  ⟨(storeKeep_set hk).trans h.words, fun hs => storeSet_wf (h.canon hs), h.config, h.memory, h.mode, h.commits⟩

theorem setF_of (h : Keeps K s t) {p : Nat} {f : Fld} {v : Nat} (hk : K (rkey p f.off) = false) : Keeps K s (setF t p f v) :=
  h.wr_of hk

theorem ite {c : Prop} {_ : Decidable c} (h : Keeps K s t) (h' : Keeps K s u) : Keeps K s (if c then t else u) := by
  split
  · exact h
  · exact h'

/-- A step that is taken or left out. -/
theorem when {c : Prop} {_ : Decidable c} (h : Keeps K s t) (hu : Keeps K s t → Keeps K s u) : Keeps K s (if c then u else t) :=
  .ite (hu h) h

/-- What each step of a fold keeps, the fold keeps. -/
theorem foldl {α : Type} {f : State → α → State} {l : List α} (h : Keeps K s t)
    (hf : ∀ u, Keeps K s u → ∀ a ∈ l, Keeps K s (f u a)) : Keeps K s (l.foldl f t) :=
  List.foldlRecOn l f h hf

/-- A fold over the first numbers. -/
theorem range {f : State → Nat → State} {n : Nat} (h : Keeps K s t) (hf : ∀ u, Keeps K s u → ∀ a < n, Keeps K s (f u a)) :
    Keeps K s ((List.range n).foldl f t) :=
  h.foldl fun u hu a ha => hf u hu a (List.mem_range.mp ha)

/-- A kept word reads as before. -/
theorem rd_eq (h : Keeps K s t) (hs : storeWf regReset s.regs = true) {p off : Nat} (hk : K (rkey p off) = true) :
    rd t p off = rd s p off := by
  have ht : storeGet regReset (storeKeep K t.regs) (rkey p off) = rd t p off :=
    (storeGet_keep (h.canon hs)).trans (if_pos hk)
  have hs : storeGet regReset (storeKeep K s.regs) (rkey p off) = rd s p off := (storeGet_keep hs).trans (if_pos hk)
  rw [← ht, ← hs, h.words]

end Keeps

section
variable {K : Nat → Bool} {s t : State} (h : Keeps K s t) (n : Nat)
include h

theorem hscSet_keeps (c : HscSt) : Keeps K s (hscSet t n c) := h.upd

theorem hbSet_keeps (c : HbSt) : Keeps K s (hbSet t n c) := h.upd

theorem solSet_keeps (c : SolSt) : Keeps K s (solSet t n c) := h.upd

theorem lstSet_keeps (c : LstSt) : Keeps K s (lstSet t n c) := h.upd

theorem lchSet_keeps (c : LchSt) : Keeps K s (lchSet t n c) := h.upd

omit n in
theorem lmxSet_keeps (c : LmxSt) : Keeps K s { t with lmx := c } := h.upd

theorem linSet_keeps (c : LinSt) : Keeps K s (linSet t n c) := h.upd

theorem canSet_keeps (c : CanSt) : Keeps K s (canSet t n c) := h.upd

omit n in
theorem touch_keeps : Keeps K s (touch t) := h.upd

theorem raiseP_keeps (q : Nat) : Keeps K s (raiseP t q n) := h.upd

end

/-! ### Headers -/

/-- Keys of the header words of page `p`. -/
def headKey (p k : Nat) : Bool := decide (p * 1024 ≤ k) && decide (k < p * 1024 + 64)

/-- From `s` to `t` the header of page `p` stays as it is. -/
abbrev KeepsHead (p : Nat) (s t : State) : Prop := Keeps (headKey p) s t

/-- A live or shadow word is no header word; one beyond its own page lies above the pages up to it. -/
theorem headKey_live {p q off : Nat} (h : 0x100 ≤ off ∧ (off < 0x1000 ∨ p ≤ q)) : headKey p (rkey q off) = false := by
  unfold headKey rkey
  simp only [Bool.and_eq_false_iff, decide_eq_false_iff_not]
  omega

theorem headKey_head {p off : Nat} (h : off < 0x100) : headKey p (rkey p off) = true := by
  unfold headKey rkey
  simp only [Bool.and_eq_true, decide_eq_true_eq]
  omega

namespace Keeps
variable {p : Nat} {s t : State}

theorem wr (h : KeepsHead p s t) {q off : Nat} {w : Word} (ho : 0x100 ≤ off ∧ off < 0x1000 := by decide) :
    KeepsHead p s (wr t q off w) := h.wr_of (headKey_live ⟨ho.1, .inl ho.2⟩)

theorem setF (h : KeepsHead p s t) {q : Nat} {f : Fld} {v : Nat} (ho : 0x100 ≤ f.off ∧ f.off < 0x1000 := by decide) :
    KeepsHead p s (setF t q f v) := h.wr ho

theorem setFlag (h : KeepsHead p s t) {q : Nat} {f : Fld} {b : Bool} (ho : 0x100 ≤ f.off ∧ f.off < 0x1000 := by decide) :
    KeepsHead p s (setFlag t q f b) := h.wr ho

/-- A live word of page `q`, the page itself or one above it. -/
theorem setF_above (h : KeepsHead p s t) {q : Nat} {f : Fld} {v : Nat} (hq : p ≤ q) (ho : 0x100 ≤ f.off) :
    KeepsHead p s (Machine.setF t q f v) := h.setF_of (headKey_live ⟨ho, .inr hq⟩)

theorem setFlag_above (h : KeepsHead p s t) {q : Nat} {f : Fld} {b : Bool} (hq : p ≤ q) (ho : 0x100 ≤ f.off) :
    KeepsHead p s (Machine.setFlag t q f b) := h.setF_of (headKey_live ⟨ho, .inr hq⟩)

/-- The header's fields read as before. -/
theorem getF (h : KeepsHead p s t) (hs : storeWf regReset s.regs = true) {f : Fld} (ho : f.off < 0x100 := by decide) :
    getF t p f = getF s p f := congrArg (fget · f) (h.rd_eq hs (headKey_head ho))

theorem isSet (h : KeepsHead p s t) (hs : storeWf regReset s.regs = true) {f : Fld} (ho : f.off < 0x100 := by decide) :
    isSet t p f = isSet s p f := congrArg (fun n : Nat => decide (n ≠ 0)) (h.getF hs ho)

end Keeps

section
variable {p : Nat} {s t : State} (h : KeepsHead p s t)
include h

/-! ### Event lines -/

theorem pendLine_keepsHead {q k : Nat} (hk : k < 64) : KeepsHead p s (pendLine t q k) := by
  unfold pendLine
  exact .ite (h.wr (by omega)) (h.wr (by omega))

theorem lineMerge_keepsHead {k : Nat} (hk : k < 64) : KeepsHead p s (lineMerge t k) := by
  have hw := h.wr (q := 0x0E) (off := 0x108 + 4 * (k / 32))
    (w := setBit (rd t 0x0E (0x108 + 4 * (k / 32))) (k % 32) true) (by omega)
  unfold lineMerge
  exact .ite hw hw.upd

theorem tbsEventCapture_keepsHead (k : Nat) : KeepsHead p s (tbsEventCapture t k) := by
  unfold tbsEventCapture
  exact .ite h (Keeps.ite h.setFlag h).setF.setF.setFlag

theorem dmaTrigger_keepsHead {c : Nat} (hc : c < 16) : KeepsHead p s (dmaTrigger t c) := by
  have ho : 0x100 ≤ 0x104 + 16 * c ∧ 0x104 + 16 * c < 0x1000 := by omega
  have hbegin : KeepsHead p s (dmaTrigger.dmaBegin t c) := (h.setF (f := R.DMA.STAT.BLEFT c) ho).upd
  have hblock : KeepsHead p s (if isSet t 0x0F (R.DMA.STAT.WAIT c) then t else dmaTrigger.dmaBegin t c) := .ite h hbegin
  unfold dmaTrigger
  exact .ite (.ite (h.setFlag ho).upd h.upd) (.ite ((hblock.setFlag ho).setFlag ho) h)

theorem raiseLine_keepsHead {k : Nat} (hk : k < 64) : KeepsHead p s (raiseLine t k) := by
  have hmerge := lineMerge_keepsHead h hk
  unfold raiseLine
  refine .ite h (.ite (.ite hmerge h.upd) (.ite hmerge (Keeps.range (tbsEventCapture_keepsHead (Keeps.foldl (.ite h.upd h) ?pend) k) ?dma)))
  case pend => exact fun u hu q _ => pendLine_keepsHead hu hk
  case dma => exact fun u hu c hc => .ite (dmaTrigger_keepsHead hu hc) hu

/-! ### High-side channels -/

theorem hscNoDuty_keepsHead (n : Nat) : KeepsHead p s (hscNoDuty t n) := h.setF.setFlag

theorem hscGateOff_keepsHead (n : Nat) : KeepsHead p s (hscGateOff t n) := h.upd.setFlag

theorem hscGateOn_keepsHead (n : Nat) : KeepsHead p s (hscGateOn t n) := h.upd.setFlag

theorem hscStop_keepsHead (n : Nat) : KeepsHead p s (hscStop t n) := hscNoDuty_keepsHead (hscGateOff_keepsHead h.upd n) n

theorem hscStart_keepsHead (n : Nat) (d : Demand) : KeepsHead p s (hscStart t n d) := by
  cases d with
  | none => exact hscStop_keepsHead h n
  | full => exact hscGateOn_keepsHead h.upd n
  | gen _ => exact h.upd

theorem hscSafeLatch_keepsHead (n : Nat) : KeepsHead p s (hscSafeLatch t n) := .ite h.upd.setFlag h

theorem hscStat_keepsHead (n : Nat) : KeepsHead p s (hscStat t n) := h.setF.setFlag.setFlag.setF

theorem hscCheckEnd_keepsHead (n : Nat) : KeepsHead p s (hscCheckEnd t n) := .ite h.upd h

theorem diagSet_keepsHead (n res : Nat) : KeepsHead p s (diagSet t n res) := h.upd.setF

theorem hscUpdate_keepsHead (n : Nat) : KeepsHead p s (hscUpdate t n) := by
  have hs := hscSafeLatch_keepsHead h n
  unfold hscUpdate
  refine hscStat_keepsHead (hscCheckEnd_keepsHead
    (.ite (.ite (hscStop_keepsHead hs n) hs) (.ite (hscStart_keepsHead hs n _) ?_)) n) n
  split
  · exact .ite (hscGateOn_keepsHead (hscNoDuty_keepsHead hs.upd n) n) (.ite hs.upd hs)
  · exact .ite hs (hscGateOff_keepsHead (hscStart_keepsHead hs n _) n)
  · exact hs

theorem hscApplied_keepsHead (old : State) (n : Nat) : KeepsHead p s (hscApplied old t n) := by
  unfold hscApplied
  refine hscUpdate_keepsHead (.when (.when (.when (.when h fun h => ?moved) (hscSet_keeps · n _)) (hscSet_keeps · n _)) fun h => ?diag) n
  case moved => exact hscGateOff_keepsHead h.upd n
  case diag => exact diagSet_keepsHead h n 0

/-! ### Half-bridges -/

theorem hbNoDuty_keepsHead (n : Nat) : KeepsHead p s (hbNoDuty t n) := h.setF.setFlag

theorem hbStop_keepsHead (n : Nat) : KeepsHead p s (hbStop t n) := hbNoDuty_keepsHead h.upd n

theorem hbBrake_keepsHead (n act : Nat) : KeepsHead p s (hbBrake t n act) := hbNoDuty_keepsHead h.upd n

theorem hbSafeLatch_keepsHead (n : Nat) : KeepsHead p s (hbSafeLatch t n) := .ite h.upd.setFlag h

theorem hbTake_keepsHead (n act : Nat) : KeepsHead p s (hbTake t n act) := by
  unfold hbTake
  exact .ite (hbStop_keepsHead h n) (.ite (Keeps.ite h (hbNoDuty_keepsHead h n)).upd.setFlag (hbBrake_keepsHead h n act))

theorem hbStat_keepsHead (n : Nat) : KeepsHead p s (hbStat t n) := h.setF.setFlag.setFlag.setF.setFlag

theorem hbUpdate_keepsHead (n : Nat) : KeepsHead p s (hbUpdate t n) := by
  unfold hbUpdate
  refine hbStat_keepsHead (.ite (.ite (hbStop_keepsHead ?h2 n) ?h2)
    (.ite (.ite ?h2 (hbBrake_keepsHead (hbSet_keeps ?h2 n _) n 3)) (.ite ?h2 (hbTake_keepsHead ?h2 n _)))) n
  exact .when (hbSafeLatch_keepsHead h n) (hbSet_keeps · n _)

theorem hbRepair_keepsHead (m : Nat) (single : Bool) : KeepsHead p s (hbRepair t m single) := by
  unfold hbRepair
  exact .ite (hbSet_keeps (.when h (raiseP_keeps · _ _)) _ _)
    (hbSet_keeps (hbSet_keeps (.when h (raiseP_keeps · _ _)) _ _) _ _)

theorem hbApplied_keepsHead (old : State) (n : Nat) : KeepsHead p s (hbApplied old t n) := by
  unfold hbApplied
  refine .ite (hbUpdate_keepsHead (hbUpdate_keepsHead (.ite (hbRepair_keepsHead ?h2 _ _) (hbSet_keeps ?h2 _ _)) _) _)
    (hbUpdate_keepsHead ?h1 n)
  case h1 => exact .when h (hbSet_keeps · n _)
  case h2 => exact hbStop_keepsHead (hbStop_keepsHead (.when h (hbSet_keeps · n _)) _) _

/-! ### Valves and their banks -/

theorem solStat_keepsHead (n : Nat) : KeepsHead p s (solStat t n) := h.setF.setFlag.setFlag.setF

theorem solResult_keepsHead (n r : Nat) : KeepsHead p s (solResult t n r) := .ite h.setF h

theorem bankUnqueue_keepsHead (n : Nat) : KeepsHead p s (bankUnqueue t n) := h.upd

theorem solSlept_keepsHead (n : Nat) : KeepsHead p s (solSlept t n) := .ite h h.upd

theorem sbkStat_keepsHead : KeepsHead p s (sbkStat t) := h.setFlag

section
variable (hp : p ≤ 0x84)
include hp

theorem bankUpdate_keepsHead (b : Nat) : KeepsHead p s (bankUpdate t b) := by
  have ho : 0x100 ≤ 0x104 + 4 * b := by omega
  unfold bankUpdate
  refine Keeps.foldl (((h.setFlag_above hp ho).setF_above hp ho).setF_above hp ho) fun u hu n _ => .ite hu.setFlag ?_
  split
  · exact solSet_keeps hu.setFlag n _
  · exact solStat_keepsHead (solResult_keepsHead (solSet_keeps hu.setFlag n _) n 3) n
  · exact hu.setFlag

theorem solBoost_keepsHead (n : Nat) : KeepsHead p s (solBoost t n) := by
  unfold solBoost
  exact bankUpdate_keepsHead (.when h.upd.setFlag.setFlag fun h =>
    h.foldl fun u hu m _ => solStat_keepsHead hu.setFlag m) hp _

theorem solLeaveBoost_keepsHead {n : Nat} (hn : n < 16) (dur ipk : Nat) : KeepsHead p s (solLeaveBoost t n dur ipk) := by
  have hline : 44 + solBank n < 64 := by unfold solBank; omega
  unfold solLeaveBoost
  extract_lets q b t1 t2
  have hr : KeepsHead p s t2 := raiseLine_keepsHead h.setF.setF.setFlag hline
  split
  · next m _ =>
    exact .ite (solStat_keepsHead (solBoost_keepsHead (bankUnqueue_keepsHead hr m) hp m) m) (bankUpdate_keepsHead hr hp _)
  · exact bankUpdate_keepsHead hr hp _

theorem solDecay_keepsHead {n : Nat} (hn : n < 16) : KeepsHead p s (solDecay t n) := by
  unfold solDecay
  dsimp only
  split
  · exact solLeaveBoost_keepsHead h.upd hp hn _ _
  · exact bankUpdate_keepsHead h.upd hp _
  · exact h

theorem solEnd_keepsHead {n : Nat} (hn : n < 16) : KeepsHead p s (solEnd t n) := by
  unfold solEnd
  exact solDecay_keepsHead (.when h fun h => bankUpdate_keepsHead (bankUnqueue_keepsHead h n) hp _) hp hn

theorem solRequest_keepsHead (n : Nat) : KeepsHead p s (solRequest t n) := by
  have ho : 0x100 ≤ 0x104 + 4 * solBank n := by omega
  unfold solRequest
  exact .ite h (.ite (bankUpdate_keepsHead (solSet_keeps (h.upd.setF_above hp ho) n _) hp _) (solBoost_keepsHead h hp n))

theorem solNew_keepsHead (n : Nat) (trig : Bool) : KeepsHead p s (solNew t n trig) := by
  unfold solNew
  refine .ite h (.ite ?hset (solRequest_keepsHead ?hset hp n))
  exact solSet_keeps (.when h fun h => solResult_keepsHead h n 5) n _

theorem solUpdate_keepsHead {n : Nat} (hn : n < 16) : KeepsHead p s (solUpdate t n) := by
  unfold solUpdate
  exact solStat_keepsHead (.ite (solNew_keepsHead h.upd hp n false)
    (.ite h.upd (.when h.upd fun h => solEnd_keepsHead h hp hn))) n

theorem solApplied_keepsHead {n : Nat} (hn : n < 16) : KeepsHead p s (solApplied t n) := by
  unfold solApplied
  have hs := solSlept_keepsHead h n
  exact solUpdate_keepsHead (.ite hs hs.setFlag) hp hn

theorem bankSelApply_keepsHead (b : Nat) : KeepsHead p s (bankSelApply t b) := .ite h (bankUpdate_keepsHead h.upd hp b)

theorem sbkApplied_keepsHead : KeepsHead p s (sbkApplied t) :=
  sbkStat_keepsHead (Keeps.range h fun _ hu b _ => bankSelApply_keepsHead hu hp b)

end

/-! ### Strings, matrix and chains -/

theorem lstLevel_keepsHead (n l : Nat) : KeepsHead p s (lstLevel t n l) := h.setF.setFlag

theorem lstStat_keepsHead (n : Nat) : KeepsHead p s (lstStat t n) := h.setF.setFlag.setFlag.setF

theorem lstUpdate_keepsHead (n : Nat) : KeepsHead p s (lstUpdate t n) := by
  unfold lstUpdate
  refine lstStat_keepsHead (.ite (.ite ?h1 (lstLevel_keepsHead (lstSet_keeps ?h1 n _) n 0))
    (.ite (.ite (lstSet_keeps ?h1 n _) (lstSet_keeps ?h1 n _)) (lstSet_keeps ?h1 n _))) n
  exact .when h (lstSet_keeps · n _)

theorem lmxStat_keepsHead : KeepsHead p s (lmxStat t) := h.setF.setFlag.setF

theorem lmxUpdate_keepsHead : KeepsHead p s (lmxUpdate t) := by
  unfold lmxUpdate
  exact lmxStat_keepsHead (lmxSet_keeps (.when h (lmxSet_keeps · _)) _)

theorem lchStat_keepsHead (n : Nat) : KeepsHead p s (lchStat t n) := h.setF.setFlag

theorem lchUpdate_keepsHead (n : Nat) : KeepsHead p s (lchUpdate t n) := by
  unfold lchUpdate
  refine lchStat_keepsHead (.ite ?h1 (.ite (lchSet_keeps ?h1 n _) (.ite (.ite (lchSet_keeps ?h1 n _) (lchSet_keeps ?h1 n _))
    (.when ?h1 (lchSet_keeps · n _))))) n
  exact .when h (lchSet_keeps · n _)

end

end Sys2Proof.Machine
end

section
/-! What a page's apply edge and the release of its flags leave of its header (02, R43, R45, R56). -/

-- One proof after another: side by side they start more threads than the memory limit of the check has room for.
set_option Elab.async false

namespace Sys2Proof.Machine

section
variable {p : Nat} {s t : State} (h : KeepsHead p s t)
include h

/-! ### Timebase and ring -/

theorem tbsRoleChanged_keepsHead : KeepsHead p s (tbsRoleChanged t) := by
  unfold tbsRoleChanged
  extract_lets _ t1
  have h1 : KeepsHead p s t1 := .ite h h.upd.setF
  exact .ite h1 h1.setFlag

theorem jxrStat_keepsHead : KeepsHead p s (jxrStat t) := by
  unfold jxrStat
  extract_lets _ _ _ _ status relayed wrapped raised
  have hwrapped : KeepsHead p s wrapped := h.upd.setF.setFlag.setFlag.setFlag
  have hraised : KeepsHead p s raised := .ite (raiseP_keeps hwrapped.setF _ _) hwrapped
  exact .ite (touch_keeps hraised.setF) hraised

theorem jxrHorn_keepsHead : KeepsHead p s (jxrHorn t) := h.upd

theorem jxrRoleChanged_keepsHead : KeepsHead p s (jxrRoleChanged t) := by
  unfold jxrRoleChanged
  extract_lets unlocked _ closed addressed shown _ _
  have hunlocked : KeepsHead p s unlocked := h.setFlag.setFlag
  have hclosed : KeepsHead p s closed := .ite h hunlocked.upd
  have haddressed : KeepsHead p s addressed := .ite hclosed.setF.setF.setFlag (.ite hclosed.setFlag hclosed)
  have hshown : KeepsHead p s shown := tbsRoleChanged_keepsHead (jxrStat_keepsHead haddressed)
  exact .ite (.when hshown.upd fun h => jxrHorn_keepsHead h) hshown

/-! ### Buses and their management -/

theorem linSleep_keepsHead (n : Nat) : KeepsHead p s (linSleep t n) := .ite h h.upd

theorem canSelect_keepsHead (n : Nat) : KeepsHead p s (canSelect t n) := by
  unfold canSelect
  refine .ite h ?_
  split
  · exact h
  · exact .ite h.upd h.upd

theorem canSetState_keepsHead {n : Nat} (hn : n < 4) (st : Nat) : KeepsHead p s (canSetState t n st) := by
  unfold canSetState
  refine .ite h (.ite (raiseP_keeps ?hr _ _) (.when ?hr (raiseP_keeps · _ _)))
  exact raiseLine_keepsHead h.setF (by omega)

theorem nmgDrop_keepsHead : KeepsHead p s (nmgDrop t) := by
  unfold nmgDrop
  exact .ite (canSelect_keepsHead h.upd _) h.upd

theorem nmgSetState_keepsHead (st : Nat) : KeepsHead p s (nmgSetState t st) := by
  unfold nmgSetState
  refine .ite h (.when (.when (raiseLine_keepsHead h.setF.setFlag (by decide)) (raiseP_keeps · _ _)) fun h => ?_)
  exact h.range fun u hu n _ => .when hu (linSleep_keepsHead · n)

theorem nmgGate_keepsHead : KeepsHead p s (nmgGate t) := by
  unfold nmgGate
  exact .ite h (nmgSetState_keepsHead (nmgDrop_keepsHead h).upd 0)

theorem canApplied_keepsHead {n : Nat} (hn : n < 4) : KeepsHead p s (canApplied t n) :=
  .ite (canSetState_keepsHead h hn 4) (canSelect_keepsHead h n)

theorem linApplied_keepsHead (old : State) (n : Nat) : KeepsHead p s (linApplied old t n) := .ite h.upd h

/-! ### Switch inputs and reflex rules -/

theorem swiPut_keepsHead {off n : Nat} (ho : 0x100 ≤ off ∧ off < 0x200) (hn : n < 64) (v : Bool) :
    KeepsHead p s (swiPut t off n v) := h.wr (by omega)

theorem swiFollow_keepsHead {n : Nat} (hn : n < 64) : KeepsHead p s (swiFollow t n) := by
  unfold swiFollow
  refine .ite h.upd (.when (raiseLine_keepsHead (swiPut_keepsHead (swiPut_keepsHead ?_ ?_ hn _) ?_ hn _) ?_) fun h => h.upd)
  · exact h.upd
  · decide
  · decide
  · decide

theorem swiRestart_keepsHead {n : Nat} (hn : n < 64) : KeepsHead p s (swiRestart t n) :=
  .ite h.upd (.ite (swiFollow_keepsHead h hn) h.upd)

theorem swiApplied_keepsHead (old : State) : KeepsHead p s (swiApplied old t) :=
  h.range fun _ hu _ hn => .when hu (swiRestart_keepsHead · hn)

theorem rfxFresh_keepsHead (rs : List Nat) : KeepsHead p s (rfxFresh t rs) := (((h.upd.wr).wr).wr).wr

/-! ### The blocks whose apply edge shows registers -/

theorem manifestShow_keepsHead : KeepsHead p s (manifestShow t) := by
  unfold manifestShow
  exact h.range fun u hu q hq => hu.wr (by omega)

theorem msqApplied_keepsHead (old : State) : KeepsHead p s (msqApplied old t) :=
  h.range fun _ hu n _ => .when hu (diagSet_keepsHead · n 0)

theorem xspShow_keepsHead : KeepsHead p s (xspShow t) := by
  unfold xspShow
  refine Keeps.setF (Keeps.range (.when h fun h => h.setF) fun u hu k hk => hu.setF ?_)
  simp only [R.XSP.SPLEFT.N]
  omega

theorem jrnApplied_keepsHead : KeepsHead p s (jrnApplied t) := by
  unfold jrnApplied
  extract_lets a n t1 t2
  have h1 : KeepsHead p s t1 := .ite h.setF h
  have h2 : KeepsHead p s t2 := by
    simp only [t2]
    split
    · exact h1.setF
    · exact h1
  exact .ite h h2.upd

end

/-! ### The apply edge -/

/-- The pages of a block (02, Table 12). -/
theorem blkOf_can {p b : Nat} (h : blkOf p = some (.CAN, b)) : p - b < 4 := by
  have hp := page_lt_of_isSome (Option.isSome_of_mem h)
  have hall : ∀ q < 256, ∀ c ∈ blkOf q, c.1 = .CAN → q - c.2 < 4 := by decide +kernel
  exact hall p hp _ h rfl

theorem blkOf_sol {p b : Nat} (h : blkOf p = some (.SOL, b)) : p - b < 16 ∧ p ≤ 0x84 := by
  have hp := page_lt_of_isSome (Option.isSome_of_mem h)
  have hall : ∀ q < 256, ∀ c ∈ blkOf q, c.1 = .SOL → q - c.2 < 16 ∧ q ≤ 0x84 := by decide +kernel
  exact hall p hp _ h rfl

theorem blkOf_sbk {p b : Nat} (h : blkOf p = some (.SBK, b)) : p ≤ 0x84 := by
  have hp := page_lt_of_isSome (Option.isSome_of_mem h)
  have hall : ∀ q < 256, ∀ c ∈ blkOf q, c.1 = .SBK → q ≤ 0x84 := by decide +kernel
  exact hall p hp _ h rfl

/-- What a block does at the apply edge of its page leaves the header of the page as it is. -/
theorem blockApplied_keepsHead {p : Nat} {s t : State} (h : KeepsHead p s t) (old : State) :
    KeepsHead p s (blockApplied old t p) := by
  unfold blockApplied
  split
  · next b p0 hb =>
    cases b <;> dsimp only
    case PROT => exact manifestShow_keepsHead h
    case JXR => exact jxrRoleChanged_keepsHead h.upd
    case NMG => exact nmgGate_keepsHead h
    case CAN => exact canApplied_keepsHead h (blkOf_can hb)
    case LIN => exact linApplied_keepsHead h old _
    case TBS => exact tbsRoleChanged_keepsHead h
    case SWI => exact swiApplied_keepsHead h old
    case RFX => exact rfxFresh_keepsHead h _
    case HSC => exact hscApplied_keepsHead h old _
    case HB => exact hbApplied_keepsHead h old _
    case SOL => exact solApplied_keepsHead h (blkOf_sol hb).2 (blkOf_sol hb).1
    case SBK => exact sbkApplied_keepsHead h (blkOf_sbk hb)
    case MSQ => exact msqApplied_keepsHead h old
    case XSP => exact xspShow_keepsHead h
    case JRN => exact jrnApplied_keepsHead h
    case PMU => exact h.setFlag
    all_goals exact h
  · exact h

/-! ### The release of a page's flags (R56) -/

theorem pageProt_sol {p : Nat} {n : Fin 16} (h : pageProt p = some (.sol n)) : p ≤ 0x84 := by
  by_contra hp
  rw [pageProt, dif_neg (by omega), dif_neg (by omega), dif_neg (by omega)] at h
  split at h
  · cases h
  · split at h <;> cases h

theorem protSet_keepsHead {p : Nat} {s t : State} (h : KeepsHead p s t) (o : ProtOut) (c : Prot) : KeepsHead p s (protSet t o c) := by
  cases o <;> exact h.upd

/-- The outputs of a page: those of the valves' pages reach their bank. -/
theorem protUpdate_keepsHead {p : Nat} {s t : State} (h : KeepsHead p s t) {o : ProtOut}
    (ho : ∀ n, o = .sol n → p ≤ 0x84) : KeepsHead p s (protUpdate t o) := by
  cases o with
  | hsc n => exact hscUpdate_keepsHead h n
  | hb n => exact hbUpdate_keepsHead h n
  | sol n => exact bankUpdate_keepsHead (solUpdate_keepsHead h (ho n rfl) n.isLt) (ho n rfl) _
  | lst n => exact lstUpdate_keepsHead h n
  | lmx => exact lmxUpdate_keepsHead h
  | sbk => exact sbkStat_keepsHead h
  | lfa => exact h

theorem protOwner_sol {s : State} {o : ProtOut} {n : Fin 16} (h : protOwner s o = .sol n) : o = .sol n := by
  cases o <;> simp only [protOwner] at h
  case hb m => split at h <;> cases h
  all_goals exact h

/-- The end of a lockout leaves the header of the output's page as it is. -/
theorem protUnlock_keepsHead {p : Nat} {s t : State} (h : KeepsHead p s t) {o : ProtOut}
    (ho : ∀ n, o = .sol n → p ≤ 0x84) : KeepsHead p s (protUnlock t o) := by
  unfold protUnlock
  refine .ite h (touch_keeps (protUpdate_keepsHead ?h1 fun n hn => ho n (protOwner_sol hn)))
  split
  · exact diagSet_keepsHead (protSet_keepsHead h _ _) _ 0
  · exact protSet_keepsHead h _ _

theorem lchUnfault_keepsHead {p : Nat} {s t : State} (h : KeepsHead p s t) (n : Nat) : KeepsHead p s (lchUnfault t n) :=
  .ite (lchUpdate_keepsHead h.upd n) h

end Sys2Proof.Machine
end

section
/-! Commits and the flags of a page (02, R42 to R46, R56). -/

-- One proof after another: side by side they start more threads than the memory limit of the check has room for.
set_option Elab.async false

namespace Sys2Proof.Machine

/-! ### W1C of PFLT (R56) -/

/-- Taking a power of two whose bit is set clears that bit alone. -/
theorem testBit_sub_two_pow {m b : Nat} (h : m.testBit b = true) (i : Nat) :
    (m - 2 ^ b).testBit i = (m.testBit i && decide (i ≠ b)) := by
  induction b generalizing m i with
  | zero =>
    have hodd : m % 2 = 1 := by simpa [Nat.testBit_zero] using h
    cases i with
    | zero => simp only [Nat.testBit_zero]; simp; omega
    | succ i =>
      rw [Nat.testBit_succ, Nat.testBit_succ, show (m - 2 ^ 0) / 2 = m / 2 by omega]
      simp
  | succ b ih =>
    have hb : (m / 2).testBit b = true := by rwa [Nat.testBit_succ] at h
    cases i with
    | zero =>
      have he : (m - 2 ^ (b + 1)) % 2 = m % 2 := by
        have hle : 2 ^ (b + 1) ≤ m := Nat.ge_two_pow_of_testBit h
        rw [pow_succ] at hle ⊢
        omega
      simp [Nat.testBit_zero, he]
    | succ i =>
      rw [Nat.testBit_succ, Nat.testBit_succ, show (m - 2 ^ (b + 1)) / 2 = m / 2 - 2 ^ b by rw [pow_succ]; omega, ih hb]
      simp

/-- Taking the bits of a list, each of them set and named once, clears these bits alone. -/
theorem testBit_foldl_sub {l : List Nat} {m : Nat} (hn : l.Nodup) (hl : ∀ b ∈ l, m.testBit b = true) (i : Nat) :
    (l.foldl (fun m b => m - 2 ^ b) m).testBit i = (m.testBit i && !l.contains i) := by
  induction l generalizing m with
  | nil => simp
  | cons b l ih =>
    obtain ⟨hb, hn⟩ := List.nodup_cons.mp hn
    have hm := testBit_sub_two_pow (hl b List.mem_cons_self)
    rw [List.foldl_cons, ih hn fun c hc => ?_, hm, List.contains_cons]
    · by_cases hi : i = b
      · simp [hi]
      · simp [hi, beq_eq_false_iff_ne.mpr hi]
    · rw [hm, hl c (List.mem_cons_of_mem b hc)]
      simpa using fun he : c = b => hb (he ▸ hc)

theorem foldl_sub_le (l : List Nat) (m : Nat) : l.foldl (fun m b => m - 2 ^ b) m ≤ m := by
  induction l generalizing m with
  | nil => exact Nat.le_refl m
  | cons b l ih => exact (ih _).trans (Nat.sub_le m _)

theorem getF_lt (s : State) (p : Nat) (f : Fld) : getF s p f < 2 ^ (f.hi + 1 - f.lo) := Nat.mod_lt _ (Nat.two_pow_pos _)

/-- The flags that a W1C of PFLT clears. -/
def pfltCleared (s : State) (p : Nat) (v : Word) : List Nat :=
  (List.range 8).filter fun b => bitOf v b && (getF s p H.PFLT).testBit b && !asserted s (p * 8 + b)

/-- PFLT after a W1C. -/
def pfltLeft (s : State) (p : Nat) (v : Word) : Nat := (pfltCleared s p v).foldl (fun m b => m - 2 ^ b) (getF s p H.PFLT)

/-- A flag written as 1 falls unless its source is asserted. -/
theorem testBit_pfltLeft (s : State) (p : Nat) (v : Word) {b : Nat} (hb : b < 8) :
    (pfltLeft s p v).testBit b = ((getF s p H.PFLT).testBit b && !(v.getLsbD b && !asserted s (p * 8 + b))) := by
  have hv : bitOf v b = v.getLsbD b := rfl
  have hset : ∀ c ∈ pfltCleared s p v, (getF s p H.PFLT).testBit c = true := fun c hc => by
    have := (List.mem_filter.mp hc).2
    simp only [Bool.and_eq_true] at this
    exact this.1.2
  have hnodup : (pfltCleared s p v).Nodup := List.nodup_range.filter _
  rw [pfltLeft, testBit_foldl_sub hnodup hset]
  have hc : (pfltCleared s p v).contains b = (bitOf v b && (getF s p H.PFLT).testBit b && !asserted s (p * 8 + b)) := by
    rw [Bool.eq_iff_iff, List.contains_iff_mem, pfltCleared, List.mem_filter, List.mem_range]
    exact and_iff_right hb
  rw [hc, hv]
  cases (getF s p H.PFLT).testBit b <;> simp

/-- What a W1C of PFLT ends or restarts leaves the header of the page as it is. -/
theorem pfltWrite_keepsHead (s : State) (p : Nat) (v : Word) :
    KeepsHead p (setF s p H.PFLT (pfltLeft s p v)) (pfltWrite s p v) := by
  have h := Keeps.refl (headKey p) (setF s p H.PFLT (pfltLeft s p v))
  unfold pfltWrite
  refine .when ?unlock fun h => lchUnfault_keepsHead h _
  split
  · next o ho => exact .when h fun h => protUnlock_keepsHead h fun n hn => pageProt_sol (n := n) (hn ▸ ho)
  · exact h

/-- R56: a flag after a W1C of PFLT. -/
theorem testBit_pfltWrite {s : State} (h : storeWf regReset s.regs = true) (p : Nat) (v : Word) {b : Nat} (hb : b < 8) :
    (getF (pfltWrite s p v) p H.PFLT).testBit b =
      ((getF s p H.PFLT).testBit b && !(v.getLsbD b && !asserted s (p * 8 + b))) := by
  have hlt : pfltLeft s p v < 2 ^ 8 := Nat.lt_of_le_of_lt (foldl_sub_le _ _) (getF_lt s p H.PFLT)
  rw [(pfltWrite_keepsHead s p v).getF (setF_wf h), getF_setF_same h (by decide) (by decide),
    show pfltLeft s p v % 2 ^ (H.PFLT.hi + 1 - H.PFLT.lo) = pfltLeft s p v from Nat.mod_eq_of_lt hlt, testBit_pfltLeft s p v hb]

/-- The source of a flag is asserted as a level, or by PFORCE of an implemented source (R54, R543). -/
theorem asserted_page (s : State) (p : Nat) {b : Nat} (hb : b < 8) :
    asserted s (p * 8 + b) = (s.flt.level.contains (p * 8 + b) || ((getF s p H.PFORCE).testBit b && (pageCap p).fsrc.testBit b)) := by
  rw [asserted, show (p * 8 + b) / 8 = p by omega, show (p * 8 + b) % 8 = b by omega]

/-- R56 for a command that ends with a granted write of PFLT. -/
theorem answers_pfltWrite {c : Instr} {s : State} {who : Who} {p b : Nat} {v : Word} (h : storeWf regReset s.regs = true)
    (hm : MayWrite s who p 0x018) (hb : b < 8) (he : exec c s = done s (writeReg s who p 0x018 v)) :
    Answers c s fun u => ((getF s p H.PFLT).testBit b = true → v.getLsbD b = true →
        s.flt.level.contains (p * 8 + b) = false → (getF s p H.PFORCE).testBit b = false → (getF u p H.PFLT).testBit b = false) ∧
      ((getF s p H.PFLT).testBit b = true → (v.getLsbD b = false ∨ s.flt.level.contains (p * 8 + b) = true ∨
        ((getF s p H.PFORCE).testBit b = true ∧ (pageCap p).fsrc.testBit b = true)) → (getF u p H.PFLT).testBit b = true) ∧
      ((getF s p H.PFLT).testBit b = false → (getF u p H.PFLT).testBit b = false) := by
  rw [writeReg_head hm (by decide) (by decide)] at he
  have hflag : (getF { headWrite s (whoKind who) p 0x018 v with ans := none } p H.PFLT).testBit b = _ :=
    testBit_pfltWrite h p v hb
  rw [asserted_page s p hb] at hflag
  refine .of_done he ⟨fun hset hv hlevel hforce => ?_, fun hset hstay => ?_, fun hclear => ?_⟩
  · rw [hflag, hset, hv, hlevel, hforce]
    rfl
  · rw [hflag, hset]
    rcases hstay with hv | hlevel | ⟨hforce, himpl⟩
    · rw [hv]; rfl
    · rw [hlevel]; simp
    · rw [hforce, himpl]; simp
  · rw [hflag, hclear]
    rfl

/-- Settles O59: both commands end with the same write of PFLT. -/
theorem pfltFlagsClear : Obligations.PfltFlagsClear := by
  rintro s who p page b v hcanon hm rfl hb
  have hp := page.isLt
  exact ⟨answers_pfltWrite hcanon.regs hm hb rfl,
    answers_pfltWrite hcanon.regs hm hb (exec_registerWrite_page s who v hp (by decide) (by decide))⟩

end Sys2Proof.Machine
end

section
/-! The commit checker, the apply edge and the queue of checks (02, R38, R42 to R45). -/

-- One proof after another: side by side they start more threads than the memory limit of the check has room for.
set_option Elab.async false

namespace Sys2Proof.Machine

/-! ### The end of a commit (R45, R541) -/

section
variable {s : State} {p res : Nat} (h : storeWf regReset s.regs = true)
include h

theorem commitEnd_wf : storeWf regReset (commitEnd s p res).regs = true :=
  setFlag_wf (s := setF (setF s p H.CRES res) p H.CST 0) (setF_wf (setF_wf h))

theorem commitEnd_cmtdone : isSet (commitEnd s p res) p H.CMTDONE = true :=
  isSet_setFlag_same (s := { setF (setF s p H.CRES res) p H.CST 0 with
    pendKind := storeSet seqDefault s.pendKind p 0, cmtClass := storeSet seqDefault s.cmtClass p 0 }) (setF_wf (setF_wf h)) rfl
    (by decide)

/-- A field beside CMTDONE is as CRES and CST leave it. -/
theorem commitEnd_getF {g : Fld} (ho : g.off = 0x008) (hg : g.hi < 12 ∨ 12 < g.lo) (hg1 : g.lo ≤ g.hi) :
    getF (commitEnd s p res) p g = getF (setF (setF s p H.CRES res) p H.CST 0) p g :=
  getF_setFlag_bits (f := H.CMTDONE) (setF_wf (setF_wf h)) ho (by decide) (by decide) hg hg1

theorem commitEnd_cst : getF (commitEnd s p res) p H.CST = 0 := by
  rw [commitEnd_getF h rfl (by decide) (by decide), getF_setF_same (setF_wf h) (by decide) (by decide)]
  rfl

theorem commitEnd_cres : getF (commitEnd s p res) p H.CRES = res % 16 := by
  rw [commitEnd_getF h rfl (by decide) (by decide),
    getF_setF_bits (f := H.CST) (g := H.CRES) (setF_wf h) rfl (by decide) (by decide) (by decide) (by decide),
    getF_setF_same h (by decide) (by decide)]
  rfl

/-- R45: what a refused commit shows: its code in CRES, the refused word in FOFF, CST IDLE, and CMTDONE set. -/
theorem commitEnd_refusal_shows (w : Nat) :
    getF (setF (commitEnd s p res) p H.FOFF w) p H.CRES = res % 16 ∧ getF (setF (commitEnd s p res) p H.FOFF w) p H.FOFF = w % 2 ^ 10 ∧
      getF (setF (commitEnd s p res) p H.FOFF w) p H.CST = 0 ∧ isSet (setF (commitEnd s p res) p H.FOFF w) p H.CMTDONE = true := by
  have hw : storeWf regReset (commitEnd s p res).regs = true := commitEnd_wf h
  have hbits {g : Fld} (ho : g.off = 0x008) (hg : g.hi < 16) (hg1 : g.lo ≤ g.hi) :
      getF (setF (commitEnd s p res) p H.FOFF w) p g = getF (commitEnd s p res) p g :=
    getF_setF_bits (f := H.FOFF) hw ho (by decide) (by decide) (.inl hg) hg1
  refine ⟨?cres, getF_setF_same hw (by decide) (by decide), ?cst, ?cmtdone⟩
  case cres => exact (hbits rfl (by decide) (by decide)).trans (commitEnd_cres h)
  case cst => exact (hbits rfl (by decide) (by decide)).trans (commitEnd_cst h)
  case cmtdone => exact (congrArg (decide <| · ≠ 0) (hbits (g := H.CMTDONE) rfl (by decide) (by decide))).trans (commitEnd_cmtdone h)

theorem commitEnd_epoch : getF (commitEnd s p res) p H.EPOCH = getF s p H.EPOCH := by
  have hk : rkey p H.EPOCH.off ≠ rkey p 0x008 := rkey_ne (by decide) (by decide) (.inr (by decide))
  have hflag : getF (commitEnd s p res) p H.EPOCH = getF (setF (setF s p H.CRES res) p H.CST 0) p H.EPOCH :=
    getF_setFlag_key (f := H.CMTDONE) (setF_wf (setF_wf h)) hk
  rw [hflag, getF_setF_key (setF_wf h) hk, getF_setF_key h hk]

end

/-! ### The apply edge (R43, R45) -/

/-- PEPOCH after a commit. -/
def nextEpoch (e : Nat) : Nat := if e = 65535 then 1 else e + 1

/-- At the apply edge the shadow becomes the configuration in force, and PEPOCH counts. -/
def appliedConfig (s : State) (p kind : Nat) : State :=
  { setF s p H.EPOCH (nextEpoch (getF s p H.EPOCH)) with
    applied := storePatch (shadowLo p) (shadowHi p) s.applied s.regs, committer := storeSet seqDefault s.committer p kind }

/-- The apply edge before the block of the page follows it. -/
def appliedShown (s : State) (p kind : Nat) : State := releaseLevel (commitEnd (appliedConfig s p kind) p 1) (p * 8 + 7)

theorem applyPage_eq (s : State) (p kind : Nat) : applyPage s p kind = touch (blockApplied s (appliedShown s p kind) p) := rfl

theorem applyPage_keepsHead (s : State) (p kind : Nat) : KeepsHead p (appliedShown s p kind) (applyPage s p kind) := by
  rw [applyPage_eq]
  exact touch_keeps (blockApplied_keepsHead (Keeps.refl _ _) s)

@[simp] theorem applyPage_applied (s : State) (p kind : Nat) :
    (applyPage s p kind).applied = storePatch (shadowLo p) (shadowHi p) s.applied s.regs := (applyPage_keepsHead s p kind).config

@[simp] theorem applyPage_commits (s : State) (p kind : Nat) : (applyPage s p kind).commits = s.commits :=
  (applyPage_keepsHead s p kind).commits

@[simp] theorem applyPage_mode (s : State) (p kind : Nat) : (applyPage s p kind).mode = s.mode := (applyPage_keepsHead s p kind).mode

/-- The header of a page shows a commit that has applied to the page as it is in `s`: PEPOCH has counted, CRES is OK, CST IDLE, and
CMTDONE is set. -/
structure ShowsApplied (s u : State) (p : Nat) : Prop where
  epoch : getF u p H.EPOCH = nextEpoch (getF s p H.EPOCH)
  cres : getF u p H.CRES = 1
  cst : getF u p H.CST = 0
  cmtdone : isSet u p H.CMTDONE = true

/-- What keeps the header of the page keeps what it shows. -/
theorem ShowsApplied.keep {s t u : State} {p : Nat} (h : ShowsApplied s t p) (ht : storeWf regReset t.regs = true)
    (hk : KeepsHead p t u) : ShowsApplied s u p :=
  ⟨(hk.getF ht).trans h.epoch, (hk.getF ht).trans h.cres, (hk.getF ht).trans h.cst, (hk.isSet ht).trans h.cmtdone⟩

section
variable {s : State} (h : storeWf regReset s.regs = true) (p kind : Nat)
include h

theorem appliedConfig_wf : storeWf regReset (appliedConfig s p kind).regs = true := storeSet_wf h

theorem appliedConfig_epoch : getF (appliedConfig s p kind) p H.EPOCH = nextEpoch (getF s p H.EPOCH) := by
  have hlt : nextEpoch (getF s p H.EPOCH) < 2 ^ 16 := by
    have he : getF s p H.EPOCH < 2 ^ 16 := getF_lt s p H.EPOCH
    unfold nextEpoch
    split <;> omega
  have hset : getF (appliedConfig s p kind) p H.EPOCH = getF (setF s p H.EPOCH (nextEpoch (getF s p H.EPOCH))) p H.EPOCH := rfl
  rw [hset, getF_setF_same h (by decide) (by decide)]
  exact Nat.mod_eq_of_lt hlt

theorem appliedShown_wf : storeWf regReset (appliedShown s p kind).regs = true := commitEnd_wf (appliedConfig_wf h p kind)

theorem appliedShown_shows : ShowsApplied s (appliedShown s p kind) p := by
  have hw := appliedConfig_wf h p kind
  have hget (f : Fld) : getF (appliedShown s p kind) p f = getF (commitEnd (appliedConfig s p kind) p 1) p f := rfl
  refine ⟨?epoch, ?cres, ?cst, ?cmtdone⟩
  case epoch => rw [hget, commitEnd_epoch hw, appliedConfig_epoch h]
  case cres => rw [hget, commitEnd_cres hw]
  case cst => rw [hget, commitEnd_cst hw]
  case cmtdone => rw [isSet, hget, ← isSet, commitEnd_cmtdone hw]

/-- R45: the header of a page whose commit applies. -/
theorem applyPage_shows : ShowsApplied s (applyPage s p kind) p :=
  (appliedShown_shows h p kind).keep (appliedShown_wf h p kind) (applyPage_keepsHead s p kind)

theorem applyPage_wf : storeWf regReset (applyPage s p kind).regs = true :=
  (applyPage_keepsHead s p kind).canon (appliedShown_wf h p kind)

end

/-! ### The end of a check (R42, R44) -/

/-- The consistency rules do not look at the queue of checks. -/
theorem consistFail_commits (s : State) (p : Nat) (l : List (Nat × Nat)) :
    consistFail { s with commits := l } p = consistFail s p := by
  unfold consistFail
  split
  · next b p0 hb => cases b <;> rfl
  · rfl

/-- The check does not look at the queue. -/
theorem commitCheck_commits (s : State) (p : Nat) (l : List (Nat × Nat)) :
    commitCheck { s with commits := l } p = commitCheck s p := by
  have hclass : commitClass { s with commits := l } p = commitClass s p := rfl
  have hbytes : shadowBytes { s with commits := l } p = shadowBytes s p := rfl
  have hcrc : rd { s with commits := l } p 0x014 = rd s p 0x014 := rfl
  have hrange : rangeFail { s with commits := l } p = rangeFail s p := rfl
  simp only [commitCheck, hclass, hbytes, hcrc, hrange, consistFail_commits]

section
variable {s : State} {p kind : Nat} {rest : List (Nat × Nat)} (hq : s.commits = (p, kind) :: rest)
include hq

theorem commitCheckDone_refused (hc : (commitCheck s p).1 ≠ 1) :
    commitCheckDone s = setF (commitEnd { s with commits := rest } p (commitCheck s p).1) p H.FOFF (commitCheck s p).2 := by
  simp [commitCheckDone, hq, commitCheck_commits, hc]

theorem commitCheckDone_applies (hc : (commitCheck s p).1 = 1) (ha : commitClass s p = 0 ∨ enabled s p = false) :
    commitCheckDone s = applyPage { s with commits := rest } p kind := by
  have ha' : (decide (commitClass { s with commits := rest } p = 0) || !enabled { s with commits := rest } p) = true := by
    rcases ha with h | h
    · rw [show commitClass { s with commits := rest } p = 0 from h]; rfl
    · rw [show enabled { s with commits := rest } p = false from h]; simp
  simp only [commitCheckDone, hq, commitCheck_commits, hc, ne_eq, not_true_eq_false, if_false, ha', if_true]

theorem commitCheckDone_waits (hc : (commitCheck s p).1 = 1) (ha : commitClass s p ≠ 0) (he : enabled s p = true) :
    commitCheckDone s = setF { s with commits := rest, pendKind := storeSet seqDefault s.pendKind p kind } p H.CST 2 := by
  have ha' : ¬ (decide (commitClass { s with commits := rest } p = 0) || !enabled { s with commits := rest } p) = true := by
    rw [show enabled { s with commits := rest } p = true from he,
      decide_eq_false (show commitClass { s with commits := rest } p ≠ 0 from ha)]
    decide
  simp only [commitCheckDone, hq, commitCheck_commits, hc, ne_eq, not_true_eq_false, if_false, if_neg ha']

/-- R44: the end of a check takes the front of the queue. -/
theorem commitCheckDone_commits : (commitCheckDone s).commits = rest := by
  by_cases hc : (commitCheck s p).1 = 1
  · by_cases ha : commitClass s p = 0 ∨ enabled s p = false
    · rw [commitCheckDone_applies hq hc ha, applyPage_commits]
    · rw [not_or, Bool.not_eq_false] at ha
      rw [commitCheckDone_waits hq hc ha.1 ha.2]
      rfl
  · rw [commitCheckDone_refused hq hc]
    rfl

end

end Sys2Proof.Machine
end

section
/-! The statements about commits and about the state after a reset (02, R38, R42 to R45, R51; 03, R62; 04, R78). -/

-- One proof after another: side by side they start more threads than the memory limit of the check has room for.
set_option Elab.async false

namespace Sys2Proof.Machine

/-! ### PCTL (02 Table 6) -/

/-- The fields of the word of a PCTL write. -/
theorem pctlValue_bits (apply : BitVec 2) (enable : Bool) :
    (∀ act, act = 1 ∨ act = 2 ∨ act = 4 ∨ act = 0 → bitOf (pctlValue apply enable act) 0 = enable ∧
      bitOf (pctlValue apply enable act) 1 = decide (act = 1) ∧ bitOf (pctlValue apply enable act) 2 = decide (act = 2) ∧
      bitOf (pctlValue apply enable act) 4 = decide (act = 4) ∧ fget (pctlValue apply enable act) H.APPLY = apply.toNat) := by
  rintro act (rfl | rfl | rfl | rfl) <;> revert apply enable <;> decide

/-- The queue and the class after a COMMIT of page `p`. -/
def commitQueued (s : State) (p kind cls : Nat) : State :=
  { setF (setF s p H.APPLY cls) p H.CST 1 with
    commits := s.commits ++ [(p, kind)], cmtClass := storeSet seqDefault s.cmtClass p cls }

/-- R44: COMMIT of an idle page that is not locked. -/
theorem pctlWrite_commit {s : State} {p : Nat} (kind : Nat) (apply : BitVec 2) {enable : Bool}
    (he : alwaysOn p = true ∨ enable = enabled s p) (hl : isSet s p H.LOCKED = false) (hc : getF s p H.CST = 0)
    (hw : p = 4 → s.flt.wired = false) :
    pctlWrite s p kind (pctlValue apply enable 1) = commitQueued s p kind apply.toNat := by
  obtain ⟨h0, h1, h2, h4, happly⟩ := pctlValue_bits apply enable 1 (.inl rfl)
  have hchange : (!alwaysOn p && decide (enable ≠ enabled s p)) = false := by
    rcases he with h | h <;> simp [h]
  have hwired : (decide (p = 4) && s.flt.wired) = false := by
    by_cases h : p = 4
    · simp [hw h]
    · simp [h]
  simp only [pctlWrite, h0, h1, h2, h4, happly, hchange, hl, hc, hwired]
  rfl

/-- R44: COMMIT of a page in a commit is rejected. -/
theorem pctlWrite_commit_busy {s : State} {p : Nat} (kind : Nat) (apply : BitVec 2) (enable : Bool) (hc : getF s p H.CST ≠ 0) :
    pctlWrite s p kind (pctlValue apply enable 1) = werr s p 0x00C := by
  obtain ⟨_, h1, _⟩ := pctlValue_bits apply enable 1 (.inl rfl)
  simp [pctlWrite, h1, hc]

theorem commitQueued_cst {s : State} (h : storeWf regReset s.regs = true) (p kind cls : Nat) :
    getF (commitQueued s p kind cls) p H.CST = 1 := by
  have hget : getF (commitQueued s p kind cls) p H.CST = getF (setF (setF s p H.APPLY cls) p H.CST 1) p H.CST := rfl
  rw [hget, getF_setF_same (setF_wf h) (by decide) (by decide)]
  rfl

/-! ### Rejected writes -/

/-- What a rejected write leaves of the commits of its page (R44). -/
theorem answers_werr_commits {c : Instr} {s : State} {p off : Nat} (h : storeWf regReset s.regs = true) (ho : off < 4096)
    (he : exec c s = done s { werr s p off with ans := none }) :
    Answers c s fun u => isSet u p H.WERR = true ∧ getF u p H.FOFF = off / 4 ∧ u.commits = s.commits ∧ u.pendKind = s.pendKind ∧
      u.cmtClass = s.cmtClass ∧ getF u p H.CST = getF s p H.CST ∧ getF u p H.APPLY = getF s p H.APPLY ∧ u.applied = s.applied ∧
      u.mem = s.mem ∧ ∀ q o, o < 4096 → (q ≠ p ∨ o / 4 ≠ 2) → rd u q o = rd s q o := by
  have hcst : getF (werr s p off) p H.CST = getF s p H.CST := by
    rw [werr, getF_setFlag_bits (f := H.WERR) (g := H.CST) (setF_wf h) rfl (by decide) (by decide) (by decide) (by decide),
      getF_setF_bits (f := H.FOFF) (g := H.CST) h rfl (by decide) (by decide) (by decide) (by decide)]
  have happly : getF (werr s p off) p H.APPLY = getF s p H.APPLY :=
    congrArg (fget · H.APPLY) (rd_werr_ne h (by decide) (.inr (by decide)))
  exact .of_done he ⟨isSet_werr h, getF_werr_foff h ho, rfl, rfl, rfl, hcst, happly, rfl, rfl,
    fun _ _ ho' hk => rd_werr_ne h ho' hk⟩

/-- R44: a write of PCRC of a page in a commit is rejected. -/
theorem writeReg_pcrc_busy {s : State} {who : Who} {p : Nat} {v : Word} (hm : MayWrite s who p 0x014) (hc : getF s p H.CST ≠ 0) :
    writeReg s who p 0x014 v = { werr s p 0x014 with ans := none } := by
  rw [writeReg_head hm (by decide) (by decide)]
  simp [headWrite, hc]

/-- Settles O60: PAGE_COMMIT through `pctlWrite`, the end of a check through `commitCheckDone_commits`, and the rejected writes through
`werr`. -/
theorem commitsWaitTheirTurn : Obligations.CommitsWaitTheirTurn := by
  intro s who p off kind page apply enable rest v hcanon
  have h := hcanon.regs
  refine ⟨?commit, ?done, ?busy, ?rejected⟩
  case commit =>
    rintro hm rfl he hl hc hw
    refine .of_done rfl ?_
    rw [writeReg_head hm (by decide) (by decide)]
    have hpctl : headWrite s (whoKind who) page.toNat 0x00C (pctlValue apply enable 1) = _ :=
      pctlWrite_commit (whoKind who) apply he hl hc hw
    rw [hpctl]
    exact ⟨rfl, commitQueued_cst h page.toNat (whoKind who) apply.toNat, rfl⟩
  case done =>
    intro hr hq
    exact .of_done (done_powered hr) (commitCheckDone_commits hq)
  case busy =>
    rintro hm rfl hc
    have he : exec (.pageCommit who page apply enable) s = done s (writeReg s who page.toNat 0x00C (pctlValue apply enable 1)) := rfl
    have hpctl : headWrite s (whoKind who) page.toNat 0x00C (pctlValue apply enable 1) = werr s page.toNat 0x00C :=
      pctlWrite_commit_busy (whoKind who) apply enable hc
    rw [writeReg_head hm (by decide) (by decide), hpctl] at he
    exact answers_werr_commits h (by decide) he
  case rejected =>
    intro hm hp ho h4 hoff hc
    refine answers_werr_commits h ho ((exec_registerWrite_page s who v hp ho h4).trans (congrArg (done s) ?_))
    rcases hoff with rfl | hs
    · exact writeReg_pcrc_busy hm hc
    · rw [writeReg_shadow hm h4 hs, shadowWrite_locked (.inr hc)]

/-! ### A new mode begins (R45) -/

/-- MREQ = RUN up to the commits that wait for the mode: HOLDWHY falls, RUN shows, the idle count is loaded. -/
def runShown (s : State) : State := idleReload (modeShow (setF s 0x03 R.RST.HOLDWHY.WHY 0) .run 3)

/-- A transition to RUN. -/
theorem setMode_run (s : State) (cause : Nat) :
    setMode s .run cause = touch (raiseLine (aliveShow (commitMode (idleReload (modeShow s .run cause)))) 17) := by
  simp [setMode]

/-- MREQ = RUN in HOLD (R94). -/
theorem mreqRun_accepted {s : State} {who : Who} (hok : mreqRunOk s who = true) (hreq : reqPageFails s = none) :
    mreqRun s who = touch (raiseLine (aliveShow (commitMode (runShown s))) 17) := by
  simp only [mreqRun, hok, hreq, Bool.not_true, Bool.false_eq_true, if_false, setMode_run]
  rfl

/-- A frame does not depend on the mode that both states show. -/
theorem Keeps.withMode {K : Nat → Bool} {s t : State} (h : Keeps K s t) (m : Mode) :
    Keeps K { s with mode := m } { t with mode := m } := ⟨h.words, h.canon, h.config, h.memory, rfl, h.commits⟩

/-- Before the commits MREQ = RUN writes live words alone. -/
theorem runShown_keeps {K : Nat → Bool} (hK : ∀ q off, 0x100 ≤ off → off < 0x800 → K (rkey q off) = false) (s : State) :
    Keeps K { s with mode := .run } (runShown s) := by
  have hwhy : Keeps K s (setF s 0x03 R.RST.HOLDWHY.WHY 0) := (Keeps.refl K s).setF_of (hK _ _ (by decide) (by decide))
  have hmode (f : Fld) (ho : f.off = 0x110) {t : State} {v : Nat} (h : Keeps K s t) : Keeps K s (setF t 0x00 f v) :=
    h.setF_of (hK _ _ (by omega) (by omega))
  exact ((hmode _ rfl (hmode _ rfl (hmode _ rfl hwhy))).withMode .run).setF_of (hK _ _ (by decide) (by decide))

/-- Keys of the shadow words of page `p`. -/
def shadowKey (p k : Nat) : Bool := decide (shadowLo p ≤ k) && decide (k < shadowHi p)

theorem shadowKey_live {p q off : Nat} (ho : off < 0x800) : shadowKey p (rkey q off) = false := by
  unfold shadowKey rkey shadowLo shadowHi
  simp only [Bool.and_eq_false_iff, decide_eq_false_iff_not]
  omega

/-- What keeps the shadow of a page keeps what its commit would put into force. -/
theorem storePatch_of_keeps {s t : State} {p : Nat} (h : Keeps (shadowKey p) s t) :
    storePatch (shadowLo p) (shadowHi p) t.applied t.regs = storePatch (shadowLo p) (shadowHi p) s.applied s.regs := by
  have hcut (m : Store Word) : storeCut (shadowLo p) (shadowHi p) m = storeKeep (shadowKey p) m := rfl
  rw [storePatch, storePatch, hcut, hcut, h.words, h.config]

/-- R45: with one commit waiting for the mode, it applies as the mode begins. -/
theorem commitMode_one {s : State} {p kind : Nat} (hp : s.pendKind = [(p, kind)]) (hc : getF s p H.CST = 2)
    (hm : commitClass s p = 2) : commitMode s = applyPage s p (storeGet seqDefault s.pendKind p) := by
  simp [commitMode, hp, hc, hm]

/-- The ALIVE pin and EV17, which follow a change of mode, leave the header of every page as it is. -/
theorem modeFollowed_keepsHead {p : Nat} {s t : State} (h : KeepsHead p s t) :
    KeepsHead p s (touch (raiseLine (aliveShow t) 17)) :=
  touch_keeps (raiseLine_keepsHead h.setFlag (by decide))

/-! ### The statements -/

/-- The boundary of a page at which its PERIOD commit applies. -/
theorem periodBoundary_applies {s : State} {p : Nat} (hc : getF s p H.CST = 2) (hm : commitClass s p = 1)
    (ho : periodOk s p = true) (he : periodEvent s p = true) :
    periodBoundary s p = applyPage s p (storeGet seqDefault s.pendKind p) := by
  simp [periodBoundary, he, commitPeriod, ho, hc, hm]

/-- Settles O12: each end of a commit is an equation for `commitCheckDone`, `periodBoundary` or `commitMode`, and what the apply edge shows
is `applyPage_shows`. -/
theorem commitEnds : Obligations.CommitEnds := by
  intro s who pg p kind rest hcanon hr
  have h := hcanon.regs
  refine ⟨?refused, ?applies, ?waits, ?period, ?noPeriod, ?mode⟩
  case refused =>
    intro hq hc
    refine .of_done (done_powered hr) ?_
    rw [commitCheckDone_refused hq hc]
    obtain ⟨hcres, hfoff, hcst, hdone⟩ :=
      commitEnd_refusal_shows (s := { s with commits := rest }) h (p := p) (res := (commitCheck s p).1) (commitCheck s p).2
    exact ⟨rfl, hcres, hfoff, hcst, hdone, rfl, rfl⟩
  case applies =>
    intro hq hc ha
    refine .of_done (done_powered hr) ?_
    rw [commitCheckDone_applies hq hc ha]
    obtain ⟨hepoch, hcres, hcst, hdone⟩ := applyPage_shows (s := { s with commits := rest }) h p kind
    exact ⟨applyPage_commits _ _ _, applyPage_applied _ _ _, hepoch, hcres, hcst, hdone⟩
  case waits =>
    intro hq hc ha he
    refine .of_done (done_powered hr) ?_
    rw [commitCheckDone_waits hq hc ha he]
    exact ⟨rfl, getF_setF_same (f := H.CST) (v := 2) h (by decide) (by decide), rfl, rfl⟩
  case period =>
    intro hc hm ho he
    refine .of_done (done_powered hr) ?_
    rw [periodBoundary_applies hc hm ho he]
    obtain ⟨hepoch, hcres, hcst, hdone⟩ := applyPage_shows h pg.toNat (storeGet seqDefault s.pendKind pg.toNat)
    exact ⟨applyPage_applied _ _ _, hepoch, hcres, hcst, hdone⟩
  case noPeriod =>
    intro he
    refine .of_done (done_powered hr) ?_
    simp [periodBoundary, he]
  case mode =>
    intro hm hok hreq hp hc hcls
    have hhead := runShown_keeps (K := headKey p) (fun q off h1 h2 => headKey_live ⟨h1, .inl (by omega)⟩) s
    have hshadow := runShown_keeps (K := shadowKey p) (fun q off _ h2 => shadowKey_live h2) s
    have hw : storeWf regReset (runShown s).regs = true := hhead.canon h
    have hcst : getF (runShown s) p H.CST = 2 := (hhead.getF h).trans hc
    have hrun : mreqRun s who = touch (raiseLine (aliveShow (applyPage (runShown s) p (storeGet seqDefault s.pendKind p))) 17) := by
      rw [mreqRun_accepted hok hreq, commitMode_one (s := runShown s) (kind := kind) hp hcst hcls]
      rfl
    have hafter := modeFollowed_keepsHead
      (Keeps.refl (headKey p) (applyPage (runShown s) p (storeGet seqDefault s.pendKind p)))
    obtain ⟨hepoch, hcres, hcst, hdone⟩ :=
      (applyPage_shows hw p (storeGet seqDefault s.pendKind p)).keep (applyPage_wf hw p _) hafter
    refine .of_done (u := { mreqRun s who with ans := none }) ?_ ?_
    · exact congrArg (done s) (writeReg_live hm (by decide) (by decide) (by decide) (by decide))
    · rw [hrun]
      refine ⟨hafter.mode.trans ((applyPage_mode _ _ _).trans hhead.mode), ?_, ?_, hcres, hcst, hdone⟩
      · exact hafter.config.trans ((applyPage_applied _ _ _).trans (storePatch_of_keeps (s := { s with mode := .run }) hshadow))
      · exact hepoch.trans (congrArg nextEpoch (hhead.getF h))

end Sys2Proof.Machine
end

section
/-! The state after a power-on reset (02, R38, R51; 03, R62; 04, R78). -/

-- One proof after another: side by side they start more threads than the memory limit of the check has room for.
set_option Elab.async false

namespace Sys2Proof.Machine

/-- No register of a block stands in the header of its pages (02 Table 6). -/
theorem regMap_above_header (b : Blk) : ∀ r ∈ regMap b, 0x100 ≤ r.off := by
  cases b <;> decide

theorem fieldsAt_header {p off : Nat} (ho : off < 0x100) : fieldsAt p off = [] := by
  refine List.filter_eq_nil_iff.mpr fun r hr => ?_
  have habove : 0x100 ≤ r.off := by
    unfold pageMap at hr
    split at hr
    · next b _ _ =>
      split at hr
      · cases hr
      · exact regMap_above_header b r hr
    · cases hr
  have hoff : ¬ r.off ≤ off := by omega
  simp [RegSpec.at, hoff]

/-- The words of a page header reset to 0. -/
theorem regReset_header {p off : Nat} (ho : off < 0x100) (h4 : off % 4 = 0) : regReset (rkey p off) = 0 := by
  have hp : rkey p off / 1024 = p := by unfold rkey; omega
  have hoff : rkey p off % 1024 * 4 = off := by unfold rkey; omega
  have hcoil : ¬ (0x20 ≤ p ∧ p < 0x68 ∧ off = 0x120) := by omega
  have hgov : ¬ (p = 0x1A ∧ 0x840 ≤ off ∧ off < 0x860) := by omega
  simp only [regReset, hp, hoff, fieldsAt_header ho, hcoil, hgov, if_false, List.foldl_nil]
  rfl

/-- After a reset the header of every page reads 0. -/
theorem getF_reset_header (p : Nat) {f : Fld} (ho : f.off < 0x100) (h4 : f.off % 4 = 0) : getF State.reset p f = 0 := by
  have hread : rd State.reset p f.off = regReset (rkey p f.off) := rfl
  simp [getF, hread, regReset_header ho h4, fget]

/-- R51: before its load no manifest is in force. -/
theorem manifestLoaded_reset : manifestLoaded State.reset = false := by
  have he : getF State.reset 5 H.EPOCH = 0 := getF_reset_header 5 (by decide) (by decide)
  simp [manifestLoaded, configured, he]

theorem rightsOf_reset (k p : Nat) : rightsOf State.reset k p = if k = 3 then 7 else 0 := by
  simp [rightsOf, manifestLoaded_reset]

theorem whoKind_ne_ec3 {who : Who} (h : who ≠ .ec3) : whoKind who ≠ 3 := by
  cases who <;> simp [whoKind] at h ⊢

theorem canon_reset : Canon State.reset :=
  ⟨rfl, rfl, rfl, rfl, rfl, rfl, rfl, rfl, rfl, rfl, rfl, rfl, rfl, rfl, rfl⟩

/-- Settles O53: the stores of `State.reset` are empty, so each word reads its reset value, which is 0 in a page header. -/
theorem resetValues : Obligations.ResetValues := by
  refine ⟨rfl, ?mode, ?cause, ?source, ?header, fun _ _ => ⟨rfl, rfl⟩, ?rights, fun p => rightsOf_reset 3 p, canon_reset⟩
  case mode => decide
  case cause => decide
  case source => decide
  case header =>
    intro p _
    have hset {f : Fld} (ho : f.off < 0x100) (h4 : f.off % 4 = 0) : isSet State.reset p f = false := by
      simp [isSet, getF_reset_header p ho h4]
    exact ⟨getF_reset_header p (by decide) (by decide), hset (by decide) (by decide), hset (by decide) (by decide),
      getF_reset_header p (by decide) (by decide), getF_reset_header p (by decide) (by decide),
      getF_reset_header p (by decide) (by decide)⟩
  case rights =>
    intro who p _ hne
    rw [rightsOf_reset, if_neg (whoKind_ne_ec3 hne)]

end Sys2Proof.Machine
end

section
/-! What the commands of one page leave of the others (02, R53; 05, 08, 10, 11, 15, 17, 18, 22, 23). -/

-- One proof after another: side by side they start more threads than the memory limit of the check has room for.
set_option Elab.async false

namespace Sys2Proof.Machine

/-! ### Frames of one page -/

/-- Keys of the words outside page `p` and PROT, which records refusals. -/
def offPageKey (p k : Nat) : Bool := decide (k / 1024 ≠ p) && decide (k / 1024 ≠ 5)

/-- From `s` to `t` only words of page `p` and of PROT change. -/
abbrev KeepsOff (p : Nat) (s t : State) : Prop := Keeps (offPageKey p) s t

theorem offPageKey_own {p off : Nat} (ho : off < 4096) : offPageKey p (rkey p off) = false := by
  unfold offPageKey rkey
  simp only [Bool.and_eq_false_iff, decide_eq_false_iff_not]
  omega

theorem offPageKey_prot {p off : Nat} (ho : off < 4096) : offPageKey p (rkey 5 off) = false := by
  unfold offPageKey rkey
  simp only [Bool.and_eq_false_iff, decide_eq_false_iff_not]
  omega

theorem offPageKey_other {p q off : Nat} (ho : off < 4096) (hp : q ≠ p) (h5 : q ≠ 5) : offPageKey p (rkey q off) = true := by
  unfold offPageKey rkey
  simp only [Bool.and_eq_true, decide_eq_true_eq]
  omega

namespace KeepsOff
variable {p : Nat} {s t : State}

theorem wr (h : KeepsOff p s t) {off : Nat} {w : Word} (ho : off < 4096 := by decide) : KeepsOff p s (wr t p off w) :=
  h.wr_of (offPageKey_own ho)

theorem setF (h : KeepsOff p s t) {f : Fld} {v : Nat} (ho : f.off < 4096 := by decide) : KeepsOff p s (setF t p f v) := wr h ho

theorem setFlag (h : KeepsOff p s t) {f : Fld} {b : Bool} (ho : f.off < 4096 := by decide) : KeepsOff p s (setFlag t p f b) :=
  wr h ho

theorem wr_prot (h : KeepsOff p s t) {off : Nat} {w : Word} (ho : off < 4096 := by decide) : KeepsOff p s (Machine.wr t 5 off w) :=
  h.wr_of (offPageKey_prot ho)

theorem setF_prot (h : KeepsOff p s t) {f : Fld} {v : Nat} (ho : f.off < 4096 := by decide) :
    KeepsOff p s (Machine.setF t 5 f v) := wr_prot h ho

/-- The frame of the statement. -/
theorem onlyPage (h : KeepsOff p s t) (hs : storeWf regReset s.regs = true) : OnlyPage s t p :=
  ⟨fun _ _ ho hp h5 => h.rd_eq hs (offPageKey_other ho hp h5), h.config, h.memory, h.mode⟩

end KeepsOff

section
variable {p : Nat} {s t : State} (h : KeepsOff p s t)
include h

theorem werr_keepsOff (off : Nat) : KeepsOff p s (werr t p off) := (h.setF (f := H.FOFF)).setFlag

theorem plainWrite_keepsOff {off : Nat} (v : Word) (ho : off < 4096) : KeepsOff p s (plainWrite t p off v) := h.wr ho

theorem protRefuse_keepsOff (who : Who) (wrt : Bool) (q a : Nat) : KeepsOff p s (protRefuse t who wrt q a) := by
  have hcount : KeepsOff p s (refusalCounted t) := h.setF_prot
  exact .ite hcount (raiseP_keeps hcount.wr_prot.wr_prot 0 5)

end

/-! ### Accesses of a page -/

section
variable {p : Nat} {s : State} {who : Who} {off : Nat}

/-- A write is refused, or does what its register does. -/
theorem writeReg_keepsOff {v : Word} (h : KeepsOff p s (pageWriteGo s who p off v).1) : KeepsOff p s (writeReg s who p off v) := by
  have hs : KeepsOff p s s := .refl _ _
  have hwrite (a : Nat) : KeepsOff p s (pageWrite s who p off a v).1 := by
    unfold pageWrite
    simp only [apply_ite Prod.fst]
    exact .ite hs (.ite (.ite hs h) (.ite h (.ite (protRefuse_keepsOff hs who true p a) h)))
  exact .ite (.ite hs.upd (hwrite _).upd) hs

/-- A read is refused, or has its register's side effect. -/
theorem readReg_keepsOff (h : KeepsOff p s (pageReadGo s who p off).1) : KeepsOff p s (readReg s who p off) := by
  have hs : KeepsOff p s s := .refl _ _
  have hread (a : Nat) : KeepsOff p s (pageRead s who p off a).1 := by
    unfold pageRead
    simp only [apply_ite Prod.fst]
    exact .ite hs (.ite (.ite hs h) (.ite (protRefuse_keepsOff hs who false p a) h))
  exact .ite (.ite hs.upd (hread _).upd) hs

variable {c : Instr} (hs : storeWf regReset s.regs = true)
include hs

/-- A command that is a write of a live word. -/
theorem answers_liveWrite_onlyPage {v : Word} (he : exec c s = done s (writeReg s who p off v)) (hlo : 0x100 ≤ off) (hhi : off < 0x800)
    (h : KeepsOff p s (liveWrite s who p off v).1) : Answers c s fun u => OnlyPage s u p := by
  have hgo : pageWriteGo s who p off v = liveWrite s who p off v := by simp [pageWriteGo, hhi, Nat.not_lt.mpr hlo]
  exact .of_done he ((writeReg_keepsOff (by rwa [hgo])).onlyPage hs)

/-- A command that is a read of a live word. -/
theorem answers_liveRead_onlyPage (he : exec c s = done s (readReg s who p off)) (hlo : 0x100 ≤ off) (hhi : off < 0x800)
    (h : KeepsOff p s (liveRead s who p off).1) : Answers c s fun u => OnlyPage s u p := by
  have hgo : pageReadGo s who p off = liveRead s who p off := by simp [pageReadGo, hhi, Nat.not_lt.mpr hlo]
  exact .of_done he ((readReg_keepsOff (by rwa [hgo])).onlyPage hs)

/-- A command of the hardware. -/
theorem answers_powered_onlyPage {f : State → State} (he : exec c s = done s (powered s f)) (h : KeepsOff p s (f s)) :
    Answers c s fun u => OnlyPage s u p := by
  have hpowered : KeepsOff p s (powered s f) := .ite h (.refl _ _)
  exact .of_done he (hpowered.onlyPage hs)

end

/-! ### The commands of each block -/

section
variable {p b : Nat} {s : State} {who : Who} {off : Nat} {v : Word}

/-- 05: every live word of a channel page. -/
theorem liveWrite_hsc_keepsOff (hb : blkOf p = some (.HSC, b)) (ho : off < 4096) : KeepsOff p s (liveWrite s who p off v).1 := by
  have hcmd (w : Word) : KeepsOff p s (cmdWrite s p w) := touch_keeps (plainWrite_keepsOff (.refl _ _) w (by decide))
  simp only [liveWrite, hb]
  exact .ite (hcmd _) (.ite (hcmd _) (.ite (hcmd _) (touch_keeps (plainWrite_keepsOff (.refl _ _) v ho))))

/-- 10, 11, 14: blocks whose outputs follow a plain write. -/
theorem liveWrite_followed_keepsOff (hb : blkOf p = some (.LST, b) ∨ blkOf p = some (.LMX, b) ∨ blkOf p = some (.LCH, b) ∨
    blkOf p = some (.RFX, b)) (ho : off < 4096) : KeepsOff p s (liveWrite s who p off v).1 := by
  have hplain : KeepsOff p s (touch (plainWrite s p off v)) := touch_keeps (plainWrite_keepsOff (.refl _ _) v ho)
  rcases hb with hb | hb | hb | hb <;> simpa only [liveWrite, hb] using hplain

end

section
variable (s : State) (n : Nat)

/-- 08: DUTY, which a follower refuses. -/
theorem hbDutyWrite_keepsOff (v : Word) : KeepsOff (hbPage n) s (hbDutyWrite s n v) :=
  .ite (werr_keepsOff (.refl _ _) 0x104) (KeepsOff.setF (.refl _ _))

theorem hbPosWrite_keepsOff (v : Word) : KeepsOff (hbPage n) s (hbPosWrite s n v) :=
  ((KeepsOff.setF (.refl _ _)).setF).setFlag

theorem hbLimit_keepsOff : KeepsOff (hbPage n) s (hbLimit s n) :=
  .ite (KeepsOff.setFlag (hbSet_keeps (.refl _ _) n _)) (.refl _ _)

theorem hbLimitAgain_keepsOff : KeepsOff (hbPage n) s (hbLimitAgain s n) := .ite (hbSet_keeps (.refl _ _) n _) (.refl _ _)

theorem hbStill_keepsOff : KeepsOff (hbPage n) s (hbStill s n) :=
  .ite (.refl _ _) (.ite (.refl _ _) (KeepsOff.setFlag (hbSet_keeps (.refl _ _) n _)))

theorem lstOpen_keepsOff (k : Nat) : KeepsOff (lstPage n) s (lstOpen s n k) :=
  .ite (.refl _ _) (raiseP_keeps (KeepsOff.setF (.refl _ _)) _ _)

theorem lstShort_keepsOff (k : Nat) : KeepsOff (lstPage n) s (lstShort s n k) :=
  .ite (.refl _ _) (raiseP_keeps (KeepsOff.setF (.refl _ _)) _ _)

theorem lmxOpen_keepsOff {r c : Nat} (hr : r < 12) (hc : c < 24) : KeepsOff 0x8C s (lmxOpen s r c) := by
  have ho : (R.LMX.OPEN.OPEN ((24 * r + c) / 32)).off < 4096 := by simp only [R.LMX.OPEN.OPEN]; omega
  exact .ite (raiseP_keeps (KeepsOff.setF (.refl _ _) ho) _ _) (.refl _ _)

theorem lmxRowShort_keepsOff (r : Nat) : KeepsOff 0x8C s (lmxRowShort s r) :=
  .ite (raiseP_keeps (KeepsOff.setF (.refl _ _)) _ _) (.refl _ _)

theorem lmxColStb_keepsOff (c : Nat) : KeepsOff 0x8C s (lmxColStb s c) :=
  .ite (raiseP_keeps (KeepsOff.setF (.refl _ _)) _ _) (.refl _ _)

/-- 18: the read index of a CAN channel. -/
theorem canRxri_keepsOff (v : Word) : KeepsOff (canPage n) s (canRxri s n v) :=
  .ite (werr_keepsOff (.refl _ _) 0x110) (KeepsOff.setF (.refl _ _))

end

section
variable {s t : State} {n : Nat} (h : KeepsOff (linPage n) s t)
include h

theorem linSched_keepsOff : KeepsOff (linPage n) s (linSched t n) :=
  .ite (werr_keepsOff h 0x10C) (.ite h (KeepsOff.setF (KeepsOff.setF (linSet_keeps h n _))))

theorem linHalt_keepsOff : KeepsOff (linPage n) s (linHalt t n) := .ite (linSet_keeps h n _) h

theorem linSleep_keepsOff : KeepsOff (linPage n) s (linSleep t n) := .ite h (linSet_keeps h n _)

theorem linWake_keepsOff : KeepsOff (linPage n) s (linWake t n) :=
  .ite h (.ite (KeepsOff.setF (linSet_keeps h n _)) (linSet_keeps h n _))

/-- 18: LIN.CMD. -/
theorem linWrite_keepsOff {off : Nat} (v : Word) (ho : off < 4096) : KeepsOff (linPage n) s (linWrite t n off v) :=
  .ite (plainWrite_keepsOff h v ho) <| .when (.when (.when (.when h linSched_keepsOff) linHalt_keepsOff) linSleep_keepsOff) linWake_keepsOff

end

/-- 16: STOP of a DMA channel. -/
theorem dmaStop_keepsOff (s : State) {c : Nat} (hc : c < 16) : KeepsOff 0x0F s (dmaStop s c) := by
  have hbusy : (R.DMA.STAT.BUSY c).off < 4096 := by simp only [R.DMA.STAT.BUSY]; omega
  have hwait : (R.DMA.STAT.WAIT c).off < 4096 := by simp only [R.DMA.STAT.WAIT]; omega
  exact (KeepsOff.setFlag (KeepsOff.setFlag (.refl _ _) hbusy) hwait).upd

/-- 23: RSEQ begins a fetch of a record. -/
theorem jrnFetch_keepsOff (s : State) (v : Word) : KeepsOff 0x99 s (jrnFetch s v) := by
  have hres : KeepsOff 0x99 s (setF (wr s 0x99 0x110 v) 0x99 R.JRN.RRES.RES 1) := KeepsOff.setF (KeepsOff.wr (.refl _ _))
  exact hres.upd

theorem govPop_keepsOff (s : State) : KeepsOff 0x1F s (govPop s).1 := by
  unfold govPop
  split
  · exact .refl _ _
  · exact KeepsOff.setF (KeepsOff.wr (KeepsOff.wr (Keeps.refl _ s).upd))

theorem protClear_keepsOff (s : State) (v : Word) : KeepsOff 5 s (protClear s v) :=
  .ite (KeepsOff.setF (KeepsOff.wr (.refl _ _))) (.refl _ _)

/-- A read that clears its counts writes its own word. -/
theorem rcClear_keepsOff (s : State) {p off : Nat} (ho : off < 4096) : KeepsOff p s (rcClear s p off) :=
  .ite (.refl _ _) (KeepsOff.wr (.refl _ _) ho)

/-- A live word that shows no running count and pops nothing is read as it stands. -/
theorem liveRead_keepsOff (s : State) (who : Who) {p off : Nat} (hoff : off = 0x108 ∨ off = 0x10C) (hp : p ≠ 0x01) :
    KeepsOff p s (liveRead s who p off).1 := by
  have hcount : countFld s p off = none := by
    rw [countFld, if_neg (by simp [hp]), if_neg (by simp; omega), if_neg (by simp; omega)]
  have hseen : (liveSeen s (whoKind who) p off).1 = s := by
    simp only [liveSeen, hcount]
    rw [if_neg (by simp; omega)]
  rw [liveRead, if_neg (by simp; omega), if_neg (by simp; omega)]
  dsimp only
  rw [hseen]
  exact rcClear_keepsOff s (by omega)

/-- PSTAT. -/
theorem pstatWrite_keepsOff (s : State) (who : Who) (p : Nat) (v : Word) : KeepsOff p s (pageWriteGo s who p 0x008 v).1 := by
  simp only [pageWriteGo, headWrite]
  exact .when (.when (.refl _ _) fun h => KeepsOff.setFlag h) fun h => KeepsOff.setFlag h

/-- 03: a request to the PMU waits for its write to cross. -/
theorem pmuWrite_keepsOff (s : State) (off : Nat) (v : Word) : KeepsOff 0x01 s (pmuWrite s off v) :=
  .ite (.refl _ _) (.ite (werr_keepsOff (.refl _ _) off) (Keeps.refl _ s).upd)

/-- Settles O56: each command writes its own page, or is refused by PROT. -/
theorem commandsStayOnTheirPage : Obligations.CommandsStayOnTheirPage := by
  intro s who n b d k r c l page v hcanon
  have h := hcanon.regs
  have hrefl (p : Nat) : KeepsOff p s s := .refl _ _
  have hhsc : blkOf (hscPage n.val) = some (.HSC, 0x20) := by revert n; decide
  have hhb : blkOf (hbPage b.val) = some (.HB, 0x68) := by revert b; decide
  have hlst : blkOf (lstPage d.val) = some (.LST, 0x88) := by revert d; decide
  have hlch : blkOf (lchPage d.val) = some (.LCH, 0x8D) := by revert d; decide
  have hcan : blkOf (canPage d.val) = some (.CAN, 0x10) := by revert d; decide
  have hlin : blkOf (linPage l.val) = some (.LIN, 0x14) := by revert l; decide
  have hhbn : hbPage b.val - 0x68 = b.val := by unfold hbPage; omega
  have hcann : canPage d.val - 0x10 = d.val := by unfold canPage; omega
  have hlinn : linPage l.val - 0x14 = l.val := by unfold linPage; omega
  have hlinCmd (w : Word) : KeepsOff (linPage l.val) s (liveWrite s who (linPage l.val) 0x10C w).1 := by
    simpa only [liveWrite, hlin, hlinn] using linWrite_keepsOff (hrefl _) w (by decide)
  have hrfx (o : Nat) (ho : o < 4096) : KeepsOff 0x1D s (liveWrite s who 0x1D o v).1 :=
    liveWrite_followed_keepsOff (.inr (.inr (.inr rfl))) ho
  refine ⟨?hscCmd, ?hscCmds, ?hscCmdc, ?hscDuty, ?hbDuty, ?hbPos, ?hbLimit, ?hbLimitAgain, ?hbStill, ?lstCmd, ?lstOpen, ?lstShort,
    ?lmxCmd, ?lmxOpen, ?lmxRow, ?lmxColumn, ?lchCmd, ?frmc, ?hpt, ?sbp, ?jxr, ?jrnTotal, ?jrnRseq, ?jrnLost, ?prot, ?rfxTgl, ?rfxInh,
    ?canRxri, ?canLec, ?linLerr, ?linSched, ?linHalt, ?linSleep, ?linWake, ?dma, ?fltNew, ?govPop, ?pstat, ?acctMask, ?acctFwake,
    ?acctRefuse⟩
  case hscCmd => exact answers_liveWrite_onlyPage h rfl (by decide) (by decide) (liveWrite_hsc_keepsOff hhsc (by decide))
  case hscCmds => exact answers_liveWrite_onlyPage h rfl (by decide) (by decide) (liveWrite_hsc_keepsOff hhsc (by decide))
  case hscCmdc => exact answers_liveWrite_onlyPage h rfl (by decide) (by decide) (liveWrite_hsc_keepsOff hhsc (by decide))
  case hscDuty => exact answers_liveWrite_onlyPage h rfl (by decide) (by decide) (liveWrite_hsc_keepsOff hhsc (by decide))
  case hbDuty =>
    refine answers_liveWrite_onlyPage h rfl (by decide) (by decide) ?_
    simp only [liveWrite, hhb, hhbn]
    exact hbDutyWrite_keepsOff s b.val v
  case hbPos =>
    refine answers_liveWrite_onlyPage h rfl (by decide) (by decide) ?_
    simp only [liveWrite, hhb, hhbn]
    exact hbPosWrite_keepsOff s b.val v
  case hbLimit => exact answers_powered_onlyPage h rfl (hbLimit_keepsOff s b.val)
  case hbLimitAgain => exact answers_powered_onlyPage h rfl (hbLimitAgain_keepsOff s b.val)
  case hbStill => exact answers_powered_onlyPage h rfl (hbStill_keepsOff s b.val)
  case lstCmd => exact answers_liveWrite_onlyPage h rfl (by decide) (by decide) (liveWrite_followed_keepsOff (.inl hlst) (by decide))
  case lstOpen => exact answers_powered_onlyPage h rfl (lstOpen_keepsOff s d.val k.val)
  case lstShort => exact answers_powered_onlyPage h rfl (lstShort_keepsOff s d.val k.val)
  case lmxCmd =>
    exact answers_liveWrite_onlyPage h rfl (by decide) (by decide) (liveWrite_followed_keepsOff (.inr (.inl rfl)) (by decide))
  case lmxOpen => exact answers_powered_onlyPage h rfl (lmxOpen_keepsOff s r.isLt c.isLt)
  case lmxRow => exact answers_powered_onlyPage h rfl (lmxRowShort_keepsOff s r.val)
  case lmxColumn => exact answers_powered_onlyPage h rfl (lmxColStb_keepsOff s c.val)
  case lchCmd =>
    exact answers_liveWrite_onlyPage h rfl (by decide) (by decide) (liveWrite_followed_keepsOff (.inr (.inr (.inl hlch))) (by decide))
  case frmc => exact answers_liveWrite_onlyPage h rfl (by decide) (by decide) (KeepsOff.wr (hrefl _))
  case hpt => exact answers_liveWrite_onlyPage h rfl (by decide) (by decide) (KeepsOff.wr (KeepsOff.wr (hrefl _)))
  case sbp => exact answers_liveWrite_onlyPage h rfl (by decide) (by decide) (KeepsOff.wr (KeepsOff.wr (hrefl _)))
  case jxr => exact answers_liveWrite_onlyPage h rfl (by decide) (by decide) (KeepsOff.wr (KeepsOff.wr (KeepsOff.wr (hrefl _))))
  case jrnTotal => exact answers_liveWrite_onlyPage h rfl (by decide) (by decide) (KeepsOff.wr (hrefl _))
  case jrnRseq => exact answers_liveWrite_onlyPage h rfl (by decide) (by decide) (jrnFetch_keepsOff s v)
  case jrnLost => exact answers_liveRead_onlyPage h rfl (by decide) (by decide) (liveRead_keepsOff s who (.inr rfl) (by decide))
  case prot => exact answers_liveWrite_onlyPage h rfl (by decide) (by decide) (protClear_keepsOff s 1)
  case rfxTgl => exact answers_liveWrite_onlyPage h rfl (by omega) (by omega) (hrfx _ (by omega))
  case rfxInh => exact answers_liveWrite_onlyPage h rfl (by omega) (by omega) (hrfx _ (by omega))
  case canRxri =>
    refine answers_liveWrite_onlyPage h rfl (by decide) (by decide) ?_
    simp only [liveWrite, hcan, hcann]
    exact canRxri_keepsOff s d.val v
  case canLec =>
    exact answers_liveRead_onlyPage h rfl (by decide) (by decide) (liveRead_keepsOff s who (.inl rfl) (by unfold canPage; omega))
  case linLerr =>
    exact answers_liveRead_onlyPage h rfl (by decide) (by decide) (liveRead_keepsOff s who (.inl rfl) (by unfold linPage; omega))
  case linSched => exact answers_liveWrite_onlyPage h rfl (by decide) (by decide) (hlinCmd 1)
  case linHalt => exact answers_liveWrite_onlyPage h rfl (by decide) (by decide) (hlinCmd 2)
  case linSleep => exact answers_liveWrite_onlyPage h rfl (by decide) (by decide) (hlinCmd 4)
  case linWake => exact answers_liveWrite_onlyPage h rfl (by decide) (by decide) (hlinCmd 8)
  case dma =>
    refine answers_liveWrite_onlyPage h rfl (by omega) (by omega) ?_
    have hctl : (liveWrite s who 0x0F (0x100 + 16 * k.val) 2).1 = dmaStop s k.val := by
      have hlow : (0x100 + 16 * k.val) % 16 = 0 ∧ 0x100 + 16 * k.val < 0x200 ∧ (0x100 + 16 * k.val - 0x100) / 16 = k.val := by omega
      simp only [liveWrite, blkOf, hlow]
      rfl
    rw [hctl]
    exact dmaStop_keepsOff s k.isLt
  case fltNew => exact answers_liveRead_onlyPage h rfl (by decide) (by decide) (liveRead_keepsOff s who (.inr rfl) (by decide))
  case govPop => exact answers_liveRead_onlyPage h rfl (by decide) (by decide) (govPop_keepsOff s)
  case pstat => exact .of_done rfl ((writeReg_keepsOff (pstatWrite_keepsOff s who page.toNat v)).onlyPage h)
  case acctMask => exact answers_liveWrite_onlyPage h rfl (by decide) (by decide) (pmuWrite_keepsOff s 0x120 4)
  case acctFwake => exact answers_liveWrite_onlyPage h rfl (by decide) (by decide) (pmuWrite_keepsOff s 0x120 2)
  case acctRefuse => exact answers_liveWrite_onlyPage h rfl (by decide) (by decide) (pmuWrite_keepsOff s 0x120 1)

end Sys2Proof.Machine
end

section
/-! The class of a commit in a state whose classes are not in canonical form (02, R41): what settling can and cannot have done. -/

-- One proof after another: side by side they start more threads than the memory limit of the check has room for.
set_option Elab.async false

namespace Sys2Proof.Machine

/-! ### Entries of a store in any form -/

section
variable {α : Type} {d : Nat → α} {m : Store α} {i : Nat} {v : α}

theorem mem_of_storeGet_ne (h : storeGet d m i ≠ d i) : ∃ w, (i, w) ∈ m := by
  induction m with
  | nil => exact absurd rfl h
  | cons e m ih =>
    obtain ⟨k, w⟩ := e
    rw [storeGet] at h
    split at h
    · next hk => exact ⟨w, by simp [hk]⟩
    · split at h
      · exact absurd rfl h
      · obtain ⟨w', hw⟩ := ih h
        exact ⟨w', List.mem_cons_of_mem _ hw⟩

variable [DecidableEq α]

theorem mem_storeSet (hv : v ≠ d i) : (i, v) ∈ storeSet d m i v := by
  induction m with
  | nil => simp [storeSet, hv]
  | cons e m ih =>
    rw [storeSet]
    split
    · simp
    · split
      · simp
      · exact List.mem_cons_of_mem _ ih

theorem storeGet_set_of_ne (hv : v ≠ d i) : storeGet d (storeSet d m i v) i = v := by
  induction m with
  | nil => simp [storeSet, storeGet, hv]
  | cons e m ih =>
    rw [storeSet]
    split
    · simp [storeGet]
    · next hlt =>
      split
      · simp [storeGet]
      · next hne =>
        rw [storeGet, if_neg (Ne.symm hne), if_neg hlt, ih]

end

/-- A kept word has the same entries before and after. -/
theorem Keeps.mem_iff {K : Nat → Bool} {s t : State} (h : Keeps K s t) {k : Nat} (hk : K k = true) (w : Word) :
    (k, w) ∈ t.regs ↔ (k, w) ∈ s.regs := by
  have ht : (k, w) ∈ storeKeep K t.regs ↔ (k, w) ∈ t.regs := by simp [storeKeep, hk]
  have hs : (k, w) ∈ storeKeep K s.regs ↔ (k, w) ∈ s.regs := by simp [storeKeep, hk]
  rw [← ht, ← hs, h.words]

/-- A field set to a value that its reset does not hold reads that value, whatever the form of the store. -/
theorem rd_wr_of_ne {s : State} {p off : Nat} {w : Word} (h : w ≠ regReset (rkey p off)) : rd (wr s p off w) p off = w :=
  storeGet_set_of_ne h

/-! ### Network management (18) -/

section
variable {p : Nat} {s t : State} (h : KeepsHead p s t)
include h

theorem jxrBroadcast_keepsHead (ty : Nat) (data : List Byte) : KeepsHead p s (jxrBroadcast t ty data).1 := by
  have hseq : KeepsHead p s (jxrSeq t 1024).1 := h.upd
  exact .ite hseq.upd hseq

theorem nmgSent_keepsHead (kind : Nat) : KeepsHead p s (nmgSent t kind) := by
  have hdrop : KeepsHead p s (nmgSetState (nmgDrop t) 4) := nmgSetState_keepsHead (nmgDrop_keepsHead h) 4
  unfold nmgSent
  refine .ite h.setF (.ite ?await (.ite hdrop (.ite hdrop h)))
  exact .ite (nmgSetState_keepsHead h.upd 2) h.upd

theorem nmgPut_keepsHead (kind : Nat) (d : List Byte) : KeepsHead p s (nmgPut t kind d) := by
  unfold nmgPut
  exact .ite (.ite (nmgSent_keepsHead (jxrBroadcast_keepsHead h 6 _) kind) h) (.ite h (canSelect_keepsHead h.upd _))

theorem nmgAlive_keepsHead : KeepsHead p s (nmgAlive t) := nmgPut_keepsHead h _ _

theorem nmgRing_keepsHead (wake : Bool) : KeepsHead p s (nmgRing t wake) := nmgPut_keepsHead h.upd _ _

theorem nmgStartup_keepsHead : KeepsHead p s (nmgStartup t) := nmgAlive_keepsHead (nmgSetState_keepsHead h.upd 1)

theorem nmgCancel_keepsHead : KeepsHead p s (nmgCancel t) :=
  nmgRing_keepsHead (nmgSetState_keepsHead (raiseP_keeps h.setF _ _) 2) true

theorem nmgSetPres_keepsHead (m : Nat) : KeepsHead p s (nmgSetPres t m) := by
  have hwords := h.range (f := fun s w => wr s 0x0C (0x120 + 4 * w) (BitVec.ofNat 32 (m >>> (32 * w)))) (n := 8)
    fun u hu w hw => Keeps.wr hu (by omega)
  exact Keeps.setF (Keeps.setF hwords)

theorem nmgStart_keepsHead (wake r : Bool) : KeepsHead p s (nmgStart t wake r) := by
  unfold nmgStart
  have hflag : KeepsHead p s (setFlag t 0x0C R.NMG.STAT.READY r) := h.setFlag
  have hpres := nmgSetPres_keepsHead hflag
  exact .ite hflag (.ite (nmgStartup_keepsHead (hpres _)) (nmgSetState_keepsHead (hpres _) 5))

theorem nmgWakes_keepsHead : KeepsHead p s (nmgWakes t) := .ite (nmgStart_keepsHead h _ _) h

theorem nmgReadiness_keepsHead (r : Bool) : KeepsHead p s (nmgReadiness t r) := by
  unfold nmgReadiness
  exact .ite h.setFlag (.ite (nmgCancel_keepsHead h.setFlag) (.ite (nmgStartup_keepsHead h.setFlag) h.setFlag))

theorem nmgBusCheck_keepsHead : KeepsHead p s (nmgBusCheck t) :=
  .ite (nmgSetState_keepsHead (nmgDrop_keepsHead h.upd) 3) (.ite (nmgStartup_keepsHead h.upd) h)

theorem nmgFollow_keepsHead : KeepsHead p s (nmgFollow t) := nmgBusCheck_keepsHead (nmgReadiness_keepsHead h _)

end

/-! ### What settling leaves alone -/

/-- No act of settling that does more than count or drop an occurrence ends in such a state: it is in BOOT with nothing to evaluate, no
flag of a source is set, JRN holds no record, NMG is not configured, and chain 3, which is in its fault state, does not show it. -/
structure OutOfReach (t : State) : Prop where
  boot : t.mode = .boot
  clean : t.dirty = false
  flags : ∀ p w, (rkey p H.PFLT.off, w) ∉ t.regs
  ring : t.jrn.ring = []
  network : ∀ w, (rkey 0x0C H.EPOCH.off, w) ∉ t.regs
  chain : (lchGet t 3).phase = 4
  shown : getF t 0x90 R.LCH.STAT.STATE ≠ 4

namespace OutOfReach
variable {s t : State}

theorem running (h : OutOfReach t) : running t = true := by simp [Machine.running, h.boot]

/-- What is due plays no part. -/
theorem of_due {l : List Due} (h : OutOfReach { t with due := l }) : OutOfReach t :=
  ⟨h.boot, h.clean, h.flags, h.ring, h.network, h.chain, h.shown⟩

end OutOfReach

/-! ### Records (22) -/

/-- The flag of a source that has been set is an entry of the store. -/
theorem mem_setF_pflt (s : State) {p b : Nat} (hb : b < 8) (v : Nat) :
    ∃ w, (rkey p H.PFLT.off, w) ∈ (setF s p H.PFLT (v ||| 2 ^ b)).regs := by
  refine ⟨_, mem_storeSet fun he => ?_⟩
  have hget := fget_fset_same (rd s p H.PFLT.off) H.PFLT (v ||| 2 ^ b) (by decide) (by decide)
  rw [he, regReset_header (by decide) (by decide)] at hget
  have hbit : ((v ||| 2 ^ b) % 2 ^ 8).testBit b = true := by
    rw [Nat.testBit_mod_two_pow]
    simp [hb]
  have hzero : (v ||| 2 ^ b) % 2 ^ 8 = 0 := hget.symm
  rw [hzero] at hbit
  simp at hbit

theorem fltSet_keeps {K : Nat → Bool} {s t : State} (h : Keeps K s t) (f : FltSt) : Keeps K s { t with flt := f } := h.upd

section
variable {p : Nat} {s t : State} (h : KeepsHead p s t)
include h

/-- A live word below 0x180 shows no count but that of the PMU. -/
theorem liveSeen_keepsHead (kind q : Nat) {off : Nat} (ho : off < 0x180) : KeepsHead p s (liveSeen t kind q off).1 := by
  have hbrg : ¬ 0x180 ≤ off ∧ ¬ 0x300 ≤ off := by omega
  unfold liveSeen
  split
  · next f hf =>
    have hidle : f = R.PMU.IDLECNT.CNT := by
      simp only [countFld, hbrg, decide_false, Bool.and_false, Bool.false_and, Bool.false_eq_true, if_false] at hf
      split at hf
      · exact (Option.some.inj hf).symm
      · cases hf
    subst hidle
    exact .ite h h.upd.setF
  · dsimp only
    split
    · exact h.upd
    · exact h

theorem recordDetail_keepsHead (q : Nat) (det : List Byte) : KeepsHead p s (recordDetail t q det).1 := by
  unfold recordDetail
  split
  · exact List.foldlRecOn (motive := fun r : State × List Byte => KeepsHead p s r.1) (List.range 6) _ h
      fun r hr i hi => liveSeen_keepsHead hr _ _ (by have := List.mem_range.mp hi; omega)
  · exact h

theorem putRecord_keepsHead (ws : List Word) : KeepsHead p s (putRecord t ws) := by
  have hwords := h.range (f := fun s i => wr s 0x04 (0x140 + 4 * i) (ws.getD i 0)) (n := 16) fun u hu i hi => Keeps.wr hu (by omega)
  unfold putRecord
  refine raiseLine_keepsHead (.ite ?dropped ?queued) (by decide)
  case dropped =>
    have hcount (v : Nat) (f : FltSt) := fltSet_keeps (Keeps.setF (q := 0x04) (f := R.FLT.DROP.CNT) (v := v) hwords) f
    exact .ite (hcount _ _) (raiseP_keeps (hcount _ _) _ _)
  case queued => exact Keeps.setF (fltSet_keeps hwords _)

theorem fltSummary_keepsHead : KeepsHead p s (fltSummary t) := h.setF.setF

end

/-- The word of open sources of a page is no header word of the page. -/
theorem openSource_keepsHead {s t : State} {id : Nat} (h : KeepsHead (id / 8) s t) (c : Nat) :
    KeepsHead (id / 8) s (openSource t id c) := by
  have hk : headKey (id / 8) (rkey 0x04 (0x200 + 4 * (id / 32))) = false := by
    unfold headKey rkey
    simp only [Bool.and_eq_false_iff, decide_eq_false_iff_not]
    have hword : id / 32 = id / 8 / 4 := by omega
    rcases Nat.lt_or_ge 4 (id / 8) with hlt | hge <;> omega
  have hword (f : FltSt) (w : Word) := fltSummary_keepsHead ((fltSet_keeps h f).wr_of (w := w) hk)
  exact .ite (touch_keeps (hword _ _)) (hword _ _)

/-! ### The acts of settling -/

theorem openSource_dirty {s : State} {id c : Nat} (hc : 2 ≤ c) : (openSource s id c).dirty = true := by
  simp [openSource, hc, touch]

theorem setEnable_dirty {s : State} {p : Nat} {v : Bool} (h : s.dirty = true) : (setEnable s p v).dirty = true := by
  unfold setEnable
  split
  · exact h
  · rfl

theorem faultLimp_dirty {s : State} (h : s.dirty = true) : (faultLimp s).dirty = true := by
  unfold faultLimp
  split
  · rfl
  · exact h

/-- An occurrence that is recorded leaves outputs to evaluate, or the flag of its source. -/
theorem collect_marks {s : State} {d : Due} (hf : (pageCap (d.id / 8)).fsrc.testBit (d.id % 8) = true) (hr : running s = true) :
    (collect s d).dirty = true ∨ ∃ w, (rkey (d.id / 8) H.PFLT.off, w) ∈ (collect s d).regs := by
  unfold collect
  extract_lets id p b _ held rtc unheld flagged forced seen detailed ws39 limp39 c e0 rlim esc limited counted e ws recorded opened
    gated limped _ celled n
  have hsource : (pageCap p).fsrc.testBit b = true := hf
  rw [if_neg (by simp [hsource]), if_neg (by simp [hr])]
  by_cases h39 : id = 39
  · rw [if_pos h39]
    exact .inl rfl
  rw [if_neg h39]
  by_cases he : 2 ≤ e
  · have hopened : opened.dirty = true := by
      simp only [opened]
      rw [if_neg (by omega)]
      exact openSource_dirty he
    have hgated : gated.dirty = true := by
      simp only [gated]
      split
      · exact setEnable_dirty hopened
      · exact hopened
    have hlimped : limped.dirty = true := faultLimp_dirty (s := stopAlive gated) hgated
    left
    split
    · exact hgated
    · split
      · rfl
      · exact hlimped
  · have hgated : gated = opened := if_neg (by simp; omega)
    have hrecorded : KeepsHead p flagged recorded :=
      putRecord_keepsHead (.when (recordDetail_keepsHead (.refl _ _) p d.detail) fun h => Keeps.setFlag h) ws
    have hopened : KeepsHead p flagged opened := .ite hrecorded (openSource_keepsHead hrecorded e)
    obtain ⟨w, hw⟩ := mem_setF_pflt unheld (p := p) (b := b) (Nat.mod_lt _ (by decide)) (getF unheld p H.PFLT)
    rw [if_pos (by simp; omega), hgated]
    exact .inr ⟨w, (hopened.mem_iff (headKey_head (by decide)) w).mpr hw⟩

end Sys2Proof.Machine
end

section
/-! A commit whose class does not read back (02, R41): the class of the page stands twice in the store, so its reset value removes the
first entry and leaves the second. -/

-- One proof after another: side by side they start more threads than the memory limit of the check has room for.
set_option Elab.async false

namespace Sys2Proof.Machine

/-! ### No act of settling ends out of its reach -/

/-- R544: without power to its outputs the device holds an occurrence. -/
theorem collect_running {s : State} {d : Due} (hr : running s = false) : running (collect s d) = false := by
  unfold collect
  extract_lets id p b
  split
  · exact hr
  · rw [if_pos (by simp [hr])]
    split <;> exact hr

theorem OutOfReach.collect {s : State} {d : Due} (h : OutOfReach (collect s d)) : collect s d = s := by
  cases hf : (pageCap (d.id / 8)).fsrc.testBit (d.id % 8)
  case false => simp [Machine.collect, hf]
  case true =>
    cases hr : Machine.running s
    case false => exact absurd h.running (by simp [collect_running hr])
    case true =>
      rcases collect_marks hf hr with hdirty | ⟨w, hw⟩
      · exact absurd h.clean (by simp [hdirty])
      · exact absurd hw (h.flags _ w)

/-- STATE of a chain in its fault state. -/
theorem getF_lchStat_fault {s : State} (hf : (lchGet s 3).phase = 4) : getF (lchStat s 3) 0x90 R.LCH.STAT.STATE = 4 := by
  have hreset : fget (regReset (rkey 0x90 0x104)) R.LCH.STAT.STATE = 0 := by decide
  have hread {t : State} {w : Word} (hw : fget w R.LCH.STAT.STATE = 4) : getF (wr t 0x90 0x104 w) 0x90 R.LCH.STAT.STATE = 4 := by
    refine (congrArg (fget · R.LCH.STAT.STATE) (rd_wr_of_ne fun he => ?_)).trans hw
    rw [he, hreset] at hw
    cases hw
  have hstate (t : State) : getF (setF t 0x90 R.LCH.STAT.STATE 4) 0x90 R.LCH.STAT.STATE = 4 :=
    hread (fget_fset_same _ _ _ (by decide) (by decide))
  have hflag (t : State) (b : Bool) :
      getF (setFlag (setF t 0x90 R.LCH.STAT.STATE 4) 0x90 R.LCH.STAT.SAFEACT b) 0x90 R.LCH.STAT.STATE = 4 :=
    hread ((fget_fset_ne _ R.LCH.STAT.SAFEACT R.LCH.STAT.STATE _ (by decide) (by decide) (by decide) (by decide)).trans (hstate t))
  simp only [lchStat, hf, if_true]
  exact hflag s _

/-- The rules of settling end with the update of chain 3. -/
theorem settleOnce_ends (s : State) : ∃ w, settleOnce s = lchStat w 3 := ⟨_, rfl⟩

theorem settleRules_ends (k : Nat) : ∀ s : State, ∃ w, settleRules s (k + 1) = lchStat w 3 := by
  induction k with
  | zero =>
    intro s
    obtain ⟨w, hw⟩ := settleOnce_ends s
    exact ⟨w, by simp [settleRules, hw]⟩
  | succ k ih =>
    intro s
    rw [settleRules]
    split
    · exact ih _
    · exact settleOnce_ends s

theorem nmgWakes_boot {s : State} (h : (nmgWakes s).mode = .boot) : nmgWakes s = s := by
  have hmode : s.mode = .boot := (nmgWakes_keepsHead (Keeps.refl (headKey 0) s)).mode.symm.trans h
  simp [nmgWakes, hmode]

theorem not_outOfReach_settleOutputs (s : State) : ¬ OutOfReach (settleOutputs s) := by
  unfold settleOutputs
  split
  · next hr =>
    intro h
    simp [h.running] at hr
  · intro h
    rw [nmgWakes_boot h.boot] at h
    obtain ⟨w, hw⟩ := settleRules_ends 15 ((List.range 12).foldl hbSafeLatch ((List.range 72).foldl hscSafeLatch s))
    rw [hw] at h
    exact h.shown (getF_lchStat_fault h.chain)

/-- A record on its way to JRN stands in JRN. -/
theorem jrnStage_ring (s : State) (ws : List Word) : (jrnStage s ws).jrn.ring ≠ [] := by
  unfold jrnStage
  extract_lets seq late head before ring shown lost _ dropped _
  split
  · next hlong =>
    have hring : ring.drop 1 ≠ [] := by
      intro he
      have hlen := congrArg List.length he
      simp only [List.length_drop, List.length_nil] at hlen
      omega
    split <;> exact hring
  · simp [ring]

theorem not_outOfReach_recordOut {s t : State} (ht : recordOut s = some t) : ¬ OutOfReach t := by
  intro h
  unfold recordOut at ht
  split at ht
  · cases ht
  · split at ht
    · cases ht
    · cases ht
      exact jrnStage_ring _ _ h.ring

theorem not_outOfReach_nmgFollow {s : State} (hs : nmgStale s = true) : ¬ OutOfReach (nmgFollow s) := by
  intro h
  have hkeep : KeepsHead 0x0C s (nmgFollow s) := nmgFollow_keepsHead (.refl _ _)
  have hepoch : getF s 0x0C H.EPOCH ≠ 0 := by
    simp only [nmgStale, nmgOn, configured, Bool.and_eq_true, decide_eq_true_eq] at hs
    exact hs.1.2.1
  have hread : storeGet regReset s.regs (rkey 0x0C H.EPOCH.off) ≠ regReset (rkey 0x0C H.EPOCH.off) := by
    intro he
    refine hepoch ((congrArg (fget · H.EPOCH) (he.trans (regReset_header (by decide) (by decide)))).trans (by decide))
  obtain ⟨w, hw⟩ := mem_of_storeGet_ne hread
  exact h.network w ((hkeep.mem_iff (headKey_head (by decide)) w).mpr hw)

/-- Settling that ends out of reach has dropped occurrences at most. -/
theorem finishN_outOfReach (n : Nat) :
    ∀ s : State, OutOfReach (finishN n s) → OutOfReach s ∧ s.cmtClass = (finishN n s).cmtClass := by
  induction n with
  | zero => exact fun s h => ⟨h, rfl⟩
  | succ n ih =>
    intro s h
    rw [finishN] at h ⊢
    split at h
    · next d ds hd =>
      obtain ⟨hreach, hclass⟩ := ih _ h
      have hsame := hreach.collect
      rw [hsame] at hreach
      exact ⟨hreach.of_due, (congrArg State.cmtClass hsame).symm.trans hclass⟩
    · split at h
      · exact absurd (ih _ h).1 (not_outOfReach_settleOutputs _)
      · next hclean =>
        split at h
        · next t ht => exact absurd (ih _ h).1 (not_outOfReach_recordOut ht)
        · split at h
          · next hs => exact absurd (ih _ h).1 (not_outOfReach_nmgFollow hs)
          · next hs => exact ⟨h, by simp [hclean, hs]⟩

/-- With nothing due, nothing to evaluate and no record on its way, settling ends at once while NMG is not configured. -/
theorem finishN_still {s : State} (hdue : s.due = []) (hclean : s.dirty = false) (hrecords : recordOut s = none)
    (hnetwork : configured s 0x0C = false) (n : Nat) : finishN n s = s := by
  have hstale : nmgStale s = false := by simp [nmgStale, nmgOn, hnetwork]
  cases n with
  | zero => rfl
  | succ n =>
    rw [finishN]
    split
    · next h => simp [hdue] at h
    · simp [hclean, hrecords, hstale]

theorem keepNote_mode (s : State) : (keepNote s).mode = s.mode := by
  unfold keepNote
  extract_lets ks new _ noted reloaded page
  have hnoted : noted.mode = s.mode := by
    simp only [noted]
    split <;> rfl
  have hreloaded : reloaded.mode = noted.mode := by
    simp only [reloaded]
    split <;> rfl
  split <;> exact hreloaded.trans hnoted

/-- In BOOT the keep-awake note writes no register. -/
theorem keepNote_boot {s : State} (h : s.mode = .boot) : (keepNote s).regs = s.regs ∧ (keepNote s).dirty = s.dirty ∧
    (keepNote s).jrn = s.jrn ∧ (keepNote s).lch = s.lch ∧ (keepNote s).cmtClass = s.cmtClass := by
  unfold keepNote
  extract_lets ks new _ noted reloaded page
  have hreloaded : reloaded = noted := if_neg (by simp [new, h])
  rw [hreloaded]
  have hnoted : noted.regs = s.regs ∧ noted.dirty = s.dirty ∧ noted.jrn = s.jrn ∧ noted.lch = s.lch ∧
      noted.cmtClass = s.cmtClass := by
    simp only [noted]
    split <;> exact ⟨rfl, rfl, rfl, rfl, rfl⟩
  split <;> exact hnoted

/-! ### The state of the refutation -/

/-- After a reset, with the class of page 0x08 standing twice, and chain 3 in a fault state that its STAT does not show yet. -/
def twiceClassed : State :=
  { State.reset with cmtClass := [(0x08, 1), (0x08, 1)], lch := [(3, { LchSt.init with phase := 4 })] }

theorem twiceClassed_canon : Canon twiceClassed := ⟨rfl, rfl, rfl, rfl, rfl, rfl, rfl, rfl, rfl, rfl, rfl, rfl, rfl, rfl, rfl⟩

theorem twiceClassed_mayWrite : MayWrite twiceClassed .ec3 0x08 0x00C :=
  ⟨by decide, by decide, by decide, by decide, fun _ => rfl⟩

/-- What a COMMIT of page 0x08 with APPLY = 0 comes to there. -/
def twiceCommitted : State := { commitQueued twiceClassed 0x08 3 0 with ans := none }

theorem exec_pageCommit_twiceClassed : exec (.pageCommit .ec3 0x08 0 false) twiceClassed = done twiceClassed twiceCommitted := by
  have hcommit : headWrite twiceClassed 3 0x08 0x00C (pctlValue 0 false 1) = commitQueued twiceClassed 0x08 3 0 :=
    pctlWrite_commit (s := twiceClassed) (p := 0x08) 3 0 (enable := false) (.inr (by decide)) (by decide) (by decide) (by decide)
  have hexec : exec (.pageCommit .ec3 0x08 0 false) twiceClassed =
    done twiceClassed (writeReg twiceClassed .ec3 0x08 0x00C (pctlValue 0 false 1)) := rfl
  rw [hexec, writeReg_head twiceClassed_mayWrite (by decide) (by decide)]
  exact congrArg (fun t : State => done twiceClassed { t with ans := none }) hcommit

theorem twiceCommitted_regs : twiceCommitted.regs = [(rkey 0x08 H.CST.off, fset 0 H.CST 1)] := by decide

/-- The second entry of the class is left. -/
theorem commitClass_twiceCommitted : commitClass twiceCommitted 0x08 = 1 := by decide

theorem twiceCommitted_outOfReach : OutOfReach twiceCommitted where
  boot := rfl
  clean := rfl
  flags p w h := by
    rw [twiceCommitted_regs, List.mem_singleton, Prod.mk.injEq] at h
    have hk : p * 1024 + 0x018 / 4 = 0x08 * 1024 + 0x008 / 4 := h.1
    omega
  ring := rfl
  network w h := by
    rw [twiceCommitted_regs, List.mem_singleton, Prod.mk.injEq] at h
    exact absurd h.1 (by decide)
  chain := by decide
  shown := by decide

theorem finish_twiceCommitted : finish twiceCommitted = keepNote twiceCommitted :=
  congrArg keepNote (finishN_still rfl rfl rfl (by decide) 4096)

/-- What settles to the same state is out of reach before its keep-awake note, and has the same classes. -/
theorem settled_twiceCommitted {u : State} (h : settled twiceClassed u = settled twiceClassed twiceCommitted) :
    OutOfReach (finishN 4096 { u with due := dueSort u.due }) ∧
      (finishN 4096 { u with due := dueSort u.due }).cmtClass = twiceCommitted.cmtClass := by
  generalize hy : finishN 4096 { u with due := dueSort u.due } = y
  have hfinish : finish u = keepNote y := congrArg keepNote hy
  simp only [settled, hfinish, finish_twiceCommitted] at h
  have hboot : y.mode = .boot := (keepNote_mode y).symm.trans ((congrArg State.mode h).trans (keepNote_mode twiceCommitted))
  obtain ⟨yregs, ydirty, yjrn, ylch, yclass⟩ := keepNote_boot hboot
  obtain ⟨tregs, tdirty, tjrn, tlch, tclass⟩ := keepNote_boot (s := twiceCommitted) rfl
  have hregs : y.regs = twiceCommitted.regs := yregs.symm.trans ((congrArg State.regs h).trans tregs)
  have hdirty : y.dirty = twiceCommitted.dirty := ydirty.symm.trans ((congrArg State.dirty h).trans tdirty)
  have hjrn : y.jrn = twiceCommitted.jrn := yjrn.symm.trans ((congrArg State.jrn h).trans tjrn)
  have hlch : y.lch = twiceCommitted.lch := ylch.symm.trans ((congrArg State.lch h).trans tlch)
  have hclass : y.cmtClass = twiceCommitted.cmtClass := yclass.symm.trans ((congrArg State.cmtClass h).trans tclass)
  have hreach := twiceCommitted_outOfReach
  refine ⟨⟨hboot, ?clean, ?flags, ?ring, ?network, ?chain, ?shown⟩, hclass⟩
  case clean => exact hdirty
  case flags => exact fun p w => hregs ▸ hreach.flags p w
  case ring => exact congrArg JrnSt.ring hjrn
  case network => exact fun w => hregs ▸ hreach.network w
  case chain => exact (congrArg (fun m => (storeGet (fun _ => LchSt.init) m 3).phase) hlch).trans hreach.chain
  case shown =>
    intro hs
    have hread : rd y 0x90 R.LCH.STAT.STATE.off = rd twiceCommitted 0x90 R.LCH.STAT.STATE.off := congrArg (storeGet regReset · _) hregs
    exact hreach.shown ((congrArg (fget · R.LCH.STAT.STATE) hread).symm.trans hs)

/-- Refutes O11: in `twiceClassed`, whose stores are canonical and whose classes are not, a COMMIT with APPLY = 0 leaves class 1, and no
other effect settles to the same state with class 0. -/
theorem not_pageCommands : ¬ Obligations.PageCommands := by
  intro h
  obtain ⟨hcommit, _⟩ := h twiceClassed .ec3 0x08 0 false 0 twiceClassed_canon
  obtain ⟨u, hexec, _, _, _, hclass, _⟩ := hcommit twiceClassed_mayWrite (.inr (by decide)) (by decide) (by decide) (by decide)
  rw [exec_pageCommit_twiceClassed] at hexec
  have hsettled : settled twiceClassed u = settled twiceClassed twiceCommitted := by
    simp only [done, Host.Outcome.next.injEq] at hexec
    exact hexec.symm
  obtain ⟨hreach, hsame⟩ := settled_twiceCommitted hsettled
  have hu : u.cmtClass = twiceCommitted.cmtClass := (finishN_outOfReach 4096 _ hreach).2.trans hsame
  have hone : commitClass u 0x08 = 1 := (congrArg (fun m => storeGet seqDefault m 0x08) hu).trans commitClass_twiceCommitted
  have hzero : commitClass u 0x08 = 0 := hclass
  rw [hone] at hzero
  cases hzero

end Sys2Proof.Machine
end

section
/-! What an operation of a block leaves of the mode, of Park entry and of the wakes: the live words of DEV, PMU and RST, the memory, and
the records in AON and MRAM (03, R62 to R73). -/

-- One proof after another: side by side they start more threads than the memory limit of the check has room for.
set_option Elab.async false

namespace Sys2Proof.Machine

/-! ### The frame -/

/-- Keys of the words of DEV, PMU and RST above the header. -/
def modeKey (k : Nat) : Bool := (decide (k / 1024 < 2) || decide (k / 1024 = 3)) && decide (64 ≤ k % 1024)

/-- From `s` to `t` the mode, Park entry and the wakes are left as they are: the words of DEV, PMU and RST above the header, the byte
memories, the fuse record and the bus copy. A canonical register store stays canonical. -/
structure KeepsMode (s t : State) : Prop where
  words : storeKeep modeKey t.regs = storeKeep modeKey s.regs
  canon : storeWf regReset s.regs = true → storeWf regReset t.regs = true
  memory : t.mem = s.mem
  mode : t.mode = s.mode
  park : t.park = s.park
  wakes : t.wk = s.wk
  fuses : t.fuseRec = s.fuseRec
  copy : t.aonCopy = s.aonCopy
  copyOk : t.aonCopyOk = s.aonCopyOk

theorem modeKey_page {q off : Nat} (hq : 4 ≤ q) : modeKey (rkey q off) = false := by
  unfold modeKey rkey
  simp only [Bool.and_eq_false_iff, Bool.or_eq_false_iff, decide_eq_false_iff_not]
  omega

theorem modeKey_head {q off : Nat} (ho : off < 0x100) : modeKey (rkey q off) = false := by
  unfold modeKey rkey
  simp only [Bool.and_eq_false_iff, Bool.or_eq_false_iff, decide_eq_false_iff_not]
  omega

theorem modeKey_clk {off : Nat} (ho : off < 4096) : modeKey (rkey 2 off) = false := by
  unfold modeKey rkey
  simp only [Bool.and_eq_false_iff, Bool.or_eq_false_iff, decide_eq_false_iff_not]
  omega

theorem modeKey_pmu {off : Nat} (ho : 0x100 ≤ off ∧ off < 0x800) : modeKey (rkey 1 off) = true := by
  unfold modeKey rkey
  simp only [Bool.and_eq_true, Bool.or_eq_true, decide_eq_true_eq]
  omega

namespace KeepsMode
variable {s t u : State}

theorem refl (s : State) : KeepsMode s s := ⟨rfl, id, rfl, rfl, rfl, rfl, rfl, rfl, rfl⟩

theorem trans (h : KeepsMode s t) (h' : KeepsMode t u) : KeepsMode s u :=
  ⟨h'.words.trans h.words, h'.canon ∘ h.canon, h'.memory.trans h.memory, h'.mode.trans h.mode, h'.park.trans h.park,
    h'.wakes.trans h.wakes, h'.fuses.trans h.fuses, h'.copy.trans h.copy, h'.copyOk.trans h.copyOk⟩

/-- An update of other parts of the state. -/
theorem upd (h : KeepsMode s t) (hr : u.regs = t.regs := by rfl) (hme : u.mem = t.mem := by rfl) (hmo : u.mode = t.mode := by rfl)
    (hp : u.park = t.park := by rfl) (hw : u.wk = t.wk := by rfl) (hf : u.fuseRec = t.fuseRec := by rfl)
    (hc : u.aonCopy = t.aonCopy := by rfl) (ho : u.aonCopyOk = t.aonCopyOk := by rfl) : KeepsMode s u :=
  h.trans ⟨congrArg (storeKeep modeKey) hr, fun ht => hr ▸ ht, hme, hmo, hp, hw, hf, hc, ho⟩

theorem wr_of (h : KeepsMode s t) {p off : Nat} {w : Word} (hk : modeKey (rkey p off) = false) : KeepsMode s (wr t p off w) :=
  h.trans ⟨storeKeep_set hk, storeSet_wf, rfl, rfl, rfl, rfl, rfl, rfl, rfl⟩

/-- A write to a page above RST. -/
theorem wr (h : KeepsMode s t) {q off : Nat} {w : Word}
    (hq : 4 ≤ q := by simp +arith [hscPage, hbPage, solPage, canPage, linPage]) : KeepsMode s (wr t q off w) :=
  h.wr_of (modeKey_page hq)

theorem setF (h : KeepsMode s t) {q : Nat} {f : Fld} {v : Nat}
    (hq : 4 ≤ q := by simp +arith [hscPage, hbPage, solPage, canPage, linPage]) : KeepsMode s (setF t q f v) := h.wr hq

theorem setFlag (h : KeepsMode s t) {q : Nat} {f : Fld} {b : Bool}
    (hq : 4 ≤ q := by simp +arith [hscPage, hbPage, solPage, canPage, linPage]) : KeepsMode s (setFlag t q f b) := h.wr hq

/-- A write of a header field. -/
theorem setF_head (h : KeepsMode s t) {q : Nat} {f : Fld} {v : Nat} (ho : f.off < 0x100 := by decide) :
    KeepsMode s (Machine.setF t q f v) := h.wr_of (modeKey_head ho)

/-- A write of a field of CLK. -/
theorem setFlag_clk (h : KeepsMode s t) {f : Fld} {b : Bool} (ho : f.off < 4096 := by decide) :
    KeepsMode s (Machine.setFlag t 0x02 f b) := h.wr_of (modeKey_clk ho)

theorem ite {c : Prop} {_ : Decidable c} (h : KeepsMode s t) (h' : KeepsMode s u) : KeepsMode s (if c then t else u) := by
  split
  · exact h
  · exact h'

/-- A step that is taken or left out. -/
theorem when {c : Prop} {_ : Decidable c} (h : KeepsMode s t) (hu : KeepsMode s t → KeepsMode s u) :
    KeepsMode s (if c then u else t) := .ite (hu h) h

/-- What each step of a fold keeps, the fold keeps. -/
theorem foldl {α : Type} {f : State → α → State} {l : List α} (h : KeepsMode s t)
    (hf : ∀ u, KeepsMode s u → ∀ a ∈ l, KeepsMode s (f u a)) : KeepsMode s (l.foldl f t) :=
  List.foldlRecOn l f h hf

/-- A word of DEV, PMU or RST above the header reads as before. -/
theorem rd_eq (h : KeepsMode s t) (hs : storeWf regReset s.regs = true) {p off : Nat} (hk : modeKey (rkey p off) = true) :
    rd t p off = rd s p off := by
  have ht : storeGet regReset (storeKeep modeKey t.regs) (rkey p off) = rd t p off :=
    (storeGet_keep (h.canon hs)).trans (if_pos hk)
  have hs : storeGet regReset (storeKeep modeKey s.regs) (rkey p off) = rd s p off := (storeGet_keep hs).trans (if_pos hk)
  rw [← ht, ← hs, h.words]

theorem getF (h : KeepsMode s t) (hs : storeWf regReset s.regs = true) {p : Nat} {f : Fld}
    (hk : modeKey (rkey p f.off) = true := by decide) : getF t p f = getF s p f := congrArg (fget · f) (h.rd_eq hs hk)

end KeepsMode

section
variable {s t : State} (h : KeepsMode s t)
include h

theorem touch_keepsMode : KeepsMode s (touch t) := h.upd

theorem raiseP_keepsMode (q b : Nat) : KeepsMode s (raiseP t q b) := h.upd

/-- The answer to the initiator of the command. -/
theorem answered_keepsMode (a : Option Answer) : KeepsMode s { t with ans := a } := h.upd

theorem hscSet_keepsMode (n : Nat) (c : HscSt) : KeepsMode s (hscSet t n c) := h.upd

theorem hbSet_keepsMode (n : Nat) (c : HbSt) : KeepsMode s (hbSet t n c) := h.upd

theorem solSet_keepsMode (n : Nat) (c : SolSt) : KeepsMode s (solSet t n c) := h.upd

/-! ### Event lines -/

theorem pendLine_keepsMode {q : Nat} (k : Nat) (hq : 4 ≤ q) : KeepsMode s (pendLine t q k) := .ite (h.wr hq) (h.wr hq)

theorem lineMerge_keepsMode (k : Nat) : KeepsMode s (lineMerge t k) :=
  have hw := h.wr (q := 0x0E)
  .ite hw hw.upd

theorem tbsEventCapture_keepsMode (k : Nat) : KeepsMode s (tbsEventCapture t k) := by
  unfold tbsEventCapture
  exact .ite h (KeepsMode.when h (·.setFlag)).setF.setF.setFlag

theorem dmaTrigger_keepsMode (c : Nat) : KeepsMode s (dmaTrigger t c) := by
  have hbegin : KeepsMode s (dmaTrigger.dmaBegin t c) := (h.setF (q := 0x0F) (f := R.DMA.STAT.BLEFT c)).upd
  unfold dmaTrigger
  exact .ite (.ite (raiseP_keepsMode h.setFlag _ _) h.upd) (.ite (KeepsMode.ite h hbegin).setFlag.setFlag h)

theorem raiseLine_keepsMode (k : Nat) : KeepsMode s (raiseLine t k) := by
  have hmerge := lineMerge_keepsMode h k
  have hcores : ∀ q ∈ corePages, 4 ≤ q := by decide
  unfold raiseLine
  refine .ite h (.ite (.ite hmerge h.upd) (.ite hmerge (.foldl (tbsEventCapture_keepsMode (.foldl (.when h (·.upd)) ?pend) k) ?dma)))
  case pend => exact fun u hu q hq => pendLine_keepsMode hu k (hcores q hq)
  case dma => exact fun u hu c _ => .when hu (dmaTrigger_keepsMode · c)

/-! ### High-side channels and half-bridges -/

theorem hscNoDuty_keepsMode (n : Nat) : KeepsMode s (hscNoDuty t n) := h.setF.setFlag

theorem hscGateOff_keepsMode (n : Nat) : KeepsMode s (hscGateOff t n) := h.upd.setFlag

theorem hscGateOn_keepsMode (n : Nat) : KeepsMode s (hscGateOn t n) := h.upd.setFlag

theorem hscStop_keepsMode (n : Nat) : KeepsMode s (hscStop t n) := hscNoDuty_keepsMode (hscGateOff_keepsMode h.upd n) n

theorem hscStart_keepsMode (n : Nat) (d : Demand) : KeepsMode s (hscStart t n d) := by
  cases d with
  | none => exact hscStop_keepsMode h n
  | full => exact hscGateOn_keepsMode h.upd n
  | gen _ => exact h.upd

theorem diagSet_keepsMode (n res : Nat) : KeepsMode s (diagSet t n res) := h.upd.setF

theorem hscUpdate_keepsMode (n : Nat) : KeepsMode s (hscUpdate t n) := by
  have hs : KeepsMode s (hscSafeLatch t n) := .when h (·.upd.setFlag)
  have hcheck {u : State} (hu : KeepsMode s u) : KeepsMode s (hscStat (hscCheckEnd u n) n) :=
    (KeepsMode.when hu (hscSet_keepsMode · n _)).setF.setFlag.setFlag.setF
  unfold hscUpdate
  refine hcheck (.ite (.when hs (hscStop_keepsMode · n)) (.ite (hscStart_keepsMode hs n _) ?_))
  split
  · exact .ite (hscGateOn_keepsMode (hscNoDuty_keepsMode (hscSet_keepsMode hs n _) n) n) (.when hs (hscSet_keepsMode · n _))
  · exact .ite hs (hscGateOff_keepsMode (hscStart_keepsMode hs n _) n)
  · exact hs

theorem hscApplied_keepsMode (old : State) (n : Nat) : KeepsMode s (hscApplied old t n) := by
  unfold hscApplied
  refine hscUpdate_keepsMode (.when (.when (.when (.when h fun h => ?moved) (hscSet_keepsMode · n _)) (hscSet_keepsMode · n _)) fun h => ?diag) n
  case moved => exact hscGateOff_keepsMode (hscSet_keepsMode h n _) n
  case diag => exact diagSet_keepsMode h n 0

theorem hbNoDuty_keepsMode (n : Nat) : KeepsMode s (hbNoDuty t n) := h.setF.setFlag

theorem hbStop_keepsMode (n : Nat) : KeepsMode s (hbStop t n) := hbNoDuty_keepsMode h.upd n

theorem hbBrake_keepsMode (n act : Nat) : KeepsMode s (hbBrake t n act) := hbNoDuty_keepsMode h.upd n

theorem hbTake_keepsMode (n act : Nat) : KeepsMode s (hbTake t n act) := by
  unfold hbTake
  exact .ite (hbStop_keepsMode h n) (.ite (KeepsMode.ite h (hbNoDuty_keepsMode h n)).upd.setFlag (hbBrake_keepsMode h n act))

theorem hbUpdate_keepsMode (n : Nat) : KeepsMode s (hbUpdate t n) := by
  have hstat {u : State} (hu : KeepsMode s u) : KeepsMode s (hbStat u n) := hu.setF.setFlag.setFlag.setF.setFlag
  have hlatch : KeepsMode s (hbSafeLatch t n) := .when h (·.upd.setFlag)
  unfold hbUpdate
  refine hstat (.ite (.ite (hbStop_keepsMode ?h2 n) ?h2)
    (.ite (.ite ?h2 (hbBrake_keepsMode (hbSet_keepsMode ?h2 n _) n 3)) (.ite ?h2 (hbTake_keepsMode ?h2 n _))))
  exact .when hlatch (hbSet_keepsMode · n _)

theorem hbRepair_keepsMode (m : Nat) (single : Bool) : KeepsMode s (hbRepair t m single) := by
  unfold hbRepair
  exact .ite (hbSet_keepsMode (.when h (raiseP_keepsMode · _ _)) _ _)
    (hbSet_keepsMode (hbSet_keepsMode (.when h (raiseP_keepsMode · _ _)) _ _) _ _)

theorem hbApplied_keepsMode (old : State) (n : Nat) : KeepsMode s (hbApplied old t n) := by
  unfold hbApplied
  refine .ite (hbUpdate_keepsMode (hbUpdate_keepsMode (.ite (hbRepair_keepsMode ?h2 _ _) (hbSet_keepsMode ?h2 _ _)) _) _)
    (hbUpdate_keepsMode ?h1 n)
  case h1 => exact .when h (hbSet_keepsMode · n _)
  case h2 => exact hbStop_keepsMode (hbStop_keepsMode (.when h (hbSet_keepsMode · n _)) _) _

/-! ### Valves and their banks -/

theorem solStat_keepsMode (n : Nat) : KeepsMode s (solStat t n) := h.setF.setFlag.setFlag.setF

theorem solResult_keepsMode (n r : Nat) : KeepsMode s (solResult t n r) := .when h (·.setF)

theorem bankUnqueue_keepsMode (n : Nat) : KeepsMode s (bankUnqueue t n) := h.upd

theorem sbkStat_keepsMode : KeepsMode s (sbkStat t) := h.setFlag

theorem bankUpdate_keepsMode (b : Nat) : KeepsMode s (bankUpdate t b) := by
  unfold bankUpdate
  refine .foldl (h.setFlag.setF.setF) fun u hu n _ => ?_
  have hshown : KeepsMode s (setFlag u (solPage n) R.SOL.STAT.BVST (bankWants t b)) := hu.setFlag
  refine .ite hshown ?_
  split
  · exact solSet_keepsMode hshown n _
  · exact solStat_keepsMode (solResult_keepsMode (solSet_keepsMode hshown n _) n 3) n
  · exact hshown

theorem solBoost_keepsMode (n : Nat) : KeepsMode s (solBoost t n) := by
  unfold solBoost
  have hset := solSet_keepsMode h n
  refine bankUpdate_keepsMode (.when ((hset _).setFlag (q := solPage n)).setFlag (.foldl · fun u hu m _ => ?_)) _
  exact solStat_keepsMode (hu.setFlag (q := solPage m)) m

theorem solLeaveBoost_keepsMode (n dur ipk : Nat) : KeepsMode s (solLeaveBoost t n dur ipk) := by
  unfold solLeaveBoost
  extract_lets q b t1 t2
  have hq : 4 ≤ q := by simp +arith [q, solPage]
  have hr : KeepsMode s t2 := raiseLine_keepsMode (((h.setF hq).setF hq).setFlag hq) _
  split
  · next m _ =>
    exact .ite (solStat_keepsMode (solBoost_keepsMode (bankUnqueue_keepsMode hr m) m) m) (bankUpdate_keepsMode hr _)
  · exact bankUpdate_keepsMode hr _

theorem solEnd_keepsMode (n : Nat) : KeepsMode s (solEnd t n) := by
  unfold solEnd solDecay
  extract_lets u c
  have hunqueued : KeepsMode s u := .when h fun h => bankUpdate_keepsMode (bankUnqueue_keepsMode h n) _
  split
  · have hoff := solSet_keepsMode hunqueued n { c with phase := .decay, gate := false, shared := false, fast := false }
    exact solLeaveBoost_keepsMode hoff.upd n _ _
  · exact bankUpdate_keepsMode (solSet_keepsMode hunqueued n _) _
  · exact hunqueued

theorem solRequest_keepsMode (n : Nat) : KeepsMode s (solRequest t n) := by
  unfold solRequest
  exact .ite h (.ite (bankUpdate_keepsMode (solSet_keepsMode (h.upd.setF (q := 0x84)) n _) _) (solBoost_keepsMode h n))

theorem solNew_keepsMode (n : Nat) (trig : Bool) : KeepsMode s (solNew t n trig) := by
  unfold solNew
  refine .ite h (.ite ?hset (solRequest_keepsMode ?hset n))
  exact solSet_keepsMode (.when h fun h => solResult_keepsMode h n 5) n _

theorem solUpdate_keepsMode (n : Nat) : KeepsMode s (solUpdate t n) := by
  have hset := solSet_keepsMode h n
  unfold solUpdate
  exact solStat_keepsMode (.ite (solNew_keepsMode (hset _) n false) (.ite (hset _) (.when (hset _) (solEnd_keepsMode · n)))) n

theorem solApplied_keepsMode (n : Nat) : KeepsMode s (solApplied t n) := by
  have hs : KeepsMode s (solSlept t n) := .ite h h.upd
  unfold solApplied
  exact solUpdate_keepsMode (.ite hs hs.setFlag) n

theorem sbkApplied_keepsMode : KeepsMode s (sbkApplied t) :=
  sbkStat_keepsMode (.foldl h fun _ hu b _ => .ite hu (bankUpdate_keepsMode hu.upd b))

/-! ### Timebase and ring -/

theorem tbsRoleChanged_keepsMode : KeepsMode s (tbsRoleChanged t) := by
  unfold tbsRoleChanged
  extract_lets _ t1
  have h1 : KeepsMode s t1 := .ite h h.upd.setF
  exact .ite h1 h1.setFlag

theorem jxrStat_keepsMode : KeepsMode s (jxrStat t) := by
  unfold jxrStat
  extract_lets _ _ _ _ status relayed wrapped raised
  have hwrapped : KeepsMode s wrapped := h.upd.setF.setFlag.setFlag.setFlag
  have hraised : KeepsMode s raised := .when hwrapped fun h => raiseP_keepsMode h.setF _ _
  exact .when hraised fun h => touch_keepsMode h.setF

theorem jxrHornOn_keepsMode (m : Nat) : KeepsMode s (jxrHornOn t m) := h.upd

theorem jxrRoleChanged_keepsMode : KeepsMode s (jxrRoleChanged t) := by
  unfold jxrRoleChanged
  extract_lets unlocked _ closed addressed shown _ _
  have hunlocked : KeepsMode s unlocked := h.setFlag.setFlag
  have hclosed : KeepsMode s closed := .ite h hunlocked.upd
  have haddressed : KeepsMode s addressed := .ite hclosed.setF.setF.setFlag (.when hclosed (·.setFlag))
  have hshown : KeepsMode s shown := tbsRoleChanged_keepsMode (jxrStat_keepsMode haddressed)
  exact .ite (.when hshown.upd (jxrHornOn_keepsMode · 3)) hshown

/-! ### Buses and their management -/

theorem linSleep_keepsMode (n : Nat) : KeepsMode s (linSleep t n) := .ite h h.upd

theorem canSelect_keepsMode (n : Nat) : KeepsMode s (canSelect t n) := by
  unfold canSelect
  refine .ite h ?_
  split
  · exact h
  · exact .ite h.upd h.upd

theorem canSetState_keepsMode (n st : Nat) : KeepsMode s (canSetState t n st) := by
  unfold canSetState
  refine .ite h (.ite (raiseP_keepsMode ?hr _ _) (.when ?hr (raiseP_keepsMode · _ _)))
  exact raiseLine_keepsMode h.setF _

theorem nmgDrop_keepsMode : KeepsMode s (nmgDrop t) := by
  unfold nmgDrop
  exact .ite (canSelect_keepsMode h.upd _) h.upd

theorem nmgSetState_keepsMode (st : Nat) : KeepsMode s (nmgSetState t st) := by
  unfold nmgSetState
  refine .ite h (.when (.when (raiseLine_keepsMode h.setF.setFlag _) (raiseP_keepsMode · _ _)) (.foldl · fun u hu n _ => ?_))
  exact .when hu (linSleep_keepsMode · n)

theorem nmgGate_keepsMode : KeepsMode s (nmgGate t) := by
  unfold nmgGate
  exact .ite h (nmgSetState_keepsMode (nmgDrop_keepsMode h).upd 0)

theorem canApplied_keepsMode (n : Nat) : KeepsMode s (canApplied t n) := .ite (canSetState_keepsMode h n 4) (canSelect_keepsMode h n)

theorem linApplied_keepsMode (old : State) (n : Nat) : KeepsMode s (linApplied old t n) := .when h (·.upd)

/-! ### Switch inputs, reflex rules and memory devices -/

theorem swiFollow_keepsMode (n : Nat) : KeepsMode s (swiFollow t n) := by
  unfold swiFollow
  exact .ite h.upd (.when (raiseLine_keepsMode (h.upd.wr (q := 0x1C)).wr 16) (·.upd))

theorem swiApplied_keepsMode (old : State) : KeepsMode s (swiApplied old t) :=
  .foldl h fun _ hu n _ => .when hu fun hu => .ite hu.upd (.ite (swiFollow_keepsMode hu n) hu.upd)

theorem rfxFresh_keepsMode (rs : List Nat) : KeepsMode s (rfxFresh t rs) := h.upd.wr.wr.wr.wr

theorem manifestShow_keepsMode : KeepsMode s (manifestShow t) := .foldl h fun _ hu _ _ => hu.wr

theorem msqApplied_keepsMode (old : State) : KeepsMode s (msqApplied old t) :=
  .foldl h fun _ hu n _ => .when hu (diagSet_keepsMode · n 0)

theorem xspShow_keepsMode : KeepsMode s (xspShow t) := (KeepsMode.foldl (.when h (·.setF)) fun _ hu _ _ => hu.setF).setF

theorem jrnApplied_keepsMode : KeepsMode s (jrnApplied t) := by
  unfold jrnApplied
  extract_lets a n t1 t2
  have h1 : KeepsMode s t1 := .when h (·.setF)
  have h2 : KeepsMode s t2 := by
    simp only [t2]
    split
    · exact h1.setF
    · exact h1
  exact .ite h h2.upd

/-! ### The bridge -/

theorem brgAppend_keepsMode (r : BrgReq) : KeepsMode s (brgAppend t r) := h.upd

theorem brgEnqueue_keepsMode (r : BrgReq) : KeepsMode s (brgEnqueue t r) := by
  unfold brgEnqueue
  split
  · exact .ite h.upd (brgAppend_keepsMode h r)
  · exact brgAppend_keepsMode h r

theorem brgOwn_keepsMode (d a : Nat) (w : Word) : KeepsMode s (brgOwn t d a w) := .ite h.setF (brgEnqueue_keepsMode h _)

theorem brgParkStart_keepsMode : KeepsMode s (brgParkStart t) := by
  have hround (l : List (Nat × Nat)) : KeepsMode s { t with brg := { t.brg with park := l } } := h.upd
  unfold brgParkStart
  exact .ite h (.foldl (hround _).setFlag fun u hu d _ => brgOwn_keepsMode hu d _ _)

theorem brgParkEnd_keepsMode : KeepsMode s (brgParkEnd t) :=
  have hround : KeepsMode s { t with brg := { t.brg with park := [] } } := h.upd
  hround.setFlag

theorem brgLimp_keepsMode : KeepsMode s (brgLimp t) :=
  .ite h (.foldl h fun _ hu d _ => .when hu (brgOwn_keepsMode · d _ _))

/-! ### Release messages, sessions and the vault's commands -/

theorem relFail_keepsMode : KeepsMode s (relFail t) := raiseP_keepsMode h.setF _ _

theorem relDrop_keepsMode : KeepsMode s (relDrop t) := .foldl h.upd fun _ hu _ _ => relFail_keepsMode hu

theorem immSess_keepsMode : KeepsMode s (immSess t) := h.setFlag

theorem immUnheard_keepsMode : KeepsMode s (immUnheard t) := by
  have hfresh : KeepsMode s { t with free := t.free + 1 + 1 } := h.upd
  unfold immUnheard
  exact .ite h hfresh.setF.setF

theorem immFieldOff_keepsMode : KeepsMode s (immFieldOff t) := by
  have hmeas : KeepsMode s { t with imm := { t.imm with meas := true } } := h.upd
  exact hmeas.setF.setFlag.setFlag_clk.setFlag_clk

theorem immCount_keepsMode (res : Nat) : KeepsMode s (immCount t res) := by
  unfold immCount
  extract_lets n counted lim
  have hcounted : KeepsMode s counted := h.setF
  exact .ite h.setF (.ite h (.when hcounted fun h => raiseP_keepsMode (h.setFlag (q := 0x1A)) _ _))

theorem immEnd_keepsMode (res : Nat) : KeepsMode s (immEnd t res) := by
  unfold immEnd
  extract_lets heard _ silent shown authorised counted raised
  have hsilent : KeepsMode s silent := immFieldOff_keepsMode (immUnheard_keepsMode h).upd
  have hshown : KeepsMode s shown := hsilent.setF.setFlag
  have hauthorised : KeepsMode s authorised := .when hshown fun h => (h.setFlag (q := 0x1A)).setF
  have hcounted : KeepsMode s counted := immCount_keepsMode (immSess_keepsMode hauthorised) res
  exact raiseLine_keepsMode (.when hcounted (raiseP_keepsMode · _ _)) 63

/-- Authorisation ends where the mode allows no more message. -/
theorem immClear_keepsMode : KeepsMode s (immClear t false) := by
  have hdropped : KeepsMode s (relDrop (immDrop t false)) := by
    simp only [immDrop, Bool.and_false, Bool.false_and, Bool.false_eq_true, if_false]
    exact relDrop_keepsMode h.setFlag
  exact immSess_keepsMode (.when hdropped (immEnd_keepsMode · 9))

theorem vltFinish_keepsMode (res : Nat) : KeepsMode s (vltFinish t res) := by
  have hnone : KeepsMode s { t with vlt := { t.vlt with cmd := none } } := h.upd
  exact raiseLine_keepsMode (.when hnone.setF.setFlag.setF (raiseP_keepsMode · _ _)) 63

theorem vltAbort_keepsMode : KeepsMode s (vltAbort t) := by
  unfold vltAbort
  split
  · exact h
  · exact raiseP_keepsMode (vltFinish_keepsMode (.when h (·.upd)) 10) _ _

theorem trialShut_keepsMode : KeepsMode s (trialShut t) := by
  have htrial (free sec : Nat) : KeepsMode s { t with free := free, upd := { t.upd with trun := sec } } := h.upd
  unfold trialShut
  exact .ite h (htrial _ _).setF

/-! ### Controllers that join or leave their bus -/

theorem linSetState_keepsMode (n st : Nat) : KeepsMode s (linSetState t n st) := h.setF

theorem linGate_keepsMode (n : Nat) : KeepsMode s (linGate t n) :=
  .ite (.when h (linSetState_keepsMode · n 1)) (.ite (.when h (·.upd)) (linSetState_keepsMode h n 0))

theorem canGate_keepsMode (n : Nat) : KeepsMode s (canGate t n) := by
  have hdropped : KeepsMode s (if canRel t n then relDrop t else t) := .when h (relDrop_keepsMode ·)
  unfold canGate
  exact .ite (.when h fun h => canSelect_keepsMode (canSetState_keepsMode h.setF.setF n 1) n)
    (.ite hdropped (canSetState_keepsMode hdropped n 0))

theorem canShut_keepsMode (n : Nat) : KeepsMode s (canShut t n) := by
  have hclear : KeepsMode s (setF t (canPage n) R.CAN.TXREQ.REQ 0) := h.setF
  exact canSetState_keepsMode hclear.upd n 0

/-! ### Commits (R43, R45) -/

/-- What a block does at its apply edge. -/
theorem blockApplied_keepsMode (old : State) (p : Nat) : KeepsMode s (blockApplied old t p) := by
  unfold blockApplied
  split
  · next b p0 hb =>
    cases b <;> dsimp only
    case PROT => exact manifestShow_keepsMode h
    case JXR => exact jxrRoleChanged_keepsMode h.upd
    case NMG => exact nmgGate_keepsMode h
    case CAN => exact canApplied_keepsMode h _
    case LIN => exact linApplied_keepsMode h old _
    case TBS => exact tbsRoleChanged_keepsMode h
    case SWI => exact swiApplied_keepsMode h old
    case RFX => exact rfxFresh_keepsMode h _
    case HSC => exact hscApplied_keepsMode h old _
    case HB => exact hbApplied_keepsMode h old _
    case SOL => exact solApplied_keepsMode h _
    case SBK => exact sbkApplied_keepsMode h
    case MSQ => exact msqApplied_keepsMode h old
    case XSP => exact xspShow_keepsMode h
    case JRN => exact jrnApplied_keepsMode h
    case PMU => exact h.setFlag_clk
    all_goals exact h
  · exact h

theorem applyPage_keepsMode (p kind : Nat) : KeepsMode s (applyPage t p kind) := by
  have hconfig : KeepsMode s (appliedConfig t p kind) := (h.setF_head (f := H.EPOCH)).upd
  have hresult : KeepsMode s (setF (setF (appliedConfig t p kind) p H.CRES 1) p H.CST 0) := hconfig.setF_head.setF_head
  have hended : KeepsMode s (commitEnd (appliedConfig t p kind) p 1) := hresult.upd.setF_head (f := H.CMTDONE)
  exact touch_keepsMode (blockApplied_keepsMode hended.upd t p)

theorem commitMode_keepsMode : KeepsMode s (commitMode t) := .foldl h fun _ hu p _ => .when hu (applyPage_keepsMode · p _)

theorem commitSleep_keepsMode : KeepsMode s (commitSleep t) := .when h (applyPage_keepsMode · 0x01 _)

end

end Sys2Proof.Machine
end

section
/-! Mode requests and Park entry (03, R61 to R67; 16, R379; 18, R419). -/

-- One proof after another: side by side they start more threads than the memory limit of the check has room for.
set_option Elab.async false

namespace Sys2Proof.Machine

/-! ### DEV.MODE (R62) -/

section
variable (s : State) (m : Mode) (cause : Nat)

@[simp] theorem modeShow_mode : (modeShow s m cause).mode = m := rfl
@[simp] theorem modeShow_park : (modeShow s m cause).park = s.park := rfl
@[simp] theorem modeShow_mem : (modeShow s m cause).mem = s.mem := rfl

end

section
variable {s : State} {m : Mode} {cause : Nat} (h : storeWf regReset s.regs = true)
include h

theorem modeShow_wf : storeWf regReset (modeShow s m cause).regs = true :=
  setF_wf (s := setF (setF s _ _ _) _ _ _) (setF_wf (setF_wf h))

theorem modeShow_getF {p : Nat} {f : Fld} (hk : rkey p f.off ≠ rkey 0 0x110 := by decide) :
    getF (modeShow s m cause) p f = getF s p f := by
  have hset : getF (modeShow s m cause) p f = getF (setF (setF (setF s 0 R.DEV.MODE.PREV (modeCode s.mode)) 0 R.DEV.MODE.CAUSE cause)
    0 R.DEV.MODE.MODE (modeCode m)) p f := rfl
  rw [hset, getF_setF_key (setF_wf (setF_wf h)) hk, getF_setF_key (setF_wf h) hk, getF_setF_key h hk]

theorem modeShow_cause : getF (modeShow s m cause) 0 R.DEV.MODE.CAUSE = cause % 256 := by
  have hset : getF (modeShow s m cause) 0 R.DEV.MODE.CAUSE = getF (setF (setF (setF s 0 R.DEV.MODE.PREV (modeCode s.mode)) 0
    R.DEV.MODE.CAUSE cause) 0 R.DEV.MODE.MODE (modeCode m)) 0 R.DEV.MODE.CAUSE := rfl
  rw [hset, getF_setF_bits (f := R.DEV.MODE.MODE) (g := R.DEV.MODE.CAUSE) (setF_wf (setF_wf h)) rfl (by decide) (by decide) (by decide) (by decide),
    getF_setF_same (setF_wf h) (by decide) (by decide)]
  rfl

end

/-- The ALIVE pin and EV17 follow a change of mode. -/
theorem modeFollowed_keepsMode {s t : State} (h : KeepsMode s t) : KeepsMode s (touch (raiseLine (aliveShow t) 17)) :=
  touch_keepsMode (raiseLine_keepsMode h.setFlag 17)

/-- What follows the entry to LIMP: it ends a Park entry (R380, notes/assumptions/40). -/
theorem setMode_limp_keepsMode (s : State) (cause : Nat) :
    KeepsMode (modeShow { s with park := .none } .limp cause) (setMode s .limp cause) := by
  have h := KeepsMode.refl (modeShow { s with park := .none } .limp cause)
  unfold setMode
  extract_lets ends round closing shown opened horned held loaded committed cleared _ limped
  have hopened : KeepsMode _ opened := .when h fun h =>
    .foldl (.foldl (sbkStat_keepsMode (jxrRoleChanged_keepsMode h)) fun _ hu n _ => canGate_keepsMode hu n)
      fun _ hu n _ => linGate_keepsMode hu n
  have hhorned : KeepsMode _ horned := .when hopened fun h => jxrHornOn_keepsMode (brgParkEnd_keepsMode h) 3
  have hcommitted : KeepsMode _ committed := commitMode_keepsMode hhorned
  have hcleared : KeepsMode _ cleared := .when hcommitted (immClear_keepsMode ·)
  have hlimped : KeepsMode _ limped := brgLimp_keepsMode hcleared.upd
  exact modeFollowed_keepsMode hlimped.setFlag

/-- A granted write of DEV.MREQ (03 Table 4). -/
theorem answers_mreq {c : Instr} {s t : State} {who : Who} {v : Word} {P : State → Prop} (hm : MayWrite s who 0x00 0x114)
    (he : exec c s = done s (writeReg s who 0x00 0x114 v)) (ht : mreqWrite s who v.toNat = t) (hp : P { t with ans := none }) :
    Answers c s P := by
  subst ht
  exact .of_done (he.trans (congrArg (done s) (writeReg_live hm (by decide) (by decide) (by decide) (by decide)))) hp

/-! ### Park entry begins (R61, R65) -/

/-- Park entry at t0. -/
def parkBegun (s : State) (req : Bool) : State :=
  { s with park := .quiesce, wk := { s.wk with fired := false, latched := [], req := req, ka := 0, kaPage := 0 } }

theorem parkStart_keepsMode (s : State) (req : Bool) : KeepsMode (parkBegun s req) (parkStart s req) := by
  have hshown : KeepsMode (parkBegun s req) (setF (parkBegun s req) 0x0A R.BRG.WSUM.PSTATE 1) := (KeepsMode.refl _).setF
  unfold parkStart
  refine touch_keepsMode (brgParkStart_keepsMode (raiseLine_keepsMode ?_ 18))
  dsimp only
  split
  · exact hshown.upd
  · exact hshown.upd

theorem mreqPark_accepted {s : State} (hm : s.mode = .run ∨ s.mode = .hold) (hp : s.park = .none) : mreqPark s = parkStart s true := by
  rcases hm with hm | hm <;> simp [mreqPark, hm, hp]

theorem mreqLimp_accepted {s : State} (hm : s.mode = .run ∨ s.mode = .hold) : mreqLimp s = setMode s .limp 3 := by
  rcases hm with hm | hm <;> simp [mreqLimp, hm]

/-- The idle count at zero. -/
theorem idleExpiry_expired {s : State} (noBeacon : Bool) (hm : s.mode = .run ∨ s.mode = .hold) (hp : s.park = .none) (hk : kstat s = 0) :
    idleExpiry s noBeacon = if parkByManager (setF s 0x01 R.PMU.IDLECNT.CNT 0) noBeacon then setF s 0x01 R.PMU.IDLECNT.CNT 0
      else parkStart (setF s 0x01 R.PMU.IDLECNT.CNT 0) false := by
  rcases hm with hm | hm <;> simp [idleExpiry, hm, hp, hk]

/-- The idle count is none of what tells a worker from the manager. -/
theorem parkByManager_idle {s : State} (h : storeWf regReset s.regs = true) (noBeacon : Bool) :
    parkByManager (setF s 0x01 R.PMU.IDLECNT.CNT 0) noBeacon = parkByManager s noBeacon := by
  have hget (f : Fld) (ho : f.off < 4096) : getF (setF s 0x01 R.PMU.IDLECNT.CNT 0) 0x0B f = getF s 0x0B f :=
    getF_setF_key h (rkey_ne (by decide) ho (.inl (by decide)))
  have hrole : jxrRole (setF s 0x01 R.PMU.IDLECNT.CNT 0) = jxrRole s := by
    simp only [jxrRole, blockOff, configured, enabled, isSet, hget H.EPOCH (by decide), hget H.ENABLE (by decide)]
    rfl
  simp only [parkByManager, hrole, isSet, hget R.JXR.ADDR.VALID (by decide)]

/-! ### The end of the quiesce window (R66, R68) -/

/-- PMU's record of a refused Park entry. -/
def refusalNoted (s : State) (reason page dev : Nat) : State :=
  setF (setF (setF (setF s 0x01 R.PMU.REFUSE.COUNT (satInc 65535 (getF s 0x01 R.PMU.REFUSE.COUNT)))
    0x01 R.PMU.REFWHO.DEVADDR dev) 0x01 R.PMU.REFWHO.PAGE page) 0x01 R.PMU.REFWHO.REASON reason

/-- A refused Park entry up to its end. -/
def parkRefused (s : State) (reason page dev : Nat) : State :=
  let s := refusalNoted s reason page dev
  let s := setF (setF (setF s 0x0A R.BRG.WSUM.PSTATE 3) 0x0A R.BRG.WSUM.REFREASON reason) 0x0A R.BRG.WSUM.REFPAGE page
  if s.brg.park.isEmpty then s else jxrHorn (brgParkEnd s)

theorem parkRefuse_eq (s : State) (reason page dev : Nat) :
    parkRefuse s reason page dev = touch (idleReload { parkRefused s reason page dev with park := .none }) := rfl

theorem parkRefused_keepsMode (s : State) (reason page dev : Nat) :
    KeepsMode (refusalNoted s reason page dev) (parkRefused s reason page dev) := by
  have hsummed := (((KeepsMode.refl (refusalNoted s reason page dev)).setF (q := 0x0A) (f := R.BRG.WSUM.PSTATE) (v := 3)).setF
    (q := 0x0A) (f := R.BRG.WSUM.REFREASON) (v := reason)).setF (q := 0x0A) (f := R.BRG.WSUM.REFPAGE) (v := page)
  exact .ite hsummed (jxrHornOn_keepsMode (brgParkEnd_keepsMode hsummed) 3)

section
variable {s : State} {reason page dev : Nat} (h : storeWf regReset s.regs = true)
include h

theorem refusalNoted_wf : storeWf regReset (refusalNoted s reason page dev).regs = true := setF_wf (setF_wf (setF_wf (setF_wf h)))

/-- A word of PMU beside the idle count after a refusal. -/
theorem parkRefuse_getF {f : Fld} (hk : modeKey (rkey 1 f.off) = true) (hi : rkey 1 f.off ≠ rkey 1 0x108) :
    getF (parkRefuse s reason page dev) 0x01 f = getF (refusalNoted s reason page dev) 0x01 f := by
  have hkeeps := parkRefused_keepsMode s reason page dev
  have hw := hkeeps.canon (refusalNoted_wf h)
  rw [parkRefuse_eq]
  exact (getF_setF_key (s := { parkRefused s reason page dev with park := .none }) (f := R.PMU.IDLECNT.CNT) hw hi).trans
    (hkeeps.getF (refusalNoted_wf h) hk)

theorem parkRefuse_reason : getF (parkRefuse s reason page dev) 0x01 R.PMU.REFWHO.REASON = reason % 256 := by
  rw [parkRefuse_getF h (by decide) (by decide)]
  exact getF_setF_same (setF_wf (setF_wf (setF_wf h))) (by decide) (by decide)

theorem parkRefuse_page : getF (parkRefuse s reason page dev) 0x01 R.PMU.REFWHO.PAGE = page % 256 := by
  rw [parkRefuse_getF h (by decide) (by decide), refusalNoted,
    getF_setF_bits (f := R.PMU.REFWHO.REASON) (g := R.PMU.REFWHO.PAGE) (setF_wf (setF_wf (setF_wf h))) rfl (by decide) (by decide) (by decide) (by decide)]
  exact getF_setF_same (setF_wf (setF_wf h)) (by decide) (by decide)

theorem parkRefuse_count :
    getF (parkRefuse s reason page dev) 0x01 R.PMU.REFUSE.COUNT = satInc 65535 (getF s 0x01 R.PMU.REFUSE.COUNT) := by
  have hk {f : Fld} (hf : f.off = 0x118) : rkey 1 R.PMU.REFUSE.COUNT.off ≠ rkey 1 f.off := by rw [hf]; decide
  rw [parkRefuse_getF h (by decide) (by decide), refusalNoted, getF_setF_key (setF_wf (setF_wf (setF_wf h))) (hk rfl),
    getF_setF_key (setF_wf (setF_wf h)) (hk rfl), getF_setF_key (setF_wf h) (hk rfl), getF_setF_same h (by decide) (by decide)]
  exact Nat.mod_eq_of_lt (Nat.lt_of_le_of_lt (satInc_le _ _) (by decide))

end

theorem parkRefuse_mode (s : State) (reason page dev : Nat) : (parkRefuse s reason page dev).mode = s.mode :=
  (parkRefused_keepsMode s reason page dev).mode

/-- t1 with nothing that refuses. -/
theorem parkQuiesceEnd_commits {s : State} {upd jrn : Bool} (hp : s.park = .quiesce) (hk : parkKeep (keepNote s) = none)
    (hb : parkBlock s upd jrn = none) (hf : s.wk.fired = false) :
    parkQuiesceEnd s upd jrn = setF { brgParkEnd s with park := .committed } 0x0A R.BRG.WSUM.PSTATE 2 := by
  simp [parkQuiesceEnd, hp, hk, hb, hf]

/-- t1 with a keep-awake source. -/
theorem parkQuiesceEnd_kept {s : State} (upd jrn : Bool) {r pg : Nat} (hp : s.park = .quiesce) (hk : parkKeep (keepNote s) = some (r, pg))
    (hr : r ≠ 6) : parkQuiesceEnd s upd jrn = parkRefuse s r pg 0 := by
  simp [parkQuiesceEnd, hp, hk, hr]

/-! ### t2 and t3 (R62, R63, R128, R419) -/

@[simp] theorem trialShut_applied (s : State) : (trialShut s).applied = s.applied := by
  unfold trialShut
  split <;> rfl

/-- The fuse record and the bus copy at t2. -/
def parkCopied (s : State) : State :=
  { s with park := .closing, fuseRec := some (fuseRecord s), aonCopy := storeKeep aonCopied s.applied, aonCopyOk := true }

/-- The cyclic inputs at t2. -/
def parkSchedule (s : State) : WakeSt :=
  { s.wk with cyc := cycInputs s, cycCfg := cycWetting s, conf := cfgOn s 0x1C R.SWI.CYC.CONF, diff := [], per := cfg s 0x1C R.SWI.CYC.PER }

/-- The copies at t2, before the buses are left. -/
def parkTaken (s : State) : State :=
  let s := immPollCopy (parkCopied s)
  { s with wk := parkSchedule s }

section
variable (s : State)

@[simp] theorem parkTaken_mode : (parkTaken s).mode = s.mode := rfl
@[simp] theorem parkTaken_park : (parkTaken s).park = .closing := rfl
@[simp] theorem parkTaken_fuseRec : (parkTaken s).fuseRec = some (fuseRecord s) := rfl
@[simp] theorem parkTaken_aonCopy : (parkTaken s).aonCopy = storeKeep aonCopied s.applied := rfl
@[simp] theorem parkTaken_aonCopyOk : (parkTaken s).aonCopyOk = true := rfl

end

theorem parkT2_keepsMode {s : State} (hp : s.park = .committed) (sec : Nat) :
    KeepsMode (parkTaken (trialShut (setF s 0x01 R.PMU.RTCSEC.SEC sec))) (parkT2 s sec) := by
  unfold parkT2
  rw [if_neg (not_not_intro hp)]
  refine touch_keepsMode (jxrRoleChanged_keepsMode (sbkStat_keepsMode (vltAbort_keepsMode (.foldl (.foldl (.refl _) ?can) ?lin))))
  case can => exact fun u hu n _ => canShut_keepsMode hu n
  case lin => exact fun u hu n _ => linSetState_keepsMode hu n 0

/-- The strong-wake levels at t3; no wake is latched any more. -/
def levelsLatched (t : State) (levels : Nat) : State := pinsSet { t with wk := { t.wk with level := levels, latched := [] } } 0xFF levels

section
variable (s : State) (levels : Nat) (m : Mode) (cause : Nat)

@[simp] theorem levelsLatched_park : (levelsLatched s levels).park = s.park := rfl
@[simp] theorem levelsLatched_mode : (levelsLatched s levels).mode = s.mode := rfl
@[simp] theorem levelsLatched_level : (levelsLatched s levels).wk.level = levels := rfl
@[simp] theorem powerDown_park : (powerDown s m cause).park = .none := rfl
@[simp] theorem powerDown_mode : (powerDown s m cause).mode = m := rfl

end

/-- t3 with no wake latched. -/
theorem parkT3_unlatched {s : State} (levels : Nat) (hp : s.park = .closing) (hl : s.wk.latched = []) :
    parkT3 s levels = levelsLatched
      (powerDown (commitSleep s) (if s.wk.cyc ≠ [] || s.imm.pollOn then .watch else .park) (if s.wk.req then 3 else 2)) levels := by
  simp [parkT3, hp, hl, wakeFirst, levelsLatched]

/-! ### The statements -/

/-- Settles O15: each command is an equation for its act in the case that the statement names; what follows the act keeps the mode, the
Park entry and the words that the act wrote. -/
theorem modeRequests : Obligations.ModeRequests := by
  intro s who noBeacon upd jrn sec levels hcanon
  have h := hcanon.regs
  refine ⟨?run, ?park, ?limp, ?idle, ?commits, ?refused, ?t2, ?t3⟩
  case run =>
    intro hm hok hreq
    refine answers_mreq (v := 1) (t := mreqRun s who) hm rfl rfl ?_
    have hw : storeWf regReset (setF s 0x03 R.RST.HOLDWHY.WHY 0).regs = true := setF_wf h
    have hshown : KeepsMode (runShown s) { mreqRun s who with ans := none } := by
      rw [mreqRun_accepted hok hreq]
      exact answered_keepsMode (modeFollowed_keepsMode (commitMode_keepsMode (.refl _))) none
    have hcause : getF (runShown s) 0 R.DEV.MODE.CAUSE = 3 :=
      (getF_setF_key (modeShow_wf hw) (by decide)).trans (modeShow_cause hw)
    exact ⟨hshown.mode, (hshown.getF (setF_wf (modeShow_wf hw))).trans hcause⟩
  case park =>
    intro hm hmode hpark
    refine answers_mreq (v := 2) (t := mreqPark s) hm rfl rfl ?_
    rw [mreqPark_accepted hmode hpark]
    have hbegun := answered_keepsMode (parkStart_keepsMode s true) none
    exact ⟨hbegun.mode, hbegun.park, congrArg WakeSt.req hbegun.wakes, hbegun.memory⟩
  case limp =>
    intro hm hmode
    refine answers_mreq (v := 3) (t := mreqLimp s) hm rfl rfl ?_
    rw [mreqLimp_accepted hmode]
    have hlimp := answered_keepsMode (setMode_limp_keepsMode s 3) none
    have hw : storeWf regReset ({ s with park := .none } : State).regs = true := h
    exact ⟨hlimp.mode, hlimp.park, (hlimp.getF (modeShow_wf hw)).trans (modeShow_cause hw)⟩
  case idle =>
    intro hmode hpark hk
    refine .of_done rfl ?_
    have hzero : getF (setF s 0x01 R.PMU.IDLECNT.CNT 0) 0x01 R.PMU.IDLECNT.CNT = 0 := getF_setF_same h (by decide) (by decide)
    have hbegun := parkStart_keepsMode (setF s 0x01 R.PMU.IDLECNT.CNT 0) false
    rw [idleExpiry_expired noBeacon hmode hpark hk, parkByManager_idle h]
    split
    · exact ⟨hzero, rfl, hpark⟩
    · exact ⟨(hbegun.getF (setF_wf h)).trans hzero, hbegun.mode, hbegun.park⟩
  case commits =>
    intro hp hk hb hf
    refine .of_done rfl ?_
    rw [parkQuiesceEnd_commits hp hk hb hf]
    exact ⟨rfl, rfl⟩
  case refused =>
    intro r pg hp hk hr
    refine .of_done rfl ?_
    rw [parkQuiesceEnd_kept upd jrn hp hk hr]
    exact ⟨rfl, parkRefuse_mode s r pg 0, parkRefuse_reason h, parkRefuse_page h, parkRefuse_count h⟩
  case t2 =>
    intro hp
    refine .of_done rfl ?_
    have htaken := parkT2_keepsMode hp sec.toNat
    have hshut := trialShut_keepsMode (.refl (setF s 0x01 R.PMU.RTCSEC.SEC sec.toNat))
    simp [htaken.park, htaken.fuses, htaken.copy, htaken.copyOk, htaken.mode, hshut.mode]
  case t3 =>
    intro hp hl
    refine .of_done rfl ?_
    rw [parkT3_unlatched levels.toNat hp hl]
    simp

end Sys2Proof.Machine
end

section
/-! Entry to BOOT: what the supplies that stay up keep, and what it shows (01, R19; 03, R62, R70, R77 to R80; 06, R127, R128; 08, R185). -/

-- One proof after another: side by side they start more threads than the memory limit of the check has room for.
set_option Elab.async false

namespace Sys2Proof.Machine

/-! ### Stores as lists of entries -/

section
variable {α : Type} {d : Nat → α} {m r : Store α} {i lo hi : Nat}

theorem storeGet_of_mem {v : α} (h : m.Pairwise (·.1 < ·.1)) (hm : (i, v) ∈ m) : storeGet d m i = v := by
  induction m with
  | nil => cases hm
  | cons e m ih =>
    obtain ⟨hlt, hrest⟩ := List.pairwise_cons.mp h
    rcases List.mem_cons.mp hm with rfl | htail
    · simp [storeGet]
    · have hk : e.1 < i := hlt _ htail
      simp [storeGet, hk.ne, hk.le, ih hrest htail]

theorem storeGet_of_forall_ne (h : ∀ e ∈ m, e.1 ≠ i) : storeGet d m i = d i := by
  by_contra hne
  obtain ⟨w, hw⟩ := mem_of_storeGet_ne hne
  exact h _ hw rfl

/-- Stores with the same entries at a key read alike there. -/
theorem storeGet_congr_entries (hm : m.Pairwise (·.1 < ·.1)) (hr : r.Pairwise (·.1 < ·.1)) (h : ∀ v, (i, v) ∈ m ↔ (i, v) ∈ r) :
    storeGet d m i = storeGet d r i := by
  by_cases he : ∃ v, (i, v) ∈ m
  · obtain ⟨v, hv⟩ := he
    rw [storeGet_of_mem hm hv, storeGet_of_mem hr ((h v).mp hv)]
  · have hnone : ∀ e ∈ m, e.1 ≠ i := fun e hmem hk => he ⟨e.2, hk ▸ hmem⟩
    have hnone' : ∀ e ∈ r, e.1 ≠ i := fun e hmem hk => he ⟨e.2, (h _).mpr (hk ▸ hmem)⟩
    rw [storeGet_of_forall_ne hnone, storeGet_of_forall_ne hnone']

theorem storePatch_pairwise (hm : m.Pairwise (·.1 < ·.1)) (hr : r.Pairwise (·.1 < ·.1)) (hle : lo ≤ hi) :
    (storePatch lo hi m r).Pairwise (·.1 < ·.1) := by
  unfold storePatch storeCut
  rw [List.pairwise_append, List.pairwise_append]
  refine ⟨⟨hm.filter _, hr.filter _, ?_⟩, hm.filter _, ?_⟩
  all_goals
    intro a ha b hb
    simp only [List.mem_append, List.mem_filter, Bool.and_eq_true, decide_eq_true_eq] at ha hb
    omega

theorem storeGet_patch_ne (hm : m.Pairwise (·.1 < ·.1)) (hr : r.Pairwise (·.1 < ·.1)) (hle : lo ≤ hi) (hi' : i < lo ∨ hi ≤ i) :
    storeGet d (storePatch lo hi m r) i = storeGet d m i := by
  refine storeGet_congr_entries (storePatch_pairwise hm hr hle) hm fun v => ?_
  simp only [storePatch, storeCut, List.mem_append, List.mem_filter, Bool.and_eq_true, decide_eq_true_eq]
  constructor
  · rintro ((⟨h, _⟩ | ⟨_, h⟩) | ⟨h, _⟩)
    · exact h
    · omega
    · exact h
  · rcases hi' with h | h
    · exact fun hv => .inl (.inl ⟨hv, h⟩)
    · exact fun hv => .inr ⟨hv, h⟩

variable [DecidableEq α]

/-- The canonical form: keys strictly rising, no entry equal to its default. -/
theorem storeWfFrom_iff : storeWfFrom d lo m = true ↔ (∀ e ∈ m, lo ≤ e.1 ∧ e.2 ≠ d e.1) ∧ m.Pairwise (·.1 < ·.1) := by
  induction m generalizing lo with
  | nil => simp [storeWfFrom]
  | cons e m ih =>
    simp only [storeWfFrom, Bool.and_eq_true, decide_eq_true_eq, ih, List.forall_mem_cons, List.pairwise_cons]
    constructor
    · rintro ⟨⟨hlo, hv⟩, hm, hp⟩
      exact ⟨⟨⟨hlo, hv⟩, fun a ha => ⟨by have := (hm a ha).1; omega, (hm a ha).2⟩⟩, fun a ha => (hm a ha).1, hp⟩
    · rintro ⟨⟨⟨hlo, hv⟩, hm⟩, hlt, hp⟩
      exact ⟨⟨hlo, hv⟩, fun a ha => ⟨hlt a ha, (hm a ha).2⟩, hp⟩

theorem storeWf_pairwise (h : storeWf d m = true) : m.Pairwise (·.1 < ·.1) := (storeWfFrom_iff.mp h).2

theorem storePatch_wf (hm : storeWf d m = true) (hr : storeWf d r = true) (hle : lo ≤ hi) : storeWf d (storePatch lo hi m r) = true := by
  refine storeWfFrom_iff.mpr ⟨fun e he => ⟨Nat.zero_le _, ?_⟩, storePatch_pairwise (storeWf_pairwise hm) (storeWf_pairwise hr) hle⟩
  simp only [storePatch, storeCut, List.mem_append, List.mem_filter] at he
  rcases he with (⟨he, _⟩ | ⟨he, _⟩) | ⟨he, _⟩
  · exact ((storeWfFrom_iff.mp hm).1 e he).2
  · exact ((storeWfFrom_iff.mp hr).1 e he).2
  · exact ((storeWfFrom_iff.mp hm).1 e he).2

end

theorem shadowLo_le_shadowHi (p : Nat) : shadowLo p ≤ shadowHi p := by
  unfold shadowLo shadowHi
  omega

/-- A pending MODE commit of PMU leaves the configuration in force canonical. -/
theorem commitSleep_applied_wf {s : State} (h : storeWf regReset s.regs = true) (ha : storeWf regReset s.applied = true) :
    storeWf regReset (commitSleep s).applied = true := by
  unfold commitSleep
  split
  · rw [applyPage_applied]
    exact storePatch_wf ha h (shadowLo_le_shadowHi _)
  · exact ha

/-! ### What survives (R78, R185, R530) -/

/-- The addresses that `carried` keeps. -/
def survives (pwr : Bool) (a : Nat) : Bool := nvAddr a || (pwr && !vaultAddr a)

/-- The register words that `carried` keeps. -/
def carriedRegs (aon pwr : Bool) (s : State) : Store Word :=
  let regs := storeKeep (fun k => nvReg k || (aon && aonReg k) || (pwr && pwrReg k)) s.regs
  if aon then storePatch (shadowLo 1) (shadowHi 1) regs s.applied else regs

section
variable (aon pwr : Bool) (s : State)

theorem carried_mem : (carried aon pwr s).mem = storeKeep (survives pwr) s.mem := by cases aon <;> cases pwr <;> rfl

@[simp] theorem carried_park : (carried aon pwr s).park = .none := by cases aon <;> cases pwr <;> rfl

theorem carried_regs_lost : (carried false pwr s).regs = carriedRegs false pwr s := by cases pwr <;> rfl

theorem carried_regs_aon : (carried true pwr s).regs =
    (setF { s with regs := carriedRegs true pwr s } 0x07 R.UPD.STAT.LAST (getF s 0x07 R.UPD.STAT.LAST)).regs := by cases pwr <;> rfl

variable {aon pwr s} (h : storeWf regReset s.regs = true) (ha : storeWf regReset s.applied = true)
include h ha

theorem carriedRegs_wf : storeWf regReset (carriedRegs aon pwr s) = true := by
  unfold carriedRegs
  dsimp only
  split
  · exact storePatch_wf (storeKeep_wf h) ha (shadowLo_le_shadowHi 1)
  · exact storeKeep_wf h

theorem carried_wf : storeWf regReset (carried aon pwr s).regs = true := by
  have hregs : storeWf regReset (carriedRegs aon pwr s) = true := carriedRegs_wf h ha
  cases aon with
  | false => exact carried_regs_lost pwr s ▸ hregs
  | true => exact carried_regs_aon pwr s ▸ setF_wf (s := { s with regs := carriedRegs true pwr s }) hregs

/-- PMU's live words are in AON (R78). -/
theorem carried_getF {f : Fld} (hf : 0x100 ≤ f.off ∧ f.off < 0x800) : getF (carried true pwr s) 0x01 f = getF s 0x01 f := by
  have hk : aonReg (rkey 1 f.off) = true := by
    have hpage : rkey 1 f.off / 1024 = 1 := by unfold rkey; omega
    have hoff : 0x100 ≤ rkey 1 f.off % 1024 * 4 ∧ rkey 1 f.off % 1024 * 4 < 0x800 := by unfold rkey; omega
    simp [aonReg, hpage, hoff]
  have hlo : rkey 1 f.off < shadowLo 1 := by
    unfold rkey shadowLo
    omega
  have hne : rkey 1 f.off ≠ rkey 7 0x100 := by
    unfold shadowLo at hlo
    unfold rkey at hlo ⊢
    omega
  have hkept : (nvReg (rkey 1 f.off) || (true && aonReg (rkey 1 f.off)) || (pwr && pwrReg (rkey 1 f.off))) = true := by simp [hk]
  have hregs : storeWf regReset (carriedRegs true pwr s) = true := carriedRegs_wf h ha
  have hrd : rd (carried true pwr s) 1 f.off = rd s 1 f.off := by
    rw [rd, carried_regs_aon]
    refine (rd_setF_ne (s := { s with regs := carriedRegs true pwr s }) hregs hne).trans ?_
    refine (storeGet_patch_ne (storeWf_pairwise (storeKeep_wf h)) (storeWf_pairwise ha) (shadowLo_le_shadowHi 1) (.inl hlo)).trans ?_
    exact (storeGet_keep h).trans (if_pos hkept)
  exact congrArg (fget · f) hrd

end

/-! ### The steps of the entry -/

section
variable {s t : State} (h : KeepsMode s t)
include h

theorem posKept_keepsMode (old : State) : KeepsMode s (posKept old t) :=
  .foldl h fun _ hu _ _ => (hu.wr (off := 0x108)).setFlag

theorem immKept_keepsMode (old : State) : KeepsMode s (immKept old t) := h.wr.setF.setFlag

theorem assertLevel_keepsMode (id : Nat) : KeepsMode s (assertLevel t id) := .ite h h.upd

theorem segPlace_keepsMode (n : Nat) : KeepsMode s (segPlace t n) := h.setF

theorem immSlots_keepsMode : KeepsMode s (immSlots t) := (KeepsMode.foldl h.setF fun _ hu _ _ => hu.setF).setF.setF

theorem sprShow_keepsMode : KeepsMode s (sprShow t) := .foldl h.setF.setF.setF fun _ hu _ _ => hu.setF

theorem vltStat_keepsMode : KeepsMode s (vltStat t) := h.setF.setFlag

theorem nvShown_keepsMode : KeepsMode s (nvShown t) := by
  unfold nvShown
  extract_lets placed sliced spared crystal latched polled
  have hplaced : KeepsMode s placed := .foldl h fun _ hu n _ => .when hu (segPlace_keepsMode · n)
  have hsliced : KeepsMode s sliced := by
    simp only [sliced]
    split
    · exact hplaced.setF
    · exact hplaced
  have hcrystal : KeepsMode s crystal := hsliced.setFlag_clk.setFlag_clk
  have hlatched : KeepsMode s latched := hcrystal.setFlag.setFlag
  exact vltStat_keepsMode (sprShow_keepsMode (immSlots_keepsMode hlatched.setF.setF))

theorem swiTake_keepsMode : KeepsMode s (swiTake t) := .foldl h fun _ hu _ _ => hu.wr.wr

theorem protAgain_keepsMode : KeepsMode s (protAgain t) := by
  unfold protAgain
  extract_lets one cfgecc hscs hbs sols lsts lmxs bank
  have hone (u : State) (hu : KeepsMode s u) (p : Nat) (c : Prot) (bt bd : Nat) : KeepsMode s (one u p c bt bd) :=
    .when (.when (.when hu (assertLevel_keepsMode · _)) (assertLevel_keepsMode · _)) (raiseP_keepsMode · _ _)
  have hcfgecc : KeepsMode s cfgecc := .when h (·.upd)
  have hlsts : KeepsMode s lsts := .foldl (.foldl (.foldl (.foldl hcfgecc fun u hu n _ => hone u hu _ _ _ _) fun u hu n _ => hone u hu _ _ _ _)
    fun u hu n _ => hone u hu _ _ _ _) fun u hu n _ => hone u hu _ _ _ _
  have hbank : KeepsMode s bank := .when (hone _ hlsts _ _ _ _) (assertLevel_keepsMode · _)
  exact .when (.when hbank (assertLevel_keepsMode · _)) (assertLevel_keepsMode · _)

end

theorem fuseRestore_keepsMode (s : State) : KeepsMode { s with fuseRec := none } (fuseRestore s) := by
  have h := KeepsMode.refl { s with fuseRec := none }
  unfold fuseRestore
  split
  · next hnone => exact ⟨rfl, id, rfl, rfl, rfl, rfl, hnone, rfl, rfl⟩
  · refine .ite h (.foldl (.foldl (.foldl h ?hsc) ?hb) ?sol)
    case hsc =>
      intro u hu n _
      split
      · exact hu
      · exact hscSet_keepsMode hu n _
    case hb =>
      intro u hu n _
      split
      · exact hu
      · exact (hu.setF (q := 0x68 + n)).setFlag
    case sol =>
      intro u hu n _
      split
      · exact hu
      · exact solSet_keepsMode hu n _

/-! ### The entry (R62, R70, R77 to R79) -/

/-- The device with what its supplies keep, before it shows BOOT. -/
def bootKept (s : State) (aon pwr : Bool) : State :=
  let t := carried aon pwr s
  let t := if pwr then posKept s t else fuseRestore t
  let t := if aon then immKept s t else t
  if pwr then setFlag t 0x02 R.CLK.STAT.BUSLOCK (isSet s 0x02 R.CLK.STAT.BUSLOCK) else t

/-- BOOT shown, with the registers that show MRAM and OTP, and FRM cleared. -/
def bootShown (s : State) (aon pwr : Bool) (cause : Nat) : State := frmcBoot (nvShown (modeShow (bootKept s aon pwr) .boot cause))

/-- RST.CAUSE, and the count of resets; `s` is the device before the entry. -/
def bootCaused (s t : State) (aon : Bool) (src fsid : Nat) : State :=
  let t := setF (setF t 0x03 R.RST.CAUSE.SRC src) 0x03 R.RST.CAUSE.FSID fsid
  if aon && src ≠ 8 then setF t 0x03 R.RST.COUNT.CNT (satInc 65535 (getF s 0x03 R.RST.COUNT.CNT)) else t

section
variable (s t : State) (aon : Bool) (src fsid : Nat)

@[simp] theorem bootCaused_mem : (bootCaused s t aon src fsid).mem = t.mem := by
  unfold bootCaused
  split <;> rfl

@[simp] theorem bootCaused_mode : (bootCaused s t aon src fsid).mode = t.mode := by
  unfold bootCaused
  split <;> rfl

@[simp] theorem bootCaused_park : (bootCaused s t aon src fsid).park = t.park := by
  unfold bootCaused
  split <;> rfl

variable {s t aon src fsid} (h : storeWf regReset t.regs = true)
include h

theorem bootCaused_wf : storeWf regReset (bootCaused s t aon src fsid).regs = true := by
  unfold bootCaused
  split
  · exact setF_wf (setF_wf (setF_wf h))
  · exact setF_wf (setF_wf h)

theorem bootCaused_cause : getF (bootCaused s t aon src fsid) 0x03 R.RST.CAUSE.SRC = src % 16 := by
  have hsrc : getF (setF (setF t 0x03 R.RST.CAUSE.SRC src) 0x03 R.RST.CAUSE.FSID fsid) 0x03 R.RST.CAUSE.SRC = src % 16 :=
    (getF_setF_bits (f := R.RST.CAUSE.FSID) (g := R.RST.CAUSE.SRC) (setF_wf h) rfl (by decide) (by decide) (by decide)
      (by decide)).trans (getF_setF_same h (by decide) (by decide))
  unfold bootCaused
  split
  · exact (getF_setF_key (setF_wf (setF_wf h)) (by decide)).trans hsrc
  · exact hsrc

theorem bootCaused_getF_pmu {f : Fld} (hf : f.off < 4096) : getF (bootCaused s t aon src fsid) 0x01 f = getF t 0x01 f := by
  have hne (g : Fld) (hg : g.off < 4096) : rkey 1 f.off ≠ rkey 3 g.off := rkey_ne hg hf (.inl (by decide))
  have hset : getF (setF (setF t 0x03 R.RST.CAUSE.SRC src) 0x03 R.RST.CAUSE.FSID fsid) 0x01 f = getF t 0x01 f :=
    (getF_setF_key (setF_wf h) (hne _ (by decide))).trans (getF_setF_key h (hne _ (by decide)))
  unfold bootCaused
  split
  · exact (getF_setF_key (setF_wf (setF_wf h)) (hne _ (by decide))).trans hset
  · exact hset

end

theorem enterBoot_keepsMode (s : State) (aon pwr : Bool) (cause src fsid : Nat) :
    KeepsMode (bootCaused s (bootShown s aon pwr cause) aon src fsid) (enterBoot s aon pwr cause src fsid) :=
  touch_keepsMode (raiseLine_keepsMode (protAgain_keepsMode (swiTake_keepsMode (KeepsMode.upd (.refl _)))) 17)

/-- Restoring the fuse record is all that touches it. -/
theorem bootKept_keepsMode (s : State) (aon pwr : Bool) :
    ∃ r, KeepsMode { carried aon pwr s with fuseRec := r } (bootKept s aon pwr) := by
  have hkept : ∃ r, KeepsMode { carried aon pwr s with fuseRec := r }
      (if pwr then posKept s (carried aon pwr s) else fuseRestore (carried aon pwr s)) := by
    split
    · exact ⟨(carried aon pwr s).fuseRec, posKept_keepsMode (.refl _) s⟩
    · exact ⟨none, fuseRestore_keepsMode _⟩
  obtain ⟨r, hr⟩ := hkept
  exact ⟨r, .when (.when hr (immKept_keepsMode · s)) (·.setFlag_clk)⟩

section
variable (s : State)

@[simp] theorem frmcBoot_regs : (frmcBoot s).regs = s.regs := rfl
@[simp] theorem frmcBoot_mode : (frmcBoot s).mode = s.mode := rfl
@[simp] theorem frmcBoot_park : (frmcBoot s).park = s.park := rfl

end

/-- Both consumer regions of FRM are zero (R241). -/
theorem memGet_frmcBoot {s : State} (h : Memory.wf s.mem = true) (a : Nat) :
    memGet (frmcBoot s).mem a = if decide (0x20200000 ≤ a ∧ a < 0x20209000) || decide (0x20240000 ≤ a ∧ a < 0x20249000) then memDefault a
      else memGet s.mem a := by
  have hfirst : Memory.wf (memClear s.mem 0x20200000 0x20209000) = true := memClear_wf h
  rw [memGet, show (frmcBoot s).mem = memClear (memClear s.mem 0x20200000 0x20209000) 0x20240000 0x20249000 from rfl, memClear,
    storeGet_keep hfirst, memClear, storeGet_keep h]
  simp only [memGet, Bool.or_eq_true, decide_eq_true_eq]
  grind

section
variable {s : State} {aon pwr : Bool} {cause src fsid : Nat}

theorem bootShown_mode : (bootShown s aon pwr cause).mode = .boot := by
  rw [bootShown, frmcBoot_mode, (nvShown_keepsMode (.refl _)).mode, modeShow_mode]

theorem bootShown_park : (bootShown s aon pwr cause).park = .none := by
  obtain ⟨r, hkept⟩ := bootKept_keepsMode s aon pwr
  rw [bootShown, frmcBoot_park, (nvShown_keepsMode (.refl _)).park, modeShow_park, hkept.park]
  exact carried_park aon pwr s

/-- Memory at the entry to BOOT. -/
theorem memGet_enterBoot (hm : Memory.wf s.mem = true) (a : Nat) : memGet (enterBoot s aon pwr cause src fsid).mem a =
    if decide (0x20200000 ≤ a ∧ a < 0x20209000) || decide (0x20240000 ≤ a ∧ a < 0x20249000) then memDefault a
      else if survives pwr a then memGet s.mem a else memDefault a := by
  obtain ⟨r, hkept⟩ := bootKept_keepsMode s aon pwr
  have hmem : (nvShown (modeShow (bootKept s aon pwr) .boot cause)).mem = storeKeep (survives pwr) s.mem :=
    (nvShown_keepsMode (.refl _)).memory.trans (hkept.memory.trans (carried_mem aon pwr s))
  have hwf : Memory.wf (nvShown (modeShow (bootKept s aon pwr) .boot cause)).mem = true := hmem ▸ storeKeep_wf hm
  rw [(enterBoot_keepsMode s aon pwr cause src fsid).memory, bootCaused_mem, bootShown, memGet_frmcBoot hwf, hmem]
  simp only [memGet, storeGet_keep hm]

end

/-- What every entry to BOOT leaves: the mode, the source in RST.CAUSE, what is kept without any supply, and the vault SRAM cleared. -/
structure Booted (s u : State) (src : Nat) : Prop where
  mode : u.mode = .boot
  park : u.park = .none
  canon : storeWf regReset u.regs = true
  cause : getF u 0x03 R.RST.CAUSE.SRC = src % 16
  kept : ∀ a, nvAddr a = true → memGet u.mem a = memGet s.mem a
  vault : ∀ a, vaultAddr a = true → memGet u.mem a = memDefault a

theorem Booted.keep {s t u : State} {src : Nat} (h : Booted s t src) (hk : KeepsMode t u) : Booted s u src :=
  ⟨hk.mode.trans h.mode, hk.park.trans h.park, hk.canon h.canon, (hk.getF h.canon).trans h.cause,
    fun a ha => hk.memory ▸ h.kept a ha, fun a ha => hk.memory ▸ h.vault a ha⟩

section
variable {s : State} {aon pwr : Bool} {cause src fsid : Nat} (h : storeWf regReset s.regs = true)
  (ha : storeWf regReset s.applied = true)
include h ha

theorem bootShown_wf : storeWf regReset (bootShown s aon pwr cause).regs = true := by
  obtain ⟨r, hkept⟩ := bootKept_keepsMode s aon pwr
  rw [bootShown, frmcBoot_regs]
  exact (nvShown_keepsMode (.refl _)).canon (modeShow_wf (hkept.canon (carried_wf h ha)))

/-- PMU's live words at an entry to BOOT with AON up. -/
theorem enterBoot_getF_pmu {f : Fld} (hf : 0x100 ≤ f.off ∧ f.off < 0x800) :
    getF (enterBoot s true pwr cause src fsid) 0x01 f = getF s 0x01 f := by
  obtain ⟨r, hkept⟩ := bootKept_keepsMode s true pwr
  have hmode : modeKey (rkey 1 f.off) = true := modeKey_pmu hf
  have hdev : rkey 1 f.off ≠ rkey 0 0x110 := by
    unfold rkey
    omega
  have hcarried : storeWf regReset (carried true pwr s).regs = true := carried_wf h ha
  have hbootKept : storeWf regReset (bootKept s true pwr).regs = true := hkept.canon hcarried
  have hshown : storeWf regReset (bootShown s true pwr cause).regs = true := bootShown_wf h ha
  have hfrm : getF (bootShown s true pwr cause) 0x01 f = getF (nvShown (modeShow (bootKept s true pwr) .boot cause)) 0x01 f := by
    rw [getF, rd, bootShown, frmcBoot_regs]
    rfl
  calc getF (enterBoot s true pwr cause src fsid) 0x01 f
      = getF (bootCaused s (bootShown s true pwr cause) true src fsid) 0x01 f :=
        (enterBoot_keepsMode ..).getF (bootCaused_wf hshown) hmode
    _ = getF (bootShown s true pwr cause) 0x01 f := bootCaused_getF_pmu hshown (by omega)
    _ = getF (nvShown (modeShow (bootKept s true pwr) .boot cause)) 0x01 f := hfrm
    _ = getF (modeShow (bootKept s true pwr) .boot cause) 0x01 f := (nvShown_keepsMode (.refl _)).getF (modeShow_wf hbootKept) hmode
    _ = getF (bootKept s true pwr) 0x01 f := modeShow_getF hbootKept hdev
    _ = getF (carried true pwr s) 0x01 f := hkept.getF hcarried hmode
    _ = getF s 0x01 f := carried_getF h ha hf

theorem enterBoot_booted (hm : Memory.wf s.mem = true) : Booted s (enterBoot s aon pwr cause src fsid) src := by
  have hkeeps := enterBoot_keepsMode s aon pwr cause src fsid
  have hshown : storeWf regReset (bootShown s aon pwr cause).regs = true := bootShown_wf h ha
  have hw : storeWf regReset (bootCaused s (bootShown s aon pwr cause) aon src fsid).regs = true := bootCaused_wf hshown
  refine ⟨?mode, ?park, hkeeps.canon hw, (hkeeps.getF hw).trans (bootCaused_cause hshown), fun a hnv => ?kept, fun a hv => ?vault⟩
  case mode => rw [hkeeps.mode, bootCaused_mode, bootShown_mode]
  case park => rw [hkeeps.park, bootCaused_park, bootShown_park]
  case kept =>
    have hfrm : (decide (0x20200000 ≤ a ∧ a < 0x20209000) || decide (0x20240000 ≤ a ∧ a < 0x20249000)) = false := by
      unfold nvAddr extBase at hnv
      simp only [Bool.or_eq_true, Bool.and_eq_true, decide_eq_true_eq] at hnv
      simp only [Bool.or_eq_false_iff, decide_eq_false_iff_not]
      omega
    rw [memGet_enterBoot hm, hfrm, survives, hnv]
    rfl
  case vault =>
    have hnv : nvAddr a = false := by
      unfold vaultAddr at hv
      unfold nvAddr extBase
      simp only [Bool.and_eq_true, decide_eq_true_eq] at hv
      simp only [Bool.or_eq_false_iff, Bool.and_eq_false_iff, decide_eq_false_iff_not]
      omega
    simp [memGet_enterBoot hm, survives, hnv, hv]

end

end Sys2Proof.Machine
end

section
/-! Power, resets, the watchdog and the reset count (03, R62, R77 to R80; 04, R78). -/

-- One proof after another: side by side they start more threads than the memory limit of the check has room for.
set_option Elab.async false

namespace Sys2Proof.Machine

/-! ### POWERON and the loss of the supply (R78, R530) -/

theorem powerOn_keepsMode (s : State) : KeepsMode (enterBoot { s with mode := .off } false false 0 0 0) (powerOn s) :=
  .foldl (.refl _) fun _ hu _ _ => hu.setFlag

theorem powerOn_booted {s : State} (hcanon : Canon s) : Booted s (powerOn s) 0 := by
  have hboot : Booted { s with mode := .off } (enterBoot { s with mode := .off } false false 0 0 0) 0 :=
    enterBoot_booted hcanon.regs hcanon.applied hcanon.mem
  obtain ⟨hmode, hpark, hw, hcause, hkept, hvault⟩ := hboot.keep (powerOn_keepsMode s)
  exact ⟨hmode, hpark, hw, hcause, hkept, hvault⟩

/-- Without AON and PWR nothing else is kept. -/
theorem survives_unpowered (a : Nat) : survives false a = nvAddr a := by simp [survives]

theorem powerOn_lost {s : State} (hm : Memory.wf s.mem = true) {a : Nat} (ha : nvAddr a = false) :
    memGet (powerOn s).mem a = memDefault a := by
  rw [(powerOn_keepsMode s).memory, memGet_enterBoot (s := { s with mode := .off }) hm, survives_unpowered, ha]
  simp

@[simp] theorem powerLoss_mode (s : State) : (powerLoss s).mode = .off := rfl

@[simp] theorem powerLoss_park (s : State) : (powerLoss s).park = .none := rfl

@[simp] theorem powerLoss_otp (s : State) : (powerLoss s).vlt.otp = s.vlt.otp := rfl

theorem powerLoss_mem (s : State) : (powerLoss s).mem = storeKeep nvAddr s.mem :=
  (carried_mem false false s).trans (congrArg (storeKeep · s.mem) (funext survives_unpowered))

/-- A byte that is not kept is at its default, whatever form the memory had. -/
theorem powerLoss_lost (s : State) {a : Nat} (ha : nvAddr a = false) : memGet (powerLoss s).mem a = memDefault a := by
  rw [memGet, powerLoss_mem]
  refine storeGet_of_forall_ne fun e he hk => ?_
  have hnv : nvAddr e.1 = true := (List.mem_filter.mp he).2
  rw [hk, ha] at hnv
  cases hnv

theorem powerLoss_kept {s : State} (hm : Memory.wf s.mem = true) {a : Nat} (ha : nvAddr a = true) :
    memGet (powerLoss s).mem a = memGet s.mem a := by
  rw [memGet, powerLoss_mem]
  exact (storeGet_keep hm).trans (if_pos ha)

/-- With no vault command, no installation and no SETSEL under way nothing is torn. -/
theorem torn_idle {s : State} (hb : isSet s 0x07 R.UPD.SRES.BUSY = false) (he : s.upd.ending = false) (hv : s.vlt.cmd = none) :
    updTorn (vltTorn s) = s := by
  simp [vltTorn, hv, updTorn, hb, he]

/-! ### Resets with the supplies up (R45, R77, R78) -/

theorem resetDevice_booted {s : State} (hcanon : Canon s) (src fsid : Nat) : Booted s (resetDevice s src fsid) src := by
  have hsleep := commitSleep_keepsMode (.refl s)
  have hm : Memory.wf (commitSleep s).mem = true := hsleep.memory.symm ▸ hcanon.mem
  obtain ⟨hmode, hpark, hw, hcause, hkept, hvault⟩ : Booted (commitSleep s) (resetDevice s src fsid) src :=
    enterBoot_booted (hsleep.canon hcanon.regs) (commitSleep_applied_wf hcanon.regs hcanon.applied) hm
  exact ⟨hmode, hpark, hw, hcause, fun a ha => (hkept a ha).trans (congrArg (memGet · a) hsleep.memory), hvault⟩

/-- A write of RST.SWRST with its key (R77). -/
theorem swrst_keyed {s : State} (who : Who) {v : Nat} (hv : v % 256 = 0xA5) :
    swrst s who v = resetDevice s (if who = .ring 0 then 6 else 2) 0 := by
  unfold swrst
  exact if_neg (not_not_intro hv)

theorem liveWrite_swrst (s : State) (who : Who) (v : Word) : liveWrite s who 0x03 0x114 v = (swrst s who v.toNat, true) := by
  unfold liveWrite
  rfl

theorem watchdogExpiry_runs {s : State} (hm : s.mode = .run ∨ s.mode = .hold) (hp : cfgOn s 0x03 R.RST.WDOG.PERIOD = true) :
    watchdogExpiry s = resetDevice s 3 0 := by
  rcases hm with hm | hm <;> simp [watchdogExpiry, watchdogRuns, hm, hp]

theorem swrst_source_lt (who : Who) : (if who = .ring 0 then 6 else 2) % 16 = if who = .ring 0 then 6 else 2 := by
  split <;> rfl

/-! ### The statement -/

/-- Settles O14: the entries to BOOT through `enterBoot_booted`, the loss of the supply through what `carried` keeps, and the writes of
RST by what its live region does. -/
theorem powerAndResets : Obligations.PowerAndResets := by
  intro s who v hcanon
  refine ⟨?on, ?loss, ?idle, ?pinOff, ?pin, ?swrst, ?watchdog, ?kick, ?count⟩
  case on =>
    intro hoff
    obtain ⟨hmode, hpark, _, _, hkept, _⟩ := powerOn_booted hcanon
    refine .of_done (congrArg (done s) (if_pos hoff)) ⟨hmode, hpark, hkept, fun a ha => powerOn_lost hcanon.mem ha⟩
  case loss =>
    exact .of_done rfl ⟨powerLoss_mode _, powerLoss_park _, fun a ha => powerLoss_lost _ ha⟩
  case idle =>
    intro hb he hv
    refine .of_done rfl ?_
    rw [torn_idle hb he hv]
    exact ⟨fun a ha => powerLoss_kept hcanon.mem ha, powerLoss_otp s⟩
  case pinOff =>
    intro hr
    refine .of_done rfl ?_
    simp [powered, hr]
  case pin =>
    intro hr
    obtain ⟨hmode, _, _, hcause, hkept, hvault⟩ := resetDevice_booted hcanon 1 0
    exact .of_done (done_powered hr) ⟨hmode, hcause, hkept, hvault⟩
  case swrst =>
    intro hm hv
    obtain ⟨hmode, _, _, hcause, hkept, hvault⟩ :=
      (resetDevice_booted hcanon (if who = .ring 0 then 6 else 2) 0).keep (answered_keepsMode (.refl _) none)
    have hwrite : writeReg s who 0x03 0x114 v = { resetDevice s (if who = .ring 0 then 6 else 2) 0 with ans := none } := by
      rw [writeReg_live hm (by decide) (by decide) (by decide) (by decide), liveWrite_swrst, swrst_keyed who hv]
      rfl
    exact .of_done (congrArg (done s) hwrite) ⟨hmode, hcause.trans (swrst_source_lt who), hkept, hvault⟩
  case watchdog =>
    intro hmode hp
    obtain ⟨hboot, _, _, hcause, hkept, _⟩ := resetDevice_booted hcanon 3 0
    exact .of_done (congrArg (done s) (watchdogExpiry_runs hmode hp)) ⟨hboot, hcause, hkept⟩
  case kick =>
    intro hm
    exact .of_done (congrArg (done s) (writeReg_live hm (by decide) (by decide) (by decide) (by decide))) rfl
  case count =>
    intro hm
    refine .of_done (u := { setF s 0x03 R.RST.COUNT.CNT 0 with ans := none })
      (congrArg (done s) (writeReg_live hm (by decide) (by decide) (by decide) (by decide))) ?_
    exact ⟨getF_setF_same hcanon.regs (f := R.RST.COUNT.CNT) (by decide) (by decide), rfl, rfl⟩

end Sys2Proof.Machine
end

section
/-! Wakes from PARK and WATCH into BOOT or LISTEN (03, R67, R69 to R73; 12, R273). -/

-- One proof after another: side by side they start more threads than the memory limit of the check has room for.
set_option Elab.async false

namespace Sys2Proof.Machine

/-! ### What a wake starts from -/

/-- The stores that an entry to BOOT reads are in their canonical form. -/
structure Bootable (s : State) : Prop where
  regs : storeWf regReset s.regs = true
  applied : storeWf regReset s.applied = true
  mem : Memory.wf s.mem = true

theorem Canon.bootable {s : State} (h : Canon s) : Bootable s := ⟨h.regs, h.applied, h.mem⟩

/-- The RTC's words apart, bringing the RTC changes nothing. -/
theorem rtcSet_eq (s : State) (sec : Nat) : ∃ r, rtcSet s sec = { s with regs := r } := by
  unfold rtcSet
  split
  · exact ⟨_, rfl⟩
  · exact ⟨s.regs, rfl⟩

section
variable (s : State) (sec : Nat)

@[simp] theorem rtcSet_mode : (rtcSet s sec).mode = s.mode := by obtain ⟨r, hr⟩ := rtcSet_eq s sec; rw [hr]
@[simp] theorem rtcSet_park : (rtcSet s sec).park = s.park := by obtain ⟨r, hr⟩ := rtcSet_eq s sec; rw [hr]
@[simp] theorem rtcSet_wk : (rtcSet s sec).wk = s.wk := by obtain ⟨r, hr⟩ := rtcSet_eq s sec; rw [hr]
@[simp] theorem rtcSet_imm : (rtcSet s sec).imm = s.imm := by obtain ⟨r, hr⟩ := rtcSet_eq s sec; rw [hr]
@[simp] theorem rtcSet_applied : (rtcSet s sec).applied = s.applied := by obtain ⟨r, hr⟩ := rtcSet_eq s sec; rw [hr]
@[simp] theorem rtcSet_mem : (rtcSet s sec).mem = s.mem := by obtain ⟨r, hr⟩ := rtcSet_eq s sec; rw [hr]

@[simp] theorem rtcSet_cfg (p : Nat) (f : Fld) : cfg (rtcSet s sec) p f = cfg s p f := by rw [cfg, cfgW, rtcSet_applied]; rfl

end

theorem rtcSet_wf {s : State} (h : storeWf regReset s.regs = true) (sec : Nat) : storeWf regReset (rtcSet s sec).regs = true := by
  unfold rtcSet
  split
  · exact setF_wf h
  · exact h

theorem Bootable.rtcSet {s : State} (h : Bootable s) (sec : Nat) : Bootable (rtcSet s sec) :=
  ⟨rtcSet_wf h.regs sec, (rtcSet_applied s sec).symm ▸ h.applied, (rtcSet_mem s sec).symm ▸ h.mem⟩

theorem rtcSet_getF {s : State} (h : storeWf regReset s.regs = true) (sec : Nat) {p : Nat} {f : Fld}
    (hk : rkey p f.off ≠ rkey 1 0x124 := by decide) : getF (rtcSet s sec) p f = getF s p f := by
  unfold rtcSet
  split
  · exact getF_setF_key h hk
  · rfl

/-- The RTC arms no source. -/
theorem rtcSet_armed {s : State} (h : storeWf regReset s.regs = true) (sec src det : Nat) :
    wakeArmed (rtcSet s sec) src det = wakeArmed s src det := by
  have hmask : getF (rtcSet s sec) 0x01 R.PMU.FWAKE.MASK = getF s 0x01 R.PMU.FWAKE.MASK := rtcSet_getF h sec
  simp only [wakeArmed, hmask, cfgOn, rtcSet_cfg]

/-- A source that is armed for `det` ends PARK and WATCH (R69). -/
theorem wakeFire_takes {s : State} (h : storeWf regReset s.regs = true) (hm : s.mode = .park ∨ s.mode = .watch) (hp : s.park = .none)
    {src det : Nat} (ha : wakeArmed s src det = true) (also sec sub : Nat) :
    wakeFire s src det also sec sub = wakeTake (rtcSet s sec) src det also sec sub := by
  unfold wakeFire
  rcases hm with hm | hm <;> simp [rtcSet_armed h, ha, hp, hm]

/-! ### The record of a wake (R70) -/

/-- The other sources that qualified on the edge, a bit each. -/
def wakeOthers (src also : Nat) : Nat :=
  ((List.range 8).filter fun b => also.testBit b && decide (wakeRank src < wakeRank (b + 1))).foldl (fun m b => m + 2 ^ b) 0

/-- WAKESRC of the wake that ends the mode. -/
def wakeRecord (s : State) (src det also sub : Nat) : State :=
  let s := setF (setF s 0x01 R.PMU.WAKESRC.SUBSEC sub) 0x01 R.PMU.WAKESRC.ALSO (wakeOthers src also)
  setF (setF s 0x01 R.PMU.WAKESRC.DETAIL det) 0x01 R.PMU.WAKESRC.SRC src

/-- Its time; every mask bit falls. -/
def wakeStamped (s : State) (sec : Nat) : State := setF (setF s 0x01 R.PMU.WAKETS.SEC sec) 0x01 R.PMU.FWAKE.MASK 0

/-- The notes of failed copies are taken. -/
def wakeCleared (s : State) : State := { s with imm := { s.imm with pollBad := false }, wk := { s.wk with cycBad := false } }

/-- The record in AON of the wake that ends the mode. -/
def wakeNoted (s : State) (src det also sec sub : Nat) : State := wakeCleared (wakeStamped (wakeRecord s src det also sub) sec)

@[simp] theorem wakeNoted_mode (s : State) (src det also sec sub : Nat) : (wakeNoted s src det also sec sub).mode = s.mode := rfl

/-- A routed bus takes the device into LISTEN, unless a source that is no bus qualified with it (R67, R72; notes/assumptions/66). -/
def wakeListens (s : State) (src det also : Nat) : Bool :=
  s.mode ≠ .listen && decide (1 ≤ src) && decide (src ≤ 3) && (cfg s 0x01 R.PMU.WROUTE.LST).testBit det && wakeOthers src also / 8 = 0

/-- A copy that failed its check raises its source with the wake. -/
def wakeRaised (s : State) (cycBad pollBad : Bool) : State :=
  let s := if cycBad then raiseP s 0x1C 2 else s
  if pollBad then raiseP s 0x1A 6 else s

/-- A wake into BOOT; a lane whose horn was heard is regenerated (R355). -/
def wakeUp (s : State) (src det : Nat) : State := if src = 4 then jxrHornOn (wakeBoot s) (2 ^ det) else wakeBoot s

theorem wakeTake_eq (s : State) (src det also sec sub : Nat) : wakeTake s src det also sec sub =
    wakeRaised (if wakeListens s src det also then enterListen (wakeNoted s src det also sec sub) det
      else wakeUp (wakeNoted s src det also sec sub) src det) s.wk.cycBad s.imm.pollBad := rfl

theorem wakeRaised_keepsMode {s t : State} (h : KeepsMode s t) (cycBad pollBad : Bool) : KeepsMode s (wakeRaised t cycBad pollBad) :=
  .when (.when h (raiseP_keepsMode · _ _)) (raiseP_keepsMode · _ _)

/-- CYCREF (R278). -/
theorem wakeRaised_cycref (s : State) (pollBad : Bool) : Raises (wakeRaised s true pollBad) 226 := by
  have hcyc : (⟨226, false, []⟩ : Due) ∈ (raiseP s 0x1C 2).due := List.mem_append_right _ (List.mem_singleton_self _)
  refine ⟨⟨226, false, []⟩, ?_, rfl⟩
  unfold wakeRaised
  dsimp only
  split
  · exact List.mem_append_left _ hcyc
  · exact hcyc

/-- Of the sources that give way to a bus only the RTC and a burst are none: bit 5 of `also`. -/
theorem wakeOthers_bus (also : Byte) : ∀ src ∈ [1, 2, 3], decide (wakeOthers src also.toNat / 8 = 0) = !also.getLsbD 5 := by
  revert also
  decide +kernel

section
variable {s : State} {src det also sec sub : Nat} (h : storeWf regReset s.regs = true)
include h

theorem wakeRecord_wf : storeWf regReset (wakeRecord s src det also sub).regs = true := setF_wf (setF_wf (setF_wf (setF_wf h)))

theorem wakeStamped_wf : storeWf regReset (wakeStamped s sec).regs = true := setF_wf (setF_wf h)

omit h in
theorem wakeCleared_getF (p : Nat) (f : Fld) : getF (wakeCleared s) p f = getF s p f := rfl

/-- The time and the masks are beside the source and its detail. -/
theorem wakeNoted_getF {f : Fld} (hf : f.off = 0x10C) :
    getF (wakeNoted s src det also sec sub) 0x01 f = getF (wakeRecord s src det also sub) 0x01 f := by
  have hts : rkey 1 f.off ≠ rkey 1 R.PMU.WAKETS.SEC.off := by rw [hf]; decide
  have hmask : rkey 1 f.off ≠ rkey 1 R.PMU.FWAKE.MASK.off := by rw [hf]; decide
  rw [wakeNoted, wakeCleared_getF, wakeStamped, getF_setF_key (setF_wf (wakeRecord_wf h)) hmask, getF_setF_key (wakeRecord_wf h) hts]

theorem wakeNoted_src : getF (wakeNoted s src det also sec sub) 0x01 R.PMU.WAKESRC.SRC = src % 16 := by
  rw [wakeNoted_getF h rfl, wakeRecord, getF_setF_same (setF_wf (setF_wf (setF_wf h))) (by decide) (by decide)]
  rfl

theorem wakeNoted_detail : getF (wakeNoted s src det also sec sub) 0x01 R.PMU.WAKESRC.DETAIL = det % 16 := by
  rw [wakeNoted_getF h rfl, wakeRecord, getF_setF_bits (f := R.PMU.WAKESRC.SRC) (g := R.PMU.WAKESRC.DETAIL)
    (setF_wf (setF_wf (setF_wf h))) rfl (by decide) (by decide) (by decide) (by decide),
    getF_setF_same (setF_wf (setF_wf h)) (by decide) (by decide)]
  rfl

end

theorem Bootable.wakeNoted {s : State} (h : Bootable s) (src det also sec sub : Nat) :
    Bootable (wakeNoted s src det also sec sub) := ⟨wakeStamped_wf (wakeRecord_wf h.regs), h.applied, h.mem⟩

/-! ### A wake into BOOT (R70) -/

/-- The entry to BOOT by a wake: what NMG has heard stays, and the ring learns of its power. -/
def wakeJoined (t : State) (heard : Bool) : State :=
  let t := { t with nmg := { t.nmg with heard := heard } }
  jxrRoleChanged { t with jxr := { t.jxr with whorn := getF t 0x01 R.PMU.WAKESRC.SRC ≠ 4 } }

theorem wakeBoot_eq (s : State) : wakeBoot s = wakeJoined (enterBoot s true false 1 8 0) s.nmg.heard := rfl

theorem wakeJoined_keepsMode (t : State) (heard : Bool) : KeepsMode t (wakeJoined t heard) := by
  have h := KeepsMode.refl t
  exact jxrRoleChanged_keepsMode h.upd

theorem wakeBoot_keepsMode (s : State) : KeepsMode (enterBoot s true false 1 8 0) (wakeBoot s) :=
  wakeBoot_eq s ▸ wakeJoined_keepsMode _ _

theorem wakeUp_keepsMode (s : State) (src det : Nat) : KeepsMode (enterBoot s true false 1 8 0) (wakeUp s src det) :=
  .when (wakeBoot_keepsMode s) (jxrHornOn_keepsMode · _)

/-- A wake into BOOT shows WAKE in RST.CAUSE and leaves the record in AON. -/
structure Woken (s u : State) : Prop where
  mode : u.mode = .boot
  cause : getF u 0x03 R.RST.CAUSE.SRC = 8
  source : getF u 0x01 R.PMU.WAKESRC.SRC = getF s 0x01 R.PMU.WAKESRC.SRC
  detail : getF u 0x01 R.PMU.WAKESRC.DETAIL = getF s 0x01 R.PMU.WAKESRC.DETAIL

theorem Bootable.woken {s u : State} (h : Bootable s) (hk : KeepsMode (enterBoot s true false 1 8 0) u) : Woken s u := by
  have hboot := enterBoot_booted (aon := true) (pwr := false) (cause := 1) (src := 8) (fsid := 0) h.regs h.applied h.mem
  have hpmu {f : Fld} (hf : 0x100 ≤ f.off ∧ f.off < 0x800) : getF (enterBoot s true false 1 8 0) 0x01 f = getF s 0x01 f :=
    enterBoot_getF_pmu h.regs h.applied hf
  exact ⟨hk.mode.trans hboot.mode, (hk.getF hboot.canon).trans hboot.cause, (hk.getF hboot.canon).trans (hpmu (by decide)),
    (hk.getF hboot.canon).trans (hpmu (by decide))⟩

/-! ### LISTEN (R72) -/

/-- The bus that the device listens to, and the mode that it left. -/
def listenNoted (s : State) (bus : Nat) : State :=
  { s with wk := { s.wk with left := modeCode s.mode, bus := bus, pulses := if 2 ≤ bus then 2 ^ (bus - 2) else 0 }, tbs := 0 }

/-- Routed controllers monitor, and NMG listens. -/
def listenBuses (s : State) : State :=
  setF ((List.range 2).foldl (fun s n =>
    if (cfg s 0x01 R.PMU.WROUTE.LST).testBit n then setF s (canPage n) R.CAN.STAT.STATE 5 else s) s) 0x0C R.NMG.STAT.STATE 6

theorem enterListen_eq (s : State) (bus : Nat) : enterListen s bus = modeShow (listenBuses (listenNoted s bus)) .listen 1 := rfl

theorem listenBuses_keepsMode (s : State) : KeepsMode s (listenBuses s) :=
  (KeepsMode.foldl (.refl s) fun _ hu _ _ => .when hu (·.setF)).setF

/-- What the entry to LISTEN notes. -/
theorem enterListen_shows (s : State) (bus : Nat) :
    (enterListen s bus).mode = .listen ∧ (enterListen s bus).wk.bus = bus ∧ (enterListen s bus).wk.left = modeCode s.mode := by
  have hwk : (enterListen s bus).wk = (listenNoted s bus).wk := by
    rw [enterListen_eq]
    exact (listenBuses_keepsMode (listenNoted s bus)).wakes
  rw [hwk]
  exact ⟨rfl, rfl, rfl⟩

/-! ### The wakes of the statement -/

section
variable {c : Instr} {s t : State} {src det : Nat} {also : Byte} {sec sub : Nat}
  (he : exec c s = done s (wakeFire t src det also.toNat sec sub)) (h : Bootable t) (hm : t.mode = .park ∨ t.mode = .watch)
  (hp : t.park = .none) (ha : wakeArmed t src det = true)
include h hm hp ha

theorem wakeFire_boot (hl : wakeListens t src det also.toNat = false) : Woken (wakeNoted (rtcSet t sec) src det also.toNat sec sub)
    (wakeFire t src det also.toNat sec sub) := by
  have hl' : wakeListens (rtcSet t sec) src det also.toNat = false := by
    rw [← hl]
    simp only [wakeListens, rtcSet_mode, rtcSet_cfg]
  rw [wakeFire_takes h.regs hm hp ha, wakeTake_eq, hl']
  exact ((h.rtcSet sec).wakeNoted src det also.toNat sec sub).woken (wakeRaised_keepsMode (wakeUp_keepsMode _ src det) _ _)

include he

/-- A wake into BOOT. -/
theorem answers_wake_boot (hl : wakeListens t src det also.toNat = false) (hsrc : src < 16 := by decide) (hdet : det < 16 := by omega) :
    Answers c s fun u => u.mode = .boot ∧ getF u 0x03 R.RST.CAUSE.SRC = 8 ∧ getF u 0x01 R.PMU.WAKESRC.SRC = src ∧
      getF u 0x01 R.PMU.WAKESRC.DETAIL = det := by
  obtain ⟨hboot, hcause, hsource, hdetail⟩ := wakeFire_boot (sec := sec) (sub := sub) h hm hp ha hl
  have hw := (h.rtcSet sec).regs
  exact .of_done he ⟨hboot, hcause, hsource.trans ((wakeNoted_src hw).trans (Nat.mod_eq_of_lt hsrc)),
    hdetail.trans ((wakeNoted_detail hw).trans (Nat.mod_eq_of_lt hdet))⟩

/-- A wake into LISTEN. -/
theorem answers_wake_listen (hl : wakeListens t src det also.toNat = true) :
    Answers c s fun u => u.mode = .listen ∧ u.wk.bus = det ∧ u.wk.left = modeCode t.mode := by
  have hl' : wakeListens (rtcSet t sec) src det also.toNat = true := by
    rw [← hl]
    simp only [wakeListens, rtcSet_mode, rtcSet_cfg]
  have hraised := wakeRaised_keepsMode (.refl (enterListen (wakeNoted (rtcSet t sec) src det also.toNat sec sub) det))
    (rtcSet t sec).wk.cycBad (rtcSet t sec).imm.pollBad
  have hshows := enterListen_shows (wakeNoted (rtcSet t sec) src det also.toNat sec sub) det
  rw [wakeNoted_mode, rtcSet_mode] at hshows
  refine .of_done he ?_
  rw [wakeFire_takes h.regs hm hp ha, wakeTake_eq, hl', if_pos rfl, hraised.mode, hraised.wakes]
  exact hshows

end

/-- A bus whose route is not LISTEN, or whose wake another source shares, takes the device to BOOT. -/
theorem wakeListens_bus_false {s : State} {src det : Nat} {also : Byte} (hsrc : src ∈ [1, 2, 3])
    (hr : (cfg s 0x01 R.PMU.WROUTE.LST).testBit det = false ∨ also.getLsbD 5 = true) : wakeListens s src det also.toNat = false := by
  rw [wakeListens, wakeOthers_bus also src hsrc]
  rcases hr with hr | hr <;> simp [hr]

/-- A routed bus alone leads to LISTEN. -/
theorem wakeListens_bus_true {s : State} {src det : Nat} {also : Byte} (hsrc : src ∈ [1, 2, 3]) (hm : s.mode = .park ∨ s.mode = .watch)
    (hr : (cfg s 0x01 R.PMU.WROUTE.LST).testBit det = true) (hb : also.getLsbD 5 = false) :
    wakeListens s src det also.toNat = true := by
  have hbus : 1 ≤ src ∧ src ≤ 3 := by
    simp only [List.mem_cons, List.not_mem_nil, or_false] at hsrc
    omega
  rw [wakeListens, wakeOthers_bus also src hsrc, hr, hb]
  rcases hm with hm | hm <;> simp [hm, hbus]

/-- A source that is no bus leads to BOOT. -/
theorem wakeListens_other (s : State) {src : Nat} (det also : Nat) (hsrc : 3 < src := by decide) : wakeListens s src det also = false := by
  simp [wakeListens, hsrc]

theorem wakeStrong_fires {s : State} {n : Nat} {high : Bool} (hm : s.mode = .park ∨ s.mode = .watch) (hp : s.park = .none)
    (hl : s.wk.level.testBit n ≠ high) (also sec sub : Nat) :
    wakeStrong s n high also sec sub = wakeFire (pinsSet s (2 ^ n) (if high then 2 ^ n else 0)) 5 n also sec sub := by
  rcases hm with hm | hm <;> simp [wakeStrong, hp, hl, running, hm]

theorem wakeAlarm_fires {s : State} {sec : Nat} (h0 : sec ≠ 0) (hs : getF s 0x01 R.PMU.RTCALM.SEC = sec) (also sub : Nat) :
    wakeAlarm s also sec sub = wakeFire s 6 0 also sec sub := by
  simp [wakeAlarm, hs, h0]

/-- Settles O16: each event fires its source, and `wakeListens` says which of BOOT and LISTEN the wake leads to. -/
theorem wakes : Obligations.Wakes := by
  intro s b8 b2 b6 laneB high also sec sub hcanon
  have h := hcanon.bootable
  refine ⟨?busBoot, ?busListen, ?canBoot, ?canListen, ?linBoot, ?linListen, ?horn, ?strong, ?alarm, ?sideband⟩
  case busBoot => exact fun hm hp ha hr => answers_wake_boot rfl h hm hp ha (wakeListens_bus_false (by decide) hr)
  case busListen => exact fun hm hp ha hr hb => answers_wake_listen rfl h hm hp ha (wakeListens_bus_true (by decide) hm hr hb)
  case canBoot => exact fun hm hp ha hr => answers_wake_boot rfl h hm hp ha (wakeListens_bus_false (by decide) hr)
  case canListen => exact fun hm hp ha hr hb => answers_wake_listen rfl h hm hp ha (wakeListens_bus_true (by decide) hm hr hb)
  case linBoot => exact fun hm hp ha hr => answers_wake_boot rfl h hm hp ha (wakeListens_bus_false (by decide) hr)
  case linListen => exact fun hm hp ha hr hb => answers_wake_listen rfl h hm hp ha (wakeListens_bus_true (by decide) hm hr hb)
  case horn =>
    have hlane : laneB.toNat < 16 := Nat.lt_of_le_of_lt (Bool.toNat_le laneB) (by decide)
    exact fun hm hp ha => answers_wake_boot rfl h hm hp ha (wakeListens_other s _ _) (by decide) hlane
  case strong =>
    intro hm hp ha hl
    have hpins : Bootable (pinsSet s (2 ^ b8.val) (if high then 2 ^ b8.val else 0)) := ⟨h.regs, h.applied, h.mem⟩
    have he := congrArg (done s) (wakeStrong_fires hm hp hl also.toNat sec.toNat sub.toNat)
    exact answers_wake_boot he hpins hm hp ha (wakeListens_other _ _ _)
  case alarm =>
    intro hm hp ha h0 hs
    have hsec : sec.toNat ≠ 0 := fun hz => h0 (BitVec.eq_of_toNat_eq hz)
    exact answers_wake_boot (congrArg (done s) (wakeAlarm_fires hsec hs also.toNat sub.toNat)) h hm hp ha (wakeListens_other s _ _)
  case sideband => exact fun hm hp ha => answers_wake_boot rfl h hm hp ha (wakeListens_other s _ _)

end Sys2Proof.Machine
end

section
/-! The ends of LISTEN and WATCH: the listen timeout, the traffic on a routed bus, the bursts and the end of a poll step (03, R72, R73;
12, R274; 18, R420; 19, R448, R449). -/

-- One proof after another: side by side they start more threads than the memory limit of the check has room for.
set_option Elab.async false

namespace Sys2Proof.Machine

/-! ### The listen timeout (R72, R73) -/

/-- False wakes of the bus since the last one that stood, with this one. -/
def falseWakes (s : State) : Nat := s.wk.fw.getD s.wk.bus 0 + 1

/-- The limit of false wakes is reached: the bus is masked. -/
def falseWakesFull (s : State) : Bool :=
  cfg s 0x01 R.PMU.LISTEN.FWLIM ≠ 0 && decide (cfg s 0x01 R.PMU.LISTEN.FWLIM ≤ falseWakes s)

/-- FWAKE counts the false wake and names its bus. -/
def falseWakeCounted (s : State) : State :=
  setF (setF s 0x01 R.PMU.FWAKE.COUNT (satInc 65535 (getF s 0x01 R.PMU.FWAKE.COUNT))) 0x01 R.PMU.FWAKE.LAST s.wk.bus

/-- The bus is masked when `full`. -/
def falseWakeMasked (s : State) (bus : Nat) (full : Bool) : State :=
  if full then setF s 0x01 R.PMU.FWAKE.MASK (getF s 0x01 R.PMU.FWAKE.MASK ||| 2 ^ bus) else s

/-- The record of a false wake. -/
def falseWakeNoted (s : State) : State :=
  let t := falseWakeMasked (falseWakeCounted s) s.wk.bus (falseWakesFull s)
  { t with wk := { t.wk with fw := t.wk.fw.set s.wk.bus (if falseWakesFull s then 0 else falseWakes s) } }

theorem falseWakeMasked_eq (s : State) (bus : Nat) (full : Bool) : ∃ r, falseWakeMasked s bus full = { s with regs := r } := by
  cases full
  · exact ⟨s.regs, rfl⟩
  · exact ⟨_, rfl⟩

theorem listenTimeout_eq {s : State} (hm : s.mode = .listen) :
    listenTimeout s = powerDown (falseWakeNoted s) (if s.wk.left = 2 then .watch else .park) 6 := by
  obtain ⟨r, hr⟩ := falseWakeMasked_eq (falseWakeCounted s) s.wk.bus (falseWakesFull s)
  have hleft : (falseWakeNoted s).wk.left = s.wk.left := by
    unfold falseWakeNoted
    rw [hr]
    rfl
  rw [← hleft]
  exact if_neg (not_not.mpr hm)

section
variable {s : State} (h : storeWf regReset s.regs = true)
include h

theorem falseWakeMasked_wf (bus : Nat) (full : Bool) : storeWf regReset (falseWakeMasked s bus full).regs = true := by
  cases full
  · exact h
  · exact setF_wf h

theorem falseWakeMasked_count (bus : Nat) (full : Bool) :
    getF (falseWakeMasked s bus full) 0x01 R.PMU.FWAKE.COUNT = getF s 0x01 R.PMU.FWAKE.COUNT := by
  cases full
  · rfl
  · exact getF_setF_bits h rfl (by decide) (by decide) (by decide) (by decide)

theorem falseWakeCounted_wf : storeWf regReset (falseWakeCounted s).regs = true := setF_wf (setF_wf h)

theorem falseWakeCounted_count :
    getF (falseWakeCounted s) 0x01 R.PMU.FWAKE.COUNT = satInc 65535 (getF s 0x01 R.PMU.FWAKE.COUNT) := by
  rw [falseWakeCounted, getF_setF_bits (f := R.PMU.FWAKE.LAST) (g := R.PMU.FWAKE.COUNT) (setF_wf h) rfl (by decide) (by decide)
    (by decide) (by decide), getF_setF_same h (by decide) (by decide)]
  exact Nat.mod_eq_of_lt (Nat.lt_succ_of_le (satInc_le _ _))

theorem falseWakeNoted_count :
    getF (falseWakeNoted s) 0x01 R.PMU.FWAKE.COUNT = satInc 65535 (getF s 0x01 R.PMU.FWAKE.COUNT) :=
  (falseWakeMasked_count (falseWakeCounted_wf h) s.wk.bus (falseWakesFull s)).trans (falseWakeCounted_count h)

theorem falseWakeNoted_wf : storeWf regReset (falseWakeNoted s).regs = true :=
  falseWakeMasked_wf (falseWakeCounted_wf h) s.wk.bus (falseWakesFull s)

end

theorem falseWakeNoted_applied (s : State) : (falseWakeNoted s).applied = s.applied := by
  obtain ⟨r, hr⟩ := falseWakeMasked_eq (falseWakeCounted s) s.wk.bus (falseWakesFull s)
  unfold falseWakeNoted
  rw [hr]
  rfl

/-- PMU's live words at an entry to PARK or WATCH. -/
theorem powerDown_getF_pmu {s : State} {m : Mode} {cause : Nat} (h : storeWf regReset s.regs = true)
    (ha : storeWf regReset s.applied = true) {f : Fld} (hf : 0x100 ≤ f.off ∧ f.off < 0x800) :
    getF (powerDown s m cause) 0x01 f = getF s 0x01 f := by
  have hkept := immKept_keepsMode (.refl (carried true false s)) s
  have hcarried := carried_wf (aon := true) (pwr := false) h ha
  have hkey : modeKey (rkey 1 f.off) = true := modeKey_pmu hf
  have hne : rkey 1 f.off ≠ rkey 0 0x110 := by
    unfold rkey
    omega
  rw [powerDown, modeShow_getF (hkept.canon hcarried) hne, hkept.getF hcarried hkey, carried_getF h ha hf]

/-! ### Traffic in LISTEN (R419, R420) -/

/-- The check of the bus copy. -/
def copyChecked (s : State) (ok : Bool) : State := { s with aonCopyOk := s.aonCopyOk && ok }

/-- An NM message of the bus that NMG uses. -/
def trafficNm (s : State) : ListenTraffic → Bool
  | .can n f => wakeNm s n f
  | _ => false

/-- NMG learns of its message; the wake of the bus that began LISTEN was no false one. -/
def trafficNoted (s : State) (t : ListenTraffic) : State :=
  let s := { s with nmg := { s.nmg with heard := s.nmg.heard || trafficNm s t } }
  if trafficBus t = s.wk.bus then { s with wk := { s.wk with fw := s.wk.fw.set (trafficBus t) 0 } } else s

/-- What does not qualify leaves the device in LISTEN; a wake pulse counts. -/
def trafficUnqualified (s : State) : ListenTraffic → State
  | .linWake n => linPulse s n
  | _ => s

/-- The traffic is weighed: on a routed bus, in LISTEN, from its beginning. -/
def trafficWeighed (s : State) (t : ListenTraffic) (whole : Bool) : Bool :=
  s.mode = .listen && whole && (cfg s 0x01 R.PMU.WROUTE.LST).testBit (trafficBus t)

theorem Bootable.trafficNoted {s : State} (h : Bootable s) (t : ListenTraffic) : Bootable (trafficNoted s t) := by
  unfold Machine.trafficNoted
  dsimp only
  split
  · exact ⟨h.regs, h.applied, h.mem⟩
  · exact ⟨h.regs, h.applied, h.mem⟩

theorem listenTraffic_eq (s : State) (t : ListenTraffic) (whole ok : Bool) : listenTraffic s t whole ok =
    if !trafficWeighed (copyChecked s ok) t whole then copyChecked s ok
    else if !qualifies (copyChecked s ok) t then trafficUnqualified (copyChecked s ok) t
    else wakeBoot (trafficNoted (copyChecked s ok) t) := by
  have hw : (!trafficWeighed (copyChecked s ok) t whole) = ((copyChecked s ok).mode ≠ .listen || !whole ||
      !(cfg (copyChecked s ok) 0x01 R.PMU.WROUTE.LST).testBit (trafficBus t) : Bool) := by
    simp [trafficWeighed, Bool.not_and]
  rw [hw]
  cases t <;> rfl

theorem trafficWeighed_routed {s : State} {t : ListenTraffic} {ok : Bool} (hm : s.mode = .listen)
    (hr : (cfg s 0x01 R.PMU.WROUTE.LST).testBit (trafficBus t) = true) : trafficWeighed (copyChecked s ok) t true = true := by
  have hcfg : cfg (copyChecked s ok) 0x01 R.PMU.WROUTE.LST = cfg s 0x01 R.PMU.WROUTE.LST := rfl
  have hmode : (copyChecked s ok).mode = s.mode := rfl
  rw [trafficWeighed, hcfg, hmode, hm, hr]
  rfl

/-- Traffic that is not routed, or that began before LISTEN, is not weighed (R420). -/
theorem listenTraffic_unweighed {s : State} {t : ListenTraffic} {whole ok : Bool}
    (hw : trafficWeighed (copyChecked s ok) t whole = false) : listenTraffic s t whole ok = copyChecked s ok := by
  simp [listenTraffic_eq, hw]

theorem listenTraffic_qualified {s : State} {t : ListenTraffic} {whole ok : Bool}
    (hw : trafficWeighed (copyChecked s ok) t whole = true) (hq : qualifies (copyChecked s ok) t = true) :
    listenTraffic s t whole ok = wakeBoot (trafficNoted (copyChecked s ok) t) := by
  simp [listenTraffic_eq, hw, hq]

theorem listenTraffic_unqualified {s : State} {t : ListenTraffic} {whole ok : Bool}
    (hw : trafficWeighed (copyChecked s ok) t whole = true) (hq : qualifies (copyChecked s ok) t = false) :
    listenTraffic s t whole ok = trafficUnqualified (copyChecked s ok) t := by
  simp [listenTraffic_eq, hw, hq]

/-- Qualifying traffic is a wake into BOOT (R73). -/
theorem listenTraffic_woken {s : State} {t : ListenTraffic} {whole ok : Bool} (h : Bootable s)
    (hw : trafficWeighed (copyChecked s ok) t whole = true) (hq : qualifies (copyChecked s ok) t = true) :
    Woken (trafficNoted (copyChecked s ok) t) (listenTraffic s t whole ok) := by
  have hchecked : Bootable (copyChecked s ok) := ⟨h.regs, h.applied, h.mem⟩
  rw [listenTraffic_qualified hw hq]
  exact (hchecked.trafficNoted t).woken (wakeBoot_keepsMode _)

/-- A first wake pulse of a LIN qualifies nothing (R420). -/
theorem qualifies_linWake_first {s : State} {k : Fin 6} (hk : s.wk.pulses.testBit k.val = false) : qualifies s (.linWake k) = false := by
  simp [qualifies, hk]

theorem linPulse_pulses (s : State) (k : Nat) : (linPulse s k).wk.pulses.testBit k = true := by
  simp [linPulse]

/-! ### Bursts in WATCH (R274, R449) -/

/-- A burst's supply keeps what an entry to BOOT and a wake read. -/
theorem watchPower_eq (s : State) : ∃ t m a, watchPower s = { s with pwrTick := t, msDone := m, anaDone := a } := by
  unfold watchPower
  split
  · exact ⟨_, _, _, rfl⟩
  · exact ⟨s.pwrTick, s.msDone, s.anaDone, rfl⟩

/-- The device at the sample of a burst. -/
def burstStart (s : State) (sec : Nat) : State := watchPower (rtcSet s sec)

section
variable (s : State) (sec : Nat)

@[simp] theorem burstStart_mode : (burstStart s sec).mode = s.mode := by
  obtain ⟨t, m, a, hr⟩ := watchPower_eq (rtcSet s sec)
  rw [burstStart, hr, rtcSet_mode]
@[simp] theorem burstStart_park : (burstStart s sec).park = s.park := by
  obtain ⟨t, m, a, hr⟩ := watchPower_eq (rtcSet s sec)
  rw [burstStart, hr, rtcSet_park]
@[simp] theorem burstStart_wk : (burstStart s sec).wk = s.wk := by
  obtain ⟨t, m, a, hr⟩ := watchPower_eq (rtcSet s sec)
  rw [burstStart, hr, rtcSet_wk]

end

theorem Bootable.burstStart {s : State} (h : Bootable s) (sec : Nat) : Bootable (burstStart s sec) := by
  obtain ⟨t, m, a, hr⟩ := watchPower_eq (Machine.rtcSet s sec)
  rw [Machine.burstStart, hr]
  exact ⟨(h.rtcSet sec).regs, (h.rtcSet sec).applied, (h.rtcSet sec).mem⟩

/-- Bursts are armed while their schedule stands. -/
theorem wakeArmed_burst (s : State) {det : Nat} (hd : det ≠ 0) : wakeArmed s 6 det = true := by
  simp [wakeArmed, hd]

section
variable {s : State} (h : Bootable s) (hm : s.mode = .watch) (hp : s.park = .none) (det : Nat) (also : Byte) (sec sub : Nat)
include h hm hp

/-- A burst that wakes. -/
theorem wakeFire_burst (hd : det ≠ 0) : (wakeFire s 6 det also.toNat sec sub).mode = .boot :=
  (wakeFire_boot h (.inr hm) hp (wakeArmed_burst s hd) (wakeListens_other s det _)).mode

/-- A failed copy of cyclic sensing raises CYCREF with the wake (R278). -/
theorem wakeFire_cycref (hd : det ≠ 0) (hb : s.wk.cycBad = true) : Raises (wakeFire s 6 det also.toNat sec sub) 226 := by
  rw [wakeFire_takes h.regs (.inr hm) hp (wakeArmed_burst s hd), wakeTake_eq, rtcSet_wk, hb]
  exact wakeRaised_cycref _ _

end

/-! ### Cyclic sensing (R274, R278) -/

/-- The copy of the references fails its check. -/
def cycCopyFails (s : State) : State := { s with wk := { s.wk with cycBad := true } }

/-- The differences wait for the confirming burst. -/
def cycDiffer (s : State) (diff : List (Nat × Bool)) : State := { s with wk := { s.wk with diff := diff } }

section
variable (s : State) (diff : List (Nat × Bool))

@[simp] theorem cycCopyFails_mode : (cycCopyFails s).mode = s.mode := rfl
@[simp] theorem cycCopyFails_park : (cycCopyFails s).park = s.park := rfl
@[simp] theorem cycCopyFails_cycBad : (cycCopyFails s).wk.cycBad = true := rfl
@[simp] theorem cycDiffer_mode : (cycDiffer s diff).mode = s.mode := rfl
@[simp] theorem cycDiffer_park : (cycDiffer s diff).park = s.park := rfl
@[simp] theorem cycDiffer_diff : (cycDiffer s diff).wk.diff = diff := rfl

end

theorem Bootable.cycCopyFails {s : State} (h : Bootable s) : Bootable (cycCopyFails s) := ⟨h.regs, h.applied, h.mem⟩

theorem Bootable.cycDiffer {s : State} (h : Bootable s) (diff : List (Nat × Bool)) : Bootable (cycDiffer s diff) :=
  ⟨h.regs, h.applied, h.mem⟩

theorem cycBurst_eq (s : State) (levels : Nat) (copyOk : Bool) (also sec sub : Nat) : cycBurst s levels copyOk also sec sub =
    if (burstStart s sec).mode ≠ .watch || (burstStart s sec).wk.cyc = [] then burstStart s sec
    else if !copyOk then wakeFire (cycCopyFails (burstStart s sec)) 6 1 also sec sub
    else if cycDiff (burstStart s sec) levels = [] then burstStart s sec
    else if (burstStart s sec).wk.conf then cycDiffer (burstStart s sec) (cycDiff (burstStart s sec) levels)
    else wakeFire (burstStart s sec) 6 1 also sec sub := rfl

theorem burstStart_cycDiff (s : State) (sec levels : Nat) : cycDiff (burstStart s sec) levels = cycDiff s levels := by
  simp only [cycDiff, burstStart_wk]

theorem cyc_ne_nil_of_cycDiff {s : State} {levels : Nat} (hd : cycDiff s levels ≠ []) : s.wk.cyc ≠ [] := by
  intro hc
  exact hd (by simp [cycDiff, hc])

section
variable {s : State} {levels : Nat} (hm : s.mode = .watch) (also sec sub : Nat)
include hm

theorem cycBurst_copyFails (hc : s.wk.cyc ≠ []) :
    cycBurst s levels false also sec sub = wakeFire (cycCopyFails (burstStart s sec)) 6 1 also sec sub := by
  rw [cycBurst_eq]
  simp [hm, hc]

theorem cycBurst_confirms (hd : cycDiff s levels ≠ []) (hconf : s.wk.conf = true) :
    cycBurst s levels true also sec sub = cycDiffer (burstStart s sec) (cycDiff s levels) := by
  rw [cycBurst_eq, burstStart_cycDiff]
  simp [hm, hd, cyc_ne_nil_of_cycDiff hd, hconf]

theorem cycBurst_wakes (hd : cycDiff s levels ≠ []) (hconf : s.wk.conf = false) :
    cycBurst s levels true also sec sub = wakeFire (burstStart s sec) 6 1 also sec sub := by
  rw [cycBurst_eq, burstStart_cycDiff]
  simp [hm, hd, cyc_ne_nil_of_cycDiff hd, hconf]

theorem cycConfirm_eq (hd : s.wk.diff ≠ []) : cycConfirm s levels also sec sub =
    if s.wk.diff.any fun e => levels.testBit e.1 = e.2 then wakeFire (cycDiffer (rtcSet s sec) []) 6 1 also sec sub
    else cycDiffer (rtcSet s sec) [] := by
  have hidle : ¬ ((rtcSet s sec).mode ≠ .watch || (rtcSet s sec).wk.diff = [] : Bool) = true := by simp [hm, hd]
  rw [← rtcSet_wk s sec]
  exact if_neg hidle

/-! ### LF polling (R448, R449) -/

theorem pollBurst_eq (copyOk : Bool) (heard : List LfPoll) : pollBurst s copyOk heard also sec sub =
    if (immBurst (burstStart s sec) copyOk heard).2 then wakeFire (immBurst (burstStart s sec) copyOk heard).1 6 2 also sec sub
    else (immBurst (burstStart s sec) copyOk heard).1 :=
  if_neg (not_not.mpr ((burstStart_mode s sec).trans hm))

end

/-- A poll burst is the immobilizer's alone. -/
theorem immBurst_eq (s : State) (copyOk : Bool) (heard : List LfPoll) : ∃ i, (immBurst s copyOk heard).1 = { s with imm := i } := by
  unfold immBurst
  split
  · exact ⟨s.imm, rfl⟩
  · split
    · exact ⟨_, rfl⟩
    · exact ⟨_, rfl⟩

section
variable (s : State) (copyOk : Bool) (heard : List LfPoll)

@[simp] theorem immBurst_mode : (immBurst s copyOk heard).1.mode = s.mode := by
  obtain ⟨i, hr⟩ := immBurst_eq s copyOk heard
  rw [hr]
@[simp] theorem immBurst_park : (immBurst s copyOk heard).1.park = s.park := by
  obtain ⟨i, hr⟩ := immBurst_eq s copyOk heard
  rw [hr]

end

theorem Bootable.immBurst {s : State} (h : Bootable s) (copyOk : Bool) (heard : List LfPoll) :
    Bootable (immBurst s copyOk heard).1 := by
  obtain ⟨i, hr⟩ := immBurst_eq s copyOk heard
  rw [hr]
  exact ⟨h.regs, h.applied, h.mem⟩

/-- The step after the one that ended, or the end of polling. -/
def pollStepped (s : State) : State :=
  if s.imm.step + 1 < 8 && (s.imm.pollTab.getD (s.imm.step + 1) 0) % 65536 ≠ 0 then { s with imm := { s.imm with step := s.imm.step + 1 } }
  else { s with imm := { s.imm with step := min (s.imm.step + 1) 7, pollOn := false } }

theorem pollStepEnd_steps {s : State} (hm : s.mode = .watch) (hp : immPollPer s ≠ 0)
    (he : s.imm.pollTab.getD s.imm.step 0 / 65536 ≠ 0xFFFF) : pollStepEnd s = pollStepped s := by
  have hends : ¬ (immPollPer s = 0 || s.imm.pollTab.getD s.imm.step 0 / 65536 = 0xFFFF : Bool) = true := by
    simp only [Bool.or_eq_true, decide_eq_true_eq, not_or]
    exact ⟨hp, he⟩
  exact (if_pos hm).trans (if_neg hends)

theorem pollStepped_mode (s : State) : (pollStepped s).mode = s.mode := by
  unfold pollStepped
  split
  · rfl
  · rfl

theorem pollStepped_next {s : State} (hi : s.imm.step + 1 < 8) (hn : s.imm.pollTab.getD (s.imm.step + 1) 0 % 65536 ≠ 0) :
    (pollStepped s).imm = { s.imm with step := s.imm.step + 1 } := by
  rw [pollStepped, if_pos (by simpa [hi] using hn)]

theorem pollStepped_ends {s : State} (hn : s.imm.pollTab.getD (s.imm.step + 1) 0 % 65536 = 0) : (pollStepped s).imm.pollOn = false := by
  rw [pollStepped, if_neg (by simpa using fun _ => hn)]

/-! ### The ends of the statement -/

/-- A LIN's wake pulse that is its first. -/
theorem answers_linWake_first {s : State} (hm : s.mode = .listen) (k : Fin 6) (whole ok : Bool) (hk : s.wk.pulses.testBit k.val = false) :
    Answers (.qualifyingTraffic ⟨.linWake k, whole⟩ ok) s fun u => u.mode = .listen ∧
      (whole = true → (cfg s 0x01 R.PMU.WROUTE.LST).testBit (k.val + 2) = true → u.wk.pulses.testBit k.val = true) := by
  have hq : qualifies (copyChecked s ok) (.linWake k) = false := qualifies_linWake_first hk
  cases hw : trafficWeighed (copyChecked s ok) (.linWake k) whole with
  | false =>
    refine .of_done (congrArg (done s) (listenTraffic_unweighed hw)) ⟨hm, fun hwhole hr => ?_⟩
    rw [hwhole, trafficWeighed_routed (t := .linWake k) hm hr] at hw
    exact absurd hw (by decide)
  | true =>
    exact .of_done (congrArg (done s) (listenTraffic_unqualified hw hq)) ⟨hm, fun _ _ => linPulse_pulses _ k⟩

section
variable {s : State} (h : Bootable s)
include h

/-- The listen timeout. -/
theorem answers_listenTimeout (hm : s.mode = .listen) : Answers .listenTimeout s fun u =>
    u.mode = (if s.wk.left = 2 then .watch else .park) ∧
      getF u 0x01 R.PMU.FWAKE.COUNT = satInc 65535 (getF s 0x01 R.PMU.FWAKE.COUNT) := by
  have ha : storeWf regReset (falseWakeNoted s).applied = true := falseWakeNoted_applied s ▸ h.applied
  refine .of_done (congrArg (done s) (listenTimeout_eq hm)) ⟨powerDown_mode _ _ _, ?_⟩
  exact (powerDown_getF_pmu (falseWakeNoted_wf h.regs) ha (by decide)).trans (falseWakeNoted_count h.regs)

/-- A difference found by a burst. -/
theorem answers_cycDiff (hm : s.mode = .watch) (hp : s.park = .none) (levels : BitVec 64) (also : Byte) (sec : Word) (sub : BitVec 16)
    (hd : cycDiff s levels.toNat ≠ []) : Answers (.cyclicSenseBurst ⟨levels, true⟩ also sec sub) s fun u =>
      u.mode = (if s.wk.conf then .watch else .boot) ∧ (s.wk.conf = true → u.wk.diff = cycDiff s levels.toNat) := by
  cases hconf : s.wk.conf with
  | true =>
    refine .of_done (congrArg (done s) (cycBurst_confirms hm also.toNat sec.toNat sub.toNat hd hconf)) ⟨?_, fun _ => cycDiffer_diff _ _⟩
    rw [cycDiffer_mode, burstStart_mode, hm, if_pos rfl]
  | false =>
    refine .of_done (congrArg (done s) (cycBurst_wakes hm also.toNat sec.toNat sub.toNat hd hconf)) ⟨?_, nofun⟩
    rw [wakeFire_burst (h.burstStart _) (by rw [burstStart_mode, hm]) (by rw [burstStart_park, hp]) 1 also _ _ (by decide)]
    exact (if_neg (by decide)).symm

/-- A burst whose copy fails its check. -/
theorem answers_cycCopyFails (hm : s.mode = .watch) (hp : s.park = .none) (levels : BitVec 64) (also : Byte) (sec : Word)
    (sub : BitVec 16) (hc : s.wk.cyc ≠ []) :
    Answers (.cyclicSenseBurst ⟨levels, false⟩ also sec sub) s fun u => u.mode = .boot ∧ Raises u 226 := by
  have hs : Bootable (cycCopyFails (burstStart s sec.toNat)) := (h.burstStart _).cycCopyFails
  have hm' : (cycCopyFails (burstStart s sec.toNat)).mode = .watch := by simp [hm]
  have hp' : (cycCopyFails (burstStart s sec.toNat)).park = .none := by simp [hp]
  exact .of_done (congrArg (done s) (cycBurst_copyFails hm also.toNat sec.toNat sub.toNat hc))
    ⟨wakeFire_burst hs hm' hp' 1 also _ _ (by decide), wakeFire_cycref hs hm' hp' 1 also _ _ (by decide) (cycCopyFails_cycBad _)⟩

/-- The confirming burst. -/
theorem answers_cycConfirm (hm : s.mode = .watch) (hp : s.park = .none) (levels : BitVec 64) (also : Byte) (sec : Word)
    (sub : BitVec 16) (hd : s.wk.diff ≠ []) : Answers (.cyclicConfirmBurst levels also sec sub) s fun u =>
      u.mode = (if s.wk.diff.any fun e => levels.toNat.testBit e.1 = e.2 then .boot else .watch) := by
  have hs : Bootable (cycDiffer (rtcSet s sec.toNat) []) := (h.rtcSet _).cycDiffer []
  have hm' : (cycDiffer (rtcSet s sec.toNat) []).mode = .watch := by simp [hm]
  have hp' : (cycDiffer (rtcSet s sec.toNat) []).park = .none := by simp [hp]
  refine .of_done (congrArg (done s) (cycConfirm_eq hm also.toNat sec.toNat sub.toNat hd)) ?_
  split
  · exact wakeFire_burst hs hm' hp' 1 also _ _ (by decide)
  · exact hm'

/-- A poll burst. -/
theorem answers_pollBurst (hm : s.mode = .watch) (hp : s.park = .none) (ok : Bool) (heard : List LfPoll) (also : Byte) (sec : Word)
    (sub : BitVec 16) : Answers (.pollBurst ok heard also sec sub) s fun u =>
      u.mode = (if (immBurst (burstStart s sec.toNat) ok heard).2 then .boot else .watch) := by
  have hm' : (immBurst (burstStart s sec.toNat) ok heard).1.mode = .watch := by simp [hm]
  have hp' : (immBurst (burstStart s sec.toNat) ok heard).1.park = .none := by simp [hp]
  refine .of_done (congrArg (done s) (pollBurst_eq hm also.toNat sec.toNat sub.toNat ok heard)) ?_
  split
  · exact wakeFire_burst ((h.burstStart _).immBurst ok heard) hm' hp' 2 also _ _ (by decide)
  · exact hm'

end

theorem scheduleEnd_parks {s : State} (hm : s.mode = .watch) (hc : s.wk.cyc = []) (hp : immPollPer s = 0) :
    scheduleEnd s = modeShow s .park 7 := by
  simp [scheduleEnd, hm, hc, hp]

/-- Settles O17: LISTEN ends by its timeout or by the traffic that `trafficWeighed` and `qualifies` let through; in WATCH each burst
either fires its source, which then takes the device to BOOT, or leaves it in WATCH. -/
theorem listenAndWatch : Obligations.ListenAndWatch := by
  intro s t k whole ok levels heard also sec sub hcanon
  have h := hcanon.bootable
  refine ⟨answers_listenTimeout h, ?qualified, ?early, fun hm => answers_linWake_first hm k whole ok, ?schedule,
    fun hm hp => answers_cycDiff h hm hp levels also sec sub, fun hm hp => answers_cycCopyFails h hm hp levels also sec sub,
    fun hm hp => answers_cycConfirm h hm hp levels also sec sub, fun hm hp => answers_pollBurst h hm hp ok heard also sec sub, ?step⟩
  case qualified =>
    intro hm hr hq
    have hwoken := listenTraffic_woken h (trafficWeighed_routed hm hr) hq
    exact .of_done rfl ⟨hwoken.mode, hwoken.cause⟩
  case early =>
    have hw : trafficWeighed (copyChecked s ok) t false = false := by simp [trafficWeighed]
    exact .of_done rfl (listenTraffic_unweighed hw)
  case schedule =>
    intro hm hc hp
    exact .of_done (congrArg (done s) (scheduleEnd_parks hm hc hp)) ⟨rfl, modeShow_cause h.regs⟩
  case step =>
    intro hm hp he
    exact .of_done (congrArg (done s) (pollStepEnd_steps hm hp he))
      ⟨(pollStepped_mode s).trans hm, pollStepped_next, fun _ => pollStepped_ends⟩

end Sys2Proof.Machine
end

section
/-! The register words that a step keeps, and the reflex record (04, R81, R82). -/

-- One proof after another: side by side they start more threads than the memory limit of the check has room for.
set_option Elab.async false

namespace Sys2Proof.Machine

/-! ### A word above the frame of the mode -/

/-- From `s` to `t` the register word of key `k` and the mode stay as they are. -/
structure KeepsWord (k : Nat) (s t : State) : Prop where
  word : storeWf regReset s.regs = true → storeGet regReset t.regs k = storeGet regReset s.regs k
  canon : storeWf regReset s.regs = true → storeWf regReset t.regs = true
  mode : t.mode = s.mode

/-- What leaves DEV, PMU and RST above the header as they are leaves each word of theirs. -/
theorem KeepsMode.keepsWord {s t : State} {k : Nat} (h : KeepsMode s t) (hk : modeKey k = true) : KeepsWord k s t := by
  refine ⟨fun hs => ?_, h.canon, h.mode⟩
  have hkept (u : State) (hu : storeWf regReset u.regs = true) :
      storeGet regReset (storeKeep modeKey u.regs) k = storeGet regReset u.regs k := (storeGet_keep hu).trans (if_pos hk)
  rw [← hkept t (h.canon hs), ← hkept s hs, h.words]

namespace KeepsWord
variable {k : Nat} {s t u : State}

theorem refl (k : Nat) (s : State) : KeepsWord k s s := ⟨fun _ => rfl, id, rfl⟩

theorem trans (h : KeepsWord k s t) (h' : KeepsWord k t u) : KeepsWord k s u :=
  ⟨fun hs => (h'.word (h.canon hs)).trans (h.word hs), h'.canon ∘ h.canon, h'.mode.trans h.mode⟩

/-- An update of other parts of the state. -/
theorem upd (h : KeepsWord k s t) (hr : u.regs = t.regs := by rfl) (hm : u.mode = t.mode := by rfl) : KeepsWord k s u :=
  h.trans ⟨fun _ => by rw [hr], fun ht => hr ▸ ht, hm⟩

theorem wr (h : KeepsWord k s t) {p off : Nat} {w : Word} (hk : k ≠ rkey p off) : KeepsWord k s (wr t p off w) :=
  h.trans ⟨fun ht => storeGet_set_ne ht hk, storeSet_wf, rfl⟩

theorem setF (h : KeepsWord k s t) {p : Nat} {f : Fld} {v : Nat} (hk : k ≠ rkey p f.off) : KeepsWord k s (setF t p f v) := h.wr hk

theorem setFlag (h : KeepsWord k s t) {p : Nat} {f : Fld} {b : Bool} (hk : k ≠ rkey p f.off) : KeepsWord k s (setFlag t p f b) := h.wr hk

theorem ite {c : Prop} {_ : Decidable c} (h : KeepsWord k s t) (h' : KeepsWord k s u) : KeepsWord k s (if c then t else u) := by
  split
  · exact h
  · exact h'

/-- A step that is taken or left out. -/
theorem when {c : Prop} {_ : Decidable c} (h : KeepsWord k s t) (hu : KeepsWord k s t → KeepsWord k s u) :
    KeepsWord k s (if c then u else t) := .ite (hu h) h

/-- What each step of a fold keeps, the fold keeps. -/
theorem foldl {α : Type} {f : State → α → State} {l : List α} (h : KeepsWord k s t)
    (hf : ∀ u, KeepsWord k s u → ∀ a ∈ l, KeepsWord k s (f u a)) : KeepsWord k s (l.foldl f t) :=
  List.foldlRecOn l f h hf

/-- A field of the word reads as before. -/
theorem getF {p : Nat} {f : Fld} (h : KeepsWord (rkey p f.off) s t) (hs : storeWf regReset s.regs = true) :
    getF t p f = getF s p f := congrArg (fget · f) (h.word hs)

theorem isSet {p : Nat} {f : Fld} (h : KeepsWord (rkey p f.off) s t) (hs : storeWf regReset s.regs = true) :
    isSet t p f = isSet s p f := congrArg (fun n : Nat => decide (n ≠ 0)) (h.getF hs)

end KeepsWord

/-! ### The reflex record (R81, R82) -/

/-- The directory lies in memory. -/
theorem dirGen_congr {s t : State} (h : t.mem = s.mem) : dirGen t = dirGen s := by
  have hmem : dirGen t = dirGen { s with mem := t.mem } := rfl
  rw [hmem, h]

theorem recImage_congr {s t : State} (h : t.mem = s.mem) (g k : Nat) : recImage t g k = recImage s g k := by
  rw [recImage, recImage, h]

theorem recCrc_congr {s t : State} (h : t.mem = s.mem) (g k : Nat) : recCrc t g k = recCrc s g k := by
  rw [recCrc, recCrc, memNat, memNat, h]

/-- The words of record 0 of generation `g`, as RFX's shadow holds them. -/
def reflexWords (s : State) (g : Nat) : List Word := fieldWords 0x1D (wordsOf (recImage s g 0))

/-- The loader has ended: the ring's causeways open, if its role lets them (R79, R336). -/
def reflexEnded (s : State) : State := jxrRoleChanged (touch { s with rfxLoaded := true })

/-- Its time shows, and no result yet. -/
def reflexTimed (s : State) (time : Nat) : State :=
  setF (setFlag (reflexEnded s) 0x1D R.RFX.LOAD.OK false) 0x1D R.RFX.LOAD.TIME time

/-- Record 0 in RFX's shadow, with its CRC. -/
def reflexPut (s : State) (time g : Nat) : State :=
  wr (shadowPut (reflexTimed s time) 0x1D (reflexWords s g)) 0x1D 0x014 (BitVec.ofNat 32 (recCrc s g 0))

/-- Record 0 fails its check. -/
def reflexFails (s : State) (time g : Nat) : Bool :=
  (crc32 ((reflexWords s g).flatMap wordBytes)).toNat ≠ recCrc s g 0 || (rangeFail (reflexPut s time g) 0x1D).isSome

/-- RFX with record 0 in force, before the record's flags act. -/
def reflexApplied (s : State) (time g : Nat) : State :=
  setFlag (setFlag (applyPage (reflexPut s time g) 0x1D 3) 0x1D H.CMTDONE false) 0x1D R.RFX.LOAD.OK true

theorem reflexEnded_keepsHead (s : State) : KeepsHead 0x1D s (reflexEnded s) :=
  have h : KeepsHead 0x1D s (touch { s with rfxLoaded := true }) := (Keeps.refl _ s).upd
  jxrRoleChanged_keepsHead h

/-- The end of the loader leaves RFX's header, the configuration in force and the memory as they are. -/
theorem reflexTimed_keepsHead (s : State) (time : Nat) : KeepsHead 0x1D s (reflexTimed s time) :=
  (reflexEnded_keepsHead s).setFlag.setF

/-- The loader with a directory: record 0 fails its check, or is in force. -/
theorem rfxLoad_eq {s : State} (time : Nat) {g : Nat} (hl : s.rfxLoaded = false) (hg : dirGen s = some g) :
    rfxLoad s time = if reflexFails s time g then assertLevel (reflexTimed s time) (0x1D * 8 + 7)
      else loadFlags (reflexApplied s time g) 0x1D (recFlags (reflexTimed s time) g 0) := by
  have hended := (reflexEnded_keepsHead s).memory
  have hgen : dirGen (jxrRoleChanged (touch { s with rfxLoaded := true })) = some g := (dirGen_congr hended).trans hg
  have himage : recImage (jxrRoleChanged (touch { s with rfxLoaded := true })) g 0 = recImage s g 0 := recImage_congr hended g 0
  have hcrc := recCrc_congr (reflexTimed_keepsHead s time).memory g 0
  unfold rfxLoad
  rw [if_neg (by simp [hl])]
  dsimp only
  rw [hgen]
  dsimp only
  rw [himage, reflexFails, reflexApplied, reflexPut, reflexWords, ← hcrc]
  rfl

/-- A record whose CRC does not hold fails the check. -/
theorem reflexFails_crc {s : State} (time : Nat) {g : Nat} (hc : (crc32 ((reflexWords s g).flatMap wordBytes)).toNat ≠ recCrc s g 0) :
    reflexFails s time g = true := by simp [reflexFails, hc]

section
variable {s : State} (h : storeWf regReset s.regs = true)
include h

theorem reflexTimed_wf (time : Nat) : storeWf regReset (reflexTimed s time).regs = true := (reflexTimed_keepsHead s time).canon h

theorem reflexTimed_ok (time : Nat) : isSet (reflexTimed s time) 0x1D R.RFX.LOAD.OK = false := by
  have hw : storeWf regReset (reflexEnded s).regs = true := (reflexEnded_keepsHead s).canon h
  rw [isSet, reflexTimed, getF_setF_bits (f := R.RFX.LOAD.TIME) (g := R.RFX.LOAD.OK) (setFlag_wf hw) rfl (by decide) (by decide)
    (by decide) (by decide), ← isSet]
  exact isSet_setFlag_same hw rfl (by decide)

/-- Every shadow word is the record's. -/
theorem rd_shadowPut (p : Nat) (ws : List Word) {i : Nat} (hi : i < 512) :
    rd (shadowPut s p ws) p (0x800 + 4 * i) = ws.getD i 0 := by
  have hput (n : Nat) : storeWf regReset ((List.range n).foldl (fun s i => wr s p (0x800 + 4 * i) (ws.getD i 0)) s).regs = true ∧
      (i < n → rd ((List.range n).foldl (fun s i => wr s p (0x800 + 4 * i) (ws.getD i 0)) s) p (0x800 + 4 * i) = ws.getD i 0) := by
    induction n with
    | zero => exact ⟨h, fun hn => absurd hn (Nat.not_lt_zero i)⟩
    | succ n ih =>
      obtain ⟨hw, hrd⟩ := ih
      rw [List.range_succ, List.foldl_append]
      refine ⟨wr_wf hw, fun hn => ?_⟩
      rcases Nat.lt_or_eq_of_le (Nat.le_of_lt_succ hn) with hlt | rfl
      · exact (rd_wr_ne hw (by unfold rkey; omega)).trans (hrd hlt)
      · exact rd_wr_same hw
  exact (hput 512).2 hi

end

/-- A record's image lies in the shadow. -/
theorem shadowPut_keepsHead {p : Nat} {s t : State} (h : KeepsHead p s t) (q : Nat) (ws : List Word) :
    KeepsHead p s (shadowPut t q ws) := h.range fun _ hu i hi => hu.wr (by omega)

/-- The range check reads the page's shadow alone. -/
theorem rangeFail_congr {s t : State} {p : Nat} (h : ∀ i < 512, rd t p (0x800 + 4 * i) = rd s p (0x800 + 4 * i)) :
    rangeFail t p = rangeFail s p := by
  have hfind : (List.range 512).find? (fun i => wordOutOfRange p (0x800 + 4 * i) (rd t p (0x800 + 4 * i))) =
      (List.range 512).find? (fun i => wordOutOfRange p (0x800 + 4 * i) (rd s p (0x800 + 4 * i))) :=
    List.find?_congr fun i hi => by rw [h i (List.mem_range.mp hi)]
  rw [rangeFail, rangeFail, hfind]

section
variable {s : State} (h : storeWf regReset s.regs = true) (time g : Nat)
include h

theorem reflexPut_wf : storeWf regReset (reflexPut s time g).regs = true :=
  wr_wf ((shadowPut_keepsHead (Keeps.refl (headKey 0x1D) _) 0x1D _).canon (reflexTimed_wf h time))

/-- The range check finds in the loader's shadow what it finds in the shadow of a device whose loader has not run. -/
theorem rangeFail_reflexPut : rangeFail (reflexPut s time g) 0x1D = rangeFail (shadowPut s 0x1D (reflexWords s g)) 0x1D := by
  have hw := (shadowPut_keepsHead (Keeps.refl (headKey 0x1D) (reflexTimed s time)) 0x1D (reflexWords s g)).canon (reflexTimed_wf h time)
  refine rangeFail_congr fun i hi => ?_
  rw [rd_shadowPut h 0x1D _ hi, reflexPut, rd_wr_ne hw (by unfold rkey; omega), rd_shadowPut (reflexTimed_wf h time) 0x1D _ hi]

/-- A record whose CRC holds and whose fields are in range passes the check. -/
theorem reflexFails_false (hc : (crc32 ((reflexWords s g).flatMap wordBytes)).toNat = recCrc s g 0)
    (hr : rangeFail (shadowPut s 0x1D (reflexWords s g)) 0x1D = none) : reflexFails s time g = false := by
  simp [reflexFails, hc, rangeFail_reflexPut h, hr]

theorem reflexPut_epoch : getF (reflexPut s time g) 0x1D H.EPOCH = getF s 0x1D H.EPOCH := by
  have hput := shadowPut_keepsHead (reflexTimed_keepsHead s time) 0x1D (reflexWords s g)
  exact (getF_wr_key (hput.canon h) (by decide)).trans (hput.getF h)

end

/-! ### The flags of the record (R82, R90) -/

/-- A write of field `g` leaves field `f` of its page as it is: it lies in another word, or in other bits of the word. -/
def fieldsApart (f g : Fld) : Bool :=
  decide (f.off < 4096) && decide (g.off < 4096) && (decide (f.off / 4 ≠ g.off / 4) ||
    (decide (f.off = g.off) && decide (f.lo ≤ f.hi) && decide (g.lo ≤ g.hi) && decide (g.hi < 32) &&
      (decide (f.hi < g.lo) || decide (g.hi < f.lo))))

theorem getF_setF_apart {s : State} {p : Nat} {f g : Fld} {v : Nat} (h : storeWf regReset s.regs = true)
    (ha : fieldsApart f g = true) : getF (setF s p g v) p f = getF s p f := by
  simp only [fieldsApart, Bool.and_eq_true, Bool.or_eq_true, decide_eq_true_eq] at ha
  obtain ⟨⟨hf, hg⟩, hword | ⟨⟨⟨⟨hoff, hfb⟩, hgb⟩, hg32⟩, hbits⟩⟩ := ha
  · exact getF_setF_key h (rkey_ne hg hf (.inr hword))
  · exact getF_setF_bits h hoff hgb hg32 hbits hfb

/-- From `s` to `t` field `f` of page `p` stays as it is. -/
structure KeepsField (p : Nat) (f : Fld) (s t : State) : Prop where
  field : storeWf regReset s.regs = true → getF t p f = getF s p f
  canon : storeWf regReset s.regs = true → storeWf regReset t.regs = true

namespace KeepsField
variable {p : Nat} {f : Fld} {s t : State}

theorem refl (p : Nat) (f : Fld) (s : State) : KeepsField p f s s := ⟨fun _ => rfl, id⟩

theorem setF (h : KeepsField p f s t) {g : Fld} {v : Nat} (ha : fieldsApart f g = true) : KeepsField p f s (setF t p g v) :=
  ⟨fun hs => (getF_setF_apart (h.canon hs) ha).trans (h.field hs), fun hs => setF_wf (h.canon hs)⟩

theorem setFlag (h : KeepsField p f s t) {g : Fld} {b : Bool} (ha : fieldsApart f g = true) : KeepsField p f s (setFlag t p g b) :=
  h.setF ha

end KeepsField

/-- RFX has nothing that follows its ENABLE. -/
theorem setEnable_rfx (s : State) : setEnable s 0x1D true = if enabled s 0x1D then s else touch (setFlag s 0x1D H.ENABLE true) := by
  cases h : enabled s 0x1D <;> simp [setEnable, h, alwaysOn, blockGate, blkOf]

/-- The flags of a record leave a field of RFX's page apart from FOFF, WERR, LOCKED and ENABLE as it is. -/
theorem loadFlags_rfx_keepsField (s : State) (flags : Nat) {f : Fld}
    (hf : ∀ g ∈ [H.FOFF, H.WERR, H.ENABLE, H.LOCKED], fieldsApart f g = true) : KeepsField 0x1D f s (loadFlags s 0x1D flags) := by
  have hrefl := KeepsField.refl 0x1D f s
  have hwerr : KeepsField 0x1D f s (werr s 0x1D 0x00C) := (hrefl.setF (hf H.FOFF (by simp))).setFlag (hf H.WERR (by simp))
  have henabled : KeepsField 0x1D f s (setEnable s 0x1D true) := by
    have hset : KeepsField 0x1D f s (setFlag s 0x1D H.ENABLE true) := hrefl.setFlag (hf H.ENABLE (by simp))
    rw [setEnable_rfx]
    split
    · exact hrefl
    · exact ⟨hset.field, hset.canon⟩
  have hflag : KeepsField 0x1D f s (if flags.testBit 0 && !enabled s 0x1D then
      (if enableRefused s 0x1D then werr s 0x1D 0x00C else setEnable s 0x1D true) else s) := by
    split
    · split
      · exact hwerr
      · exact henabled
    · exact hrefl
  unfold loadFlags
  dsimp only
  split
  · exact hflag.setFlag (hf H.LOCKED (by simp))
  · exact hflag

section
variable {s : State} (h : storeWf regReset s.regs = true) (time g : Nat)
include h

theorem reflexApplied_wf : storeWf regReset (reflexApplied s time g).regs = true :=
  setFlag_wf (setFlag_wf (applyPage_wf (reflexPut_wf h time g) 0x1D 3))

/-- The header of RFX after its first commit. -/
theorem reflexApplied_shows (hc : configured s 0x1D = false) :
    getF (reflexApplied s time g) 0x1D H.EPOCH = 1 ∧ getF (reflexApplied s time g) 0x1D H.CRES = 1 ∧
      getF (reflexApplied s time g) 0x1D R.RFX.LOAD.OK = 1 := by
  have hput := reflexPut_wf h time g
  have happlied := applyPage_wf hput 0x1D 3
  obtain ⟨hepoch, hcres, -, -⟩ := applyPage_shows hput 0x1D 3
  have hfirst : getF (reflexPut s time g) 0x1D H.EPOCH = 0 := by
    rw [reflexPut_epoch h]
    simpa [configured] using hc
  have hkept {f : Fld} (hdone : fieldsApart f H.CMTDONE = true) (hok : fieldsApart f R.RFX.LOAD.OK = true) :
      getF (reflexApplied s time g) 0x1D f = getF (applyPage (reflexPut s time g) 0x1D 3) 0x1D f :=
    (getF_setF_apart (setFlag_wf happlied) hok).trans (getF_setF_apart happlied hdone)
  refine ⟨?_, (hkept (by decide) (by decide)).trans hcres, getF_setF_same (setFlag_wf happlied) (by decide) (by decide)⟩
  rw [hkept (by decide) (by decide), hepoch, hfirst]
  rfl

end

/-! ### REFLEX_LOAD_COMPLETE -/

theorem running_of_boot {s : State} (h : s.mode = .boot) : running s = true := by simp [running, h]

theorem contains_assertLevel (s : State) (id : Nat) : (assertLevel s id).flt.level.contains id = true := by
  unfold assertLevel
  split
  · assumption
  · simp

theorem assertLevel_regs (s : State) (id : Nat) : (assertLevel s id).regs = s.regs := by
  unfold assertLevel
  split <;> rfl

theorem assertLevel_applied (s : State) (id : Nat) : (assertLevel s id).applied = s.applied := by
  unfold assertLevel
  split <;> rfl

theorem getF_congr_regs {s t : State} {p : Nat} {f : Fld} (h : t.regs = s.regs) : getF t p f = getF s p f := by
  rw [getF, getF, rd, rd, h]

/-- A record that fails its check leaves RFX unconfigured. -/
theorem answers_reflexLoad_fails {s : State} (hw : storeWf regReset s.regs = true) (hm : s.mode = .boot) (hl : s.rfxLoaded = false)
    (hc : configured s 0x1D = false) (time : BitVec 16) {g : Nat} (hg : dirGen s = some g)
    (hf : reflexFails s time.toNat g = true) : Answers (.reflexLoadComplete time) s fun u =>
      configured u 0x1D = false ∧ isSet u 0x1D R.RFX.LOAD.OK = false ∧ u.flt.level.contains 0xEF = true ∧ u.applied = s.applied := by
  refine .of_done (done_powered (running_of_boot hm)) ?_
  have hkeeps := reflexTimed_keepsHead s time.toNat
  have hget (f : Fld) : getF (assertLevel (reflexTimed s time.toNat) 0xEF) 0x1D f = getF (reflexTimed s time.toNat) 0x1D f :=
    getF_congr_regs (assertLevel_regs _ _)
  rw [rfxLoad_eq time.toNat hl hg, if_pos hf]
  refine ⟨?_, ?_, contains_assertLevel _ _, (assertLevel_applied _ _).trans hkeeps.config⟩
  · rw [configured, hget, hkeeps.getF hw]
    exact hc
  · rw [isSet, hget]
    exact reflexTimed_ok hw time.toNat

/-- A record that passes its check configures RFX. -/
theorem answers_reflexLoad_loads {s : State} (hw : storeWf regReset s.regs = true) (hm : s.mode = .boot) (hl : s.rfxLoaded = false)
    (hc : configured s 0x1D = false) (time : BitVec 16) {g : Nat} (hg : dirGen s = some g)
    (hf : reflexFails s time.toNat g = false) : Answers (.reflexLoadComplete time) s fun u =>
      getF u 0x1D H.EPOCH = 1 ∧ getF u 0x1D H.CRES = 1 ∧ isSet u 0x1D R.RFX.LOAD.OK = true := by
  refine .of_done (done_powered (running_of_boot hm)) ?_
  rw [rfxLoad_eq time.toNat hl hg, if_neg (by simp [hf])]
  obtain ⟨hepoch, hcres, hok⟩ := reflexApplied_shows hw time.toNat g hc
  have hflags {f : Fld} (ha : ∀ g ∈ [H.FOFF, H.WERR, H.ENABLE, H.LOCKED], fieldsApart f g = true) :=
    (loadFlags_rfx_keepsField (reflexApplied s time.toNat g) (recFlags (reflexTimed s time.toNat) g 0) ha).field
      (reflexApplied_wf hw time.toNat g)
  refine ⟨(hflags (by decide)).trans hepoch, (hflags (by decide)).trans hcres, ?_⟩
  rw [isSet, hflags (by decide), hok]
  rfl

end Sys2Proof.Machine
end

section
/-! Open sources: what a block does at its apply edge and what follows a change of mode open and close none (17, R500). -/

-- One proof after another: side by side they start more threads than the memory limit of the check has room for.
set_option Elab.async false

namespace Sys2Proof.Machine

/-! ### Open sources

Only a source that opens or closes changes the list of open sources (R500). What a block does at its apply edge and what follows a
change of mode open and close none. -/

/-- The open sources are `o`. -/
def OpenAre (o : Store Nat) (t : State) : Prop := t.flt.opened = o

namespace OpenAre
variable {o : Store Nat} {t u : State}

/-- A step that leaves FLT's sources alone. -/
theorem upd (h : OpenAre o t) (hf : u.flt.opened = t.flt.opened := by rfl) : OpenAre o u := Eq.trans hf h

theorem setF (h : OpenAre o t) {p : Nat} {f : Fld} {v : Nat} : OpenAre o (setF t p f v) := h

theorem setFlag (h : OpenAre o t) {p : Nat} {f : Fld} {b : Bool} : OpenAre o (setFlag t p f b) := h

theorem ite {c : Prop} {_ : Decidable c} (h : OpenAre o t) (h' : OpenAre o u) : OpenAre o (if c then t else u) := by
  split
  · exact h
  · exact h'

/-- A step that is taken or left out. -/
theorem when {c : Prop} {_ : Decidable c} (h : OpenAre o t) (hu : OpenAre o t → OpenAre o u) : OpenAre o (if c then u else t) :=
  .ite (hu h) h

/-- What each step of a fold keeps, the fold keeps. -/
theorem foldl {α : Type} {f : State → α → State} {l : List α} (h : OpenAre o t)
    (hf : ∀ u, OpenAre o u → ∀ a ∈ l, OpenAre o (f u a)) : OpenAre o (l.foldl f t) :=
  List.foldlRecOn l f h hf

end OpenAre

section
variable {o : Store Nat} {t : State} (h : OpenAre o t)
include h

theorem hscSet_openAre (n : Nat) (c : HscSt) : OpenAre o (hscSet t n c) := h

theorem hbSet_openAre (n : Nat) (c : HbSt) : OpenAre o (hbSet t n c) := h

theorem solSet_openAre (n : Nat) (c : SolSt) : OpenAre o (solSet t n c) := h

theorem raiseLine_openAre (k : Nat) : OpenAre o (raiseLine t k) := h.upd (congrArg FltSt.opened (raiseLine_keepsLevels t k).flt)

/-! High-side channels and half-bridges -/

theorem hscStart_openAre (n : Nat) (d : Demand) : OpenAre o (hscStart t n d) := by cases d <;> exact h.upd

theorem hscUpdate_openAre (n : Nat) : OpenAre o (hscUpdate t n) := by
  have hs : OpenAre o (hscSafeLatch t n) := .when h (·.upd)
  have hcheck {u : State} (hu : OpenAre o u) : OpenAre o (hscStat (hscCheckEnd u n) n) :=
    (OpenAre.when hu (hscSet_openAre · n _)).setF.setFlag.setFlag.setF
  unfold hscUpdate
  refine hcheck (.ite (.when hs (·.upd)) (.ite (hscStart_openAre hs n _) ?_))
  split
  · exact .ite hs.upd (.when hs (·.upd))
  · exact .ite hs (hscStart_openAre hs n _).upd
  · exact hs

theorem hscApplied_openAre (old : State) (n : Nat) : OpenAre o (hscApplied old t n) :=
  hscUpdate_openAre (.when (.when (.when (.when h (·.upd)) (·.upd)) (·.upd)) (·.upd)) n

theorem hbStop_openAre (n : Nat) : OpenAre o (hbStop t n) := h.upd

theorem hbBrake_openAre (n act : Nat) : OpenAre o (hbBrake t n act) := h.upd

theorem hbTake_openAre (n act : Nat) : OpenAre o (hbTake t n act) := by
  unfold hbTake
  exact .ite h.upd (.ite (hbSet_openAre (.ite h h.upd) n _).setFlag h.upd)

theorem hbUpdate_openAre (n : Nat) : OpenAre o (hbUpdate t n) := by
  have hlatch : OpenAre o (hbSafeLatch t n) := .when h (·.upd)
  have hstat {u : State} (hu : OpenAre o u) : OpenAre o (hbStat u n) := hu.upd
  unfold hbUpdate
  refine hstat (.ite (.ite (hbStop_openAre ?h2 n) ?h2)
    (.ite (.ite ?h2 (hbBrake_openAre (hbSet_openAre ?h2 n _) n 3)) (.ite ?h2 (hbTake_openAre ?h2 n _))))
  exact .when hlatch (hbSet_openAre · n _)

theorem hbRepair_openAre (m : Nat) (single : Bool) : OpenAre o (hbRepair t m single) := by
  unfold hbRepair
  have hraised (q b : Nat) : OpenAre o (raiseP t q b) := h
  exact .ite (hbSet_openAre (.when h fun _ => hraised _ _) _ _)
    (hbSet_openAre (hbSet_openAre (.when h fun _ => hraised _ _) _ _) _ _)

theorem hbApplied_openAre (old : State) (n : Nat) : OpenAre o (hbApplied old t n) := by
  unfold hbApplied
  refine .ite (hbUpdate_openAre (hbUpdate_openAre (.ite (hbRepair_openAre ?h2 _ _) (hbSet_openAre ?h2 _ _)) _) _) (hbUpdate_openAre ?h1 n)
  case h1 => exact .when h (hbSet_openAre · n _)
  case h2 => exact hbStop_openAre (hbStop_openAre (.when h (hbSet_openAre · n _)) _) _

/-! Valves and their banks -/

theorem solStat_openAre (n : Nat) : OpenAre o (solStat t n) := h.upd

theorem solResult_openAre (n r : Nat) : OpenAre o (solResult t n r) := .when h (·.upd)

theorem bankUpdate_openAre (b : Nat) : OpenAre o (bankUpdate t b) := by
  unfold bankUpdate
  refine .foldl h.upd fun u hu n _ => .ite hu.upd ?_
  split
  · exact hu.upd
  · exact solStat_openAre (solResult_openAre (solSet_openAre hu.setFlag n _) n 3) n
  · exact hu.upd

theorem solBoost_openAre (n : Nat) : OpenAre o (solBoost t n) :=
  bankUpdate_openAre (.when (solSet_openAre h n _).setFlag.setFlag fun h => .foldl h fun _ hu m _ => solStat_openAre hu.setFlag m) _

theorem bankUnqueue_openAre (n : Nat) : OpenAre o (bankUnqueue t n) := h.upd

theorem solLeaveBoost_openAre (n dur ipk : Nat) : OpenAre o (solLeaveBoost t n dur ipk) := by
  unfold solLeaveBoost
  extract_lets q b t1 t2
  have hr : OpenAre o t2 := raiseLine_openAre h.upd _
  split
  · exact .ite (solStat_openAre (solBoost_openAre (bankUnqueue_openAre hr _) _) _) (bankUpdate_openAre hr _)
  · exact bankUpdate_openAre hr _

theorem solEnd_openAre (n : Nat) : OpenAre o (solEnd t n) := by
  unfold solEnd solDecay
  extract_lets u c
  have hunqueued : OpenAre o u := .when h fun h => bankUpdate_openAre (bankUnqueue_openAre h n) _
  split
  · exact solLeaveBoost_openAre hunqueued.upd n _ _
  · exact bankUpdate_openAre hunqueued.upd _
  · exact hunqueued

theorem solRequest_openAre (n : Nat) : OpenAre o (solRequest t n) :=
  .ite h (.ite (bankUpdate_openAre h.upd _) (solBoost_openAre h n))

theorem solNew_openAre (n : Nat) (trig : Bool) : OpenAre o (solNew t n trig) := by
  unfold solNew
  refine .ite h (.ite ?hset (solRequest_openAre ?hset n))
  exact (OpenAre.when h (solResult_openAre · n 5)).upd

theorem solUpdate_openAre (n : Nat) : OpenAre o (solUpdate t n) := by
  have hset := solSet_openAre h n
  unfold solUpdate
  exact solStat_openAre (.ite (solNew_openAre (hset _) n false) (.ite (hset _) (.when (hset _) (solEnd_openAre · n)))) n

theorem solApplied_openAre (n : Nat) : OpenAre o (solApplied t n) := by
  have hs : OpenAre o (solSlept t n) := .ite h h.upd
  unfold solApplied
  exact solUpdate_openAre (.ite hs hs.upd) n

theorem sbkStat_openAre : OpenAre o (sbkStat t) := h.upd

theorem sbkApplied_openAre : OpenAre o (sbkApplied t) :=
  sbkStat_openAre (.foldl h fun _ hu b _ => .ite hu (bankUpdate_openAre hu.upd b))

/-! Timebase, ring and buses -/

theorem tbsRoleChanged_openAre : OpenAre o (tbsRoleChanged t) := by
  unfold tbsRoleChanged
  extract_lets _ t1
  have h1 : OpenAre o t1 := .ite h h.upd
  exact .ite h1 h1.upd

theorem jxrStat_openAre : OpenAre o (jxrStat t) := by
  unfold jxrStat
  extract_lets _ _ _ _ status relayed wrapped raised
  have hwrapped : OpenAre o wrapped := h.upd
  have hraised : OpenAre o raised := .when hwrapped (·.upd)
  exact .when hraised (·.upd)

theorem jxrRoleChanged_openAre : OpenAre o (jxrRoleChanged t) := by
  unfold jxrRoleChanged
  extract_lets _ _ closed addressed shown _ _
  have hclosed : OpenAre o closed := .ite h h.upd
  have haddressed : OpenAre o addressed := .ite hclosed.upd (.when hclosed (·.upd))
  have hshown : OpenAre o shown := tbsRoleChanged_openAre (jxrStat_openAre haddressed)
  exact .ite (.when hshown.upd (·.upd)) hshown

theorem linSleep_openAre (n : Nat) : OpenAre o (linSleep t n) := .ite h h.upd

theorem linGate_openAre (n : Nat) : OpenAre o (linGate t n) := .ite (.when h (·.upd)) (.ite (.when h (·.upd)) h.upd)

theorem canSelect_openAre (n : Nat) : OpenAre o (canSelect t n) := by
  unfold canSelect
  refine .ite h ?_
  split
  · exact h
  · exact .ite h.upd h.upd

theorem canSetState_openAre (n st : Nat) : OpenAre o (canSetState t n st) := by
  have hr : OpenAre o (raiseLine (setF t (canPage n) R.CAN.STAT.STATE st) (56 + n)) := raiseLine_openAre h.upd _
  exact .ite h (.ite hr.upd (.when hr (·.upd)))

theorem relDrop_openAre : OpenAre o (relDrop t) := .foldl h.upd fun _ hu _ _ => hu.upd

theorem canGate_openAre (n : Nat) : OpenAre o (canGate t n) := by
  have hdropped : OpenAre o (if canRel t n then relDrop t else t) := .when h (relDrop_openAre ·)
  unfold canGate
  exact .ite (.when h fun h => canSelect_openAre (canSetState_openAre h.upd n 1) n)
    (.ite hdropped (canSetState_openAre hdropped n 0))

theorem nmgDrop_openAre : OpenAre o (nmgDrop t) := by
  unfold nmgDrop
  exact .ite (canSelect_openAre h.upd _) h.upd

theorem nmgSetState_openAre (st : Nat) : OpenAre o (nmgSetState t st) := by
  unfold nmgSetState
  refine .ite h (.when (.when (raiseLine_openAre h.upd _) (·.upd)) (.foldl · fun u hu n _ => ?_))
  exact .when hu (linSleep_openAre · n)

theorem nmgGate_openAre : OpenAre o (nmgGate t) := .ite h (nmgSetState_openAre (nmgDrop_openAre h).upd 0)

theorem canApplied_openAre (n : Nat) : OpenAre o (canApplied t n) := .ite (canSetState_openAre h n 4) (canSelect_openAre h n)

/-! Switch inputs, memory devices and the bridge -/

theorem swiFollow_openAre (n : Nat) : OpenAre o (swiFollow t n) := .ite h.upd (.when (raiseLine_openAre h.upd 16) (·.upd))

theorem swiApplied_openAre (old : State) : OpenAre o (swiApplied old t) :=
  .foldl h fun _ hu n _ => .when hu fun hu => .ite hu.upd (.ite (swiFollow_openAre hu n) hu.upd)

theorem msqApplied_openAre (old : State) : OpenAre o (msqApplied old t) := .foldl h fun _ hu _ _ => .when hu (·.upd)

theorem xspShow_openAre : OpenAre o (xspShow t) := (OpenAre.foldl (.when h (·.setF)) fun _ hu _ _ => hu.setF).setF

theorem jrnApplied_openAre : OpenAre o (jrnApplied t) := by
  unfold jrnApplied
  extract_lets a n t1 t2
  have h1 : OpenAre o t1 := .when h (·.upd)
  have h2 : OpenAre o t2 := by
    simp only [t2]
    split
    · exact h1.upd
    · exact h1
  exact .ite h h2.upd

theorem brgEnqueue_openAre (r : BrgReq) : OpenAre o (brgEnqueue t r) := by
  unfold brgEnqueue
  split
  · exact .ite h.upd h.upd
  · exact h.upd

theorem brgLimp_openAre : OpenAre o (brgLimp t) :=
  .ite h (.foldl h fun _ hu _ _ => .when hu fun hu => .ite hu.upd (brgEnqueue_openAre hu _))

/-! Commits and the change of mode -/

theorem blockApplied_openAre (old : State) (p : Nat) : OpenAre o (blockApplied old t p) := by
  unfold blockApplied
  split
  · next b p0 hb =>
    cases b <;> dsimp only
    case PROT => exact .foldl h fun _ hu _ _ => hu.upd
    case JXR => exact jxrRoleChanged_openAre h.upd
    case NMG => exact nmgGate_openAre h
    case CAN => exact canApplied_openAre h _
    case LIN => exact .when h (·.upd)
    case TBS => exact tbsRoleChanged_openAre h
    case SWI => exact swiApplied_openAre h old
    case RFX => exact h.upd
    case HSC => exact hscApplied_openAre h old _
    case HB => exact hbApplied_openAre h old _
    case SOL => exact solApplied_openAre h _
    case SBK => exact sbkApplied_openAre h
    case MSQ => exact msqApplied_openAre h old
    case XSP => exact xspShow_openAre h
    case JRN => exact jrnApplied_openAre h
    case PMU => exact h.upd
    all_goals exact h
  · exact h

theorem applyPage_openAre (p kind : Nat) : OpenAre o (applyPage t p kind) := by
  have hended : OpenAre o (releaseLevel (commitEnd (appliedConfig t p kind) p 1) (p * 8 + 7)) := h.upd
  exact (blockApplied_openAre hended t p).upd

theorem commitMode_openAre : OpenAre o (commitMode t) := .foldl h fun _ hu p _ => .when hu (applyPage_openAre · p _)

/-- A mode that BOOT ends in opens and closes no source. -/
theorem setMode_openAre (hm : t.mode = .boot) (m : Mode) (cause : Nat) : OpenAre o (setMode t m cause) := by
  have hends : ((t.mode = .run || t.mode = .hold) && m ≠ .run && m ≠ .hold) = false := by simp [hm]
  unfold setMode
  extract_lets ends round closing shown opened horned held loaded committed cleared _ limped dark
  have hopened : OpenAre o opened := .when h fun h =>
    .foldl (.foldl (sbkStat_openAre (jxrRoleChanged_openAre h.upd)) fun _ hu n _ => canGate_openAre hu n) fun _ hu n _ => linGate_openAre hu n
  have hhorned : OpenAre o horned := .when hopened (·.upd)
  have hheld : OpenAre o held := .when hhorned (·.upd)
  have hloaded : OpenAre o loaded := .when hheld (·.setF)
  have hcleared : OpenAre o cleared := by
    simp only [cleared, ends, hends, Bool.false_eq_true, if_false]
    exact commitMode_openAre hloaded
  have hlimped : OpenAre o limped := .when hcleared fun h => brgLimp_openAre h.upd
  have hshown : OpenAre o (aliveShow dark) := OpenAre.setFlag (.when hlimped (·.setFlag))
  exact (raiseLine_openAre hshown 17).upd

end

end Sys2Proof.Machine
end

section
/-! The end of boot (04, R93). -/

-- One proof after another: side by side they start more threads than the memory limit of the check has room for.
set_option Elab.async false

namespace Sys2Proof.Machine

/-! ### The end of boot (R93) -/

/-- The new mode shows, and a Park entry ends unless the mode is RUN. -/
def modeTaken (s : State) (m : Mode) (cause : Nat) : State :=
  modeShow { s with park := if m = .run then s.park else .none } m cause

/-- What follows a change of mode leaves the words of DEV, PMU and RST above the header, but for the idle count (R65). -/
theorem setMode_keepsWord (s : State) (m : Mode) (cause : Nat) {k : Nat} (hk : modeKey k = true) (hidle : k ≠ rkey 1 0x108) :
    KeepsWord k (modeTaken s m cause) (setMode s m cause) := by
  have h := KeepsMode.refl (modeTaken s m cause)
  have after {t u : State} (ht : KeepsWord k (modeTaken s m cause) t) (hu : KeepsMode t u) : KeepsWord k (modeTaken s m cause) u :=
    ht.trans (hu.keepsWord hk)
  unfold setMode
  extract_lets ends round closing shown opened horned held loaded committed cleared _ limped dark
  have hopened : KeepsMode _ opened := .when h fun h =>
    .foldl (.foldl (sbkStat_keepsMode (jxrRoleChanged_keepsMode h)) fun _ hu n _ => canGate_keepsMode hu n)
      fun _ hu n _ => linGate_keepsMode hu n
  have hhorned : KeepsMode _ horned := .when hopened fun h => jxrHornOn_keepsMode (brgParkEnd_keepsMode h) 3
  have hheld : KeepsMode _ held := .when hhorned (·.upd)
  have hloaded : KeepsWord k _ loaded := .when (hheld.keepsWord hk) (·.setF hidle)
  have hcommitted : KeepsWord k _ committed := after hloaded (commitMode_keepsMode (.refl _))
  have hcleared : KeepsWord k _ cleared := .when hcommitted (after · (immClear_keepsMode (.refl _)))
  have hlimped : KeepsWord k _ limped := .when hcleared fun h => after h (brgLimp_keepsMode (KeepsMode.upd (.refl _)))
  have hdark : KeepsWord k _ dark := .when hlimped fun h => after h (KeepsMode.setFlag (.refl _))
  exact after hdark (modeFollowed_keepsMode (.refl _))

/-- The boot ends: the cores of a chosen slot are released, and PHASE shows it. -/
def bootShut (s : State) : State :=
  setF (setFlag (cellOut (if s.upd.chosen then releaseCores s else s)) 0x0A R.BRG.WSUM.VALID true) 0x03 R.RST.BOOT.PHASE 4

/-- The mode that the boot ends in (R93). -/
def bootMode (s : State) : Mode := if s.sbp.limp then .limp else if getF s 0x03 R.RST.HOLDWHY.WHY ≠ 0 then .hold else .run

/-- The cores and their queues are no part of the mode's frame. -/
theorem cellOut_keepsMode {s t : State} (h : KeepsMode s t) : KeepsMode s (cellOut t) := by
  unfold cellOut
  split
  · exact h
  · exact h.upd

theorem releaseCores_keepsMode {s t : State} (h : KeepsMode s t) : KeepsMode s (releaseCores t) := by
  have hcores (c : CoreSt) : KeepsMode s (coreSet (coreSet t .ec2 c) .app c) := h.upd
  exact (hcores _).setF.setF.setF.setF

theorem bootShut_begun_keepsMode (s : State) :
    KeepsMode s (setFlag (cellOut (if s.upd.chosen then releaseCores s else s)) 0x0A R.BRG.WSUM.VALID true) :=
  (cellOut_keepsMode (.when (.refl s) (releaseCores_keepsMode ·))).setFlag

theorem cellOut_sbp (s : State) : (cellOut s).sbp = s.sbp := by
  unfold cellOut
  split <;> rfl

theorem cellOut_openAre {o : Store Nat} {t : State} (h : OpenAre o t) : OpenAre o (cellOut t) := by
  unfold cellOut
  split
  · exact h
  · exact h.upd

theorem bootShut_sbp (s : State) : (bootShut s).sbp = s.sbp := by
  unfold bootShut
  rw [setF_sbp, setFlag_sbp, cellOut_sbp]
  split <;> rfl

theorem releaseCores_openAre {o : Store Nat} {t : State} (h : OpenAre o t) : OpenAre o (releaseCores t) := by
  have hcores (c : CoreSt) : OpenAre o (coreSet (coreSet t .ec2 c) .app c) := h
  exact (hcores _).setF.setF.setF.setF

theorem bootShut_openAre {o : Store Nat} {s : State} (h : OpenAre o s) : OpenAre o (bootShut s) := by
  have hreleased : OpenAre o (if s.upd.chosen then releaseCores s else s) := .when h (releaseCores_openAre ·)
  exact (cellOut_openAre hreleased).setFlag.setF

theorem bootShut_mode (s : State) : (bootShut s).mode = s.mode := by
  rw [bootShut, setF_mode]
  exact (bootShut_begun_keepsMode s).mode

/-- The end of a boot that no event of class C4 or above outlasts. -/
theorem bootEnd_eq {s : State} (hm : s.mode = .boot) (hp : getF s 0x03 R.RST.BOOT.PHASE = 3)
    (hopen : s.flt.opened.any (fun e => decide (4 ≤ e.2)) = false) : bootEnd s = setMode (bootShut s) (bootMode s) 8 := by
  have hkept : (setMode (bootShut s) (bootMode s) 8).flt.opened = s.flt.opened :=
    setMode_openAre (bootShut_openAre rfl) ((bootShut_mode s).trans hm) _ _
  have hmode : (if (bootShut s).sbp.limp then .limp else if getF s 0x03 R.RST.HOLDWHY.WHY ≠ 0 then .hold else .run) = bootMode s := by
    rw [bootShut_sbp, bootMode]
  unfold bootEnd
  rw [if_neg (by simp [hm, hp])]
  extract_lets why released shut m ended
  have hshut : shut = bootShut s := rfl
  have hended : ended = setMode (bootShut s) (bootMode s) 8 := by
    simp only [ended, m, why, hshut, hmode]
  rw [hended, hkept, hopen, if_neg Bool.false_ne_true]

section
variable {s : State} (hw : storeWf regReset s.regs = true)
include hw

theorem bootShut_wf : storeWf regReset (bootShut s).regs = true := setF_wf ((bootShut_begun_keepsMode s).canon hw)

theorem bootShut_phase : getF (bootShut s) 0x03 R.RST.BOOT.PHASE = 4 := by
  unfold bootShut
  rw [getF_setF_same ((bootShut_begun_keepsMode s).canon hw) (by decide) (by decide)]
  rfl

theorem modeTaken_wf (m : Mode) (cause : Nat) : storeWf regReset (modeTaken s m cause).regs = true :=
  modeShow_wf (s := { s with park := if m = .run then s.park else .none }) hw

theorem modeTaken_cause (m : Mode) (cause : Nat) : getF (modeTaken s m cause) 0x00 R.DEV.MODE.CAUSE = cause % 256 :=
  modeShow_cause (s := { s with park := if m = .run then s.park else .none }) hw

theorem modeTaken_getF (m : Mode) (cause : Nat) {p : Nat} {f : Fld} (hk : rkey p f.off ≠ rkey 0 0x110) :
    getF (modeTaken s m cause) p f = getF s p f :=
  modeShow_getF (s := { s with park := if m = .run then s.park else .none }) hw hk

/-- A change of mode shows it with its cause, and leaves BOOT as it is. -/
theorem setMode_shows (m : Mode) (cause : Nat) : (setMode s m cause).mode = m ∧
    getF (setMode s m cause) 0x00 R.DEV.MODE.CAUSE = cause % 256 ∧
      getF (setMode s m cause) 0x03 R.RST.BOOT.PHASE = getF s 0x03 R.RST.BOOT.PHASE := by
  have htaken := modeTaken_wf hw m cause
  have hcause := setMode_keepsWord s m cause (k := rkey 0 R.DEV.MODE.CAUSE.off) (by decide) (by decide)
  have hboot := setMode_keepsWord s m cause (k := rkey 3 R.RST.BOOT.PHASE.off) (by decide) (by decide)
  refine ⟨hcause.mode.trans (modeShow_mode _ m cause), ?_, ?_⟩
  · rw [hcause.getF htaken, modeTaken_cause hw]
  · rw [hboot.getF htaken, modeTaken_getF hw _ _ (by decide)]

end

/-- The end of boot gives the mode, its cause and the phase (R62, R93). -/
theorem answers_endOfBoot {s : State} (hw : storeWf regReset s.regs = true) (hm : s.mode = .boot)
    (hp : getF s 0x03 R.RST.BOOT.PHASE = 3) (hopen : s.flt.opened.any (fun e => decide (4 ≤ e.2)) = false) :
    Answers .endOfBoot s fun u => u.mode = bootMode s ∧ getF u 0x00 R.DEV.MODE.CAUSE = 8 ∧ getF u 0x03 R.RST.BOOT.PHASE = 4 := by
  refine .of_done (done_powered (f := bootEnd) (running_of_boot hm)) ?_
  rw [bootEnd_eq hm hp hopen]
  obtain ⟨hmode, hcause, hphase⟩ := setMode_shows (bootShut_wf hw) (bootMode s) 8
  exact ⟨hmode, hcause, hphase.trans (bootShut_phase hw)⟩

end Sys2Proof.Machine
end

section
/-! What the ROM's steps leave of DEV, PMU and RST, and the configuration and manifest that it loads (04, R88 to R92). -/

-- One proof after another: side by side they start more threads than the memory limit of the check has room for.
set_option Elab.async false

namespace Sys2Proof.Machine

/-! ### What the ROM leaves of the mode's frame -/

section
variable {s t : State} (h : KeepsMode s t)
include h

theorem rollShow_keepsMode : KeepsMode s (rollShow t) := h.setF.setF

theorem updShow_keepsMode : KeepsMode s (updShow t) := rollShow_keepsMode h.setF.setF.setFlag.setF

theorem updVersions_keepsMode : KeepsMode s (updVersions t) := h.setF.setF

theorem otpSet_keepsMode (w m : Nat) : KeepsMode s (otpSet t w m) := h.upd

theorem rollSet_keepsMode (c v : Nat) : KeepsMode s (rollSet t c v) :=
  rollShow_keepsMode (.foldl h fun _ hu _ _ => .when hu (otpSet_keepsMode · _ _))

theorem updRolls_keepsMode (x : Nat) : KeepsMode s (updRolls t x) :=
  .when (.when h (rollSet_keepsMode · 0 _)) (rollSet_keepsMode · 1 _)

theorem updConfirm_keepsMode : KeepsMode s (updConfirm t) := by
  have hrolls : KeepsMode s (updRolls t t.upd.trial) := updRolls_keepsMode h _
  exact updVersions_keepsMode (updShow_keepsMode hrolls.upd)

theorem confirmFound_keepsMode : KeepsMode s (confirmFound t) := .when h updConfirm_keepsMode

theorem kramSet_keepsMode (k : Nat) (e : Option (Nat × Nat)) : KeepsMode s (kramSet t k e) := h.upd

theorem freshNat_keepsMode (bound : Nat) : KeepsMode s (freshNat t bound).1 := h.upd

theorem keyLoad_keepsMode : KeepsMode s (keyLoad t) := by
  unfold keyLoad
  refine .foldl h fun u hu k _ => ?_
  split
  · exact kramSet_keepsMode (freshNat_keepsMode hu _) k _
  · exact kramSet_keepsMode hu k none
  · exact hu

theorem vltUnwrap_keepsMode (n : Nat) : KeepsMode s (vltUnwrap t n) := by
  have hparents (v : VltSt) : KeepsMode s { t with vlt := v } := h.upd
  exact keyLoad_keepsMode (vltStat_keepsMode (hparents _))

theorem vltSeed_keepsMode : KeepsMode s (vltSeed t) := by
  have hdrbg (v : VltSt) : KeepsMode s { t with vlt := v } := h.upd
  exact (hdrbg _).setFlag

theorem sprEntry_keepsMode (kind what : Nat) : KeepsMode s (sprEntry t kind what) :=
  (KeepsMode.foldl h fun _ hu _ _ => hu.wr).wr.setF

theorem sprOtp_keepsMode (w : Nat) : KeepsMode s (sprOtp t w) := by
  unfold sprOtp
  extract_lets r _ _ lost
  have hdrawn : KeepsMode s r.1 := freshNat_keepsMode h _
  have hlost : KeepsMode s lost := raiseP_keepsMode hdrawn.upd _ _
  exact .ite h (.ite (raiseP_keepsMode hlost.setF _ _) (raiseP_keepsMode (sprEntry_keepsMode (sprShow_keepsMode hlost.upd) 7 w) _ _))

/-- The AON check writes a word of CLK. -/
theorem aonCheck_keepsMode (cnt : Option Word) : KeepsMode s (aonCheck t cnt) := by
  have hcnt {u : State} (hu : KeepsMode s u) (v : Nat) : KeepsMode s (setF u 0x02 R.CLK.AONCNT.CNT v) := hu.wr_of (modeKey_clk (by decide))
  unfold aonCheck
  cases cnt with
  | none => exact .when (hcnt (freshNat_keepsMode h _) _) (·.upd)
  | some c => exact .when (hcnt h _) (·.upd)

/-- The manifest goes into PROT (R91). -/
theorem protLoad_keepsMode (word : Nat → Nat) (fallback : Bool) : KeepsMode s (protLoad t word fallback) := by
  have hwords : KeepsMode s ((List.range 256).foldl (fun s p => wr s 0x05 (0x800 + 4 * p) (BitVec.ofNat 32 (word p))) t) :=
    .foldl h fun _ hu _ _ => hu.wr
  exact (applyPage_keepsMode hwords.wr 0x05 3).setFlag.setFlag.setFlag

theorem sbpLatches_keepsMode : KeepsMode s (sbpLatches t) := .when h (·.setFlag.setFlag)

end

/-! ### What follows ENABLE -/

/-- A page that is enabled is not off. -/
theorem blockOff_enabled {s : State} {p : Nat} (h : enabled s p = true) : blockOff s p = false := by simp [blockOff, h]

theorem enabled_setFlag {s : State} (h : storeWf regReset s.regs = true) (p : Nat) : enabled (setFlag s p H.ENABLE true) p = true := by
  rw [enabled, isSet_setFlag_same h rfl (by decide), Bool.or_true]

/-- A page of a consumer of frames is the page of its own number. -/
theorem consPage_blkOf {p p0 : Nat} {b : Blk} (hb : blkOf p = some (b, p0)) (h : b = .LST ∨ b = .LMX ∨ b = .LCH) :
    consPage (p - 0x88) = p := by
  have hp : 0x88 ≤ p := by
    by_contra hlt
    have hsmall : ∀ q < 0x88, ∀ e ∈ blkOf q, e.1 ≠ .LST ∧ e.1 ≠ .LMX ∧ e.1 ≠ .LCH := by decide
    obtain ⟨hlst, hlmx, hlch⟩ := hsmall p (by omega) _ hb
    rcases h with h | h | h
    · exact hlst h
    · exact hlmx h
    · exact hlch h
  unfold consPage
  omega

section
variable {s t : State} (h : KeepsMode s t)
include h

theorem lchFollow_keepsMode (c : Nat) : KeepsMode s (lchFollow t c) := .ite h h.upd

theorem consFront_keepsMode (k : Nat) : KeepsMode s (consFront t k) := by
  have hfront : KeepsMode s (setFlag t (consPage k) (consFrontFld k) t.frmc.target) := h.setFlag (by unfold consPage; omega)
  exact .ite hfront (lchFollow_keepsMode hfront _)

theorem consEnable_keepsMode {k : Nat} (he : enabled t (consPage k) = true) : KeepsMode s (consEnable t k) := by
  unfold consEnable
  rw [if_pos he]
  exact .ite h (consFront_keepsMode h k)

theorem swiRestart_keepsMode (n : Nat) : KeepsMode s (swiRestart t n) := .ite h.upd (.ite (swiFollow_keepsMode h n) h.upd)

/-- What a block does as its page is enabled. -/
theorem blockGate_keepsMode {p : Nat} (he : enabled t p = true) : KeepsMode s (blockGate t p) := by
  have hcons {b : Blk} {p0 : Nat} (hb : blkOf p = some (b, p0)) (hk : b = .LST ∨ b = .LMX ∨ b = .LCH) :
      KeepsMode s (consEnable t (p - 0x88)) := consEnable_keepsMode h (by rw [consPage_blkOf hb hk, he])
  unfold blockGate
  rw [blockOff_enabled he]
  split
  · next b p0 hb =>
    cases b <;> simp only [Bool.false_and, Bool.false_eq_true, if_false]
    case CAN => exact nmgGate_keepsMode (canGate_keepsMode h _)
    case LIN => exact linGate_keepsMode h _
    case NMG => exact nmgGate_keepsMode h
    case JXR => exact nmgGate_keepsMode (jxrRoleChanged_keepsMode h)
    case TBS => exact tbsRoleChanged_keepsMode h
    case LST => exact hcons hb (.inl rfl)
    case LMX => exact hcons hb (.inr (.inl rfl))
    case LCH => exact hcons hb (.inr (.inr rfl))
    case SWI => exact .foldl h fun _ hu n _ => swiRestart_keepsMode hu n
    all_goals exact h
  · exact h

/-- A page is enabled. -/
theorem setEnable_keepsMode (ht : storeWf regReset t.regs = true) (p : Nat) : KeepsMode s (setEnable t p true) := by
  have hset : KeepsMode s (setFlag t p H.ENABLE true) := h.setF_head (f := H.ENABLE)
  unfold setEnable
  exact .ite h (touch_keepsMode (blockGate_keepsMode hset (enabled_setFlag ht p)))

theorem werr_keepsMode (p off : Nat) : KeepsMode s (werr t p off) := (h.setF_head (f := H.FOFF)).setF_head (f := H.WERR)

theorem commitEnd_keepsMode (p res : Nat) : KeepsMode s (commitEnd t p res) := by
  have hresult : KeepsMode s (setF (setF t p H.CRES res) p H.CST 0) := h.setF_head.setF_head
  exact hresult.upd.setF_head (f := H.CMTDONE)

/-- The flags of a record (R82, R90). -/
theorem loadFlags_keepsMode (ht : storeWf regReset t.regs = true) (p flags : Nat) : KeepsMode s (loadFlags t p flags) := by
  have henable : KeepsMode s (if enableRefused t p then werr t p 0x00C else setEnable t p true) :=
    .ite (werr_keepsMode h p _) (setEnable_keepsMode h ht p)
  exact .when (.when h fun _ => henable) (·.setF_head (f := H.LOCKED))

end

/-! ### Configuration and manifest (R88 to R92)

The ROM writes WHY, PAGE and SETEP of RST, the pages of the records and PROT; STRAP, and BOOT after PHASE, stay. -/

/-- The words BOOT and STRAP of RST. -/
def bootKey (k : Nat) : Bool := decide (k = rkey 3 0x108) || decide (k = rkey 3 0x11C)

theorem modeKey_bootKey {k : Nat} (hk : bootKey k = true) : modeKey k = true := by
  rcases (Bool.or_eq_true _ _).mp hk with hk | hk <;> rw [of_decide_eq_true hk] <;> decide

theorem ne_rkey_of_bootKey {k : Nat} (hk : bootKey k = true) {p off : Nat} (hoff : off < 4096) (h8 : off / 4 ≠ 0x42) (hC : off / 4 ≠ 0x47) :
    k ≠ rkey p off := by
  rcases (Bool.or_eq_true _ _).mp hk with hk | hk <;> rw [of_decide_eq_true hk]
  · exact rkey_ne hoff (by decide) (.inr (Ne.symm h8))
  · exact rkey_ne hoff (by decide) (.inr (Ne.symm hC))

section
variable {k : Nat} (hk : bootKey k = true) {s t : State} (h : KeepsWord k s t)
include hk h

theorem KeepsWord.mode_step {u : State} (hu : KeepsMode t u) : KeepsWord k s u := h.trans (hu.keepsWord (modeKey_bootKey hk))

theorem KeepsWord.boot_wr {p off : Nat} {w : Word} (hoff : off < 4096 := by decide) (h8 : off / 4 ≠ 0x42 := by decide)
    (hC : off / 4 ≠ 0x47 := by decide) : KeepsWord k s (Machine.wr t p off w) := h.wr (ne_rkey_of_bootKey hk hoff h8 hC)

theorem KeepsWord.boot_setF {p : Nat} {f : Fld} {v : Nat} (hoff : f.off < 4096 := by decide) (h8 : f.off / 4 ≠ 0x42 := by decide)
    (hC : f.off / 4 ≠ 0x47 := by decide) : KeepsWord k s (Machine.setF t p f v) := h.setF (ne_rkey_of_bootKey hk hoff h8 hC)

theorem holdWhy_keepsWord (why : Nat) : KeepsWord k s (holdWhy t why) := .when h fun h => h.boot_setF hk (f := R.RST.HOLDWHY.WHY)

theorem shadowWrite_keepsWord (p : Nat) {off : Nat} (ho : 0x800 ≤ off ∧ off < 0x1000) (v : Word) : KeepsWord k s (shadowWrite t p off v) := by
  have hwerr : KeepsWord k s (werr t p off) := h.mode_step hk (werr_keepsMode (.refl t) p off)
  have hwr : KeepsWord k s (wr t p off v) := h.boot_wr hk (by omega) (by omega) (by omega)
  exact .ite hwerr (.ite h (.ite hwerr hwr))

theorem shadowWrites_keepsWord (p : Nat) (ws : List Word) :
    KeepsWord k s ((List.range 512).foldl (fun s i => shadowWrite s p (0x800 + 4 * i) (ws.getD i 0)) t) := by
  refine .foldl h fun u hu i hi => shadowWrite_keepsWord hk hu p ?_ _
  have hi := List.mem_range.mp hi
  omega

/-- A record commits, or fails its check (R90). -/
theorem romRecord_keepsWord (hs : storeWf regReset s.regs = true) (g n : Nat) : KeepsWord k s (romRecord t g n) := by
  unfold romRecord
  extract_lets p ws shadowed put r barred applied failed
  have hshadowed : KeepsWord k s shadowed := shadowWrites_keepsWord hk h p ws
  have hput : KeepsWord k s put := hshadowed.boot_wr hk
  have happlied : KeepsMode put (applyPage put p 3) := applyPage_keepsMode (.refl put) p 3
  have hloaded : KeepsMode put (loadFlags (applyPage put p 3) p (recFlags put g n)) :=
    loadFlags_keepsMode happlied (happlied.canon (hput.canon hs)) p _
  have hrefused : KeepsMode put applied :=
    .ite (werr_keepsMode (.refl put) p 0x00C) ((commitEnd_keepsMode (.refl put) p r.1).setF_head (f := H.FOFF))
  have hpaged : KeepsWord k s failed := .when (hput.mode_step hk hrefused) (·.boot_setF hk (f := R.RST.HOLDWHY.PAGE))
  exact .ite (hput.mode_step hk hloaded) (holdWhy_keepsWord hk hpaged 5)

theorem fallbackManifest_keepsWord : KeepsWord k s (fallbackManifest t) := h.mode_step hk (protLoad_keepsMode (.refl t) _ _)

theorem loadManifest_keepsWord (g : Nat) : KeepsWord k s (loadManifest t g) :=
  .ite (h.mode_step hk (protLoad_keepsMode (.refl t) _ _)) (fallbackManifest_keepsWord hk (holdWhy_keepsWord hk h 2))

end

/-- After its phase shows, the configuration leaves BOOT and STRAP. -/
theorem romConfig_keepsWord {k : Nat} (hk : bootKey k = true) {s : State} (hs : storeWf regReset s.regs = true) (ver : Nat) :
    KeepsWord k (setF s 0x03 R.RST.BOOT.PHASE 3) (romConfig s ver) := by
  unfold romConfig
  extract_lets phased
  have hphased : KeepsWord k phased phased := .refl k phased
  split
  · exact fallbackManifest_keepsWord hk (holdWhy_keepsWord hk hphased 1)
  · next g hg =>
    extract_lets named versioned six seven recorded loaded
    have hgen : KeepsWord k _ (setF (setF phased 0x03 R.RST.SETEP.EP (genEp phased g)) 0x03 R.RST.SETEP.GEN g) :=
      (hphased.boot_setF hk (f := R.RST.SETEP.EP)).boot_setF hk (f := R.RST.SETEP.GEN)
    have hnamed : KeepsWord k _ named := hgen.mode_step hk (KeepsMode.setF (.refl _))
    have hversioned : KeepsWord k _ versioned := .when hnamed (holdWhy_keepsWord hk · 4)
    have hsix : KeepsWord k _ six := .when hversioned (holdWhy_keepsWord hk · 6)
    have hseven : KeepsWord k _ seven := .when hsix (holdWhy_keepsWord hk · 7)
    have hrecorded : KeepsWord k _ recorded := .foldl hseven fun _ hu n _ => romRecord_keepsWord hk hu (setF_wf hs) g (n + 1)
    exact .when (loadManifest_keepsWord hk hrecorded g) (·.boot_setF hk (f := R.RST.HOLDWHY.PAGE))

end Sys2Proof.Machine
end

section
/-! The ROM's sequence and its endings (04, R84, R87, R93, R95). -/

-- One proof after another: side by side they start more threads than the memory limit of the check has room for.
set_option Elab.async false

namespace Sys2Proof.Machine

/-! ### The endings of the ROM's sequence (R84, R87, R93, R95) -/

/-- The ROM has come to phase `ph`, with STRAP and the mode as they were. -/
structure RomEnds (ph : Nat) (s t : State) : Prop where
  strap : KeepsWord (rkey 3 0x11C) s t
  phase : getF t 0x03 R.RST.BOOT.PHASE = ph

theorem RomEnds.after {ph : Nat} {s t u : State} (h : RomEnds ph t u) (ht : KeepsWord (rkey 3 0x11C) s t) : RomEnds ph s u :=
  ⟨ht.trans h.strap, h.phase⟩

/-- Nothing after the write of the phase writes BOOT or STRAP. -/
theorem romEnds_of_phase {s u : State} {ph : Nat} (hs : storeWf regReset s.regs = true) (hp : ph < 16)
    (h : ∀ k, bootKey k = true → KeepsWord k (setF s 0x03 R.RST.BOOT.PHASE ph) u) : RomEnds ph s u := by
  have hshown : getF (setF s 0x03 R.RST.BOOT.PHASE ph) 0x03 R.RST.BOOT.PHASE = ph % 16 := getF_setF_same hs (by decide) (by decide)
  have hstrap : KeepsWord (rkey 3 0x11C) s (setF s 0x03 R.RST.BOOT.PHASE ph) := (KeepsWord.refl _ s).setF (by decide)
  refine ⟨hstrap.trans (h _ (by decide)), ?_⟩
  rw [(h (rkey 3 0x108) (by decide)).getF (f := R.RST.BOOT.PHASE) (setF_wf hs), hshown, Nat.mod_eq_of_lt hp]

theorem romConfig_ends {s : State} (hs : storeWf regReset s.regs = true) (ver : Nat) : RomEnds 3 s (romConfig s ver) :=
  romEnds_of_phase hs (by decide) fun _ hk => romConfig_keepsWord hk hs ver

/-- The tamper hold without a slot, its reason shown. -/
def tamperShown (s : State) : State := setF { s with upd := { s.upd with chosen := false } } 0x03 R.RST.HOLDWHY.WHY 3

/-- The tamper hold with the remaining time of a trial. -/
def tamperFound (s : State) : State :=
  if (tamperShown s).upd.state = 1 then setF (tamperShown s) 0x07 R.UPD.TRUN.SEC (tamperShown s).upd.trun else tamperShown s

theorem tamperFound_keepsMode (s : State) : KeepsMode (tamperShown s) (tamperFound s) := .when (.refl _) (·.setF)

theorem tamperHold_keepsMode (s : State) : KeepsMode (setF (tamperFound s) 0x03 R.RST.BOOT.PHASE 3) (tamperHold s) :=
  protLoad_keepsMode (updShow_keepsMode (.refl _)) _ _

/-- The RECOV latch clears as recovery is entered (R400). -/
def recoveryLatched (s : State) : State := { s with sbp := { s.sbp with recov := false } }

theorem enterRecovery_keepsMode (s : State) : KeepsMode (setF (recoveryLatched s) 0x03 R.RST.BOOT.PHASE 5) (enterRecovery s) :=
  updShow_keepsMode (protLoad_keepsMode (sbpLatches_keepsMode (.refl _)) _ _)

/-- After a revert only the confirmed slot boots; the choice may set SLOTFB and no other field of RST (R87, R486). -/
theorem revertSlot_keepsWord {s t : State} (h : KeepsWord (rkey 3 0x11C) s t) : KeepsWord (rkey 3 0x11C) s (revertSlot t).1 := by
  have hnamed : KeepsWord (rkey 3 0x11C) s (if t.upd.prevv then dirWrite t t.upd.prevgen else t) := by
    unfold dirWrite
    exact .when h (·.upd)
  have hcold {w : State} (hw : KeepsWord (rkey 3 0x11C) s w) (u : UpdSt) : KeepsWord (rkey 3 0x11C) s { w with upd := u } := hw.upd
  have hflagged (u : UpdSt) := (hcold hnamed u).setFlag (p := 0x07) (f := R.UPD.STAT.REVERTED) (b := true) (by decide)
  exact (hflagged _).mode_step (by decide) (updShow_keepsMode (raiseP_keepsMode (.refl _) 0x07 1))

theorem chooseSlot_keepsWord (s : State) : KeepsWord (rkey 3 0x11C) s (chooseSlot s).1 := by
  have h := KeepsWord.refl (rkey 3 0x11C) s
  have hflagged : KeepsWord (rkey 3 0x11C) s (setFlag s 0x03 R.RST.BOOT.SLOTFB true) := h.setFlag (by decide)
  have hcounted (u : UpdSt) : KeepsWord (rkey 3 0x11C) s (updShow { s with upd := u }) :=
    (h.upd (u := { s with upd := u })).mode_step (by decide) (updShow_keepsMode (.refl _))
  have hconfirmed : KeepsWord (rkey 3 0x11C) s (confirmedSlot s).1 := by
    unfold confirmedSlot
    dsimp only
    split
    · exact h
    · split
      · exact hflagged
      · exact h
  unfold chooseSlot
  split
  · exact hconfirmed
  · split
    · exact revertSlot_keepsWord (.ite h hflagged)
    · exact hcounted _

section
variable {s : State} (hs : storeWf regReset s.regs = true)
include hs

theorem tamperShown_wf : storeWf regReset (tamperShown s).regs = true := setF_wf (s := { s with upd := { s.upd with chosen := false } }) hs

theorem tamperFound_wf : storeWf regReset (tamperFound s).regs = true := (tamperFound_keepsMode s).canon (tamperShown_wf hs)

/-- The tamper hold ends in phase CONFIG. -/
theorem tamperHold_ends : RomEnds 3 s (tamperHold s) := by
  have hshown : KeepsWord (rkey 3 0x11C) s (tamperShown s) := (KeepsWord.upd (.refl _ s)).setF (by decide)
  have hfound : RomEnds 3 (tamperFound s) (tamperHold s) := romEnds_of_phase (tamperFound_wf hs) (by decide)
    fun _ hk => (tamperHold_keepsMode s).keepsWord (modeKey_bootKey hk)
  exact hfound.after (hshown.mode_step (by decide) (tamperFound_keepsMode s))

/-- The tamper hold shows its reason. -/
theorem tamperHold_why : getF (tamperHold s) 0x03 R.RST.HOLDWHY.WHY = 3 := by
  have hfound := tamperFound_wf hs
  rw [(tamperHold_keepsMode s).getF (f := R.RST.HOLDWHY.WHY) (setF_wf hfound), getF_setF_key hfound (by decide),
    (tamperFound_keepsMode s).getF (tamperShown_wf hs), tamperShown, getF_setF_same (by exact hs) (by decide) (by decide)]
  rfl

/-- Recovery ends in its phase. -/
theorem enterRecovery_ends : RomEnds 5 s (enterRecovery s) := by
  have hlatched : KeepsWord (rkey 3 0x11C) s (recoveryLatched s) := KeepsWord.upd (.refl _ s)
  have hentered : RomEnds 5 (recoveryLatched s) (enterRecovery s) := romEnds_of_phase hs (by decide)
    fun _ hk => (enterRecovery_keepsMode s).keepsWord (modeKey_bootKey hk)
  exact hentered.after hlatched

theorem recoveryKeys_ends : RomEnds 5 s (recoveryKeys s) := by
  have hkeyed : KeepsMode s (if tamperState s then s else updVersions (confirmFound (vltUnwrap s 1))) :=
    .ite (.refl s) (updVersions_keepsMode (confirmFound_keepsMode (vltUnwrap_keepsMode (.refl s) 1)))
  exact (enterRecovery_ends (hkeyed.canon hs)).after (hkeyed.keepsWord (by decide))

/-- With no image pending the ROM chooses a slot and loads its configuration, or enters recovery. -/
theorem romBootKeyed_ends (hp : slipPending s = false) : RomEnds 3 s (romBootKeyed s) ∨ RomEnds 5 s (romBootKeyed s) := by
  have hinstall : (if ctnType s 0 = 2 then s else install s) = s := by simp [install, hp]
  have hshown : KeepsWord (rkey 3 0x11C) s (updVersions (updShow s)) :=
    (updVersions_keepsMode (updShow_keepsMode (.refl s))).keepsWord (by decide)
  have hchosen := hshown.trans (chooseSlot_keepsWord (updVersions (updShow s)))
  unfold romBootKeyed
  rw [hinstall]
  extract_lets _ c
  split
  · exact .inr ((enterRecovery_ends (hchosen.canon hs)).after hchosen)
  · next x hx =>
    extract_lets slotted bounded timed
    have hnoted (v : UpdSt) : KeepsWord (rkey 3 0x11C) s { c.1 with upd := v } := hchosen.upd
    have hslotted : KeepsWord (rkey 3 0x11C) s slotted := ((hnoted _).setF (by decide)).setF (by decide)
    have hbounded : KeepsWord (rkey 3 0x11C) s bounded := hslotted.wr (by decide)
    have htimed : KeepsWord (rkey 3 0x11C) s timed := .when hbounded (·.setF (by decide))
    exact .inl ((romConfig_ends (htimed.canon hs) _).after htimed)

end

/-! ### ROM_BOOT (R84, R95) -/

/-- The ROM starts: PHASE and the strap show. -/
def romStart (s : State) (recov : Bool) : State := setFlag (setF s 0x03 R.RST.BOOT.PHASE 1) 0x03 R.RST.STRAP.RECOV recov

/-- The clocks lock, and a wake checks AON. -/
def romClocked (s : State) (recov : Bool) (cnt : Option Word) : State :=
  let t := vltSeed (setFlag (setFlag (romStart s recov) 0x02 R.CLK.STAT.SYSLOCK true) 0x02 R.CLK.STAT.BUSLOCK true)
  if getF t 0x03 R.RST.CAUSE.SRC = 8 then aonCheck t cnt else t

/-- EC3 runs, and OTP is read. -/
def romRead (s : State) (recov : Bool) (bad : List Nat) (cnt : Option Word) : State :=
  bad.foldl sprOtp (coreSet (romClocked s recov cnt) .ec3 { CoreSt.init with st := 1 })

/-- The ROM before it looks for a token. -/
def romReady (s : State) (recov : Bool) (bad : List Nat) (cnt : Option Word) : State :=
  let t := romRead s recov bad cnt
  if lcsBits t ≠ 0 && (rootCopy t).isNone then raiseP t 0x06 3 else t

/-- The ROM's way from there. -/
def romGoesOn (s : State) (recov : Bool) : State :=
  if lcs s = 4 then tamperHold s
  else if lcs s = 0 || recov || s.sbp.recov then recoveryKeys s
  else if tamperState s then tamperHold s else romBootKeyed (confirmFound (vltUnwrap s 2))

theorem romClocked_keepsMode (s : State) (recov : Bool) (cnt : Option Word) : KeepsMode (romStart s recov) (romClocked s recov cnt) := by
  have hseeded := vltSeed_keepsMode (((KeepsMode.refl (romStart s recov)).setFlag_clk (f := R.CLK.STAT.SYSLOCK) (b := true)).setFlag_clk
    (f := R.CLK.STAT.BUSLOCK) (b := true))
  exact .when hseeded (aonCheck_keepsMode · cnt)

theorem romReady_keepsMode (s : State) (recov : Bool) (bad : List Nat) (cnt : Option Word) :
    KeepsMode (romStart s recov) (romReady s recov bad cnt) := by
  have hcore (c : CoreSt) : KeepsMode (romStart s recov) (coreSet (romClocked s recov cnt) .ec3 c) :=
    (romClocked_keepsMode s recov cnt).upd
  have hread : KeepsMode (romStart s recov) (romRead s recov bad cnt) := .foldl (hcore _) fun _ hu w _ => sprOtp_keepsMode hu w
  exact .when hread (raiseP_keepsMode · 0x06 3)

/-- Whether a container waits in the slipway depends on the memory alone. -/
theorem slipPending_congr {s t : State} (h : t.mem = s.mem) : slipPending t = slipPending s := by
  rw [slipPending, slipPending, memNat, memNat, h]

theorem romReady_slipPending (s : State) (recov : Bool) (bad : List Nat) (cnt : Option Word) :
    slipPending (romReady s recov bad cnt) = slipPending s :=
  slipPending_congr (romReady_keepsMode s recov bad cnt).memory

/-- The ROM with nothing in the slipway and nothing that cuts its work short. -/
theorem romBoot_eq {s : State} (hm : s.mode = .boot) (hp : getF s 0x03 R.RST.BOOT.PHASE = 0) (hpend : slipPending s = false)
    (recov : Bool) (bad : List Nat) (cnt : Option Word) :
    romBoot s recov bad cnt none = romGoesOn (romReady s recov bad cnt) recov := by
  unfold romBoot
  rw [if_neg (by simp [hm, hp])]
  extract_lets started seeded clocked _ core read ready token found keyed
  have hready : ready = romReady s recov bad cnt := rfl
  have htoken : token = (ready, false) := by
    simp [token, romToken, hready, (romReady_slipPending s recov bad cnt).trans hpend]
  rw [← hready]
  clear_value ready
  simp only [tokenCut, keyed, found, htoken, Bool.false_eq_true, if_false]
  rfl

/-- The lifecycle state depends on OTP alone. -/
theorem lcs_congr {s t : State} (h : t.vlt.otp = s.vlt.otp) : lcs t = lcs s := by
  have hlcs : lcs t = lcs { s with vlt := { s.vlt with otp := t.vlt.otp } } := rfl
  rw [hlcs, h]

/-- OTP and the side-band port's latches are as in `s`. -/
def LatchesAs (s t : State) : Prop := t.vlt.otp = s.vlt.otp ∧ t.sbp = s.sbp

theorem aonCheck_latches {s t : State} (h : LatchesAs s t) (cnt : Option Word) : LatchesAs s (aonCheck t cnt) := by
  unfold aonCheck
  cases cnt <;> dsimp only <;> split <;> exact h

/-- Without a bad word of OTP the ROM's start leaves OTP and the latches. -/
theorem romReady_latches (s : State) (recov : Bool) (cnt : Option Word) : LatchesAs s (romReady s recov [] cnt) := by
  have hseeded : LatchesAs s (vltSeed (setFlag (setFlag (romStart s recov) 0x02 R.CLK.STAT.SYSLOCK true) 0x02 R.CLK.STAT.BUSLOCK true)) :=
    ⟨rfl, rfl⟩
  have hclocked : LatchesAs s (romClocked s recov cnt) := by
    unfold romClocked
    dsimp only
    split
    · exact aonCheck_latches hseeded cnt
    · exact hseeded
  have hcore (c : CoreSt) : LatchesAs s (coreSet (romClocked s recov cnt) .ec3 c) := hclocked
  have hread : LatchesAs s (romRead s recov [] cnt) := hcore _
  unfold romReady
  dsimp only
  split
  · exact hread
  · exact hread

/-- What each step of a fold leaves of the side-band port, the fold leaves. -/
theorem foldl_sbp {f : State → Nat → State} (hf : ∀ t a, (f t a).sbp = t.sbp) (l : List Nat) (t : State) : (l.foldl f t).sbp = t.sbp :=
  List.foldlRecOn l f (motive := fun u => u.sbp = t.sbp) rfl fun u hu a _ => (hf u a).trans hu

theorem manifestShow_sbp (s : State) : (manifestShow s).sbp = s.sbp := by
  unfold manifestShow
  exact foldl_sbp (fun t _ => wr_sbp t _ _ _) _ s

theorem commitEnd_sbp (s : State) (p res : Nat) : (commitEnd s p res).sbp = s.sbp := rfl

theorem blockApplied_prot (old s : State) : blockApplied old s 0x05 = manifestShow s := by simp [blockApplied, blkOf]

theorem applyPage_prot_sbp (s : State) (kind : Nat) : (applyPage s 0x05 kind).sbp = s.sbp := by
  unfold applyPage
  rw [touch_sbp, blockApplied_prot, manifestShow_sbp, releaseLevel_sbp, commitEnd_sbp, setF_sbp]

/-- The manifest leaves the side-band port's latches. -/
theorem protLoad_sbp (s : State) (word : Nat → Nat) (fallback : Bool) : (protLoad s word fallback).sbp = s.sbp := by
  unfold protLoad
  extract_lets words applied enabled
  have hwords : words.sbp = s.sbp := foldl_sbp (fun t q => wr_sbp t 0x05 (0x800 + 4 * q) _) _ s
  have happlied : applied.sbp = words.sbp := (applyPage_prot_sbp _ 3).trans (wr_sbp words _ _ _)
  rw [setFlag_sbp, setFlag_sbp, setFlag_sbp, happlied, hwords]

theorem updShow_sbp (s : State) : (updShow s).sbp = s.sbp := rfl

theorem sbpLatches_sbp (s : State) : (sbpLatches s).sbp = s.sbp := by
  unfold sbpLatches
  split <;> rfl

/-- Entering recovery clears the RECOV latch (R400). -/
theorem enterRecovery_sbp (s : State) : (enterRecovery s).sbp.recov = false := by
  unfold enterRecovery fallbackManifest
  rw [updShow_sbp, protLoad_sbp, sbpLatches_sbp, setF_sbp]

section
variable {s : State} (hs : storeWf regReset s.regs = true)
include hs

theorem romStart_wf (recov : Bool) : storeWf regReset (romStart s recov).regs = true := setFlag_wf (setF_wf hs)

theorem romStart_strap (recov : Bool) : isSet (romStart s recov) 0x03 R.RST.STRAP.RECOV = recov :=
  isSet_setFlag_same (setF_wf hs) rfl (by decide)

theorem romReady_wf (recov : Bool) (bad : List Nat) (cnt : Option Word) : storeWf regReset (romReady s recov bad cnt).regs = true :=
  (romReady_keepsMode s recov bad cnt).canon (romStart_wf hs recov)

/-- The ROM ends in phase CONFIG or RECOVERY. -/
theorem romGoesOn_ends (hp : slipPending s = false) (recov : Bool) : RomEnds 3 s (romGoesOn s recov) ∨ RomEnds 5 s (romGoesOn s recov) := by
  have hkeyed : KeepsMode s (confirmFound (vltUnwrap s 2)) := confirmFound_keepsMode (vltUnwrap_keepsMode (.refl s) 2)
  unfold romGoesOn
  split
  · exact .inl (tamperHold_ends hs)
  · split
    · exact .inr (recoveryKeys_ends hs)
    · split
      · exact .inl (tamperHold_ends hs)
      · have hbooted := romBootKeyed_ends (hkeyed.canon hs) ((slipPending_congr hkeyed.memory).trans hp)
        exact hbooted.imp (·.after (hkeyed.keepsWord (by decide))) (·.after (hkeyed.keepsWord (by decide)))

end

section
variable {s : State} (hs : storeWf regReset s.regs = true) (hm : s.mode = .boot) (hp : getF s 0x03 R.RST.BOOT.PHASE = 0)
  (hpend : slipPending s = false) (recov : Bool) (cnt : Option Word)
include hs hm hp hpend

/-- ROM_BOOT records the strap and ends in phase CONFIG or RECOVERY. -/
theorem answers_romBoot (bad : List (Fin 512)) : Answers (.romBoot recov bad ⟨cnt, none⟩) s fun u =>
    u.mode = .boot ∧ isSet u 0x03 R.RST.STRAP.RECOV = recov ∧
      (getF u 0x03 R.RST.BOOT.PHASE = 3 ∨ getF u 0x03 R.RST.BOOT.PHASE = 5) := by
  have hready := romReady_keepsMode s recov (bad.map Fin.val) cnt
  have hshown {ph : Nat} (h : RomEnds ph (romReady s recov (bad.map Fin.val) cnt) (romGoesOn (romReady s recov (bad.map Fin.val) cnt) recov)) :
      RomEnds ph (romStart s recov) (romGoesOn (romReady s recov (bad.map Fin.val) cnt) recov) := h.after (hready.keepsWord (by decide))
  refine .of_done (done_powered (running_of_boot hm)) ?_
  rw [romBoot_eq hm hp hpend]
  have hends := (romGoesOn_ends (romReady_wf hs recov (bad.map Fin.val) cnt)
    ((romReady_slipPending s recov _ cnt).trans hpend) recov).imp hshown hshown
  have hstrap := hends.elim RomEnds.strap RomEnds.strap
  refine ⟨hstrap.mode.trans hm, ?_, hends.imp RomEnds.phase RomEnds.phase⟩
  rw [hstrap.isSet (f := R.RST.STRAP.RECOV) (romStart_wf hs recov), romStart_strap hs]

/-- The strap or the latch takes a device that is not scrapped into recovery, which clears the latch. -/
theorem answers_romBoot_recovery (hl : lcs s ≠ 4) (hr : recov = true ∨ s.sbp.recov = true) :
    Answers (.romBoot recov [] ⟨cnt, none⟩) s fun u => getF u 0x03 R.RST.BOOT.PHASE = 5 ∧ u.sbp.recov = false := by
  obtain ⟨hotp, hsbp⟩ := romReady_latches s recov cnt
  have hgo : romGoesOn (romReady s recov [] cnt) recov = recoveryKeys (romReady s recov [] cnt) := by
    have hwants : (lcs s = 0 || recov || s.sbp.recov) = true := by rcases hr with hr | hr <;> simp [hr]
    rw [romGoesOn, lcs_congr hotp, hsbp, if_neg hl, if_pos hwants]
  refine .of_done (done_powered (running_of_boot hm)) ?_
  rw [List.map_nil, romBoot_eq hm hp hpend, hgo]
  exact ⟨(recoveryKeys_ends (romReady_wf hs recov [] cnt)).phase, enterRecovery_sbp _⟩

/-- A scrapped device enters the tamper hold (R458). -/
theorem answers_romBoot_scrapped (hl : lcs s = 4) : Answers (.romBoot recov [] ⟨cnt, none⟩) s fun u =>
    getF u 0x03 R.RST.BOOT.PHASE = 3 ∧ getF u 0x03 R.RST.HOLDWHY.WHY = 3 := by
  have hwf := romReady_wf hs recov [] cnt
  have hgo : romGoesOn (romReady s recov [] cnt) recov = tamperHold (romReady s recov [] cnt) := by
    rw [romGoesOn, lcs_congr (romReady_latches s recov cnt).1, if_pos hl]
  refine .of_done (done_powered (running_of_boot hm)) ?_
  rw [List.map_nil, romBoot_eq hm hp hpend, hgo]
  exact ⟨(tamperHold_ends hwf).phase, tamperHold_why hwf⟩

end

end Sys2Proof.Machine
end

section
/-! Resets and recovery over CAN0 (04, R77; 21, R489). -/

-- One proof after another: side by side they start more threads than the memory limit of the check has room for.
set_option Elab.async false

namespace Sys2Proof.Machine

/-! ### The source of a reset, whatever the form of the register store (R77)

What an installation and the collection of sources before the reset leave of the register store is not looked at: a word that does not
hold its reset value stays readable whatever other word is written. -/

section
variable {α : Type} [DecidableEq α] {d : Nat → α}

/-- A value that is not the default reads as before, whatever is stored at another key. -/
theorem storeGet_set_shown {m : Store α} {i j : Nat} {v : α} (hj : j ≠ i) (h : storeGet d m j ≠ d j) :
    storeGet d (storeSet d m i v) j = storeGet d m j := by
  induction m with
  | nil => exact absurd rfl h
  | cons e m ih =>
    obtain ⟨k, w⟩ := e
    rw [storeSet]
    by_cases hkj : k = j
    · subst hkj
      split
      · split
        · rfl
        · rw [storeGet, if_neg (Ne.symm hj), if_neg (by omega)]
      · rw [if_neg (Ne.symm hj), storeGet, storeGet, if_pos rfl, if_pos rfl]
    · have hlt : ¬ j < k := fun hlt => h (by rw [storeGet, if_neg hkj, if_pos hlt])
      have hrest : storeGet d ((k, w) :: m) j = storeGet d m j := by rw [storeGet, if_neg hkj, if_neg hlt]
      rw [hrest] at h ⊢
      have hnext : storeGet d ((k, w) :: storeSet d m i v) j = storeGet d m j := by rw [storeGet, if_neg hkj, if_neg hlt, ih h]
      split
      · split
        · exact hrest
        · rw [storeGet, if_neg (Ne.symm hj), if_neg (by omega), hrest]
      · split
        · split
          · rfl
          · rw [storeGet, if_neg (Ne.symm hj), if_neg (by omega)]
        · exact hnext

end

/-- RST shows the source `src`, none of a power-on. -/
def ShowsSource (src : Nat) (t : State) : Prop := src ≠ 0 ∧ getF t 0x03 R.RST.CAUSE.SRC = src

/-- A word with a source is not the reset value of CAUSE. -/
theorem cause_ne_reset {w : Word} (h : fget w R.RST.CAUSE.SRC ≠ 0) : w ≠ regReset (rkey 3 R.RST.CAUSE.SRC.off) := by
  rintro rfl
  exact h (by decide)

namespace ShowsSource
variable {src : Nat} {t u : State}

/-- An update of other parts of the state. -/
theorem upd (h : ShowsSource src t) (hr : u.regs = t.regs := by rfl) : ShowsSource src u := ⟨h.1, (getF_congr_regs hr).trans h.2⟩

theorem wr (h : ShowsSource src t) {p off : Nat} {w : Word} (hk : rkey 3 R.RST.CAUSE.SRC.off ≠ rkey p off) : ShowsSource src (wr t p off w) := by
  have hshown : fget (rd t 3 R.RST.CAUSE.SRC.off) R.RST.CAUSE.SRC ≠ 0 := ne_of_eq_of_ne h.2 h.1
  exact ⟨h.1, (congrArg (fget · R.RST.CAUSE.SRC) (storeGet_set_shown hk (cause_ne_reset hshown))).trans h.2⟩

/-- A write to a page above RST. -/
theorem wr_page (h : ShowsSource src t) {p off : Nat} {w : Word} (hp : 4 ≤ p := by decide) : ShowsSource src (Machine.wr t p off w) :=
  h.wr (by
    have hcause : rkey 3 R.RST.CAUSE.SRC.off < 4096 := by decide
    unfold rkey at hcause ⊢
    omega)

theorem setF (h : ShowsSource src t) {p : Nat} {f : Fld} {v : Nat} (hp : 4 ≤ p := by decide) : ShowsSource src (setF t p f v) :=
  h.wr_page hp

theorem setFlag (h : ShowsSource src t) {p : Nat} {f : Fld} {b : Bool} (hp : 4 ≤ p := by decide) : ShowsSource src (setFlag t p f b) :=
  h.wr_page hp

theorem ite {c : Prop} {_ : Decidable c} (h : ShowsSource src t) (h' : ShowsSource src u) : ShowsSource src (if c then t else u) := by
  split
  · exact h
  · exact h'

/-- A step that is taken or left out. -/
theorem when {c : Prop} {_ : Decidable c} (h : ShowsSource src t) (hu : ShowsSource src t → ShowsSource src u) :
    ShowsSource src (if c then u else t) := .ite (hu h) h

/-- What each step of a fold keeps, the fold keeps. -/
theorem foldl {α : Type} {f : State → α → State} {l : List α} (h : ShowsSource src t)
    (hf : ∀ u, ShowsSource src u → ∀ a ∈ l, ShowsSource src (f u a)) : ShowsSource src (l.foldl f t) :=
  List.foldlRecOn l f h hf

end ShowsSource

section
variable {src : Nat} {t : State} (h : ShowsSource src t)
include h

theorem touch_showsSource : ShowsSource src (touch t) := h.upd

theorem pendLine_showsSource {p : Nat} (k : Nat) (hp : 4 ≤ p) : ShowsSource src (pendLine t p k) := .ite (h.wr_page hp) (h.wr_page hp)

theorem lineMerge_showsSource (k : Nat) : ShowsSource src (lineMerge t k) :=
  have hw := h.wr_page (p := 0x0E)
  .ite hw hw.upd

theorem tbsEventCapture_showsSource (k : Nat) : ShowsSource src (tbsEventCapture t k) := by
  unfold tbsEventCapture
  exact .ite h (ShowsSource.when h (·.setFlag)).setF.setF.setFlag

theorem dmaTrigger_showsSource (c : Nat) : ShowsSource src (dmaTrigger t c) := by
  have hbegin : ShowsSource src (dmaTrigger.dmaBegin t c) := (h.setF (p := 0x0F) (f := R.DMA.STAT.BLEFT c)).upd
  have hover : ShowsSource src (setFlag t 0x0F (R.DMA.STAT.TOVR c) true) := h.setFlag
  unfold dmaTrigger
  exact .ite (.ite hover.upd h.upd) (.ite (ShowsSource.ite h hbegin).setFlag.setFlag h)

theorem raiseLine_showsSource (k : Nat) : ShowsSource src (raiseLine t k) := by
  have hmerge := lineMerge_showsSource h k
  have hcores : ∀ p ∈ corePages, 4 ≤ p := by decide
  unfold raiseLine
  refine .ite h (.ite (.ite hmerge h.upd) (.ite hmerge (.foldl (tbsEventCapture_showsSource (.foldl (.when h (·.upd)) ?pend) k) ?dma)))
  case pend => exact fun u hu p hp => pendLine_showsSource hu k (hcores p hp)
  case dma => exact fun u hu c _ => .when hu (dmaTrigger_showsSource · c)

theorem assertLevel_showsSource (id : Nat) : ShowsSource src (assertLevel t id) := h.upd (assertLevel_regs t id)

theorem swiTake_showsSource : ShowsSource src (swiTake t) := .foldl h fun _ hu _ _ => hu.wr_page.wr_page

theorem protAgain_showsSource : ShowsSource src (protAgain t) := by
  unfold protAgain
  extract_lets one cfgecc hscs hbs sols lsts lmxs bank
  have hone (u : State) (hu : ShowsSource src u) (p : Nat) (c : Prot) (bt bd : Nat) : ShowsSource src (one u p c bt bd) :=
    .when (.when (.when hu (assertLevel_showsSource · _)) (assertLevel_showsSource · _)) (·.upd)
  have hcfgecc : ShowsSource src cfgecc := .when h (·.upd)
  have hsols : ShowsSource src sols := .foldl (.foldl (.foldl hcfgecc fun u hu n _ => hone u hu _ _ _ _) fun u hu n _ => hone u hu _ _ _ _)
    fun u hu n _ => hone u hu _ _ _ _
  have hlsts : ShowsSource src lsts := .foldl hsols fun u hu n _ => hone u hu _ _ _ _
  have hbank : ShowsSource src bank := .when (hone _ hlsts _ _ _ _) (assertLevel_showsSource · _)
  exact .when (.when hbank (assertLevel_showsSource · _)) (assertLevel_showsSource · _)

end

/-- A source written to CAUSE shows there. -/
theorem showsSource_setF (t : State) {src : Nat} (h0 : src ≠ 0) (hlt : src < 16) : ShowsSource src (setF t 0x03 R.RST.CAUSE.SRC src) := by
  have hset : fget (fset (rd t 3 R.RST.CAUSE.SRC.off) R.RST.CAUSE.SRC src) R.RST.CAUSE.SRC = src :=
    (fget_fset_same _ _ _ (by decide) (by decide)).trans (Nat.mod_eq_of_lt hlt)
  refine ⟨h0, ?_⟩
  rw [getF, Machine.setF, rd_wr_of_ne (cause_ne_reset (ne_of_eq_of_ne hset h0)), hset]

/-- The source stands beside a new FSID. -/
theorem ShowsSource.fsid {t : State} {src : Nat} (h : ShowsSource src t) (fsid : Nat) :
    ShowsSource src (Machine.setF t 0x03 R.RST.CAUSE.FSID fsid) := by
  have hset : fget (fset (rd t 3 R.RST.CAUSE.FSID.off) R.RST.CAUSE.FSID fsid) R.RST.CAUSE.SRC = src :=
    (fget_fset_ne _ _ _ _ (by decide) (by decide) (by decide) (by decide)).trans h.2
  refine ⟨h.1, ?_⟩
  have hread : rd (Machine.setF t 0x03 R.RST.CAUSE.FSID fsid) 3 R.RST.CAUSE.SRC.off =
      fset (rd t 3 R.RST.CAUSE.FSID.off) R.RST.CAUSE.FSID fsid := rd_wr_of_ne (cause_ne_reset (ne_of_eq_of_ne hset h.1))
  rw [getF, hread, hset]

theorem bootCaused_showsSource (s t : State) (aon : Bool) {src : Nat} (h0 : src ≠ 0) (hlt : src < 16) (fsid : Nat) :
    ShowsSource src (bootCaused s t aon src fsid) := .when ((showsSource_setF t h0 hlt).fsid fsid) (·.wr (by decide))

/-- A reset ends in BOOT with its source in CAUSE. -/
theorem resetDevice_boots (s : State) {src : Nat} (h0 : src ≠ 0) (hlt : src < 16) (fsid : Nat) :
    (resetDevice s src fsid).mode = .boot ∧ getF (resetDevice s src fsid) 0x03 R.RST.CAUSE.SRC = src := by
  have hcaused := bootCaused_showsSource (commitSleep s) (bootShown (commitSleep s) true true 5) true h0 hlt fsid
  have hboot : ShowsSource src (enterBoot (commitSleep s) true true 5 src fsid) :=
    touch_showsSource (raiseLine_showsSource (protAgain_showsSource (swiTake_showsSource (ShowsSource.upd hcaused))) 17)
  refine ⟨?_, hboot.2⟩
  rw [resetDevice, (enterBoot_keepsMode _ true true 5 src fsid).mode, bootCaused_mode, bootShown_mode]

/-! ### Recovery over CAN0 (R489) -/

theorem mode_of_inRecovery {s : State} (h : inRecovery s = true) : s.mode = .boot := by
  simp only [inRecovery, Bool.and_eq_true, decide_eq_true_eq] at h
  exact h.1

/-- A download message lands in the slipway. -/
theorem answers_recoveryMessage {s : State} (hr : inRecovery s = true) {data : List Byte} (hlo : 5 ≤ data.length)
    (hhi : data.length ≤ 4095) (hend : bytesToNat (data.take 4) + (data.drop 4).length ≤ 0x200000) :
    Answers (.recoveryDownloadMessage data) s fun u =>
      u = { s with mem := memSetList s.mem (slipBase + bytesToNat (data.take 4)) (data.drop 4) } := by
  refine .of_done (done_powered (running_of_boot (mode_of_inRecovery hr))) ?_
  have hfits : (!inRecovery s || data.length < 5 || 4095 < data.length || 0x200000 < bytesToNat (data.take 4) + (data.drop 4).length) = false := by
    simp only [hr, Bool.or_eq_false_iff, decide_eq_false_iff_not, Bool.not_true, true_and]
    omega
  simp only [recoveryMessage, hfits, Bool.false_eq_true, if_false]

/-- The download has been installed, and its end answered. -/
def recoveryInstalled (s : State) : State := recoveryReply (install { s with upd := { s.upd with ending := false } })

theorem recoveryEnd_eq {s : State} (hr : inRecovery s = true) (hp : slipPending s = false ∨ ctnType s 0 ≠ 2) :
    recoveryEnd s = if getF (recoveryInstalled s) 0x07 R.UPD.STAT.LAST = 1 then resetDevice (finish (recoveryInstalled s)) 7 0
      else recoveryInstalled s := by
  have hnone (u : UpdSt) : (slipPending { s with upd := u } && ctnType { s with upd := u } 0 = 2) = false := by
    have hpend : slipPending { s with upd := u } = slipPending s := rfl
    have htype : ctnType { s with upd := u } 0 = ctnType s 0 := rfl
    rcases hp with hp | hp <;> simp [hpend, htype, hp]
  simp only [recoveryEnd, hr, hnone, Bool.not_true, Bool.false_eq_true, if_false, Bool.false_or, decide_eq_true_eq]
  rfl

/-- The end of a download installs it, and resets on success. -/
theorem answers_recoveryEnd {s : State} (hr : inRecovery s = true) (hp : slipPending s = false ∨ ctnType s 0 ≠ 2) :
    Answers .recoveryDownloadEnd s fun u =>
      (getF (recoveryInstalled s) 0x07 R.UPD.STAT.LAST ≠ 1 → u = recoveryInstalled s) ∧
        (getF (recoveryInstalled s) 0x07 R.UPD.STAT.LAST = 1 → u.mode = .boot ∧ getF u 0x03 R.RST.CAUSE.SRC = 7) := by
  refine .of_done (done_powered (f := recoveryEnd) (running_of_boot (mode_of_inRecovery hr))) ?_
  rw [recoveryEnd_eq hr hp]
  refine ⟨fun hlast => if_neg hlast, fun hlast => ?_⟩
  rw [if_pos hlast]
  exact resetDevice_boots _ (by decide) (by decide) 0

/-- Settles O18: each command runs down to the lemma that says what its sequence leaves. The tamper hold of a scrapped device whatever
the strap says is R458, and that it comes before a requested recovery is the model's reading of R84 and R95; the end of a download is
R489 with notes/assumptions/64. -/
theorem bootSequence : Obligations.BootSequence := by
  intro s time recov bad cnt data hcanon
  have hw := hcanon.regs
  refine ⟨?fails, ?loads, ?rom, ?recovery, ?scrapped, ?ended, ?message, ?download⟩
  case fails => exact fun g hm hl hc hg hcrc => answers_reflexLoad_fails hw hm hl hc time hg (reflexFails_crc _ hcrc)
  case loads =>
    exact fun g hm hl hc hg hcrc hrange => answers_reflexLoad_loads hw hm hl hc time hg (reflexFails_false hw _ _ hcrc hrange)
  case rom => exact fun hm hp hpend => answers_romBoot hw hm hp hpend recov cnt bad
  case recovery => exact fun hm hp hpend hl hr => answers_romBoot_recovery hw hm hp hpend recov cnt hl hr
  case scrapped => exact fun hm hp hpend hl => answers_romBoot_scrapped hw hm hp hpend recov cnt hl
  case ended => exact fun hm hp hopen => answers_endOfBoot hw hm hp hopen
  case message => exact fun hr hlo hhi hend => answers_recoveryMessage hr hlo hhi hend
  case download => exact fun hr hp => answers_recoveryEnd hr hp

end Sys2Proof.Machine
end

section
/-! The command registers of the high-side channels and the pulses of the generators (05, R99 to R109, R117; 08, R171). -/

-- One proof after another: side by side they start more threads than the memory limit of the check has room for.
set_option Elab.async false

namespace Sys2Proof.Machine

/-! ### Fields of a plain write -/

/-- A one-bit field is its bit of the word. -/
theorem isSet_bit (s : State) (p off b : Nat) : isSet s p ⟨off, b, b⟩ = (rd s p off).getLsbD b := by
  rw [Bool.eq_iff_iff]
  simp [isSet, getF, fget, BitVec.getLsbD, Nat.testBit, Nat.one_and_eq_mod_two]

/-- A field of a word whose bits under the mask `m`, among them the field's, are taken from `v`. -/
theorem fget_merge (w k v m : Word) {f : Fld} (hm : ∀ i ≤ f.hi, f.lo ≤ i → m.getLsbD i = true) :
    fget ((w &&& ~~~m &&& k) ||| (v &&& m)) f = fget v f := by
  refine Nat.eq_of_testBit_eq fun i => ?_
  simp only [fget, Nat.testBit_mod_two_pow, Nat.testBit_shiftRight, BitVec.testBit_toNat]
  by_cases hi : i < f.hi + 1 - f.lo
  · simp [hm (f.lo + i) (by omega) (by omega)]
  · simp [hi]

/-- A field of RW bits takes the written value. -/
theorem getF_plainWrite {s : State} (h : storeWf regReset s.regs = true) {p : Nat} {f : Fld} (v : Word)
    (hm : ∀ i ≤ f.hi, f.lo ≤ i → (BitVec.ofNat 32 (accMask p f.off (· == .rw))).getLsbD i = true) :
    getF (plainWrite s p f.off v) p f = fget v f := by
  rw [getF, plainWrite, rd_wr_same h, fget_merge _ _ _ _ hm]

/-! ### The command registers of a channel -/

theorem blkOf_hscPage (n : Fin 72) : blkOf (hscPage n.val) = some (.HSC, 0x20) := by revert n; decide

theorem fieldsAt_hscPage (n : Fin 72) (off : Nat) : fieldsAt (hscPage n.val) off = regMapHSC.filter fun r => r.at off := by
  have hp : hscPage n.val ≠ 0xA1 := by unfold hscPage; omega
  simp [fieldsAt, pageMap, blkOf_hscPage, hp, regMap]

/-- ON and STAYON are the bits of CMD that a write sets, and DUTY has 12 bits. -/
theorem accMask_hscPage (n : Fin 72) :
    accMask (hscPage n.val) 0x100 (· == .rw) = 3 ∧ accMask (hscPage n.val) 0x10C (· == .rw) = 4095 := by
  simp only [accMask, fieldsAt_hscPage]
  decide

section
variable {s : State} (h : storeWf regReset s.regs = true) (n : Fin 72) (v : Word)
include h

/-- A one-bit field of CMD takes its bit of the written value. -/
theorem isSet_plainWrite_cmd {b : Nat} (hb : b < 2) :
    isSet (plainWrite s (hscPage n.val) 0x100 v) (hscPage n.val) ⟨0x100, b, b⟩ = v.getLsbD b := by
  have hmask : ∀ i ≤ b, b ≤ i → (BitVec.ofNat 32 (accMask (hscPage n.val) 0x100 (· == .rw))).getLsbD i = true := by
    intro i hi hi'
    have hsmall : ∀ i < 2, (BitVec.ofNat 32 3).getLsbD i = true := by decide
    rw [(accMask_hscPage n).1]
    exact hsmall i (by omega)
  have hfield := getF_plainWrite h (p := hscPage n.val) (f := ⟨0x100, b, b⟩) v hmask
  have hbit : isSet (plainWrite s (hscPage n.val) 0x100 v) (hscPage n.val) ⟨0x100, b, b⟩ = decide (fget v ⟨0x100, b, b⟩ ≠ 0) :=
    congrArg (fun x => decide (x ≠ 0)) hfield
  rw [hbit, Bool.eq_iff_iff]
  simp [fget, BitVec.getLsbD, Nat.testBit, Nat.one_and_eq_mod_two]

theorem getF_plainWrite_duty :
    getF (plainWrite s (hscPage n.val) 0x10C v) (hscPage n.val) R.HSC.DUTY.DUTY = v.toNat % 4096 := by
  refine getF_plainWrite h (f := R.HSC.DUTY.DUTY) v ?_
  have hmask : accMask (hscPage n.val) R.HSC.DUTY.DUTY.off (· == .rw) = 4095 := (accMask_hscPage n).2
  rw [hmask]
  decide

end

/-- A granted write of a command register of a channel is a plain write that the outputs follow. -/
theorem answers_hscWrite {c : Instr} {s : State} {who : Who} {n : Fin 72} {off reg : Nat} {v w : Word} {P : State → Prop}
    (he : exec c s = done s (writeReg s who (hscPage n.val) off v)) (hm : MayWrite s who (hscPage n.val) off)
    (ho : off % 4 = 0 ∧ 0x100 ≤ off ∧ off < 0x800)
    (hl : liveWrite s who (hscPage n.val) off v = (touch (plainWrite s (hscPage n.val) reg w), true))
    (hP : P { touch (plainWrite s (hscPage n.val) reg w) with ans := none }) : Answers c s P := by
  have hvlt : hscPage n.val ≠ 6 := by unfold hscPage; omega
  rw [writeReg_live hm ho.1 hvlt ho.2.1 ho.2.2, hl] at he
  exact .of_done he hP

/-- A write that ends in CMD, by CMD itself or by the bits to set or to clear (R99, R117). -/
theorem answers_hscCmd {c : Instr} {s : State} {who : Who} {n : Fin 72} {off : Nat} {v w : Word}
    (h : storeWf regReset s.regs = true) (he : exec c s = done s (writeReg s who (hscPage n.val) off v))
    (hm : MayWrite s who (hscPage n.val) off) (ho : off % 4 = 0 ∧ 0x100 ≤ off ∧ off < 0x800)
    (hl : liveWrite s who (hscPage n.val) off v = (cmdWrite s (hscPage n.val) w, true)) :
    Answers c s fun u => isSet u (hscPage n.val) R.HSC.CMD.ON = w.getLsbD 0 ∧
      isSet u (hscPage n.val) R.HSC.CMD.STAYON = w.getLsbD 1 ∧ u.applied = s.applied ∧ u.mem = s.mem :=
  answers_hscWrite he hm ho hl
    ⟨isSet_plainWrite_cmd h n w (by decide), isSet_plainWrite_cmd h n w (by decide), rfl, rfl⟩

/-! ### STAT of a channel while its generator runs -/

/-- An update of other parts of the state. -/
theorem KeepsField.upd {p : Nat} {f : Fld} {s t u : State} (h : KeepsField p f s t) (hr : u.regs = t.regs := by rfl) :
    KeepsField p f s u :=
  ⟨fun hs => (congrArg (fun m => fget (storeGet regReset m (rkey p f.off)) f) hr).trans (h.field hs), fun hs => hr ▸ h.canon hs⟩

/-- STATE, SAFEACT, RFXACT and RUSED follow; the other fields of the page stay. -/
theorem hscStat_keepsField {s t : State} {n : Nat} {f : Fld} (h : KeepsField (hscPage n) f s t)
    (hf : ∀ g ∈ [R.HSC.STAT.STATE, R.HSC.STAT.SAFEACT, R.HSC.STAT.RFXACT, R.HSC.STAT.RUSED], fieldsApart f g = true) :
    KeepsField (hscPage n) f s (hscStat t n) :=
  (((h.setF (hf _ (by simp))).setFlag (hf _ (by simp))).setFlag (hf _ (by simp))).setF (hf _ (by simp))

theorem hscGet_set_same {s : State} (h : storeWf (fun _ => HscSt.init) s.hsc = true) (n : Nat) (c : HscSt) :
    hscGet (hscSet s n c) n = c := storeGet_set_same h

/-- The gate is driven on or off with the state `c` beside the registers, and STAT follows. -/
def hscDriven (s : State) (n : Nat) (c : HscSt) (on : Bool) : State :=
  hscStat (if on then hscGateOn (hscSet s n c) n else hscGateOff (hscSet s n c) n) n

section
variable {s : State} (n : Nat) (c : HscSt) (on : Bool)

theorem hscDriven_deff (h : storeWf regReset s.regs = true) :
    getF (hscDriven s n c on) (hscPage n) R.HSC.STAT.DEFF = getF s (hscPage n) R.HSC.STAT.DEFF := by
  have hset : KeepsField (hscPage n) R.HSC.STAT.DEFF s (hscSet s n c) := (KeepsField.refl _ _ s).upd
  have hgate : KeepsField (hscPage n) R.HSC.STAT.DEFF s
      (if on then hscGateOn (hscSet s n c) n else hscGateOff (hscSet s n c) n) := by
    split
    · exact hset.upd.setFlag (by decide)
    · exact hset.upd.setFlag (by decide)
  exact (hscStat_keepsField hgate (by decide)).field h

theorem hscDriven_gate (h : storeWf regReset s.regs = true) : hscGate (hscDriven s n c on) n = on := by
  unfold hscDriven
  generalize ht : (if on then hscGateOn (hscSet s n c) n else hscGateOff (hscSet s n c) n) = t
  have hgate : storeWf regReset t.regs = true ∧ isSet t (hscPage n) R.HSC.STAT.GATE = on := by
    subst ht
    cases on
    · exact ⟨setFlag_wf h, isSet_setFlag_same h rfl (by decide)⟩
    · exact ⟨setFlag_wf h, isSet_setFlag_same h rfl (by decide)⟩
  have hstat := (hscStat_keepsField (KeepsField.refl (hscPage n) R.HSC.STAT.GATE t) (by decide)).field hgate.1
  exact (congrArg (fun x => decide (x ≠ 0)) hstat).trans hgate.2

theorem hscDriven_rem (h : storeWf (fun _ => HscSt.init) s.hsc = true) : (hscGet (hscDriven s n c on) n).rem = c.rem := by
  have hwf : storeWf (fun _ => HscSt.init) (hscSet s n c).hsc = true := storeSet_wf h
  have hrem (d : HscSt) (hd : d.rem = (hscGet (hscSet s n c) n).rem) : (hscGet (hscSet (hscSet s n c) n d) n).rem = c.rem := by
    rw [hscGet_set_same hwf, hd, hscGet_set_same h]
  cases on
  · exact hrem _ rfl
  · exact hrem _ rfl

end

/-! ### Clock s of a channel's period (R103, R109) -/

/-- The duty that the generator takes for demanded duty `d`, with the governor's trim. -/
def hscDuty (s : State) (n d : Nat) : Nat := (hscDeffOf s n d).1 * hscG s n / 4096

/-- STAT with the duty that the generator takes. -/
def hscDutyShown (s : State) (n d : Nat) : State :=
  setFlag (setF s (hscPage n) R.HSC.STAT.DEFF (hscDuty s n d)) (hscPage n) R.HSC.STAT.COMPSAT (hscDeffOf s n d).2

theorem hscDutyShown_wf {s : State} (h : storeWf regReset s.regs = true) (n d : Nat) :
    storeWf regReset (hscDutyShown s n d).regs = true := setFlag_wf (setF_wf h)

theorem hscDutyShown_deff {s : State} (h : storeWf regReset s.regs = true) (n d : Nat) :
    getF (hscDutyShown s n d) (hscPage n) R.HSC.STAT.DEFF = hscDuty s n d % 4096 :=
  (getF_setF_apart (setF_wf h) (by decide)).trans (getF_setF_same h (by decide) (by decide))

/-- The clock of its group at which the channel's pulses start. -/
def hscClock (s : State) (n : Nat) : Bool :=
  grpClock s (cfg s (hscPage n) R.HSC.CFG.FGRP) (cfg s (hscPage n) R.HSC.CFG.PHASE * grpClocks (cfg s (hscPage n) R.HSC.CFG.FGRP) / 4096)

/-- At another clock no pulse starts. -/
theorem hscPulseStart_idle {s : State} {n : Nat} (h : hscClock s n = false) : hscPulseStart s n = s := by
  simp only [hscClock] at h
  simp [hscPulseStart, h]

/-- At its clock the generator shows its duty and drives the gate: off without a duty, on throughout at full duty, else with the
remainder of its on-time carried on. -/
theorem hscPulseStart_drives {s : State} {n d : Nat} {o : Origin} (hgen : (hscGet s n).gen = true) (hclock : hscClock s n = true)
    (hd : hscDemand s n = (.gen d, o)) :
    ∃ c on, hscPulseStart s n = hscDriven (hscDutyShown s n d) n c on ∧ (hscDuty s n d = 0 → on = false) ∧
      (hscDuty s n d = 4095 → on = true) ∧
      (hscDuty s n d ≠ 0 → hscDuty s n d ≠ 4095 →
        c.rem = (hscDuty s n d * grpClocks (cfg s (hscPage n) R.HSC.CFG.FGRP) + (hscGet s n).rem) % 4096) := by
  simp only [hscClock] at hclock
  unfold hscPulseStart
  simp only [hgen, hclock, hd, Bool.and_self]
  change ∃ c on, (if hscDuty s n d = 0 then _ else if hscDuty s n d = 4095 then _ else _) = _ ∧ _
  by_cases h0 : hscDuty s n d = 0
  · rw [if_pos h0]
    exact ⟨_, false, rfl, fun _ => rfl, fun h => by omega, fun h => absurd h0 h⟩
  rw [if_neg h0]
  by_cases h1 : hscDuty s n d = 4095
  · rw [if_pos h1]
    exact ⟨_, true, rfl, fun h => by omega, fun _ => rfl, fun _ h => absurd h1 h⟩
  rw [if_neg h1]
  split
  · exact ⟨_, false, rfl, fun _ => rfl, fun h => absurd h h1, fun _ _ => rfl⟩
  · exact ⟨_, true, rfl, fun h => absurd h h0, fun _ => rfl, fun _ _ => rfl⟩

/-! ### The end of a channel's pulse (R103, R149, R156) -/

/-- The key of the word of a channel that holds GATE. -/
def hscStatKey (n k : Nat) : Bool := decide (k = rkey (hscPage n) 0x110)

theorem hscStatKey_other {n off : Nat} (ho : off < 4096 ∧ off / 4 ≠ 0x110 / 4) : hscStatKey n (rkey (hscPage n) off) = false := by
  unfold hscStatKey rkey
  simp only [decide_eq_false_iff_not]
  omega

section
variable {n : Nat} {s t : State} (h : Keeps (hscStatKey n) s t)
include h

theorem diagResult_keepsStat (method res : Nat) : Keeps (hscStatKey n) s (diagResult t n method res) := by
  unfold diagResult
  have hshown := (hscSet_keeps h n { hscGet t n with cand := res, agree := if (hscGet t n).cand = res then (hscGet t n).agree + 1 else 1 }).setF_of
    (p := hscPage n) (f := R.HSC.DRES.METHOD) (v := method) (hscStatKey_other (by decide))
  have hresult := hshown.setF_of (p := hscPage n) (f := R.HSC.DRES.RESULT) (v := res) (hscStatKey_other (by decide))
  exact .ite hshown (.when hresult (raiseP_keeps · _ _))

theorem hscSample_keepsStat (method : Nat) (code : BitVec 12) (valid : Bool) :
    Keeps (hscStatKey n) s (hscSample t n method code valid) := by
  unfold hscSample
  extract_lets p r shown _ seen
  have himeas {u : State} (hu : Keeps (hscStatKey n) s u) (f : Fld) (v : Nat) (hf : f.off = 0x114) : Keeps (hscStatKey n) s (setF u p f v) :=
    hu.setF_of (hscStatKey_other (by rw [hf]; decide))
  have hshown : Keeps (hscStatKey n) s shown := himeas (himeas (himeas h _ _ rfl) _ _ rfl) _ _ rfl
  have hseen : Keeps (hscStatKey n) s seen := hscSet_keeps hshown n _
  refine .ite h (.ite (himeas h _ _ rfl) (.ite hseen ?_))
  split
  · exact hseen
  · exact diagResult_keepsStat hseen method _

theorem hscAverage_keepsStat (code : BitVec 12) : Keeps (hscStatKey n) s (hscAverage t n code) := by
  unfold hscAverage
  extract_lets c bad sum clk k reset
  have hreset : Keeps (hscStatKey n) s reset := hscSet_keeps h n _
  refine .ite (hscSet_keeps h n _) (.ite hreset ?_)
  split
  · exact hreset
  · exact diagResult_keepsStat hreset 2 _

end

/-- A pulse that ends turns the gate off; what its sample gives leaves STAT, the configuration and the memory. -/
theorem hscPulseEnd_keepsStat {s : State} {n : Nat} (hgen : (hscGet s n).gen = true) (hgate : hscGate s n = true)
    (hduty : getF s (hscPage n) R.HSC.STAT.DEFF ≠ 4095) (code : BitVec 12) (enh served : Bool) :
    Keeps (hscStatKey n) (hscGateOff s n) (hscPulseEnd s n code enh served) := by
  unfold hscPulseEnd
  extract_lets p c off lds broken invalid
  have hrefl : Keeps (hscStatKey n) (hscGateOff s n) off := .refl _ _
  have hbroken {u : State} (hu : Keeps (hscStatKey n) (hscGateOff s n) u) : Keeps (hscStatKey n) (hscGateOff s n) (broken u) :=
    .when hu (hscSet_keeps · n _)
  have hinvalid : Keeps (hscStatKey n) (hscGateOff s n) invalid := hrefl.setF_of (hscStatKey_other (by decide))
  rw [if_neg (by simp [hgate, c, hgen, p, hduty])]
  exact .ite (hbroken hrefl) (.ite (hbroken (hscSample_keepsStat hrefl _ code true))
    (.ite hinvalid (.ite (hscAverage_keepsStat hinvalid code) (hbroken hinvalid))))

theorem hscPulseEnd_off {s : State} (h : storeWf regReset s.regs = true) {n : Nat} (hgen : (hscGet s n).gen = true)
    (hgate : hscGate s n = true) (hduty : getF s (hscPage n) R.HSC.STAT.DEFF ≠ 4095) (code : BitVec 12) (enh served : Bool) :
    hscGate (hscPulseEnd s n code enh served) n = false ∧ (hscPulseEnd s n code enh served).applied = s.applied ∧
      (hscPulseEnd s n code enh served).mem = s.mem := by
  have hkeep := hscPulseEnd_keepsStat hgen hgate hduty code enh served
  have hword : rd (hscPulseEnd s n code enh served) (hscPage n) 0x110 = rd (hscGateOff s n) (hscPage n) 0x110 :=
    hkeep.rd_eq (setFlag_wf h) (by simp [hscStatKey])
  have hoff : hscGate (hscGateOff s n) n = false := isSet_setFlag_same h rfl (by decide)
  exact ⟨(congrArg (fun w => decide (fget w R.HSC.STAT.GATE ≠ 0)) hword).trans hoff, hkeep.config, hkeep.memory⟩

/-! ### Pulses of a half-bridge (R171, R178) -/

/-- STATE, SAFEACT, RFXACT, RUSED and PARKING follow; the other fields of the page stay. -/
theorem hbStat_keepsField {s t : State} {n : Nat} {f : Fld} (h : KeepsField (hbPage n) f s t)
    (hf : ∀ g ∈ [R.HB.STAT.STATE, R.HB.STAT.SAFEACT, R.HB.STAT.RFXACT, R.HB.STAT.RUSED, R.HB.STAT.PARKING], fieldsApart f g = true) :
    KeepsField (hbPage n) f s (hbStat t n) :=
  ((((h.setF (hf _ (by simp))).setFlag (hf _ (by simp))).setFlag (hf _ (by simp))).setF (hf _ (by simp))).setFlag (hf _ (by simp))

theorem hbGet_set_same {s : State} (h : storeWf (fun _ => HbSt.init) s.hb = true) (n : Nat) (c : HbSt) :
    hbGet (hbSet s n c) n = c := storeGet_set_same h

/-- STAT with the duty that the generator takes, and no limiter in the period. -/
def hbDutyShown (s : State) (n d : Nat) : State :=
  setFlag (setF s (hbPage n) R.HB.STAT.DEFF d) (hbPage n) R.HB.STAT.CLIM false

/-- The duty is shown with the state `c` beside the registers, and STAT follows. -/
def hbDriven (s : State) (n d : Nat) (c : HbSt) : State := hbStat (hbSet (hbDutyShown s n d) n c) n

theorem hbDriven_deff {s : State} (h : storeWf regReset s.regs = true) (n d : Nat) (c : HbSt) :
    getF (hbDriven s n d c) (hbPage n) R.HB.STAT.DEFF = d % 4096 := by
  have hshown : getF (hbDutyShown s n d) (hbPage n) R.HB.STAT.DEFF = d % 4096 :=
    (getF_setF_apart (setF_wf h) (by decide)).trans (getF_setF_same h (by decide) (by decide))
  have hset : KeepsField (hbPage n) R.HB.STAT.DEFF (hbDutyShown s n d) (hbSet (hbDutyShown s n d) n c) := (KeepsField.refl _ _ _).upd
  exact ((hbStat_keepsField hset (by decide)).field (setFlag_wf (setF_wf h))).trans hshown

theorem hbDriven_get {s : State} (h : storeWf (fun _ => HbSt.init) s.hb = true) (n d : Nat) (c : HbSt) :
    hbGet (hbDriven s n d c) n = c := by
  have hstore : (hbDriven s n d c).hb = storeSet (fun _ => HbSt.init) s.hb n c := by simp [hbDriven, hbStat, hbDutyShown]
  rw [hbGet, hstore]
  exact storeGet_set_same h

/-- The clock of its group at which the bridge's pulses start. -/
def hbClock (s : State) (n : Nat) : Bool :=
  grpClock s (cfg s (hbPage n) R.HB.CFG.FGRP) (cfg s (hbPage n) R.HB.CFG.PHASE * grpClocks (cfg s (hbPage n) R.HB.CFG.FGRP) / 4096)

/-- At another clock no pulse starts. -/
theorem hbPulseStart_idle {s : State} {n : Nat} (h : hbClock s n = false) : hbPulseStart s n = s := by
  simp only [hbClock] at h
  simp [hbPulseStart, h]

/-- At its clock the generator shows its duty and drives the switch: off without a duty; at full duty on, where the limiter does not
hold it; else with the remainder of its on-time carried on. -/
theorem hbPulseStart_drives {s : State} {n d : Nat} (hgen : (hbGet s n).gen = true) (hclock : hbClock s n = true)
    (hd : d = hbDeffOf s n (hbDemand s n).2.1) :
    ∃ c, hbPulseStart s n = hbDriven s n d c ∧ (d = 0 → c.gate = false) ∧
      (d = 4095 → c.gate = ((hbGet s n).gate ||
        !(isSet s (hbPage n) R.HB.STAT.CLIM && getF s (hbPage n) R.HB.STAT.DEFF = 4095))) ∧
      (d ≠ 0 → d ≠ 4095 → c.rem = (d * grpClocks (cfg s (hbPage n) R.HB.CFG.FGRP) + (hbGet s n).rem) % 4096) := by
  simp only [hbClock] at hclock
  unfold hbPulseStart
  simp only [hgen, hclock, Bool.not_true, Bool.or_self, Bool.false_eq_true, if_false]
  rw [← hd]
  by_cases h0 : d = 0
  · rw [if_pos h0]
    exact ⟨_, rfl, fun _ => rfl, fun h => by omega, fun h => absurd h0 h⟩
  rw [if_neg h0]
  by_cases h1 : d = 4095
  · rw [if_pos h1]
    exact ⟨_, rfl, fun h => absurd h h0, fun _ => rfl, fun _ h => absurd h1 h⟩
  rw [if_neg h1]
  exact ⟨_, rfl, fun h => absurd h h0, fun h => absurd h h1, fun _ _ => rfl⟩

/-- IMEAS with a sample of the bridge current. -/
def hbSampled (s : State) (n : Nat) (code : BitVec 12) (neg : Bool) : State :=
  setFlag (setFlag (setF s (hbPage n) R.HB.IMEAS.CODE code.toNat) (hbPage n) R.HB.IMEAS.VALID true) (hbPage n) R.HB.IMEAS.NEG neg

theorem hbSampled_code {s : State} (h : storeWf regReset s.regs = true) (n : Nat) (code : BitVec 12) (neg : Bool) :
    getF (hbSampled s n code neg) (hbPage n) R.HB.IMEAS.CODE = code.toNat := by
  have hcode : getF (setF s (hbPage n) R.HB.IMEAS.CODE code.toNat) (hbPage n) R.HB.IMEAS.CODE = code.toNat :=
    (getF_setF_same h (by decide) (by decide)).trans (Nat.mod_eq_of_lt code.isLt)
  exact (getF_setF_apart (setFlag_wf (setF_wf h)) (by decide)).trans ((getF_setF_apart (setF_wf h) (by decide)).trans hcode)

theorem hbSampled_neg {s : State} (h : storeWf regReset s.regs = true) (n : Nat) (code : BitVec 12) (neg : Bool) :
    isSet (hbSampled s n code neg) (hbPage n) R.HB.IMEAS.NEG = neg := isSet_setFlag_same (setFlag_wf (setF_wf h)) rfl (by decide)

/-- The end of a pulse turns the switch off, with a sample where slice 2 serves one. -/
theorem hbPulseEnd_eq {s : State} {n : Nat} (hgen : (hbGet s n).gen = true) (hgate : (hbGet s n).gate = true)
    (hduty : getF s (hbPage n) R.HB.STAT.DEFF ≠ 4095) (code : BitVec 12) (neg served : Bool) :
    hbPulseEnd s n code neg served =
      hbSet (if served && msqFresh s .hbCurrent then hbSampled s n code neg else s) n { hbGet s n with gate := false } := by
  unfold hbPulseEnd
  simp only [hgen, hgate, hduty, Bool.not_true, Bool.or_self, decide_false, Bool.false_eq_true, if_false]
  cases served <;> cases msqFresh s .hbCurrent <;> rfl

/-- Settles O19: a write is a plain write of CMD or DUTY; a pulse start and a pulse end through the lemma that says what they drive. -/
theorem hscWrites : Obligations.HscWrites := by
  intro s who n b v code enh neg served hcanon
  have hw := hcanon.regs
  have hlive := blkOf_hscPage n
  refine ⟨?cmd, ?set, ?clear, ?duty, ?start, ?pulseEnd, ?hbStart, ?hbEnd, ?idle, ?hbIdle⟩
  case cmd => exact fun hm => answers_hscCmd hw rfl hm (by decide) (by simp [liveWrite, hlive])
  case set =>
    intro hm
    rw [R.HSC.CMD.ON, R.HSC.CMD.STAYON, isSet_bit, isSet_bit, ← BitVec.getLsbD_or, ← BitVec.getLsbD_or]
    exact answers_hscCmd hw rfl hm (by decide) (by simp [liveWrite, hlive])
  case clear =>
    intro hm
    have hbit (i : Nat) (hi : i < 32) : (rd s (hscPage n.val) 0x100 &&& ~~~v).getLsbD i =
        ((rd s (hscPage n.val) 0x100).getLsbD i && !v.getLsbD i) := by simp [hi]
    rw [R.HSC.CMD.ON, R.HSC.CMD.STAYON, isSet_bit, isSet_bit, ← hbit 0 (by decide), ← hbit 1 (by decide)]
    exact answers_hscCmd hw rfl hm (by decide) (by simp [liveWrite, hlive])
  case duty =>
    exact fun hm => answers_hscWrite (reg := 0x10C) (w := v) rfl hm (by decide) (by simp [liveWrite, hlive])
      ⟨getF_plainWrite_duty hw n v, rfl, rfl⟩
  case start =>
    intro d o hr hgen hd hclock
    obtain ⟨c, on, hstart, hzero, hfull, hrem⟩ := hscPulseStart_drives hgen hclock hd
    refine .of_done (done_powered hr) ?_
    have hshown := hscDutyShown_wf hw n.val d
    simp only [hstart, hscDriven_gate n.val c on hshown, hscDriven_deff n.val c on hshown,
      hscDriven_rem (s := hscDutyShown s n.val d) n.val c on hcanon.hsc]
    exact ⟨hscDutyShown_deff hw n.val d, hzero, hfull, hrem⟩
  case pulseEnd => exact fun hr hgen hgate hduty => .of_done (done_powered hr) (hscPulseEnd_off hw hgen hgate hduty code enh served)
  case hbStart =>
    intro hr hgen hclock
    obtain ⟨c, hstart, hzero, hfull, hrem⟩ := hbPulseStart_drives hgen hclock rfl
    refine .of_done (done_powered hr) ?_
    simp only [hstart, hbDriven_deff hw, hbDriven_get hcanon.hb]
    exact ⟨trivial, hzero, hfull, hrem⟩
  case hbEnd =>
    intro hr hgen hgate hduty
    refine .of_done (done_powered hr) ?_
    simp only [hbPulseEnd_eq hgen hgate hduty]
    refine ⟨?switch, ?sample, ?config, ?memory⟩
    case switch => split <;> exact congrArg HbSt.gate (hbGet_set_same hcanon.hb _ _)
    case sample =>
      intro hserved hfresh
      simp only [hserved, hfresh, Bool.and_self, if_true]
      exact ⟨hbSampled_code hw b.val code neg, hbSampled_neg hw b.val code neg⟩
    case config => split <;> rfl
    case memory => split <;> rfl
  case idle =>
    intro hclock
    refine .of_done rfl ?_
    simp only [powered, hscPulseStart_idle hclock, ite_self]
  case hbIdle =>
    intro hclock
    refine .of_done rfl ?_
    simp only [powered, hbPulseStart_idle hclock, ite_self]

end Sys2Proof.Machine
end

section
/-! What the update of a protected output leaves of the retry states and the levels (06, R136 to R142): a trip, a latch, a release or a
restart writes the retry state, and everything that follows it keeps that. -/

-- One proof after another: side by side they start more threads than the memory limit of the check has room for.
set_option Elab.async false

namespace Sys2Proof.Machine

/-! ### The frame -/

/-- The stores that hold retry states are canonical. -/
structure OutputsCanon (s : State) : Prop where
  hsc : storeWf (fun _ => HscSt.init) s.hsc = true
  hb : storeWf (fun _ => HbSt.init) s.hb = true
  sol : storeWf (fun _ => SolSt.init) s.sol = true
  lst : storeWf (fun _ => LstSt.init) s.lst = true

theorem Canon.outputs {s : State} (h : Canon s) : OutputsCanon s := ⟨h.hsc, h.hb, h.sol, h.lst⟩

/-- From `s` to `t` every retry state stays as it is, with the level sources and the configuration in force; what waits for FLT waits
still, and the stores of the outputs are canonical. -/
structure KeepsProt (s t : State) : Prop where
  canon : OutputsCanon t
  hsc : ∀ n, (hscGet t n).prot = (hscGet s n).prot
  hb : ∀ n, (hbGet t n).prot = (hbGet s n).prot
  sol : ∀ n, (solGet t n).prot = (solGet s n).prot
  lst : ∀ n, (lstGet t n).prot = (lstGet s n).prot
  lmx : t.lmx.prot = s.lmx.prot
  level : t.flt.level = s.flt.level
  due : ∀ d ∈ s.due, d ∈ t.due
  config : t.applied = s.applied

namespace KeepsProt
variable {s t u : State}

theorem refl (h : OutputsCanon s) : KeepsProt s s :=
  ⟨h, fun _ => rfl, fun _ => rfl, fun _ => rfl, fun _ => rfl, rfl, rfl, fun _ => id, rfl⟩

theorem trans (h : KeepsProt s t) (h' : KeepsProt t u) : KeepsProt s u where
  canon := h'.canon
  hsc n := (h'.hsc n).trans (h.hsc n)
  hb n := (h'.hb n).trans (h.hb n)
  sol n := (h'.sol n).trans (h.sol n)
  lst n := (h'.lst n).trans (h.lst n)
  lmx := h'.lmx.trans h.lmx
  level := h'.level.trans h.level
  due d hd := h'.due d (h.due d hd)
  config := h'.config.trans h.config

/-- A source that asserts, with an update of other parts of the state. -/
theorem raised (h : KeepsProt s t) (l : List Due) (hsc : u.hsc = t.hsc := by rfl) (hb : u.hb = t.hb := by rfl)
    (hsol : u.sol = t.sol := by rfl) (hlst : u.lst = t.lst := by rfl) (hlmx : u.lmx.prot = t.lmx.prot := by rfl)
    (hlevel : u.flt.level = t.flt.level := by rfl) (hconfig : u.applied = t.applied := by rfl)
    (hdue : u.due = t.due ++ l := by rfl) : KeepsProt s u :=
  h.trans
    { canon := ⟨hsc ▸ h.canon.hsc, hb ▸ h.canon.hb, hsol ▸ h.canon.sol, hlst ▸ h.canon.lst⟩
      hsc := fun n => congrArg (fun m => (storeGet (fun _ => HscSt.init) m n).prot) hsc
      hb := fun n => congrArg (fun m => (storeGet (fun _ => HbSt.init) m n).prot) hb
      sol := fun n => congrArg (fun m => (storeGet (fun _ => SolSt.init) m n).prot) hsol
      lst := fun n => congrArg (fun m => (storeGet (fun _ => LstSt.init) m n).prot) hlst
      lmx := hlmx
      level := hlevel
      due := fun d hd => by rw [hdue]; exact List.mem_append_left l hd
      config := hconfig }

/-- An update of other parts of the state. -/
theorem upd (h : KeepsProt s t) (hsc : u.hsc = t.hsc := by rfl) (hb : u.hb = t.hb := by rfl) (hsol : u.sol = t.sol := by rfl)
    (hlst : u.lst = t.lst := by rfl) (hlmx : u.lmx.prot = t.lmx.prot := by rfl) (hlevel : u.flt.level = t.flt.level := by rfl)
    (hconfig : u.applied = t.applied := by rfl) (hdue : u.due = t.due := by rfl) : KeepsProt s u :=
  h.raised [] hsc hb hsol hlst hlmx hlevel hconfig (hdue.trans (List.append_nil _).symm)

theorem wr (h : KeepsProt s t) {p off : Nat} {w : Word} : KeepsProt s (wr t p off w) := h.upd

theorem setF (h : KeepsProt s t) {p : Nat} {f : Fld} {v : Nat} : KeepsProt s (setF t p f v) := h.wr

theorem setFlag (h : KeepsProt s t) {p : Nat} {f : Fld} {b : Bool} : KeepsProt s (setFlag t p f b) := h.wr

theorem ite {c : Prop} {_ : Decidable c} (h : KeepsProt s t) (h' : KeepsProt s u) : KeepsProt s (if c then t else u) := by
  split
  · exact h
  · exact h'

/-- A step that is taken or left out. -/
theorem when {c : Prop} {_ : Decidable c} (h : KeepsProt s t) (hu : KeepsProt s t → KeepsProt s u) :
    KeepsProt s (if c then u else t) := .ite (hu h) h

/-- What each step of a fold keeps, the fold keeps. -/
theorem foldl {α : Type} {f : State → α → State} {l : List α} (h : KeepsProt s t)
    (hf : ∀ u, KeepsProt s u → ∀ a ∈ l, KeepsProt s (f u a)) : KeepsProt s (l.foldl f t) :=
  List.foldlRecOn l f h hf

theorem get (h : KeepsProt s t) (o : ProtOut) : protGet t o = protGet s o := by
  cases o with
  | hsc n => exact h.hsc n
  | hb n => exact h.hb n
  | sol n => exact h.sol n
  | sbk => rfl
  | lst n => exact h.lst n
  | lmx => exact h.lmx
  | lfa a => rfl

end KeepsProt

section
variable {s t : State} (h : KeepsProt s t)
include h

theorem touch_keepsProt : KeepsProt s (touch t) := h.upd

theorem raiseP_keepsProt (p b : Nat) : KeepsProt s (raiseP t p b) := h.raised _

/-- The state of a channel with its retry state as it is. -/
theorem hscSet_keepsProt (n : Nat) (c : HscSt) (hc : c.prot = (hscGet t n).prot := by rfl) : KeepsProt s (hscSet t n c) := by
  refine h.trans { KeepsProt.refl h.canon with canon := { h.canon with hsc := storeSet_wf h.canon.hsc }, hsc := fun m => ?_ }
  rcases eq_or_ne m n with rfl | hm
  · exact (congrArg HscSt.prot (storeGet_set_same h.canon.hsc)).trans hc
  · exact congrArg HscSt.prot (storeGet_set_ne h.canon.hsc hm)

/-- The state of a half-bridge with its retry state as it is. -/
theorem hbSet_keepsProt (n : Nat) (c : HbSt) (hc : c.prot = (hbGet t n).prot := by rfl) : KeepsProt s (hbSet t n c) := by
  refine h.trans { KeepsProt.refl h.canon with canon := { h.canon with hb := storeSet_wf h.canon.hb }, hb := fun m => ?_ }
  rcases eq_or_ne m n with rfl | hm
  · exact (congrArg HbSt.prot (storeGet_set_same h.canon.hb)).trans hc
  · exact congrArg HbSt.prot (storeGet_set_ne h.canon.hb hm)

/-- The state of a valve with its retry state as it is. -/
theorem solSet_keepsProt (n : Nat) (c : SolSt) (hc : c.prot = (solGet t n).prot := by rfl) : KeepsProt s (solSet t n c) := by
  refine h.trans { KeepsProt.refl h.canon with canon := { h.canon with sol := storeSet_wf h.canon.sol }, sol := fun m => ?_ }
  rcases eq_or_ne m n with rfl | hm
  · exact (congrArg SolSt.prot (storeGet_set_same h.canon.sol)).trans hc
  · exact congrArg SolSt.prot (storeGet_set_ne h.canon.sol hm)

/-- The state of a string with its retry state as it is. -/
theorem lstSet_keepsProt (n : Nat) (c : LstSt) (hc : c.prot = (lstGet t n).prot := by rfl) : KeepsProt s (lstSet t n c) := by
  refine h.trans { KeepsProt.refl h.canon with canon := { h.canon with lst := storeSet_wf h.canon.lst }, lst := fun m => ?_ }
  rcases eq_or_ne m n with rfl | hm
  · exact (congrArg LstSt.prot (storeGet_set_same h.canon.lst)).trans hc
  · exact congrArg LstSt.prot (storeGet_set_ne h.canon.lst hm)

/-! ### Event lines -/

theorem pendLine_keepsProt (p k : Nat) : KeepsProt s (pendLine t p k) := .ite h.wr h.wr

theorem lineMerge_keepsProt (k : Nat) : KeepsProt s (lineMerge t k) :=
  have hw := h.wr (p := 0x0E)
  .ite hw (hw.raised _)

theorem tbsEventCapture_keepsProt (k : Nat) : KeepsProt s (tbsEventCapture t k) := by
  unfold tbsEventCapture
  exact .ite h (KeepsProt.when h (·.setFlag)).setF.setF.setFlag

theorem dmaTrigger_keepsProt (c : Nat) : KeepsProt s (dmaTrigger t c) := by
  have hbegin : KeepsProt s (dmaTrigger.dmaBegin t c) := h.upd
  unfold dmaTrigger
  exact .ite (.ite (raiseP_keepsProt h.setFlag _ _) h.upd) (.ite (KeepsProt.ite h hbegin).setFlag.setFlag h)

theorem raiseLine_keepsProt (k : Nat) : KeepsProt s (raiseLine t k) := by
  have hmerge := lineMerge_keepsProt h k
  unfold raiseLine
  refine .ite h (.ite (.ite hmerge h.upd) (.ite hmerge (.foldl (tbsEventCapture_keepsProt (.foldl (.when h (·.upd)) ?pend) k) ?dma)))
  case pend => exact fun u hu p _ => pendLine_keepsProt hu p k
  case dma => exact fun u hu c _ => .when hu (dmaTrigger_keepsProt · c)

/-! ### High-side channels and half-bridges -/

theorem hscNoDuty_keepsProt (n : Nat) : KeepsProt s (hscNoDuty t n) := h.setF.setFlag

theorem hscGateOff_keepsProt (n : Nat) : KeepsProt s (hscGateOff t n) := (hscSet_keepsProt h n _).setFlag

theorem hscGateOn_keepsProt (n : Nat) : KeepsProt s (hscGateOn t n) := (hscSet_keepsProt h n _).setFlag

theorem hscStop_keepsProt (n : Nat) : KeepsProt s (hscStop t n) :=
  hscNoDuty_keepsProt (hscGateOff_keepsProt (hscSet_keepsProt h n _) n) n

theorem hscStart_keepsProt (n : Nat) (d : Demand) : KeepsProt s (hscStart t n d) := by
  cases d with
  | none => exact hscStop_keepsProt h n
  | full => exact hscGateOn_keepsProt (hscSet_keepsProt h n _) n
  | gen _ => exact hscSet_keepsProt h n _

theorem diagSet_keepsProt (n res : Nat) : KeepsProt s (diagSet t n res) := (hscSet_keepsProt h n _).setF

theorem hscStat_keepsProt (n : Nat) : KeepsProt s (hscStat t n) := h.setF.setFlag.setFlag.setF

theorem hscUpdate_keepsProt (n : Nat) : KeepsProt s (hscUpdate t n) := by
  have hs : KeepsProt s (hscSafeLatch t n) := .when h fun h => (hscSet_keepsProt h n _).setFlag
  have hcheck {u : State} (hu : KeepsProt s u) : KeepsProt s (hscStat (hscCheckEnd u n) n) :=
    hscStat_keepsProt (.when hu fun hu => hscSet_keepsProt hu n _) n
  unfold hscUpdate
  refine hcheck (.ite (.when hs (hscStop_keepsProt · n)) (.ite (hscStart_keepsProt hs n _) ?_))
  split
  · exact .ite (hscGateOn_keepsProt (hscNoDuty_keepsProt (hscSet_keepsProt hs n _) n) n) (.when hs fun hs => hscSet_keepsProt hs n _)
  · exact .ite hs (hscGateOff_keepsProt (hscStart_keepsProt hs n _) n)
  · exact hs

theorem hbNoDuty_keepsProt (n : Nat) : KeepsProt s (hbNoDuty t n) := h.setF.setFlag

theorem hbStop_keepsProt (n : Nat) : KeepsProt s (hbStop t n) := hbNoDuty_keepsProt (hbSet_keepsProt h n _) n

theorem hbBrake_keepsProt (n act : Nat) : KeepsProt s (hbBrake t n act) := hbNoDuty_keepsProt (hbSet_keepsProt h n _) n

theorem hbTake_keepsProt (n act : Nat) : KeepsProt s (hbTake t n act) := by
  have hrun : KeepsProt s (if (hbGet t n).gen then t else hbNoDuty t n) := .ite h (hbNoDuty_keepsProt h n)
  unfold hbTake
  refine .ite (hbStop_keepsProt h n) (.ite (hbSet_keepsProt hrun n _ ?_).setFlag (hbBrake_keepsProt h n act))
  split <;> rfl

theorem hbUpdate_keepsProt (n : Nat) : KeepsProt s (hbUpdate t n) := by
  have hstat {u : State} (hu : KeepsProt s u) : KeepsProt s (hbStat u n) := hu.setF.setFlag.setFlag.setF.setFlag
  have hlatch : KeepsProt s (hbSafeLatch t n) := .when h fun h => (hbSet_keepsProt h n _).setFlag
  unfold hbUpdate
  refine hstat (.ite (.ite (hbStop_keepsProt ?ended n) ?ended)
    (.ite (.ite ?ended (hbBrake_keepsProt (hbSet_keepsProt ?ended n _) n 3)) (.ite ?ended (hbTake_keepsProt ?ended n _))))
  exact .when hlatch fun h => hbSet_keepsProt h n _

/-! ### Valves and their banks -/

theorem solStat_keepsProt (n : Nat) : KeepsProt s (solStat t n) := h.setF.setFlag.setFlag.setF

theorem solResult_keepsProt (n r : Nat) : KeepsProt s (solResult t n r) := .when h (·.setF)

omit h in
theorem solGet_solResult (n r m : Nat) : solGet (solResult t n r) m = solGet t m := by
  unfold solResult
  split <;> rfl

theorem bankUnqueue_keepsProt (n : Nat) : KeepsProt s (bankUnqueue t n) := by
  unfold bankUnqueue
  exact solSet_keepsProt h.upd n _

theorem bankUpdate_keepsProt (b : Nat) : KeepsProt s (bankUpdate t b) := by
  unfold bankUpdate
  refine .foldl h.setFlag.setF.setF fun u hu n _ => ?_
  have hshown : KeepsProt s (setFlag u (solPage n) R.SOL.STAT.BVST (bankWants t b)) := hu.setFlag
  refine .ite hshown ?_
  split
  · exact solSet_keepsProt hshown n _
  · exact solStat_keepsProt (solResult_keepsProt (solSet_keepsProt hshown n _) n 3) n
  · exact hshown

theorem solBoost_keepsProt (n : Nat) : KeepsProt s (solBoost t n) := by
  unfold solBoost
  refine bankUpdate_keepsProt (.when (KeepsProt.setFlag (KeepsProt.setFlag (solSet_keepsProt h n _))) (.foldl · fun u hu m _ => ?_)) _
  exact solStat_keepsProt hu.setFlag m

theorem solLeaveBoost_keepsProt (n dur ipk : Nat) : KeepsProt s (solLeaveBoost t n dur ipk) := by
  unfold solLeaveBoost
  extract_lets p b shown left
  have hleft : KeepsProt s left := raiseLine_keepsProt (h.setF.setF.setFlag) _
  split
  · next m _ =>
    exact .ite (solStat_keepsProt (solBoost_keepsProt (bankUnqueue_keepsProt hleft m) m) m) (bankUpdate_keepsProt hleft _)
  · exact bankUpdate_keepsProt hleft _

theorem solEnd_keepsProt (n : Nat) : KeepsProt s (solEnd t n) := by
  unfold solEnd solDecay
  extract_lets u c
  have hunqueued : KeepsProt s u := .when h fun h => bankUpdate_keepsProt (bankUnqueue_keepsProt h n) _
  split
  · have hoff := solSet_keepsProt hunqueued n { c with phase := .decay, gate := false, shared := false, fast := false }
    exact solLeaveBoost_keepsProt hoff.upd n _ _
  · exact bankUpdate_keepsProt (solSet_keepsProt hunqueued n _) _
  · exact hunqueued

theorem solRequest_keepsProt (n : Nat) : KeepsProt s (solRequest t n) := by
  have hqueued (c : SbkSt) : KeepsProt s { t with sbk := c } := h.upd
  unfold solRequest
  exact .ite h (.ite (bankUpdate_keepsProt (solSet_keepsProt (hqueued _).setF n _) _) (solBoost_keepsProt h n))

theorem solNew_keepsProt (n : Nat) (trig : Bool) : KeepsProt s (solNew t n trig) := by
  unfold solNew
  extract_lets p c ended set
  have hended : KeepsProt s ended := .when h (solResult_keepsProt · n 5)
  have hsame : solGet ended n = solGet t n := by
    simp only [ended]
    split
    · exact solGet_solResult n 5 n
    · rfl
  have hset : KeepsProt s set := solSet_keepsProt hended n _ (congrArg SolSt.prot hsame).symm
  exact .ite h (.ite hset (solRequest_keepsProt hset n))

theorem solUpdate_keepsProt (n : Nat) : KeepsProt s (solUpdate t n) := by
  have hset (level rfx : Bool) : KeepsProt s (solSet t n { solGet t n with level := level, rfx := rfx }) := solSet_keepsProt h n _
  unfold solUpdate
  exact solStat_keepsProt (.ite (solNew_keepsProt (hset _ _) n false) (.ite (hset _ _) (.when (hset _ _) (solEnd_keepsProt · n)))) n

theorem sbkStat_keepsProt : KeepsProt s (sbkStat t) := h.setFlag

/-! ### Strings and the matrix -/

theorem lstUpdate_keepsProt (n : Nat) : KeepsProt s (lstUpdate t n) := by
  have hstat {u : State} (hu : KeepsProt s u) : KeepsProt s (lstStat u n) := hu.setF.setFlag.setFlag.setF
  unfold lstUpdate
  refine hstat (.ite (.ite ?latched (KeepsProt.setFlag (KeepsProt.setF (lstSet_keepsProt ?latched n _))))
    (.ite (.ite (lstSet_keepsProt ?latched n _) (lstSet_keepsProt ?latched n _)) (lstSet_keepsProt ?latched n _)))
  exact .when h fun h => lstSet_keepsProt h n _

theorem lmxUpdate_keepsProt : KeepsProt s (lmxUpdate t) := by
  have hset {u : State} (hu : KeepsProt s u) (c : LmxSt) (hc : c.prot = u.lmx.prot) : KeepsProt s { u with lmx := c } := hu.upd (hlmx := hc)
  have hstat {u : State} (hu : KeepsProt s u) : KeepsProt s (lmxStat u) := hu.setF.setFlag.setF
  unfold lmxUpdate
  extract_lets c latched
  have hlatched : KeepsProt s latched := .when h fun h => hset h _ rfl
  exact hstat (hset hlatched _ rfl)

/-- The output follows, whatever its kind. -/
theorem protUpdate_keepsProt (o : ProtOut) : KeepsProt s (protUpdate t o) := by
  cases o with
  | hsc n => exact hscUpdate_keepsProt h n
  | hb n => exact hbUpdate_keepsProt h n
  | sol n => exact bankUpdate_keepsProt (solUpdate_keepsProt h n) _
  | sbk => exact sbkStat_keepsProt h
  | lst n => exact lstUpdate_keepsProt h n
  | lmx => exact lmxUpdate_keepsProt h
  | lfa a => exact h

end

end Sys2Proof.Machine
end

section
/-! Trips, latches, releases and restarts of the protected outputs (06, R110, R130, R133 to R141). -/

-- One proof after another: side by side they start more threads than the memory limit of the check has room for.
set_option Elab.async false

namespace Sys2Proof.Machine

/-! ### The retry state of an output -/

/-- The output has retries; SBK and LFA have none (R139). -/
def hasRetries : ProtOut → Bool
  | .sbk | .lfa _ => false
  | _ => true

theorem hasRetries_of_ne {o : ProtOut} (hlfa : ∀ a, o ≠ .lfa a) (hsbk : o ≠ .sbk) : hasRetries o = true := by
  cases o with
  | lfa a => exact absurd rfl (hlfa a)
  | sbk => exact absurd rfl hsbk
  | _ => rfl

/-- Without retries the retry state reads as at reset. -/
theorem protGet_of_not_hasRetries {o : ProtOut} (ho : hasRetries o = false) (s : State) : protGet s o = Prot.init := by
  cases o with
  | sbk | lfa => rfl
  | _ => cases ho

/-- Where the retry state differs from the one at reset, there is one. -/
theorem hasRetries_of_get {s : State} {o : ProtOut} (h : protGet s o ≠ Prot.init) : hasRetries o = true :=
  Bool.of_not_eq_false fun ho => h (protGet_of_not_hasRetries ho s)

theorem hasRetries_protOwner (s : State) (o : ProtOut) : hasRetries (protOwner s o) = hasRetries o := by
  cases o with
  | hb n => simp only [protOwner]; split <;> rfl
  | _ => rfl

section
variable {s : State} (o : ProtOut) (c : Prot)

@[simp] theorem protSet_flt : (protSet s o c).flt = s.flt := by cases o <;> rfl

@[simp] theorem protSet_due : (protSet s o c).due = s.due := by cases o <;> rfl

@[simp] theorem protOwner_protSet (x : ProtOut) : protOwner (protSet s o c) x = protOwner s x := by cases o <;> rfl

theorem protSet_outputs (h : OutputsCanon s) : OutputsCanon (protSet s o c) := by
  cases o with
  | hsc n => exact { h with hsc := storeSet_wf h.hsc }
  | hb n => exact { h with hb := storeSet_wf h.hb }
  | sol n => exact { h with sol := storeSet_wf h.sol }
  | lst n => exact { h with lst := storeSet_wf h.lst }
  | lmx => exact ⟨h.hsc, h.hb, h.sol, h.lst⟩
  | sbk | lfa => exact h

theorem protGet_protSet_same (h : OutputsCanon s) (ho : hasRetries o = true) : protGet (protSet s o c) o = c := by
  cases o with
  | hsc n => exact congrArg HscSt.prot (storeGet_set_same h.hsc)
  | hb n => exact congrArg HbSt.prot (storeGet_set_same h.hb)
  | sol n => exact congrArg SolSt.prot (storeGet_set_same h.sol)
  | lst n => exact congrArg LstSt.prot (storeGet_set_same h.lst)
  | lmx => rfl
  | sbk | lfa => cases ho

theorem protGet_protSet_ne {x : ProtOut} (h : OutputsCanon s) (hx : x ≠ o) : protGet (protSet s o c) x = protGet s x := by
  cases o with
  | hsc n => cases x with
    | hsc m => exact congrArg HscSt.prot (storeGet_set_ne h.hsc (Fin.val_ne_of_ne fun e => hx (congrArg _ e)))
    | _ => rfl
  | hb n => cases x with
    | hb m => exact congrArg HbSt.prot (storeGet_set_ne h.hb (Fin.val_ne_of_ne fun e => hx (congrArg _ e)))
    | _ => rfl
  | sol n => cases x with
    | sol m => exact congrArg SolSt.prot (storeGet_set_ne h.sol (Fin.val_ne_of_ne fun e => hx (congrArg _ e)))
    | _ => rfl
  | lst n => cases x with
    | lst m => exact congrArg LstSt.prot (storeGet_set_ne h.lst (Fin.val_ne_of_ne fun e => hx (congrArg _ e)))
    | _ => rfl
  | lmx => cases x with
    | lmx => exact absurd rfl hx
    | _ => rfl
  | sbk | lfa => rfl

end

/-- What keeps the retry states after `c` has been written to `o` reads `c` there. -/
theorem KeepsProt.get_set {s u : State} {o : ProtOut} {c : Prot} (hu : KeepsProt (protSet s o c) u) (h : OutputsCanon s)
    (ho : hasRetries o = true) : protGet u o = c :=
  (hu.get o).trans (protGet_protSet_same o c h ho)

/-! ### Events -/

/-- From `s` to `u` an event of `o` has begun, unless it came during a slew-controlled turn-off: the retry state of `o` is `c`, with
the latches as they were. -/
structure EventOf (s u : State) (o : ProtOut) (c : Prot) : Prop where
  keeps : KeepsProt (protSet s o c) u
  latchT : c.latchT = (protGet s o).latchT
  latchD : c.latchD = (protGet s o).latchD
  trips : (protGet s o).slewOff = false → c.tripped = true ∧ c.rdly = true

/-- The retry state that an event leaves (R137, R139). -/
def protAfter (s : State) (o : ProtOut) (slew : Bool) : Prot :=
  let c := protGet s o
  { c with lockout := c.lockout || decide (protRetry s o ≤ c.rused), tripped := true, rdly := true, slewOff := slew && !c.tripped }

theorem protEvent_keepsProt {s : State} (h : OutputsCanon s) (o : ProtOut) (slew : Bool) :
    KeepsProt (protSet s o (protAfter s o slew)) (protEvent s o slew) := by
  have hset := KeepsProt.refl (protSet_outputs o (protAfter s o slew) h)
  unfold protEvent
  refine touch_keepsProt (protUpdate_keepsProt (.when ?ends (raiseP_keepsProt · _ _)) o)
  split
  · exact diagSet_keepsProt (hscSet_keepsProt hset _ _) _ 4
  · exact bankUnqueue_keepsProt hset _
  · exact hset

/-- The free value that decides whether a turn-off still runs changes no retry state. -/
theorem protSet_freshNat_keepsProt {s : State} (h : OutputsCanon s) (o : ProtOut) (c : Prot) :
    KeepsProt (protSet s o c) (protSet (freshNat s 2).1 o c) := by
  have hset := KeepsProt.refl (protSet_outputs o c h)
  cases o <;> exact hset.upd

theorem protNew_eq_protEvent {s : State} {o : ProtOut} (hoff : (protGet s o).slewOff = false) (slew : Bool) :
    protNew s o slew = protEvent s o slew := if_pos (by simp [hoff])

theorem protNew_eventOf {s : State} (h : OutputsCanon s) (o : ProtOut) (slew : Bool) : ∃ c, EventOf s (protNew s o slew) o c := by
  have hget : protGet (freshNat s 2).1 o = protGet s o := by cases o <;> rfl
  simp only [protNew]
  split
  · exact ⟨protAfter s o slew, protEvent_keepsProt h o slew, rfl, rfl, fun _ => ⟨rfl, rfl⟩⟩
  · next hslew =>
    have habsurd {P : Prop} (hoff : (protGet s o).slewOff = false) : P := absurd (by simp [hoff]) hslew
    split
    · have hfresh : OutputsCanon (freshNat s 2).1 := ⟨h.hsc, h.hb, h.sol, h.lst⟩
      exact ⟨protAfter (freshNat s 2).1 o slew, (protSet_freshNat_keepsProt h o _).trans (protEvent_keepsProt hfresh o slew),
        (congrArg Prot.latchT hget :), (congrArg Prot.latchD hget :), habsurd⟩
    · exact ⟨{ protGet s o with slewOff := false }, touch_keepsProt (protUpdate_keepsProt (protSet_freshNat_keepsProt h o _) o), rfl, rfl, habsurd⟩

/-- From `s` to `u` every latch stays, with the level sources; what waits for FLT waits still. -/
structure KeepsLatch (s u : State) : Prop where
  latchT : ∀ x, (protGet u x).latchT = (protGet s x).latchT
  latchD : ∀ x, (protGet u x).latchD = (protGet s x).latchD
  level : u.flt.level = s.flt.level
  due : ∀ d ∈ s.due, d ∈ u.due

theorem KeepsProt.keepsLatch {s u : State} (h : KeepsProt s u) : KeepsLatch s u :=
  ⟨fun x => congrArg Prot.latchT (h.get x), fun x => congrArg Prot.latchD (h.get x), h.level, h.due⟩

theorem EventOf.keepsLatch {s u : State} {o : ProtOut} {c : Prot} (hu : EventOf s u o c) (h : OutputsCanon s) : KeepsLatch s u := by
  have hget (x : ProtOut) : (protGet u x).latchT = (protGet s x).latchT ∧ (protGet u x).latchD = (protGet s x).latchD := by
    rcases eq_or_ne x o with rfl | hx
    · rcases Bool.eq_false_or_eq_true (hasRetries x) with hr | hr
      · rw [hu.keeps.get_set h hr]
        exact ⟨hu.latchT, hu.latchD⟩
      · simp [protGet_of_not_hasRetries hr]
    · simp [hu.keeps.get x, protGet_protSet_ne o c h hx]
  exact ⟨fun x => (hget x).1, fun x => (hget x).2, by simpa using hu.keeps.level, by simpa using hu.keeps.due⟩

/-! ### Trips -/

/-- A trip event of an output with retries asserts its source and turns the output off, unless a slew-controlled turn-off runs (R136,
R137). -/
theorem protTrip_trips {s : State} (h : OutputsCanon s) {o : ProtOut} (ho : hasRetries o = true)
    (hslew : (protGet s (protOwner s o)).slewOff = false) (b : Nat) (det : List Byte) :
    Raises (protTrip s o b det) (protPage (protOwner s o) * 8 + b) ∧
      (protGet (protTrip s o b det) (protOwner s o)).tripped = true ∧ (protGet (protTrip s o b det) (protOwner s o)).rdly = true := by
  let raised := raiseDetail s (protPage (protOwner s o) * 8 + b) det
  have hraised : OutputsCanon raised := ⟨h.hsc, h.hb, h.sol, h.lst⟩
  have hget : protGet raised (protOwner s o) = protGet s (protOwner s o) := by cases protOwner s o <;> rfl
  obtain ⟨c, hevent⟩ := protNew_eventOf hraised (protOwner s o) (protSlew (protOwner s o) b)
  have hraises : Raises raised (protPage (protOwner s o) * 8 + b) := ⟨⟨_, false, det⟩, by simp [raised, raiseDetail], rfl⟩
  obtain ⟨d, hd, hid⟩ := hraises
  refine ⟨⟨d, (hevent.keepsLatch hraised).due d hd, hid⟩, ?_⟩
  rw [protTrip, hevent.keeps.get_set hraised ((hasRetries_protOwner s o).trans ho)]
  exact hevent.trips ((congrArg Prot.slewOff hget).trans hslew)

/-- The outputs with a hard-short comparator are those with retries but the matrix (R133). -/
theorem protShort_eq_protTrip {o : ProtOut} (ho : hasRetries o = true) (hlmx : o ≠ .lmx) (s : State) : protShort s o = protTrip s o 0 [] := by
  cases o with
  | lmx => exact absurd rfl hlmx
  | sbk | lfa => cases ho
  | _ => rfl

/-! ### Latches -/

section
variable {s : State} {o : ProtOut} (ho : hasRetries o = true)
include ho

theorem thermalLatch_eq (hl : (protGet s o).latchT = false) : thermalLatch s o = protLatch s o 2 := by
  cases o with
  | sbk | lfa => cases ho
  | _ => exact if_neg (by simp [hl])

theorem deltaLatch_eq (hl : (protGet s o).latchD = false) : deltaLatch s o = protLatch s o 3 := by
  cases o with
  | sbk | lfa => cases ho
  | _ => exact if_neg (by simp [hl])

theorem thermalRelease_eq (hl : (protGet s o).latchT = true) : thermalRelease s o = protRelease s o 2 := by
  cases o with
  | sbk | lfa => cases ho
  | _ => exact if_pos hl

theorem deltaRelease_eq (hl : (protGet s o).latchD = true) : deltaRelease s o = protRelease s o 3 := by
  cases o with
  | sbk | lfa => cases ho
  | _ => exact if_pos hl

end

/-- A level source that does not stand asserts (R543). -/
theorem assertLevel_asserts {s : State} {id : Nat} (h : s.flt.level.contains id = false) :
    (assertLevel s id).flt.level.contains id = true ∧ Raises (assertLevel s id) id := by
  rw [assertLevel, if_neg (by simpa using h)]
  exact ⟨by simp [raise], ⟨id, false, []⟩, by simp [raise], rfl⟩

/-- A level source that asserts changes no retry state. -/
theorem assertLevel_protGet (s : State) (id : Nat) (x : ProtOut) :
    protGet (assertLevel s id) x = protGet s x ∧ protOwner (assertLevel s id) x = protOwner s x := by
  unfold assertLevel
  split
  · exact ⟨rfl, rfl⟩
  · cases x <;> exact ⟨rfl, rfl⟩

theorem assertLevel_outputs {s : State} (h : OutputsCanon s) (id : Nat) : OutputsCanon (assertLevel s id) := by
  unfold assertLevel
  split
  · exact h
  · exact ⟨h.hsc, h.hb, h.sol, h.lst⟩

/-- The latch of bit `b`: 2 TLATCH, 3 DTEMP. -/
def protLatchBit (b : Nat) (c : Prot) : Bool := if b = 2 then c.latchT else c.latchD

/-- The latch of bit `b` as `v`, the rest of the retry state as it is. -/
def protWithLatch (b : Nat) (v : Bool) (c : Prot) : Prot := if b = 2 then { c with latchT := v } else { c with latchD := v }

theorem protLatchBit_withLatch (b : Nat) (v : Bool) (c : Prot) : protLatchBit b (protWithLatch b v c) = v := by
  unfold protLatchBit protWithLatch
  split <;> rfl

theorem protWithLatch_slewOff (b : Nat) (v : Bool) (c : Prot) : (protWithLatch b v c).slewOff = c.slewOff := by
  unfold protWithLatch
  split <;> rfl

theorem KeepsLatch.bit {s u : State} (h : KeepsLatch s u) (b : Nat) (x : ProtOut) : protLatchBit b (protGet u x) = protLatchBit b (protGet s x) := by
  unfold protLatchBit
  rw [h.latchT, h.latchD]

/-- The state in which a latch has been set, before its event. -/
def protLatchSet (s : State) (o : ProtOut) (b : Nat) : State :=
  assertLevel (protSet s o (protWithLatch b true (protGet s o))) (protPage o * 8 + b)

/-- A latch event of its output, or of the primary of its pair, but for a second one while a latch holds (R134 to R136). -/
theorem protLatch_eq (s : State) (o : ProtOut) (b : Nat) : protLatch s o b =
    if (protLatched s o || decide ((protForce s o &&& 0x0C) ≠ 0)) = true then protUpdate (protLatchSet s o b) (protOwner s o)
    else protNew (protLatchSet s o b) (protOwner s o) false := by
  have howner : protOwner (protLatchSet s o b) o = protOwner s o := by
    rw [protLatchSet, (assertLevel_protGet _ _ o).2, protOwner_protSet]
  rw [← howner]
  rfl

section
variable {s : State} (h : OutputsCanon s) {o : ProtOut} (ho : hasRetries o = true) (b : Nat)
include h

theorem protLatchSet_outputs : OutputsCanon (protLatchSet s o b) := assertLevel_outputs (protSet_outputs o _ h) _

/-- Setting a latch leaves a slew-controlled turn-off as it is. -/
theorem protLatchSet_slewOff (x : ProtOut) : (protGet (protLatchSet s o b) x).slewOff = (protGet s x).slewOff := by
  rw [protLatchSet, (assertLevel_protGet _ _ x).1]
  rcases eq_or_ne x o with rfl | hx
  · rcases Bool.eq_false_or_eq_true (hasRetries x) with hr | hr
    · rw [protGet_protSet_same x _ h hr, protWithLatch_slewOff]
    · simp [protGet_of_not_hasRetries hr]
  · rw [protGet_protSet_ne o _ h hx]

/-- Whether a latch event is new or not, the latches stay as it has set them. -/
theorem protLatch_keepsLatch : KeepsLatch (protLatchSet s o b) (protLatch s o b) := by
  have hset := protLatchSet_outputs h (o := o) b
  rw [protLatch_eq]
  split
  · exact (protUpdate_keepsProt (.refl hset) _).keepsLatch
  · obtain ⟨c, hevent⟩ := protNew_eventOf hset (protOwner s o) false
    exact hevent.keepsLatch hset

include ho

/-- A latch event holds its level source (R134, R135). -/
theorem protLatch_latches (hlevel : s.flt.level.contains (protPage o * 8 + b) = false) :
    protLatchBit b (protGet (protLatch s o b) o) = true ∧ (protLatch s o b).flt.level.contains (protPage o * 8 + b) = true ∧
      Raises (protLatch s o b) (protPage o * 8 + b) := by
  have hkeeps := protLatch_keepsLatch h (o := o) b
  obtain ⟨hcontains, d, hd, hid⟩ := assertLevel_asserts
    (s := protSet s o (protWithLatch b true (protGet s o))) (id := protPage o * 8 + b) (by simpa using hlevel)
  refine ⟨?_, hkeeps.level ▸ hcontains, d, hkeeps.due d hd, hid⟩
  rw [hkeeps.bit, protLatchSet, (assertLevel_protGet _ _ o).1, protGet_protSet_same o _ h ho, protLatchBit_withLatch]

/-- The first latch event trips the output, or the pair (R136, R180). -/
theorem protLatch_trips (hlatched : protLatched s o = false) (hforce : (protForce s o &&& 0x0C) = 0)
    (hslew : (protGet s (protOwner s o)).slewOff = false) : (protGet (protLatch s o b) (protOwner s o)).tripped = true := by
  have hset := protLatchSet_outputs h (o := o) b
  obtain ⟨c, hevent⟩ := protNew_eventOf hset (protOwner s o) false
  rw [protLatch_eq, if_neg (by simp [hlatched, hforce]), hevent.keeps.get_set hset ((hasRetries_protOwner s o).trans ho)]
  exact (hevent.trips ((protLatchSet_slewOff h b _).trans hslew)).1

/-- A release ends its latch and its level source (R134, R135). -/
theorem protRelease_releases : protLatchBit b (protGet (protRelease s o b) o) = false ∧
    (protRelease s o b).flt.level.contains (protPage o * 8 + b) = false := by
  let released := releaseLevel (protSet s o (protWithLatch b false (protGet s o))) (protPage o * 8 + b)
  obtain ⟨hhsc, hhb, hsol, hlst⟩ := protSet_outputs o (protWithLatch b false (protGet s o)) h
  have hkeeps : KeepsProt released (protRelease s o b) :=
    touch_keepsProt (protUpdate_keepsProt (.refl (s := released) ⟨hhsc, hhb, hsol, hlst⟩) _)
  have hget : protGet released o = protGet (protSet s o (protWithLatch b false (protGet s o))) o := by cases o <;> rfl
  refine ⟨?_, hkeeps.level ▸ releaseLevel_contains _ _⟩
  rw [hkeeps.get, hget, protGet_protSet_same o _ h ho, protLatchBit_withLatch]

end

/-- The converter's latch holds its level source until its release. -/
theorem sbkLatch_latches {s : State} (hlevel : s.flt.level.contains 1060 = false) :
    (sbkLatch s true).sbk.latch = true ∧ (sbkLatch s true).flt.level.contains 1060 = true ∧ Raises (sbkLatch s true) 1060 := by
  let latched : State := { s with sbk := { s.sbk with latch := true } }
  have hsbk : (assertLevel latched 1060).sbk = latched.sbk := by
    unfold assertLevel
    split <;> rfl
  exact ⟨congrArg SbkSt.latch hsbk, assertLevel_asserts (s := latched) hlevel⟩

theorem sbkLatch_releases (s : State) : (sbkLatch s false).sbk.latch = false ∧ (sbkLatch s false).flt.level.contains 1060 = false :=
  ⟨rfl, releaseLevel_contains _ 1060⟩

/-! ### The restart delay, restarts and the retry count -/

section
variable {s : State} (h : OutputsCanon s) {o : ProtOut}
include h

theorem protDelayEnd_rdly (hdelay : (protGet s (protOwner s o)).rdly = true) :
    (protGet (protDelayEnd s o) (protOwner s o)).rdly = false := by
  have ho : hasRetries (protOwner s o) = true := hasRetries_of_get (s := s) fun e => by simp [e, Prot.init] at hdelay
  rw [protDelayEnd, if_pos hdelay, (touch_keepsProt (protUpdate_keepsProt (.refl (protSet_outputs _ _ h)) _)).get_set h ho]

/-- A restart ends the trip and consumes one retry (R138, R139). -/
theorem protStart_keepsProt (o : ProtOut) :
    KeepsProt (protSet s o { protGet s o with tripped := false, slewOff := false, rused := satInc 15 (protGet s o).rused }) (protStart s o) := by
  have hupdate := protUpdate_keepsProt (.refl (protSet_outputs o
    { protGet s o with tripped := false, slewOff := false, rused := satInc 15 (protGet s o).rused } h)) o
  unfold protStart
  refine touch_keepsProt ?_
  split
  · exact diagSet_keepsProt hupdate _ 0
  · exact hupdate

theorem protRestart_restarts (hready : protReady s (protOwner s o) = true) (hwanted : protWanted s (protOwner s o) = true) :
    (protGet (protRestart s o) (protOwner s o)).tripped = false ∧
      (protGet (protRestart s o) (protOwner s o)).rused = satInc 15 (protGet s (protOwner s o)).rused := by
  have htripped : (protGet s (protOwner s o)).tripped = true := by
    simp only [protReady, Bool.and_eq_true, and_assoc] at hready
    exact hready.1
  have ho : hasRetries (protOwner s o) = true := hasRetries_of_get (s := s) fun e => by simp [e, Prot.init] at htripped
  rw [protRestart, if_pos (by simp [hready, hwanted]), (protStart_keepsProt h _).get_set h ho]
  exact ⟨rfl, rfl⟩

theorem protRetryClear_rused (htripped : (protGet s (protOwner s o)).tripped = false) (hlockout : (protGet s (protOwner s o)).lockout = false) :
    (protGet (protRetryClear s o) (protOwner s o)).rused = 0 := by
  rcases Bool.eq_false_or_eq_true (hasRetries (protOwner s o)) with ho | ho
  · rw [protRetryClear, if_neg (by simp [htripped, hlockout]), (protUpdate_keepsProt (.refl (protSet_outputs _ _ h)) _).get_set h ho]
  · rw [protGet_of_not_hasRetries ho]
    rfl

end

/-! ### The charge phase and the inrush window of a channel -/

theorem hscCharged_of_not_near {s : State} {n : Nat} (h : hscNearVf s n = false) : hscCharged s n = s := if_neg (by simp [h])

/-- The charge phase ends where VOUT is near V_f (R110). -/
theorem hscCharged_charged {s : State} (h : OutputsCanon s) {n : Nat} (hcharging : (hscGet s n).charging = true) (hnear : hscNearVf s n = true) :
    (hscGet (hscCharged s n) n).charging = false ∧ (hscCharged s n).dirty = true := by
  rw [hscCharged, if_pos (by simp [hcharging, hnear])]
  exact ⟨congrArg HscSt.charging (hscGet_set_same h.hsc n _), rfl⟩

theorem hscWindowEnd_window {s : State} (h : OutputsCanon s) (n : Nat) : (hscGet (hscWindowEnd s n) n).window = false :=
  congrArg HscSt.window (hscGet_set_same h.hsc n _)

/-- A write of a register leaves the state of a channel beside its registers. -/
theorem hscGet_setF (s : State) (p : Nat) (f : Fld) (v n : Nat) : hscGet (setF s p f v) n = hscGet s n := rfl

theorem hscGet_setFlag (s : State) (p : Nat) (f : Fld) (b : Bool) (n : Nat) : hscGet (setFlag s p f b) n = hscGet s n := rfl

theorem hscGet_hscStat (s : State) (n m : Nat) : hscGet (hscStat s n) m = hscGet s m := rfl

theorem hscGet_touch (s : State) (n : Nat) : hscGet (touch s) n = hscGet s n := rfl

section
variable {s : State} (h : storeWf (fun _ => HscSt.init) s.hsc = true) (n : Nat)
include h

/-- Latching the demand leaves the channel conducting, or not, and its retry state. -/
theorem hscSafeLatch_on_prot : (hscGet (hscSafeLatch s n) n).on = (hscGet s n).on ∧ (hscGet (hscSafeLatch s n) n).prot = (hscGet s n).prot ∧
    storeWf (fun _ => HscSt.init) (hscSafeLatch s n).hsc = true := by
  unfold hscSafeLatch
  split
  · simp [hscGet_setFlag, hscGet_set_same h, storeSet_wf h]
  · exact ⟨rfl, rfl, h⟩

theorem hscStop_charging : (hscGet (hscStop s n) n).charging = false ∧ storeWf (fun _ => HscSt.init) (hscStop s n).hsc = true := by
  simp [hscStop, hscNoDuty, hscGateOff, hscGet_setF, hscGet_setFlag, hscGet_set_same, storeSet_wf, h]

theorem hscCheckEnd_charging : (hscGet (hscCheckEnd s n) n).charging = (hscGet s n).charging := by
  unfold hscCheckEnd
  extract_lets code
  split
  · rw [hscGet_set_same h]
  · rfl

/-- A new result leaves the channel conducting, or not, and its retry state. -/
theorem diagSet_on_prot (res : Nat) : (hscGet (diagSet s n res) n).on = (hscGet s n).on ∧ (hscGet (diagSet s n res) n).prot = (hscGet s n).prot := by
  simp [diagSet, hscGet_setF, hscGet_set_same h]

/-- A conducting channel that has tripped turns off, and its charge phase ends. -/
theorem hscUpdate_tripped_charging (hon : (hscGet s n).on = true) (htripped : (hscGet s n).prot.tripped = true) :
    (hscGet (hscUpdate s n) n).charging = false := by
  obtain ⟨hlatchedOn, hprot, hwf⟩ := hscSafeLatch_on_prot h n
  have hpermits : hscProtPermits (hscSafeLatch s n) n = false := by simp [hscProtPermits, hprot, htripped]
  obtain ⟨hstopped, hstoppedWf⟩ := hscStop_charging hwf n
  have hupdate : hscUpdate s n = hscStat (hscCheckEnd (hscStop (hscSafeLatch s n) n) n) n := by
    simp [hscUpdate, hpermits, hlatchedOn, hon]
  rw [hupdate, hscGet_hscStat]
  exact (hscCheckEnd_charging hstoppedWf n).trans hstopped

end

/-- The inrush window and the check of a channel end (R130, R153). -/
def hscWindowAway (s : State) (n : Nat) : State :=
  hscSet s n { hscGet s n with window := false, wlast := false, onFirst := true, phase := 0 }

theorem hscWindowAway_on_prot {s : State} (h : storeWf (fun _ => HscSt.init) s.hsc = true) (n : Nat) :
    (hscGet (hscWindowAway s n) n).on = (hscGet s n).on ∧ (hscGet (hscWindowAway s n) n).prot = (hscGet s n).prot := by
  simp [hscWindowAway, hscGet_set_same h]

/-- The channel as its event leaves it, before it turns off (R130, R137, R157). -/
def hscTripped (s : State) (n : Fin 72) (slew : Bool) : State :=
  diagSet (hscWindowAway (protSet s (.hsc n) (protAfter s (.hsc n) slew)) n) n 4

theorem hscTripped_on {s : State} (h : storeWf (fun _ => HscSt.init) s.hsc = true) (n : Fin 72) (slew : Bool) :
    (hscGet (hscTripped s n slew) n).on = (hscGet s n).on ∧ (hscGet (hscTripped s n slew) n).prot.tripped = true ∧
      storeWf (fun _ => HscSt.init) (hscTripped s n slew).hsc = true := by
  let t := protSet s (.hsc n) (protAfter s (.hsc n) slew)
  have hset : hscGet t n = { hscGet s n with prot := protAfter s (.hsc n) slew } := hscGet_set_same h n _
  obtain ⟨hon, hprot⟩ := hscWindowAway_on_prot (s := t) (storeSet_wf h) n
  obtain ⟨hon', hprot'⟩ := diagSet_on_prot (s := hscWindowAway t n) (storeSet_wf (storeSet_wf h)) n 4
  refine ⟨?_, ?_, storeSet_wf (storeSet_wf (storeSet_wf h))⟩
  · exact (hon'.trans hon).trans (congrArg HscSt.on hset :)
  · exact congrArg Prot.tripped ((hprot'.trans hprot).trans (congrArg HscSt.prot hset :))

theorem protEvent_hsc (s : State) (n : Fin 72) (slew : Bool) : protEvent s (.hsc n) slew =
    touch (hscUpdate (if decide (protRetry s (.hsc n) ≤ (protGet s (.hsc n)).rused) && !(protGet s (.hsc n)).lockout
      then raiseP (hscTripped s n slew) (protPage (.hsc n)) 6 else hscTripped s n slew) n) := rfl

/-- The event of a conducting channel ends its charge phase (R110, R137). -/
theorem protEvent_hsc_charging {s : State} (h : OutputsCanon s) (n : Fin 72) (slew : Bool) (hon : (hscGet s n).on = true) :
    (hscGet (protEvent s (.hsc n) slew) n).charging = false := by
  obtain ⟨htrippedOn, htripped, hwf⟩ := hscTripped_on h.hsc n slew
  rw [protEvent_hsc, hscGet_touch]
  split
  · exact hscUpdate_tripped_charging (s := raiseP (hscTripped s n slew) (protPage (.hsc n)) 6) hwf n (htrippedOn.trans hon) htripped
  · exact hscUpdate_tripped_charging hwf n (htrippedOn.trans hon) htripped

/-- A charge phase that lasts CAPT ends as a trip with CHGTO (R110). -/
theorem hscChargeTimeout_trips {s : State} (h : OutputsCanon s) (n : Fin 72) (hcharging : (hscGet s n).charging = true)
    (hon : (hscGet s n).on = true) (hslew : (hscGet s n).prot.slewOff = false) :
    Raises (hscChargeTimeout s n) ((0x20 + n.val) * 8 + 5) ∧ (hscGet (hscChargeTimeout s n) n).prot.tripped = true ∧
      (hscGet (hscChargeTimeout s n) n).charging = false := by
  let raised := raiseDetail s ((0x20 + n.val) * 8 + 5) []
  have hraised : OutputsCanon raised := ⟨h.hsc, h.hb, h.sol, h.lst⟩
  have hevent : protTrip s (.hsc n) 5 [] = protEvent raised (.hsc n) true :=
    protNew_eq_protEvent (s := raised) (o := .hsc n) hslew true
  obtain ⟨hraises, htripped, -⟩ := protTrip_trips h (o := .hsc n) rfl hslew 5 []
  rw [hscChargeTimeout, if_pos hcharging]
  refine ⟨hraises, ?_, ?_⟩
  · generalize protTrip s (.hsc n) 5 [] = u at htripped
    exact htripped
  · rw [hevent]
    exact protEvent_hsc_charging hraised n true hon

/-! ### The obligation -/

/-- Settles O20: an event, a latch, a release or a restart writes the retry state of its output, and what follows it keeps that; a
channel whose charge phase times out stops besides. -/
theorem protection : Obligations.Protection := by
  intro s o n hcanon hrun
  have h := hcanon.outputs
  refine ⟨?short, ?noComparator, ?thermal, ?converter, ?release, ?converterRelease, ?deltaT, ?deltaTRelease, ?delay, ?again, ?clear, ?far, ?near,
    ?timeout, ?windowEnd⟩
  case short =>
    intro hlfa hsbk hlmx hslew
    have ho := hasRetries_of_ne hlfa hsbk
    exact .of_done (done_powered hrun) (protShort_eq_protTrip ho hlmx s ▸ protTrip_trips h ho hslew 0 [])
  case noComparator =>
    rintro (rfl | rfl | ⟨a, rfl⟩) <;> exact .of_done (done_powered hrun) rfl
  case thermal =>
    intro hlfa hsbk hoff hlevel
    have ho := hasRetries_of_ne hlfa hsbk
    obtain ⟨hlatch, hstands, hraises⟩ := protLatch_latches h ho 2 hlevel
    exact .of_done (done_powered hrun) (thermalLatch_eq ho hoff ▸ ⟨hlatch, hstands, hraises, protLatch_trips h ho 2⟩)
  case converter =>
    rintro rfl hlevel
    exact .of_done (done_powered hrun) (sbkLatch_latches hlevel)
  case release =>
    intro hlfa hsbk hlatched
    have ho := hasRetries_of_ne hlfa hsbk
    exact .of_done (done_powered hrun) (thermalRelease_eq ho hlatched ▸ protRelease_releases h ho 2)
  case converterRelease =>
    rintro rfl
    exact .of_done (done_powered hrun) (sbkLatch_releases s)
  case deltaT =>
    intro hlfa hsbk hoff hlevel
    have ho := hasRetries_of_ne hlfa hsbk
    obtain ⟨hlatch, hstands, hraises⟩ := protLatch_latches h ho 3 hlevel
    exact .of_done (done_powered hrun) (deltaLatch_eq ho hoff ▸ ⟨hlatch, hstands, hraises, protLatch_trips h ho 3⟩)
  case deltaTRelease =>
    intro hlfa hsbk hlatched
    have ho := hasRetries_of_ne hlfa hsbk
    exact .of_done (done_powered hrun) (deltaRelease_eq ho hlatched ▸ protRelease_releases h ho 3)
  case delay => exact fun hdelay => .of_done (done_powered hrun) (protDelayEnd_rdly h hdelay)
  case again => exact fun hready hwanted => .of_done (done_powered hrun) (protRestart_restarts h hready hwanted)
  case clear => exact fun htripped hlockout => .of_done (done_powered hrun) (protRetryClear_rused h htripped hlockout)
  case far => exact fun hfar => .of_done (done_powered hrun) (hscCharged_of_not_near hfar)
  case near => exact fun hcharging hnear => .of_done (done_powered hrun) (hscCharged_charged h hcharging hnear)
  case timeout => exact fun hcharging hon hslew => .of_done (done_powered hrun) (hscChargeTimeout_trips h n hcharging hon hslew)
  case windowEnd => exact .of_done (done_powered hrun) ⟨hscWindowEnd_window h n, rfl, rfl, rfl⟩

end Sys2Proof.Machine
end

section
/-! A stream whose SWP lies beyond its ring (07, R160): the sample is written at SWP modulo the length of the ring, as after a commit that
made the ring shorter (notes/assumptions/87), and not at SWP itself. -/

-- One proof after another: side by side they start more threads than the memory limit of the check has room for.
set_option Elab.async false

namespace Sys2Proof.Machine

/-! ### Settling that ends out of its reach leaves the memory -/

namespace OutOfReach
variable {t u : State}

/-- The parts of the state that it speaks of decide it. -/
theorem congr (h : OutOfReach t) (hmode : u.mode = t.mode) (hdirty : u.dirty = t.dirty) (hregs : u.regs = t.regs)
    (hjrn : u.jrn = t.jrn) (hlch : u.lch = t.lch) : OutOfReach u where
  boot := hmode.trans h.boot
  clean := hdirty.trans h.clean
  flags p w := hregs ▸ h.flags p w
  ring := (congrArg JrnSt.ring hjrn).trans h.ring
  network w := hregs ▸ h.network w
  chain := (congrArg (fun m => (storeGet (fun _ => LchSt.init) m 3).phase) hlch).trans h.chain
  shown hs := by
    have hread : rd u 0x90 R.LCH.STAT.STATE.off = rd t 0x90 R.LCH.STAT.STATE.off := congrArg (storeGet regReset · _) hregs
    exact h.shown ((congrArg (fget · R.LCH.STAT.STATE) hread).symm.trans hs)

/-- Settling that ends out of reach has dropped occurrences at most, so the memory is as before. -/
theorem finishN_mem (n : Nat) : ∀ s : State, OutOfReach (finishN n s) → (finishN n s).mem = s.mem := by
  induction n with
  | zero => exact fun _ _ => rfl
  | succ n ih =>
    intro s h
    rw [finishN] at h ⊢
    split at h
    · next d ds _ =>
      have hmem := ih _ h
      rwa [(finishN_outOfReach n _ h).1.collect] at hmem ⊢
    · split at h
      · exact absurd (finishN_outOfReach n _ h).1 (not_outOfReach_settleOutputs _)
      · next hclean =>
        split at h
        · next t ht => exact absurd (finishN_outOfReach n _ h).1 (not_outOfReach_recordOut ht)
        · split at h
          · next hs => exact absurd (finishN_outOfReach n _ h).1 (not_outOfReach_nmgFollow hs)
          · next hs => simp [hclean, hs]

end OutOfReach

theorem keepNote_mem (s : State) : (keepNote s).mem = s.mem := by
  unfold keepNote
  extract_lets ks new _ noted reloaded page
  have hnoted : noted.mem = s.mem := by
    simp only [noted]
    split <;> rfl
  have hreloaded : reloaded.mem = noted.mem := by
    simp only [reloaded]
    split <;> rfl
  split <;> exact hreloaded.trans hnoted

/-- What settles to the same state as an effect out of reach, at which nothing is left to follow, has the same memory. -/
theorem mem_of_settled {s t u : State} (ht : OutOfReach t) (hdue : t.due = []) (hrecords : recordOut t = none)
    (hnetwork : configured t 0x0C = false) (h : settled s u = settled s t) : u.mem = t.mem := by
  have hstill : finish t = keepNote t := by
    have hnone : dueSort t.due = t.due := by
      rw [hdue]
      rfl
    have hsorted : { t with due := dueSort t.due } = t := by rw [hnone]
    exact congrArg keepNote ((congrArg (finishN 4096) hsorted).trans (finishN_still hdue ht.clean hrecords hnetwork 4096))
  generalize hy : finishN 4096 { u with due := dueSort u.due } = y
  have hfinish : finish u = keepNote y := congrArg keepNote hy
  simp only [settled, hfinish, hstill] at h
  have hboot : y.mode = t.mode := (keepNote_mode y).symm.trans ((congrArg State.mode h).trans (keepNote_mode t))
  obtain ⟨yregs, ydirty, yjrn, ylch, _⟩ := keepNote_boot (hboot.trans ht.boot)
  obtain ⟨tregs, tdirty, tjrn, tlch, _⟩ := keepNote_boot ht.boot
  have hreach : OutOfReach y := ht.congr hboot (ydirty.symm.trans ((congrArg State.dirty h).trans tdirty))
    (yregs.symm.trans ((congrArg State.regs h).trans tregs)) (yjrn.symm.trans ((congrArg State.jrn h).trans tjrn))
    (ylch.symm.trans ((congrArg State.lch h).trans tlch))
  have hmem : y.mem = t.mem := (keepNote_mem y).symm.trans ((congrArg State.mem h).trans (keepNote_mem t))
  subst hy
  exact (OutOfReach.finishN_mem 4096 _ hreach).symm.trans hmem

/-! ### A sample in the streams (R160) -/

/-- A stream that is not enabled takes no sample. -/
theorem streamPut_disabled {s : State} {j : Nat} (src : Nat) (w : Word) (h : cfgOn s 0x1E (R.MSQ.SCFG.EN j) = false) :
    streamPut s j src w = s := by
  simp [streamPut, h]

/-- A stream of the sample's class with room for it writes it at SWP modulo the length of its ring. -/
theorem streamPut_writes {s : State} {j src : Nat} (w : Word) (hen : cfgOn s 0x1E (R.MSQ.SCFG.EN j) = true)
    (hsrc : cfg s 0x1E (R.MSQ.SCFG.SRC j) = src) (hreach : busReach s 0x1E = true) {wp next : Nat}
    (hwp : wp = getF s 0x1E (R.MSQ.SWP.OFF j) % (256 * 2 ^ cfg s 0x1E (R.MSQ.SCFG.LEN j)))
    (hnext : next = (wp + 4) % (256 * 2 ^ cfg s 0x1E (R.MSQ.SCFG.LEN j))) (hroom : next ≠ getF s 0x1E (R.MSQ.SRP.OFF j)) :
    streamPut s j src w =
      setF { s with mem := memSetWord s.mem (cfg s 0x1E (R.MSQ.SBASE.BASE j) + wp) w } 0x1E (R.MSQ.SWP.OFF j) next := by
  subst hwp hnext
  unfold streamPut
  rw [if_neg (by simp [hen, hsrc]), if_neg (by simpa only [hreach, Bool.not_true, Bool.or_false, decide_eq_true_eq] using hroom)]

/-! ### The state of the refutation -/

/-- In BOOT, stream 0 enabled with a ring of 256 bytes at 0x2000_0000 that EC0 has committed, and SWP at the end of that ring; chain 3 in
a fault state that its STAT does not show yet. -/
def pointerPastRing : State :=
  { State.reset with
    regs := [(rkey 0x1E 0x170, 256)]
    applied := [(rkey 0x1E 0x810, 0x80000000), (rkey 0x1E 0x820, 0x20000000)]
    committer := [(0x1E, 1)]
    lch := [(3, { LchSt.init with phase := 4 })] }

theorem pointerPastRing_canon : Canon pointerPastRing :=
  ⟨by decide, by decide, rfl, rfl, rfl, rfl, rfl, rfl, rfl, rfl, by decide, rfl, rfl, rfl, rfl⟩

/-- What a sample of code 1 comes to there: its word stands at the start of the ring. -/
def pointerWrapped : State :=
  setF { pointerPastRing with mem := memSetWord [] 0x20000000 1 } 0x1E (R.MSQ.SWP.OFF 0) 4

theorem exec_streamSampleWrite_pointerPastRing :
    exec (.streamSampleWrite 0 0 1) pointerPastRing = done pointerPastRing pointerWrapped := by
  have hput : streamPut pointerPastRing 0 0 1 = pointerWrapped :=
    streamPut_writes (wp := 0) (next := 4) 1 (by decide) (by decide) (by decide) (by decide) (by decide) (by decide)
  have hout : streamOut pointerPastRing 0 1 = pointerWrapped := by
    have hfold : streamOut pointerPastRing 0 1 =
        streamPut (streamPut (streamPut (streamPut pointerPastRing 0 0 1) 1 0 1) 2 0 1) 3 0 1 := rfl
    rw [hfold, hput, streamPut_disabled 0 1 (by decide), streamPut_disabled 0 1 (by decide), streamPut_disabled 0 1 (by decide)]
  have hexec : exec (.streamSampleWrite 0 0 1) pointerPastRing =
      done pointerPastRing (powered pointerPastRing fun s => streamSample s 0 0 1) := rfl
  have hword : streamWord pointerPastRing 0 0 1 = 1 := by decide
  have hsample : streamSample pointerPastRing 0 0 1 = streamOut pointerPastRing 0 1 := by
    have hoff : (blockOff pointerPastRing 0x1E || !running pointerPastRing || !streamFresh pointerPastRing 0 0) = false := by decide
    have hlost : sysLost pointerPastRing = false := by decide
    simp [streamSample, hoff, hlost, hword]
  rw [hexec, done_powered (by decide), hsample, hout]

theorem pointerWrapped_regs : pointerWrapped.regs = [(rkey 0x1E 0x170, 4)] := by decide

theorem pointerWrapped_outOfReach : OutOfReach pointerWrapped where
  boot := rfl
  clean := rfl
  flags p w h := by
    rw [pointerWrapped_regs, List.mem_singleton, Prod.mk.injEq] at h
    have hk : p * 1024 + 0x018 / 4 = 0x1E * 1024 + 0x170 / 4 := h.1
    omega
  ring := rfl
  network w h := by
    rw [pointerWrapped_regs, List.mem_singleton, Prod.mk.injEq] at h
    exact absurd h.1 (by decide)
  chain := by decide
  shown := by decide

/-- The word stands elsewhere than at SWP as it was. -/
theorem pointerWrapped_mem : pointerWrapped.mem ≠ memSetWord pointerPastRing.mem (0x20000000 + 256) 1 := by decide

/-- Refutes O21: in `pointerPastRing` SWP of stream 0 is 256, the length of its ring, so that the sample is written at the start of the
ring (R160, notes/assumptions/87), where the statement has it at the base plus SWP; no effect with the word there settles to the same
state. -/
theorem not_sequencer : ¬ Obligations.Sequencer := by
  intro h
  obtain ⟨_, _, _, _, hstream, _⟩ := h pointerPastRing 0 ⟨0, [], [], [], [], [], [], [], 0, 0, false⟩ 0 [] [] 0 0 1 0 0
    pointerPastRing_canon (by decide)
  obtain ⟨u, hexec, hmem, _, _⟩ := hstream 0 (by decide) (by decide) (by decide) (by decide) (by decide) (by decide) (by decide)
    (by decide) (by decide)
  rw [exec_streamSampleWrite_pointerPastRing] at hexec
  have hsettled : settled pointerPastRing u = settled pointerPastRing pointerWrapped := by
    simp only [done, Host.Outcome.next.injEq] at hexec
    exact hexec.symm
  have hsame : u.mem = pointerWrapped.mem :=
    mem_of_settled pointerWrapped_outOfReach rfl (by decide) (by decide) hsettled
  have hpointer : cfg pointerPastRing 0x1E (R.MSQ.SBASE.BASE 0) + getF pointerPastRing 0x1E (R.MSQ.SWP.OFF 0) = 0x20000000 + 256 := by
    decide
  have hword : streamWord pointerPastRing 0 0 1 = 1 := by decide
  exact pointerWrapped_mem (hsame.symm.trans (hmem.trans (congrArg₂ (memSetWord pointerPastRing.mem) hpointer hword)))

end Sys2Proof.Machine
end

section
/-! The off-state check of a channel and the results of its diagnostics (07, R152 to R157), and the events of the half-bridges (08, R174 to
R187). -/

-- One proof after another: side by side they start more threads than the memory limit of the check has room for.
set_option Elab.async false

namespace Sys2Proof.Machine

/-! ### Diagnostic results (R157) -/

section
variable {s : State} (n method res : Nat)

/-- A result writes METHOD and RESULT; the other fields of the page stay. -/
theorem diagResult_keepsField {f : Fld} (hmethod : fieldsApart f R.HSC.DRES.METHOD = true) (hresult : fieldsApart f R.HSC.DRES.RESULT = true) :
    KeepsField (hscPage n) f s (diagResult s n method res) := by
  unfold diagResult
  extract_lets p c agree shown result
  have hshown : KeepsField (hscPage n) f s shown := (KeepsField.refl _ _ s).upd.setF hmethod
  split
  · exact hshown
  · split
    · exact (hshown.setF hresult).upd
    · exact hshown.setF hresult

/-- Only what has been counted of the results changes beside the registers. -/
theorem diagResult_phase (h : storeWf (fun _ => HscSt.init) s.hsc = true) :
    (hscGet (diagResult s n method res) n).phase = (hscGet s n).phase := by
  have hset (agree : Nat) : (hscGet (hscSet s n { hscGet s n with cand := res, agree := agree }) n).phase = (hscGet s n).phase :=
    (congrArg HscSt.phase (hscGet_set_same h n _) :)
  unfold diagResult
  extract_lets p c agree shown result
  split
  · exact hset agree
  · split
    · exact hset agree
    · exact hset agree

/-- Where one result suffices, RESULT follows at once. -/
theorem diagResult_result (h : storeWf regReset s.regs = true) (hcnt : cfg s 0x1E R.MSQ.CFG.OLCNT ≤ 1) :
    getF (diagResult s n method res) (hscPage n) R.HSC.DRES.RESULT = res % 16 := by
  unfold diagResult
  extract_lets p c agree shown result
  have hagree : 1 ≤ agree := by
    simp only [agree]
    split <;> omega
  have hresult : getF result (hscPage n) R.HSC.DRES.RESULT = res % 16 := getF_setF_same (setF_wf h) (by decide) (by decide)
  have hcount : cfg shown 0x1E R.MSQ.CFG.OLCNT = cfg s 0x1E R.MSQ.CFG.OLCNT := rfl
  rw [if_neg (by omega)]
  split
  · exact hresult
  · exact hresult

end

/-! ### The off-state check (R152, R153) -/

/-- A check that nothing bars starts in a channel that is off, or under OFFSTATE in an off-time. -/
theorem offCheckStart_starts {s : State} {n : Nat} (holpu : cfg s (hscPage n) R.HSC.DIAG.OLPU ≠ 0) (hbar : offCheckBarred s n = false)
    (hphase : (hscGet s n).phase = 0) (hoff : (hscGet s n).gen = false ∨ cfg s (hscPage n) R.HSC.DIAG.LDS = 3) :
    offCheckStart s n = hscSet s n { hscGet s n with phase := 1 } := if_neg (by
    rcases hoff with hgen | hlds
    · simp [holpu, hbar, hphase, hgen]
    · simp [holpu, hbar, hphase, hlds])

/-- VOUT shows what a phase has measured. -/
def hscVoutShown (s : State) (n vout : Nat) : State :=
  setFlag (setF s (hscPage n) R.HSC.VOUT.CODE vout) (hscPage n) R.HSC.VOUT.VALID true

/-- VOUT lies below V_f − 2.0 V. -/
abbrev hscVoutLow (s : State) (n vout : Nat) : Prop := (vout * 15 + 2000) * 65536 < hscVf s n * 15

/-- The supply of the die lies in a page of MSQ. -/
theorem hscVf_voutShown {s : State} (h : storeWf regReset s.regs = true) (n : Fin 72) (vout : Nat) :
    hscVf (hscVoutShown s n vout) n = hscVf s n := by
  have hdie : hscDie n < 3 := by
    unfold hscDie hscClass
    split
    · decide
    · split <;> decide
  have hkey (f : Fld) (hf : f.off < 4096) : rkey 0x1E (R.MSQ.VDIE.CODE (hscDie n)).off ≠ rkey (hscPage n) f.off :=
    rkey_ne hf (by simp only [R.MSQ.VDIE.CODE]; omega) (.inl (by unfold hscPage; omega))
  have hvdie : hscVdie (hscVoutShown s n vout) n = hscVdie s n :=
    (getF_setF_key (setF_wf h) (hkey _ (by decide))).trans (getF_setF_key h (hkey _ (by decide)))
  have hget : hscGet (hscVoutShown s n vout) n = hscGet s n := rfl
  rw [hscVf, hvdie, hget, hscVf]

/-- VOUT shows what a phase has measured, and the check is in phase `k`. -/
def offCheckIn (s : State) (n vout k : Nat) : State := hscSet (hscVoutShown s n vout) n { hscGet s n with phase := k }

theorem getF_hscSet (s : State) (n : Nat) (c : HscSt) (p : Nat) (f : Fld) : getF (hscSet s n c) p f = getF s p f := rfl

section
variable {s : State} (h : Canon s) (n : Fin 72) (vout : BitVec 12) (k : Nat)
include h

theorem offCheckIn_wf : storeWf regReset (offCheckIn s n vout.toNat k).regs = true ∧
    storeWf (fun _ => HscSt.init) (offCheckIn s n vout.toNat k).hsc = true := ⟨setFlag_wf (setF_wf h.regs), storeSet_wf h.hsc⟩

theorem offCheckIn_shows : getF (offCheckIn s n vout.toNat k) (hscPage n) R.HSC.VOUT.CODE = vout.toNat ∧
    (hscGet (offCheckIn s n vout.toNat k) n).phase = k := by
  have hcode : getF (setF s (hscPage n) R.HSC.VOUT.CODE vout.toNat) (hscPage n) R.HSC.VOUT.CODE = vout.toNat :=
    (getF_setF_same h.regs (by decide) (by decide)).trans (Nat.mod_eq_of_lt vout.isLt)
  refine ⟨?_, ?_⟩
  · rw [offCheckIn, getF_hscSet]
    exact (getF_setF_apart (setF_wf h.regs) (by decide)).trans hcode
  · rw [offCheckIn, hscGet_set_same (s := hscVoutShown s n vout.toNat) h.hsc]

/-- A result leaves VOUT and the phase as they are. -/
theorem offCheckIn_result (res : Nat) :
    getF (diagResult (offCheckIn s n vout.toNat k) n 3 res) (hscPage n) R.HSC.VOUT.CODE = vout.toNat ∧
      (hscGet (diagResult (offCheckIn s n vout.toNat k) n 3 res) n).phase = k := by
  obtain ⟨hregs, hhsc⟩ := offCheckIn_wf h n vout k
  obtain ⟨hcode, hphase⟩ := offCheckIn_shows h n vout k
  exact ⟨((diagResult_keepsField n 3 res (by decide) (by decide)).field hregs).trans hcode, (diagResult_phase n 3 res hhsc).trans hphase⟩

end

/-- A phase that reaches its end with its measurement: a low VOUT gives a result in either phase, PASS or OPENLOAD; another takes phase 1
on to phase 2, and gives STB in that. -/
theorem offCheckPhase_eq {s : State} (h : storeWf regReset s.regs = true) {n : Fin 72} (hphase : (hscGet s n).phase = 1 ∨ (hscGet s n).phase = 2)
    (hgate : hscGate s n = false) (hon : blockOff s 0x1E = false) (hfresh : msqFresh s .hscVout = true) (vout : Nat) (room : Bool) :
    offCheckPhase s n vout room =
      if (hscGet s n).phase = 1 then
        if hscVoutLow s n vout then diagResult (offCheckIn s n vout 0) n 3 1 else offCheckIn s n vout (if room then 2 else 3)
      else diagResult (offCheckIn s n vout 0) n 3 (if hscVoutLow s n vout then 2 else 3) := by
  have hready : ¬ (((hscGet s n).phase ≠ 1 && (hscGet s n).phase ≠ 2) || hscGate s n || blockOff s 0x1E || !msqFresh s .hscVout) = true := by
    rcases hphase with hphase | hphase
    · simp [hgate, hon, hfresh, hphase]
    · simp [hgate, hon, hfresh, hphase]
  have hlow : hscVoutLow (hscVoutShown s n vout) n vout ↔ hscVoutLow s n vout := by rw [hscVoutLow, hscVoutLow, hscVf_voutShown h n vout]
  simp only [← hlow]
  unfold offCheckPhase
  rw [if_neg hready]
  simp only [decide_eq_true_eq]
  rfl

section
variable {s : State} (h : Canon s) {n : Fin 72} (hgate : hscGate s n = false) (hon : blockOff s 0x1E = false)
  (hfresh : msqFresh s .hscVout = true) (vout : BitVec 12) (room : Bool)
include h hgate hon hfresh

/-- Phase 1 passes at a low VOUT, else phase 2 follows, in this off-time or the next. -/
theorem offCheckPhase_first (hphase : (hscGet s n).phase = 1) :
    getF (offCheckPhase s n vout.toNat room) (hscPage n) R.HSC.VOUT.CODE = vout.toNat ∧
      (hscGet (offCheckPhase s n vout.toNat room) n).phase = if hscVoutLow s n vout.toNat then 0 else if room then 2 else 3 := by
  rw [offCheckPhase_eq h.regs (.inl hphase) hgate hon hfresh, if_pos hphase]
  split
  · exact offCheckIn_result h n vout 0 1
  · exact offCheckIn_shows h n vout _

/-- Phase 2 ends the check with OPENLOAD or STB. -/
theorem offCheckPhase_second (hphase : (hscGet s n).phase = 2) (hcnt : cfg s 0x1E R.MSQ.CFG.OLCNT ≤ 1) :
    (hscGet (offCheckPhase s n vout.toNat room) n).phase = 0 ∧
      getF (offCheckPhase s n vout.toNat room) (hscPage n) R.HSC.DRES.RESULT = if hscVoutLow s n vout.toNat then 2 else 3 := by
  rw [offCheckPhase_eq h.regs (.inr hphase) hgate hon hfresh, if_neg (by omega)]
  refine ⟨(offCheckIn_result h n vout 0 _).2, (diagResult_result n 3 _ (offCheckIn_wf h n vout 0).1 hcnt).trans ?_⟩
  split <;> rfl

end

/-! ### What a bridge demands and what permits it (R169, R175, R177, R180) -/

section
variable {s : State} (h : OutputsCanon s) (n : Nat) (c : HbSt)
include h

/-- Beside the registers the demand rests on what SAFE = LAST has latched. -/
theorem hbRawDemand_hbSet (hact : c.safeAct = (hbGet s n).safeAct := by rfl) (hduty : c.safeDuty = (hbGet s n).safeDuty := by rfl) :
    hbRawDemand (hbSet s n c) n = hbRawDemand s n := by
  have hsafe : hbSafeDemand (hbSet s n c) n = hbSafeDemand s n := by
    unfold hbSafeDemand
    rw [hbGet_set_same h.hb, hact, hduty]
    rfl
  rw [hbRawDemand, hsafe]
  rfl

/-- The end of PARKRUN matters to a demand for PARKRUN alone. -/
theorem hbDemand_hbSet (hpark : (hbRawDemand s n).1 = 5 → c.parkOut = (hbGet s n).parkOut) (hact : c.safeAct = (hbGet s n).safeAct := by rfl)
    (hduty : c.safeDuty = (hbGet s n).safeDuty := by rfl) : hbDemand (hbSet s n c) n = hbDemand s n := by
  rw [hbDemand, hbRawDemand_hbSet h n c hact hduty, hbDemand, hbParked, hbParked, hbGet_set_same h.hb]
  by_cases hraw : (hbRawDemand s n).1 = 5
  · rw [hpark hraw]
    rfl
  · simp [hraw]

theorem hbProtPermits_hbSet (hprot : c.prot = (hbGet s n).prot := by rfl) : hbProtPermits (hbSet s n c) n = hbProtPermits s n := by
  have hkeeps := (hbSet_keepsProt (.refl h) n c hprot).hb
  simp only [hbProtPermits, hbLatched, hkeeps]
  rfl

end

/-- The bridge may act on a demand: the mode, the governor and its protection permit it, and it follows no primary (R14). -/
def hbWants (s : State) (n : Nat) : Bool :=
  (hbDemand s n).1 ≠ 0 && modePermits s (hbDemand s n).2.2 && !shed s (72 + n) && hbProtPermits s n && !hbFollower s n

theorem hbWants_act {s : State} {n : Nat} (h : hbWants s n = true) : (hbDemand s n).1 ≠ 0 := by
  simp only [hbWants, Bool.and_eq_true, decide_eq_true_eq, and_assoc] at h
  exact h.1

theorem hbWants_hbSet {s : State} (h : OutputsCanon s) (n : Nat) (c : HbSt) (hdemand : hbDemand (hbSet s n c) n = hbDemand s n)
    (hprot : c.prot = (hbGet s n).prot := by rfl) : hbWants (hbSet s n c) n = hbWants s n := by
  rw [hbWants, hdemand, hbProtPermits_hbSet h n c hprot]
  rfl

/-! ### The update of a bridge (R174, R187) -/

/-- The end of PARKRUN is forgotten where nothing demands it any more (R187). -/
def hbParkCleared (s : State) (n : Nat) : State :=
  if (hbGet s n).parkOut && (hbRawDemand s n).1 ≠ 5 then hbSet s n { hbGet s n with parkOut := false } else s

/-- The bridge stops, passes through the reversal pause, stays as it is, or takes the action demanded. -/
def hbFollowed (s : State) (n : Nat) : State :=
  let act := (hbDemand s n).1
  let c := hbGet s n
  if !hbWants s n then (if c.on then hbStop s n else s)
  else if hbPair s n = 1 && hbDrives act && (c.rev || (c.gen && c.dirNeg ≠ decide (act = 2))) then
    (if c.rev && c.on && c.act = 3 then s else hbBrake (hbSet s n { c with rev := true }) n 3)
  else if c.on && c.act = act then s
  else hbTake s n act

theorem hbUpdate_eq (s : State) (n : Nat) : hbUpdate s n = hbStat (hbFollowed (hbParkCleared (hbSafeLatch s n) n) n) n := by rfl

/-- SAFE that STAT shows already latches nothing more (R177). -/
theorem hbSafeLatch_of_shown {s : State} {n : Nat} (h : safeInForce s (72 + n) = true → isSet s (hbPage n) R.HB.STAT.SAFEACT = true) :
    hbSafeLatch s n = s := if_neg (by simpa using h)

/-- STAT leaves the state of a bridge beside the registers. -/
theorem hbGet_hbStat (s : State) (n m : Nat) : hbGet (hbStat s n) m = hbGet s m := rfl

theorem hbGet_touch (s : State) (n : Nat) : hbGet (touch s) n = hbGet s n := rfl

/-- A page's source that asserts waits for FLT. -/
theorem raiseP_raises (s : State) (p b : Nat) : Raises (raiseP s p b) (p * 8 + b) := ⟨⟨p * 8 + b, false, []⟩, by simp [raiseP, raise], rfl⟩

theorem hbGet_raiseP (s : State) (p b n : Nat) : hbGet (raiseP s p b) n = hbGet s n := rfl

theorem getF_raiseP (s : State) (p b q : Nat) (f : Fld) : getF (raiseP s p b) q f = getF s q f := rfl

section
variable {s : State} (h : OutputsCanon s) (n : Nat)
include h

/-- The demand stands, and the state of the bridge but for the end of PARKRUN. -/
theorem hbParkCleared_keeps : OutputsCanon (hbParkCleared s n) ∧ hbDemand (hbParkCleared s n) n = hbDemand s n ∧
    hbWants (hbParkCleared s n) n = hbWants s n ∧ ∃ out, hbGet (hbParkCleared s n) n = { hbGet s n with parkOut := out } := by
  unfold hbParkCleared
  split
  · next hclear =>
    have hraw : (hbRawDemand s n).1 ≠ 5 := of_decide_eq_true (Bool.and_eq_true_iff.mp hclear).2
    have hdemand := hbDemand_hbSet h n { hbGet s n with parkOut := false } (fun hpark => absurd hpark hraw)
    exact ⟨(hbSet_keepsProt (.refl h) n _).canon, hdemand, hbWants_hbSet h n _ hdemand, false, hbGet_set_same h.hb n _⟩
  · exact ⟨h, rfl, rfl, _, rfl⟩

theorem hbStop_get : hbGet (hbStop s n) n = { hbGet s n with on := false, act := 0, gen := false, gate := false, rem := 0 } :=
  hbGet_set_same h.hb n _

theorem hbBrake_get (act : Nat) :
    hbGet (hbBrake s n act) n = { hbGet s n with on := true, act := act, gen := false, gate := false, rem := 0 } :=
  hbGet_set_same h.hb n _

/-- A bridge without a reversal due takes the action (R169). -/
theorem hbTake_act {act : Nat} (hact : act ≠ 0) (hrev : (hbGet s n).rev = false) :
    (hbGet (hbTake s n act) n).act = act ∧ (hbGet (hbTake s n act) n).rev = false := by
  unfold hbTake
  rw [if_neg hact]
  split
  · extract_lets c t
    have hwf : storeWf (fun _ => HbSt.init) t.hb = true := by
      simp only [t]
      split
      · exact h.hb
      · exact h.hb
    have hget : hbGet (setFlag (hbSet t n c) (hbPage n) R.HB.STAT.STILL false) n = c := hbGet_set_same hwf n c
    rw [hget]
    exact ⟨rfl, rfl⟩
  · rw [hbBrake_get h]
    exact ⟨rfl, hrev⟩

/-- A bridge that stands, with no reversal due, takes the demand (R174). -/
theorem hbFollowed_takes (hwants : hbWants s n = true) (hrev : (hbGet s n).rev = false) (hgen : (hbGet s n).gen = false) :
    (hbGet (hbFollowed s n) n).act = (hbDemand s n).1 ∧ (hbGet (hbFollowed s n) n).rev = false := by
  have hact : (hbDemand s n).1 ≠ 0 := hbWants_act hwants
  unfold hbFollowed
  extract_lets act c
  rw [if_neg (by simp [hwants]), if_neg (by simp [c, hrev, hgen])]
  split
  · next hsame =>
    simp only [Bool.and_eq_true, decide_eq_true_eq] at hsame
    exact ⟨hsame.2, hrev⟩
  · exact hbTake_act h n hact hrev

/-- A driving bridge whose demand drives no more does not drive (R175). -/
theorem hbFollowed_ends (hon : (hbGet s n).on = true) (hdrives : hbDrives (hbGet s n).act = true) (hrest : hbDrives (hbDemand s n).1 = false) :
    hbDrives (hbGet (hbFollowed s n) n).act = false ∧ ((hbDemand s n).1 = 0 → (hbGet (hbFollowed s n) n).on = false) := by
  have hother : (hbGet s n).act ≠ (hbDemand s n).1 := fun he => by simp [he, hrest] at hdrives
  unfold hbFollowed
  extract_lets act c
  by_cases hwants : hbWants s n = true
  · have hact : act ≠ 0 := hbWants_act hwants
    rw [if_neg (by simp [hwants]), if_neg (by simp [act, hrest]), if_neg (by simp [c, act, hother]), hbTake, if_neg hact,
      if_neg (by simp [act, hrest]), hbBrake_get h]
    exact ⟨hrest, fun hzero => absurd hzero hact⟩
  · rw [if_pos (by simp [hwants]), if_pos hon, hbStop_get h]
    exact ⟨rfl, fun _ => rfl⟩

end

/-! ### The ends of the reversal pause and of PARKRUN (R174, R187) -/

/-- After the reversal pause the bridge takes the demand that it permits. -/
theorem hbReversalEnd_takes {s : State} (h : OutputsCanon s) {n : Nat} (hrev : (hbGet s n).rev = true) (hgen : (hbGet s n).gen = false)
    (hamps : hbAmps s n < 100) (hshown : safeInForce s (72 + n) = true → isSet s (hbPage n) R.HB.STAT.SAFEACT = true)
    (hwants : hbWants s n = true) :
    (hbGet (hbReversalEnd s n) n).rev = false ∧ (hbGet (hbReversalEnd s n) n).act = (hbDemand s n).1 := by
  let c : HbSt := { hbGet s n with rev := false }
  let t := hbSet s n c
  have hget : hbGet t n = c := hbGet_set_same h.hb n c
  have ht : OutputsCanon t := (hbSet_keepsProt (.refl h) n c).canon
  have hdemand : hbDemand t n = hbDemand s n := hbDemand_hbSet h n c fun _ => rfl
  obtain ⟨hcleared, hdemand', hwants', out, hget'⟩ := hbParkCleared_keeps ht n
  have hlatch : hbSafeLatch t n = t := hbSafeLatch_of_shown hshown
  obtain ⟨hact, hrev'⟩ := hbFollowed_takes hcleared n ((hwants'.trans (hbWants_hbSet h n c hdemand)).trans hwants)
    (by rw [hget', hget]) (by rw [hget', hget]; exact hgen)
  rw [hbReversalEnd, if_pos (by simp [hrev, hamps]), hbGet_touch, hbUpdate_eq, hbGet_hbStat, hlatch]
  exact ⟨hrev', hact.trans (congrArg Prod.fst (hdemand'.trans hdemand))⟩

/-- STOP does not drive. -/
theorem hbDrives_hbStopAct (s : State) (n : Nat) : hbDrives (hbStopAct s n) = false := by
  unfold hbStopAct
  split <;> rfl

/-- STOP applies in place of a PARKRUN that times out, and PARKTO is raised. -/
theorem hbParkTimeout_ends {s : State} (h : OutputsCanon s) {n : Nat} (hon : (hbGet s n).on = true) (hact : (hbGet s n).act = 5)
    (hpto : cfg s (hbPage n) R.HB.PARK.PTO ≠ 0) (hraw : (hbRawDemand s n).1 = 5)
    (hshown : safeInForce s (72 + n) = true → isSet s (hbPage n) R.HB.STAT.SAFEACT = true) :
    hbDrives (hbGet (hbParkTimeout s n) n).act = false ∧
      (cfgOn s (hbPage n) R.HB.CFG.STOP = false → (hbGet (hbParkTimeout s n) n).on = false) ∧ Raises (hbParkTimeout s n) ((0x68 + n) * 8 + 4) := by
  let c : HbSt := { hbGet s n with parkOut := true }
  let t := hbSet s n c
  have hget : hbGet t n = c := hbGet_set_same h.hb n c
  have ht : OutputsCanon t := (hbSet_keepsProt (.refl h) n c).canon
  have hrawT : (hbRawDemand t n).1 = 5 := by rw [hbRawDemand_hbSet h n c, hraw]
  have hdemand : (hbDemand t n).1 = hbStopAct s n := by
    rw [hbDemand, hbParked, if_pos (by simp [hrawT, hget, c])]
    rfl
  have hlatch : hbSafeLatch t n = t := hbSafeLatch_of_shown hshown
  have hcleared : hbParkCleared t n = t := if_neg (by simp [hrawT])
  obtain ⟨hrest, hoff⟩ := hbFollowed_ends ht n (by rw [hget]; exact hon) (by simp [hget, c, hact, hbDrives])
    (by rw [hdemand]; exact hbDrives_hbStopAct s n)
  rw [hbParkTimeout, if_pos (by simp [hon, hact, hpto])]
  refine ⟨?_, fun hstop => ?_, raiseP_raises _ _ 4⟩
  · rw [hbGet_raiseP, hbGet_touch, hbUpdate_eq, hbGet_hbStat, hlatch, hcleared]
    exact hrest
  · rw [hbGet_raiseP, hbGet_touch, hbUpdate_eq, hbGet_hbStat, hlatch, hcleared]
    exact hoff (hdemand.trans (by simp [hbStopAct, hstop]))

/-! ### The limiter and the stall (R178, R179) -/

section
variable {s : State} (h : Canon s) {n : Nat} (hgen : (hbGet s n).gen = true)
include h hgen

theorem hbLimit_limits (hgate : (hbGet s n).gate = true) (hlim : cfg s (hbPage n) R.HB.LIM.ILIM ≠ 0) :
    (hbGet (hbLimit s n) n).gate = false ∧ isSet (hbLimit s n) (hbPage n) R.HB.STAT.CLIM = true := by
  rw [hbLimit, if_pos (by simp [hgen, hgate, hlim])]
  exact ⟨congrArg HbSt.gate (hbGet_set_same h.hb n _), isSet_setFlag_same h.regs rfl (by decide)⟩

theorem hbLimitAgain_conducts (hgate : (hbGet s n).gate = false) (hduty : getF s (hbPage n) R.HB.STAT.DEFF = 4095) :
    (hbGet (hbLimitAgain s n) n).gate = true ∧ (hbLimitAgain s n).regs = s.regs := by
  rw [hbLimitAgain, if_pos (by simp [hgen, hgate, hduty])]
  exact ⟨congrArg HbSt.gate (hbGet_set_same h.hb n _), rfl⟩

end

theorem hbStall_eq_protTrip {s : State} {n : Fin 12} (hon : (hbGet s n).on = true) (hdrives : hbDrives (hbGet s n).act = true)
    (htime : cfg s (hbPage n) R.HB.STALL.STIME ≠ 0) : hbStall s n = protTrip s (.hb n) 1 [] := if_pos (by simp [hon, hdrives, htime])

/-! ### What an event line leaves of a bridge -/

/-- From `s` to `t` field `f` of bridge `n` and the states of the bridges beside the registers stay as they are. -/
structure KeepsBridge (n : Nat) (f : Fld) (s t : State) : Prop extends KeepsField (hbPage n) f s t where
  hb : t.hb = s.hb

namespace KeepsBridge
variable {n : Nat} {f : Fld} {s t u : State}

theorem refl (n : Nat) (f : Fld) (s : State) : KeepsBridge n f s s := ⟨.refl _ _ s, rfl⟩

/-- An update of other parts of the state. -/
theorem upd (h : KeepsBridge n f s t) (hr : u.regs = t.regs := by rfl) (hb : u.hb = t.hb := by rfl) : KeepsBridge n f s u :=
  ⟨h.toKeepsField.upd hr, hb.trans h.hb⟩

theorem touch (h : KeepsBridge n f s t) : KeepsBridge n f s (touch t) := h.upd

/-- A write of another field of the page. -/
theorem setFlag (h : KeepsBridge n f s t) {g : Fld} {b : Bool} (ha : fieldsApart f g = true) :
    KeepsBridge n f s (setFlag t (hbPage n) g b) := ⟨h.toKeepsField.setFlag ha, h.hb⟩

/-- A write of another page. -/
theorem wr (h : KeepsBridge n f s t) {q off : Nat} {w : Word} (hk : rkey (hbPage n) f.off ≠ rkey q off) :
    KeepsBridge n f s (wr t q off w) :=
  ⟨⟨fun hs => (getF_wr_key (h.canon hs) hk).trans (h.field hs), fun hs => wr_wf (h.canon hs)⟩, h.hb⟩

theorem ite {c : Prop} {_ : Decidable c} (h : KeepsBridge n f s t) (h' : KeepsBridge n f s u) : KeepsBridge n f s (if c then t else u) := by
  split
  · exact h
  · exact h'

/-- What each step of a fold keeps, the fold keeps. -/
theorem foldl {α : Type} {g : State → α → State} {l : List α} (h : KeepsBridge n f s t)
    (hg : ∀ u, KeepsBridge n f s u → ∀ a ∈ l, KeepsBridge n f s (g u a)) : KeepsBridge n f s (l.foldl g t) :=
  List.foldlRecOn l g h hg

end KeepsBridge

section
variable {n : Fin 12} {f : Fld} {s t : State} (hf : f.off < 4096) (h : KeepsBridge n f s t)
include hf h

/-- A write of a page that is no bridge's. -/
theorem wr_keepsBridge {q off : Nat} {w : Word} (hq : q < 0x68 ∨ 0x74 ≤ q) (ho : off < 4096) : KeepsBridge n f s (wr t q off w) :=
  h.wr (rkey_ne ho hf (.inl (by unfold hbPage; omega)))

theorem pendLine_keepsBridge {q k : Nat} (hq : 0x74 ≤ q) (hk : k < 64) : KeepsBridge n f s (pendLine t q k) :=
  .ite (wr_keepsBridge hf h (.inr hq) (by omega)) (wr_keepsBridge hf h (.inr hq) (by omega))

theorem lineMerge_keepsBridge {k : Nat} (hk : k < 64) : KeepsBridge n f s (lineMerge t k) :=
  have hmark (w : Word) : KeepsBridge n f s (wr t 0x0E (0x108 + 4 * (k / 32)) w) := wr_keepsBridge hf h (.inl (by decide)) (by omega)
  .ite (hmark _) (hmark _).upd

theorem tbsEventCapture_keepsBridge (k : Nat) : KeepsBridge n f s (tbsEventCapture t k) := by
  have htbs {u : State} (hu : KeepsBridge n f s u) (g : Fld) (v : Nat) (hg : g.off < 4096) : KeepsBridge n f s (setF u 0x0D g v) :=
    wr_keepsBridge hf hu (.inl (by decide)) hg
  unfold tbsEventCapture
  refine .ite h (htbs (htbs (htbs (.ite (htbs h _ _ ?_) h) _ _ ?_) _ _ ?_) _ _ ?_)
  all_goals decide

theorem dmaTrigger_keepsBridge {c : Nat} (hc : c < 16) : KeepsBridge n f s (dmaTrigger t c) := by
  have ho : 0x104 + 16 * c < 4096 := by omega
  have hdma {u : State} (hu : KeepsBridge n f s u) (w : Word) : KeepsBridge n f s (wr u 0x0F (0x104 + 16 * c) w) :=
    wr_keepsBridge hf hu (.inl (by decide)) ho
  have hbegin : KeepsBridge n f s (dmaTrigger.dmaBegin t c) := (hdma h _).upd
  unfold dmaTrigger
  exact .ite (.ite (hdma h _).upd h.upd) (.ite (hdma (hdma (.ite h hbegin) _) _) h)

theorem raiseLine_keepsBridge {k : Nat} (hk : k < 64) : KeepsBridge n f s (raiseLine t k) := by
  have hmerge := lineMerge_keepsBridge hf h hk
  have hcores : ∀ q ∈ corePages, 0x74 ≤ q := by decide
  unfold raiseLine
  refine .ite h (.ite (.ite hmerge h.upd) (.ite hmerge (.foldl (tbsEventCapture_keepsBridge hf (.foldl (.ite h.upd h) ?pend) k) ?dma)))
  case pend => exact fun u hu q hq => pendLine_keepsBridge hf hu (hcores q hq) hk
  case dma => exact fun u hu c hc => .ite (dmaTrigger_keepsBridge hf hu (List.mem_range.mp hc)) hu

end

/-! ### Ripples and standstill (R184, R186) -/

/-- The state of a bridge with an accepted ripple. -/
def HbSt.accepted (c : HbSt) (per ib : Nat) : HbSt :=
  { c with insRun := 0, nacc := c.nacc + 1, pers := (per :: c.pers).take 4, ibar := (ib :: c.ibar).take 64 }

/-- An accepted ripple counts, ends a standstill and shows its period. -/
def hbRippled (s : State) (n per ib : Nat) : State :=
  setF (setFlag (hbSet (hbCount s n) n ((hbGet s n).accepted per ib)) (hbPage n) R.HB.STAT.STILL false) (hbPage n) R.HB.RPER.PER per

/-- FIDX follows the newest ripple. -/
def hbIndexed (s : State) (n : Nat) : State := setF s (hbPage n) R.HB.FIDX.FIDX (twos 13 (hbFidx s n))

/-- The state of a bridge with an inserted ripple. -/
def HbSt.inserted (c : HbSt) : HbSt := { c with insRun := c.insRun + 1, ibar := (c.ibar.headD 0 :: c.ibar).take 64 }

/-- An inserted ripple counts, in INS too. -/
def hbRippleAdded (s : State) (n : Nat) : State :=
  let t := hbSet (hbCount s n) n (hbGet s n).inserted
  hbIndexed (setF t (hbPage n) R.HB.RPER.INS (satInc 255 (getF t (hbPage n) R.HB.RPER.INS))) n

theorem hbInsert_eq {s : State} {n : Nat} (hruns : hbRippleRuns s n = true) (hrun : (hbGet s n).insRun < 2) :
    hbInsert s n = if (hbGet s n).insRun + 1 = 2 then raiseP (hbRippleAdded s n) (hbPage n) 5 else hbRippleAdded s n :=
  if_neg (by simp [hruns, hrun])

/-- What follows an accepted ripple leaves every field but FIDX and the two of PINCH. -/
theorem hbAccept_keepsBridge {s : State} {n : Fin 12} {per : Nat} (hruns : hbRippleRuns s n = true) (hper : hbTexp s n ≤ 2 * per) (ib : Nat)
    {f : Fld} (hf : ∀ g ∈ [R.HB.FIDX.FIDX, R.HB.EVT.PINCH, R.HB.STAT.PINCH], fieldsApart f g = true) :
    KeepsBridge n f (hbRippled s n per ib) (hbAccept s n per ib) := by
  have hindexed : KeepsBridge n f (hbRippled s n per ib) (hbIndexed (hbRippled s n per ib) n) :=
    ⟨(KeepsField.refl _ _ _).setF (hf _ (by simp)), rfl⟩
  have hpinch := (hindexed.setFlag (b := true) (hf R.HB.EVT.PINCH (by simp))).setFlag (b := true) (hf R.HB.STAT.PINCH (by simp))
  have hoff : f.off < 4096 := by
    have ha := hf R.HB.FIDX.FIDX (by simp)
    simp only [fieldsApart, Bool.and_eq_true, decide_eq_true_eq] at ha
    exact ha.1.1
  unfold hbAccept
  rw [if_neg (by simp [hruns, hper])]
  exact .ite (.ite hpinch.touch (raiseLine_keepsBridge hoff hpinch.touch (by omega))) hindexed

section
variable {s : State} (h : Canon s) {n : Fin 12} (hruns : hbRippleRuns s n = true)
include h hruns

theorem hbAccept_accepts {per : BitVec 16} (hper : hbTexp s n ≤ 2 * per.toNat) (ib : Nat) :
    getF (hbAccept s n per.toNat ib) (hbPage n) R.HB.RPER.PER = per.toNat ∧
      hbGet (hbAccept s n per.toNat ib) n = (hbGet s n).accepted per.toNat ib ∧
      isSet (hbAccept s n per.toNat ib) (hbPage n) R.HB.STAT.STILL = false := by
  have hcounted : storeWf regReset (hbCount s n).regs = true := setF_wf h.regs
  have hwf : storeWf regReset (hbRippled s n per.toNat ib).regs = true := setF_wf (setFlag_wf hcounted)
  have hkeeps := hbAccept_keepsBridge (n := n) (f := R.HB.RPER.PER) hruns hper ib (by decide)
  have hstill := hbAccept_keepsBridge (n := n) (f := R.HB.STAT.STILL) hruns hper ib (by decide)
  have hshown : getF (hbRippled s n per.toNat ib) (hbPage n) R.HB.RPER.PER = per.toNat :=
    (getF_setF_same (setFlag_wf hcounted) (by decide) (by decide)).trans (Nat.mod_eq_of_lt per.isLt)
  have hmoves : isSet (hbRippled s n per.toNat ib) (hbPage n) R.HB.STAT.STILL = false :=
    (congrArg (fun x : Nat => decide (x ≠ 0)) (getF_setF_apart (setFlag_wf hcounted) (by decide))).trans
      (isSet_setFlag_same hcounted rfl (by decide))
  refine ⟨(hkeeps.field hwf).trans hshown, ?_, (congrArg (fun x : Nat => decide (x ≠ 0)) (hstill.field hwf)).trans hmoves⟩
  rw [hbGet, hkeeps.hb]
  exact hbGet_set_same (s := hbCount s n) h.hb n _

omit hruns in
theorem hbRippleAdded_ins : getF (hbRippleAdded s n) (hbPage n) R.HB.RPER.INS = satInc 255 (getF s (hbPage n) R.HB.RPER.INS) := by
  have hcounted : storeWf regReset (hbCount s n).regs = true := setF_wf h.regs
  have hbefore : getF (hbCount s n) (hbPage n) R.HB.RPER.INS = getF s (hbPage n) R.HB.RPER.INS := getF_setF_apart h.regs (by decide)
  have hsmall (x : Nat) : satInc 255 x % 2 ^ (R.HB.RPER.INS.hi + 1 - R.HB.RPER.INS.lo) = satInc 255 x := by
    refine Nat.mod_eq_of_lt ?_
    simp only [R.HB.RPER.INS, satInc]
    split <;> omega
  rw [← hbefore, ← hsmall]
  exact (getF_setF_apart (setF_wf hcounted) (by decide)).trans
    (getF_setF_same (s := hbSet (hbCount s n) n (hbGet s n).inserted) hcounted (by decide) (by decide))

theorem hbInsert_inserts (hrun : (hbGet s n).insRun < 2) :
    hbGet (hbInsert s n) n = (hbGet s n).inserted ∧
      getF (hbInsert s n) (hbPage n) R.HB.RPER.INS = satInc 255 (getF s (hbPage n) R.HB.RPER.INS) ∧
      ((hbGet s n).insRun = 1 → Raises (hbInsert s n) ((0x68 + n.val) * 8 + 5)) := by
  have hget : hbGet (hbRippleAdded s n) n = (hbGet s n).inserted := by
    have hstore : (hbRippleAdded s n).hb = storeSet (fun _ => HbSt.init) s.hb n (hbGet s n).inserted := rfl
    rw [hbGet, hstore]
    exact storeGet_set_same h.hb
  have hins := hbRippleAdded_ins h (n := n)
  rw [hbInsert_eq hruns hrun]
  split
  · exact ⟨(hbGet_raiseP _ _ 5 n).trans hget, (getF_raiseP _ _ 5 _ _).trans hins, fun _ => raiseP_raises _ _ 5⟩
  · next hone => exact ⟨hget, hins, fun he => absurd (by omega) hone⟩

end

/-- A standstill shows, and the next drive starts from TSEED. -/
theorem hbStill_stands {s : State} (h : Canon s) {n : Nat} (hidle : (hbDrives (hbGet s n).act && (hbGet s n).on) = false)
    (hcmd : hbDrives (getF s (hbPage n) R.HB.CMD.ACT) = false) (hamps : hbAmps s n < 20) :
    isSet (hbStill s n) (hbPage n) R.HB.STAT.STILL = true ∧ (hbGet (hbStill s n) n).pers = [] := by
  rw [hbStill, if_neg (by simp [hidle, hcmd]), if_neg (by simpa using hamps)]
  exact ⟨isSet_setFlag_same h.regs rfl (by decide), congrArg HbSt.pers (hbGet_set_same h.hb n _)⟩

/-! ### The obligation -/

/-- A command of a device that runs is its act. -/
theorem answers_powered {c : Instr} {s : State} {f : State → State} {P : State → Prop} (hrun : running s = true)
    (he : exec c s = done s (powered s f)) (hP : P (f s)) : Answers c s P := by
  rw [done_powered hrun] at he
  exact .of_done he hP

/-- Settles O22: each command runs down to the lemma that says what its act leaves of the channel or the bridge. -/
theorem diagnostics : Obligations.Diagnostics := by
  intro s n b vout room per mean h hrun
  have hout := h.outputs
  refine ⟨?start, ?first, ?second, ?timeout, ?reversal, ?limit, ?again, ?stall, ?accepted, ?inserted, ?still, ?park⟩
  case start =>
    intro holpu hbar hphase hoff
    refine answers_powered hrun rfl ?_
    rw [offCheckStart_starts holpu hbar hphase hoff, hscGet_set_same h.hsc]
    exact ⟨rfl, rfl, rfl⟩
  case first =>
    intro hphase hgate hon hfresh
    exact answers_powered hrun rfl (offCheckPhase_first h hgate hon hfresh vout room hphase)
  case second =>
    intro hphase hgate hon hfresh hcnt
    exact answers_powered hrun rfl (offCheckPhase_second h hgate hon hfresh vout room hphase hcnt)
  case timeout => exact answers_powered hrun rfl (getF_setF_same h.regs (by decide) (by decide))
  case reversal =>
    intro hrev hgen hamps hshown hact hmode hshed hprot hfollower
    exact answers_powered hrun rfl
      (hbReversalEnd_takes hout hrev hgen hamps hshown (by simp [hbWants, hact, hmode, hshed, hprot, hfollower]))
  case limit => exact fun hgen hgate hlim => answers_powered hrun rfl (hbLimit_limits h hgen hgate hlim)
  case again => exact fun hgen hgate hduty => answers_powered hrun rfl (hbLimitAgain_conducts h hgen hgate hduty)
  case stall =>
    intro hon hdrives htime hslew
    obtain ⟨hraises, htripped, -⟩ := protTrip_trips hout (o := .hb b) rfl hslew 1 []
    refine answers_powered hrun rfl ?_
    rw [hbStall_eq_protTrip hon hdrives htime]
    exact ⟨hraises, htripped⟩
  case accepted =>
    intro hruns hper
    obtain ⟨hshown, hget, hmoves⟩ := hbAccept_accepts h hruns hper mean.toNat
    refine answers_powered hrun rfl ⟨hshown, ?_, ?_, hmoves⟩
    · rw [hget]
      rfl
    · rw [hget]
      rfl
  case inserted =>
    intro hruns hins
    obtain ⟨hget, hcount, hraises⟩ := hbInsert_inserts h hruns hins
    exact answers_powered hrun rfl ⟨congrArg HbSt.insRun hget, hcount, hraises⟩
  case still => exact fun hidle hcmd hamps => answers_powered hrun rfl (hbStill_stands h hidle hcmd hamps)
  case park =>
    exact fun hon hact hpto hraw hshown => answers_powered hrun rfl (hbParkTimeout_ends hout hon hact hpto hraw hshown)

end Sys2Proof.Machine
end

section
/-! The command registers of the half-bridges (08, R168, R169, R184). -/

-- One proof after another: side by side they start more threads than the memory limit of the check has room for.
set_option Elab.async false

namespace Sys2Proof.Machine

/-! ### What the update of a bridge writes (R174 to R177)

Of the registers it writes STAT alone: whatever word is not STAT stays, with the configuration and the memory. -/

section
variable {K : Nat → Bool} {s t : State} {n : Nat} (h : Keeps K s t) (hstat : K (rkey (hbPage n) 0x108) = false)
include h hstat

theorem hbNoDuty_keeps : Keeps K s (hbNoDuty t n) := (h.setF_of hstat).setF_of hstat

theorem hbStop_keeps : Keeps K s (hbStop t n) := hbNoDuty_keeps (hbSet_keeps h n _) hstat

theorem hbBrake_keeps (act : Nat) : Keeps K s (hbBrake t n act) := hbNoDuty_keeps (hbSet_keeps h n _) hstat

theorem hbTake_keeps (act : Nat) : Keeps K s (hbTake t n act) := by
  have hgen : Keeps K s (if (hbGet t n).gen then t else hbNoDuty t n) := .ite h (hbNoDuty_keeps h hstat)
  unfold hbTake
  exact .ite (hbStop_keeps h hstat) (.ite ((hbSet_keeps hgen n _).setF_of hstat) (hbBrake_keeps h hstat act))

theorem hbSafeLatch_keeps : Keeps K s (hbSafeLatch t n) := .when h fun h => (hbSet_keeps h n _).setF_of hstat

omit hstat in
theorem hbParkCleared_keepsWords : Keeps K s (hbParkCleared t n) := .when h (hbSet_keeps · n _)

theorem hbFollowed_keeps : Keeps K s (hbFollowed t n) := by
  unfold hbFollowed
  exact .ite (.when h (hbStop_keeps · hstat))
    (.ite (.ite h (hbBrake_keeps (hbSet_keeps h n _) hstat 3)) (.ite h (hbTake_keeps h hstat _)))

theorem hbStat_keeps : Keeps K s (hbStat t n) :=
  ((((h.setF_of hstat).setF_of hstat).setF_of hstat).setF_of hstat).setF_of hstat

theorem hbUpdate_keeps : Keeps K s (hbUpdate t n) := by
  rw [hbUpdate_eq]
  exact hbStat_keeps (hbFollowed_keeps (hbParkCleared_keepsWords (hbSafeLatch_keeps h hstat)) hstat) hstat

end

/-! ### Writes of CMD (R168, R169) -/

/-- A follower, or an action that Table 2 does not admit, refuses a write of CMD. -/
theorem hbCmd_refuses {s : State} {n : Nat} {v : Word}
    (hr : hbFollower s n = true ∨ hbActOk s n (fget v R.HB.CMD.ACT) = false) : hbCmd s n v = werr s (hbPage n) 0x100 :=
  if_pos (by simpa using hr)

/-- The key of CMD. -/
def hbCmdKey (n k : Nat) : Bool := decide (k = rkey (hbPage n) 0x100)

theorem hbCmdKey_other {n off : Nat} (ho : off < 4096 ∧ off / 4 ≠ 0x100 / 4) : hbCmdKey n (rkey (hbPage n) off) = false := by
  unfold hbCmdKey rkey
  simp only [decide_eq_false_iff_not]
  omega

/-- CMD with the action and the stay-on bit of the value written. -/
def hbCmdTaken (s : State) (n : Nat) (v : Word) : State :=
  setF (setF s (hbPage n) R.HB.CMD.ACT (fget v R.HB.CMD.ACT)) (hbPage n) R.HB.CMD.STAYON (fget v R.HB.CMD.STAYON)

theorem hbCmdTaken_act {s : State} (h : storeWf regReset s.regs = true) (n : Nat) (v : Word) :
    getF (hbCmdTaken s n v) (hbPage n) R.HB.CMD.ACT = v.toNat % 16 := by
  have hact : fget v R.HB.CMD.ACT % 2 ^ 4 = v.toNat % 16 := by simp [fget, R.HB.CMD.ACT]
  exact ((getF_setF_apart (setF_wf h) (by decide)).trans (getF_setF_same h (by decide) (by decide))).trans hact

theorem hbCmdTaken_stayon {s : State} (h : storeWf regReset s.regs = true) (n : Nat) (v : Word) :
    isSet (hbCmdTaken s n v) (hbPage n) R.HB.CMD.STAYON = v.getLsbD 4 := by
  have hfield : getF (hbCmdTaken s n v) (hbPage n) R.HB.CMD.STAYON = fget v R.HB.CMD.STAYON % 2 ^ 1 :=
    getF_setF_same (setF_wf h) (by decide) (by decide)
  rw [isSet, hfield, Bool.eq_iff_iff]
  simp [fget, R.HB.CMD.STAYON, BitVec.getLsbD, Nat.testBit, Nat.one_and_eq_mod_two]

/-- An admitted action is taken into CMD, after what it makes due or clears (R174, R187), and the bridge follows. -/
theorem hbCmd_accepts {s : State} {n : Nat} {v : Word} (hf : hbFollower s n = false)
    (ha : hbActOk s n (fget v R.HB.CMD.ACT) = true) :
    ∃ t, Keeps (hbCmdKey n) s t ∧ hbCmd s n v = touch (hbUpdate (hbCmdTaken t n v) n) := by
  have hpinch {t : State} (ht : Keeps (hbCmdKey n) s t) :
      Keeps (hbCmdKey n) s (setFlag (setFlag t (hbPage n) R.HB.EVT.PINCH false) (hbPage n) R.HB.STAT.PINCH false) :=
    (ht.setF_of (hbCmdKey_other (by decide))).setF_of (hbCmdKey_other (by decide))
  unfold hbCmd
  extract_lets p act c due cleared
  have hdue : Keeps (hbCmdKey n) s due := .when (.refl _ s) (hbSet_keeps · n _)
  exact ⟨cleared, .when hdue hpinch, if_neg (by simp [hf, ha, act])⟩

/-- What keeps CMD as it is taken shows the value written. -/
theorem hbCmdTaken_kept {s u : State} (h : storeWf regReset s.regs = true) {n : Nat} {v : Word}
    (hu : Keeps (hbCmdKey n) (hbCmdTaken s n v) u) :
    getF u (hbPage n) R.HB.CMD.ACT = v.toNat % 16 ∧ isSet u (hbPage n) R.HB.CMD.STAYON = v.getLsbD 4 := by
  have hword : rd u (hbPage n) 0x100 = rd (hbCmdTaken s n v) (hbPage n) 0x100 :=
    hu.rd_eq (setF_wf (setF_wf h)) (by simp [hbCmdKey])
  exact ⟨(congrArg (fget · R.HB.CMD.ACT) hword).trans (hbCmdTaken_act h n v),
    (congrArg (fun w => decide (fget w R.HB.CMD.STAYON ≠ 0)) hword).trans (hbCmdTaken_stayon h n v)⟩

/-- What a write of CMD leaves of a bridge that accepts it. -/
theorem hbCmd_shows {s : State} (h : storeWf regReset s.regs = true) {n : Nat} {v : Word} (hf : hbFollower s n = false)
    (ha : hbActOk s n (fget v R.HB.CMD.ACT) = true) :
    getF (hbCmd s n v) (hbPage n) R.HB.CMD.ACT = v.toNat % 16 ∧ isSet (hbCmd s n v) (hbPage n) R.HB.CMD.STAYON = v.getLsbD 4 ∧
      (hbCmd s n v).applied = s.applied ∧ (hbCmd s n v).mem = s.mem := by
  obtain ⟨t, ht, he⟩ := hbCmd_accepts hf ha
  have hfollows : Keeps (hbCmdKey n) (hbCmdTaken t n v) (hbCmd s n v) :=
    he ▸ touch_keeps (hbUpdate_keeps (.refl _ _) (hbCmdKey_other (by decide)))
  obtain ⟨hact, hstayon⟩ := hbCmdTaken_kept (ht.canon h) hfollows
  exact ⟨hact, hstayon, hfollows.config.trans ht.config, hfollows.memory.trans ht.memory⟩

/-! ### Writes of DUTY and POS (R168, R184) -/

theorem hbDutyWrite_shows {s : State} (h : storeWf regReset s.regs = true) {n : Nat} (hf : hbFollower s n = false) (v : Word) :
    getF (hbDutyWrite s n v) (hbPage n) R.HB.DUTY.DUTY = v.toNat % 4096 ∧ (hbDutyWrite s n v).applied = s.applied ∧
      (hbDutyWrite s n v).mem = s.mem ∧ (hbDutyWrite s n v).due = s.due := by
  have hduty : fget v R.HB.DUTY.DUTY % 2 ^ 12 = v.toNat % 4096 := by simp [fget, R.HB.DUTY.DUTY]
  rw [hbDutyWrite, if_neg (by simp [hf])]
  exact ⟨(getF_setF_same h (by decide) (by decide)).trans hduty, rfl, rfl, rfl⟩

theorem hbPosWrite_shows {s : State} (h : storeWf regReset s.regs = true) (n : Nat) (v : Word) :
    getF (hbPosWrite s n v) (hbPage n) R.HB.POS.POS = v.toNat ∧ getF (hbPosWrite s n v) (hbPage n) R.HB.RPER.INS = 0 ∧
      isSet (hbPosWrite s n v) (hbPage n) R.HB.STAT.POSVALID = true ∧ (hbPosWrite s n v).applied = s.applied ∧
      (hbPosWrite s n v).mem = s.mem ∧ (hbPosWrite s n v).due = s.due := by
  have hpos := setF_wf (p := hbPage n) (f := R.HB.POS.POS) (v := v.toNat) h
  have hins := setF_wf (p := hbPage n) (f := R.HB.RPER.INS) (v := 0) hpos
  refine ⟨?_, ?_, isSet_setFlag_same hins rfl (by decide), rfl, rfl, rfl⟩
  · calc getF (hbPosWrite s n v) (hbPage n) R.HB.POS.POS
      _ = getF (setF s (hbPage n) R.HB.POS.POS v.toNat) (hbPage n) R.HB.POS.POS :=
        (getF_setF_apart hins (by decide)).trans (getF_setF_apart hpos (by decide))
      _ = v.toNat := (getF_setF_same h (by decide) (by decide)).trans (Nat.mod_eq_of_lt v.isLt)
  · exact (getF_setF_apart hins (by decide)).trans (getF_setF_same hpos (by decide) (by decide))

/-! ### The obligation -/

theorem blkOf_hbPage (b : Fin 12) : blkOf (hbPage b.val) = some (.HB, 0x68) := by revert b; decide

/-- What a write of CMD, DUTY or POS of a bridge does. -/
theorem liveWrite_hb (s : State) (who : Who) (b : Fin 12) (v : Word) :
    liveWrite s who (hbPage b.val) 0x100 v = (hbCmd s b.val v, true) ∧
      liveWrite s who (hbPage b.val) 0x104 v = (hbDutyWrite s b.val v, true) ∧
      liveWrite s who (hbPage b.val) 0x118 v = (hbPosWrite s b.val v, true) := by
  have hn : hbPage b.val - 0x68 = b.val := by unfold hbPage; omega
  simp only [liveWrite, blkOf_hbPage, hn]
  exact ⟨rfl, rfl, rfl⟩

/-- A granted write of a live register of a bridge is answered with what the register does. -/
theorem answers_hbWrite {c : Instr} {s t : State} {who : Who} {b : Fin 12} {off : Nat} {v : Word} {P : State → Prop}
    (he : exec c s = done s (writeReg s who (hbPage b.val) off v)) (hm : MayWrite s who (hbPage b.val) off)
    (ho : off % 4 = 0 ∧ 0x100 ≤ off ∧ off < 0x800) (hl : liveWrite s who (hbPage b.val) off v = (t, true))
    (hP : P { t with ans := none }) : Answers c s P := by
  have hvlt : hbPage b.val ≠ 6 := by unfold hbPage; omega
  rw [writeReg_live hm ho.1 hvlt ho.2.1 ho.2.2, hl] at he
  exact .of_done he hP

/-- What such a write leaves, of which the answer is no part. -/
theorem answers_hbWrite_shows {c : Instr} {s t : State} {who : Who} {b : Fin 12} {off : Nat} {v : Word} {P : State → Prop}
    (he : exec c s = done s (writeReg s who (hbPage b.val) off v)) (hm : MayWrite s who (hbPage b.val) off)
    (ho : off % 4 = 0 ∧ 0x100 ≤ off ∧ off < 0x800) (hl : liveWrite s who (hbPage b.val) off v = (t, true)) (hP : P t)
    (hans : ∀ u, P u → P { u with ans := none }) : Answers c s P := answers_hbWrite he hm ho hl (hans t hP)

/-- Settles O23: CMD is taken or refused, and the update that follows leaves it; DUTY and POS are plain writes of their fields. -/
theorem hbWrites : Obligations.HbWrites := by
  intro s who b v hcanon
  have hregs := hcanon.regs
  obtain ⟨hcmd, hduty, hpos⟩ := liveWrite_hb s who b v
  have hact : fget v R.HB.CMD.ACT = v.toNat % 16 := by simp [fget, R.HB.CMD.ACT]
  refine ⟨?taken, ?refused, ?duty, ?pos⟩
  case taken =>
    exact fun hm hf ha => answers_hbWrite_shows rfl hm (by decide) hcmd (hbCmd_shows hregs hf (hact ▸ ha)) fun _ h => h
  case refused =>
    intro hm hr
    rw [← hact] at hr
    rw [hbCmd_refuses hr] at hcmd
    exact answers_hbWrite rfl hm (by decide) hcmd rfl
  case duty =>
    exact fun hm hf => answers_hbWrite_shows rfl hm (by decide) hduty (hbDutyWrite_shows hregs hf v) fun _ h => h
  case pos => exact fun hm => answers_hbWrite_shows rfl hm (by decide) hpos (hbPosWrite_shows hregs b.val v) fun _ h => h

end Sys2Proof.Machine
end

section
/-! What the operations of the valves leave as it is (09, R200 to R211): the registers that a command, an event line or a bank's change
does not write, and the valves that wait for their bank. -/

-- One proof after another: side by side they start more threads than the memory limit of the check has room for.
set_option Elab.async false

namespace Sys2Proof.Machine

/-! ### The frame -/

/-- The fields of STAT that follow the state of a valve (R223). -/
def solStatFields : List Fld := [R.SOL.STAT.STATE, R.SOL.STAT.SAFEACT, R.SOL.STAT.RFXACT, R.SOL.STAT.RUSED]

/-- The fields of its valves' pages that a bank's position writes (R200, R209). -/
def bankFields : List Fld := R.SOL.STAT.BVST :: R.SOL.CLD.RES :: solStatFields

/-- The fields of valve pages that a profile's start or end writes (R200 to R203, R210). -/
def profileFields : List Fld :=
  R.SOL.STAT.BVBAT :: R.SOL.STAT.SHXT :: R.SOL.BOOST.TBST :: R.SOL.BOOST.IPKR :: R.SOL.EVT.BDONE :: bankFields

theorem solStatFields_subset_bankFields : solStatFields ⊆ bankFields := by simp [bankFields]

theorem bankFields_subset_profileFields : bankFields ⊆ profileFields := fun f hf => by simp [profileFields, hf]

/-- Field `f` of page `q`, one of the pages from CAN0's to the last valve's, is none of the fields `L` of a valve page. -/
def offFields (L : List Fld) (q : Nat) (f : Fld) : Bool :=
  decide (0x10 ≤ q) && decide (q < 0x84) && decide (f.off < 4096) && (decide (q < 0x74) || L.all (fieldsApart f))

theorem offFields_solPage {L : List Fld} {f : Fld} (n : Fin 16) (hf : L.all (fieldsApart f) = true) (ho : f.off < 4096) :
    offFields L (solPage n.val) f = true := by
  have hn := n.isLt
  unfold offFields solPage
  simp only [hf, ho, Bool.or_true, Bool.and_true, decide_true, Bool.and_eq_true, decide_eq_true_eq]
  omega

/-- From `s` to `t` no more than fields `L` of valve pages may differ on the pages from CAN0's to the last valve's; the configuration in
force, the memory, the mode, the open sources and the positions of SEL stay. -/
structure WritesValves (L : List Fld) (s t : State) : Prop where
  field : storeWf regReset s.regs = true → ∀ q f, offFields L q f = true → getF t q f = getF s q f
  canon : storeWf regReset s.regs = true → storeWf regReset t.regs = true
  config : t.applied = s.applied
  memory : t.mem = s.mem
  mode : t.mode = s.mode
  park : t.park = s.park
  loaded : t.rfxLoaded = s.rfxLoaded
  opened : t.flt.opened = s.flt.opened
  sel : t.sbk.sel = s.sbk.sel

namespace WritesValves
variable {L M : List Fld} {s t u : State}

theorem refl (L : List Fld) (s : State) : WritesValves L s s := ⟨fun _ _ _ _ => rfl, id, rfl, rfl, rfl, rfl, rfl, rfl, rfl⟩

theorem trans (h : WritesValves L s t) (h' : WritesValves L t u) : WritesValves L s u where
  field hs q f hf := (h'.field (h.canon hs) q f hf).trans (h.field hs q f hf)
  canon := h'.canon ∘ h.canon
  config := h'.config.trans h.config
  memory := h'.memory.trans h.memory
  mode := h'.mode.trans h.mode
  park := h'.park.trans h.park
  loaded := h'.loaded.trans h.loaded
  opened := h'.opened.trans h.opened
  sel := h'.sel.trans h.sel

theorem mono (h : WritesValves L s t) (hLM : L ⊆ M) : WritesValves M s t where
  __ := h
  field hs q f hf := h.field hs q f (by
    simp only [offFields, Bool.and_eq_true, Bool.or_eq_true, List.all_eq_true] at hf ⊢
    exact ⟨hf.1, hf.2.imp_right fun hM g hg => hM g (hLM hg)⟩)

/-- An update of other parts of the state. -/
theorem upd (h : WritesValves L s t) (hr : u.regs = t.regs := by rfl) (ha : u.applied = t.applied := by rfl)
    (hm : u.mem = t.mem := by rfl) (hmo : u.mode = t.mode := by rfl) (hp : u.park = t.park := by rfl)
    (hl : u.rfxLoaded = t.rfxLoaded := by rfl) (ho : u.flt.opened = t.flt.opened := by rfl)
    (hse : u.sbk.sel = t.sbk.sel := by rfl) : WritesValves L s u :=
  h.trans ⟨fun _ _ _ _ => getF_congr_regs hr, fun ht => hr ▸ ht, ha, hm, hmo, hp, hl, ho, hse⟩

/-- A write of a word of another page. -/
theorem wr_of (h : WritesValves L s t) {p off : Nat} {w : Word} (hp : p < 0x10 ∧ off < 4096 ∨ 0x84 ≤ p) : WritesValves L s (wr t p off w) :=
  h.trans
    { refl L t with
      canon := storeSet_wf
      field := fun ht q f hf => by
        simp only [offFields, Bool.and_eq_true, decide_eq_true_eq] at hf
        exact getF_wr_key ht (by unfold rkey; omega) }

theorem setF_of (h : WritesValves L s t) {p : Nat} {f : Fld} {v : Nat} (hp : p < 0x10 ∧ f.off < 4096 ∨ 0x84 ≤ p) :
    WritesValves L s (Machine.setF t p f v) := h.wr_of hp

/-- A write of a field in `L` of a valve page. -/
theorem setF (h : WritesValves L s t) {n : Nat} {g : Fld} {v : Nat} (hg : g ∈ L) : WritesValves L s (setF t (solPage n) g v) :=
  h.trans
    { refl L t with
      canon := setF_wf
      field := fun ht q f hf => by
        simp only [offFields, Bool.and_eq_true, Bool.or_eq_true, decide_eq_true_eq, List.all_eq_true] at hf
        obtain ⟨⟨⟨-, hq⟩, hoff⟩, hlow | hapart⟩ := hf
        · exact getF_setF_key ht (by unfold rkey solPage; omega)
        · have ha := hapart g hg
          rcases eq_or_ne q (solPage n) with rfl | hne
          · exact getF_setF_apart ht ha
          · have hgo : g.off < 4096 := by
              simp only [fieldsApart, Bool.and_eq_true, decide_eq_true_eq] at ha
              exact ha.1.2
            exact getF_setF_key ht (rkey_ne hgo hoff (.inl hne)) }

theorem setFlag (h : WritesValves L s t) {n : Nat} {g : Fld} {b : Bool} (hg : g ∈ L) : WritesValves L s (setFlag t (solPage n) g b) := h.setF hg

theorem ite {c : Prop} {_ : Decidable c} (h : WritesValves L s t) (h' : WritesValves L s u) : WritesValves L s (if c then t else u) := by
  split
  · exact h
  · exact h'

/-- A step that is taken or left out. -/
theorem when {c : Prop} {_ : Decidable c} (h : WritesValves L s t) (hu : WritesValves L s t → WritesValves L s u) :
    WritesValves L s (if c then u else t) := .ite (hu h) h

theorem isSet (h : WritesValves L s t) (hs : storeWf regReset s.regs = true) {q : Nat} {f : Fld} (hf : offFields L q f = true) :
    isSet t q f = isSet s q f := congrArg (fun x : Nat => decide (x ≠ 0)) (h.field hs q f hf)

end WritesValves

/-! ### Event lines -/

/-- From `s` to `t` an event line has been raised: the pages from CAN0's to the last valve's stay, with the states of the valves, the
converter and the banks beside their registers. -/
structure LineRaised (s t : State) : Prop extends WritesValves [] s t where
  sol : t.sol = s.sol
  sbk : t.sbk = s.sbk

namespace LineRaised
variable {s t u : State}

theorem refl (s : State) : LineRaised s s := ⟨.refl _ s, rfl, rfl⟩

/-- An update of other parts of the state. -/
theorem upd (h : LineRaised s t) (hw : WritesValves [] t u) (hsol : u.sol = t.sol := by rfl) (hsbk : u.sbk = t.sbk := by rfl) : LineRaised s u :=
  ⟨h.toWritesValves.trans hw, hsol.trans h.sol, hsbk.trans h.sbk⟩

theorem wr (h : LineRaised s t) {p off : Nat} {w : Word} (hp : p < 0x10 ∧ off < 4096 ∨ 0x84 ≤ p := by decide) : LineRaised s (wr t p off w) :=
  h.upd ((WritesValves.refl _ t).wr_of hp)

theorem ite {c : Prop} {_ : Decidable c} (h : LineRaised s t) (h' : LineRaised s u) : LineRaised s (if c then t else u) := by
  split
  · exact h
  · exact h'

/-- What each step of a fold keeps, the fold keeps. -/
theorem foldl {α : Type} {f : State → α → State} {l : List α} (h : LineRaised s t)
    (hf : ∀ u, LineRaised s u → ∀ a ∈ l, LineRaised s (f u a)) : LineRaised s (l.foldl f t) :=
  List.foldlRecOn l f h hf

end LineRaised

section
variable {s t : State} (h : LineRaised s t)
include h

theorem pendLine_lineRaised {q : Nat} (hq : 0x84 ≤ q) (k : Nat) : LineRaised s (pendLine t q k) := .ite (h.wr (.inr hq)) (h.wr (.inr hq))

theorem lineMerge_lineRaised {k : Nat} (hk : k < 64) : LineRaised s (lineMerge t k) :=
  have hmark (w : Word) : LineRaised s (wr t 0x0E (0x108 + 4 * (k / 32)) w) := h.wr (.inl ⟨by decide, by omega⟩)
  .ite (hmark _) ((hmark _).upd (WritesValves.refl _ _).upd)

theorem tbsEventCapture_lineRaised (k : Nat) : LineRaised s (tbsEventCapture t k) :=
  .ite h (LineRaised.ite h.wr h).wr.wr.wr

theorem dmaTrigger_lineRaised {c : Nat} (hc : c < 16) : LineRaised s (dmaTrigger t c) := by
  have ho : 0x104 + 16 * c < 4096 := by omega
  have hdma {u : State} (hu : LineRaised s u) (w : Word) : LineRaised s (wr u 0x0F (0x104 + 16 * c) w) := hu.wr (.inl ⟨by decide, ho⟩)
  have hbegin : LineRaised s (dmaTrigger.dmaBegin t c) := (hdma h _).upd (WritesValves.refl _ _).upd
  unfold dmaTrigger
  exact .ite (.ite ((hdma h _).upd (WritesValves.refl _ _).upd) (h.upd (WritesValves.refl _ _).upd))
    (.ite (hdma (hdma (.ite h hbegin) _) _) h)

theorem raiseLine_lineRaised {k : Nat} (hk : k < 64) : LineRaised s (raiseLine t k) := by
  have hmerge := lineMerge_lineRaised h hk
  have hheld : LineRaised s { t with lineHeld := t.lineHeld ||| 2 ^ k } := h.upd (WritesValves.refl _ _).upd
  have hcrossed : LineRaised s { t with crossed := t.crossed + 2 ^ k } := h.upd (WritesValves.refl _ _).upd
  have hcores : ∀ q ∈ corePages, 0x84 ≤ q := by decide
  unfold raiseLine
  refine .ite h (.ite (.ite hmerge hheld)
    (.ite hmerge (.foldl (tbsEventCapture_lineRaised (.foldl (.ite hcrossed h) ?pend) k) ?dma)))
  case pend => exact fun u hu q hq => pendLine_lineRaised hu (hcores q hq) k
  case dma => exact fun u hu c hc => .ite (dmaTrigger_lineRaised hu (List.mem_range.mp hc)) hu

end

theorem raiseLine_writesValves {L : List Fld} {s t : State} (h : WritesValves L s t) {k : Nat} (hk : k < 64) : WritesValves L s (raiseLine t k) :=
  h.trans ((raiseLine_lineRaised (.refl t) hk).toWritesValves.mono (List.nil_subset L))

/-! ### One valve -/

theorem solGet_set_same {s : State} (h : storeWf (fun _ => SolSt.init) s.sol = true) (n : Nat) (c : SolSt) : solGet (solSet s n c) n = c :=
  storeGet_set_same h

theorem solGet_solStat (s : State) (n m : Nat) : solGet (solStat s n) m = solGet s m := rfl

theorem solGet_set_ne {s : State} (h : storeWf (fun _ => SolSt.init) s.sol = true) {n m : Nat} (hm : m ≠ n) (c : SolSt) :
    solGet (solSet s n c) m = solGet s m := storeGet_set_ne h hm

theorem solStat_writesValves {L : List Fld} {s t : State} (h : WritesValves L s t) (hL : solStatFields ⊆ L) (n : Nat) :
    WritesValves L s (solStat t n) :=
  (((h.setF (hL (by simp [solStatFields]))).setFlag (hL (by simp [solStatFields]))).setFlag (hL (by simp [solStatFields]))).setF
    (hL (by simp [solStatFields]))

/-! ### A bank follows its valves (R200, R209) -/

/-- From `s` to `t` no valve has begun to wait for its bank. -/
structure DefersNone (L : List Fld) (s t : State) : Prop extends WritesValves L s t where
  solCanon : storeWf (fun _ => SolSt.init) s.sol = true → storeWf (fun _ => SolSt.init) t.sol = true
  waits : storeWf (fun _ => SolSt.init) s.sol = true → ∀ n, (solGet s n).deferred = false → (solGet t n).deferred = false

namespace DefersNone
variable {L : List Fld} {s t u : State}

theorem refl (L : List Fld) (s : State) : DefersNone L s s := ⟨.refl L s, id, fun _ _ => id⟩

theorem trans (h : DefersNone L s t) (h' : DefersNone L t u) : DefersNone L s u :=
  ⟨h.toWritesValves.trans h'.toWritesValves, h'.solCanon ∘ h.solCanon, fun hs n hn => h'.waits (h.solCanon hs) n (h.waits hs n hn)⟩

theorem mono {M : List Fld} (h : DefersNone L s t) (hLM : L ⊆ M) : DefersNone M s t := ⟨h.toWritesValves.mono hLM, h.solCanon, h.waits⟩

/-- A step that leaves the states of the valves beside their registers. -/
theorem upd (h : DefersNone L s t) (hw : WritesValves L t u) (hsol : u.sol = t.sol := by rfl) : DefersNone L s u :=
  h.trans ⟨hw, fun ht => hsol ▸ ht, fun _ n hn => by rw [solGet, hsol]; exact hn⟩

theorem setF (h : DefersNone L s t) {n : Nat} {g : Fld} {v : Nat} (hg : g ∈ L) : DefersNone L s (setF t (solPage n) g v) :=
  h.upd ((WritesValves.refl L t).setF hg)

theorem setFlag (h : DefersNone L s t) {n : Nat} {g : Fld} {b : Bool} (hg : g ∈ L) : DefersNone L s (setFlag t (solPage n) g b) := h.setF hg

/-- A write of the page of the converter and the banks. -/
theorem setF_bank (h : DefersNone L s t) {g : Fld} {v : Nat} : DefersNone L s (Machine.setF t 0x84 g v) :=
  h.upd ((WritesValves.refl L t).setF_of (.inr (Nat.le_refl _)))

/-- The state of a valve that does not begin to wait. -/
theorem solSet (h : DefersNone L s t) (n : Nat) (c : SolSt) (hc : c.deferred = true → (solGet t n).deferred = true := by exact id) :
    DefersNone L s (solSet t n c) := by
  refine h.trans ⟨(WritesValves.refl L t).upd, storeSet_wf, fun ht m hm => ?_⟩
  rcases eq_or_ne m n with rfl | hne
  · rw [solGet_set_same ht]
    exact Bool.eq_false_iff.mpr fun hw => by simp [hc hw] at hm
  · rwa [solGet_set_ne ht hne]

theorem ite {c : Prop} {_ : Decidable c} (h : DefersNone L s t) (h' : DefersNone L s u) : DefersNone L s (if c then t else u) := by
  split
  · exact h
  · exact h'

/-- A step that is taken or left out. -/
theorem when {c : Prop} {_ : Decidable c} (h : DefersNone L s t) (hu : DefersNone L s t → DefersNone L s u) :
    DefersNone L s (if c then u else t) := .ite (hu h) h

/-- What each step of a fold keeps, the fold keeps. -/
theorem foldl {α : Type} {f : State → α → State} {l : List α} (h : DefersNone L s t)
    (hf : ∀ u, DefersNone L s u → ∀ a ∈ l, DefersNone L s (f u a)) : DefersNone L s (l.foldl f t) :=
  List.foldlRecOn l f h hf

end DefersNone

/-- The position of bank `b` and the bits of its valves, as its registers show them. -/
def bankShown (s : State) (b : Nat) : State :=
  let s := setFlag s 0x84 (R.SBK.BANK.POS b) (bankWants s b)
  let s := setF s 0x84 (R.SBK.BANK.BOOSTING b) (bankBits s b fun c => c.phase = .boost)
  setF s 0x84 (R.SBK.BANK.QUEUED b) (bankBits s b fun c => c.deferred)

theorem solGet_bankShown (s : State) (b n : Nat) : solGet (bankShown s b) n = solGet s n := rfl

/-- Valve `n` follows its bank's position `pos`. -/
def bankFollow (pos : Bool) (s : State) (n : Nat) : State :=
  let c := solGet s n
  let s := setFlag s (solPage n) R.SOL.STAT.BVST pos
  if !pos then s
  else
    match c.phase with
    | .decay => solSet s n { c with fast := true }
    | .window => solStat (solResult (solSet s n { c with phase := .off, fast := true }) n 3) n
    | _ => s

theorem bankUpdate_eq (s : State) (b : Nat) : bankUpdate s b = (bankValves b).foldl (bankFollow (bankWants s b)) (bankShown s b) := rfl

section
variable {L : List Fld} {s t : State} (h : DefersNone L s t) (hL : bankFields ⊆ L)
include h hL

theorem solStat_defersNone (n : Nat) : DefersNone L s (solStat t n) :=
  h.upd (solStat_writesValves (.refl L t) (List.Subset.trans solStatFields_subset_bankFields hL) n)

theorem solResult_defersNone (n r : Nat) : DefersNone L s (solResult t n r) := .when h (·.setF (hL (by simp [bankFields])))

theorem bankFollow_defersNone (pos : Bool) (n : Nat) : DefersNone L s (bankFollow pos t n) := by
  have hshown : DefersNone L s (setFlag t (solPage n) R.SOL.STAT.BVST pos) := h.setFlag (hL (by simp [bankFields]))
  unfold bankFollow
  refine .ite hshown ?_
  split
  · exact hshown.solSet n _
  · exact solStat_defersNone (solResult_defersNone (hshown.solSet n _) hL n 3) hL n
  · exact hshown

theorem bankUpdate_defersNone (b : Nat) : DefersNone L s (bankUpdate t b) :=
  h.setF_bank.setF_bank.setF_bank.foldl fun _ hu n _ => bankFollow_defersNone hu hL _ n

end

/-- From `c` to `d` a valve has followed its bank: an open window closes, and only a decay becomes fast. -/
structure Follows (c d : SolSt) : Prop where
  rest : d = { c with phase := d.phase, fast := d.fast }
  phase : c.phase ≠ .window → d.phase = c.phase

theorem Follows.refl (c : SolSt) : Follows c c := ⟨rfl, fun _ => rfl⟩

theorem Follows.trans {c d e : SolSt} (h : Follows c d) (h' : Follows d e) : Follows c e where
  rest := by rw [h'.rest, h.rest]
  phase hc := by rw [← h.phase hc]; exact h'.phase (h.phase hc ▸ hc)

theorem solGet_bankFollow {s : State} (h : storeWf (fun _ => SolSt.init) s.sol = true) (pos : Bool) (n m : Nat) :
    Follows (solGet s m) (solGet (bankFollow pos s n) m) := by
  have hset (c : SolSt) (hc : Follows (solGet s n) c) (f : Fld) (v : Nat) :
      Follows (solGet s m) (solGet (solSet (setF s (solPage n) f v) n c) m) := by
    have hs : storeWf (fun _ => SolSt.init) (setF s (solPage n) f v).sol = true := h
    rcases eq_or_ne m n with rfl | hm
    · rwa [solGet_set_same hs]
    · rw [solGet_set_ne hs hm]
      exact .refl _
  unfold bankFollow
  extract_lets c t
  split
  · exact .refl _
  · split
    · exact hset _ (by exact ⟨rfl, fun _ => rfl⟩) _ _
    · next hwindow =>
      rw [solGet_solStat, solGet_solResult]
      exact hset _ (by exact ⟨rfl, fun hc => absurd hwindow hc⟩) _ _
    · exact .refl _

theorem solGet_bankUpdate {s : State} (h : storeWf (fun _ => SolSt.init) s.sol = true) (b n : Nat) :
    Follows (solGet s n) (solGet (bankUpdate s b) n) := by
  have hshown : Follows (solGet s n) (solGet (bankShown s b) n) := by
    rw [solGet_bankShown]
    exact .refl _
  have hfold := List.foldlRecOn (motive := fun u => storeWf (fun _ => SolSt.init) u.sol = true ∧ Follows (solGet s n) (solGet u n))
    (bankValves b) (bankFollow (bankWants s b)) (b := bankShown s b) ⟨h, hshown⟩ fun u ⟨hu, hn⟩ m _ =>
      ⟨(bankFollow_defersNone (.refl bankFields u) (List.Subset.refl _) _ m).solCanon hu, hn.trans (solGet_bankFollow hu _ m n)⟩
  exact hfold.2

/-! ### Profiles (R200 to R204, R210, R211) -/

section
variable {s t : State} (h : DefersNone profileFields s t)
include h

theorem bankUnqueue_defersNone (n : Nat) : DefersNone profileFields s (bankUnqueue t n) := by
  unfold bankUnqueue
  exact (h.upd (WritesValves.refl _ t).upd).solSet n _ (by simp)

theorem solBoost_defersNone (n : Nat) : DefersNone profileFields s (solBoost t n) := by
  have hsub := bankFields_subset_profileFields
  have hbegun : DefersNone profileFields s (setFlag (solSet t n
      { solGet t n with phase := .boost, gate := true, deferred := false, fast := false, shared := solShares t n })
        (solPage n) R.SOL.STAT.BVBAT (!solShares t n && bankSel t (solBank n) ≠ 2)) := (h.solSet n _ (by simp)).setFlag (by simp [profileFields])
  unfold solBoost
  refine bankUpdate_defersNone (.when (DefersNone.setFlag hbegun (by simp [profileFields])) fun hu => hu.foldl fun u hu m _ => ?_) hsub _
  exact solStat_defersNone (hu.setFlag (by simp [profileFields])) hsub m

theorem solLeaveBoost_defersNone {n : Nat} (hn : n < 16) (dur ipk : Nat) : DefersNone profileFields s (solLeaveBoost t n dur ipk) := by
  have hsub := bankFields_subset_profileFields
  have hline : 44 + solBank n < 64 := by unfold solBank; omega
  unfold solLeaveBoost
  extract_lets p b shown left
  have hshown : DefersNone profileFields s (setFlag shown p R.SOL.EVT.BDONE true) :=
    ((h.setF (by simp [profileFields])).setF (by simp [profileFields])).setFlag (by simp [profileFields])
  have hleft : DefersNone profileFields s left :=
    hshown.upd (raiseLine_writesValves (.refl _ _) hline) (raiseLine_lineRaised (.refl _) hline).sol
  split
  · next m _ =>
    exact .ite (solStat_defersNone (solBoost_defersNone (bankUnqueue_defersNone hleft m) m) hsub m) (bankUpdate_defersNone hleft hsub _)
  · exact bankUpdate_defersNone hleft hsub _

theorem solEnd_defersNone {n : Nat} (hn : n < 16) : DefersNone profileFields s (solEnd t n) := by
  have hsub := bankFields_subset_profileFields
  unfold solEnd solDecay
  extract_lets u c
  have hunqueued : DefersNone profileFields s u := .when h fun h => bankUpdate_defersNone (bankUnqueue_defersNone h n) hsub _
  split
  · have hoff := hunqueued.solSet n { c with phase := .decay, gate := false, shared := false, fast := false }
    exact solLeaveBoost_defersNone (hoff.upd (WritesValves.refl _ _).upd) hn _ _
  · exact bankUpdate_defersNone (hunqueued.solSet n _) hsub _
  · exact hunqueued

end

section
variable {s t : State} (h : WritesValves profileFields s t)
include h

theorem solRequest_writesValves (n : Nat) : WritesValves profileFields s (solRequest t n) := by
  unfold solRequest
  extract_lets b c
  split
  · exact h
  · split
    · next queued counted _ _ _ =>
      have hqueued : WritesValves profileFields s queued := h.upd
      have hcounted : WritesValves profileFields s counted := hqueued.setF_of (.inr (Nat.le_refl _))
      exact WritesValves.trans (WritesValves.upd hcounted) (bankUpdate_defersNone (.refl _ _) bankFields_subset_profileFields b).toWritesValves
    · exact h.trans (solBoost_defersNone (.refl _ t) n).toWritesValves

theorem solNew_writesValves (n : Nat) (trig : Bool) : WritesValves profileFields s (solNew t n trig) := by
  have hended : WritesValves profileFields s (if (solGet t n).phase = .decay || (solGet t n).phase = .window then solResult t n 5 else t) :=
    .when h fun h => h.trans (solResult_defersNone (.refl _ t) bankFields_subset_profileFields n 5).toWritesValves
  unfold solNew
  extract_lets p c ended set
  have hset : WritesValves profileFields s set := WritesValves.upd (t := ended) hended
  exact .ite h (.ite hset (solRequest_writesValves hset n))

theorem solUpdate_writesValves {n : Nat} (hn : n < 16) : WritesValves profileFields s (solUpdate t n) := by
  have hset (c : SolSt) : WritesValves profileFields s (solSet t n c) := h.upd
  unfold solUpdate
  refine solStat_writesValves (.ite (solNew_writesValves (hset _) n false) (.ite (hset _) (.when (hset _) fun h => ?ends)))
    (List.Subset.trans solStatFields_subset_bankFields bankFields_subset_profileFields) n
  exact h.trans (solEnd_defersNone (.refl _ _) hn).toWritesValves

end

end Sys2Proof.Machine
end

section
/-! The commands of a valve: what a write of CMD keeps, and when a TRIG starts BOOST (09, R202, R203, R210, R212). -/

-- One proof after another: side by side they start more threads than the memory limit of the check has room for.
set_option Elab.async false

namespace Sys2Proof.Machine

/-! ### Conditions of a command -/

theorem cfg_congr {s t : State} (h : t.applied = s.applied) (p : Nat) (f : Fld) : cfg t p f = cfg s p f := by rw [cfg, cfgW, h, cfg, cfgW]

theorem cfgOn_congr {s t : State} (h : t.applied = s.applied) (p : Nat) (f : Fld) : cfgOn t p f = cfgOn s p f := by
  rw [cfgOn, cfg_congr h, cfgOn]

/-- Nothing but a trip or a latch keeps a command from valve `n`: commands act, no REFUSE ignores them, no protection source is forced, and
its BOOST waits for no other (R15, R202, R204, R210, R214, R216). -/
structure CommandOpen (s : State) (n : Nat) : Prop where
  canon : storeWf regReset s.regs = true
  enabled : enabled s (solPage n) = true
  safe : safeInForce s (84 + n) = false
  reflexOn : rfxOn s (84 + n) = false
  reflexOff : rfxOff s (84 + n) = false
  permits : modePermits s .cmd = true
  fed : shed s (84 + n) = false
  takes : solRefuses s n = false
  alone : solShares s n = false
  force : (getF s (solPage n) H.PFORCE &&& 0x6D) = 0

/-- What decides on a command is kept by what writes none of the fields that it reads. -/
theorem CommandOpen.keep {L : List Fld} {s t : State} {n : Fin 16} (h : CommandOpen s n) (hw : WritesValves L s t)
    (hL : L.all (fieldsApart H.ENABLE) = true ∧ L.all (fieldsApart H.PFORCE) = true ∧ L.all (fieldsApart R.SOL.STAT.COILLIM) = true) : CommandOpen t n := by
  have hbit (q off : Nat) (hq : 0x10 ≤ q ∧ q < 0x74) (ho : off < 4096) (b : Nat) : (rd t q off).getLsbD b = (rd s q off).getLsbD b := by
    rw [← isSet_bit, ← isSet_bit]
    exact hw.isSet h.canon (by simp [offFields, ho]; omega)
  have hpage (f : Fld) (ho : f.off < 4096) (hf : L.all (fieldsApart f) = true) : isSet t (solPage n) f = isSet s (solPage n) f :=
    hw.isSet h.canon (offFields_solPage n hf ho)
  exact
    { canon := hw.canon h.canon
      enabled := (congrArg (alwaysOn (solPage n) || ·) (hpage H.ENABLE (by decide) hL.1)).trans h.enabled
      safe := (show safeInForce t _ = safeInForce s _ by simp only [safeInForce, hw.mode, hw.opened]).trans h.safe
      reflexOn := (hbit _ _ (by decide) (by omega) _).trans h.reflexOn
      reflexOff := (hbit _ _ (by decide) (by omega) _).trans h.reflexOff
      permits := (show modePermits t _ = modePermits s _ by simp only [modePermits, parkHolds, hw.mode, hw.park, hw.loaded]).trans h.permits
      fed := (hbit _ _ (by decide) (by omega) _).trans h.fed
      takes := (show solRefuses t _ = solRefuses s _ by simp only [solRefuses, hpage _ (by decide) hL.2.2, cfgOn_congr hw.config]).trans h.takes
      alone := (show solShares t _ = solShares s _ by
        rw [solShares, solShares, bankSel, bankSel, hw.sel, cfg_congr hw.config, cfgOn_congr hw.config]).trans h.alone
      force := (congrArg (· &&& 0x6D) (hw.field h.canon _ _ (offFields_solPage n hL.2.1 (by decide)))).trans h.force }

/-- No trip, latch or lockout holds the output (R212). -/
def Prot.permits (c : Prot) : Bool := !c.lockout && !c.latchT && !c.latchD && !c.tripped

theorem solProtPermits_iff {s : State} {n : Nat} :
    solProtPermits s n = true ↔ (getF s (solPage n) H.PFORCE &&& 0x6D) = 0 ∧ (solGet s n).prot.permits = true := by
  simp only [solProtPermits, Prot.permits, Bool.and_eq_true, decide_eq_true_eq]
  exact and_comm

theorem CommandOpen.solProtPermits {s : State} {n : Nat} (h : CommandOpen s n) (hc : (solGet s n).prot.permits = true) :
    solProtPermits s n = true := solProtPermits_iff.mpr ⟨h.force, hc⟩

theorem CommandOpen.solTrigAllowed {s : State} {n : Nat} (h : CommandOpen s n) : solTrigAllowed s n = true := by
  simp [Machine.solTrigAllowed, h.safe, h.enabled, h.reflexOff, h.permits]

/-! ### A new command (R202, R203) -/

/-- From `c` to `d` a valve has taken a new command, of the TRIG kind or not, and is in BOOST with its low side on, unless BOOST had
begun with it off. -/
structure Boosts (c d : SolSt) (trig : Bool) : Prop where
  phase : d.phase = .boost
  trig : d.trig = trig
  waits : d.deferred = false
  gate : (c.phase = .boost → c.gate = true) → d.gate = true

/-- The state of a valve that enters BOOST from VBAT, or from a bank that is on VBST whatever it does. -/
def SolSt.boosted (c : SolSt) : SolSt := { c with phase := .boost, gate := true, deferred := false, fast := false, shared := false }

/-- A valve that takes no part in its bank's overlap policy enters BOOST (R210). -/
theorem solRequest_alone {s : State} {n : Nat} (hwaits : (solGet s n).deferred = false) (halone : solShares s n = false) :
    solRequest s n = solBoost s n := by simp [solRequest, hwaits, halone]

theorem solGet_solBoost {s : State} (hs : storeWf (fun _ => SolSt.init) s.sol = true) {n : Nat} (halone : solShares s n = false) :
    Follows (solGet s n).boosted (solGet (solBoost s n) n) := by
  let shown := setFlag (setFlag (solSet s n (solGet s n).boosted) (solPage n) R.SOL.STAT.BVBAT
    (decide (bankSel (solSet s n (solGet s n).boosted) (solBank n) ≠ 2))) (solPage n) R.SOL.STAT.SHXT false
  have hboost : solBoost s n = bankUpdate shown (solBank n) := by
    simp only [solBoost, halone, Bool.not_false, Bool.true_and, Bool.false_and, Bool.false_eq_true, if_false]
    rfl
  have hshown : solGet shown n = (solGet s n).boosted := solGet_set_same hs n _
  have hwf : storeWf (fun _ => SolSt.init) shown.sol = true := storeSet_wf hs
  rw [hboost, ← hshown]
  exact solGet_bankUpdate hwf _ n

/-- A new command is taken: it ends a decay or a window with RESTART (R203). -/
def solTaken (s : State) (n : Nat) (trig : Bool) : State :=
  let c := solGet s n
  solSet (if c.phase = .decay || c.phase = .window then solResult s n 5 else s) n { c with trig := trig, holdMs := 0 }

theorem solNew_eq {s : State} {n : Nat} (h : solRefuses s n = false) (trig : Bool) :
    solNew s n trig = if (solGet s n).phase = .boost then solTaken s n trig else solRequest (solTaken s n trig) n := by
  simp [solNew, h, solTaken]

theorem solTaken_writesValves (s : State) (n : Nat) (trig : Bool) : WritesValves bankFields s (solTaken s n trig) :=
  (WritesValves.when (.refl _ s) fun h => h.trans (solResult_defersNone (.refl _ s) (List.Subset.refl _) n 5).toWritesValves).upd

section
variable {s : State} (hs : OutputsCanon s) {n : Nat}
include hs

theorem solTaken_canon (trig : Bool) : storeWf (fun _ => SolSt.init) (solTaken s n trig).sol = true ∧
    solGet (solTaken s n trig) n = { solGet s n with trig := trig, holdMs := 0 } := by
  have hended : storeWf (fun _ => SolSt.init)
      (if (solGet s n).phase = .decay || (solGet s n).phase = .window then solResult s n 5 else s).sol = true :=
    (KeepsProt.when (.refl hs) (solResult_keepsProt · n 5)).canon.sol
  exact ⟨storeSet_wf hended, solGet_set_same hended n _⟩

end

section
variable {s : State} (hs : OutputsCanon s) {n : Fin 16} (h : CommandOpen s n) (hwaits : (solGet s n).deferred = false)
include hs h hwaits

theorem solNew_boosts (trig : Bool) : Boosts (solGet s n) (solGet (solNew s n trig) n) trig := by
  obtain ⟨hwf, hget⟩ := solTaken_canon hs (n := n) trig
  rw [solNew_eq h.takes]
  split
  · next hphase =>
    rw [hget]
    exact ⟨hphase, rfl, hwaits, fun hgate => hgate hphase⟩
  · have halone := (h.keep (solTaken_writesValves s n trig) (by decide)).alone
    rw [solRequest_alone (by rw [hget]; exact hwaits) halone]
    have hboost := solGet_solBoost hwf halone
    rw [hget] at hboost
    exact ⟨hboost.phase (by simp [SolSt.boosted]), by rw [hboost.rest]; rfl, by rw [hboost.rest]; rfl, fun _ => by rw [hboost.rest]; rfl⟩

end

/-! ### The update of a valve (R14) -/

/-- Neither the governor nor its protection holds the valve. -/
def solFree (s : State) (n : Nat) : Bool := !shed s (84 + n) && solProtPermits s n

/-- A level demand is in effect. -/
def solWants (s : State) (n : Nat) : Bool := (solDemand s n).1 && modePermits s (solDemand s n).2 && solFree s n

/-- The demand is a reflex one. -/
def solReflex (s : State) (n : Nat) : Bool := (solDemand s n).2 = .reflex && (solDemand s n).1

/-- The demand is a new command of the ON kind (R202, R214). -/
def solFresh (s : State) (n : Nat) : Bool :=
  solWants s n && (!(solGet s n).level || (solReflex s n && !(solGet s n).rfx) ||
    ((safeInForce s (84 + n) && !isSet s (solPage n) R.SOL.STAT.SAFEACT) && cfg s (solPage n) R.SOL.SAFE.SAFE = 1))

/-- A profile runs that may not run on without a level demand. -/
def solEnds (s : State) (n : Nat) : Bool :=
  ((solGet s n).deferred || (solGet s n).phase = .boost || (solGet s n).phase = .hold) &&
    !((solGet s n).trig && solFree s n && solTrigAllowed s n)

/-- The valve has seen its level demand. -/
def solSeen (s : State) (n : Nat) : State := solSet s n { solGet s n with level := solWants s n, rfx := solReflex s n }

theorem solUpdate_eq (s : State) (n : Nat) : solUpdate s n =
    solStat (if solFresh s n then solNew (solSeen s n) n false else if solWants s n then solSeen s n
      else if solEnds s n then solEnd (solSeen s n) n else solSeen s n) n := rfl

theorem solProtPermits_of_fresh {s : State} {n : Nat} (h : solFresh s n = true) : solProtPermits s n = true := by
  simp only [solFresh, solWants, solFree, Bool.and_eq_true] at h
  exact h.1.2.2

section
variable {s : State} (hs : OutputsCanon s) {n : Fin 16}
include hs

theorem solSeen_outputs : OutputsCanon (solSeen s n) := ⟨hs.hsc, hs.hb, storeSet_wf hs.sol, hs.lst⟩

theorem solGet_solSeen : solGet (solSeen s n) n = { solGet s n with level := solWants s n, rfx := solReflex s n } := solGet_set_same hs.sol n _

theorem solSeen_waits (hwaits : (solGet s n).deferred = false) : (solGet (solSeen s n) n).deferred = false := by
  rw [solGet_solSeen hs]
  exact hwaits

/-- The update of a valve that does not wait for its bank lets it not wait, where it may enter BOOST or its protection holds it off. -/
theorem solUpdate_waits (hwaits : (solGet s n).deferred = false) (h : CommandOpen s n ∨ solProtPermits s n = false) :
    (solGet (solUpdate s n) n).deferred = false := by
  have hseen := solSeen_waits hs hwaits
  rw [solUpdate_eq, solGet_solStat]
  split
  · next hfresh =>
    obtain hopen | hheld := h
    · exact (solNew_boosts (solSeen_outputs hs) (hopen.keep (WritesValves.refl [] s).upd (by decide)) hseen false).waits
    · exact absurd (solProtPermits_of_fresh hfresh) (by simp [hheld])
  · split
    · exact hseen
    · split
      · exact (solEnd_defersNone (.refl _ _) n.isLt).waits (solSeen_outputs hs).sol n hseen
      · exact hseen

/-- The update of a valve whose last command was a TRIG, and that may run on, never turns its low side off in BOOST. -/
theorem solUpdate_gate (h : CommandOpen s n) (hwaits : (solGet s n).deferred = false) (htrig : (solGet s n).trig = true)
    (hprot : (solGet s n).prot.permits = true) (hgate : (solGet s n).phase = .boost → (solGet s n).gate = true) :
    (solGet (solUpdate s n) n).phase = .boost → (solGet (solUpdate s n) n).gate = true := by
  have hseen : (solGet (solSeen s n) n).phase = .boost → (solGet (solSeen s n) n).gate = true := by
    rw [solGet_solSeen hs]
    exact hgate
  have hends : solEnds s n = false := by simp [solEnds, htrig, solFree, h.fed, h.solProtPermits hprot, h.solTrigAllowed]
  rw [solUpdate_eq, solGet_solStat, hends]
  split
  · exact fun _ => (solNew_boosts (solSeen_outputs hs) (h.keep (WritesValves.refl [] s).upd (by decide)) (solSeen_waits hs hwaits) false).gate hseen
  · simpa using hseen

end

/-! ### A write of CMD (R202) -/

/-- ON and STAYON as written. -/
def solCmdTaken (s : State) (n : Nat) (v : Word) : State :=
  setF (setF s (solPage n) R.SOL.CMD.ON (fget v R.SOL.CMD.ON)) (solPage n) R.SOL.CMD.STAYON (fget v R.SOL.CMD.STAYON)

/-- A TRIG is noted as the kind of the command that the update of the valve finds. -/
def solTrigNoted (s : State) (n : Nat) : State := solSet s n { solGet s n with trig := true }

theorem solCmd_trig {s : State} {n : Nat} {v : Word} (h : solTrigs (solCmdTaken s n v) n v = true) :
    solCmd s n v = solStat (solNew (solUpdate (solTrigNoted (solCmdTaken s n v) n) n) n true) n := if_pos h

theorem solCmdTaken_writesValves (s : State) (n : Nat) (v : Word) : WritesValves [R.SOL.CMD.ON, R.SOL.CMD.STAYON] s (solCmdTaken s n v) :=
  (WritesValves.setF (.refl _ s) (by simp)).setF (by simp)

section
variable {s : State} (hs : OutputsCanon s) {n : Fin 16} {v : Word}
include hs

/-- A TRIG on a valve that nothing keeps from it starts BOOST, or restarts the count of TBMAX in it (R203). -/
theorem solCmd_boosts (h : CommandOpen s n) (hwaits : (solGet s n).deferred = false) (hprot : (solGet s n).prot.permits = true)
    (hv : fget v R.SOL.CMD.TRIG = 1) : Boosts (solGet s n) (solGet (solCmd s n v) n) true := by
  have htaken : CommandOpen (solCmdTaken s n v) n := h.keep (solCmdTaken_writesValves s n v) (by decide)
  have hopen : CommandOpen (solTrigNoted (solCmdTaken s n v) n) n := htaken.keep (WritesValves.refl [] _).upd (by decide)
  have hnoted : OutputsCanon (solTrigNoted (solCmdTaken s n v) n) := ⟨hs.hsc, hs.hb, storeSet_wf hs.sol, hs.lst⟩
  have hget : solGet (solTrigNoted (solCmdTaken s n v) n) n = { solGet s n with trig := true } := solGet_set_same hs.sol n _
  have htrigs : solTrigs (solCmdTaken s n v) n v = true := by
    simp [solTrigs, solTrigOpen, hv, solTakes, htaken.enabled, htaken.safe, htaken.reflexOn, htaken.solTrigAllowed, htaken.fed, htaken.takes,
      htaken.solProtPermits (show (solGet (solCmdTaken s n v) n).prot.permits = true from hprot)]
  have hupdated := solUpdate_writesValves (.refl _ (solTrigNoted (solCmdTaken s n v) n)) n.isLt
  have hlast := solNew_boosts (solUpdate_keepsProt (.refl hnoted) n).canon (hopen.keep hupdated (by decide))
    (solUpdate_waits hnoted (hget ▸ hwaits) (.inl hopen)) true
  rw [solCmd_trig htrigs, solGet_solStat]
  refine ⟨hlast.phase, hlast.trig, hlast.waits, fun hgate => hlast.gate ?_⟩
  exact solUpdate_gate hnoted hopen (hget ▸ hwaits) (by rw [hget]) (hget ▸ hprot) (hget ▸ hgate)

/-- What follows a write of CMD keeps the retry states. -/
theorem solCmd_keepsProt : KeepsProt s (solCmd s n v) := by
  have htaken : KeepsProt s (solCmdTaken s n v) := (KeepsProt.setF (.refl hs)).setF
  unfold solCmd
  extract_lets p on t ends
  have hnoted (trig : Bool) : KeepsProt s (solSet t n { solGet t n with trig := trig }) := solSet_keepsProt htaken n _
  exact .ite (solStat_keepsProt (solNew_keepsProt (solUpdate_keepsProt (hnoted true) n) n true) n)
    (solUpdate_keepsProt (.ite (solEnd_keepsProt (hnoted false) n) htaken) n)

end

end Sys2Proof.Machine
end

section
/-! The phases of a valve: writes of CMD with the restart of a tripped valve, BOOST and HOLD, decay, closing detection and the deferral (09,
R201, R202, R206 to R208, R211, R212). -/

-- One proof after another: side by side they start more threads than the memory limit of the check has room for.
set_option Elab.async false

namespace Sys2Proof.Machine

/-! ### Writes of CMD and the restart by a TRIG (R202, R212) -/

/-- A tripped valve starts anew with one retry consumed, before it is evaluated (R139). -/
def solRestarted (s : State) (n : Nat) : State :=
  solSet s n { solGet s n with
    prot := { (solGet s n).prot with tripped := false, slewOff := false, rused := satInc 15 (solGet s n).prot.rused } }

theorem protStart_sol (s : State) (n : Fin 16) :
    protStart s (.sol n) = touch (bankUpdate (solUpdate (solRestarted s n) n) (solBank n)) := rfl

theorem protStart_sol_writesValves (s : State) (n : Fin 16) : WritesValves profileFields s (protStart s (.sol n)) := by
  have hupdated : WritesValves profileFields s (solUpdate (solRestarted s n) n) := solUpdate_writesValves (WritesValves.refl _ s).upd n.isLt
  rw [protStart_sol]
  exact (hupdated.trans (bankUpdate_defersNone (.refl _ _) bankFields_subset_profileFields _).toWritesValves).upd

/-- What follows a write of CMD writes no other field than those of a profile. -/
theorem solCmd_writesValves (s : State) (n : Fin 16) (v : Word) : WritesValves profileFields (solCmdTaken s n v) (solCmd s n v) := by
  have hsub := List.Subset.trans solStatFields_subset_bankFields bankFields_subset_profileFields
  have hnoted (trig : Bool) : WritesValves profileFields (solCmdTaken s n v)
      (solSet (solCmdTaken s n v) n { solGet (solCmdTaken s n v) n with trig := trig }) := (WritesValves.refl _ _).upd
  unfold solCmd
  extract_lets p on t ends
  refine .ite (solStat_writesValves (solNew_writesValves (solUpdate_writesValves (hnoted true) n.isLt) n true) hsub n)
    (solUpdate_writesValves (.ite ?ends (.refl _ _)) n.isLt)
  exact (hnoted false).trans (solEnd_defersNone (.refl _ _) n.isLt).toWritesValves

/-- CMD holds ON and STAYON as written. -/
theorem solCmd_shows {s : State} (h : storeWf regReset s.regs = true) (n : Fin 16) (v : Word) :
    isSet (solCmd s n v) (solPage n) R.SOL.CMD.ON = v.getLsbD 0 ∧ isSet (solCmd s n v) (solPage n) R.SOL.CMD.STAYON = v.getLsbD 2 ∧
      (solCmd s n v).applied = s.applied ∧ (solCmd s n v).mem = s.mem := by
  have hkeeps := solCmd_writesValves s n v
  have hwf := (solCmdTaken_writesValves s n v).canon h
  have hbit (w : Word) (b : Nat) : decide (fget w ⟨0x100, b, b⟩ % 2 ^ 1 ≠ 0) = w.getLsbD b := by
    rw [Bool.eq_iff_iff]
    simp [fget, BitVec.getLsbD, Nat.testBit, Nat.one_and_eq_mod_two]
  have hon : getF (solCmdTaken s n v) (solPage n) R.SOL.CMD.ON = fget v R.SOL.CMD.ON % 2 ^ 1 :=
    (getF_setF_apart (setF_wf h) (by decide)).trans (getF_setF_same h (by decide) (by decide))
  have hstayon : getF (solCmdTaken s n v) (solPage n) R.SOL.CMD.STAYON = fget v R.SOL.CMD.STAYON % 2 ^ 1 :=
    getF_setF_same (setF_wf h) (by decide) (by decide)
  refine ⟨?_, ?_, hkeeps.config, hkeeps.memory⟩
  · rw [hkeeps.isSet hwf (offFields_solPage n (by decide) (by decide)), isSet, hon]
    exact hbit v 0
  · rw [hkeeps.isSet hwf (offFields_solPage n (by decide) (by decide)), isSet, hstayon]
    exact hbit v 2

theorem solCommand_shows {s : State} (h : storeWf regReset s.regs = true) (n : Fin 16) (v : Word) :
    isSet (solCommand s n v) (solPage n) R.SOL.CMD.ON = v.getLsbD 0 ∧ isSet (solCommand s n v) (solPage n) R.SOL.CMD.STAYON = v.getLsbD 2 ∧
      (solCommand s n v).applied = s.applied ∧ (solCommand s n v).mem = s.mem := by
  have hstarted := protStart_sol_writesValves s n
  obtain ⟨hon, hstayon, hconfig, hmemory⟩ := solCmd_shows (hstarted.canon h) n v
  unfold solCommand
  extract_lets due
  split
  · exact ⟨hon, hstayon, hconfig.trans hstarted.config, hmemory.trans hstarted.memory⟩
  · exact solCmd_shows h n v

/-- A restart that is due finds no source forced, and nothing but the trip itself. -/
theorem protReady_sol {s : State} {n : Fin 16} (hready : protReady s (.sol n) = true) : (getF s (solPage n) H.PFORCE &&& 0x6D) = 0 ∧
    { (solGet s n).prot with tripped := false, slewOff := false, rused := satInc 15 (solGet s n).prot.rused : Prot }.permits = true := by
  simp only [protReady, protLatched, protHalves, protForce, protMask, protPage, protGet, Bool.and_eq_true, Bool.not_eq_true', List.any_cons,
    List.any_nil, Bool.or_eq_false_iff, List.foldl_cons, List.foldl_nil, Nat.zero_or, decide_eq_true_eq] at hready
  obtain ⟨⟨⟨⟨⟨-, ⟨hthermal, hdelta⟩, -⟩, -⟩, hlockout⟩, -⟩, hforce⟩ := hready
  exact ⟨hforce, by simp [Prot.permits, hthermal, hdelta, hlockout]⟩

theorem fget_trig (v : Word) : fget (v ||| 2) R.SOL.CMD.TRIG = 1 := by
  have hbit : (v ||| 2).getLsbD 1 = true := by simp
  simpa [fget, R.SOL.CMD.TRIG, BitVec.getLsbD, Nat.testBit, Nat.one_and_eq_mod_two] using hbit

section
variable {s : State} (hs : OutputsCanon s) {n : Fin 16} (h : CommandOpen s n) (hwaits : (solGet s n).deferred = false) {v : Word}
  (hv : fget v R.SOL.CMD.TRIG = 1)
include hs h hwaits hv

/-- A TRIG on a free valve starts BOOST. -/
theorem solCommand_boosts (hprot : (solGet s n).prot.permits = true) : Boosts (solGet s n) (solGet (solCommand s n v) n) true := by
  have htripped : (solGet s n).prot.tripped = false := by
    simp only [Prot.permits, Bool.and_eq_true, Bool.not_eq_true'] at hprot
    exact hprot.2
  have hready : protReady s (.sol n) = false := by simp [protReady, protGet, htripped]
  have hcommand : solCommand s n v = solCmd s n v := by simp [solCommand, hready]
  rw [hcommand]
  exact solCmd_boosts hs h hwaits hprot hv

/-- A TRIG on a tripped valve whose restart is due restarts it and consumes a retry. -/
theorem solCommand_restarts (hready : protReady s (.sol n) = true) : (solGet (solCommand s n v) n).phase = .boost ∧
    (solGet (solCommand s n v) n).prot.tripped = false ∧ (solGet (solCommand s n v) n).prot.rused = satInc 15 (solGet s n).prot.rused := by
  have hopen : solTrigOpen s n v = true := by
    simp [solTrigOpen, hv, solTakes, h.enabled, h.safe, h.reflexOn, h.solTrigAllowed, h.fed, h.takes]
  have hcommand : solCommand s n v = solCmd (protStart s (.sol n)) n v := by simp [solCommand, hopen, hready]
  have hrestarted : OutputsCanon (solRestarted s n) := ⟨hs.hsc, hs.hb, storeSet_wf hs.sol, hs.lst⟩
  have hget : (solGet (solRestarted s n) n).deferred = false := by
    rw [solRestarted, solGet_set_same hs.sol]
    exact hwaits
  have hupdated : (solGet (solUpdate (solRestarted s n) n) n).deferred = false :=
    solUpdate_waits hrestarted hget (.inl (h.keep (WritesValves.refl [] s).upd (by decide)))
  have hwf := (solUpdate_keepsProt (.refl hrestarted) n).canon.sol
  have hwaits' : (solGet (protStart s (.sol n)) n).deferred = false :=
    (bankUpdate_defersNone (.refl bankFields _) (List.Subset.refl _) (solBank n)).waits hwf n hupdated
  have hprot : (solGet (protStart s (.sol n)) n).prot =
      { (solGet s n).prot with tripped := false, slewOff := false, rused := satInc 15 (solGet s n).prot.rused } :=
    (protStart_keepsProt hs (.sol n)).get_set hs rfl
  have hpermits : (solGet (protStart s (.sol n)) n).prot.permits = true := by
    rw [hprot]
    exact (protReady_sol hready).2
  have hstarted := protStart_keepsProt hs (.sol n)
  have hboosts := solCmd_boosts hstarted.canon (h.keep (protStart_sol_writesValves s n) (by decide)) hwaits' hpermits hv
  have hlast := (solCmd_keepsProt hstarted.canon (n := n) (v := v)).sol n
  rw [hcommand, hlast, hprot]
  exact ⟨hboosts.phase, rfl, rfl⟩

end

/-! ### BOOST ends (R200, R201) -/

/-- The valve has left BOOST for HOLD, whose first phase is an off-time. -/
def solHolding (s : State) (n : Nat) : State :=
  solSet s n { solGet s n with phase := .hold, gate := false, shared := false, holdMs := 0 }

/-- SOL.BOOST holds the duration and the current reached, and BDONE raises the bank's line. -/
def boostRecorded (s : State) (n dur ipk : Nat) : State :=
  raiseLine (setFlag (setF (setF s (solPage n) R.SOL.BOOST.TBST dur) (solPage n) R.SOL.BOOST.IPKR ipk) (solPage n) R.SOL.EVT.BDONE true)
    (44 + solBank n)

theorem solPage_line (n : Fin 16) : 44 + solBank n.val < 64 := by unfold solBank; omega

/-- With no valve waiting for the bank, its position follows at once. -/
theorem solLeaveBoost_alone {s : State} {n : Fin 16} (hqueue : bankQueue s (solBank n) = []) (dur ipk : Nat) :
    solLeaveBoost s n dur ipk = bankUpdate (boostRecorded s n dur ipk) (solBank n) := by
  have hempty : bankQueue (boostRecorded s n dur ipk) (solBank n) = [] := by
    rw [bankQueue, boostRecorded, (raiseLine_lineRaised (.refl _) (solPage_line n)).sbk]
    exact hqueue
  unfold solLeaveBoost
  extract_lets p b shown left
  split
  · next m hm => exact absurd ((congrArg (List.find? (solMayBoost left)) hempty).symm.trans hm) (by simp)
  · rfl

theorem solPeak_eq {s : State} {n : Fin 16} (hphase : (solGet s n).phase = .boost) (hqueue : bankQueue s (solBank n) = []) (dur ipk : Nat) :
    solPeak s n dur ipk = solStat (bankUpdate (boostRecorded (solHolding s n) n dur ipk) (solBank n)) n := by
  rw [← solLeaveBoost_alone (s := solHolding s n) hqueue]
  exact if_neg (by simp [hphase])

section
variable {s : State} {n : Fin 16}

theorem boostRecorded_shows (h : storeWf regReset s.regs = true) (dur : BitVec 16) (ipk : BitVec 12) :
    let t := boostRecorded s n dur.toNat ipk.toNat
    getF t (solPage n) R.SOL.BOOST.TBST = dur.toNat ∧ getF t (solPage n) R.SOL.BOOST.IPKR = ipk.toNat ∧
      isSet t (solPage n) R.SOL.EVT.BDONE = true := by
  let t1 := setF s (solPage n) R.SOL.BOOST.TBST dur.toNat
  let t2 := setF t1 (solPage n) R.SOL.BOOST.IPKR ipk.toNat
  let t3 := setFlag t2 (solPage n) R.SOL.EVT.BDONE true
  have h1 : storeWf regReset t1.regs = true := setF_wf h
  have h2 : storeWf regReset t2.regs = true := setF_wf h1
  have h3 : storeWf regReset t3.regs = true := setFlag_wf h2
  have hline : WritesValves [] t3 (boostRecorded s n dur.toNat ipk.toNat) := raiseLine_writesValves (.refl [] t3) (solPage_line n)
  have hdur : getF t1 (solPage n) R.SOL.BOOST.TBST = dur.toNat :=
    (getF_setF_same h (by decide) (by decide)).trans (Nat.mod_eq_of_lt dur.isLt)
  have hipk : getF t2 (solPage n) R.SOL.BOOST.IPKR = ipk.toNat :=
    (getF_setF_same h1 (by decide) (by decide)).trans (Nat.mod_eq_of_lt ipk.isLt)
  refine ⟨?_, ?_, ?_⟩
  · rw [hline.field h3 _ _ (offFields_solPage n (by decide) (by decide))]
    exact (getF_setF_apart h2 (by decide)).trans ((getF_setF_apart h1 (by decide)).trans hdur)
  · rw [hline.field h3 _ _ (offFields_solPage n (by decide) (by decide))]
    exact (getF_setF_apart h2 (by decide)).trans hipk
  · rw [hline.isSet h3 (offFields_solPage n (by decide) (by decide))]
    exact isSet_setFlag_same h2 rfl (by decide)

theorem boostRecorded_writesValves (dur ipk : Nat) : WritesValves profileFields s (boostRecorded (solHolding s n) n dur ipk) := by
  have hheld : WritesValves profileFields s (solHolding s n) := (WritesValves.refl _ s).upd
  exact raiseLine_writesValves (((hheld.setF (by simp [profileFields])).setF (by simp [profileFields])).setFlag (by simp [profileFields]))
    (solPage_line n)

/-- FCODE names the failure, which VLVFAIL raises (R201, R208). -/
theorem solFail_shows (h : storeWf regReset s.regs = true) {code : Nat} (hcode : code < 4) :
    getF (solFail s n code) (solPage n) R.SOL.STAT.FCODE = code ∧ Raises (solFail s n code) (solPage n * 8 + 1) :=
  ⟨(getF_setF_same h (by decide) (by decide)).trans (Nat.mod_eq_of_lt hcode), raiseP_raises _ _ 1⟩

theorem solGet_solFail (s : State) (n code m : Nat) : solGet (solFail s n code) m = solGet s m := rfl

theorem solFail_writesValves (s : State) (n code : Nat) : WritesValves [R.SOL.STAT.FCODE] s (solFail s n code) :=
  WritesValves.upd ((WritesValves.refl _ s).setF (n := n) (g := R.SOL.STAT.FCODE) (v := code) (by simp))

/-- The command of a valve in HOLD that does not wait for its bank ends: its low side turns off into DECAY. -/
theorem solEnd_hold (hphase : (solGet s n).phase = .hold) (hwaits : (solGet s n).deferred = false) : solEnd s n =
    bankUpdate (solSet s n { solGet s n with phase := .decay, gate := false, fast := bankPos s (solBank n) }) (solBank n) := by
  simp [solEnd, hwaits, solDecay, hphase]

variable (h : Canon s)
include h

/-- At IPEAK the valve passes into HOLD with its low side off. -/
theorem solPeak_holds (hphase : (solGet s n).phase = .boost) (hqueue : bankQueue s (solBank n) = []) (dur : BitVec 16) (ipk : BitVec 12) :
    let u := solPeak s n dur.toNat ipk.toNat
    ((solGet u n).phase = .hold ∧ (solGet u n).gate = false ∧ getF u (solPage n) R.SOL.BOOST.TBST = dur.toNat ∧
      getF u (solPage n) R.SOL.BOOST.IPKR = ipk.toNat ∧ isSet u (solPage n) R.SOL.EVT.BDONE = true ∧ u.applied = s.applied ∧ u.mem = s.mem) ∧
      storeWf regReset u.regs = true := by
  let t := boostRecorded (solHolding s n) n dur.toNat ipk.toNat
  have hrecorded := boostRecorded_writesValves (s := s) (n := n) dur.toNat ipk.toNat
  have hwf : storeWf regReset t.regs = true := hrecorded.canon h.regs
  obtain ⟨hdur, hipk, hdone⟩ := boostRecorded_shows (n := n) (s := solHolding s n) h.regs dur ipk
  have hkeeps : WritesValves bankFields t (solStat (bankUpdate t (solBank n)) n) :=
    (solStat_defersNone (bankUpdate_defersNone (.refl _ t) (List.Subset.refl _) _) (List.Subset.refl _) n).toWritesValves
  have hsol : t.sol = (solHolding s n).sol := (raiseLine_lineRaised (.refl _) (solPage_line n)).sol
  have hget : solGet t n = { solGet s n with phase := .hold, gate := false, shared := false, holdMs := 0 } := by
    rw [solGet, hsol]
    exact solGet_set_same h.sol n _
  have hfollows := solGet_bankUpdate (s := t) (by rw [hsol]; exact storeSet_wf h.sol) (solBank n) n
  rw [hget] at hfollows
  intro u
  have hu : u = solStat (bankUpdate t (solBank n)) n := solPeak_eq hphase hqueue dur.toNat ipk.toNat
  rw [hu, solGet_solStat]
  refine ⟨⟨hfollows.phase (by simp), by rw [hfollows.rest], ?_, ?_, ?_, hkeeps.config.trans hrecorded.config,
    hkeeps.memory.trans hrecorded.memory⟩, hkeeps.canon hwf⟩
  · rw [hkeeps.field hwf _ _ (offFields_solPage n (by decide) (by decide))]
    exact hdur
  · rw [hkeeps.field hwf _ _ (offFields_solPage n (by decide) (by decide))]
    exact hipk
  · rw [hkeeps.isSet hwf (offFields_solPage n (by decide) (by decide))]
    exact hdone

/-! ### HOLD (R201, R202) -/

theorem solChop_chops (hphase : (solGet s n).phase = .hold) (off long : Bool) (code : BitVec 12) :
    let u := solChop s n off code.toNat long
    (solGet u n).phase = .hold ∧ (solGet u n).gate = !off ∧
      getF u (solPage n) R.SOL.IMEAS.CODE = (if off = true then code.toNat else getF s (solPage n) R.SOL.IMEAS.CODE) ∧
      isSet u (solPage n) R.SOL.IMEAS.VALID = (if off = true then long else isSet s (solPage n) R.SOL.IMEAS.VALID) ∧ u.applied = s.applied ∧
      u.mem = s.mem ∧ u.due = s.due := by
  have hget (t : State) (ht : t.sol = (solSet s n { solGet s n with gate := !off }).sol) :
      solGet t n = { solGet s n with gate := !off } := by
    rw [solGet, ht]
    exact solGet_set_same h.sol n _
  intro u
  have hu : u = if off then setFlag (setF (solSet s n { solGet s n with gate := !off }) (solPage n) R.SOL.IMEAS.CODE code.toNat)
      (solPage n) R.SOL.IMEAS.VALID long else solSet s n { solGet s n with gate := !off } := if_neg (by simp [hphase])
  have hsol : u.sol = (solSet s n { solGet s n with gate := !off }).sol := by
    rw [hu]
    split <;> rfl
  rw [hget u hsol]
  refine ⟨hphase, rfl, ?_⟩
  rw [hu]
  cases off with
  | false => exact ⟨rfl, rfl, rfl, rfl, rfl⟩
  | true =>
    have hcode : getF (setF (solSet s n { solGet s n with gate := !true }) (solPage n) R.SOL.IMEAS.CODE code.toNat) (solPage n) R.SOL.IMEAS.CODE =
        code.toNat := (getF_setF_same h.regs (by decide) (by decide)).trans (Nat.mod_eq_of_lt code.isLt)
    exact ⟨(getF_setF_apart (setF_wf h.regs) (by decide)).trans hcode, isSet_setFlag_same (setF_wf h.regs) rfl (by decide), rfl, rfl, rfl⟩

theorem solHoldEnd_decays (hphase : (solGet s n).phase = .hold) (hwaits : (solGet s n).deferred = false) :
    let u := solStat (solEnd s n) n
    (solGet u n).phase = .decay ∧ (solGet u n).gate = false ∧ u.applied = s.applied ∧ u.mem = s.mem := by
  have hsub := List.Subset.trans solStatFields_subset_bankFields bankFields_subset_profileFields
  have hkeeps := solStat_writesValves (solEnd_defersNone (.refl _ s) n.isLt).toWritesValves hsub n
  have hfollows := solGet_bankUpdate (s := solSet s n { solGet s n with phase := .decay, gate := false, fast := bankPos s (solBank n) })
    (storeSet_wf h.sol) (solBank n) n
  rw [solGet_set_same h.sol, ← solEnd_hold hphase hwaits] at hfollows
  exact ⟨hfollows.phase (by simp), by rw [solGet_solStat, hfollows.rest], hkeeps.config, hkeeps.memory⟩

end

end Sys2Proof.Machine
end

section
/-! The ends of a valve's profile: DECAY, closing detection, its window and the deferral; the commands of a profile complete (09, R204,
R206 to R208, R211). -/

-- One proof after another: side by side they start more threads than the memory limit of the check has room for.
set_option Elab.async false

namespace Sys2Proof.Machine

/-! ### DECAY and its window (R206, R207, R209) -/

/-- The valve is in OFF. -/
def solOff (s : State) (n : Nat) : State := solSet s n { solGet s n with phase := .off }

theorem solDecayEnd_eq {s : State} {n : Nat} (hphase : (solGet s n).phase = .decay) : solDecayEnd s n =
    if !cfgOn s (solPage n) R.SOL.CLDC.EN then solStat (solOff s n) n
    else if (solGet s n).fast then solStat (solResult (solOff s n) n 3) n
    else if decide (6 ≤ openWindows s) then raiseP (solStat (solResult (solOff s n) n 4) n) 0x1E 4
    else solStat (solSet s n { solGet s n with phase := .window, win3 := windowOn3 s }) n := if_neg (by simp [hphase])

/-- The result of a valve with closing detection shows, with STAT after it. -/
theorem solResult_shows {s : State} (h : storeWf regReset s.regs = true) {n : Fin 16} {r : Nat} (hr : r < 16)
    (hen : cfgOn s (solPage n) R.SOL.CLDC.EN = true) :
    getF (solResult s n r) (solPage n) R.SOL.CLD.RES = r ∧ getF (solStat (solResult s n r) n) (solPage n) R.SOL.CLD.RES = r := by
  have hset : solResult s n r = setF s (solPage n) R.SOL.CLD.RES r := if_pos hen
  have hres : getF (solResult s n r) (solPage n) R.SOL.CLD.RES = r := by
    rw [hset]
    exact (getF_setF_same h (by decide) (by decide)).trans (Nat.mod_eq_of_lt hr)
  have hstat : WritesValves solStatFields (solResult s n r) (solStat (solResult s n r) n) :=
    solStat_writesValves (.refl _ _) (List.Subset.refl _) n
  refine ⟨hres, (hstat.field ?_ _ _ (offFields_solPage n (by decide) (by decide))).trans hres⟩
  rw [hset]
  exact setF_wf h

section
variable {s : State} (h : Canon s) {n : Fin 16}
include h

theorem solGet_solOff : solGet (solOff s n) n = { solGet s n with phase := .off } := solGet_set_same h.sol n _

/-- At zero current DECAY ends: a window opens, unless the decay was fast or six are open. -/
theorem solDecayEnd_ends (hphase : (solGet s n).phase = .decay) : let u := solDecayEnd s n
    (solGet u n).phase = (if cfgOn s (solPage n) R.SOL.CLDC.EN = true ∧ (solGet s n).fast = false ∧ openWindows s < 6 then .window else .off) ∧
      (cfgOn s (solPage n) R.SOL.CLDC.EN = true → (solGet s n).fast = true → getF u (solPage n) R.SOL.CLD.RES = 3) ∧
      (cfgOn s (solPage n) R.SOL.CLDC.EN = true → (solGet s n).fast = false → 6 ≤ openWindows s →
        getF u (solPage n) R.SOL.CLD.RES = 4 ∧ Raises u 244) := by
  have hoff := congrArg SolSt.phase (solGet_solOff h (n := n))
  have hended (r : Nat) : (solGet (solStat (solResult (solOff s n) n r) n) n).phase = .off := by
    rw [solGet_solStat, solGet_solResult]
    exact hoff
  intro u
  have hu : u = _ := solDecayEnd_eq hphase
  rcases Bool.eq_false_or_eq_true (cfgOn s (solPage n) R.SOL.CLDC.EN) with hen | hen
  · rcases Bool.eq_false_or_eq_true (solGet s n).fast with hfast | hfast
    · simp only [hen, hfast, Bool.not_true, Bool.false_eq_true, if_false, if_true] at hu
      simp only [hen, hfast, Bool.true_eq_false, false_and, and_false, if_false]
      rw [hu]
      exact ⟨hended 3, fun _ _ => (solResult_shows (s := solOff s n) h.regs (by decide) hen).2, fun _ hslow => absurd hslow (by simp)⟩
    · by_cases hopen : 6 ≤ openWindows s
      · simp only [hen, hfast, hopen, Bool.not_true, Bool.false_eq_true, if_false, decide_true, if_true] at hu
        simp only [hen, hfast, true_and, Nat.not_lt.mpr hopen, if_false]
        rw [hu]
        exact ⟨hended 4, fun _ hf => absurd hf (by simp),
          fun _ _ _ => ⟨(getF_raiseP _ _ _ _ _).trans (solResult_shows (s := solOff s n) h.regs (by decide) hen).2, raiseP_raises _ _ 4⟩⟩
      · simp only [hen, hfast, hopen, Bool.not_true, Bool.false_eq_true, if_false, decide_false] at hu
        simp only [hen, hfast, true_and, Nat.lt_of_not_le hopen, if_true]
        refine ⟨?_, fun _ hf => absurd hf (by simp), fun _ _ hsix => absurd hsix hopen⟩
        rw [hu, solGet_solStat, solGet_set_same h.sol]
  · simp only [hen, Bool.not_false, if_true] at hu
    simp only [hen, Bool.false_eq_true, false_and, if_false]
    rw [hu]
    exact ⟨hoff, fun hon => absurd hon (by simp), fun hon => absurd hon (by simp)⟩

omit h in
theorem solNoZero_shows (h : storeWf regReset s.regs = true) (hphase : (solGet s n).phase = .decay)
    (hen : cfgOn s (solPage n) R.SOL.CLDC.EN = true) : let u := solNoZero s n
    getF u (solPage n) R.SOL.CLD.RES = 6 ∧ u.sol = s.sol ∧ u.applied = s.applied ∧ u.mem = s.mem := by
  have hset : solNoZero s n = solResult s n 6 := if_pos hphase
  intro u
  have hu : u = solResult s n 6 := hset
  rw [hu]
  refine ⟨(solResult_shows h (by decide) hen).1, ?_⟩
  rw [solResult, if_pos hen]
  exact ⟨rfl, rfl, rfl⟩

end

/-! ### Closing detection (R206, R208) -/

/-- VCOIL shows a sample of a window whose slice works. -/
theorem solVcoil_fresh {s : State} {n : Nat} (hfresh : msqFresh s (.window (solGet s n).win3) = true) (code : Nat) :
    solVcoil s n code = setF (setFlag s (solPage n) R.SOL.VCOIL.VALID true) (solPage n) R.SOL.VCOIL.CODE code := if_neg (by simp [hfresh])

/-- A closing after `t` µs shows, and clears MISS. -/
def closingRecorded (s : State) (n t : Nat) : State :=
  setFlag (setF (setF (setF s (solPage n) R.SOL.CLD.TCLOSE t) (solPage n) R.SOL.CLD.RES 1) (solPage n) R.SOL.CLD.MISS 0)
    (solPage n) R.SOL.EVT.CLOSED true

/-- A closing after `t` µs stands in the registers of valve `n` (R208). -/
structure ShowsClosing (u : State) (n t : Nat) : Prop where
  result : getF u (solPage n) R.SOL.CLD.RES = 1
  time : getF u (solPage n) R.SOL.CLD.TCLOSE = t % 65536
  miss : getF u (solPage n) R.SOL.CLD.MISS = 0
  closed : isSet u (solPage n) R.SOL.EVT.CLOSED = true
  regs : storeWf regReset u.regs = true

/-- The state of a valve is none of its registers. -/
theorem ShowsClosing.solSet {u : State} {n t : Nat} (h : ShowsClosing u n t) (m : Nat) (c : SolSt) : ShowsClosing (solSet u m c) n t :=
  ⟨h.result, h.time, h.miss, h.closed, h.regs⟩

theorem closingRecorded_shows {s : State} (h : storeWf regReset s.regs = true) (n t : Nat) : ShowsClosing (closingRecorded s n t) n t := by
  let t1 := setF s (solPage n) R.SOL.CLD.TCLOSE t
  let t2 := setF t1 (solPage n) R.SOL.CLD.RES 1
  let t3 := setF t2 (solPage n) R.SOL.CLD.MISS 0
  have h1 : storeWf regReset t1.regs = true := setF_wf h
  have h2 : storeWf regReset t2.regs = true := setF_wf h1
  have h3 : storeWf regReset t3.regs = true := setF_wf h2
  have htime : getF t1 (solPage n) R.SOL.CLD.TCLOSE = t % 65536 := getF_setF_same h (by decide) (by decide)
  have hres : getF t2 (solPage n) R.SOL.CLD.RES = 1 := getF_setF_same h1 (by decide) (by decide)
  have hmiss : getF t3 (solPage n) R.SOL.CLD.MISS = 0 := getF_setF_same h2 (by decide) (by decide)
  refine ⟨?_, ?_, ?_, isSet_setFlag_same h3 rfl (by decide), setFlag_wf h3⟩
  · exact (getF_setF_apart h3 (by decide)).trans ((getF_setF_apart h2 (by decide)).trans hres)
  · exact (getF_setF_apart h3 (by decide)).trans ((getF_setF_apart h2 (by decide)).trans ((getF_setF_apart h1 (by decide)).trans htime))
  · exact (getF_setF_apart h3 (by decide)).trans hmiss

/-- The valve is in OFF with a closing after `t` µs, of which the sample `code` shows. -/
def closingFound (s : State) (n code t : Nat) : State :=
  solSet (closingRecorded (setF (setFlag s (solPage n) R.SOL.VCOIL.VALID true) (solPage n) R.SOL.VCOIL.CODE code) n t) n
    { solGet s n with phase := .off }

theorem closingFound_keeps (s : State) (n code t : Nat) : (closingFound s n code t).applied = s.applied ∧ (closingFound s n code t).mem = s.mem := by
  simp [closingFound, closingRecorded]

theorem closingFound_shows {s : State} (h : storeWf regReset s.regs = true) (n code t : Nat) : ShowsClosing (closingFound s n code t) n t :=
  (closingRecorded_shows (setF_wf (setFlag_wf h)) n t).solSet n _

theorem solGet_closingFound {s : State} (h : storeWf (fun _ => SolSt.init) s.sol = true) (n code t : Nat) :
    solGet (closingFound s n code t) n = { solGet s n with phase := .off } := by
  have hsol : (closingFound s n code t).sol = storeSet (fun _ => SolSt.init) s.sol n { solGet s n with phase := .off } := by
    simp [closingFound, closingRecorded]
  rw [solGet, hsol]
  exact storeGet_set_same h

section
variable {s : State} (h : Canon s) {n : Fin 16} (hphase : (solGet s n).phase = .window)
  (hfresh : msqFresh s (.window (solGet s n).win3) = true)
include h hphase hfresh

/-- A closing at sample `k` ends the window with its time. -/
theorem solClosing_closes {l : List (BitVec 12)} {k : Nat} (tdec : Nat)
    (hk : cldClosing (cfg s (solPage n) R.SOL.CLDC.BLK * 10) (cfg s (solPage n) R.SOL.CLDC.STEP) (cfg s (solPage n) R.SOL.CLDC.TH)
      (l.map BitVec.toInt) = some k) : let u := solClosing s n tdec l
    getF u (solPage n) R.SOL.CLD.RES = 1 ∧ getF u (solPage n) R.SOL.CLD.TCLOSE = (tdec + k - cfg s (solPage n) R.SOL.CLDC.STEP) % 65536 ∧
      getF u (solPage n) R.SOL.CLD.MISS = 0 ∧ isSet u (solPage n) R.SOL.EVT.CLOSED = true ∧ (solGet u n).phase = .off ∧
      u.applied = s.applied ∧ u.mem = s.mem := by
  let t := closingFound s n (l.getD k 0).toNat (tdec + k - cfg s (solPage n) R.SOL.CLDC.STEP)
  have hcloses : solClosing s n tdec l = solStat (raiseLine t (44 + solBank n)) n := by
    unfold solClosing
    rw [if_neg (by simp [hphase, hfresh])]
    simp only [hk, solVcoil_fresh hfresh]
    rfl
  have hshows := closingFound_shows h.regs n (l.getD k 0).toNat (tdec + k - cfg s (solPage n) R.SOL.CLDC.STEP)
  obtain ⟨hconfig, hmemory⟩ := closingFound_keeps s n (l.getD k 0).toNat (tdec + k - cfg s (solPage n) R.SOL.CLDC.STEP)
  have hoff := solGet_closingFound h.sol n (l.getD k 0).toNat (tdec + k - cfg s (solPage n) R.SOL.CLDC.STEP)
  have hkeeps : WritesValves solStatFields t (solStat (raiseLine t (44 + solBank n)) n) :=
    solStat_writesValves (raiseLine_writesValves (.refl _ t) (solPage_line n)) (List.Subset.refl _) n
  have hget : (solGet (solStat (raiseLine t (44 + solBank n)) n) n).phase = .off := by
    rw [solGet_solStat, solGet, (raiseLine_lineRaised (.refl t) (solPage_line n)).sol]
    exact congrArg SolSt.phase hoff
  intro u
  have hu : u = solStat (raiseLine t (44 + solBank n)) n := hcloses
  rw [hu]
  refine ⟨?_, ?_, ?_, ?_, hget, hkeeps.config.trans hconfig, hkeeps.memory.trans hmemory⟩
  · exact (hkeeps.field hshows.regs _ _ (offFields_solPage n (by decide) (by decide))).trans hshows.result
  · exact (hkeeps.field hshows.regs _ _ (offFields_solPage n (by decide) (by decide))).trans hshows.time
  · exact (hkeeps.field hshows.regs _ _ (offFields_solPage n (by decide) (by decide))).trans hshows.miss
  · exact (hkeeps.isSet hshows.regs (offFields_solPage n (by decide) (by decide))).trans hshows.closed

end

/-- A window without a closing leaves its last sample in VCOIL and counts in MISS. -/
def windowMissed (s : State) (n code : Nat) : State :=
  solStat (setF (setF (setF (setFlag (solOff s n) (solPage n) R.SOL.VCOIL.VALID true) (solPage n) R.SOL.VCOIL.CODE code)
    (solPage n) R.SOL.CLD.RES 2) (solPage n) R.SOL.CLD.MISS (satInc 255 (getF s (solPage n) R.SOL.CLD.MISS))) n

theorem windowMissed_keeps (s : State) (n code : Nat) : (windowMissed s n code).applied = s.applied ∧ (windowMissed s n code).mem = s.mem := by
  simp [windowMissed, solStat, solOff]

section
variable {s : State} (h : Canon s) {n : Fin 16} (code : BitVec 12)
include h

theorem windowMissed_shows : let u := windowMissed s n code.toNat
    (getF u (solPage n) R.SOL.VCOIL.CODE = code.toNat ∧ isSet u (solPage n) R.SOL.VCOIL.VALID = true ∧ getF u (solPage n) R.SOL.CLD.RES = 2 ∧
      getF u (solPage n) R.SOL.CLD.MISS = satInc 255 (getF s (solPage n) R.SOL.CLD.MISS)) ∧ (solGet u n).phase = .off ∧
      storeWf regReset u.regs = true := by
  let t1 := setFlag (solOff s n) (solPage n) R.SOL.VCOIL.VALID true
  let t2 := setF t1 (solPage n) R.SOL.VCOIL.CODE code.toNat
  let t3 := setF t2 (solPage n) R.SOL.CLD.RES 2
  let t4 := setF t3 (solPage n) R.SOL.CLD.MISS (satInc 255 (getF s (solPage n) R.SOL.CLD.MISS))
  have h0 : storeWf regReset (solOff s n).regs = true := h.regs
  have h1 : storeWf regReset t1.regs = true := setFlag_wf h0
  have h2 : storeWf regReset t2.regs = true := setF_wf h1
  have h3 : storeWf regReset t3.regs = true := setF_wf h2
  have h4 : storeWf regReset t4.regs = true := setF_wf h3
  have hvalid : getF t1 (solPage n) R.SOL.VCOIL.VALID = 1 := getF_setF_same h0 (by decide) (by decide)
  have hcode : getF t2 (solPage n) R.SOL.VCOIL.CODE = code.toNat :=
    (getF_setF_same h1 (by decide) (by decide)).trans (Nat.mod_eq_of_lt code.isLt)
  have hres : getF t3 (solPage n) R.SOL.CLD.RES = 2 := getF_setF_same h2 (by decide) (by decide)
  have hmiss : getF t4 (solPage n) R.SOL.CLD.MISS = satInc 255 (getF s (solPage n) R.SOL.CLD.MISS) :=
    (getF_setF_same h3 (by decide) (by decide)).trans (Nat.mod_eq_of_lt (Nat.lt_succ_of_le (satInc_le 255 _)))
  have hkeeps : WritesValves solStatFields t4 (windowMissed s n code.toNat) := solStat_writesValves (.refl _ t4) (List.Subset.refl _) n
  have hshown (f : Fld) (hf : solStatFields.all (fieldsApart f) = true) (ho : f.off < 4096) :
      getF (windowMissed s n code.toNat) (solPage n) f = getF t4 (solPage n) f := hkeeps.field h4 _ _ (offFields_solPage n hf ho)
  refine ⟨⟨?_, ?_, ?_, ?_⟩, ?_, hkeeps.canon h4⟩
  · rw [hshown _ (by decide) (by decide)]
    exact (getF_setF_apart h3 (by decide)).trans ((getF_setF_apart h2 (by decide)).trans hcode)
  · rw [isSet, hshown _ (by decide) (by decide), show getF t4 (solPage n) R.SOL.VCOIL.VALID = 1 from
      (getF_setF_apart h3 (by decide)).trans ((getF_setF_apart h2 (by decide)).trans ((getF_setF_apart h1 (by decide)).trans hvalid))]
    rfl
  · rw [hshown _ (by decide) (by decide)]
    exact (getF_setF_apart h3 (by decide)).trans hres
  · rw [hshown _ (by decide) (by decide)]
    exact hmiss
  · exact congrArg SolSt.phase (solGet_solOff h)

/-- The window of a valve ends without a closing. -/
theorem solWindowExpiry_eq (hphase : (solGet s n).phase = .window) (hfresh : msqFresh s (.window (solGet s n).win3) = true) :
    solWindowExpiry s n code.toNat = if cfg s (solPage n) R.SOL.CLDC.MISS ≠ 0 ∧
        satInc 255 (getF s (solPage n) R.SOL.CLD.MISS) = cfg s (solPage n) R.SOL.CLDC.MISS
      then solFail (windowMissed s n code.toNat) n 2 else windowMissed s n code.toNat := by
  have hwin3 : (solGet (solOff s n) n).win3 = (solGet s n).win3 := (congrArg SolSt.win3 (solGet_solOff h) :)
  have hcoil := solVcoil_fresh (s := solOff s n) (n := n) (by rw [hwin3]; exact hfresh) code.toNat
  let t := solStat (setF (setF (solVcoil (solOff s n) n code.toNat) (solPage n) R.SOL.CLD.RES 2)
    (solPage n) R.SOL.CLD.MISS (satInc 255 (getF s (solPage n) R.SOL.CLD.MISS))) n
  have ht : t = windowMissed s n code.toNat := by
    simp only [t, hcoil]
    rfl
  have hends : solWindowExpiry s n code.toNat = if (cfg t (solPage n) R.SOL.CLDC.MISS ≠ 0 &&
      satInc 255 (getF s (solPage n) R.SOL.CLD.MISS) = cfg t (solPage n) R.SOL.CLDC.MISS) = true then solFail t n 2 else t :=
    if_neg (by simp [hphase])
  rw [hends, ht, cfg_congr (windowMissed_keeps s n code.toNat).1]
  simp

/-- What the end of a window shows, with NOCLOSE where MISS reaches its limit. -/
theorem solWindowExpiry_shows (hphase : (solGet s n).phase = .window) (hfresh : msqFresh s (.window (solGet s n).win3) = true) :
    let u := solWindowExpiry s n code.toNat
    getF u (solPage n) R.SOL.VCOIL.CODE = code.toNat ∧ isSet u (solPage n) R.SOL.VCOIL.VALID = true ∧ getF u (solPage n) R.SOL.CLD.RES = 2 ∧
      getF u (solPage n) R.SOL.CLD.MISS = satInc 255 (getF s (solPage n) R.SOL.CLD.MISS) ∧ (solGet u n).phase = .off ∧
      (cfg s (solPage n) R.SOL.CLDC.MISS ≠ 0 → satInc 255 (getF s (solPage n) R.SOL.CLD.MISS) = cfg s (solPage n) R.SOL.CLDC.MISS →
        getF u (solPage n) R.SOL.STAT.FCODE = 2 ∧ Raises u (solPage n * 8 + 1)) ∧ u.applied = s.applied ∧ u.mem = s.mem := by
  obtain ⟨⟨hcode, hvalid, hres, hmiss⟩, hoff, hwf⟩ := windowMissed_shows h (n := n) code
  intro u
  have hu : u = _ := solWindowExpiry_eq h code hphase hfresh
  obtain ⟨hconfig, hmemory⟩ := windowMissed_keeps s n code.toNat
  by_cases hlast : cfg s (solPage n) R.SOL.CLDC.MISS ≠ 0 ∧ satInc 255 (getF s (solPage n) R.SOL.CLD.MISS) = cfg s (solPage n) R.SOL.CLDC.MISS
  · rw [if_pos hlast] at hu
    rw [hu]
    have hkeeps := solFail_writesValves (windowMissed s n code.toNat) n 2
    have hshown (f : Fld) (hf : fieldsApart f R.SOL.STAT.FCODE = true) (ho : f.off < 4096) :
        getF (solFail (windowMissed s n code.toNat) n 2) (solPage n) f = getF (windowMissed s n code.toNat) (solPage n) f :=
      hkeeps.field hwf _ _ (offFields_solPage n (by simpa using hf) ho)
    refine ⟨?_, ?_, ?_, ?_, ?_, fun _ _ => solFail_shows hwf (by decide), hkeeps.config.trans hconfig, hkeeps.memory.trans hmemory⟩
    · rw [hshown _ (by decide) (by decide), hcode]
    · rw [hkeeps.isSet hwf (offFields_solPage n (by decide) (by decide)), hvalid]
    · rw [hshown _ (by decide) (by decide), hres]
    · rw [hshown _ (by decide) (by decide), hmiss]
    · rw [solGet_solFail, hoff]
  · rw [if_neg hlast] at hu
    rw [hu]
    exact ⟨hcode, hvalid, hres, hmiss, hoff, fun hon hmisses => absurd ⟨hon, hmisses⟩ hlast, hconfig, hmemory⟩

end

/-! ### The deferral (R211, R212) -/

/-- The valve has left its bank's queue as its trip begins. -/
def solTripped (s : State) (n : Fin 16) : State := bankUnqueue (protSet s (.sol n) (protAfter s (.sol n) false)) n

theorem protEvent_sol (s : State) (n : Fin 16) : protEvent s (.sol n) false =
    touch (protUpdate (if decide (protRetry s (.sol n) ≤ (protGet s (.sol n)).rused) && !(protGet s (.sol n)).lockout
      then raiseP (solTripped s n) (protPage (.sol n)) 6 else solTripped s n) (.sol n)) := rfl

section
variable {s : State} (hs : OutputsCanon s) {n : Fin 16}
include hs

theorem solTripped_outputs : OutputsCanon (solTripped s n) := (bankUnqueue_keepsProt (.refl (protSet_outputs _ _ hs)) n).canon

theorem solTripped_waits : (solGet (solTripped s n) n).deferred = false ∧ (solGet (solTripped s n) n).prot.tripped = true := by
  let t := protSet s (.sol n) (protAfter s (.sol n) false)
  have ht : storeWf (fun _ => SolSt.init) t.sol = true := (protSet_outputs (.sol n) (protAfter s (.sol n) false) hs).sol
  have hprot : (solGet t n).prot = protAfter s (.sol n) false := protGet_protSet_same (.sol n) (protAfter s (.sol n) false) hs rfl
  have hget : solGet (solTripped s n) n = { solGet t n with deferred := false } := storeGet_set_same ht
  rw [hget, hprot]
  exact ⟨rfl, rfl⟩

/-- The event of a valve leaves no deferral. -/
theorem protEvent_sol_waits : (solGet (protEvent s (.sol n) false) n).deferred = false := by
  obtain ⟨hwaits, htripped⟩ := solTripped_waits hs (n := n)
  have hupdate (t : State) (ht : OutputsCanon t) (hget : solGet t n = solGet (solTripped s n) n) :
      (solGet (touch (protUpdate t (.sol n))) n).deferred = false := by
    have hheld : solProtPermits t n = false := by simp [solProtPermits, hget, htripped]
    have hupdated := solUpdate_waits ht (hget ▸ hwaits) (.inr hheld)
    exact (bankUpdate_defersNone (.refl bankFields _) (List.Subset.refl _) (solBank n)).waits (solUpdate_keepsProt (.refl ht) n).canon.sol n hupdated
  have htripped := solTripped_outputs hs (n := n)
  rw [protEvent_sol]
  split
  · exact hupdate _ ⟨htripped.hsc, htripped.hb, htripped.sol, htripped.lst⟩ rfl
  · exact hupdate _ htripped rfl

/-- A deferral that reaches its limit trips the valve, which leaves its bank's queue. -/
theorem solDeferEnd_trips (hwaits : (solGet s n).deferred = true) (hslew : (solGet s n).prot.slewOff = false) : let u := solDeferEnd s n
    Raises u (solPage n * 8 + 5) ∧ (solGet u n).prot.tripped = true ∧ (solGet u n).prot.rdly = true ∧ (solGet u n).deferred = false := by
  let raised := raiseDetail s (solPage n * 8 + 5) []
  have hraised : OutputsCanon raised := ⟨hs.hsc, hs.hb, hs.sol, hs.lst⟩
  have hevent : protTrip s (.sol n) 5 [] = protEvent raised (.sol n) false := protNew_eq_protEvent (s := raised) (o := .sol n) hslew false
  obtain ⟨hraises, htripped, hrdly⟩ := protTrip_trips hs (o := .sol n) rfl hslew 5 []
  have hdefer : solDeferEnd s n = protTrip s (.sol n) 5 [] := if_pos hwaits
  intro u
  have hu : u = protTrip s (.sol n) 5 [] := hdefer
  rw [hu]
  refine ⟨hraises, ?_, ?_, ?_⟩
  · generalize protTrip s (.sol n) 5 [] = u at htripped
    exact htripped
  · generalize protTrip s (.sol n) 5 [] = u at hrdly
    exact hrdly
  · rw [hevent]
    exact protEvent_sol_waits hraised

end

/-! ### The obligation -/

theorem blkOf_solPage (n : Fin 16) : blkOf (solPage n.val) = some (.SOL, 0x74) := by revert n; decide

/-- What a write of CMD of a valve does. -/
theorem liveWrite_solCmd (s : State) (who : Who) (n : Fin 16) (v : Word) :
    liveWrite s who (solPage n.val) 0x100 v = (solCommand s n v, true) := by
  have hn : Fin.ofNat 16 (solPage n.val - 0x74) = n := by revert n; decide
  simp only [liveWrite, blkOf_solPage, hn]
  rfl

/-- A granted write of CMD leaves what its command leaves, of which the answer is no part. -/
theorem answers_solWrite {c : Instr} {s : State} {who : Who} {n : Fin 16} {v : Word} {P : State → Prop}
    (he : exec c s = done s (writeReg s who (solPage n.val) 0x100 v)) (hm : MayWrite s who (solPage n.val) 0x100) (hP : P (solCommand s n v))
    (hans : ∀ u, P u → P { u with ans := none }) : Answers c s P := by
  have hvlt : solPage n.val ≠ 6 := by unfold solPage; omega
  rw [writeReg_live hm (by decide) hvlt (by decide) (by decide), liveWrite_solCmd] at he
  exact .of_done he (hans _ hP)

/-- Settles O24: a write of CMD runs down to what `solCommand` leaves of a valve that nothing holds, and each phase's end to the lemma that
says what it writes of the valve and its page. -/
theorem valveProfiles : Obligations.ValveProfiles := by
  intro s who n v dur ipk code off long tdec l h
  have hs := h.outputs
  refine ⟨?cmd, ?trig, ?restart, ?peak, ?limit, ?chop, ?hold, ?decay, ?nozero, ?closing, ?window, ?deferral⟩
  case cmd => exact fun hm => answers_solWrite rfl hm (solCommand_shows h.regs n v) fun _ hu => hu
  case trig =>
    intro hm hen hsafe hon hoff hmode hshed hprot hlim halone hwaits
    obtain ⟨hforce, hpermits⟩ := solProtPermits_iff.mp hprot
    have hopen : CommandOpen s n := ⟨h.regs, hen, hsafe, hon, hoff, hmode, hshed, hlim, halone, hforce⟩
    have hboosts := solCommand_boosts hs hopen hwaits (fget_trig v) hpermits
    obtain ⟨-, -, hconfig, hmemory⟩ := solCommand_shows h.regs n (v ||| 2)
    exact answers_solWrite rfl hm ⟨hboosts.phase, fun hphase => hboosts.gate fun hb => absurd hb hphase, hboosts.trig, hconfig, hmemory⟩
      fun _ hu => hu
  case restart =>
    intro hm hen hsafe hon hoff hmode hshed hlim halone hwaits hready hphase
    have hopen : CommandOpen s n := ⟨h.regs, hen, hsafe, hon, hoff, hmode, hshed, hlim, halone, (protReady_sol hready).1⟩
    obtain ⟨hboost, htripped, hrused⟩ := solCommand_restarts hs hopen hwaits (fget_trig v) hready
    obtain ⟨-, -, hconfig, hmemory⟩ := solCommand_shows h.regs n (v ||| 2)
    exact answers_solWrite rfl hm ⟨hboost, htripped, hrused, hconfig, hmemory⟩ fun _ hu => hu
  case peak => exact fun hrun hphase hqueue => answers_powered hrun rfl (solPeak_holds h hphase hqueue dur ipk).1
  case limit =>
    intro hrun hphase hqueue
    obtain ⟨⟨hhold, hgate, -, -, -, hconfig, hmemory⟩, hwf⟩ := solPeak_holds h hphase hqueue dur ipk
    have htimeout : solBoostTimeout s n dur.toNat ipk.toNat = solFail (solPeak s n dur.toNat ipk.toNat) n 1 := if_neg (by simp [hphase])
    obtain ⟨hcode, hraises⟩ := solFail_shows (n := n) hwf (code := 1) (by decide)
    refine answers_powered hrun rfl ?_
    rw [htimeout]
    exact ⟨hhold, hgate, hcode, hraises, hconfig, hmemory⟩
  case chop => exact fun hrun hphase => answers_powered hrun rfl (solChop_chops h hphase off long code)
  case hold =>
    intro hrun hphase htrig hwaits
    have hexpiry : solHoldExpiry s n = solStat (solEnd s n) n := if_pos (by simp [hphase, htrig, hwaits])
    refine answers_powered hrun rfl ?_
    rw [hexpiry]
    exact solHoldEnd_decays h hphase hwaits
  case decay => exact fun hrun hphase => answers_powered hrun rfl (solDecayEnd_ends h hphase)
  case nozero => exact fun hrun hphase hen => answers_powered hrun rfl (solNoZero_shows h.regs hphase hen)
  case closing => exact fun k hrun hphase hfresh hk => answers_powered hrun rfl (solClosing_closes h hphase hfresh tdec hk)
  case window => exact fun hrun hphase hfresh => answers_powered hrun rfl (solWindowExpiry_shows h code hphase hfresh)
  case deferral => exact fun hrun hwaits hslew => answers_powered hrun rfl (solDeferEnd_trips hs hwaits hslew)

end Sys2Proof.Machine

end

section
/-! The coil model of the valves, the positions of the banks and the events of the boost converter (09, R198, R215, R216, R219). -/

-- One proof after another: side by side they start more threads than the memory limit of the check has room for.
set_option Elab.async false

namespace Sys2Proof.Machine

/-- A one-bit field that reads the same is set or not as before. -/
theorem isSet_of_getF_eq {s t : State} {p : Nat} {f : Fld} (h : getF t p f = getF s p f) : isSet t p f = isSet s p f := by
  rw [isSet, isSet, h]

/-! ### What the coil model of one valve leaves of another (R215) -/

/-- The fields of valve pages that the coil model writes, with those that a HOLD ended by it writes (R215, R216). -/
def coilFields : List Fld := R.SOL.TCOIL.CODE :: R.SOL.TCOIL.SRC :: R.SOL.RCOIL.R :: R.SOL.STAT.COILLIM :: bankFields

theorem bankFields_subset_coilFields : bankFields ⊆ coilFields := fun f hf => by simp [coilFields, hf]

theorem code_mem_coilFields : R.SOL.TCOIL.CODE ∈ coilFields := by simp [coilFields]

theorem source_mem_coilFields : R.SOL.TCOIL.SRC ∈ coilFields := by simp [coilFields]

theorem resistance_mem_coilFields : R.SOL.RCOIL.R ∈ coilFields := by simp [coilFields]

theorem limit_mem_coilFields : R.SOL.STAT.COILLIM ∈ coilFields := by simp [coilFields]

theorem solPage_ne {n m : Nat} (h : n ≠ m) : solPage n ≠ solPage m := by
  unfold solPage
  omega

theorem DefersNone.raised {L : List Fld} {s t : State} (h : DefersNone L s t) (p b : Nat) : DefersNone L s (raiseP t p b) :=
  h.upd (WritesValves.refl L t).upd

/-- From `s` to `t` the coil model of valve `n` stays: its energy model, its limit and the source of its temperature. -/
structure CoilKeeps (n : Nat) (s t : State) : Prop extends DefersNone coilFields s t where
  status : storeWf regReset s.regs = true → ∀ f ∈ [R.SOL.STAT.COILLIM, R.SOL.TCOIL.SRC], getF t (solPage n) f = getF s (solPage n) f
  heat : storeWf (fun _ => SolSt.init) s.sol = true → (solGet t n).thetaE = (solGet s n).thetaE

namespace CoilKeeps
variable {n : Nat} {s t u : State}

theorem refl (n : Nat) (s : State) : CoilKeeps n s s := ⟨.refl _ s, fun _ _ _ => rfl, fun _ => rfl⟩

theorem trans (h : CoilKeeps n s t) (h' : CoilKeeps n t u) : CoilKeeps n s u where
  toDefersNone := h.toDefersNone.trans h'.toDefersNone
  status hs f hf := (h'.status (h.canon hs) f hf).trans (h.status hs f hf)
  heat hs := (h'.heat (h.solCanon hs)).trans (h.heat hs)

/-- An update that leaves the registers and the states of the valves. -/
theorem upd (h : CoilKeeps n s t) (hw : WritesValves coilFields t u) (hr : u.regs = t.regs := by rfl) (hsol : u.sol = t.sol := by rfl) :
    CoilKeeps n s u :=
  h.trans ⟨(DefersNone.refl _ t).upd hw hsol, fun _ _ _ => getF_congr_regs hr, fun _ => by rw [solGet, solGet, hsol]⟩

/-- The state of a valve whose energy model stays if it is valve `n`. -/
theorem solSet (h : CoilKeeps n s t) (m : Nat) (c : SolSt) (hwaits : c.deferred = true → (solGet t m).deferred = true)
    (hheat : m = n → c.thetaE = (solGet t m).thetaE) : CoilKeeps n s (solSet t m c) := by
  refine h.trans ⟨(DefersNone.refl _ t).solSet m c hwaits, fun _ _ _ => rfl, fun ht => ?_⟩
  rcases eq_or_ne n m with rfl | hne
  · rw [solGet_set_same ht]
    exact hheat rfl
  · rw [solGet_set_ne ht hne]

/-- A write of the page of another valve. -/
theorem setF (h : CoilKeeps n s t) {m : Nat} (hm : n ≠ m) {g : Fld} {v : Nat} (hg : g ∈ coilFields) : CoilKeeps n s (setF t (solPage m) g v) := by
  have hoff : g.off < 4096 := by revert g; decide
  refine h.trans ⟨(DefersNone.refl _ t).setF hg, fun ht f hf => getF_setF_key ht (rkey_ne hoff ?_ (.inl (solPage_ne hm))), fun _ => rfl⟩
  revert f
  decide

theorem setFlag (h : CoilKeeps n s t) {m : Nat} (hm : n ≠ m) {g : Fld} {b : Bool} (hg : g ∈ coilFields) :
    CoilKeeps n s (setFlag t (solPage m) g b) := h.setF hm hg

theorem raised (h : CoilKeeps n s t) (p b : Nat) : CoilKeeps n s (raiseP t p b) := h.upd (WritesValves.refl _ t).upd

/-- A step that is taken or left out. -/
theorem when {c : Prop} {_ : Decidable c} (h : CoilKeeps n s t) (hu : CoilKeeps n s t → CoilKeeps n s u) :
    CoilKeeps n s (if c then u else t) := by
  split
  · exact hu h
  · exact h

/-- What each step of a fold keeps, the fold keeps. -/
theorem foldl {α : Type} {f : State → α → State} {l : List α} (h : CoilKeeps n s t)
    (hf : ∀ u, CoilKeeps n s u → ∀ a ∈ l, CoilKeeps n s (f u a)) : CoilKeeps n s (l.foldl f t) :=
  List.foldlRecOn l f h hf

end CoilKeeps

/-- A bank that follows its valves, and STAT after it, touch no coil model. -/
theorem bankUpdate_coilKeeps {n : Nat} {s t : State} (h : CoilKeeps n s t) (hn : n < 16) (b m : Nat) :
    CoilKeeps n s (solStat (bankUpdate t b) m) := by
  have hkeeps : DefersNone bankFields t (solStat (bankUpdate t b) m) :=
    solStat_defersNone (bankUpdate_defersNone (.refl _ t) (List.Subset.refl _) b) (List.Subset.refl _) m
  refine h.trans ⟨hkeeps.mono bankFields_subset_coilFields, fun ht f hf => hkeeps.field ht _ _ ?_, fun ht => ?_⟩
  · have hapart : bankFields.all (fieldsApart f) = true ∧ f.off < 4096 := by
      revert f
      decide
    exact offFields_solPage ⟨n, hn⟩ hapart.1 hapart.2
  · rw [solGet_solStat, (solGet_bankUpdate ht b n).rest]

/-- The limit of a valve ends its HOLD and touches no coil model. -/
theorem solLimitAct_coilKeeps {n : Nat} {s t : State} (h : CoilKeeps n s t) (hn : n < 16) (m : Fin 16) : CoilKeeps n s (solLimitAct t m) := by
  unfold solLimitAct
  extract_lets p c
  split
  · next hlimits =>
    simp only [Bool.and_eq_true, decide_eq_true_eq, Bool.not_eq_true'] at hlimits
    obtain ⟨⟨⟨-, hphase⟩, hwaits⟩, -⟩ := hlimits
    rw [solEnd_hold hphase hwaits]
    refine bankUpdate_coilKeeps (h.solSet m _ ?waits ?heat) hn _ m
    case waits => exact id
    case heat => exact fun _ => rfl
  · exact h

/-! ### One step of the coil model (R215) -/

/-- The energy model of valve `n` after one step at mean power `mw`. -/
def coilHeat (s : State) (n mw : Nat) : Int :=
  let steady : Int := ((cfg s (solPage n) R.SOL.THM2.RTH * mw * 2 ^ 50 / 2000 : Nat) : Int)
  let old : Int := ((solGet s n).thetaE : Int)
  max 0 (old + (steady - old) / ((cfg s (solPage n) R.SOL.THM2.TAU * 1000 : Nat) : Int))

/-- The coil model of valve `n` shows: state `c`, temperature, source, resistance and limit, and the limit's source where it begins. -/
def coilShown (s : State) (n : Nat) (c : SolSt) (code r : Nat) (src lim raises : Bool) : State :=
  let p := solPage n
  let s := setF (setFlag (setF (solSet s n c) p R.SOL.TCOIL.CODE code) p R.SOL.TCOIL.SRC src) p R.SOL.RCOIL.R r
  let s := setFlag s p R.SOL.STAT.COILLIM lim
  if raises then raiseP s p 4 else s

/-- The state of a valve without a coil model after one tick. -/
def coilIdle (c : SolSt) : SolSt := { c with holdMs := if c.phase = .hold then c.holdMs + 1 else c.holdMs }

theorem solCoil_on {s : State} {n : Nat} (hen : cfgOn s (solPage n) R.SOL.THM.EN = true) (pair : Option (Nat × Nat)) (mw : Nat) :
    ∃ c code r src lim raises, (c.thetaE : Int) = coilHeat s n mw ∧ c.deferred = (solGet s n).deferred ∧
      solCoil s n pair mw = solLimitAct (coilShown s n c code r src lim raises) n := by
  unfold solCoil
  extract_lets p c c' rref taken pairs age steady th heat r te tr tc set shown was tl lim
  rw [if_neg (by simp [p, hen])]
  refine ⟨{ c' with thetaE := heat, pairs := pairs, trAge := age }, tc, r, decide (te < tr), lim, lim && !was, ?_, rfl, rfl⟩
  exact Int.toNat_of_nonneg (Int.le_max_left 0 th)

theorem solCoil_off {s : State} {n : Nat} (hen : cfgOn s (solPage n) R.SOL.THM.EN = false) (pair : Option (Nat × Nat)) (mw : Nat) :
    solCoil s n pair mw = setFlag (setFlag (solSet s n (coilIdle (solGet s n))) (solPage n) R.SOL.TCOIL.SRC false)
      (solPage n) R.SOL.STAT.COILLIM false := if_pos (by simp [hen])

theorem coilShown_defersNone {s t : State} (h : DefersNone coilFields s t) (n : Nat) {c : SolSt} (hc : c.deferred = (solGet t n).deferred)
    (code r : Nat) (src lim raises : Bool) : DefersNone coilFields s (coilShown t n c code r src lim raises) := by
  have hset : DefersNone coilFields s (solSet t n c) := h.solSet n c fun hd => hc ▸ hd
  unfold coilShown
  exact .when ((((hset.setF code_mem_coilFields).setFlag source_mem_coilFields).setF resistance_mem_coilFields).setFlag limit_mem_coilFields)
    fun hu => hu.raised _ _

/-- What the coil model of another valve shows. -/
theorem coilShown_coilKeeps {n m : Nat} {s t : State} (h : CoilKeeps n s t) (hm : n ≠ m) {c : SolSt}
    (hc : c.deferred = (solGet t m).deferred) (code r : Nat) (src lim raises : Bool) :
    CoilKeeps n s (coilShown t m c code r src lim raises) := by
  have hset : CoilKeeps n s (solSet t m c) := h.solSet m c (fun hd => hc ▸ hd) fun he => absurd he.symm hm
  unfold coilShown
  exact .when ((((hset.setF hm code_mem_coilFields).setFlag hm source_mem_coilFields).setF hm resistance_mem_coilFields).setFlag hm
    limit_mem_coilFields) fun hu => hu.raised _ _

theorem solCoil_defersNone {s t : State} (h : DefersNone coilFields s t) (n : Fin 16) (pair : Option (Nat × Nat)) (mw : Nat) :
    DefersNone coilFields s (solCoil t n pair mw) := by
  rcases Bool.eq_false_or_eq_true (cfgOn t (solPage n) R.SOL.THM.EN) with hen | hen
  · obtain ⟨c, code, r, src, lim, raises, -, hwaits, hcoil⟩ := solCoil_on hen pair mw
    rw [hcoil]
    exact (coilShown_defersNone h n hwaits code r src lim raises).trans (solLimitAct_coilKeeps (.refl n _) n.isLt n).toDefersNone
  · rw [solCoil_off hen]
    exact ((h.solSet n (coilIdle _) id).setFlag source_mem_coilFields).setFlag limit_mem_coilFields

/-- The step of another valve leaves the coil model of valve `n`. -/
theorem solCoil_coilKeeps {n m : Fin 16} (hm : n ≠ m) {s t : State} (h : CoilKeeps n s t) (pair : Option (Nat × Nat)) (mw : Nat) :
    CoilKeeps n s (solCoil t m pair mw) := by
  have hne : (n : Nat) ≠ m := Fin.val_ne_of_ne hm
  rcases Bool.eq_false_or_eq_true (cfgOn t (solPage m) R.SOL.THM.EN) with hen | hen
  · obtain ⟨c, code, r, src, lim, raises, -, hwaits, hcoil⟩ := solCoil_on hen pair mw
    rw [hcoil]
    exact solLimitAct_coilKeeps (coilShown_coilKeeps h hne hwaits code r src lim raises) n.isLt m
  · rw [solCoil_off hen]
    exact ((h.solSet m (coilIdle _) id fun he => absurd he.symm hne).setFlag hne source_mem_coilFields).setFlag hne limit_mem_coilFields

/-! ### The tick of the coil model (R215) -/

/-- The mean power of valve `n` in mW. -/
def coilPower (power : List (Fin 16 × Nat)) (n : Fin 16) : Nat := ((power.find? fun e => e.1 = n).map Prod.snd).getD 0

/-- The tick of valve `n` stands between ticks of other valves. -/
theorem exists_solTick (s : State) (pairs : List (Fin 16 × BitVec 12 × BitVec 12)) (power : List (Fin 16 × Nat)) (n : Fin 16) :
    ∃ t pair, CoilKeeps n s t ∧ CoilKeeps n (solCoil t n pair (coilPower power n)) (solTick s pairs power) := by
  obtain ⟨before, after, hall⟩ := List.append_of_mem (List.mem_finRange n)
  have hnodup : (before ++ n :: after).Nodup := hall ▸ List.nodup_finRange 16
  rw [List.nodup_append, List.nodup_cons] at hnodup
  obtain ⟨-, ⟨hafter, -⟩, hbefore⟩ := hnodup
  unfold solTick
  rw [hall, List.foldl_append, List.foldl_cons]
  refine ⟨_, _, ?_, CoilKeeps.foldl (.refl n _) fun u hu m hm => ?_⟩
  · exact CoilKeeps.foldl (.refl n s) fun u hu m hm => solCoil_coilKeeps (hbefore m hm n (by simp)).symm hu _ _
  · exact solCoil_coilKeeps (ne_of_mem_of_not_mem hm hafter).symm hu _ _

section
variable {s : State} (h : Canon s) (pairs : List (Fin 16 × BitVec 12 × BitVec 12)) (power : List (Fin 16 × Nat)) {n : Fin 16}
include h

theorem solTick_heats (hen : cfgOn s (solPage n) R.SOL.THM.EN = true) : let u := solTick s pairs power
    ((solGet u n).thetaE : Int) = coilHeat s n (coilPower power n) ∧ u.applied = s.applied ∧ u.mem = s.mem := by
  obtain ⟨t, pair, hbefore, hafter⟩ := exists_solTick s pairs power n
  have hcfg (f : Fld) : cfg t (solPage n) f = cfg s (solPage n) f := cfg_congr hbefore.config _ f
  have hent : cfgOn t (solPage n) R.SOL.THM.EN = true := (cfgOn_congr hbefore.config _ _).trans hen
  have hsol := hbefore.solCanon h.sol
  have hown := solCoil_defersNone (.refl _ t) n pair (coilPower power n)
  obtain ⟨c, code, r, src, lim, raises, hheat, hwaits, hcoil⟩ := solCoil_on hent pair (coilPower power n)
  have hshown : solGet (coilShown t n c code r src lim raises) n = c := by
    have hstate : (coilShown t n c code r src lim raises).sol = (solSet t n c).sol := by
      unfold coilShown
      split <;> rfl
    rw [solGet, hstate]
    exact solGet_set_same hsol n c
  have hstep : (solGet (solCoil t n pair (coilPower power n)) n).thetaE = c.thetaE := by
    rw [hcoil, (solLimitAct_coilKeeps (.refl n _) n.isLt n).heat ((coilShown_defersNone (.refl _ t) n hwaits ..).solCanon hsol), hshown]
  refine ⟨?_, hafter.config.trans (hown.config.trans hbefore.config), hafter.memory.trans (hown.memory.trans hbefore.memory)⟩
  rw [hafter.heat (hown.solCanon hsol), hstep, hheat, coilHeat, coilHeat, hcfg, hcfg, hbefore.heat h.sol]

theorem solTick_unlimited (hen : cfgOn s (solPage n) R.SOL.THM.EN = false) : let u := solTick s pairs power
    isSet u (solPage n) R.SOL.STAT.COILLIM = false ∧ isSet u (solPage n) R.SOL.TCOIL.SRC = false ∧
      (solGet u n).thetaE = (solGet s n).thetaE := by
  obtain ⟨t, pair, hbefore, hafter⟩ := exists_solTick s pairs power n
  have hent : cfgOn t (solPage n) R.SOL.THM.EN = false := (cfgOn_congr hbefore.config _ _).trans hen
  have hcoil := solCoil_off hent pair (coilPower power n)
  have hown := solCoil_defersNone (.refl _ t) n pair (coilPower power n)
  rw [hcoil] at hafter hown
  let cleared := setFlag (solSet t n (coilIdle (solGet t n))) (solPage n) R.SOL.TCOIL.SRC false
  have hcleared : storeWf regReset cleared.regs = true := setFlag_wf (hbefore.canon h.regs)
  have hflags (f : Fld) (hf : f ∈ [R.SOL.STAT.COILLIM, R.SOL.TCOIL.SRC])
      (hoff : isSet (setFlag cleared (solPage n) R.SOL.STAT.COILLIM false) (solPage n) f = false) :
      isSet (solTick s pairs power) (solPage n) f = false :=
    (isSet_of_getF_eq (hafter.status (setFlag_wf hcleared) f hf)).trans hoff
  have hidle : solGet (setFlag cleared (solPage n) R.SOL.STAT.COILLIM false) n = coilIdle (solGet t n) :=
    solGet_set_same (hbefore.solCanon h.sol) n _
  have hheat : (solGet (setFlag cleared (solPage n) R.SOL.STAT.COILLIM false) n).thetaE = (solGet t n).thetaE := by
    rw [hidle]
    rfl
  refine ⟨hflags _ (by simp) (isSet_setFlag_same hcleared rfl (by decide)), hflags _ (by simp) ?_, ?_⟩
  · have hsource : isSet cleared (solPage n) R.SOL.TCOIL.SRC = false := isSet_setFlag_same (hbefore.canon h.regs) rfl (by decide)
    exact (isSet_of_getF_eq (getF_setF_apart hcleared (by decide))).trans hsource
  · exact (hafter.heat (hown.solCanon (hbefore.solCanon h.sol))).trans (hheat.trans (hbefore.heat h.sol))

end

/-! ### TMINH (R216) -/

theorem solMinHold_decays {s : State} (h : Canon s) {n : Fin 16} (hlim : isSet s (solPage n) R.SOL.STAT.COILLIM = true)
    (hact : cfgOn s (solPage n) R.SOL.THM.ACT = false) (hphase : (solGet s n).phase = .hold) (hwaits : (solGet s n).deferred = false) :
    let u := solMinHold s n
    (solGet u n).phase = .decay ∧ (solGet u n).gate = false ∧ u.applied = s.applied ∧ u.mem = s.mem := by
  have hended : solMinHold s n = solStat (solEnd s n) n := if_pos (by simp [hlim, hact, hphase, hwaits])
  intro u
  have hu : u = _ := hended
  rw [hu]
  exact solHoldEnd_decays h hphase hwaits

/-! ### The position of a bank (R219) -/

/-- A write of another page. -/
theorem KeepsField.setF_page {p q : Nat} {f g : Fld} {v : Nat} {s t : State} (h : KeepsField p f s t) (hp : p ≠ q) (hf : f.off < 4096)
    (hg : g.off < 4096) : KeepsField p f s (Machine.setF t q g v) :=
  ⟨fun hs => (getF_setF_key (h.canon hs) (rkey_ne hg hf (.inl hp))).trans (h.field hs), fun hs => setF_wf (h.canon hs)⟩

/-- A valve that follows its bank writes its own page only. -/
theorem bankFollow_keepsField {p : Nat} {f : Fld} {s t : State} (h : KeepsField p f s t) {n : Nat} (hp : p ≠ solPage n) (hf : f.off < 4096)
    (pos : Bool) : KeepsField p f s (bankFollow pos t n) := by
  have hstat {u : State} (hu : KeepsField p f s u) : KeepsField p f s (solStat u n) :=
    (((hu.setF_page hp hf (by decide)).setF_page hp hf (by decide)).setF_page hp hf (by decide)).setF_page hp hf (by decide)
  have hresult {u : State} (hu : KeepsField p f s u) : KeepsField p f s (solResult u n 3) := by
    unfold solResult
    split
    · exact hu.setF_page hp hf (by decide)
    · exact hu
  have hshown : KeepsField p f s (setFlag t (solPage n) R.SOL.STAT.BVST pos) := h.setF_page hp hf (by decide)
  have hset (c : SolSt) : KeepsField p f s (solSet (setFlag t (solPage n) R.SOL.STAT.BVST pos) n c) := hshown.upd
  unfold bankFollow
  extract_lets c u
  split
  · exact hshown
  · split
    · exact hset _
    · exact hstat (hresult (hset _))
    · exact hshown

theorem bankValves_ne_page (b : Fin 4) : ∀ n ∈ bankValves b, (0x84 : Nat) ≠ solPage n := by
  revert b
  decide

/-- POS of a bank stands in a register of its page, beside the bits of its valves. -/
theorem bankPos_apart (b : Fin 4) : (R.SBK.BANK.POS b).off < 4096 ∧ fieldsApart (R.SBK.BANK.POS b) (R.SBK.BANK.BOOSTING b) = true ∧
    fieldsApart (R.SBK.BANK.POS b) (R.SBK.BANK.QUEUED b) = true := by
  revert b
  decide

/-- A bank's register shows the position that its valves and SEL ask for. -/
theorem bankPos_bankUpdate {s : State} (h : storeWf regReset s.regs = true) (b : Fin 4) :
    isSet (bankUpdate s b) 0x84 (R.SBK.BANK.POS b) = bankWants s b := by
  let moved := setFlag s 0x84 (R.SBK.BANK.POS b) (bankWants s b)
  have hmoved : isSet moved 0x84 (R.SBK.BANK.POS b) = bankWants s b := isSet_setFlag_same h rfl (show 31 < 32 by decide)
  obtain ⟨hoff, hboosting, hqueued⟩ := bankPos_apart b
  have hshown : KeepsField 0x84 (R.SBK.BANK.POS b) moved (bankShown s b) := ((KeepsField.refl _ _ moved).setF hboosting).setF hqueued
  have hkeeps : KeepsField 0x84 (R.SBK.BANK.POS b) moved (bankUpdate s b) := by
    rw [bankUpdate_eq]
    exact List.foldlRecOn _ _ hshown fun u hu n hn => bankFollow_keepsField hu (bankValves_ne_page b n hn) hoff _
  exact (isSet_of_getF_eq (hkeeps.field (setFlag_wf h))).trans hmoved

/-- Without a valve in BOOST the position follows SEL alone. -/
theorem bankWants_idle {s : State} {b : Nat} (hidle : ∀ m ∈ bankValves b, (solGet s m).phase ≠ .boost) :
    bankWants s b = decide (2 ≤ bankSel s b) := by
  have hnone : bankBoosters s b = [] := List.filter_eq_nil_iff.mpr fun m hm => by simp [hidle m hm]
  unfold bankWants
  rw [hnone]
  match bankSel s b with
  | 0 => rfl
  | 1 => rfl
  | x + 2 => simp

theorem bankSelApply_applies {s : State} (h : Canon s) (b : Fin 4) (hlen : s.sbk.sel.length = 4)
    (hidle : ∀ m ∈ bankValves b, (solGet s m).phase ≠ .boost) : let u := bankSelApply s b
    bankSel u b = cfg s 0x84 (R.SBK.SEL.SEL b) ∧ isSet u 0x84 (R.SBK.BANK.POS b) = decide (2 ≤ cfg s 0x84 (R.SBK.SEL.SEL b)) ∧
      u.applied = s.applied ∧ u.mem = s.mem := by
  let chosen : State := { s with sbk := { s.sbk with sel := s.sbk.sel.set b (cfg s 0x84 (R.SBK.SEL.SEL b)) } }
  have happly : bankSelApply s b = bankUpdate chosen b := if_neg (by simpa using hidle)
  have hsel : bankSel chosen b = cfg s 0x84 (R.SBK.SEL.SEL b) := by
    have hb : b.val < s.sbk.sel.length := by simp [hlen]
    simp [bankSel, chosen, List.getD_eq_getElem?_getD, hb]
  have hkeeps := (bankUpdate_defersNone (.refl bankFields chosen) (List.Subset.refl _) b).toWritesValves
  have hpos := bankPos_bankUpdate (s := chosen) h.regs b
  intro u
  have hu : u = _ := happly
  rw [hu, hpos, bankWants_idle (s := chosen) hidle, hsel, bankSel, hkeeps.sel]
  exact ⟨hsel, rfl, hkeeps.config, hkeeps.memory⟩

/-! ### The boost converter (R198) -/

section
variable {s : State} (h : storeWf regReset s.regs = true) (vbst : BitVec 12)
include h

/-- VBST as it is shown, and what the other fields of BSTAT leave of it. -/
theorem vbstShown (f : Fld) (hf : fieldsApart R.SBK.BSTAT.VBST f = true) (b : Bool) :
    let shown := setF s 0x84 R.SBK.BSTAT.VBST vbst.toNat
    getF shown 0x84 R.SBK.BSTAT.VBST = vbst.toNat ∧ getF (setFlag shown 0x84 f b) 0x84 R.SBK.BSTAT.VBST = vbst.toNat := by
  intro shown
  have hvalue : getF shown 0x84 R.SBK.BSTAT.VBST = vbst.toNat :=
    (getF_setF_same h (by decide) (by decide)).trans (Nat.mod_eq_of_lt vbst.isLt)
  exact ⟨hvalue, (getF_setF_apart (setF_wf h) hf).trans hvalue⟩

theorem sbkUv_asserts (hlow : vbst.toNat < cfg s 0x84 R.SBK.BSTUV.VMIN) (hlevel : s.flt.level.contains 1056 = false) :
    let u := sbkUv s vbst.toNat
    isSet u 0x84 R.SBK.BSTAT.UV = true ∧ getF u 0x84 R.SBK.BSTAT.VBST = vbst.toNat ∧ u.flt.level.contains 1056 = true ∧ Raises u 1056 := by
  let shown := setFlag (setF s 0x84 R.SBK.BSTAT.VBST vbst.toNat) 0x84 R.SBK.BSTAT.UV true
  have hdrop : sbkUv s vbst.toNat = assertLevel shown 1056 := if_pos (decide_eq_true hlow)
  obtain ⟨hstands, hraised⟩ := assertLevel_asserts (s := shown) (id := 1056) hlevel
  have hflag : isSet shown 0x84 R.SBK.BSTAT.UV = true := isSet_setFlag_same (setF_wf h) rfl (by decide)
  intro u
  have hu : u = _ := hdrop
  rw [hu]
  refine ⟨?_, ?_, hstands, hraised⟩
  · exact (isSet_of_getF_eq (getF_congr_regs (assertLevel_regs shown 1056))).trans hflag
  · exact (getF_congr_regs (assertLevel_regs shown 1056)).trans (vbstShown h vbst _ (by decide) true).2

theorem sbkUvEnd_releases (hback : cfg s 0x84 R.SBK.BSTUV.VMIN ≤ vbst.toNat) : let u := sbkUvEnd s vbst.toNat
    isSet u 0x84 R.SBK.BSTAT.UV = false ∧ getF u 0x84 R.SBK.BSTAT.VBST = vbst.toNat ∧ u.flt.level.contains 1056 = false := by
  let shown := setFlag (setF s 0x84 R.SBK.BSTAT.VBST vbst.toNat) 0x84 R.SBK.BSTAT.UV false
  have hend : sbkUvEnd s vbst.toNat = releaseLevel shown 1056 := if_neg fun hlow => Nat.not_lt.mpr hback (of_decide_eq_true hlow)
  have hflag : isSet shown 0x84 R.SBK.BSTAT.UV = false := isSet_setFlag_same (setF_wf h) rfl (by decide)
  intro u
  have hu : u = _ := hend
  rw [hu]
  refine ⟨?_, ?_, releaseLevel_contains shown 1056⟩
  · exact (isSet_of_getF_eq (getF_congr_regs (releaseLevel_regs (s := shown) 1056))).trans hflag
  · exact (getF_congr_regs (releaseLevel_regs (s := shown) 1056)).trans (vbstShown h vbst _ (by decide) false).2

theorem sbkOv_stops (hhigh : 11 * cfg s 0x84 R.SBK.BST.VSET < 10 * vbst.toNat) : let u := sbkOv s vbst.toNat
    u.sbk.ovStop = true ∧ isSet u 0x84 R.SBK.BSTAT.RUN = false ∧ getF u 0x84 R.SBK.BSTAT.VBST = vbst.toNat ∧ Raises u 1057 := by
  let shown := setF s 0x84 R.SBK.BSTAT.VBST vbst.toNat
  let stopped : State := { shown with sbk := { shown.sbk with ovStop := true } }
  have hstop : sbkOv s vbst.toNat = raiseP (sbkStat stopped) 0x84 1 := if_neg fun hlow => Nat.not_lt.mpr (of_decide_eq_true hlow) hhigh
  have hruns : sbkRuns stopped = false := by simp [sbkRuns, stopped]
  have hflag : isSet (sbkStat stopped) 0x84 R.SBK.BSTAT.RUN = false :=
    (isSet_setFlag_same (s := stopped) (setF_wf h) rfl (by decide)).trans hruns
  have hvalue : getF (sbkStat stopped) 0x84 R.SBK.BSTAT.VBST = vbst.toNat := (vbstShown h vbst _ (by decide) (sbkRuns stopped)).2
  intro u
  have hu : u = _ := hstop
  rw [hu]
  exact ⟨rfl, hflag, (getF_raiseP _ _ _ _ _).trans hvalue, raiseP_raises _ _ _⟩

theorem sbkOvEnd_restarts (hback : vbst.toNat < cfg s 0x84 R.SBK.BST.VSET) : let u := sbkOvEnd s vbst.toNat
    u.sbk.ovStop = false ∧ getF u 0x84 R.SBK.BSTAT.VBST = vbst.toNat ∧ u.due = s.due := by
  let shown := setF s 0x84 R.SBK.BSTAT.VBST vbst.toNat
  let restarted : State := { shown with sbk := { shown.sbk with ovStop := false } }
  have hend : sbkOvEnd s vbst.toNat = sbkStat restarted := if_pos (decide_eq_true hback)
  intro u
  have hu : u = _ := hend
  rw [hu]
  exact ⟨rfl, (vbstShown h vbst _ (by decide) (sbkRuns restarted)).2, rfl⟩

end

/-- Settles O25: the tick of the coil model turns on the step of its own valve, between steps of other valves that leave it; the other
commands run down to the branch that their condition takes. -/
theorem boostAndBanks : Obligations.BoostAndBanks := by
  intro s n b pairs power vbst h hrun
  refine ⟨?model, ?unmodelled, ?minimum, ?sel, ?uv, ?uvEnd, ?ov, ?ovEnd, ?overcurrent, ?switchFault⟩
  case model => exact fun hen => answers_powered hrun rfl (solTick_heats h pairs power hen)
  case unmodelled => exact fun hen => answers_powered hrun rfl (solTick_unlimited h pairs power hen)
  case minimum => exact fun hlim hact hphase hwaits => answers_powered hrun rfl (solMinHold_decays h hlim hact hphase hwaits)
  case sel => exact fun hlen hidle => answers_powered hrun rfl (bankSelApply_applies h b hlen hidle)
  case uv => exact fun hlow hlevel => answers_powered hrun rfl (sbkUv_asserts h.regs vbst hlow hlevel)
  case uvEnd => exact fun hback => answers_powered hrun rfl (sbkUvEnd_releases h.regs vbst hback)
  case ov => exact fun hhigh => answers_powered hrun rfl (sbkOv_stops h.regs vbst hhigh)
  case ovEnd => exact fun hback => answers_powered hrun rfl (sbkOvEnd_restarts h.regs vbst hback)
  case overcurrent => exact answers_powered hrun rfl ⟨raiseP_raises s 0x84 2, rfl, rfl⟩
  case switchFault => exact answers_powered hrun rfl ⟨raiseP_raises s 0x84 3, rfl, rfl⟩

end Sys2Proof.Machine
end

section
/-! What an event line, a change of time and a plain write leave as they are, for the commands of strings, matrix and frame memory (01, R26,
R34; 00 Table 4; 13, R302, R303, R307, R310). -/

-- One proof after another: side by side they start more threads than the memory limit of the check has room for.
set_option Elab.async false

namespace Sys2Proof.Machine

/-! ### Commands of the BUS domain (R26, R34) -/

/-- A command of the BUS domain is its act while BUS has power and its clock runs. -/
theorem answers_bused {c : Instr} {s : State} {f : State → State} {P : State → Prop} (hrun : busRuns s = true)
    (he : exec c s = done s (bused s f)) (hP : P (f s)) : Answers c s P := by
  rw [bused, if_pos hrun] at he
  exact .of_done he hP

/-- The device at another time of TBS. -/
def atTime (s : State) (time : Nat) : State := { s with tbs := time }

theorem Canon.atTime {s : State} (h : Canon s) (time : Nat) : Canon (atTime s time) := { h with }

/-- The time that comes with an event changes TBS alone. -/
theorem setNow_eq (s : State) (now : Nat) : setNow s now = atTime s (setNow s now).tbs := by
  unfold setNow
  split <;> rfl

/-- While the BUS clock runs TBS takes a later time and never steps back. -/
theorem setNow_tbs {s : State} (hrun : busRuns s = true) (now : Nat) : (setNow s now).tbs = max s.tbs now := by
  have hclock : busLost s = false := by
    simp only [busRuns, Bool.and_eq_true, Bool.not_eq_true'] at hrun
    exact hrun.2
  unfold setNow
  split
  · next h =>
    simp only [hclock, Bool.not_false, Bool.and_true, decide_eq_true_eq] at h
    exact (Nat.max_eq_right h).symm
  · next h =>
    simp only [hclock, Bool.not_false, Bool.and_true, decide_eq_true_eq, Nat.not_le] at h
    exact (Nat.max_eq_left h.le).symm

/-- Without a commit that waits for its boundary, a boundary is that of the block alone (R45). -/
theorem periodBoundary_idle {s : State} {p : Nat} (h : getF s p H.CST ≠ 2) : periodBoundary s p = s := by
  have hnone : commitPeriod s p = s := if_neg (by simp [h])
  rw [periodBoundary, hnone, ite_self]

/-! ### Writes of live words -/

/-- A granted write of a live word is answered with what its register does, of which the answer is no part. -/
theorem answers_liveWrite {c : Instr} {s t : State} {who : Who} {p off : Nat} {v : Word} {P : State → Prop}
    (he : exec c s = done s (writeReg s who p off v)) (hm : MayWrite s who p off) (hp : p ≠ 6)
    (ho : off % 4 = 0 ∧ 0x100 ≤ off ∧ off < 0x800) (hl : liveWrite s who p off v = (t, true)) (hP : P { t with ans := none }) :
    Answers c s P := by
  rw [writeReg_live hm ho.1 hp ho.2.1 ho.2.2, hl] at he
  exact .of_done he hP

/-- A one-bit RW field takes its bit of the written word. -/
theorem isSet_plainWrite {s : State} (h : storeWf regReset s.regs = true) {p off b : Nat} (v : Word) (hb : b < 32)
    (hm : (accMask p off (· == .rw)).testBit b = true) : isSet (plainWrite s p off v) p ⟨off, b, b⟩ = v.getLsbD b := by
  have hmask : (BitVec.ofNat 32 (accMask p off (· == .rw))).getLsbD b = true := by simp [BitVec.getLsbD_ofNat, hb, hm]
  rw [isSet_bit, plainWrite, rd_wr_same h]
  simp [hmask]

/-! ### Frames -/

theorem KeepsField.ite {p : Nat} {f : Fld} {s t u : State} {c : Prop} {_ : Decidable c} (h : KeepsField p f s t) (h' : KeepsField p f s u) :
    KeepsField p f s (if c then t else u) := by
  split
  · exact h
  · exact h'

/-- A step that is taken or left out. -/
theorem KeepsField.when {p : Nat} {f : Fld} {s t u : State} {c : Prop} {_ : Decidable c} (h : KeepsField p f s t)
    (hu : KeepsField p f s t → KeepsField p f s u) : KeepsField p f s (if c then u else t) := .ite (hu h) h

theorem KeepsField.trans {p : Nat} {f : Fld} {s t u : State} (h : KeepsField p f s t) (h' : KeepsField p f t u) : KeepsField p f s u :=
  ⟨fun hs => (h'.field (h.canon hs)).trans (h.field hs), h'.canon ∘ h.canon⟩

theorem KeepsField.isSet {p : Nat} {f : Fld} {s t : State} (h : KeepsField p f s t) (hs : storeWf regReset s.regs = true) :
    isSet t p f = isSet s p f := isSet_of_getF_eq (h.field hs)

section
variable {p : Nat} {f : Fld} {s t : State} (h : KeepsField p f s t)
include h

theorem touch_keepsField : KeepsField p f s (touch t) := h.upd

theorem raiseP_keepsField (q b : Nat) : KeepsField p f s (raiseP t q b) := h.upd

end

/-- A page whose header stays is enabled or not as before, and its block is disabled or not as before. -/
theorem Keeps.enabled_blockOff {p : Nat} {s t : State} (h : KeepsHead p s t) (hs : storeWf regReset s.regs = true) :
    enabled t p = enabled s p ∧ blockOff t p = blockOff s p := by
  have henabled : enabled t p = enabled s p := by rw [enabled, enabled, h.isSet hs]
  exact ⟨henabled, by rw [blockOff, blockOff, configured, configured, h.getF hs, henabled]⟩

/-! ### Event lines (R302, R303, R307, R310) -/

/-- The pages whose words a raise of an event line writes: TBS, EVF, DMA and the cores'. -/
def linePages : List Nat := 0x0D :: 0x0E :: 0x0F :: corePages

section
variable {K : Nat → Bool} {s t : State} (hK : ∀ p ∈ linePages, ∀ off < 4096, K (rkey p off) = false) (h : Keeps K s t)
include hK h

theorem pendLine_keepsOffLines {p k : Nat} (hp : p ∈ corePages) (hk : k < 64) : Keeps K s (pendLine t p k) := by
  have hword (off : Nat) (w : Word) (ho : off < 4096) : Keeps K s (wr t p off w) := h.wr_of (hK p (by simp [linePages, hp]) off ho)
  exact .ite (hword _ _ (by omega)) (hword _ _ (by omega))

theorem lineMerge_keepsOffLines {k : Nat} (hk : k < 64) : Keeps K s (lineMerge t k) := by
  have hmark (w : Word) : Keeps K s (wr t 0x0E (0x108 + 4 * (k / 32)) w) := h.wr_of (hK _ (by decide) _ (by omega))
  exact .ite (hmark _) (hmark _).upd

theorem tbsEventCapture_keepsOffLines (k : Nat) : Keeps K s (tbsEventCapture t k) := by
  have htbs {u : State} (hu : Keeps K s u) (f : Fld) (v : Nat) (hf : f.off < 4096) : Keeps K s (setF u 0x0D f v) :=
    hu.setF_of (hK _ (by decide) _ hf)
  unfold tbsEventCapture
  refine .ite h (htbs (htbs (htbs (.ite (htbs h _ _ ?_) h) _ _ ?_) _ _ ?_) _ _ ?_)
  all_goals decide

theorem dmaTrigger_keepsOffLines {c : Nat} (hc : c < 16) : Keeps K s (dmaTrigger t c) := by
  have hdma {u : State} (hu : Keeps K s u) (w : Word) : Keeps K s (wr u 0x0F (0x104 + 16 * c) w) :=
    hu.wr_of (hK _ (by decide) _ (by omega))
  have hbegin : Keeps K s (dmaTrigger.dmaBegin t c) := (hdma h _).upd
  unfold dmaTrigger
  exact .ite (.ite (hdma h _).upd h.upd) (.ite (hdma (hdma (.ite h hbegin) _) _) h)

/-- A raise of an event line writes TBS, EVF, DMA and the cores' pages alone. -/
theorem raiseLine_keepsOffLines {k : Nat} (hk : k < 64) : Keeps K s (raiseLine t k) := by
  have hmerge := lineMerge_keepsOffLines hK h hk
  unfold raiseLine
  refine .ite h (.ite (.ite hmerge h.upd) (.ite hmerge (.range (tbsEventCapture_keepsOffLines hK (.foldl (.ite h.upd h) ?pend) k) ?dma)))
  case pend => exact fun u hu p hp => pendLine_keepsOffLines hK hu hp hk
  case dma => exact fun u hu c hc => .when hu (dmaTrigger_keepsOffLines hK · hc)

end

/-- A raise of an event line leaves every field of another page. -/
theorem raiseLine_keepsField {p : Nat} {f : Fld} {s t : State} (h : KeepsField p f s t) (hp : p ∉ linePages) (hf : f.off < 4096) {k : Nat}
    (hk : k < 64) : KeepsField p f s (raiseLine t k) := by
  have hkey : ∀ q ∈ linePages, ∀ off < 4096, decide (rkey q off = rkey p f.off) = false := fun q hq off ho =>
    decide_eq_false (rkey_ne hf ho (.inl (ne_of_mem_of_not_mem hq hp)))
  have hline := raiseLine_keepsOffLines (K := fun i => decide (i = rkey p f.off)) hkey (.refl _ t) hk
  exact h.trans ⟨fun ht => congrArg (fget · f) (hline.rd_eq ht (decide_eq_true rfl)), hline.canon⟩

end Sys2Proof.Machine
end

section
/-! The events of the LED strings (10, R230 to R233). -/

-- One proof after another: side by side they start more threads than the memory limit of the check has room for.
set_option Elab.async false

namespace Sys2Proof.Machine

/-! ### The pages of strings and the matrix -/

theorem liveWrite_lst (s : State) (who : Who) (n : Fin 4) (off : Nat) (v : Word) :
    liveWrite s who (lstPage n.val) off v = (touch (plainWrite s (lstPage n.val) off v), true) := by
  have hb : blkOf (lstPage n.val) = some (.LST, 0x88) := by revert n; decide
  simp only [liveWrite, hb]

/-- ON and STAYON are the bits of CMD that a write sets. -/
theorem accMask_lstCmd (n : Fin 4) : accMask (lstPage n.val) 0x100 (· == .rw) = 3 := by
  revert n
  decide

theorem lstCmd_shows {s : State} (h : storeWf regReset s.regs = true) (n : Fin 4) (v : Word) :
    isSet (plainWrite s (lstPage n.val) 0x100 v) (lstPage n.val) R.LST.CMD.ON = v.getLsbD 0 ∧
      isSet (plainWrite s (lstPage n.val) 0x100 v) (lstPage n.val) R.LST.CMD.STAYON = v.getLsbD 1 := by
  have hmask := accMask_lstCmd n
  exact ⟨isSet_plainWrite h v (by decide) (hmask ▸ rfl), isSet_plainWrite h v (by decide) (hmask ▸ rfl)⟩

/-! ### The state of a string and its STAT -/

theorem lstGet_set_same {s : State} (h : storeWf (fun _ => LstSt.init) s.lst = true) (n : Nat) (c : LstSt) : lstGet (lstSet s n c) n = c :=
  storeGet_set_same h

/-- The fields of STAT that follow the state of a string. -/
def lstStatFields : List Fld := [R.LST.STAT.STATE, R.LST.STAT.SAFEACT, R.LST.STAT.RFXACT, R.LST.STAT.RUSED]

/-- The fields of its page that an update of a string writes. -/
def lstFields : List Fld := R.LST.STAT.LEFF :: R.LST.STAT.FLOOR :: lstStatFields

section
variable {s t : State} {n : Nat} {f : Fld} (h : KeepsField (lstPage n) f s t)
include h

theorem lstStat_keepsField (hf : ∀ g ∈ lstStatFields, fieldsApart f g = true) : KeepsField (lstPage n) f s (lstStat t n) :=
  (((h.setF (hf _ (by simp [lstStatFields]))).setFlag (hf _ (by simp [lstStatFields]))).setFlag (hf _ (by simp [lstStatFields]))).setF
    (hf _ (by simp [lstStatFields]))

variable (hf : ∀ g ∈ lstFields, fieldsApart f g = true)
include hf

theorem lstUpdate_keepsField : KeepsField (lstPage n) f s (lstUpdate t n) := by
  have hlevel {u : State} (hu : KeepsField (lstPage n) f s u) (l : Nat) : KeepsField (lstPage n) f s (lstLevel u n l) :=
    (hu.setF (hf _ (by simp [lstFields]))).setFlag (hf _ (by simp [lstFields]))
  have hset {u : State} (hu : KeepsField (lstPage n) f s u) (c : LstSt) : KeepsField (lstPage n) f s (lstSet u n c) := hu.upd
  unfold lstUpdate
  refine lstStat_keepsField (.ite (.ite ?latched (hlevel (hset ?latched _) 0))
    (.ite (.ite (hset ?latched _) (hset ?latched _)) (hset ?latched _))) fun g hg => hf g (by simp [lstFields, hg])
  exact .when h (hset · _)

end

/-- An event of a string writes no more of its page than STAT. -/
theorem protEvent_lst_keepsField {s t : State} {n : Fin 4} {f : Fld} (h : KeepsField (lstPage n.val) f s t)
    (hf : ∀ g ∈ lstFields, fieldsApart f g = true) (slew : Bool) : KeepsField (lstPage n.val) f s (protEvent t (.lst n) slew) := by
  have hset (c : Prot) : KeepsField (lstPage n.val) f s (protSet t (.lst n) c) := h.upd
  unfold protEvent
  exact touch_keepsField (lstUpdate_keepsField (.when (hset _) (raiseP_keepsField · _ _)) hf)

theorem protNew_lst_keepsField {s t : State} {n : Fin 4} {f : Fld} (h : KeepsField (lstPage n.val) f s t)
    (hf : ∀ g ∈ lstFields, fieldsApart f g = true) (slew : Bool) : KeepsField (lstPage n.val) f s (protNew t (.lst n) slew) := by
  have hfresh : KeepsField (lstPage n.val) f s (freshNat t 2).1 := h.upd
  have hset (c : Prot) : KeepsField (lstPage n.val) f s (protSet (freshNat t 2).1 (.lst n) c) := hfresh.upd
  unfold protNew
  exact .ite (protEvent_lst_keepsField h hf slew)
    (.ite (protEvent_lst_keepsField hfresh hf slew) (touch_keepsField (lstUpdate_keepsField (hset _) hf)))

/-! ### The boundary of a lit string (R229, R230) -/

/-- A string that no reflex set and no SAFE value lights shows the record of its buffer. -/
theorem lstRecord_displayed {s : State} {n : Nat} (hsafe : safeInForce s (100 + n) = false) (hrfx : rfxOn s (100 + n) = false) :
    lstRecord s n = let a := frmBase (isSet s (lstPage n) R.LST.STAT.FRONT) + 64 * n
      frmCode s a :: (List.range 16).map fun k => frmCode s (a + 4 + 2 * k) := by
  have hfull : (lstDemand s n).2.1 = false := by
    simp only [lstDemand, hsafe, hrfx, Bool.false_and, Bool.false_eq_true, if_false]
    split
    · rfl
    · split <;> rfl
  have hholds : lstHolds s n = false := by simp [lstHolds, hsafe]
  simp [lstRecord, lstRecordOf, hholds, hfull]

/-- The clocks that each position carries into the next frame, none where all are 0. -/
def lstCarries (s : State) (n : Nat) : List Nat :=
  let carry := (List.range 16).map (lstCarry s n)
  if carry.all (· = 0) then [] else carry

theorem lstCarries_getD (s : State) (n : Nat) {i : Nat} (hi : i < 16) : (lstCarries s n).getD i 0 = lstCarry s n i := by
  unfold lstCarries
  extract_lets carry
  split
  · next hall =>
    have hzero : lstCarry s n i = 0 := by
      simpa using List.all_eq_true.mp hall _ (List.mem_map_of_mem (List.mem_range.mpr hi))
    exact hzero.symm
  · simp [carry, hi]

/-- A lit string with the record `rec'` at level `l` from this boundary on. -/
def lstNext (s : State) (n : Nat) (rec' : List Nat) (l : Nat) : LstSt :=
  { lstGet s n with carry := lstCarries s n, frame := rec', phase := if l = 0 then 4 else 3 }

/-- With no swap pending the boundary of a lit string takes its record and shows the trimmed level. -/
theorem lstBoundary_lit {s : State} {n : Nat} (hphase : (lstGet s n).phase = 3) (hswap : isSet s 0x91 R.FRMC.STAT.SWPEND = false) :
    lstBoundary s n = lstStat (lstLevel (lstSet s n (lstNext s n (lstRecord s n) (lstLeff s n (lstRecord s n)))) n
      (lstLeff s n (lstRecord s n))) n := by
  have hcons : (if lstHolds s n then s else consBoundary s n) = s := by
    have hnone : consBoundary s n = s := if_neg (by simp [hswap])
    rw [hnone, ite_self]
  unfold lstBoundary
  rw [hcons]
  simp only [hphase]
  rfl

/-- What a boundary shows of the record and the level. -/
theorem lstBoundary_shows {s : State} (h : Canon s) {n : Nat} (hphase : (lstGet s n).phase = 3)
    (hswap : isSet s 0x91 R.FRMC.STAT.SWPEND = false) (hsafe : safeInForce s (100 + n) = false) (hrfx : rfxOn s (100 + n) = false) :
    let u := lstBoundary s n
    let a := frmBase (isSet s (lstPage n) R.LST.STAT.FRONT) + 64 * n
    let l := frmCode s a * trimB s (cfg s (lstPage n) R.LST.CFG.PRIO) / 4096
    getF u (lstPage n) R.LST.STAT.LEFF = l % 4096 ∧ isSet u (lstPage n) R.LST.STAT.FLOOR = decide (l < 256) ∧
      (lstGet u n).phase = (if l = 0 then 4 else 3) ∧ (∀ i, i < 16 → (lstGet u n).frame.getD (i + 1) 0 = frmCode s (a + 4 + 2 * i)) ∧
      (∀ i, i < 16 → (lstGet u n).carry.getD i 0 = lstCarry s n i) ∧ u.applied = s.applied ∧ u.mem = s.mem := by
  have hrecord := lstRecord_displayed hsafe hrfx
  intro u a l
  let next := lstNext s n (lstRecord s n) l
  let lit := lstSet s n next
  have hl : lstLeff s n (lstRecord s n) = l := by rw [lstLeff, hrecord]; rfl
  have hu : u = lstStat (lstLevel lit n l) n := by
    have hlit := lstBoundary_lit hphase hswap
    rwa [hl] at hlit
  have hwf : storeWf regReset lit.regs = true := h.regs
  have hlevel : storeWf regReset (setF lit (lstPage n) R.LST.STAT.LEFF l).regs = true := setF_wf hwf
  have hget : lstGet (lstStat (lstLevel lit n l) n) n = next := lstGet_set_same h.lst n next
  have hstat {f : Fld} (hf : ∀ g ∈ lstStatFields, fieldsApart f g = true) :
      getF (lstStat (lstLevel lit n l) n) (lstPage n) f = getF (lstLevel lit n l) (lstPage n) f :=
    (lstStat_keepsField (.refl _ _ _) hf).field (setFlag_wf hlevel)
  rw [hu, hget]
  refine ⟨?leff, ?floor, rfl, fun i hi => ?frame, fun i hi => lstCarries_getD s n hi, rfl, rfl⟩
  case leff =>
    exact (hstat (by decide)).trans ((getF_setF_apart hlevel (by decide)).trans (getF_setF_same hwf (by decide) (by decide)))
  case floor => exact (isSet_of_getF_eq (hstat (by decide))).trans (isSet_setFlag_same hlevel rfl (by decide))
  case frame =>
    have hframe : next.frame = lstRecord s n := rfl
    rw [hframe, hrecord]
    simp [hi, a]

/-! ### Soft-start and findings (R231, R232) -/

theorem lstSoftEnd_waits {s : State} (h : Canon s) {n : Nat} (hphase : (lstGet s n).phase = 1) :
    let u := lstSoftEnd s n
    (lstGet u n).phase = 2 ∧ u.applied = s.applied ∧ u.mem = s.mem := by
  have hend : lstSoftEnd s n = lstStat (lstSet s n { lstGet s n with phase := 2 }) n := if_pos hphase
  rw [hend]
  exact ⟨congrArg LstSt.phase (lstGet_set_same h.lst n _), rfl, rfl⟩

/-- A field with a bit set in addition. -/
theorem getF_setF_orBit {s : State} (h : storeWf regReset s.regs = true) (p : Nat) {f : Fld} {k : Nat} (hf : f.lo ≤ f.hi) (h32 : f.hi < 32)
    (hk : k < f.hi + 1 - f.lo) : getF (setF s p f (getF s p f ||| 2 ^ k)) p f = getF s p f ||| 2 ^ k := by
  rw [getF_setF_same h hf h32]
  exact Nat.mod_eq_of_lt (Nat.or_lt_two_pow (getF_lt s p f) (Nat.pow_lt_pow_right (by decide) hk))

theorem lstOpen_flags {s : State} (h : storeWf regReset s.regs = true) {n : Nat} {k : Fin 16} (hjudged : lstJudged s n k = true) :
    let u := lstOpen s n k
    getF u (lstPage n) R.LST.LOPEN.OPEN = getF s (lstPage n) R.LST.LOPEN.OPEN ||| 2 ^ k.val ∧ Raises u (lstPage n * 8 + 4) ∧ u.lst = s.lst := by
  have hopen : lstOpen s n k =
      raiseP (setF s (lstPage n) R.LST.LOPEN.OPEN (getF s (lstPage n) R.LST.LOPEN.OPEN ||| 2 ^ k.val)) (lstPage n) 4 :=
    if_neg (by simp [hjudged])
  rw [hopen]
  exact ⟨getF_setF_orBit h _ (by decide) (by decide) k.isLt, raiseP_raises _ _ _, rfl⟩

theorem lstShort_flags {s : State} (h : storeWf regReset s.regs = true) {n : Nat} {k : Fin 16} (hjudged : lstJudged s n k = true)
    (hthreshold : cfg s (lstPage n) R.LST.DIAG.VSHT ≠ 0) :
    let u := lstShort s n k
    getF u (lstPage n) R.LST.LSHORT.SHORT = getF s (lstPage n) R.LST.LSHORT.SHORT ||| 2 ^ k.val ∧ Raises u (lstPage n * 8 + 5) ∧
      u.lst = s.lst := by
  have hshort : lstShort s n k =
      raiseP (setF s (lstPage n) R.LST.LSHORT.SHORT (getF s (lstPage n) R.LST.LSHORT.SHORT ||| 2 ^ k.val)) (lstPage n) 5 :=
    if_neg (by simp [hjudged, hthreshold])
  rw [hshort]
  exact ⟨getF_setF_orBit h _ (by decide) (by decide) k.isLt, raiseP_raises _ _ _, rfl⟩

/-- At a position that is not judged no comparator finds anything. -/
theorem lstOpen_lstShort_idle {s : State} {n k : Nat} (hjudged : lstJudged s n k = false) : lstOpen s n k = s ∧ lstShort s n k = s :=
  ⟨if_pos (by simp [hjudged]), if_pos (by simp [hjudged])⟩

/-! ### Overvoltage (R233) -/

/-- VOUT at or above OVP is shown and trips the string. -/
theorem lstOver_trips {s : State} (h : Canon s) (n : Fin 4) (vout : BitVec 12) (hover : cfg s (lstPage n.val) R.LST.OVP.OVP ≤ vout.toNat)
    (hslew : (lstGet s n.val).prot.slewOff = false) : let u := lstOver s n vout.toNat
    getF u (lstPage n.val) R.LST.VOUT.CODE = vout.toNat ∧ Raises u (lstPage n.val * 8 + 1) ∧ (lstGet u n.val).prot.tripped = true := by
  let coded := setF s (lstPage n.val) R.LST.VOUT.CODE vout.toNat
  let shown := setFlag coded (lstPage n.val) R.LST.VOUT.VALID true
  have htrip : lstOver s n vout.toNat = protTrip shown (.lst n) 1 [] := if_pos (decide_eq_true hover)
  have houtputs : OutputsCanon shown := ⟨h.hsc, h.hb, h.sol, h.lst⟩
  obtain ⟨hraises, htripped, -⟩ := protTrip_trips houtputs (o := .lst n) rfl hslew 1 []
  have hcode : getF shown (lstPage n.val) R.LST.VOUT.CODE = vout.toNat :=
    (getF_setF_apart (setF_wf h.regs) (by decide)).trans ((getF_setF_same h.regs (by decide) (by decide)).trans (Nat.mod_eq_of_lt vout.isLt))
  have hraised : KeepsField (lstPage n.val) R.LST.VOUT.CODE shown (raiseDetail shown (protPage (.lst n) * 8 + 1) []) :=
    (KeepsField.refl _ _ _).upd
  have hkeeps : KeepsField (lstPage n.val) R.LST.VOUT.CODE shown (protTrip shown (.lst n) 1 []) :=
    protNew_lst_keepsField hraised (by decide) _
  rw [htrip]
  exact ⟨(hkeeps.field (setFlag_wf (setF_wf h.regs))).trans hcode, hraises, htripped⟩

/-! ### The obligation -/

/-- Settles O26: the boundary of a lit string turns on what `lstNext` and `lstLevel` leave beside STAT, and a trip on the lemmas of the
protected outputs; every other command takes the branch that its condition names. -/
theorem stringEvents : Obligations.StringEvents := by
  intro s who n v k vout now h
  have hpage : lstPage n.val ≠ 6 := by unfold lstPage; omega
  have hidle (hjudged : lstJudged s n.val k.val = false) := lstOpen_lstShort_idle hjudged
  refine ⟨?cmd, ?boundary, ?soft, ?opened, ?shorted, ?noOpen, ?noShort, ?overvoltage, ?short⟩
  case cmd =>
    intro hm
    obtain ⟨hon, hstayon⟩ := lstCmd_shows h.regs n v
    exact answers_liveWrite rfl hm hpage (by decide) (liveWrite_lst s who n 0x100 v) ⟨hon, hstayon, rfl, rfl, rfl⟩
  case boundary =>
    intro hrun hcst hphase hswap hsafe hrfx hstarts
    refine answers_bused hrun rfl ?_
    rw [setNow_eq] at hstarts ⊢
    generalize (setNow s now.toNat).tbs = time at hstarts ⊢
    have hfalls : lstBoundaryAt (periodBoundary (atTime s time) (lstPage n.val)) n.val = lstBoundary (atTime s time) n.val := by
      rw [periodBoundary_idle (s := atTime s time) hcst]
      exact if_pos hstarts
    rw [hfalls]
    exact lstBoundary_shows (h.atTime time) hphase hswap hsafe hrfx
  case soft => exact fun hrun hphase => answers_bused hrun rfl (lstSoftEnd_waits h hphase)
  case opened => exact fun hrun hjudged => answers_powered hrun rfl (lstOpen_flags h.regs hjudged)
  case shorted => exact fun hrun hjudged hthreshold => answers_powered hrun rfl (lstShort_flags h.regs hjudged hthreshold)
  case noOpen =>
    intro hjudged
    refine .of_done rfl ?_
    rw [powered, (hidle hjudged).1, ite_self]
  case noShort =>
    intro hjudged
    refine .of_done rfl ?_
    rw [powered, (hidle hjudged).2, ite_self]
  case overvoltage => exact fun hrun hover hslew => answers_powered hrun rfl (lstOver_trips h n vout hover hslew)
  case short => exact fun hrun hslew => answers_powered hrun rfl (protTrip_trips h.outputs (o := .lst n) rfl hslew 0 [])

end Sys2Proof.Machine
end

section
/-! The events of the indicator matrix (10, R236 to R239). -/

-- One proof after another: side by side they start more threads than the memory limit of the check has room for.
set_option Elab.async false

namespace Sys2Proof.Machine

theorem lmxCmd_shows {s : State} (h : storeWf regReset s.regs = true) (v : Word) :
    isSet (plainWrite s 0x8C 0x100 v) 0x8C R.LMX.CMD.ON = v.getLsbD 0 ∧
      isSet (plainWrite s 0x8C 0x100 v) 0x8C R.LMX.CMD.STAYON = v.getLsbD 1 :=
  ⟨isSet_plainWrite h v (by decide) (by decide), isSet_plainWrite h v (by decide) (by decide)⟩

/-! ### The boundary of a lit matrix (R236) -/

/-- A lit matrix with the pulse widths of a buffer, trimmed. -/
def lmxNext (s : State) (front : Bool) : LmxSt :=
  { s.lmx with raw := lmxRecord s front,
               pw := (lmxRecord s front).map fun w => w * trimB s (cfg s 0x8C R.LMX.CFG.PRIO) / 4096 }

/-- With no swap pending and no SAFE value in force the boundary of a lit matrix takes the buffer displayed. -/
theorem lmxBoundary_lit {s : State} (hon : s.lmx.on = true) (hswap : isSet s 0x91 R.FRMC.STAT.SWPEND = false) (hholds : lmxHolds s = false) :
    lmxBoundary s = { s with lmx := lmxNext s (isSet s 0x8C R.LMX.STAT.FRONT) } := by
  have hcons : consBoundary s 4 = s := if_neg (by simp [hswap])
  unfold lmxBoundary
  simp only [hholds, hcons, Bool.false_eq_true, if_false]
  exact if_neg (by simp [hon])

theorem lmxNext_pw_length (s : State) (front : Bool) : (lmxNext s front).pw.length = 288 := by simp [lmxNext, lmxRecord]

theorem lmxNext_pw_getD (s : State) (front : Bool) {i : Nat} (hi : i < 288) : (lmxNext s front).pw.getD i 0 =
    frmCode s (frmBase front + 256 + 2 * i) * trimB s (cfg s 0x8C R.LMX.CFG.PRIO) / 4096 := by
  simp [lmxNext, lmxRecord, hi]

/-! ### Findings (R238) -/

section
variable {s : State} (h : storeWf regReset s.regs = true)
include h

theorem lmxOpen_flags {r k : Nat} (hrow : lmxRowOn s r = true) (hcol : lmxColOn s k = true)
    (htime : 960 ≤ s.lmx.pw.getD (24 * r + k) 0 * 27696 / 4095) : let u := lmxOpen s r k
    Raises u 1124 ∧ (getF u 0x8C (R.LMX.OPEN.OPEN ((24 * r + k) / 32))).testBit ((24 * r + k) % 32) = true ∧ u.lmx = s.lmx := by
  let f := R.LMX.OPEN.OPEN ((24 * r + k) / 32)
  have hopen : lmxOpen s r k = raiseP (setF s 0x8C f (getF s 0x8C f ||| 2 ^ ((24 * r + k) % 32))) 0x8C 4 :=
    if_pos (by simp only [hrow, hcol, Bool.and_self, decide_eq_true htime])
  have hflag := getF_setF_orBit h 0x8C (f := f) (k := (24 * r + k) % 32) (Nat.zero_le 31) (Nat.lt_succ_self 31) (Nat.mod_lt _ (by decide))
  rw [hopen]
  refine ⟨raiseP_raises _ 0x8C 4, ?_, rfl⟩
  rw [getF_raiseP, hflag, Nat.testBit_or, Nat.testBit_two_pow_self, Bool.or_true]

theorem lmxRowShort_flags {r : Fin 12} (hrow : lmxRowOn s r = true) : let u := lmxRowShort s r
    getF u 0x8C R.LMX.ROWSC.ROW = getF s 0x8C R.LMX.ROWSC.ROW ||| 2 ^ r.val ∧ Raises u 1120 ∧ u.lmx = s.lmx := by
  have hshort : lmxRowShort s r = raiseP (setF s 0x8C R.LMX.ROWSC.ROW (getF s 0x8C R.LMX.ROWSC.ROW ||| 2 ^ r.val)) 0x8C 0 := if_pos hrow
  rw [hshort]
  exact ⟨getF_setF_orBit h _ (by decide) (by decide) r.isLt, raiseP_raises _ 0x8C 0, rfl⟩

theorem lmxColStb_flags {k : Fin 24} (hcol : lmxColOn s k = true) : let u := lmxColStb s k
    getF u 0x8C R.LMX.COLSTB.COL = getF s 0x8C R.LMX.COLSTB.COL ||| 2 ^ k.val ∧ Raises u 1121 ∧ u.lmx = s.lmx := by
  have hshort : lmxColStb s k = raiseP (setF s 0x8C R.LMX.COLSTB.COL (getF s 0x8C R.LMX.COLSTB.COL ||| 2 ^ k.val)) 0x8C 1 := if_pos hcol
  rw [hshort]
  exact ⟨getF_setF_orBit h _ (by decide) (by decide) k.isLt, raiseP_raises _ 0x8C 1, rfl⟩

end

/-! ### The obligation -/

/-- Settles O27: a boundary leaves `lmxNext` of the buffer displayed; each finding sets its bit and asserts its source. -/
theorem matrixEvents : Obligations.MatrixEvents := by
  intro s who r k v now h
  refine ⟨?cmd, ?boundary, ?opened, ?row, ?column⟩
  case cmd =>
    intro hm
    obtain ⟨hon, hstayon⟩ := lmxCmd_shows h.regs v
    exact answers_liveWrite rfl hm (by decide) (by decide) (t := touch (plainWrite s 0x8C 0x100 v)) rfl ⟨hon, hstayon, rfl, rfl, rfl⟩
  case boundary =>
    intro hrun hcst hon hswap hholds hstarts
    refine answers_bused hrun rfl ?_
    rw [setNow_eq] at hstarts ⊢
    generalize (setNow s now.toNat).tbs = time at hstarts ⊢
    have hfalls : lmxBoundaryAt (periodBoundary (atTime s time) 0x8C) =
        { atTime s time with lmx := lmxNext s (isSet s 0x8C R.LMX.STAT.FRONT) } := by
      rw [periodBoundary_idle (s := atTime s time) hcst]
      exact (if_pos hstarts).trans (lmxBoundary_lit (s := atTime s time) hon hswap hholds)
    rw [hfalls]
    exact ⟨lmxNext_pw_length s _, rfl, rfl, rfl, fun i hi => lmxNext_pw_getD s _ hi⟩
  case opened => exact fun hrun hrow hcol htime => answers_powered hrun rfl (lmxOpen_flags h.regs hrow hcol htime)
  case row => exact fun hrun hrow => answers_powered hrun rfl (lmxRowShort_flags h.regs hrow)
  case column => exact fun hrun hcol => answers_powered hrun rfl (lmxColStb_flags h.regs hcol)

end Sys2Proof.Machine
end

section
/-! Writes to frame memory and what its swap and the mirror copy do to its bytes and registers (10, R240 to R244). -/

-- One proof after another: side by side they start more threads than the memory limit of the check has room for.
set_option Elab.async false

namespace Sys2Proof.Machine

/-! ### Bytes of memory -/

/-- Stores with the same entries at two keys of one default read alike there. -/
theorem storeGet_congr_keys {α : Type} {d : Nat → α} {m r : Store α} {i j : Nat} (hm : m.Pairwise (·.1 < ·.1)) (hr : r.Pairwise (·.1 < ·.1))
    (hd : d i = d j) (h : ∀ v, (i, v) ∈ m ↔ (j, v) ∈ r) : storeGet d m i = storeGet d r j := by
  by_cases he : ∃ v, (i, v) ∈ m
  · obtain ⟨v, hv⟩ := he
    rw [storeGet_of_mem hm hv, storeGet_of_mem hr ((h v).mp hv)]
  · have hnone : ∀ e ∈ m, e.1 ≠ i := fun e hmem hk => he ⟨e.2, hk ▸ hmem⟩
    have hnone' : ∀ e ∈ r, e.1 ≠ j := fun e hmem hk => he ⟨e.2, (h _).mpr (hk ▸ hmem)⟩
    rw [storeGet_of_forall_ne hnone, storeGet_of_forall_ne hnone', hd]

theorem memGetList_length (m : List Host.Cell) (a n : Nat) : (memGetList m a n).length = n := by
  induction n generalizing a with
  | zero => rfl
  | succ n ih => simp [memGetList, ih]

theorem memGetList_getD (m : List Host.Cell) (a : Nat) {n i : Nat} (hi : i < n) : (memGetList m a n).getD i 0 = memGet m (a + i) := by
  induction n generalizing a i with
  | zero => exact absurd hi (Nat.not_lt_zero i)
  | succ n ih =>
    cases i with
    | zero => rfl
    | succ i =>
      have hrest := ih (a + 1) (Nat.lt_of_succ_lt_succ hi)
      rwa [Nat.add_assoc, Nat.add_comm 1 i] at hrest

/-- A byte after a block write: the block's inside it, as before outside. -/
theorem memGet_setList {m : List Host.Cell} (h : Memory.wf m = true) (a : Nat) (bs : List Byte) (x : Nat) :
    memGet (memSetList m a bs) x = if a ≤ x ∧ x < a + bs.length then bs.getD (x - a) 0 else memGet m x := by
  split
  · next hx =>
    have hread := memGetList_getD (memSetList m a bs) a (n := bs.length) (i := x - a) (by omega)
    rw [memGetList_setList h, Nat.add_sub_cancel' hx.1] at hread
    exact hread.symm
  · next hx => exact memGet_setList_out h (by omega)

section
variable {m : List Host.Cell} (src dst len : Nat)

/-- The entries of a copy: those of the source, moved, in the place of those of the destination. -/
theorem mem_memCopy {a : Nat} {v : Byte} : (a, v) ∈ memCopy m src dst len ↔
    if dst ≤ a ∧ a < dst + len then (a - dst + src, v) ∈ m else (a, v) ∈ m := by
  simp only [memCopy, memRange, List.mem_append, List.mem_filter, List.mem_map, Bool.and_eq_true, decide_eq_true_eq, Prod.mk.injEq]
  split
  · next ha =>
    constructor
    · rintro ((⟨_, h⟩ | ⟨e, ⟨he, hlo, _⟩, hk, rfl⟩) | ⟨_, h⟩)
      · omega
      · rwa [show a - dst + src = e.1 by omega]
      · omega
    · exact fun h => .inl (.inr ⟨_, ⟨h, by omega⟩, by omega, rfl⟩)
  · next ha =>
    constructor
    · rintro ((⟨h, _⟩ | ⟨e, ⟨_, hlo, hhi⟩, hk, _⟩) | ⟨h, _⟩)
      · exact h
      · omega
      · exact h
    · intro h
      rcases Nat.lt_or_ge a dst with hlt | hge
      · exact .inl (.inl ⟨h, hlt⟩)
      · exact .inr ⟨h, by omega⟩

theorem memCopy_pairwise (hm : m.Pairwise (·.1 < ·.1)) : (memCopy m src dst len).Pairwise (·.1 < ·.1) := by
  have hmoved : ((memRange m src len).map fun e => (e.1 - src + dst, e.2)).Pairwise (·.1 < ·.1) := by
    refine List.pairwise_map.mpr ((hm.filter _).imp_of_mem fun {a b} ha _ hab => ?_)
    simp only [memRange, List.mem_filter, Bool.and_eq_true, decide_eq_true_eq] at ha
    change a.1 - src + dst < b.1 - src + dst
    omega
  unfold memCopy
  rw [List.pairwise_append, List.pairwise_append]
  refine ⟨⟨hm.filter _, hmoved, ?_⟩, hm.filter _, ?_⟩
  all_goals
    intro a ha b hb
    simp only [memRange, List.mem_append, List.mem_filter, List.mem_map, Bool.and_eq_true, decide_eq_true_eq] at ha hb
  · obtain ⟨e, -, rfl⟩ := hb
    change a.1 < e.1 - src + dst
    omega
  · rcases ha with ⟨-, ha⟩ | ⟨e, ⟨-, hlo, hhi⟩, rfl⟩
    · omega
    · change e.1 - src + dst < b.1
      omega

/-- A byte of the device's own memory after a copy: the source's in the destination, as before elsewhere. -/
theorem memGet_memCopy (h : Memory.wf m = true) (hsrc : src + len ≤ extBase) (hdst : dst + len ≤ extBase) (a : Nat) :
    memGet (memCopy m src dst len) a = if dst ≤ a ∧ a < dst + len then memGet m (a - dst + src) else memGet m a := by
  have hm := storeWf_pairwise h
  split
  · next ha =>
    have hdefault : memDefault a = memDefault (a - dst + src) := by
      rw [memDefault, memDefault, if_neg (by omega), if_neg (by omega)]
    exact storeGet_congr_keys (memCopy_pairwise src dst len hm) hm hdefault fun v => (mem_memCopy src dst len).trans (by rw [if_pos ha])
  · next ha =>
    exact storeGet_congr_entries (memCopy_pairwise src dst len hm) hm fun v => (mem_memCopy src dst len).trans (by rw [if_neg ha])

end

/-! ### Writes to frame memory (R242) -/

theorem place_frm (who : Who) {a : Nat} (h1 : 0x20200000 ≤ a) (h2 : a < 0x20280000) : place who a = .frm := by
  unfold place
  repeat rw [if_neg (by omega)]
  rw [if_pos ⟨h1, h2⟩]

/-- 01 Table 6: a core's or the host's aligned write to frame memory stores the low bytes, or is refused. -/
theorem storeAccess_frm {s : State} {who : Who} {a : Nat} {size : AccSize} (v : Word) (hr : running s = true)
    (hg : whoIsCore who = true ∨ who = .host ∧ manifestLoaded s = true) (hs : sysLost s = false)
    (h1 : 0x20200000 ≤ a) (h2 : a < 0x20280000) (ha : a % accBytes size = 0) :
    storeAccess s who a size v = answerW (if frmRefused s a then (frmReject s, false)
      else (frmStore s a ((wordBytes v).take (accBytes size)), true)) := by
  have hp := place_frm who h1 h2
  have hw : writeWaits s who a = false := by
    rw [writeWaits_eq_sysLost (by simp [hp]) (by simp [hp]), hs]
  have hm : memGrant s who false true a .frm = .ok := by
    rcases hg with hc | ⟨rfl, hl⟩
    · simp [memGrant, hc]
    · simp [memGrant, hostMay, hl]
  rw [storeAccess_goes hr ha hw]
  simp only [busWrite, hp, hm]

/-- A chain that reads on changes its own state alone. -/
theorem lchFollow_eq (s : State) (c : Nat) : lchFollow s c = { s with lch := (lchFollow s c).lch } := by
  unfold lchFollow
  dsimp only
  split <;> rfl

theorem lchFollow_regs (s : State) (c : Nat) : (lchFollow s c).regs = s.regs := by rw [lchFollow_eq]

/-- Of memory and registers a store into frame memory writes its bytes alone. -/
theorem frmStore_writes (s : State) (a : Nat) (bytes : List Byte) :
    (frmStore s a bytes).regs = s.regs ∧ (frmStore s a bytes).mem = memSetList s.mem a bytes := by
  unfold frmStore
  refine List.foldlRecOn (motive := fun u => u.regs = s.regs ∧ u.mem = memSetList s.mem a bytes) (List.range 4) lchFollow
    (b := { s with mem := memSetList s.mem a bytes }) ⟨rfl, rfl⟩ fun u hu c _ => ?_
  rw [lchFollow_eq]
  exact hu

theorem frmStore_bytes {s : State} (h : Memory.wf s.mem = true) (a : Nat) (size : AccSize) (v : Word) (x : Nat) :
    memGet (frmStore s a ((wordBytes v).take (accBytes size))).mem x =
      if a ≤ x ∧ x < a + accBytes size then (wordBytes v).getD (x - a) 0 else memGet s.mem x := by
  have hlen : ((wordBytes v).take (accBytes size)).length = accBytes size := by cases size <;> rfl
  rw [(frmStore_writes s a _).2, memGet_setList h, hlen]
  refine if_ctx_congr Iff.rfl (fun hx => ?_) fun _ => rfl
  have hi : x - a < accBytes size := by omega
  simp [List.getD_eq_getElem?_getD, hi]

/-- What a core or the host finds after a write that frame memory takes. -/
theorem frmStore_answered {s : State} (h : Memory.wf s.mem = true) (a : Nat) (size : AccSize) (v : Word) :
    let u := answerW (frmStore s a ((wordBytes v).take (accBytes size)), true)
    u.regs = s.regs ∧ u.ans = none ∧ ∀ x, memGet u.mem x =
      if a ≤ x ∧ x < a + accBytes size then (wordBytes v).getD (x - a) 0 else memGet s.mem x := by
  have hregs := (frmStore_writes s a ((wordBytes v).take (accBytes size))).1
  have hbytes := frmStore_bytes h a size v
  generalize frmStore s a _ = stored at hregs hbytes ⊢
  exact ⟨hregs, rfl, hbytes⟩

theorem frmReject_counts {s : State} (h : storeWf regReset s.regs = true) : (frmReject s).mem = s.mem ∧ Raises (frmReject s) 1162 ∧
    getF (frmReject s) 0x91 R.FRMC.MISS.WREJ = satInc 65535 (getF s 0x91 R.FRMC.MISS.WREJ) := by
  refine ⟨rfl, raiseP_raises _ 0x91 2, ?_⟩
  have hsmall : satInc 65535 (getF s 0x91 R.FRMC.MISS.WREJ) < 65536 := by
    unfold satInc
    split <;> omega
  exact (getF_setF_same h (by decide) (by decide)).trans (Nat.mod_eq_of_lt hsmall)

/-! ### ARM and the player's phase (R243, R246) -/

theorem fieldsApart_off {f g : Fld} (h : fieldsApart f g = true) : f.off < 4096 := by
  simp only [fieldsApart, Bool.and_eq_true, decide_eq_true_eq] at h
  exact h.1.1

theorem armSet_shows {s : State} (h : storeWf regReset s.regs = true) (v : Bool) :
    isSet (armSet s v) 0x91 R.FRMC.CTL.ARM = v ∧ isSet (armSet s v) 0x91 R.FRMC.STAT.ARMED = v := by
  have hctl : storeWf regReset (setFlag s 0x91 R.FRMC.CTL.ARM v).regs = true := setFlag_wf h
  have harm : isSet (setFlag s 0x91 R.FRMC.CTL.ARM v) 0x91 R.FRMC.CTL.ARM = v := isSet_setFlag_same h rfl (by decide)
  exact ⟨(isSet_of_getF_eq (getF_setF_apart hctl (by decide))).trans harm, isSet_setFlag_same hctl rfl (by decide)⟩

section
variable {f : Fld} {s t : State} (h : KeepsField 0x91 f s t)
include h

theorem armSet_keepsField (hctl : fieldsApart f R.FRMC.CTL.ARM = true) (hstat : fieldsApart f R.FRMC.STAT.ARMED = true) (v : Bool) :
    KeepsField 0x91 f s (armSet t v) := (h.setFlag hctl).setFlag hstat

variable (hf : fieldsApart f R.FRMC.STAT.PLAY = true)
include hf

theorem playSet_keepsField (ph : Nat) : KeepsField 0x91 f s (playSet t ph) := by
  have hphase : KeepsField 0x91 f s { t with frmc := { t.frmc with play := ph, stop := t.frmc.stop && decide (ph = 2) } } := h.upd
  exact hphase.setFlag hf

theorem playGo_keepsField : KeepsField 0x91 f s (playGo t) := .when h (playSet_keepsField · hf 2)

end

theorem isSet_playSet {s : State} (h : storeWf regReset s.regs = true) (ph : Nat) :
    isSet (playSet s ph) 0x91 R.FRMC.STAT.PLAY = decide (ph ≠ 0) :=
  isSet_setFlag_same (s := { s with frmc := { s.frmc with play := ph, stop := s.frmc.stop && decide (ph = 2) } }) h rfl (by decide)

theorem playGo_mem (s : State) : (playGo s).mem = s.mem := by
  unfold playGo
  split <;> rfl

/-! ### What a swap leaves of FRMC's registers (R243, R244) -/

/-- The fields of FRMC that a swap writes from its trigger to its end, the player going on included. -/
def swapFields : List Fld :=
  [R.FRMC.CTL.ARM, R.FRMC.STAT.ARMED, R.FRMC.STAT.SWPEND, R.FRMC.STAT.PEND, R.FRMC.STAT.FRONT, R.FRMC.STAT.MIRR, R.FRMC.STAT.PLAY,
    R.FRMC.SWCNT.CNT, R.FRMC.EVT.SWDONE, R.FRMC.EVT.AEND, R.FRMC.AFRM.IDX]

section
variable {f : Fld} {s t : State} (h : KeepsField 0x91 f s t)
include h

theorem consFront_keepsField (hf : f.off < 4096) {k : Nat} (hk : k < 9) : KeepsField 0x91 f s (consFront t k) := by
  have hpage : (0x91 : Nat) ≠ consPage k := by unfold consPage; omega
  have hoff : (consFrontFld k).off < 4096 := by
    unfold consFrontFld
    split <;> decide
  have hfront : KeepsField 0x91 f s (setFlag t (consPage k) (consFrontFld k) t.frmc.target) := h.setF_page hpage hf hoff
  exact .ite hfront (hfront.upd (lchFollow_regs _ _))

theorem swapLate_keepsField (hlate : fieldsApart f R.FRMC.MISS.LATE = true) (halate : fieldsApart f R.FRMC.EVT.ALATE = true) :
    KeepsField 0x91 f s (swapLate t) := by
  have hcounted := h.setF (v := satInc 65535 (getF t 0x91 R.FRMC.MISS.LATE)) hlate
  have hraised := hcounted.upd (u := raiseP (setF t 0x91 R.FRMC.MISS.LATE (satInc 65535 (getF t 0x91 R.FRMC.MISS.LATE))) 0x91 0)
  exact .ite hcounted (.ite (raiseLine_keepsField (hraised.setFlag halate) (by decide) (fieldsApart_off hlate) (by decide)) hraised)

variable (hf : ∀ g ∈ swapFields, fieldsApart f g = true)
include hf

theorem swapDone_keepsField : KeepsField 0x91 f s (swapDone t) := by
  have hoff : f.off < 4096 := fieldsApart_off (hf R.FRMC.CTL.ARM (by simp [swapFields]))
  have hline {u : State} (hu : KeepsField 0x91 f s u) {k : Nat} (hk : k < 64) : KeepsField 0x91 f s (raiseLine u k) :=
    raiseLine_keepsField hu (by decide) hoff hk
  have hplay {u : State} (hu : KeepsField 0x91 f s u) (ph : Nat) : KeepsField 0x91 f s (playSet u ph) :=
    playSet_keepsField hu (hf _ (by simp [swapFields])) ph
  have hindex {u : State} (hu : KeepsField 0x91 f s u) (i : Nat) : KeepsField 0x91 f s (playGo (playSet (setF u 0x91 R.FRMC.AFRM.IDX i) 1)) :=
    playGo_keepsField (hplay (hu.setF (hf _ (by simp [swapFields]))) 1) (hf _ (by simp [swapFields]))
  unfold swapDone
  extract_lets switched counted done mirrored i
  have hswitched : KeepsField 0x91 f s switched := (h.setFlag (hf _ (by simp [swapFields]))).setFlag (hf _ (by simp [swapFields]))
  have hcounted : KeepsField 0x91 f s counted := hswitched.setF (hf _ (by simp [swapFields]))
  have hdone : KeepsField 0x91 f s done := hline (hcounted.setFlag (hf _ (by simp [swapFields]))) (by decide)
  have hmirrored : KeepsField 0x91 f s mirrored := .when hdone (·.setFlag (hf _ (by simp [swapFields])))
  exact .ite hmirrored (.ite (hindex hmirrored _) (.ite (hindex hmirrored _)
    (hline (hplay (hmirrored.setFlag (hf _ (by simp [swapFields]))) 0) (by decide))))

theorem consSwitch_keepsField {k : Nat} (hk : k < 9) : KeepsField 0x91 f s (consSwitch t k) := by
  have hoff : f.off < 4096 := fieldsApart_off (hf R.FRMC.CTL.ARM (by simp [swapFields]))
  have hpend : KeepsField 0x91 f s (setF (consFront t k) 0x91 R.FRMC.STAT.PEND (getF t 0x91 R.FRMC.STAT.PEND - 2 ^ k)) :=
    (consFront_keepsField h hoff hk).setF (hf _ (by simp [swapFields]))
  exact .ite h (.when hpend (swapDone_keepsField · hf))

end

/-! ### A trigger (R243, R245) -/

/-- The state in which a swap has begun, before disabled consumers switch. -/
def swapBegun (s : State) : State :=
  let t := setFlag (armSet s false) 0x91 R.FRMC.STAT.SWPEND true
  setF { t with frmc := { t.frmc with target := !isSet s 0x91 R.FRMC.STAT.FRONT, trig := t.tbs } } 0x91 R.FRMC.STAT.PEND 0x1FF

theorem swapStart_eq (s : State) :
    swapStart s = ((List.range 9).filter fun k => !enabled (swapBegun s) (consPage k)).foldl consSwitch (swapBegun s) := rfl

theorem swapBegun_keepsHead (s : State) (p : Nat) : KeepsHead p s (swapBegun s) := by
  have hbegun : KeepsHead p s (setFlag (armSet s false) 0x91 R.FRMC.STAT.SWPEND true) := (((Keeps.refl _ s).setFlag).setFlag).setFlag
  exact Keeps.setF hbegun.upd

/-- Without a disabled consumer none switches at the trigger. -/
theorem swapStart_enabled {s : State} (h : storeWf regReset s.regs = true) (hall : ∀ k, k < 9 → enabled s (consPage k) = true) :
    swapStart s = swapBegun s := by
  have hnone : ((List.range 9).filter fun k => !enabled (swapBegun s) (consPage k)) = [] := by
    refine List.filter_eq_nil_iff.mpr fun k hk => ?_
    rw [((swapBegun_keepsHead s (consPage k)).enabled_blockOff h).1, hall k (List.mem_range.mp hk)]
    decide
  rw [swapStart_eq, hnone, List.foldl_nil]

theorem swapBegun_shows {s : State} (h : storeWf regReset s.regs = true) : isSet (swapBegun s) 0x91 R.FRMC.STAT.SWPEND = true ∧
    getF (swapBegun s) 0x91 R.FRMC.STAT.PEND = 0x1FF ∧ isSet (swapBegun s) 0x91 R.FRMC.CTL.ARM = false := by
  let t := setFlag (armSet s false) 0x91 R.FRMC.STAT.SWPEND true
  have harmed : storeWf regReset (armSet s false).regs = true := setFlag_wf (setFlag_wf h)
  have ht : storeWf regReset t.regs = true := setFlag_wf harmed
  have hbegun {f : Fld} (hf : fieldsApart f R.FRMC.STAT.PEND = true) : isSet (swapBegun s) 0x91 f = isSet t 0x91 f :=
    isSet_of_getF_eq (getF_setF_apart (s := { t with frmc := _ }) ht hf)
  refine ⟨?pending, getF_setF_same (s := { t with frmc := _ }) ht (by decide) (by decide), ?disarmed⟩
  case pending => exact (hbegun (by decide)).trans (isSet_setFlag_same harmed rfl (by decide))
  case disarmed =>
    exact (hbegun (by decide)).trans ((isSet_of_getF_eq (getF_setF_apart harmed (by decide))).trans (armSet_shows h false).1)

theorem swapStart_keepsField {f : Fld} {s t : State} (h : KeepsField 0x91 f s t) (hf : ∀ g ∈ swapFields, fieldsApart f g = true) :
    KeepsField 0x91 f s (swapStart t) := by
  have harmed : KeepsField 0x91 f s (setFlag (armSet t false) 0x91 R.FRMC.STAT.SWPEND true) :=
    (armSet_keepsField h (hf _ (by simp [swapFields])) (hf _ (by simp [swapFields])) false).setFlag (hf _ (by simp [swapFields]))
  have hbegun : KeepsField 0x91 f s (swapBegun t) := KeepsField.setF harmed.upd (hf _ (by simp [swapFields]))
  rw [swapStart_eq]
  exact List.foldlRecOn _ consSwitch hbegun fun u hu k hk => consSwitch_keepsField hu hf (List.mem_range.mp (List.mem_of_mem_filter hk))

/-- SWTIME after a trigger: one of TBS advances it by SWPER. -/
def swapTimed (s : State) (kind : Nat) : State :=
  if kind = 2 && cfg s 0x91 R.FRMC.SWPER.PER ≠ 0
  then setF s 0x91 R.FRMC.SWTIME.TIME (getF s 0x91 R.FRMC.SWTIME.TIME + cfg s 0x91 R.FRMC.SWPER.PER) else s

/-- A trigger of TBS falls into an excluded time. -/
def swapExcluded (s : State) (kind : Nat) : Bool := kind = 2 && isSet s 0x0D R.TBS.STAT.EXCL

/-- SWTIME and EXCL after a trigger. -/
def swapShown (s : State) (kind : Nat) : State :=
  if kind = 2 then setFlag (swapTimed s kind) 0x91 R.FRMC.STAT.EXCL (swapExcluded (swapTimed s kind) kind) else swapTimed s kind

/-- A trigger of the selected kind, no edge of the other polarity, starts the swap of an armed FRMC and is late elsewhere. -/
theorem swapTrigger_eq {s : State} {kind : Nat} {rise : Bool} (hkind : cfg s 0x91 R.FRMC.CFG.TRIG = kind)
    (hedge : kind = 1 → cfgOn s 0x91 R.FRMC.CFG.MPOL = !rise) : swapTrigger s kind rise =
      if !swapExcluded (swapTimed s kind) kind && !blockOff (swapShown s kind) 0x91 && isSet (swapShown s kind) 0x91 R.FRMC.CTL.ARM &&
          !isSet (swapShown s kind) 0x91 R.FRMC.STAT.SWPEND
      then swapStart (swapShown s kind) else swapLate (swapShown s kind) := by
  have hselected : (cfg s 0x91 R.FRMC.CFG.TRIG ≠ kind || (kind = 1 && cfgOn s 0x91 R.FRMC.CFG.MPOL = rise) : Bool) = false := by
    rcases eq_or_ne kind 1 with h1 | h1
    · simp [hkind, h1, hedge h1]
    · simp [hkind, h1]
  unfold swapTrigger
  rw [if_neg (by simpa using hselected)]
  rfl

section
variable (s : State) (kind : Nat)

theorem swapTimed_keepsHead (p : Nat) : KeepsHead p s (swapTimed s kind) := .when (.refl _ s) (·.setF)

theorem swapShown_keepsHead (p : Nat) : KeepsHead p s (swapShown s kind) := .when (swapTimed_keepsHead s kind p) (·.setFlag)

/-- A trigger writes SWTIME and EXCL, and nothing beside FRMC's registers. -/
theorem swapShown_frmc : (swapShown s kind).frmc = s.frmc ∧ (swapShown s kind).tbs = s.tbs := by
  unfold swapShown swapTimed
  split <;> split <;> exact ⟨rfl, rfl⟩

variable {s} {f : Fld}

theorem swapTimed_keepsField (hf : fieldsApart f R.FRMC.SWTIME.TIME = true) : KeepsField 0x91 f s (swapTimed s kind) :=
  .when (.refl _ _ s) (·.setF hf)

theorem swapShown_keepsField (htime : fieldsApart f R.FRMC.SWTIME.TIME = true) (hexcl : fieldsApart f R.FRMC.STAT.EXCL = true) :
    KeepsField 0x91 f s (swapShown s kind) := .when (swapTimed_keepsField kind htime) (·.setFlag hexcl)

end

/-- EXCL of TBS is not FRMC's. -/
theorem swapExcluded_timed {s : State} (h : storeWf regReset s.regs = true) (kind : Nat) :
    swapExcluded (swapTimed s kind) kind = (decide (kind = 2) && isSet s 0x0D R.TBS.STAT.EXCL) := by
  have htimed : KeepsField 0x0D R.TBS.STAT.EXCL s (swapTimed s kind) :=
    .when (.refl _ _ s) (·.setF_page (by decide) (by decide) (by decide))
  rw [swapExcluded, htimed.isSet h]

/-- What a trigger of TBS shows. -/
theorem swapShown_tbs {s : State} (h : storeWf regReset s.regs = true) :
    isSet (swapShown s 2) 0x91 R.FRMC.STAT.EXCL = isSet s 0x0D R.TBS.STAT.EXCL ∧
      getF (swapShown s 2) 0x91 R.FRMC.SWTIME.TIME = if cfg s 0x91 R.FRMC.SWPER.PER = 0 then getF s 0x91 R.FRMC.SWTIME.TIME
        else (getF s 0x91 R.FRMC.SWTIME.TIME + cfg s 0x91 R.FRMC.SWPER.PER) % 2 ^ 32 := by
  have htimed : storeWf regReset (swapTimed s 2).regs = true := (swapTimed_keepsField (f := R.FRMC.STAT.EXCL) 2 (by decide)).canon h
  have hshown : swapShown s 2 = setFlag (swapTimed s 2) 0x91 R.FRMC.STAT.EXCL (swapExcluded (swapTimed s 2) 2) := rfl
  rw [hshown]
  refine ⟨(isSet_setFlag_same htimed rfl (by decide)).trans (swapExcluded_timed h 2), (getF_setF_apart htimed (by decide)).trans ?_⟩
  by_cases hper : cfg s 0x91 R.FRMC.SWPER.PER = 0
  · rw [if_pos hper, swapTimed, if_neg (by simp [hper])]
  · rw [if_neg hper, swapTimed, if_pos (by simp [hper])]
    exact getF_setF_same h (by decide) (by decide)

/-- A trigger of the selected kind starts the swap of an armed FRMC whose consumers are all enabled. -/
theorem swapTrigger_starts {s : State} (h : storeWf regReset s.regs = true) {kind : Nat} {rise : Bool}
    (hkind : cfg s 0x91 R.FRMC.CFG.TRIG = kind) (hedge : kind = 1 → cfgOn s 0x91 R.FRMC.CFG.MPOL = !rise)
    (hexcl : kind = 2 → isSet s 0x0D R.TBS.STAT.EXCL = false) (hoff : blockOff s 0x91 = false) (harm : isSet s 0x91 R.FRMC.CTL.ARM = true)
    (hswap : isSet s 0x91 R.FRMC.STAT.SWPEND = false) (hall : ∀ k, k < 9 → enabled s (consPage k) = true) :
    swapTrigger s kind rise = swapBegun (swapShown s kind) := by
  have hshown {f : Fld} (htime : fieldsApart f R.FRMC.SWTIME.TIME = true) (hstat : fieldsApart f R.FRMC.STAT.EXCL = true) :
      isSet (swapShown s kind) 0x91 f = isSet s 0x91 f := (swapShown_keepsField kind htime hstat).isSet h
  have hfree : swapExcluded (swapTimed s kind) kind = false := by
    rw [swapExcluded_timed h]
    rcases eq_or_ne kind 2 with h2 | h2
    · simp [hexcl h2]
    · simp [h2]
  have hwf : storeWf regReset (swapShown s kind).regs = true := (swapShown_keepsHead s kind 0x91).canon h
  have henabled (k : Nat) (hk : k < 9) : enabled (swapShown s kind) (consPage k) = true := by
    rw [((swapShown_keepsHead s kind _).enabled_blockOff h).1, hall k hk]
  rw [swapTrigger_eq hkind hedge, hfree, ((swapShown_keepsHead s kind 0x91).enabled_blockOff h).2, hoff, hshown (by decide) (by decide), harm,
    hshown (by decide) (by decide), hswap]
  exact swapStart_enabled hwf henabled

/-- What the start of a swap shows. -/
theorem swapTrigger_shows {s : State} (h : storeWf regReset s.regs = true) {kind : Nat} {rise : Bool}
    (hkind : cfg s 0x91 R.FRMC.CFG.TRIG = kind) (hedge : kind = 1 → cfgOn s 0x91 R.FRMC.CFG.MPOL = !rise)
    (hexcl : kind = 2 → isSet s 0x0D R.TBS.STAT.EXCL = false) (hoff : blockOff s 0x91 = false) (harm : isSet s 0x91 R.FRMC.CTL.ARM = true)
    (hswap : isSet s 0x91 R.FRMC.STAT.SWPEND = false) (hall : ∀ k, k < 9 → enabled s (consPage k) = true) :
    let u := swapTrigger s kind rise
    isSet u 0x91 R.FRMC.STAT.SWPEND = true ∧ getF u 0x91 R.FRMC.STAT.PEND = 0x1FF ∧ isSet u 0x91 R.FRMC.CTL.ARM = false ∧
      u.frmc.target = !isSet s 0x91 R.FRMC.STAT.FRONT ∧ u.frmc.trig = s.tbs ∧ u.applied = s.applied ∧ u.mem = s.mem := by
  have hhead := swapShown_keepsHead s kind 0x91
  obtain ⟨hpending, hpend, hdisarmed⟩ := swapBegun_shows (hhead.canon h)
  have hfront := (swapShown_keepsField kind (f := R.FRMC.STAT.FRONT) (by decide) (by decide)).isSet h
  rw [swapTrigger_starts h hkind hedge hexcl hoff harm hswap hall]
  exact ⟨hpending, hpend, hdisarmed, congrArg not hfront, (swapShown_frmc s kind).2, hhead.config, hhead.memory⟩

/-- What a trigger of TBS shows whether its swap starts or it is late, and that an excluded one starts none. -/
theorem swapTrigger_tbs {s : State} (h : storeWf regReset s.regs = true) (rise : Bool) (hkind : cfg s 0x91 R.FRMC.CFG.TRIG = 2) :
    let u := swapTrigger s 2 rise
    isSet u 0x91 R.FRMC.STAT.EXCL = isSet s 0x0D R.TBS.STAT.EXCL ∧
      (getF u 0x91 R.FRMC.SWTIME.TIME = if cfg s 0x91 R.FRMC.SWPER.PER = 0 then getF s 0x91 R.FRMC.SWTIME.TIME
        else (getF s 0x91 R.FRMC.SWTIME.TIME + cfg s 0x91 R.FRMC.SWPER.PER) % 2 ^ 32) ∧
      (isSet s 0x0D R.TBS.STAT.EXCL = true → isSet u 0x91 R.FRMC.STAT.SWPEND = isSet s 0x91 R.FRMC.STAT.SWPEND) := by
  obtain ⟨hexcl, htime⟩ := swapShown_tbs h
  have hwf : storeWf regReset (swapShown s 2).regs = true := (swapShown_keepsHead s 2 0x91).canon h
  have heq := swapTrigger_eq (rise := rise) hkind (fun h => absurd h (by decide))
  have hkeeps {f : Fld} (hf : ∀ g ∈ R.FRMC.MISS.LATE :: R.FRMC.EVT.ALATE :: swapFields, fieldsApart f g = true) :
      KeepsField 0x91 f (swapShown s 2) (swapTrigger s 2 rise) := by
    rw [heq]
    exact .ite (swapStart_keepsField (.refl _ _ _) fun g hg => hf g (by simp [hg])) (swapLate_keepsField (.refl _ _ _) (hf _ (by simp)) (hf _ (by simp)))
  refine ⟨((hkeeps (by decide)).isSet hwf).trans hexcl, ((hkeeps (by decide)).field hwf).trans htime, fun hexcluded => ?_⟩
  have hlate : swapTrigger s 2 rise = swapLate (swapShown s 2) := by
    have hx : swapExcluded (swapTimed s 2) 2 = true := by simp [swapExcluded_timed h, hexcluded]
    rw [heq, if_neg (by simp [hx])]
  rw [hlate, (swapLate_keepsField (.refl _ _ _) (by decide) (by decide)).isSet hwf]
  exact (swapShown_keepsField 2 (by decide) (by decide)).isSet h

/-- An edge of MSYNC that finds FRMC unarmed and the player stopped is counted as late and does nothing else. -/
theorem swapTrigger_late {s : State} (h : storeWf regReset s.regs = true) {rise : Bool} (hkind : cfg s 0x91 R.FRMC.CFG.TRIG = 1)
    (hedge : cfgOn s 0x91 R.FRMC.CFG.MPOL = !rise) (harm : isSet s 0x91 R.FRMC.CTL.ARM = false) (hplay : s.frmc.play = 0) :
    let u := swapTrigger s 1 rise
    getF u 0x91 R.FRMC.MISS.LATE = satInc 65535 (getF s 0x91 R.FRMC.MISS.LATE) ∧ u.frmc = s.frmc ∧ u.due = s.due ∧ u.mem = s.mem := by
  have hlate : swapTrigger s 1 rise = setF s 0x91 R.FRMC.MISS.LATE (satInc 65535 (getF s 0x91 R.FRMC.MISS.LATE)) := by
    have hunarmed : swapTrigger s 1 rise = swapLate s :=
      (swapTrigger_eq hkind fun _ => hedge).trans (if_neg (by simp [swapShown, swapTimed, harm]))
    rw [hunarmed]
    exact if_pos hplay
  have hsmall : satInc 65535 (getF s 0x91 R.FRMC.MISS.LATE) < 65536 := by
    unfold satInc
    split <;> omega
  rw [hlate]
  exact ⟨(getF_setF_same h (by decide) (by decide)).trans (Nat.mod_eq_of_lt hsmall), rfl, rfl, rfl⟩

/-- A trigger of TBS comes once its time has, NEXT while FRMC is armed, and MSYNC at each edge. -/
theorem swapEvent_comes {s : State} {kind : Nat} (harm : kind = 0 → isSet s 0x91 R.FRMC.CTL.ARM = true)
    (hreached : kind = 2 → swapTimeReached s = true) (rise : Bool) : swapEvent s kind rise = swapTrigger s kind rise := by
  refine if_neg fun h => ?_
  simp only [Bool.or_eq_true, Bool.and_eq_true, decide_eq_true_eq, Bool.not_eq_true'] at h
  rcases h with ⟨h0, hunarmed⟩ | ⟨h2, hearly⟩
  · exact Bool.false_ne_true (hunarmed.symm.trans (harm h0))
  · exact Bool.false_ne_true (hearly.symm.trans (hreached h2))

theorem swapEvent_early {s : State} (h : swapTimeReached s = false) (rise : Bool) : swapEvent s 2 rise = s := if_pos (by simp [h])

theorem swapEvent_msync (s : State) (rise : Bool) : swapEvent s 1 rise = swapTrigger s 1 rise :=
  swapEvent_comes (fun h => absurd h (by decide)) (fun h => absurd h (by decide)) rise

/-- An edge of the other polarity is none. -/
theorem swapTrigger_otherEdge {s : State} {rise : Bool} (hedge : cfgOn s 0x91 R.FRMC.CFG.MPOL = rise) : swapTrigger s 1 rise = s :=
  if_pos (by simp [hedge])

end Sys2Proof.Machine
end

section
/-! The commands of frame memory, its swap and the animation player (10, R242 to R247, R253). -/

-- One proof after another: side by side they start more threads than the memory limit of the check has room for.
set_option Elab.async false

namespace Sys2Proof.Machine

/-! ### The mirror copy (R244) -/

theorem mirrorDone_copies {s : State} (h : Canon s) (hmirr : isSet s 0x91 R.FRMC.STAT.MIRR = true) : let u := mirrorDone s
    isSet u 0x91 R.FRMC.STAT.MIRR = false ∧ ∀ a, memGet u.mem a =
      let back := frmBase (!isSet s 0x91 R.FRMC.STAT.FRONT)
      if back ≤ a ∧ a < back + 0x9000 then memGet s.mem (a - back + frmBase (isSet s 0x91 R.FRMC.STAT.FRONT)) else memGet s.mem a := by
  let front := isSet s 0x91 R.FRMC.STAT.FRONT
  let copied : State := { s with mem := memCopy s.mem (frmBase front) (frmBase !front) 0x9000 }
  have hdone : mirrorDone s = playGo (setFlag copied 0x91 R.FRMC.STAT.MIRR false) := if_neg (by simp [hmirr])
  have hwf : storeWf regReset copied.regs = true := h.regs
  have hflag : isSet (setFlag copied 0x91 R.FRMC.STAT.MIRR false) 0x91 R.FRMC.STAT.MIRR = false := isSet_setFlag_same hwf rfl (by decide)
  have hbase (b : Bool) : frmBase b + 0x9000 ≤ extBase := by cases b <;> decide
  rw [hdone]
  refine ⟨((playGo_keepsField (.refl _ _ _) (by decide)).isSet (setFlag_wf hwf)).trans hflag, fun a => ?_⟩
  rw [playGo_mem]
  exact memGet_memCopy _ _ _ h.mem (hbase _) (hbase _) a

/-! ### The registers of FRMC -/

/-- What the writes of CTL, ACTL and CLR that the commands give do. -/
theorem frmcWrite_commands (s : State) : frmcWrite s 0x100 1 = frmcArm s ∧ frmcWrite s 0x11C 1 = playStart s ∧
    frmcWrite s 0x11C 2 = playStop s ∧ frmcWrite s 0x120 1 = wr s 0x91 0x10C 0 := ⟨rfl, rfl, rfl, rfl⟩

/-- A granted write of FRMC's live region is answered with what the register does, of which the answer is no part. -/
theorem answers_frmcWrite {c : Instr} {s t : State} {who : Who} {off : Nat} {v : Word} {P : State → Prop}
    (he : exec c s = done s (writeReg s who 0x91 off v)) (hm : MayWrite s who 0x91 off) (ho : off % 4 = 0 ∧ 0x100 ≤ off ∧ off < 0x800)
    (ht : frmcWrite s off v = t) (hP : P { t with ans := none }) : Answers c s P :=
  answers_liveWrite he hm (by decide) ho (ht ▸ rfl) hP

/-- FRMC takes ARM while neither a swap, a mirror copy nor the player holds it. -/
theorem frmcArm_arms {s : State} (h : storeWf regReset s.regs = true) (hswap : isSet s 0x91 R.FRMC.STAT.SWPEND = false)
    (hmirr : isSet s 0x91 R.FRMC.STAT.MIRR = false) (hplay : s.frmc.play = 0) : let u := frmcArm s
    isSet u 0x91 R.FRMC.CTL.ARM = true ∧ isSet u 0x91 R.FRMC.STAT.ARMED = true ∧ u.applied = s.applied ∧ u.mem = s.mem ∧ u.due = s.due := by
  have harm : frmcArm s = armSet s true := if_neg (by simp [hswap, hmirr, hplay])
  obtain ⟨hctl, hstat⟩ := armSet_shows h true
  rw [harm]
  exact ⟨hctl, hstat, rfl, rfl, rfl⟩

/-! ### The player (R246, R247) -/

/-- START with a frame to play begins the copy of frame 0 at once where neither a swap nor a mirror copy holds it up. -/
theorem playStart_copies {s : State} (h : storeWf regReset s.regs = true) (hframes : cfg s 0x91 R.FRMC.ALEN.NFRM ≠ 0)
    (hoff : blockOff s 0x91 = false) (hswap : isSet s 0x91 R.FRMC.STAT.SWPEND = false) (hmirr : isSet s 0x91 R.FRMC.STAT.MIRR = false) :
    let u := playStart s
    u.frmc.play = 2 ∧ getF u 0x91 R.FRMC.AFRM.IDX = 0 ∧ isSet u 0x91 R.FRMC.STAT.PLAY = true ∧ u.mem = s.mem := by
  let first := setF s 0x91 R.FRMC.AFRM.IDX 0
  have hfirst : storeWf regReset first.regs = true := setF_wf h
  have hwaiting : storeWf regReset (playSet first 1).regs = true :=
    (playSet_keepsField (.refl _ R.FRMC.AFRM.IDX first) (by decide) 1).canon hfirst
  have hclear {f : Fld} (hindex : fieldsApart f R.FRMC.AFRM.IDX = true) (hplay : fieldsApart f R.FRMC.STAT.PLAY = true) :
      isSet (playSet first 1) 0x91 f = isSet s 0x91 f :=
    (playSet_keepsField ((KeepsField.refl _ _ s).setF hindex) hplay 1).isSet h
  have hstart : playStart s = playSet (playSet first 1) 2 := by
    have hgoes : playStart s = playGo (playSet first 1) := by
      unfold playStart
      rw [if_neg hframes, if_neg (by simp [hoff])]
    rw [hgoes]
    have hphase : (playSet first 1).frmc.play = 1 := rfl
    have hswap' := (hclear (f := R.FRMC.STAT.SWPEND) (by decide) (by decide)).trans hswap
    have hmirr' := (hclear (f := R.FRMC.STAT.MIRR) (by decide) (by decide)).trans hmirr
    exact if_pos (by simp [hphase, hswap', hmirr'])
  have hindex := (playSet_keepsField (playSet_keepsField (.refl _ R.FRMC.AFRM.IDX first) (by decide) 1) (by decide) 2).field hfirst
  rw [hstart]
  exact ⟨rfl, hindex.trans (getF_setF_same h (by decide) (by decide)), isSet_playSet hwaiting 2, rfl⟩

/-- STOP lets a copy in progress end, and stops the player elsewhere. -/
theorem playStop_stops {s : State} (h : storeWf regReset s.regs = true) : let u := playStop s
    (s.frmc.play = 2 → u.frmc = { s.frmc with stop := true } ∧ u.regs = s.regs) ∧
      (s.frmc.play ≠ 2 → u.frmc.play = 0 ∧ isSet u 0x91 R.FRMC.STAT.PLAY = false) ∧ u.mem = s.mem := by
  by_cases hcopies : s.frmc.play = 2
  · have hstop : playStop s = { s with frmc := { s.frmc with stop := true } } := if_pos hcopies
    rw [hstop]
    exact ⟨fun _ => ⟨rfl, rfl⟩, fun hne => absurd hcopies hne, rfl⟩
  · have hstop : playStop s = playSet s 0 := if_neg hcopies
    rw [hstop]
    exact ⟨fun heq => absurd heq hcopies, fun _ => ⟨rfl, isSet_playSet h 0⟩, rfl⟩

/-- Address in external memory of the library frame in progress. -/
def playSource (s : State) : Nat :=
  (cfg s 0x91 R.FRMC.ASRC.ADDR + getF s 0x91 R.FRMC.AFRM.IDX * cfg s 0x91 R.FRMC.ASTR.STRIDE) % 2 ^ 32

/-- Address in frame memory that the library frame is copied to. -/
def playTarget (s : State) : Nat := frmBase (!isSet s 0x91 R.FRMC.STAT.FRONT) + cfg s 0x91 R.FRMC.ADST.DOFF

/-- The chip-select of a frame that can be read is not busy. -/
theorem playSource_ready {s : State} {len : Nat} (hread : playReadable s (playSource s) len = true)
    (hbusy : ∀ c, xspCs s (playSource s) = some c → xspBusy s c.1 = false) :
    xspBusy s (((xspCs s (playSource s)).map Prod.fst).getD 0) = false := by
  simp only [playReadable, Bool.and_eq_true, Option.isSome_iff_exists] at hread
  obtain ⟨⟨-, c, hc⟩, -⟩ := hread
  rw [hc]
  exact hbusy c hc

/-- The end of a copy in progress, in terms of where the frame stands and where it goes. -/
theorem playCopyDone_eq {s : State} (hcopies : s.frmc.play = 2) (ok : Bool) : playCopyDone s ok =
    let cs := ((xspCs s (playSource s)).map Prod.fst).getD 0
    if !playReadable s (playSource s) (cfg s 0x91 R.FRMC.ALEN.FLEN) then raiseP (playSet s 0) 0x91 1
    else if xspBusy s cs then s
    else if !ok then raiseP (playSet (if xspNand s cs then xspReadError s else s) 0) 0x91 1
    else
      let copied := { s with mem := memSetList s.mem (playTarget s) (extRead s (playSource s) (cfg s 0x91 R.FRMC.ALEN.FLEN)) }
      if s.frmc.stop then playSet copied 0 else armSet (playSet copied 3) true :=
  if_neg (not_not_intro hcopies)

/-- A copy that ends well, with no STOP given, leaves the frame in the back buffer and arms. -/
theorem playCopyDone_arms {s : State} (h : Canon s) (hcopies : s.frmc.play = 2) (hgoes : s.frmc.stop = false)
    (hread : playReadable s (playSource s) (cfg s 0x91 R.FRMC.ALEN.FLEN) = true)
    (hbusy : ∀ c, xspCs s (playSource s) = some c → xspBusy s c.1 = false) : let u := playCopyDone s true
    u.frmc.play = 3 ∧ isSet u 0x91 R.FRMC.CTL.ARM = true ∧ ∀ a, memGet u.mem a =
      if playTarget s ≤ a ∧ a < playTarget s + cfg s 0x91 R.FRMC.ALEN.FLEN
      then memGet s.mem (extBase + playSource s + (a - playTarget s)) else memGet s.mem a := by
  let copied : State := { s with mem := memSetList s.mem (playTarget s) (extRead s (playSource s) (cfg s 0x91 R.FRMC.ALEN.FLEN)) }
  have hready := playSource_ready hread hbusy
  have hdone : playCopyDone s true = armSet (playSet copied 3) true := by
    simp only [playCopyDone_eq hcopies, hread, hready, hgoes, Bool.not_true, Bool.false_eq_true, if_false]
    rfl
  have harmed : storeWf regReset (playSet copied 3).regs = true :=
    (playSet_keepsField (.refl _ R.FRMC.CTL.ARM copied) (by decide) 3).canon h.regs
  rw [hdone]
  refine ⟨rfl, (armSet_shows harmed true).1, fun a => ?_⟩
  have hmem : (armSet (playSet copied 3) true).mem = copied.mem := rfl
  rw [hmem, memGet_setList h.mem, extRead, memGetList_length]
  exact if_ctx_congr Iff.rfl (fun ha => memGetList_getD _ _ (by omega)) fun _ => rfl

/-- A copy that fails stops the player with AERR. -/
theorem playCopyDone_fails {s : State} (hcopies : s.frmc.play = 2)
    (hbusy : ∀ c, xspCs s (playSource s) = some c → xspBusy s c.1 = false) : let u := playCopyDone s false
    u.frmc.play = 0 ∧ Raises u 1161 ∧ u.mem = s.mem := by
  have hstops : ∃ t, playCopyDone s false = raiseP (playSet t 0) 0x91 1 ∧ t.mem = s.mem := by
    cases hread : playReadable s (playSource s) (cfg s 0x91 R.FRMC.ALEN.FLEN) with
    | true =>
      have hready := playSource_ready hread hbusy
      simp only [playCopyDone_eq hcopies, hread, hready, Bool.not_true, Bool.not_false, Bool.false_eq_true, if_false, if_true]
      refine ⟨_, rfl, ?_⟩
      split <;> rfl
    | false =>
      simp only [playCopyDone_eq hcopies, hread, Bool.not_false, if_true]
      exact ⟨s, rfl, rfl⟩
  obtain ⟨t, hdone, hmem⟩ := hstops
  rw [hdone]
  exact ⟨rfl, raiseP_raises _ 0x91 1, hmem⟩

/-! ### The obligation -/

/-- Settles O28: a trigger turns on what `swapShown` and `swapBegun` write and on the fields that the rest of a swap leaves, the copies on
how a copy's bytes read, and each write of a register on the act that it calls. -/
theorem frameMemory : Obligations.FrameMemory := by
  intro s who offs size v kind rise now h
  obtain ⟨harm, hstart, hstop, hclear⟩ := frmcWrite_commands s
  have hbase : 0x20200000 ≤ 0x20200000 + offs.toNat := by omega
  have hplace : 0x20200000 + offs.toNat < 0x20280000 := by have := offs.isLt; omega
  have haligned : offs.toNat % accBytes size = 0 → (0x20200000 + offs.toNat) % accBytes size = 0 := by
    cases size <;> simp only [accBytes] <;> omega
  refine ⟨?written, ?refused, ?arm, ?swap, ?late, ?early, ?tbs, ?edge, ?mirror, ?start, ?stop, ?copied, ?failed, ?clear⟩
  case written =>
    intro hrun hwho hoffs hsys hopen
    have hstores := storeAccess_frm v hrun hwho hsys hbase hplace (haligned hoffs)
    rw [hopen, if_neg Bool.false_ne_true] at hstores
    exact .of_done (congrArg (done s) hstores) (frmStore_answered h.mem _ size v)
  case refused =>
    intro hrun hwho hoffs hsys hrefused
    have hrejects := storeAccess_frm v hrun hwho hsys hbase hplace (haligned hoffs)
    rw [hrefused, if_pos rfl] at hrejects
    obtain ⟨hmem, hraises, hcount⟩ := frmReject_counts h.regs
    exact .of_done (congrArg (done s) hrejects) ⟨hmem, rfl, hraises, hcount⟩
  case arm =>
    exact fun hm hswap hmirr hplay => answers_frmcWrite rfl hm (by decide) harm (frmcArm_arms h.regs hswap hmirr hplay)
  case swap =>
    intro hrun hkind htbs hoff harmed hswap hall hedge
    refine answers_bused hrun rfl ?_
    rw [← setNow_tbs hrun]
    rw [setNow_eq] at htbs ⊢
    generalize (setNow s now.toNat).tbs = time at htbs ⊢
    rw [swapEvent_comes (s := atTime s time) (fun _ => harmed) fun h2 => (htbs h2).1]
    exact swapTrigger_shows (s := atTime s time) h.regs hkind hedge (fun h2 => (htbs h2).2) hoff harmed hswap hall
  case late =>
    intro hrun hkind hone hedge hunarmed hplay
    refine answers_bused hrun rfl ?_
    rw [hone] at hkind ⊢
    rw [swapEvent_msync, setNow_eq]
    generalize (setNow s now.toNat).tbs = time
    exact swapTrigger_late (s := atTime s time) h.regs hkind hedge hunarmed hplay
  case early =>
    intro hrun hearly
    exact answers_bused hrun rfl (swapEvent_early hearly rise)
  case tbs =>
    intro hrun hkind hreached
    refine answers_bused hrun rfl ?_
    rw [show ((2 : Fin 3) : Nat) = 2 from rfl, swapEvent_comes (fun h => absurd h (by decide)) (fun _ => hreached), setNow_eq]
    generalize (setNow s now.toNat).tbs = time
    exact swapTrigger_tbs (s := atTime s time) h.regs rise hkind
  case edge =>
    intro hrun hkind hedge
    refine .of_done (u := bused s fun s => swapEvent (setNow s now.toNat) 1 rise) rfl ?_
    have hnone : swapEvent (setNow s now.toNat) 1 rise = setNow s now.toNat := by
      rw [swapEvent_msync, setNow_eq]
      exact swapTrigger_otherEdge (s := atTime s _) hedge
    rw [bused, hnone, setNow_eq]
    split <;> exact ⟨rfl, rfl, rfl, rfl⟩
  case mirror => exact fun hrun hmirr => answers_bused hrun rfl (mirrorDone_copies h hmirr)
  case start =>
    exact fun hm hframes hoff hswap hmirr => answers_frmcWrite rfl hm (by decide) hstart (playStart_copies h.regs hframes hoff hswap hmirr)
  case stop => exact fun hm => answers_frmcWrite rfl hm (by decide) hstop (playStop_stops h.regs)
  case copied =>
    exact fun hrun hcopies hgoes hread hbusy => answers_bused hrun rfl (playCopyDone_arms h hcopies hgoes hread hbusy)
  case failed => exact fun hrun hcopies hbusy => answers_bused hrun rfl (playCopyDone_fails hcopies hbusy)
  case clear => exact fun hm => answers_frmcWrite rfl hm (by decide) hclear ⟨rd_wr_same h.regs, rfl, rfl, rfl⟩

end Sys2Proof.Machine
end
